-- ==== Sys2Proof/Word.lean ====
section
/-! DEFINITION. Bytes and the 32-bit register word of the MG-7740 (R31, R33). -/

namespace Sys2Proof

/-- A byte of host memory, of a frame or of a store. -/
abbrev Byte := BitVec 8

/-- A BAR0 register: 32 bits (R33). -/
abbrev Word := BitVec 32

end Sys2Proof
end

