-- ==== Sys2Proof/Syntax.lean ====
section
/-! DEFINITION. The commands of the MG-7740 block and the structures in their operands. -/
namespace Sys2Proof

/-- A complex correlation: I and Q. -/
structure Corr where
  i : Int
  q : Int
deriving DecidableEq, Repr

/-- What the correlators and the bit decoder of a channel yield at the end of a coherent interval (R158, R161, R164). -/
structure LoopIn where
  /-- Early, prompt and late correlations of each tracked component; the first one steers the loops. -/
  comps : List (Corr × Corr × Corr)
  /-- Power of the noise correlator. -/
  noise : Nat
  /-- Bit synchronisation has been found; the pilot's secondary-code phase is held. -/
  bitSync : Bool
  secSync : Bool
  /-- The preamble's polarity was found in this interval: whether ½ cycle is to be added. -/
  polarity : Option Bool
  /-- Transmit time of the replica at the interval's end, ns of system time, once the time of week is decoded. -/
  sent : Option Rat
  /-- A navigation page decoded in this interval: KIND, BITS, RX_TIME and its bytes (R152). -/
  page : Option (Nat × Nat × Nat × List (BitVec 8))
  /-- The leap count that the GPS message now gives. -/
  leap : Option Nat
deriving DecidableEq, Repr

/-- How a search ends (R155, R157). -/
inductive AcqEnd where
  /-- A descriptor's search: for each dwell in order, the powers of its window's cells. -/
  | host (ring index : Nat) (dwells : List (List Nat))
  /-- A search of the receiver's own under `AUTO` that found a signal: half-chip cells and Hz from where the search begins. -/
  | auto (antenna sig svid : Nat) (slot : Int) (cell : Nat) (offset : Int)
deriving DecidableEq, Repr

/-- What the navigation messages give for one satellite at an epoch; their format and their orbit and clock models stand in the
systems' own specifications. -/
structure SatView where
  sys : Nat
  svid : Nat
  /-- The store holds a usable ephemeris. -/
  eph : Bool
  /-- Position at transmission and velocity, Earth-fixed, m and m/s. -/
  pos : Rat × Rat × Rat
  vel : Rat × Rat × Rat
  /-- Lead of its clock on its system's time, m, and its rate, m/s. -/
  clock : Rat
  drift : Rat
  /-- Delay that its system's broadcast ionospheric model gives for a single signal, m. -/
  iono : Rat
deriving DecidableEq, Repr

/-- What reaches the receiver's microcode for one measurement epoch beside the channels. -/
structure MeasIn where
  /-- AGC gains of the six front ends (R143). -/
  gains : List Nat
  sky : List SatView
  /-- Where the receiver takes itself to be while it has no base coordinates, ECEF mm. -/
  near : Int × Int × Int
  /-- Offsets that the systems broadcast, units of 0.01 ns. -/
  bcast : List (Nat × Int)
deriving DecidableEq, Repr

/-- What reaches a solver lane beside the epoch and the record (R207, R208). -/
structure SolveIn where
  /-- The satellites at the instant of the observations. -/
  sky : List SatView
  /-- Where the solver takes a rover to be that has no position yet, ECEF mm. -/
  near : Int × Int × Int
deriving DecidableEq, Repr

/-- An access of one port to a word of the dual-port region: a read, or a write of the bytes of a mask (R445, R447). -/
inductive PortAccess where
  | read
  | write (mask : BitVec 8) (data : BitVec 64)
deriving DecidableEq, Repr

/-- A round of R446 in which the dual-port region serves accesses to one word: port A the cores, port B the units, host DMA and the
Cairn Recorder. -/
structure DualRound where
  word : Nat
  a : Option PortAccess
  b : Option PortAccess
deriving DecidableEq, Repr

/-- How a commit runs (R29, R56, R60, R61). -/
structure CommitRun where
  /-- A fatal cause that arises while the commit is checked, by its code in FATAL_CAUSE. -/
  cause : Option Nat
  /-- Ticks that the check takes, and ticks from its end until the commit word of a stored block is written. -/
  check : Nat
  store : Nat
  /-- The write of the stored block fails its read-back. -/
  bad : Bool
deriving DecidableEq, Repr, Inhabited

/-- What happens around a commit: how it runs, and what host memory holds where it reads its tables. -/
structure CommitIn extends CommitRun where
  host : List (Nat × List Byte)
deriving DecidableEq, Repr, Inhabited

/-- An edge of PPS_IN, `phase` eighths of a tick after the tick (R72). -/
structure PinEdge where
  phase : Nat
  falling : Bool
deriving DecidableEq, Repr

/-- What memory does up to a pass of the scrubber (R446, R449): the rounds of accesses that the dual-port region served, in order,
and then what the pass finds, by address and whether it could not be corrected. -/
structure MemWork where
  rounds : List DualRound
  hits : List (Nat × Bool)
deriving DecidableEq, Repr

/-- The supply of the backup domain: whether it is VBAT, and whether VBAT lies below 2.2 V then (R531). -/
structure Supply where
  vbat : Bool
  low : Bool
deriving DecidableEq, Repr

/-- An NV update that does not reach its commit word: the supply is lost, or PFAIL_N falls (R474, R501); and whether a replacement of
the block had written its own commit word by then (R484). -/
structure NvCut where
  power : Bool
  mapped : Bool
deriving DecidableEq, Repr

/-- How the NV writes of a command go: after `skip` of them that go well, one fails its read-back for good (`bad`, R484), or is cut
off. -/
structure NvRun where
  skip : Nat
  bad : Bool
  cut : Option NvCut
deriving DecidableEq, Repr

/-- NV writes that all go well. -/
def NvRun.plain : NvRun := ⟨0, false, none⟩

/-- When a command comes, in ticks since the command before, and what it meets in the world then. -/
structure Timed (α : Type) where
  dt : Nat
  env : α
deriving DecidableEq, Repr

/-- What the host sets in configuration space once the link is up: the codes of Max_Read_Request_Size and of the Completion Timeout
Value (R360, log entry 63). -/
structure HostSet where
  readReq : Nat
  timeout : Nat
deriving DecidableEq, Repr

/-- The commands: one constructor for each row of the opcode table, with the rule that gives its meaning. `dt`, of its own or in
`now`, is the number of ticks of the 250 MHz counter since the previous command. -/
inductive Instr where
  /-- R518. -/
  | powerOnReset (dt : Nat) (good : BitVec 10) (vbat : Bool)
  /-- R519. -/
  | porstNFall (dt : Nat)
  /-- R27. -/
  | resetRelease (dt : Nat) (recoveryLow : Bool)
  /-- R24. -/
  | pwrDeviceReset (dt : Nat) (value : Word)
  /-- R494. -/
  | romSlotSelect (now : Timed NvRun)
  /-- R493. -/
  | firmwareStart (now : Timed NvRun) (levels : BitVec 4)
  /-- R41. -/
  | registerWrite (dt : Nat) (offset size value : Nat)
  /-- R61. -/
  | cfgCommit (dt : Nat) (value : Word) (env : CommitIn)
  /-- R385. -/
  | hstCommit (dt ring index : Nat) (payload : List Byte) (host : List (Nat × List Byte)) (run : CommitRun)
  /-- R64. -/
  | launchCommitApply (dt : Nat) (host : List (Nat × List Byte)) (run : CommitRun)
  /-- R98. -/
  | launchEntryFire (dt : Nat)
  /-- R375. -/
  | hstLaunchCancel (dt ring index : Nat)
  /-- R386. -/
  | hstNop (dt ring index : Nat)
  /-- R10. -/
  | superframeBoundary (dt : Nat)
  /-- R231. -/
  | slotStart (dt port : Nat)
  /-- R253. -/
  | slotEnd (dt port : Nat)
  /-- R301. -/
  | secEpoch (dt : Nat) (us : Nat)
  /-- R523. -/
  | stageMonSample (dt : Nat) (ps : Nat)
  /-- R20. -/
  | stageSlowFatal (dt : Nat)
  /-- R28. -/
  | dieLinkFail (dt : Nat)
  /-- R28. -/
  | securityCoreFault (dt : Nat)
  /-- R523. -/
  | pwrTempSample (dt : Nat) (tj : Int)
  /-- R520. -/
  | pfailFall (now : Timed Nat)
  /-- R521. -/
  | pfailClear (dt : Nat)
  /-- R73. -/
  | tbHostTime (dt : Nat) (value : Word)
  /-- R72. -/
  | ppsInEdge (dt : Nat) (edge : PinEdge)
  /-- R70. -/
  | tbSourceQualify (dt : Nat) (src : Nat)
  /-- R71. -/
  | tbSourceLost (dt : Nat) (src : Nat)
  /-- R85. -/
  | tbStepApply (dt : Nat)
  /-- R87. -/
  | ppsOutEdge (dt : Nat)
  /-- R81. -/
  | tbErrEstUpdate (dt : Nat)
  /-- R95. -/
  | tbStampPop (dt : Nat)
  /-- R34. -/
  | tbAlarmArm (dt : Nat) (n : Nat) (value : Word)
  /-- R99. -/
  | tbAlarmFire (dt : Nat) (n : Nat)
  /-- R89. -/
  | ptpMessageReceived (dt port : Nat) (frame : List Byte) (phase : Nat)
  /-- R89. -/
  | ptpMessageSend (dt : Nat) (port kind : Nat)
  /-- R70. -/
  | ptpAnnounceTimeout (dt port : Nat)
  /-- R130. -/
  | fldTileLoad (dt ring index : Nat) (payload : List Byte)
  /-- R131. -/
  | fldTileSave (dt ring index : Nat)
  /-- R133. -/
  | fldTableWriteStaging (dt ring index : Nat) (payload : List Byte)
  /-- R133. -/
  | fldTableReadStaging (dt ring index : Nat)
  /-- R133. -/
  | fldTableReadActive (dt ring index : Nat)
  /-- R134. -/
  | fldSyncApply (dt ring index : Nat) (payload : List Byte)
  /-- R135. -/
  | fldSyncSend (dt : Nat)
  /-- R137. -/
  | mapDeltaReceived (dt port : Nat) (frame : List Byte)
  /-- R124. -/
  | fldCopyDone (dt : Nat)
  /-- R144. -/
  | gnsCapture (dt ring index : Nat)
  /-- R153. -/
  | gnsNavLoad (dt ring index : Nat) (payload : List Byte)
  /-- R153. -/
  | gnsNavSave (dt ring index : Nat)
  /-- R154. -/
  | gnsAcq (dt ring index : Nat)
  /-- R156. -/
  | gnsAcqDone (dt : Nat) (search : AcqEnd)
  /-- R159. -/
  | gnsChanStart (dt ring index : Nat)
  /-- R159. -/
  | gnsChanRelease (dt ring index : Nat)
  /-- R159. -/
  | gnsChanRetune (dt ring index : Nat)
  /-- R160. -/
  | gnsLoopUpdate (dt : Nat) (chan : Nat) (input : LoopIn)
  /-- R161. -/
  | gnsChanTracking (dt : Nat) (chan : Nat)
  /-- R161. -/
  | gnsChanLost (dt : Nat) (chan : Nat)
  /-- R143. -/
  | gnsNosig (dt : Nat) (antB : Bool) (gains : List Nat)
  /-- R162. -/
  | gnsMeasEpoch (dt : Nat)
  /-- R162. -/
  | gnsMeasReady (dt : Nat) (input : MeasIn)
  /-- R185. -/
  | mirEscalate (dt : Nat)
  /-- R185. -/
  | mirLevelFall (dt : Nat)
  /-- R176. -/
  | mirConditionClear (dt : Nat) (check key : Nat)
  /-- R188. -/
  | mirClear (dt : Nat) (value : Word)
  /-- R179. -/
  | mirBaseReset (dt : Nat) (value : Word)
  /-- R182. -/
  | mirPeakScan (dt : Nat) (chan : Nat) (powers : List Nat)
  /-- R200. -/
  | fixRtcmStale (dt port : Nat)
  /-- R219. -/
  | fixRtcmGet (dt ring index : Nat)
  /-- R201. -/
  | fabCorrectionReceived (dt port : Nat) (frame : List Byte)
  /-- R220. -/
  | fixRoverReset (dt ring index : Nat)
  /-- R221. -/
  | fixStrings (dt ring index : Nat) (payload : List Byte)
  /-- R247. -/
  | uplinkReceived (dt : Nat) (port time rssi : Nat) (frame : List Byte)
  /-- R206. -/
  | fixEpochDeadline (dt : Nat) (machine : Nat)
  /-- R212. -/
  | fixSolveStart (dt : Nat)
  /-- R215. -/
  | fixSolReady (dt : Nat) (lane : Nat) (input : SolveIn)
  /-- R250. -/
  | joinReqReceived (dt : Nat) (port time rssi : Nat) (frame : List Byte)
  /-- R256. -/
  | nodePollReceived (dt : Nat) (port time rssi : Nat) (frame : List Byte)
  /-- R339. -/
  | pendantStopReceived (dt : Nat) (port time rssi : Nat) (frame : List Byte)
  /-- R261. -/
  | hopNodeDlDiscard (dt : Nat) (node : Nat)
  /-- R266. -/
  | hopSend (dt ring index : Nat) (payload : List Byte)
  /-- R267. -/
  | hopRecv (dt ring index : Nat)
  /-- R276. -/
  | carRequestDecide (dt : Nat) (us : Nat)
  /-- R282. -/
  | carHostTimeout (dt : Nat)
  /-- R284. -/
  | carExpiry (dt : Nat)
  /-- R291. -/
  | carTrackLoad (dt ring index : Nat) (payload : List Byte)
  /-- R291. -/
  | carTrackRead (dt ring index : Nat)
  /-- R292. -/
  | carTaskSet (dt ring index : Nat) (payload : List Byte)
  /-- R293. -/
  | carReserve (dt ring index : Nat) (payload : List Byte)
  /-- R294. -/
  | carReqGet (dt ring index : Nat)
  /-- R295. -/
  | carRelease (dt ring index : Nat)
  /-- R296. -/
  | carResume (dt ring index : Nat)
  /-- R336. -/
  | stopInEdge (dt : Nat) (pinB stop : Bool)
  /-- R337. -/
  | stpPinFault (dt : Nat)
  /-- R343. -/
  | fabricStopReceived (dt port : Nat) (frame : List Byte)
  /-- R407. -/
  | fabStopRepeat (dt : Nat)
  /-- R348. -/
  | stpSelftestPulse (dt : Nat) (outB : Bool)
  /-- R348. -/
  | stpOutMismatch (dt : Nat) (outB : Bool)
  /-- R357. -/
  | stpStop (dt ring index : Nat)
  /-- R349. -/
  | stpArm (dt ring index : Nat)
  /-- R350. -/
  | stpConfirm (dt ring index : Nat)
  /-- R350. -/
  | stpArmExpired (dt : Nat)
  /-- R353. -/
  | stpReEnable (dt ring index : Nat)
  /-- R362. -/
  | doorbellRead (dt : Nat) (block : List Byte)
  /-- R371. -/
  | descriptorTake (dt : Nat) (ring : Nat) (bytes : List Byte)
  /-- R378. -/
  | ringEnable (dt : Nat) (ring : Nat) (value : Word)
  /-- R379. -/
  | ringDisable (dt : Nat) (ring : Nat) (value : Word)
  /-- R379. -/
  | ringDrained (dt : Nat) (ring : Nat)
  /-- R376. -/
  | pcieDmaError (dt : Nat) (phase kind ring index : Nat)
  /-- R382. -/
  | hstFlr (dt : Nat)
  /-- R382. -/
  | hstLinkDown (dt : Nat)
  /-- R381. -/
  | hstIrqModTimeout (dt : Nat) (ring : Nat)
  /-- R396. -/
  | fabHelloSend (dt : Nat)
  /-- R397. -/
  | helloReceived (dt port : Nat) (frame : List Byte)
  /-- R397. -/
  | fabLinkTimeout (dt port : Nat)
  /-- R397. -/
  | fabPcsLoss (dt port : Nat) (hiBer : Bool)
  /-- R390. -/
  | fabModuleChange (dt port : Nat) (present los : Bool)
  /-- R399. -/
  | fabClaimRepeat (dt : Nat)
  /-- R399. -/
  | fabClaimWaitExpired (dt : Nat)
  /-- R399. -/
  | claimReceived (dt port : Nat) (frame : List Byte)
  /-- R401. -/
  | lsaReceived (dt port : Nat) (frame : List Byte)
  /-- R401. -/
  | fabLsaSend (dt : Nat)
  /-- R401. -/
  | fabLsaExpire (dt : Nat)
  /-- R402. -/
  | fabSpfRun (dt : Nat)
  /-- R405. -/
  | fabFrameReceived (dt port : Nat) (frame : List Byte)
  /-- R409. -/
  | machineMsgReceived (dt port : Nat) (frame : List Byte)
  /-- R420. -/
  | fabHostFrameReceived (dt port : Nat) (frame : List Byte)
  /-- R414. -/
  | fabLearnFilterRetire (dt : Nat)
  /-- R416. -/
  | fabAgeSweep (dt : Nat)
  /-- R419. -/
  | fabSend (dt ring index : Nat) (payload : List Byte)
  /-- R420. -/
  | fabRecv (dt ring index : Nat)
  /-- R412. -/
  | fabLearnInsert (dt ring index : Nat)
  /-- R421. -/
  | fabLearnRemove (dt ring index : Nat)
  /-- R421. -/
  | fabLearnLookup (dt ring index : Nat)
  /-- R421. -/
  | fabLearnRead (dt ring index : Nat)
  /-- R422. -/
  | fabLearnEvent (dt ring index : Nat)
  /-- R423. -/
  | fabModuleRead (dt ring index : Nat) (data : List Byte) (ack : Bool)
  /-- R423. -/
  | fabModuleWrite (dt ring index : Nat) (payload : List Byte) (acked : Nat)
  /-- R433. -/
  | dctlStart (dt : Nat) (core thread : Nat) (entry arg sp : Word)
  /-- R433. -/
  | dctlSuspend (dt : Nat) (core thread : Nat)
  /-- R433. -/
  | dctlResume (dt : Nat) (core thread : Nat)
  /-- R433. -/
  | dctlKill (dt : Nat) (core thread : Nat)
  /-- R433. -/
  | dcfgWrite (dt : Nat) (core thread : Nat) (value : Word)
  /-- R429. -/
  | dcinv (dt : Nat) (core : Nat)
  /-- R430. -/
  | dwany (dt : Nat) (core rd : Nat) (mask : Word)
  /-- R430. -/
  | dwall (dt : Nat) (core rd : Nat) (mask : Word)
  /-- R431. -/
  | dpost (dt : Nat) (core : Nat) (value : Word)
  /-- R435. -/
  | dyield (dt : Nat) (core : Nat)
  /-- R442. -/
  | dkick (dt : Nat) (core : Nat) (value : Word)
  /-- R429. -/
  | dclr (dt : Nat) (core : Nat) (mask : Word)
  /-- R442. -/
  | disWatchdog (dt : Nat) (k : Nat)
  /-- R440. -/
  | disRouteWriteStaging (dt ring index : Nat) (payload : List Byte)
  /-- R440. -/
  | disRouteReadStaging (dt ring index : Nat)
  /-- R440. -/
  | disRouteReadActive (dt ring index : Nat)
  /-- R449. -/
  | memScrub (dt : Nat) (work : MemWork)
  /-- R450. -/
  | memDramReady (dt : Nat) (ok : Bool)
  /-- R477. -/
  | keyCreateDerive (dt ring index : Nat) (payload : List Byte) (run : NvRun)
  /-- R477. -/
  | keyCreateGenerate (dt ring index : Nat) (run : NvRun)
  /-- R477. -/
  | keyCreateImport (dt ring index : Nat) (payload : List Byte) (run : NvRun)
  /-- R461. -/
  | keyDestroy (dt ring index : Nat) (run : NvRun)
  /-- R461. -/
  | keyInvalidate (dt ring index : Nat) (run : NvRun)
  /-- R478. -/
  | keyInfo (dt ring index : Nat)
  /-- R479. -/
  | keyCryptGcmEncrypt (dt ring index : Nat) (payload : List Byte)
  /-- R479. -/
  | keyCryptGcmDecrypt (dt ring index : Nat) (payload : List Byte)
  /-- R479. -/
  | keyCryptCcmEncrypt (dt ring index : Nat) (payload : List Byte)
  /-- R479. -/
  | keyCryptCcmDecrypt (dt ring index : Nat) (payload : List Byte)
  /-- R479. -/
  | keyCryptCmacGenerate (dt ring index : Nat) (payload : List Byte)
  /-- R479. -/
  | keyCryptCmacVerify (dt ring index : Nat) (payload : List Byte)
  /-- R479. -/
  | keyCryptHmacGenerate (dt ring index : Nat) (payload : List Byte)
  /-- R479. -/
  | keyCryptHmacVerify (dt ring index : Nat) (payload : List Byte)
  /-- R467. -/
  | keyJobStart (dt : Nat)
  /-- R467. -/
  | keyJobDone (dt : Nat) (engine : Nat)
  /-- R478. -/
  | keyWrapOut (dt ring index : Nat)
  /-- R472. -/
  | keyAttest (dt ring index : Nat) (payload : List Byte) (run : NvRun)
  /-- R479. -/
  | keyEpochRoll (dt ring index : Nat)
  /-- R464. -/
  | keyRemask (dt : Nat)
  /-- R470. -/
  | tamperEvent (now : Timed Nat) (input : Nat) (levels : BitVec 4)
  /-- R495. -/
  | bootUpdateBegin (dt ring index : Nat) (payload : List Byte)
  /-- R495. -/
  | bootUpdateWrite (dt ring index : Nat) (payload : List Byte)
  /-- R495. -/
  | bootUpdateFinish (dt ring index : Nat) (run : NvRun)
  /-- R496. -/
  | bootConfirm (dt ring index : Nat) (run : NvRun)
  /-- R492. -/
  | bootExtend (now : Timed NvRun) (ring index : Nat) (payload : List Byte)
  /-- R499. -/
  | bootPeerServe (dt ring index : Nat)
  /-- R492. -/
  | bootLogRead (dt ring index : Nat)
  /-- R487. -/
  | nvmCfgGet (dt ring index : Nat)
  /-- R483. -/
  | nvmUserWrite (dt ring index : Nat) (payload : List Byte) (run : NvRun)
  /-- R483. -/
  | nvmUserRead (dt ring index : Nat)
  /-- R498. -/
  | recoveryRequestSend (dt : Nat)
  /-- R498. -/
  | recoveryDataReceived (now : Timed NvRun) (frame : List Byte)
  /-- R499. -/
  | bootPeerRequest (dt port : Nat) (frame : List Byte)
  /-- R507. -/
  | crnRecordWrite (dt : Nat)
  /-- R510. -/
  | crnFlush (dt ring index : Nat)
  /-- R510. -/
  | crnFlushAuto (dt : Nat)
  /-- R510. -/
  | crnFlushDone (now : Timed (List Nat))
  /-- R514. -/
  | crnRead (dt ring index : Nat)
  /-- R548. -/
  | crnClassWriteStaging (dt ring index : Nat) (payload : List Byte)
  /-- R548. -/
  | crnClassReadStaging (dt ring index : Nat)
  /-- R548. -/
  | crnClassReadActive (dt ring index : Nat)
  /-- R504. -/
  | crnErase (dt ring index : Nat)
  /-- R395. -/
  | fabEgressDequeue (dt port : Nat)
  /-- R389. -/
  | fabBlockLock (dt port : Nat)
  /-- R382. -/
  | pcieLinkUp (now : Timed HostSet) (speed width : Nat)
  /-- R143. -/
  | gnsNosigClear (dt : Nat) (antB : Bool) (gains : List Nat)
  /-- R87. -/
  | ppsOutPulseEnd (dt : Nat)
  /-- R348. -/
  | stpSelftestPulseEnd (dt : Nat) (outB readBack : Bool)
  /-- R144. -/
  | gnsCaptureDone (dt ring index : Nat) (inPhase quadrature : List (BitVec 4))
  /-- R531. -/
  | backupSupplySwitch (dt : Nat) (supply : Supply) (levels : BitVec 4)
deriving DecidableEq, Repr

end Sys2Proof
end

