-- ==== Sys2Proof/WellFormed.lean ====
section
/-! DEFINITION. Which commands the encodings of the manual can carry. -/
namespace Sys2Proof

/-- The operands lie within what the block of the manual that carries them can hold. A command with others runs too, as the meaning of
its row says (log entries 64 and 78). A doorbell block of 1024 bytes (R362), a descriptor of 64 (R361), ports 0 to 5 (R2), eighths of a
tick (R35), sources 0 to 3 (R69), alarms 0 to 31 (R99), the phases and kinds of a DMA error (R376), the generations and widths of the
link with the read requests and completion timeouts that the host may set (R360), the words of the dual-port region (R445), the 200 µs
of a Caravan decision (R276) and the 12 ms of an epoch (R301). -/
def Instr.wf : Instr → Bool
  | .secEpoch _ us => decide (us ≤ 12000)
  | .ppsInEdge _ edge => decide (edge.phase ≤ 7)
  | .tbSourceQualify _ src => decide (src ≤ 3)
  | .tbSourceLost _ src => decide (src ≤ 3)
  | .tbAlarmArm _ n _ => decide (n ≤ 31)
  | .tbAlarmFire _ n => decide (n ≤ 31)
  | .ptpMessageReceived _ port _ phase => decide (port ≤ 5 ∧ phase ≤ 7)
  | .ptpMessageSend _ port kind => decide (port ≤ 5 ∧ kind ≤ 2)
  | .ptpAnnounceTimeout _ port => decide (port ≤ 5)
  | .carRequestDecide _ us => decide (us ≤ 200)
  | .doorbellRead _ block => decide (block.length = 1024)
  | .descriptorTake _ _ bytes => decide (bytes.length = 64)
  | .pcieDmaError _ phase kind ring _ => decide (phase ≤ 5 ∧ 1 ≤ kind ∧ kind ≤ 4 ∧ ring < 64)
  | .memScrub _ work => work.rounds.all fun r => r.word < 65536
  | .pcieLinkUp now speed width =>
    decide (1 ≤ speed ∧ speed ≤ 4 ∧ (width = 1 ∨ width = 2 ∨ width = 4) ∧ now.env.readReq ≤ 5) &&
      [0, 1, 2, 5, 6, 9, 10].contains now.env.timeout
  | .powerOnReset .. | .porstNFall .. | .resetRelease .. | .pwrDeviceReset .. | .romSlotSelect .. | .firmwareStart ..
  | .registerWrite .. | .cfgCommit .. | .hstCommit .. | .launchCommitApply .. | .launchEntryFire .. | .hstLaunchCancel ..
  | .hstNop .. | .superframeBoundary .. | .slotStart .. | .slotEnd .. | .stageMonSample .. | .stageSlowFatal ..
  | .dieLinkFail .. | .securityCoreFault .. | .pwrTempSample .. | .pfailFall .. | .pfailClear .. | .tbHostTime ..
  | .tbStepApply .. | .ppsOutEdge .. | .tbErrEstUpdate .. | .tbStampPop .. | .fldTileLoad .. | .fldTileSave ..
  | .fldTableWriteStaging .. | .fldTableReadStaging .. | .fldTableReadActive .. | .fldSyncApply .. | .fldSyncSend ..
  | .mapDeltaReceived .. | .fldCopyDone .. | .gnsCapture .. | .gnsNavLoad .. | .gnsNavSave .. | .gnsAcq .. | .gnsAcqDone ..
  | .gnsChanStart .. | .gnsChanRelease .. | .gnsChanRetune .. | .gnsLoopUpdate .. | .gnsChanTracking .. | .gnsChanLost ..
  | .gnsNosig .. | .gnsMeasEpoch .. | .gnsMeasReady .. | .mirEscalate .. | .mirLevelFall .. | .mirConditionClear ..
  | .mirClear .. | .mirBaseReset .. | .mirPeakScan .. | .fixRtcmStale .. | .fixRtcmGet .. | .fabCorrectionReceived ..
  | .fixRoverReset .. | .fixStrings .. | .uplinkReceived .. | .fixEpochDeadline .. | .fixSolveStart .. | .fixSolReady ..
  | .joinReqReceived .. | .nodePollReceived .. | .pendantStopReceived .. | .hopNodeDlDiscard .. | .hopSend .. | .hopRecv ..
  | .carHostTimeout .. | .carExpiry .. | .carTrackLoad .. | .carTrackRead .. | .carTaskSet .. | .carReserve ..
  | .carReqGet .. | .carRelease .. | .carResume .. | .stopInEdge .. | .stpPinFault .. | .fabricStopReceived ..
  | .fabStopRepeat .. | .stpSelftestPulse .. | .stpOutMismatch .. | .stpStop .. | .stpArm .. | .stpConfirm ..
  | .stpArmExpired .. | .stpReEnable .. | .ringEnable .. | .ringDisable .. | .ringDrained .. | .hstFlr .. | .hstLinkDown ..
  | .hstIrqModTimeout .. | .fabHelloSend .. | .helloReceived .. | .fabLinkTimeout .. | .fabPcsLoss .. | .fabModuleChange ..
  | .fabClaimRepeat .. | .fabClaimWaitExpired .. | .claimReceived .. | .lsaReceived .. | .fabLsaSend .. | .fabLsaExpire ..
  | .fabSpfRun .. | .fabFrameReceived .. | .machineMsgReceived .. | .fabHostFrameReceived .. | .fabLearnFilterRetire ..
  | .fabAgeSweep .. | .fabSend .. | .fabRecv .. | .fabLearnInsert .. | .fabLearnRemove .. | .fabLearnLookup ..
  | .fabLearnRead .. | .fabLearnEvent .. | .fabModuleRead .. | .fabModuleWrite .. | .dctlStart .. | .dctlSuspend ..
  | .dctlResume .. | .dctlKill .. | .dcfgWrite .. | .dcinv .. | .dwany .. | .dwall .. | .dpost .. | .dyield .. | .dkick ..
  | .dclr .. | .disWatchdog .. | .disRouteWriteStaging .. | .disRouteReadStaging .. | .disRouteReadActive ..
  | .memDramReady .. | .keyCreateDerive .. | .keyCreateGenerate .. | .keyCreateImport .. | .keyDestroy .. | .keyInvalidate ..
  | .keyInfo .. | .keyCryptGcmEncrypt .. | .keyCryptGcmDecrypt .. | .keyCryptCcmEncrypt .. | .keyCryptCcmDecrypt ..
  | .keyCryptCmacGenerate .. | .keyCryptCmacVerify .. | .keyCryptHmacGenerate .. | .keyCryptHmacVerify .. | .keyJobStart ..
  | .keyJobDone .. | .keyWrapOut .. | .keyAttest .. | .keyEpochRoll .. | .keyRemask .. | .tamperEvent ..
  | .bootUpdateBegin .. | .bootUpdateWrite .. | .bootUpdateFinish .. | .bootConfirm .. | .bootExtend .. | .bootPeerServe ..
  | .bootLogRead .. | .nvmCfgGet .. | .nvmUserWrite .. | .nvmUserRead .. | .recoveryRequestSend .. | .recoveryDataReceived ..
  | .bootPeerRequest .. | .crnRecordWrite .. | .crnFlush .. | .crnFlushAuto .. | .crnFlushDone .. | .crnRead ..
  | .crnClassWriteStaging .. | .crnClassReadStaging .. | .crnClassReadActive .. | .crnErase .. | .fabEgressDequeue ..
  | .fabBlockLock .. | .gnsNosigClear .. | .ppsOutPulseEnd .. | .stpSelftestPulseEnd .. | .gnsCaptureDone ..
  | .backupSupplySwitch .. => true

end Sys2Proof
end

