-- ==== Sys2Proof/Config.lean ====
section
/-! DEFINITION. What an MG-7740 fixes for itself and the manual does not: the cryptographic primitives that the manual
names by their standards, the fused secrets, and the free values (opaque, with no body). -/

namespace Sys2Proof.Config

/-- A free value of `w` bits: `tag` says which open value of the manual it stands for, `n` is the draw (a counter of the
state), so that nothing constrains it (log entry 3). -/
opaque freeBits (tag n w : Nat) : BitVec w
/-- A free integer, drawn as `freeBits` (log entry 3). -/
opaque freeInt (tag n : Nat) : Int

/-- Tropospheric delay of the standard atmosphere, m, at a height in m and the sine of an elevation (R208, log entry 73). -/
opaque standardAtmosphere (height sinElev : Rat) : Rat
/-- The variance with which a velocity (0), in m²/s², and an ambiguity (1), in square cycles, begin in a filter (log entry 73). -/
opaque firstVariance (kind : Nat) : Rat

/-- AES-CMAC of a key over a message, 16 bytes as one number, first byte most significant (log entry 4). -/
opaque aesCmac (key msg : List Byte) : BitVec 128
/-- Byte `i` of the AES-GCM key stream of a key and an initialisation vector (log entry 4). -/
opaque gcmStream (key iv : List Byte) (i : Nat) : Byte
/-- The AES-GCM tag over associated data and ciphertext (log entry 4). -/
opaque gcmTag (key iv aad ct : List Byte) : BitVec 128
/-- Byte `i` of the AES-CCM key stream of a key and a nonce (log entry 4). -/
opaque ccmStream (key nonce : List Byte) (i : Nat) : Byte
/-- The AES-CCM tag of `len` bytes over associated data and plaintext (log entry 4). -/
opaque ccmTag (key nonce aad pt : List Byte) (len : Nat) : BitVec 128
/-- Byte `i` of the SP 800-38F KW wrapping of key material (log entry 4). -/
opaque kwByte (key mat : List Byte) (i : Nat) : Byte
/-- SP 800-38F KW unwrapping: none where the integrity check fails (log entry 4). -/
opaque kwUnwrap (key ct : List Byte) : Option (List Byte)
/-- HMAC-SHA-256 (log entry 4). -/
opaque hmac256 (key msg : List Byte) : BitVec 256
/-- HMAC-SHA-384 (log entry 4). -/
opaque hmac384 (key msg : List Byte) : BitVec 384
/-- SHA-384 (log entry 4). -/
opaque sha384 (msg : List Byte) : BitVec 384
/-- ECDSA P-384 verification of a signature over a digest under a public key (log entry 4). -/
opaque ecdsaOk (pub sig : List Byte) (digest : BitVec 384) : Bool

/-- The fused secret of R455. -/
opaque fusedSecret : BitVec 256
/-- The fused provisioning key of R456. -/
opaque provisionKey : BitVec 256
/-- The hash fused in signer slot `k` (R489, R490). -/
opaque signerHash (k : Nat) : BitVec 384
/-- The image key fused beside signer slot `k` (R491). -/
opaque imageKey (k : Nat) : BitVec 256
/-- The vendor public key of fused signer slot 0 (R489). -/
opaque vendorKey : BitVec 768
/-- The fused EUI-64, of which the model makes a number that is not zero (R541). -/
opaque fusedEui : BitVec 64
/-- KEY_DEVICE_ID, byte 0 in the low bits (R472). -/
opaque fusedDevice : BitVec 128
/-- The ROM's own digest (R492). -/
opaque romDigest : BitVec 384

/-- How a commit that a core asks for runs, by the draw (log entry 60). -/
opaque coreCommit (n : Nat) : CommitIn
/-- A core traps a misaligned load or store, in place of carrying it out (log entry 60). -/
opaque misalignedTraps : Bool

end Sys2Proof.Config
end

