-- ==== Sys2Proof/Machine/Table.lean ====
section
/-! DEFINITION. Sparse tables by number, in one canonical form: keys strictly rising. A table with a default value lists no
entry equal to it, so that equal contents are equal data. Memories are such tables from addresses to bytes. -/

namespace Sys2Proof.Machine

/-- A sparse table: entries by rising number. -/
abbrev Tbl (α : Type) := List (Nat × α)

/-- The entry listed under `i`. -/
def tfind {α : Type} : Tbl α → Nat → Option α
  | [], _ => none
  | (k, v) :: r, i => if k = i then some v else tfind r i

/-- The entry under `i`, or the default. -/
def tget {α : Type} (t : Tbl α) (d : α) (i : Nat) : α := (tfind t i).getD d

/-- List `v` under `i`. -/
def tput {α : Type} : Tbl α → Nat → α → Tbl α
  | [], i, v => [(i, v)]
  | (k, w) :: r, i, v =>
    if i < k then (i, v) :: (k, w) :: r else if k = i then (i, v) :: r else (k, w) :: tput r i v

/-- Take out what is listed under `i`. -/
def terase {α : Type} : Tbl α → Nat → Tbl α
  | [], _ => []
  | (k, w) :: r, i => if k = i then r else (k, w) :: terase r i

/-- Write `v` under `i`; writing the default takes the entry out. -/
def tset {α : Type} [DecidableEq α] (t : Tbl α) (d : α) (i : Nat) (v : α) : Tbl α :=
  if v = d then terase t i else tput t i v

/-- Change the entry under `i`. -/
def tmod {α : Type} [DecidableEq α] (t : Tbl α) (d : α) (i : Nat) (f : α → α) : Tbl α :=
  tset t d i (f (tget t d i))

/-- The canonical form over a default value. -/
abbrev tcanon {α : Type} (t : Tbl α) (d : α) : Prop :=
  t.Pairwise (fun p q => p.1 < q.1) ∧ ∀ p ∈ t, p.2 ≠ d

/-- The canonical form of a table with no default: keys strictly rising. -/
abbrev tsorted {α : Type} (t : Tbl α) : Prop := t.Pairwise (fun p q => p.1 < q.1)

/-- A byte memory; an unlisted address reads as the default its unit names. -/
abbrev Memory := Tbl Byte

/-- The canonical form of a memory whose unlisted bytes read as `d`. -/
abbrev Memory.wf (m : Memory) (d : Byte) : Prop := tcanon m d

/-- `n` bytes from address `a`. -/
def readMem (m : Memory) (d : Byte) (a n : Nat) : List Byte := (List.range n).map fun i => tget m d (a + i)

/-- Store bytes from address `a` upward. -/
def writeMem (m : Memory) (d : Byte) (a : Nat) : List Byte → Memory
  | [] => m
  | b :: r => writeMem (tset m d a b) d (a + 1) r

end Sys2Proof.Machine
end

