-- ==== Sys2Proof/Machine/Bytes.lean ====
section
/-! DEFINITION. Byte order, bit fields, CRC-32C and small arithmetic shared by every unit (R31, R32). -/

namespace Sys2Proof.Machine

/-- The number that little-endian bytes spell (R31). -/
def leNat : List Byte → Nat
  | [] => 0
  | b :: r => b.toNat + 256 * leNat r

/-- `n` little-endian bytes of a number. -/
def leBytes : Nat → Nat → List Byte
  | 0, _ => []
  | n + 1, v => BitVec.ofNat 8 v :: leBytes n (v / 256)

/-- `n` big-endian bytes of a number. -/
def beBytes (n v : Nat) : List Byte := (leBytes n v).reverse

/-- The number that big-endian bytes spell. -/
def beNat (l : List Byte) : Nat := leNat l.reverse

/-- Byte `i`, zero beyond the end. -/
def byteAt (l : List Byte) (i : Nat) : Nat := (l.getD i 0).toNat

/-- Exactly `n` bytes from offset `o`, zero beyond the end. -/
def slice (l : List Byte) (o n : Nat) : List Byte := (List.range n).map fun i => l.getD (o + i) 0

/-- The little-endian number of `n` bytes at offset `o`. -/
def fieldLE (l : List Byte) (o n : Nat) : Nat := leNat (slice l o n)

/-- `l` cut or zero-padded to `n` bytes. -/
def padTo (n : Nat) (l : List Byte) : List Byte := (l.take n) ++ List.replicate (n - l.length) 0

/-- Bits `lo` to `lo + w - 1` of a number. -/
def bits (v lo w : Nat) : Nat := v / 2 ^ lo % 2 ^ w

/-- Bit `i` of a number. -/
def bit (v i : Nat) : Bool := v / 2 ^ i % 2 = 1

/-- A Bool as a bit. -/
def b2n (b : Bool) : Nat := if b then 1 else 0

/-- A field of `w` bits read as two's complement (R32). -/
def signed (w v : Nat) : Int := if 2 * (v % 2 ^ w) < 2 ^ w then (v % 2 ^ w : Nat) else (v % 2 ^ w : Nat) - (2 ^ w : Nat)

/-- An integer as a field of `w` bits, two's complement. -/
def unsigned (w : Nat) (v : Int) : Nat := (v % (2 ^ w : Nat)).toNat

/-- An integer held within bounds. -/
def clampInt (lo hi v : Int) : Int := if v < lo then lo else if hi < v then hi else v

/-- A natural number held within bounds. -/
def clampNat (lo hi v : Nat) : Nat := if v < lo then lo else if hi < v then hi else v

/-- The integer nearest to a rational, ties away from zero. -/
def roundRat (q : Rat) : Int := if 0 ≤ q then (q + 1 / 2).floor else -((-q + 1 / 2).floor)

/-- One bit of the reflected CRC-32C (Castagnoli). -/
def crcBit (c : Nat) : Nat := if c % 2 = 1 then (c / 2) ^^^ 0x82F63B78 else c / 2

/-- CRC-32C state after one byte. -/
def crcByte (c : Nat) (b : Byte) : Nat :=
  crcBit (crcBit (crcBit (crcBit (crcBit (crcBit (crcBit (crcBit (c ^^^ b.toNat))))))))

/-- CRC-32C of bytes (R52, R459, R509). -/
def crc32c (l : List Byte) : Nat := (l.foldl crcByte 0xFFFFFFFF) ^^^ 0xFFFFFFFF

/-- Insert by ascending key, after equal keys. -/
def insertBy {α : Type} (key : α → Nat) (a : α) : List α → List α
  | [] => [a]
  | b :: r => if key a < key b then a :: b :: r else b :: insertBy key a r

/-- Sort by ascending key, keeping the order of equal keys. -/
def sortBy {α : Type} (key : α → Nat) (l : List α) : List α := l.foldl (fun acc a => insertBy key a acc) []

/-- Bytes XORed position by position. -/
def xorBytes (a b : List Byte) : List Byte := List.zipWith (· ^^^ ·) a b

/-- The bytes of a host view of memory: segments by address; a byte that no segment holds is a read error (log entry 7). -/
def hostRead (m : List (Nat × List Byte)) (a n : Nat) : Option (List Byte) :=
  (List.range n).mapM fun i =>
    m.findSome? fun (b, l) => if b ≤ a + i then l[a + i - b]? else none

end Sys2Proof.Machine
end

