-- ==== Sys2Proof/Machine/RegTable.lean ====
section
/-! DEFINITION. The writable registers of the MG-7740 register layout, from the register tables of the manual's chapters:
BAR0 offset (R538, R547), fields, access, reset value and the range that R41 and R42 clamp a written value to. -/

namespace Sys2Proof.Machine

/-- What R41 and R42 do to a written field value. -/
inductive Clamp where
  /-- Every value of the field's width is stored as written. -/
  | any
  /-- An unsigned range. -/
  | range (lo hi : Nat)
  /-- A signed range, two's complement over the field. -/
  | signed (lo hi : Int)
  /-- An enumeration: a code above `last` is replaced by the reset value. -/
  | enum (last : Nat)
  /-- Two-bit codes 0 to 2, each on its own (R42). -/
  | codes2
  /-- Multiples of `k`. -/
  | step (k : Nat)
  /-- The low `k` bits are reserved and read zero. -/
  | lowZero (k : Nat)
deriving DecidableEq, Repr

/-- Access of a writable field: immediate, or staged. -/
inductive Acc where
  | rw | rws
deriving DecidableEq, Repr

/-- A writable field of a register. -/
structure FieldDef where
  lo : Nat
  width : Nat
  acc : Acc
  reset : Nat
  clamp : Clamp
deriving DecidableEq, Repr

/-- A register, or an array of `count` of them `stride` apart. -/
structure RegDef where
  name : String
  base : Nat
  stride : Nat
  count : Nat
  fields : List FieldDef
deriving DecidableEq, Repr

/-- A field named for reading its stored value: where its register lies, its bits, and the reset value of the register's
fields of the same access. -/
structure Sel where
  base : Nat
  stride : Nat
  lo : Nat
  width : Nat
  reset : Nat
deriving DecidableEq, Repr

/-- Page 0x01. -/
def regsCfg : List RegDef := [
  ⟨"CFG_CTRL", 0x01000, 0, 1,
    [⟨0, 1, .rw, 0, .any⟩]⟩]

/-- Page 0x02. -/
def regsTb : List RegDef := [
  ⟨"TB_CTRL", 0x02000, 0, 1,
    [⟨0, 4, .rws, 0, .any⟩,
     ⟨4, 1, .rws, 0, .any⟩,
     ⟨8, 4, .rws, 4, .range 0 10⟩]⟩,
  ⟨"TB_THRESH", 0x02008, 0, 1,
    [⟨0, 16, .rw, 100, .range 1 65535⟩,
     ⟨16, 16, .rw, 1000, .range 1 65535⟩]⟩,
  ⟨"TB_HOLDOVER", 0x0200C, 0, 1,
    [⟨0, 16, .rw, 1000, .range 1 65535⟩,
     ⟨16, 16, .rw, 12, .range 1 65535⟩]⟩,
  ⟨"TB_SRC_TIMEOUT", 0x02010, 0, 1,
    [⟨0, 8, .rw, 20, .range 1 255⟩,
     ⟨8, 8, .rw, 15, .range 1 255⟩,
     ⟨16, 8, .rw, 100, .range 1 255⟩,
     ⟨24, 8, .rw, 10, .range 1 255⟩]⟩,
  ⟨"TB_SLEW_MAX", 0x02014, 0, 1,
    [⟨0, 7, .rw, 100, .range 1 100⟩]⟩,
  ⟨"TB_ALLOW_STEP", 0x02018, 0, 1,
    [⟨0, 1, .rw, 0, .any⟩]⟩,
  ⟨"TB_RATE_ADJ", 0x0201C, 0, 1,
    [⟨0, 32, .rw, 0, .any⟩]⟩,
  ⟨"TB_PPS_OUT", 0x02040, 0, 1,
    [⟨0, 1, .rw, 0, .any⟩,
     ⟨1, 1, .rw, 0, .any⟩,
     ⟨2, 10, .rw, 100, .range 1 900⟩]⟩,
  ⟨"TB_PPS_OUT_COMP", 0x02044, 0, 1,
    [⟨0, 32, .rw, 0, .signed (-100000) 100000⟩]⟩,
  ⟨"TB_PPS_IN", 0x02048, 0, 1,
    [⟨0, 1, .rw, 0, .any⟩,
     ⟨16, 16, .rw, 100, .range 1 65535⟩]⟩,
  ⟨"TB_PPS_IN_OFFSET", 0x0204C, 0, 1,
    [⟨0, 32, .rw, 0, .signed (-100000) 100000⟩]⟩,
  ⟨"TB_HOST_TIME_LO", 0x02050, 0, 1,
    [⟨0, 32, .rw, 0, .any⟩]⟩]

/-- Page 0x02. -/
def regsTb1 : List RegDef := [
  ⟨"TB_HOST_TIME_HI", 0x02054, 0, 1,
    [⟨0, 32, .rw, 0, .any⟩]⟩,
  ⟨"TB_HOST_UNC", 0x02058, 0, 1,
    [⟨0, 20, .rw, 1000, .range 1 1000000⟩]⟩,
  ⟨"TB_PTP_CTRL", 0x02060, 0, 1,
    [⟨0, 6, .rws, 0, .any⟩,
     ⟨8, 8, .rws, 0, .range 0 127⟩,
     ⟨16, 4, .rws, 13, .signed (-4) 0⟩,
     ⟨20, 4, .rws, 0, .range 0 3⟩,
     ⟨24, 8, .rws, 128, .any⟩]⟩,
  ⟨"TB_PTP_CTRL2", 0x02064, 0, 1,
    [⟨0, 8, .rw, 128, .any⟩,
     ⟨8, 16, .rw, 37, .any⟩,
     ⟨24, 4, .rw, 0, .signed (-4) 5⟩]⟩,
  ⟨"TB_ALARM_n_LO", 0x02100, 16, 32,
    [⟨0, 32, .rw, 0, .any⟩]⟩,
  ⟨"TB_ALARM_n_HI", 0x02104, 16, 32,
    [⟨0, 32, .rw, 0, .any⟩]⟩,
  ⟨"TB_ALARM_n_PERIOD", 0x02108, 16, 32,
    [⟨0, 32, .rw, 0, .any⟩]⟩]

/-- Page 0x03. -/
def regsCal : List RegDef := [
  ⟨"CAL_DRIFT", 0x0300C, 0, 1,
    [⟨0, 9, .rw, 50, .range 1 500⟩]⟩,
  ⟨"CAL_TAMPER_CTRL", 0x03020, 0, 1,
    [⟨0, 8, .rw, 0, .codes2⟩,
     ⟨8, 8, .rw, 32, .range 1 255⟩,
     ⟨16, 1, .rw, 0, .any⟩]⟩]

/-- Page 0x04. -/
def regsGns : List RegDef := [
  ⟨"GNS_CTRL", 0x04000, 0, 1,
    [⟨0, 1, .rws, 0, .any⟩,
     ⟨1, 1, .rws, 0, .any⟩,
     ⟨2, 1, .rws, 0, .any⟩,
     ⟨3, 5, .rws, 4, .range 0 16⟩,
     ⟨8, 9, .rws, 256, .range 0 320⟩,
     ⟨17, 9, .rws, 0, .range 0 320⟩]⟩,
  ⟨"GNS_SIG_EN", 0x04004, 0, 1,
    [⟨0, 21, .rws, 2097151, .any⟩]⟩,
  ⟨"GNS_MEAS_CTRL", 0x04008, 0, 1,
    [⟨0, 4, .rws, 5, .enum 10⟩,
     ⟨4, 1, .rws, 0, .any⟩]⟩,
  ⟨"GNS_MEAS_BUF_BASE", 0x0400C, 0, 1,
    [⟨0, 22, .rws, 0, .any⟩]⟩,
  ⟨"GNS_MEAS_BUF_SIZE", 0x04010, 0, 1,
    [⟨0, 9, .rws, 1, .range 1 256⟩]⟩,
  ⟨"GNS_MEAS_RD", 0x04018, 0, 1,
    [⟨0, 24, .rw, 0, .step 64⟩]⟩,
  ⟨"GNS_TIME_CTRL", 0x04050, 0, 1,
    [⟨0, 2, .rw, 0, .enum 2⟩,
     ⟨4, 4, .rw, 4, .range 1 8⟩,
     ⟨8, 8, .rw, 10, .range 0 90⟩]⟩,
  ⟨"GNS_TIME_CAL", 0x04054, 0, 1,
    [⟨0, 20, .rw, 0, .range 0 1000000⟩,
     ⟨24, 8, .rw, 5, .any⟩]⟩,
  ⟨"GNS_SURVEY_CTRL", 0x04070, 0, 1,
    [⟨0, 2, .rws, 0, .enum 2⟩,
     ⟨4, 12, .rws, 1440, .range 1 1440⟩,
     ⟨16, 16, .rws, 50, .range 1 65535⟩]⟩,
  ⟨"GNS_BASE_X_LO", 0x04078, 0, 1,
    [⟨0, 32, .rws, 0, .any⟩]⟩,
  ⟨"GNS_BASE_X_HI", 0x0407C, 0, 1,
    [⟨0, 32, .rws, 0, .any⟩]⟩,
  ⟨"GNS_BASE_Y_LO", 0x04080, 0, 1,
    [⟨0, 32, .rws, 0, .any⟩]⟩]

/-- Page 0x04. -/
def regsGns1 : List RegDef := [
  ⟨"GNS_BASE_Y_HI", 0x04084, 0, 1,
    [⟨0, 32, .rws, 0, .any⟩]⟩,
  ⟨"GNS_BASE_Z_LO", 0x04088, 0, 1,
    [⟨0, 32, .rws, 0, .any⟩]⟩,
  ⟨"GNS_BASE_Z_HI", 0x0408C, 0, 1,
    [⟨0, 32, .rws, 0, .any⟩]⟩,
  ⟨"GNS_ANT_HEIGHT", 0x04090, 0, 1,
    [⟨0, 16, .rws, 0, .any⟩]⟩]

/-- Page 0x05. -/
def regsMir : List RegDef := [
  ⟨"MIR_CTRL", 0x05000, 0, 1,
    [⟨0, 4, .rws, 3, .range 1 15⟩,
     ⟨4, 8, .rws, 10, .range 1 255⟩,
     ⟨12, 3, .rws, 4, .range 0 5⟩,
     ⟨16, 8, .rws, 30, .any⟩]⟩,
  ⟨"MIR_CHECK_EN", 0x05004, 0, 1,
    [⟨0, 10, .rws, 1007, .any⟩]⟩,
  ⟨"MIR_CHECK_EVONLY", 0x05008, 0, 1,
    [⟨0, 10, .rw, 0, .any⟩]⟩,
  ⟨"MIR_CN0", 0x05010, 0, 1,
    [⟨0, 4, .rw, 6, .range 3 15⟩,
     ⟨4, 8, .rw, 15, .range 1 255⟩,
     ⟨12, 7, .rw, 15, .range 0 90⟩]⟩,
  ⟨"MIR_AGC", 0x05014, 0, 1,
    [⟨0, 8, .rw, 12, .range 4 240⟩,
     ⟨8, 8, .rw, 12, .range 4 240⟩,
     ⟨16, 8, .rw, 60, .range 1 255⟩]⟩,
  ⟨"MIR_CC", 0x05030, 0, 1,
    [⟨0, 16, .rw, 2000, .range 100 65535⟩,
     ⟨16, 6, .rw, 10, .range 2 60⟩]⟩,
  ⟨"MIR_PEAK", 0x05034, 0, 1,
    [⟨0, 7, .rw, 24, .range 4 80⟩,
     ⟨8, 8, .rw, 10, .range 1 255⟩]⟩,
  ⟨"MIR_TWO_ANT", 0x05038, 0, 1,
    [⟨0, 7, .rw, 50, .range 1 100⟩,
     ⟨8, 4, .rw, 5, .range 4 15⟩]⟩,
  ⟨"MIR_CLK", 0x0503C, 0, 1,
    [⟨0, 16, .rw, 50, .range 1 65535⟩]⟩,
  ⟨"MIR_ISO", 0x05040, 0, 1,
    [⟨0, 16, .rw, 30, .range 1 65535⟩]⟩,
  ⟨"MIR_BASE", 0x05044, 0, 1,
    [⟨0, 10, .rw, 20, .range 1 1000⟩,
     ⟨10, 10, .rw, 300, .range 10 1000⟩,
     ⟨20, 12, .rw, 10, .range 1 4095⟩]⟩,
  ⟨"MIR_FDE", 0x05048, 0, 1,
    [⟨0, 2, .rw, 1, .enum 2⟩,
     ⟨2, 4, .rw, 2, .range 1 8⟩]⟩]

/-- Page 0x05. -/
def regsMir1 : List RegDef := [
  ⟨"MIR_ROVER", 0x0504C, 0, 1,
    [⟨0, 12, .rws, 100, .range 10 4095⟩,
     ⟨12, 12, .rws, 1000, .range 10 4095⟩,
     ⟨24, 4, .rws, 3, .range 1 15⟩,
     ⟨28, 4, .rws, 3, .range 1 15⟩]⟩,
  ⟨"MIR_ESC", 0x05050, 0, 1,
    [⟨0, 4, .rw, 3, .range 1 15⟩,
     ⟨4, 7, .rw, 5, .range 4 64⟩]⟩]

/-- Page 0x06. -/
def regsFix : List RegDef := [
  ⟨"FIX_CTRL", 0x06000, 0, 1,
    [⟨0, 1, .rws, 0, .any⟩,
     ⟨1, 1, .rws, 0, .any⟩,
     ⟨2, 1, .rws, 0, .any⟩,
     ⟨3, 1, .rws, 1, .any⟩,
     ⟨4, 12, .rws, 0, .any⟩,
     ⟨16, 6, .rws, 0, .any⟩]⟩,
  ⟨"FIX_RTCM_CTRL", 0x06004, 0, 1,
    [⟨0, 4, .rws, 3, .enum 6⟩,
     ⟨4, 8, .rws, 10, .range 1 255⟩,
     ⟨12, 5, .rws, 31, .any⟩,
     ⟨17, 1, .rws, 1, .any⟩,
     ⟨18, 1, .rws, 1, .any⟩]⟩,
  ⟨"FIX_RTCM_PORTS", 0x06008, 0, 1,
    [⟨0, 4, .rws, 0, .any⟩,
     ⟨8, 6, .rws, 0, .any⟩]⟩,
  ⟨"FIX_RTCM_AGE", 0x0600C, 0, 1,
    [⟨0, 11, .rw, 500, .range 10 2000⟩]⟩,
  ⟨"FIX_GLO_BIAS", 0x06010, 0, 1,
    [⟨0, 16, .rw, 32768, .any⟩,
     ⟨16, 16, .rw, 32768, .any⟩]⟩,
  ⟨"FIX_BASE_PCO", 0x06014, 0, 1,
    [⟨0, 16, .rws, 0, .signed (-1000) 1000⟩]⟩,
  ⟨"FIX_SOLVER", 0x06020, 0, 1,
    [⟨0, 7, .rws, 8, .range 1 100⟩,
     ⟨8, 7, .rws, 10, .range 0 90⟩,
     ⟨16, 7, .rws, 30, .range 10 100⟩,
     ⟨24, 4, .rws, 5, .range 1 15⟩,
     ⟨28, 4, .rws, 6, .range 4 15⟩]⟩,
  ⟨"FIX_WEIGHT", 0x06024, 0, 1,
    [⟨0, 8, .rw, 3, .range 1 255⟩,
     ⟨8, 8, .rw, 3, .range 1 255⟩,
     ⟨16, 8, .rw, 100, .range 10 255⟩,
     ⟨24, 6, .rw, 10, .range 1 40⟩]⟩,
  ⟨"FIX_SOL_BUF_BASE", 0x06030, 0, 1,
    [⟨0, 22, .rws, 0, .any⟩]⟩,
  ⟨"FIX_SOL_BUF_SIZE", 0x06034, 0, 1,
    [⟨0, 9, .rws, 1, .range 1 256⟩]⟩,
  ⟨"FIX_SOL_RD", 0x0603C, 0, 1,
    [⟨0, 24, .rw, 0, .step 64⟩]⟩,
  ⟨"FIX_ROVER_n", 0x06400, 4, 256,
    [⟨0, 1, .rws, 0, .any⟩,
     ⟨1, 3, .rws, 3, .enum 4⟩,
     ⟨4, 1, .rws, 0, .any⟩,
     ⟨8, 8, .rws, 20, .range 1 255⟩]⟩]

/-- Page 0x07. -/
def regsFld : List RegDef := [
  ⟨"FLD_MAP_BASE", 0x07000, 0, 1,
    [⟨0, 14, .rws, 0, .any⟩]⟩,
  ⟨"FLD_MAP_SIZE", 0x07004, 0, 1,
    [⟨0, 15, .rws, 8, .range 8 16384⟩]⟩,
  ⟨"FLD_SYNC_CTRL", 0x07020, 0, 1,
    [⟨0, 8, .rw, 5, .range 1 250⟩]⟩,
  ⟨"FLD_SYNC_PEER_m", 0x07040, 4, 8,
    [⟨0, 14, .rws, 0, .any⟩]⟩,
  ⟨"FLD_FIELD_n_CTRL", 0x07100, 64, 16,
    [⟨0, 1, .rws, 0, .any⟩,
     ⟨1, 2, .rws, 1, .any⟩,
     ⟨3, 3, .rws, 0, .range 0 4⟩,
     ⟨8, 8, .rws, 0, .any⟩]⟩,
  ⟨"FLD_FIELD_n_ID", 0x07104, 64, 16,
    [⟨0, 32, .rws, 0, .any⟩]⟩,
  ⟨"FLD_FIELD_n_ORG_X_LO", 0x07108, 64, 16,
    [⟨0, 32, .rws, 0, .any⟩]⟩,
  ⟨"FLD_FIELD_n_ORG_X_HI", 0x0710C, 64, 16,
    [⟨0, 32, .rws, 0, .any⟩]⟩,
  ⟨"FLD_FIELD_n_ORG_Y_LO", 0x07110, 64, 16,
    [⟨0, 32, .rws, 0, .any⟩]⟩,
  ⟨"FLD_FIELD_n_ORG_Y_HI", 0x07114, 64, 16,
    [⟨0, 32, .rws, 0, .any⟩]⟩,
  ⟨"FLD_FIELD_n_ORG_Z_LO", 0x07118, 64, 16,
    [⟨0, 32, .rws, 0, .any⟩]⟩,
  ⟨"FLD_FIELD_n_ORG_Z_HI", 0x0711C, 64, 16,
    [⟨0, 32, .rws, 0, .any⟩]⟩]

/-- Page 0x07. -/
def regsFld1 : List RegDef := [
  ⟨"FLD_FIELD_n_MAP_E0", 0x07120, 64, 16,
    [⟨0, 32, .rws, 0, .any⟩]⟩,
  ⟨"FLD_FIELD_n_MAP_N0", 0x07124, 64, 16,
    [⟨0, 32, .rws, 0, .any⟩]⟩,
  ⟨"FLD_FIELD_n_SIZE", 0x07128, 64, 16,
    [⟨0, 9, .rws, 1, .range 1 256⟩,
     ⟨16, 9, .rws, 1, .range 1 256⟩]⟩,
  ⟨"FLD_FIELD_n_DIR", 0x0712C, 64, 16,
    [⟨0, 22, .rws, 0, .any⟩]⟩]

/-- Page 0x08. -/
def regsSec : List RegDef := [
  ⟨"SEC_CTRL", 0x08000, 0, 1,
    [⟨0, 1, .rws, 0, .any⟩,
     ⟨1, 7, .rws, 32, .range 0 64⟩,
     ⟨8, 3, .rws, 2, .range 2 7⟩]⟩,
  ⟨"SEC_MACH_m", 0x08400, 4, 256,
    [⟨0, 1, .rws, 0, .any⟩,
     ⟨1, 1, .rws, 0, .any⟩,
     ⟨2, 1, .rws, 0, .any⟩,
     ⟨3, 7, .rws, 10, .range 0 100⟩,
     ⟨10, 6, .rws, 5, .range 0 50⟩,
     ⟨16, 5, .rws, 2, .any⟩,
     ⟨21, 3, .rws, 4, .range 1 4⟩,
     ⟨24, 2, .rws, 0, .enum 2⟩]⟩,
  ⟨"SEC_MACH2_m", 0x08800, 4, 256,
    [⟨0, 11, .rws, 200, .range 0 2000⟩,
     ⟨11, 9, .rws, 300, .range 20 500⟩,
     ⟨20, 12, .rws, 0, .range 0 4000⟩]⟩]

/-- Page 0x09. -/
def regsCar : List RegDef := [
  ⟨"CAR_CTRL", 0x09000, 0, 1,
    [⟨0, 1, .rws, 0, .any⟩,
     ⟨1, 3, .rws, 2, .enum 4⟩,
     ⟨4, 8, .rws, 30, .range 1 255⟩,
     ⟨12, 1, .rws, 1, .any⟩,
     ⟨13, 5, .rws, 20, .range 0 20⟩]⟩,
  ⟨"CAR_CLEAR", 0x09004, 0, 1,
    [⟨0, 16, .rws, 500, .range 0 10000⟩,
     ⟨16, 8, .rws, 50, .any⟩,
     ⟨24, 8, .rws, 10, .any⟩]⟩,
  ⟨"CAR_CONF", 0x09008, 0, 1,
    [⟨0, 2, .rw, 1, .enum 2⟩,
     ⟨2, 2, .rw, 1, .enum 2⟩,
     ⟨4, 4, .rw, 3, .range 1 15⟩,
     ⟨8, 8, .rw, 10, .range 1 255⟩]⟩,
  ⟨"CAR_TRACK_FRAME", 0x0900C, 0, 1,
    [⟨0, 22, .rws, 0, .any⟩]⟩,
  ⟨"CAR_MACH_m", 0x09400, 4, 256,
    [⟨0, 11, .rws, 100, .range 1 2000⟩,
     ⟨11, 11, .rws, 100, .range 1 2000⟩,
     ⟨22, 1, .rws, 0, .any⟩]⟩]

/-- Page 0x0A. -/
def regsStp : List RegDef := [
  ⟨"STP_CTRL", 0x0A000, 0, 1,
    [⟨0, 2, .rws, 0, .any⟩,
     ⟨2, 2, .rws, 0, .any⟩,
     ⟨4, 5, .rws, 4, .range 2 31⟩,
     ⟨9, 1, .rws, 1, .any⟩,
     ⟨10, 1, .rws, 1, .any⟩]⟩,
  ⟨"STP_SRC", 0x0A004, 0, 1,
    [⟨0, 1, .rws, 0, .any⟩,
     ⟨1, 1, .rws, 0, .any⟩,
     ⟨2, 1, .rws, 0, .any⟩,
     ⟨3, 1, .rws, 1, .any⟩,
     ⟨4, 1, .rws, 1, .any⟩,
     ⟨5, 1, .rws, 0, .any⟩,
     ⟨8, 1, .rws, 0, .any⟩,
     ⟨9, 1, .rws, 0, .any⟩,
     ⟨10, 1, .rws, 0, .any⟩]⟩,
  ⟨"STP_KEYS", 0x0A008, 0, 1,
    [⟨0, 10, .rws, 0, .any⟩,
     ⟨16, 10, .rws, 0, .any⟩]⟩,
  ⟨"STP_PENDANT_KEY", 0x0A00C, 0, 1,
    [⟨0, 10, .rws, 0, .any⟩]⟩,
  ⟨"STP_RELEASE", 0x0A010, 0, 1,
    [⟨0, 14, .rw, 100, .range 100 10000⟩,
     ⟨16, 6, .rw, 10, .range 1 60⟩]⟩,
  ⟨"STP_PIN", 0x0A014, 0, 1,
    [⟨0, 10, .rw, 100, .range 10 1000⟩]⟩,
  ⟨"STP_SELFTEST", 0x0A018, 0, 1,
    [⟨0, 1, .rw, 1, .any⟩,
     ⟨1, 9, .rw, 100, .range 50 500⟩,
     ⟨10, 8, .rw, 10, .range 1 255⟩]⟩,
  ⟨"STP_PENDANT_n", 0x0A040, 4, 16,
    [⟨0, 12, .rws, 0, .any⟩,
     ⟨12, 1, .rws, 0, .any⟩,
     ⟨13, 1, .rws, 0, .any⟩,
     ⟨14, 1, .rws, 0, .any⟩,
     ⟨16, 8, .rws, 3, .range 1 255⟩]⟩]

/-- Page 0x0B. -/
def regsRad : List RegDef := [
  ⟨"RAD_PORT_n_CTRL", 0x0B000, 16, 4,
    [⟨0, 1, .rws, 0, .any⟩,
     ⟨1, 1, .rws, 0, .any⟩,
     ⟨8, 6, .rws, 20, .range 0 40⟩,
     ⟨16, 4, .rws, 0, .any⟩,
     ⟨20, 4, .rws, 0, .any⟩,
     ⟨24, 4, .rws, 0, .any⟩]⟩]

/-- Page 0x0C. -/
def regsHop : List RegDef := [
  ⟨"HOP_CTRL", 0x0C000, 0, 1,
    [⟨0, 16, .rws, 0, .any⟩,
     ⟨16, 9, .rws, 50, .range 10 500⟩]⟩,
  ⟨"HOP_DEV_EUI_LO", 0x0C004, 0, 1,
    [⟨0, 32, .rws, 0, .any⟩]⟩,
  ⟨"HOP_DEV_EUI_HI", 0x0C008, 0, 1,
    [⟨0, 32, .rws, 0, .any⟩]⟩,
  ⟨"HOP_KEYS", 0x0C00C, 0, 1,
    [⟨0, 10, .rws, 0, .any⟩]⟩,
  ⟨"HOP_NODE_CTRL", 0x0C010, 0, 1,
    [⟨0, 8, .rws, 60, .range 1 255⟩,
     ⟨8, 16, .rws, 800, .range 10 65535⟩,
     ⟨24, 8, .rw, 60, .range 1 255⟩]⟩,
  ⟨"HOP_NODE_TABLE_LO", 0x0C014, 0, 1,
    [⟨0, 32, .rws, 0, .lowZero 4⟩]⟩,
  ⟨"HOP_NODE_TABLE_HI", 0x0C018, 0, 1,
    [⟨0, 32, .rws, 0, .any⟩]⟩,
  ⟨"HOP_NODE_COUNT", 0x0C01C, 0, 1,
    [⟨0, 13, .rws, 0, .range 0 4096⟩]⟩,
  ⟨"HOP_JOIN", 0x0C020, 0, 1,
    [⟨0, 1, .rw, 1, .any⟩]⟩,
  ⟨"HOP_PORT_n_CTRL", 0x0C100, 64, 4,
    [⟨0, 1, .rws, 0, .any⟩,
     ⟨1, 2, .rws, 0, .any⟩,
     ⟨3, 3, .rws, 2, .range 0 6⟩,
     ⟨6, 1, .rws, 1, .any⟩]⟩,
  ⟨"HOP_PORT_n_SLOT_TABLE_BASE_LO", 0x0C104, 64, 4,
    [⟨0, 32, .rws, 0, .lowZero 3⟩]⟩,
  ⟨"HOP_PORT_n_SLOT_TABLE_BASE_HI", 0x0C108, 64, 4,
    [⟨0, 32, .rws, 0, .any⟩]⟩]

/-- Page 0x0C. -/
def regsHop1 : List RegDef := [
  ⟨"HOP_PORT_n_DUTY", 0x0C10C, 64, 4,
    [⟨0, 10, .rws, 10, .range 1 1000⟩,
     ⟨10, 1, .rws, 0, .any⟩,
     ⟨11, 1, .rws, 0, .any⟩]⟩,
  ⟨"HOP_PORT_n_KEYS", 0x0C110, 64, 4,
    [⟨0, 10, .rws, 0, .any⟩,
     ⟨16, 10, .rws, 0, .any⟩]⟩]

/-- Page 0x0D. -/
def regsHst : List RegDef := [
  ⟨"HST_CTRL", 0x0D000, 0, 1,
    [⟨0, 6, .rw, 0, .any⟩]⟩,
  ⟨"HST_DB_BASE_LO", 0x0D004, 0, 1,
    [⟨0, 32, .rw, 0, .lowZero 12⟩]⟩,
  ⟨"HST_DB_BASE_HI", 0x0D008, 0, 1,
    [⟨0, 32, .rw, 0, .any⟩]⟩,
  ⟨"HST_SHADOW_BASE_LO", 0x0D00C, 0, 1,
    [⟨0, 32, .rw, 0, .lowZero 12⟩]⟩,
  ⟨"HST_SHADOW_BASE_HI", 0x0D010, 0, 1,
    [⟨0, 32, .rw, 0, .any⟩]⟩,
  ⟨"HST_DB_POLL", 0x0D014, 0, 1,
    [⟨0, 10, .rw, 4, .range 1 1000⟩]⟩,
  ⟨"HST_RING_n_SQ_BASE_LO", 0x0D100, 32, 64,
    [⟨0, 32, .rw, 0, .lowZero 6⟩]⟩,
  ⟨"HST_RING_n_SQ_BASE_HI", 0x0D104, 32, 64,
    [⟨0, 32, .rw, 0, .any⟩]⟩,
  ⟨"HST_RING_n_CQ_BASE_LO", 0x0D108, 32, 64,
    [⟨0, 32, .rw, 0, .lowZero 5⟩]⟩,
  ⟨"HST_RING_n_CQ_BASE_HI", 0x0D10C, 32, 64,
    [⟨0, 32, .rw, 0, .any⟩]⟩,
  ⟨"HST_RING_n_CTRL", 0x0D110, 32, 64,
    [⟨0, 1, .rw, 0, .any⟩,
     ⟨1, 4, .rw, 4, .range 4 12⟩,
     ⟨5, 6, .rw, 0, .any⟩,
     ⟨16, 8, .rw, 1, .any⟩,
     ⟨24, 8, .rw, 0, .any⟩]⟩]

/-- Page 0x0E. -/
def regsFab : List RegDef := [
  ⟨"FAB_CTRL", 0x0E000, 0, 1,
    [⟨0, 14, .rws, 0, .any⟩,
     ⟨14, 1, .rws, 0, .any⟩,
     ⟨16, 8, .rws, 10, .range 5 255⟩]⟩,
  ⟨"FAB_ROUTE", 0x0E004, 0, 1,
    [⟨0, 4, .rw, 1, .range 1 15⟩,
     ⟨4, 8, .rw, 5, .range 1 255⟩]⟩,
  ⟨"FAB_LEARN_CTRL", 0x0E008, 0, 1,
    [⟨0, 7, .rw, 10, .range 1 100⟩,
     ⟨8, 12, .rw, 60, .range 1 3600⟩]⟩,
  ⟨"FAB_PORT_n_CTRL", 0x0E100, 64, 6,
    [⟨0, 1, .rws, 0, .any⟩,
     ⟨1, 1, .rws, 1, .any⟩,
     ⟨2, 8, .rws, 10, .range 1 255⟩,
     ⟨10, 1, .rw, 0, .any⟩]⟩]

/-- Page 0x0F. -/
def regsDis : List RegDef := [
  ⟨"DIS_CTRL", 0x0F000, 0, 1,
    [⟨0, 1, .rws, 0, .any⟩]⟩,
  ⟨"DIS_ROUTE_COUNT", 0x0F004, 0, 1,
    [⟨0, 11, .rws, 0, .range 0 1024⟩]⟩,
  ⟨"DIS_TRACE_CTRL", 0x0F00C, 0, 1,
    [⟨0, 12, .rw, 0, .any⟩]⟩,
  ⟨"DIS_TRACE_BASE", 0x0F010, 0, 1,
    [⟨0, 22, .rws, 0, .any⟩]⟩,
  ⟨"DIS_TRACE_SIZE", 0x0F014, 0, 1,
    [⟨0, 9, .rws, 1, .range 1 256⟩]⟩,
  ⟨"DIS_TRACE_RD", 0x0F01C, 0, 1,
    [⟨0, 24, .rw, 0, .step 16⟩]⟩,
  ⟨"DIS_PEEK_SEL", 0x0F050, 0, 1,
    [⟨0, 9, .rw, 0, .any⟩]⟩,
  ⟨"DIS_WDOG_k", 0x0F100, 4, 16,
    [⟨0, 9, .rw, 0, .any⟩,
     ⟨9, 8, .rw, 10, .range 1 255⟩,
     ⟨17, 1, .rw, 0, .any⟩]⟩]

/-- Page 0x10. -/
def regsMem : List RegDef := [
  ⟨"MEM_DRAM_CFG", 0x10000, 0, 1,
    [⟨0, 1, .rws, 0, .any⟩,
     ⟨1, 3, .rws, 2, .enum 4⟩,
     ⟨4, 1, .rws, 0, .any⟩,
     ⟨5, 2, .rws, 0, .enum 2⟩]⟩,
  ⟨"MEM_SCRUB", 0x10020, 0, 1,
    [⟨0, 8, .rw, 60, .range 1 255⟩,
     ⟨8, 8, .rw, 24, .any⟩]⟩,
  ⟨"MEM_WIN_n", 0x10040, 4, 12,
    [⟨0, 6, .rw, 0, .any⟩]⟩]

/-- Page 0x11. -/
def regsKey : List RegDef := [
  ⟨"KEY_CTRL", 0x11000, 0, 1,
    [⟨0, 7, .rw, 10, .range 1 100⟩]⟩]

/-- Page 0x13. -/
def regsNvm : List RegDef := [
  ⟨"NVM_RECORDER", 0x13000, 0, 1,
    [⟨0, 5, .rws, 8, .range 1 24⟩]⟩]

/-- Page 0x14. -/
def regsCrn : List RegDef := [
  ⟨"CRN_CTRL", 0x14000, 0, 1,
    [⟨0, 2, .rws, 3, .any⟩,
     ⟨2, 8, .rws, 60, .any⟩]⟩]

/-- Page 0x15. -/
def regsPwr : List RegDef := [
  ⟨"PWR_THERM", 0x1500C, 0, 1,
    [⟨0, 8, .rw, 105, .range 60 125⟩]⟩]

/-- Every writable register. -/
def regTable : List RegDef :=
  regsCfg ++ regsTb ++ regsTb1 ++ regsCal ++ regsGns ++ regsGns1 ++ regsMir ++ regsMir1 ++ regsFix ++ regsFld ++ regsFld1 ++ regsSec ++ regsCar ++ regsStp ++ regsRad ++ regsHop ++ regsHop1 ++ regsHst ++ regsFab ++ regsDis ++ regsMem ++ regsKey ++ regsNvm ++ regsCrn ++ regsPwr

end Sys2Proof.Machine

namespace Sys2Proof.Machine.F

def CFG_CTRL_VIEW : Sel := ⟨0x01000, 0, 0, 1, 0x0⟩
def TB_CTRL_SRC_EN : Sel := ⟨0x02000, 0, 0, 4, 0x400⟩
def TB_CTRL_SERVO_MODE : Sel := ⟨0x02000, 0, 4, 1, 0x400⟩
def TB_CTRL_TIME_CONST : Sel := ⟨0x02000, 0, 8, 4, 0x400⟩
def TB_RATE_ADJ_RATE : Sel := ⟨0x0201C, 0, 0, 32, 0x0⟩
def TB_SLEW_MAX_PPM : Sel := ⟨0x02014, 0, 0, 7, 0x64⟩
def TB_SRC_TIMEOUT_GNSS : Sel := ⟨0x02010, 0, 0, 8, 0xA640F14⟩
def TB_SRC_TIMEOUT_PPS_IN : Sel := ⟨0x02010, 0, 8, 8, 0xA640F14⟩
def TB_SRC_TIMEOUT_HOST : Sel := ⟨0x02010, 0, 16, 8, 0xA640F14⟩
def TB_SRC_TIMEOUT_REQUAL : Sel := ⟨0x02010, 0, 24, 8, 0xA640F14⟩
def TB_HOLDOVER_RATE_UNC : Sel := ⟨0x0200C, 0, 0, 16, 0xC03E8⟩
def TB_HOLDOVER_AGING : Sel := ⟨0x0200C, 0, 16, 16, 0xC03E8⟩
def TB_THRESH_LOCK_THRESH : Sel := ⟨0x02008, 0, 0, 16, 0x3E80064⟩
def TB_THRESH_FREE_THRESH : Sel := ⟨0x02008, 0, 16, 16, 0x3E80064⟩
def TB_ALLOW_STEP_ALLOW : Sel := ⟨0x02018, 0, 0, 1, 0x0⟩
def TB_PPS_OUT_EN : Sel := ⟨0x02040, 0, 0, 1, 0x190⟩
def TB_PPS_OUT_POL : Sel := ⟨0x02040, 0, 1, 1, 0x190⟩
def TB_PPS_OUT_WIDTH : Sel := ⟨0x02040, 0, 2, 10, 0x190⟩
def TB_PPS_OUT_COMP_COMP : Sel := ⟨0x02044, 0, 0, 32, 0x0⟩
def TB_PPS_IN_EDGE : Sel := ⟨0x02048, 0, 0, 1, 0x640000⟩
def TB_PPS_IN_UNC : Sel := ⟨0x02048, 0, 16, 16, 0x640000⟩
def TB_PPS_IN_OFFSET_OFFSET : Sel := ⟨0x0204C, 0, 0, 32, 0x0⟩
def TB_HOST_TIME_LO_TIME : Sel := ⟨0x02050, 0, 0, 32, 0x0⟩
def TB_HOST_TIME_HI_TIME : Sel := ⟨0x02054, 0, 0, 32, 0x0⟩
def TB_HOST_UNC_UNC : Sel := ⟨0x02058, 0, 0, 20, 0x3E8⟩
def TB_PTP_CTRL_PORTS : Sel := ⟨0x02060, 0, 0, 6, 0x800D0000⟩
def TB_PTP_CTRL_DOMAIN : Sel := ⟨0x02060, 0, 8, 8, 0x800D0000⟩
def TB_PTP_CTRL_SYNC_LOG : Sel := ⟨0x02060, 0, 16, 4, 0x800D0000⟩
def TB_PTP_CTRL_ANNOUNCE_LOG : Sel := ⟨0x02060, 0, 20, 4, 0x800D0000⟩
def TB_PTP_CTRL_PRIO1 : Sel := ⟨0x02060, 0, 24, 8, 0x800D0000⟩
def TB_PTP_CTRL2_PRIO2 : Sel := ⟨0x02064, 0, 0, 8, 0x2580⟩
def TB_PTP_CTRL2_UTC_OFFSET : Sel := ⟨0x02064, 0, 8, 16, 0x2580⟩
def TB_PTP_CTRL2_PDELAY_LOG : Sel := ⟨0x02064, 0, 24, 4, 0x2580⟩
def TB_ALARM_LO_TIME : Sel := ⟨0x02100, 16, 0, 32, 0x0⟩
def TB_ALARM_HI_TIME : Sel := ⟨0x02104, 16, 0, 32, 0x0⟩
def TB_ALARM_PERIOD_PERIOD : Sel := ⟨0x02108, 16, 0, 32, 0x0⟩
def CAL_DRIFT_PPM : Sel := ⟨0x0300C, 0, 0, 9, 0x32⟩
def FLD_MAP_BASE_BASE : Sel := ⟨0x07000, 0, 0, 14, 0x0⟩
def FLD_MAP_SIZE_SIZE : Sel := ⟨0x07004, 0, 0, 15, 0x8⟩
def FLD_FIELD_CTRL_EN : Sel := ⟨0x07100, 64, 0, 1, 0x2⟩
def FLD_FIELD_CTRL_CELL : Sel := ⟨0x07100, 64, 1, 2, 0x2⟩
def FLD_FIELD_CTRL_PRESC : Sel := ⟨0x07100, 64, 3, 3, 0x2⟩
def FLD_FIELD_CTRL_PEER_MASK : Sel := ⟨0x07100, 64, 8, 8, 0x2⟩
def FLD_FIELD_ID_FIELD_ID : Sel := ⟨0x07104, 64, 0, 32, 0x0⟩
def FLD_FIELD_ORG_X_LO_ORG_X : Sel := ⟨0x07108, 64, 0, 32, 0x0⟩
def FLD_FIELD_ORG_X_HI_ORG_X : Sel := ⟨0x0710C, 64, 0, 32, 0x0⟩
def FLD_FIELD_ORG_Y_LO_ORG_Y : Sel := ⟨0x07110, 64, 0, 32, 0x0⟩
def FLD_FIELD_ORG_Y_HI_ORG_Y : Sel := ⟨0x07114, 64, 0, 32, 0x0⟩
def FLD_FIELD_ORG_Z_LO_ORG_Z : Sel := ⟨0x07118, 64, 0, 32, 0x0⟩
def FLD_FIELD_ORG_Z_HI_ORG_Z : Sel := ⟨0x0711C, 64, 0, 32, 0x0⟩
def FLD_FIELD_MAP_E0_MAP_E0 : Sel := ⟨0x07120, 64, 0, 32, 0x0⟩
def FLD_FIELD_MAP_N0_MAP_N0 : Sel := ⟨0x07124, 64, 0, 32, 0x0⟩
def FLD_FIELD_SIZE_TILES_E : Sel := ⟨0x07128, 64, 0, 9, 0x10001⟩
def FLD_FIELD_SIZE_TILES_N : Sel := ⟨0x07128, 64, 16, 9, 0x10001⟩
def FLD_FIELD_DIR_FRAME : Sel := ⟨0x0712C, 64, 0, 22, 0x0⟩
def FLD_SYNC_CTRL_PERIOD : Sel := ⟨0x07020, 0, 0, 8, 0x5⟩
def FLD_SYNC_PEER_ADDR : Sel := ⟨0x07040, 4, 0, 14, 0x0⟩
def GNS_CTRL_EN_A : Sel := ⟨0x04000, 0, 0, 1, 0x10020⟩
def GNS_CTRL_EN_B : Sel := ⟨0x04000, 0, 1, 1, 0x10020⟩
def GNS_CTRL_MODE : Sel := ⟨0x04000, 0, 2, 1, 0x10020⟩
def GNS_CTRL_ACQ_HOST : Sel := ⟨0x04000, 0, 3, 5, 0x10020⟩
def GNS_CTRL_CHAN_SPLIT : Sel := ⟨0x04000, 0, 8, 9, 0x10020⟩
def GNS_CTRL_AUTO_BASE : Sel := ⟨0x04000, 0, 17, 9, 0x10020⟩
def GNS_SIG_EN_SIG : Sel := ⟨0x04004, 0, 0, 21, 0x1FFFFF⟩
def GNS_MEAS_CTRL_PERIOD : Sel := ⟨0x04008, 0, 0, 4, 0x5⟩
def GNS_MEAS_CTRL_REC_B : Sel := ⟨0x04008, 0, 4, 1, 0x5⟩
def GNS_MEAS_BUF_BASE_FRAME : Sel := ⟨0x0400C, 0, 0, 22, 0x0⟩
def GNS_MEAS_BUF_SIZE_SIZE : Sel := ⟨0x04010, 0, 0, 9, 0x1⟩
def GNS_MEAS_RD_OFFSET : Sel := ⟨0x04018, 0, 0, 24, 0x0⟩
def GNS_TIME_CTRL_REF_SYS : Sel := ⟨0x04050, 0, 0, 2, 0xA40⟩
def GNS_TIME_CTRL_MIN_SV : Sel := ⟨0x04050, 0, 4, 4, 0xA40⟩
def GNS_TIME_CTRL_ELEV_MASK : Sel := ⟨0x04050, 0, 8, 8, 0xA40⟩
def GNS_TIME_CAL_A_DELAY : Sel := ⟨0x04054, 0, 0, 20, 0x5000000⟩
def GNS_TIME_CAL_A_UNC : Sel := ⟨0x04054, 0, 24, 8, 0x5000000⟩
def GNS_SURVEY_CTRL_MODE : Sel := ⟨0x04070, 0, 0, 2, 0x325A00⟩
def GNS_SURVEY_CTRL_DURATION : Sel := ⟨0x04070, 0, 4, 12, 0x325A00⟩
def GNS_SURVEY_CTRL_TARGET : Sel := ⟨0x04070, 0, 16, 16, 0x325A00⟩
def GNS_BASE_X_LO_X : Sel := ⟨0x04078, 0, 0, 32, 0x0⟩
def GNS_BASE_X_HI_X : Sel := ⟨0x0407C, 0, 0, 32, 0x0⟩
def GNS_BASE_Y_LO_Y : Sel := ⟨0x04080, 0, 0, 32, 0x0⟩
def GNS_BASE_Y_HI_Y : Sel := ⟨0x04084, 0, 0, 32, 0x0⟩
def GNS_BASE_Z_LO_Z : Sel := ⟨0x04088, 0, 0, 32, 0x0⟩
def GNS_BASE_Z_HI_Z : Sel := ⟨0x0408C, 0, 0, 32, 0x0⟩
def GNS_ANT_HEIGHT_HEIGHT : Sel := ⟨0x04090, 0, 0, 16, 0x0⟩
def MIR_CTRL_PERSIST : Sel := ⟨0x05000, 0, 0, 4, 0x1E40A3⟩
def MIR_CTRL_CLEAR_HOLD : Sel := ⟨0x05000, 0, 4, 8, 0x1E40A3⟩
def MIR_CTRL_MAX_LEVEL : Sel := ⟨0x05000, 0, 12, 3, 0x1E40A3⟩
def MIR_CTRL_ESC_DELAY : Sel := ⟨0x05000, 0, 16, 8, 0x1E40A3⟩
def MIR_CHECK_EN_EN : Sel := ⟨0x05004, 0, 0, 10, 0x3EF⟩
def MIR_CHECK_EVONLY_EVONLY : Sel := ⟨0x05008, 0, 0, 10, 0x0⟩
def MIR_CN0_MIN_SIG : Sel := ⟨0x05010, 0, 0, 4, 0xF0F6⟩
def MIR_CN0_SD_MIN : Sel := ⟨0x05010, 0, 4, 8, 0xF0F6⟩
def MIR_CN0_ELEV_MASK : Sel := ⟨0x05010, 0, 12, 7, 0xF0F6⟩
def MIR_AGC_AGC_DROP : Sel := ⟨0x05014, 0, 0, 8, 0x3C0C0C⟩
def MIR_AGC_CN0_DROP : Sel := ⟨0x05014, 0, 8, 8, 0x3C0C0C⟩
def MIR_AGC_LEARN : Sel := ⟨0x05014, 0, 16, 8, 0x3C0C0C⟩
def MIR_CC_CC_LIMIT : Sel := ⟨0x05030, 0, 0, 16, 0xA07D0⟩
def MIR_CC_CC_WINDOW : Sel := ⟨0x05030, 0, 16, 6, 0xA07D0⟩
def MIR_PEAK_RATIO : Sel := ⟨0x05034, 0, 0, 7, 0xA18⟩
def MIR_PEAK_SCAN_PERIOD : Sel := ⟨0x05034, 0, 8, 8, 0xA18⟩
def MIR_TWO_ANT_DISP : Sel := ⟨0x05038, 0, 0, 7, 0x532⟩
def MIR_TWO_ANT_MIN_SAT : Sel := ⟨0x05038, 0, 8, 4, 0x532⟩
def MIR_CLK_JUMP : Sel := ⟨0x0503C, 0, 0, 16, 0x32⟩
def MIR_ISO_LIMIT : Sel := ⟨0x05040, 0, 0, 16, 0x1E⟩
def MIR_BASE_MOVE : Sel := ⟨0x05044, 0, 0, 10, 0xA4B014⟩
def MIR_BASE_WINDOW : Sel := ⟨0x05044, 0, 10, 10, 0xA4B014⟩
def MIR_BASE_COARSE : Sel := ⟨0x05044, 0, 20, 12, 0xA4B014⟩
def MIR_FDE_PFA : Sel := ⟨0x05048, 0, 0, 2, 0x9⟩
def MIR_FDE_MAX_EXCL : Sel := ⟨0x05048, 0, 2, 4, 0x9⟩
def MIR_ROVER_FIXED_LIM : Sel := ⟨0x0504C, 0, 0, 12, 0x333E8064⟩
def MIR_ROVER_FLOAT_LIM : Sel := ⟨0x0504C, 0, 12, 12, 0x333E8064⟩
def MIR_ROVER_COUNT : Sel := ⟨0x0504C, 0, 24, 4, 0x333E8064⟩
def MIR_ROVER_MULTI : Sel := ⟨0x0504C, 0, 28, 4, 0x333E8064⟩
def MIR_ESC_SYS_PROMOTE : Sel := ⟨0x05050, 0, 0, 4, 0x53⟩
def MIR_ESC_MIN_SV_CORR : Sel := ⟨0x05050, 0, 4, 7, 0x53⟩
def FIX_CTRL_RTCM_EN : Sel := ⟨0x06000, 0, 0, 1, 0x8⟩
def FIX_CTRL_SOLVER_EN : Sel := ⟨0x06000, 0, 1, 1, 0x8⟩
def FIX_CTRL_GLO_ALIGNED : Sel := ⟨0x06000, 0, 2, 1, 0x8⟩
def FIX_CTRL_USE_1006 : Sel := ⟨0x06000, 0, 3, 1, 0x8⟩
def FIX_CTRL_STATION_ID : Sel := ⟨0x06000, 0, 4, 12, 0x8⟩
def FIX_CTRL_ITRF_YEAR : Sel := ⟨0x06000, 0, 16, 6, 0x8⟩
def FIX_RTCM_CTRL_PERIOD : Sel := ⟨0x06004, 0, 0, 4, 0x7F0A3⟩
def FIX_RTCM_CTRL_STATION_PERIOD : Sel := ⟨0x06004, 0, 4, 8, 0x7F0A3⟩
def FIX_RTCM_CTRL_MSM_SYS : Sel := ⟨0x06004, 0, 12, 5, 0x7F0A3⟩
def FIX_RTCM_CTRL_SEND_1033 : Sel := ⟨0x06004, 0, 17, 1, 0x7F0A3⟩
def FIX_RTCM_CTRL_SEND_1230 : Sel := ⟨0x06004, 0, 18, 1, 0x7F0A3⟩
def FIX_RTCM_PORTS_RADIO : Sel := ⟨0x06008, 0, 0, 4, 0x0⟩
def FIX_RTCM_PORTS_FAB : Sel := ⟨0x06008, 0, 8, 6, 0x0⟩
def FIX_RTCM_AGE_AGE_LIMIT : Sel := ⟨0x0600C, 0, 0, 11, 0x1F4⟩
def FIX_GLO_BIAS_L1 : Sel := ⟨0x06010, 0, 0, 16, 0x80008000⟩
def FIX_GLO_BIAS_L2 : Sel := ⟨0x06010, 0, 16, 16, 0x80008000⟩
def FIX_BASE_PCO_UP : Sel := ⟨0x06014, 0, 0, 16, 0x0⟩
def FIX_SOLVER_ASM_LIMIT : Sel := ⟨0x06020, 0, 0, 7, 0x651E0A08⟩
def FIX_SOLVER_ELEV_MASK : Sel := ⟨0x06020, 0, 8, 7, 0x651E0A08⟩
def FIX_SOLVER_RATIO_MIN : Sel := ⟨0x06020, 0, 16, 7, 0x651E0A08⟩
def FIX_SOLVER_MAX_GAP : Sel := ⟨0x06020, 0, 24, 4, 0x651E0A08⟩
def FIX_SOLVER_PAR_MIN : Sel := ⟨0x06020, 0, 28, 4, 0x651E0A08⟩
def FIX_WEIGHT_PHASE_A : Sel := ⟨0x06024, 0, 0, 8, 0xA640303⟩
def FIX_WEIGHT_PHASE_B : Sel := ⟨0x06024, 0, 8, 8, 0xA640303⟩
def FIX_WEIGHT_CODE_RATIO : Sel := ⟨0x06024, 0, 16, 8, 0xA640303⟩
def FIX_WEIGHT_BASELINE_MAX : Sel := ⟨0x06024, 0, 24, 6, 0xA640303⟩
def FIX_SOL_BUF_BASE_FRAME : Sel := ⟨0x06030, 0, 0, 22, 0x0⟩
def FIX_SOL_BUF_SIZE_SIZE : Sel := ⟨0x06034, 0, 0, 9, 0x1⟩
def FIX_SOL_RD_OFFSET : Sel := ⟨0x0603C, 0, 0, 24, 0x0⟩
def FIX_ROVER_EN : Sel := ⟨0x06400, 4, 0, 1, 0x1406⟩
def FIX_ROVER_RATE : Sel := ⟨0x06400, 4, 1, 3, 0x1406⟩
def FIX_ROVER_PAR : Sel := ⟨0x06400, 4, 4, 1, 0x1406⟩
def FIX_ROVER_ACCEL : Sel := ⟨0x06400, 4, 8, 8, 0x1406⟩
def HOP_CTRL_NET_ID : Sel := ⟨0x0C000, 0, 0, 16, 0x320000⟩
def HOP_CTRL_ANCHOR_PERIOD : Sel := ⟨0x0C000, 0, 16, 9, 0x320000⟩
def HOP_DEV_EUI_LO_EUI : Sel := ⟨0x0C004, 0, 0, 32, 0x0⟩
def HOP_DEV_EUI_HI_EUI : Sel := ⟨0x0C008, 0, 0, 32, 0x0⟩
def HOP_KEYS_JOIN_ROOT : Sel := ⟨0x0C00C, 0, 0, 10, 0x0⟩
def HOP_NODE_CTRL_UNSYNC_HOLD : Sel := ⟨0x0C010, 0, 24, 8, 0x3C000000⟩
def HOP_NODE_CTRL_DRIFT : Sel := ⟨0x0C010, 0, 0, 8, 0x3203C⟩
def HOP_NODE_CTRL_LEGACY_GUARD : Sel := ⟨0x0C010, 0, 8, 16, 0x3203C⟩
def HOP_NODE_TABLE_LO_ADDR : Sel := ⟨0x0C014, 0, 0, 32, 0x0⟩
def HOP_NODE_TABLE_HI_ADDR : Sel := ⟨0x0C018, 0, 0, 32, 0x0⟩
def HOP_NODE_COUNT_COUNT : Sel := ⟨0x0C01C, 0, 0, 13, 0x0⟩
def HOP_JOIN_OPEN : Sel := ⟨0x0C020, 0, 0, 1, 0x1⟩
def HOP_PORT_CTRL_EN : Sel := ⟨0x0C100, 64, 0, 1, 0x50⟩
def HOP_PORT_CTRL_SLOT_LEN : Sel := ⟨0x0C100, 64, 1, 2, 0x50⟩
def HOP_PORT_CTRL_DATA_MODE : Sel := ⟨0x0C100, 64, 3, 3, 0x50⟩
def HOP_PORT_CTRL_NARROW_RATE : Sel := ⟨0x0C100, 64, 6, 1, 0x50⟩
def HOP_PORT_SLOT_TABLE_BASE_LO_ADDR : Sel := ⟨0x0C104, 64, 0, 32, 0x0⟩
def HOP_PORT_SLOT_TABLE_BASE_HI_ADDR : Sel := ⟨0x0C108, 64, 0, 32, 0x0⟩
def HOP_PORT_DUTY_PERMILLE : Sel := ⟨0x0C10C, 64, 0, 10, 0xA⟩
def HOP_PORT_DUTY_WINDOW : Sel := ⟨0x0C10C, 64, 10, 1, 0xA⟩
def HOP_PORT_DUTY_EN : Sel := ⟨0x0C10C, 64, 11, 1, 0xA⟩
def HOP_PORT_KEYS_GROUP : Sel := ⟨0x0C110, 64, 0, 10, 0x0⟩
def HOP_PORT_KEYS_STOP : Sel := ⟨0x0C110, 64, 16, 10, 0x0⟩
def RAD_PORT_CTRL_BAND : Sel := ⟨0x0B000, 16, 0, 1, 0x1400⟩
def RAD_PORT_CTRL_PLAN : Sel := ⟨0x0B000, 16, 1, 1, 0x1400⟩
def RAD_PORT_CTRL_TX_LEVEL : Sel := ⟨0x0B000, 16, 8, 6, 0x1400⟩
def RAD_PORT_CTRL_FEM_TX : Sel := ⟨0x0B000, 16, 16, 4, 0x1400⟩
def RAD_PORT_CTRL_FEM_RX : Sel := ⟨0x0B000, 16, 20, 4, 0x1400⟩
def RAD_PORT_CTRL_FEM_IDLE : Sel := ⟨0x0B000, 16, 24, 4, 0x1400⟩
def CAR_CTRL_EN : Sel := ⟨0x09000, 0, 0, 1, 0x291E4⟩
def CAR_CTRL_BIN : Sel := ⟨0x09000, 0, 1, 3, 0x291E4⟩
def CAR_CTRL_HORIZON : Sel := ⟨0x09000, 0, 4, 8, 0x291E4⟩
def CAR_CTRL_CONF_SRC : Sel := ⟨0x09000, 0, 12, 1, 0x291E4⟩
def CAR_CTRL_COLLECT : Sel := ⟨0x09000, 0, 13, 5, 0x291E4⟩
def CAR_CLEAR_CLEARANCE : Sel := ⟨0x09004, 0, 0, 16, 0xA3201F4⟩
def CAR_CLEAR_MARGIN : Sel := ⟨0x09004, 0, 16, 8, 0xA3201F4⟩
def CAR_CLEAR_DEFER_MAX : Sel := ⟨0x09004, 0, 24, 8, 0xA3201F4⟩
def CAR_CONF_DEV_ACT : Sel := ⟨0x09008, 0, 0, 2, 0xA35⟩
def CAR_CONF_OVR_ACT : Sel := ⟨0x09008, 0, 2, 2, 0xA35⟩
def CAR_CONF_DEV_COUNT : Sel := ⟨0x09008, 0, 4, 4, 0xA35⟩
def CAR_CONF_HOST_TIMEOUT : Sel := ⟨0x09008, 0, 8, 8, 0xA35⟩
def CAR_TRACK_FRAME_FRAME : Sel := ⟨0x0900C, 0, 0, 22, 0x0⟩
def CAR_MACH_HALF_WIDTH : Sel := ⟨0x09400, 4, 0, 11, 0x32064⟩
def CAR_MACH_BODY_HALF : Sel := ⟨0x09400, 4, 11, 11, 0x32064⟩
def CAR_MACH_EN : Sel := ⟨0x09400, 4, 22, 1, 0x32064⟩
def SEC_CTRL_EN : Sel := ⟨0x08000, 0, 0, 1, 0x240⟩
def SEC_CTRL_PHASE : Sel := ⟨0x08000, 0, 1, 7, 0x240⟩
def SEC_CTRL_APPLY_DELAY : Sel := ⟨0x08000, 0, 8, 3, 0x240⟩
def SEC_MACH_POS_SRC : Sel := ⟨0x08400, 4, 0, 1, 0x821450⟩
def SEC_MACH_FALLBACK : Sel := ⟨0x08400, 4, 1, 1, 0x821450⟩
def SEC_MACH_DISAGREE_OFF : Sel := ⟨0x08400, 4, 2, 1, 0x821450⟩
def SEC_MACH_OVERLAP : Sel := ⟨0x08400, 4, 3, 7, 0x821450⟩
def SEC_MACH_HYST : Sel := ⟨0x08400, 4, 10, 6, 0x821450⟩
def SEC_MACH_MIN_HOLD : Sel := ⟨0x08400, 4, 16, 5, 0x821450⟩
def SEC_MACH_MIN_STAT : Sel := ⟨0x08400, 4, 21, 3, 0x821450⟩
def SEC_MACH_RATE_MODE : Sel := ⟨0x08400, 4, 24, 2, 0x821450⟩
def SEC_MACH2_MIN_SPEED : Sel := ⟨0x08800, 4, 0, 11, 0x960C8⟩
def SEC_MACH2_MAX_AGE : Sel := ⟨0x08800, 4, 11, 9, 0x960C8⟩
def SEC_MACH2_EXCL_BUFFER : Sel := ⟨0x08800, 4, 20, 12, 0x960C8⟩
def STP_CTRL_SCOPE_PAUSE : Sel := ⟨0x0A000, 0, 0, 2, 0x640⟩
def STP_CTRL_SCOPE_STOP : Sel := ⟨0x0A000, 0, 2, 2, 0x640⟩
def STP_CTRL_REGION_HOPS : Sel := ⟨0x0A000, 0, 4, 5, 0x640⟩
def STP_CTRL_OUT_A_PAUSE : Sel := ⟨0x0A000, 0, 9, 1, 0x640⟩
def STP_CTRL_OUT_B_PAUSE : Sel := ⟨0x0A000, 0, 10, 1, 0x640⟩
def STP_SRC_FABRIC : Sel := ⟨0x0A004, 0, 0, 1, 0x18⟩
def STP_SRC_PENDANT : Sel := ⟨0x0A004, 0, 1, 1, 0x18⟩
def STP_SRC_MIRAGE : Sel := ⟨0x0A004, 0, 2, 1, 0x18⟩
def STP_SRC_WATCHDOG : Sel := ⟨0x0A004, 0, 3, 1, 0x18⟩
def STP_SRC_PFAIL : Sel := ⟨0x0A004, 0, 4, 1, 0x18⟩
def STP_SRC_PENDANT_LOST : Sel := ⟨0x0A004, 0, 5, 1, 0x18⟩
def STP_SRC_WATCHDOG_CLASS : Sel := ⟨0x0A004, 0, 8, 1, 0x18⟩
def STP_SRC_PFAIL_CLASS : Sel := ⟨0x0A004, 0, 9, 1, 0x18⟩
def STP_SRC_PENDANT_LOST_CLASS : Sel := ⟨0x0A004, 0, 10, 1, 0x18⟩
def STP_KEYS_FAB_TX : Sel := ⟨0x0A008, 0, 0, 10, 0x0⟩
def STP_KEYS_FAB_RX : Sel := ⟨0x0A008, 0, 16, 10, 0x0⟩
def STP_PENDANT_KEY_RECORD : Sel := ⟨0x0A00C, 0, 0, 10, 0x0⟩
def STP_RELEASE_GAP : Sel := ⟨0x0A010, 0, 0, 14, 0xA0064⟩
def STP_RELEASE_WINDOW : Sel := ⟨0x0A010, 0, 16, 6, 0xA0064⟩
def STP_PIN_DISAGREE : Sel := ⟨0x0A014, 0, 0, 10, 0x64⟩
def STP_SELFTEST_EN : Sel := ⟨0x0A018, 0, 0, 1, 0x28C9⟩
def STP_SELFTEST_PULSE : Sel := ⟨0x0A018, 0, 1, 9, 0x28C9⟩
def STP_SELFTEST_PERIOD : Sel := ⟨0x0A018, 0, 10, 8, 0x28C9⟩
def STP_PENDANT_NODE : Sel := ⟨0x0A040, 4, 0, 12, 0x30000⟩
def STP_PENDANT_EN : Sel := ⟨0x0A040, 4, 12, 1, 0x30000⟩
def STP_PENDANT_STOP_OK : Sel := ⟨0x0A040, 4, 13, 1, 0x30000⟩
def STP_PENDANT_SUPERVISE : Sel := ⟨0x0A040, 4, 14, 1, 0x30000⟩
def STP_PENDANT_LOST_POLLS : Sel := ⟨0x0A040, 4, 16, 8, 0x30000⟩
def HST_CTRL_ERR_VECTOR : Sel := ⟨0x0D000, 0, 0, 6, 0x0⟩
def HST_DB_BASE_LO_ADDR : Sel := ⟨0x0D004, 0, 0, 32, 0x0⟩
def HST_DB_BASE_HI_ADDR : Sel := ⟨0x0D008, 0, 0, 32, 0x0⟩
def HST_SHADOW_BASE_LO_ADDR : Sel := ⟨0x0D00C, 0, 0, 32, 0x0⟩
def HST_SHADOW_BASE_HI_ADDR : Sel := ⟨0x0D010, 0, 0, 32, 0x0⟩
def HST_DB_POLL_INTERVAL : Sel := ⟨0x0D014, 0, 0, 10, 0x4⟩
def HST_RING_SQ_BASE_LO_ADDR : Sel := ⟨0x0D100, 32, 0, 32, 0x0⟩
def HST_RING_SQ_BASE_HI_ADDR : Sel := ⟨0x0D104, 32, 0, 32, 0x0⟩
def HST_RING_CQ_BASE_LO_ADDR : Sel := ⟨0x0D108, 32, 0, 32, 0x0⟩
def HST_RING_CQ_BASE_HI_ADDR : Sel := ⟨0x0D10C, 32, 0, 32, 0x0⟩
def HST_RING_CTRL_EN : Sel := ⟨0x0D110, 32, 0, 1, 0x10008⟩
def HST_RING_CTRL_LOG_SIZE : Sel := ⟨0x0D110, 32, 1, 4, 0x10008⟩
def HST_RING_CTRL_VECTOR : Sel := ⟨0x0D110, 32, 5, 6, 0x10008⟩
def HST_RING_CTRL_MOD_COUNT : Sel := ⟨0x0D110, 32, 16, 8, 0x10008⟩
def HST_RING_CTRL_MOD_TIME : Sel := ⟨0x0D110, 32, 24, 8, 0x10008⟩
def FAB_CTRL_ADDR : Sel := ⟨0x0E000, 0, 0, 14, 0xA0000⟩
def FAB_CTRL_ADDR_MODE : Sel := ⟨0x0E000, 0, 14, 1, 0xA0000⟩
def FAB_CTRL_CLAIM_WAIT : Sel := ⟨0x0E000, 0, 16, 8, 0xA0000⟩
def FAB_ROUTE_LSA_PERIOD : Sel := ⟨0x0E004, 0, 0, 4, 0x51⟩
def FAB_ROUTE_SPF_HOLD : Sel := ⟨0x0E004, 0, 4, 8, 0x51⟩
def FAB_LEARN_CTRL_WINDOW : Sel := ⟨0x0E008, 0, 0, 7, 0x3C0A⟩
def FAB_LEARN_CTRL_AGE_PERIOD : Sel := ⟨0x0E008, 0, 8, 12, 0x3C0A⟩
def FAB_PORT_CTRL_TWI_FAST : Sel := ⟨0x0E100, 64, 10, 1, 0x0⟩
def FAB_PORT_CTRL_EN : Sel := ⟨0x0E100, 64, 0, 1, 0x2A⟩
def FAB_PORT_CTRL_LEARN_EN : Sel := ⟨0x0E100, 64, 1, 1, 0x2A⟩
def FAB_PORT_CTRL_COST : Sel := ⟨0x0E100, 64, 2, 8, 0x2A⟩
def DIS_CTRL_TRACE_EN : Sel := ⟨0x0F000, 0, 0, 1, 0x0⟩
def DIS_ROUTE_COUNT_COUNT : Sel := ⟨0x0F004, 0, 0, 11, 0x0⟩
def DIS_TRACE_CTRL_CORES : Sel := ⟨0x0F00C, 0, 0, 12, 0x0⟩
def DIS_TRACE_BASE_FRAME : Sel := ⟨0x0F010, 0, 0, 22, 0x0⟩
def DIS_TRACE_SIZE_SIZE : Sel := ⟨0x0F014, 0, 0, 9, 0x1⟩
def DIS_TRACE_RD_OFFSET : Sel := ⟨0x0F01C, 0, 0, 24, 0x0⟩
def DIS_PEEK_SEL_THREAD : Sel := ⟨0x0F050, 0, 0, 9, 0x0⟩
def DIS_WDOG_THREAD : Sel := ⟨0x0F100, 4, 0, 9, 0x1400⟩
def DIS_WDOG_PERIOD : Sel := ⟨0x0F100, 4, 9, 8, 0x1400⟩
def DIS_WDOG_EN : Sel := ⟨0x0F100, 4, 17, 1, 0x1400⟩
def MEM_DRAM_CFG_EN : Sel := ⟨0x10000, 0, 0, 1, 0x4⟩
def MEM_DRAM_CFG_CAPACITY : Sel := ⟨0x10000, 0, 1, 3, 0x4⟩
def MEM_DRAM_CFG_RANKS : Sel := ⟨0x10000, 0, 4, 1, 0x4⟩
def MEM_DRAM_CFG_RATE : Sel := ⟨0x10000, 0, 5, 2, 0x4⟩
def MEM_SCRUB_PERIOD : Sel := ⟨0x10020, 0, 0, 8, 0x183C⟩
def MEM_SCRUB_DRAM_HOURS : Sel := ⟨0x10020, 0, 8, 8, 0x183C⟩
def MEM_WIN_BASE : Sel := ⟨0x10040, 4, 0, 6, 0x0⟩
def CAL_TAMPER_CTRL_MODE : Sel := ⟨0x03020, 0, 0, 8, 0x2000⟩
def CAL_TAMPER_CTRL_FILTER : Sel := ⟨0x03020, 0, 8, 8, 0x2000⟩
def CAL_TAMPER_CTRL_LOCK : Sel := ⟨0x03020, 0, 16, 1, 0x2000⟩
def KEY_CTRL_REMASK : Sel := ⟨0x11000, 0, 0, 7, 0xA⟩
def NVM_RECORDER_MIB : Sel := ⟨0x13000, 0, 0, 5, 0x8⟩
def CRN_CTRL_FLUSH_SEV : Sel := ⟨0x14000, 0, 0, 2, 0xF3⟩
def CRN_CTRL_FLUSH_PERIOD : Sel := ⟨0x14000, 0, 2, 8, 0xF3⟩
def PWR_THERM_HOT_THRESH : Sel := ⟨0x1500C, 0, 0, 8, 0x69⟩

end Sys2Proof.Machine.F
end

