-- ==== Sys2Proof/Machine/TypesHost.lean ====
section
/-! DEFINITION. The state of the device-wide units: identity, clock, configuration, events, Host Interface, Timebase,
Calendar, Power and reset, Stop Controller. -/

namespace Sys2Proof.Machine

/-- The three parts of R2. -/
inductive Part where
  | mg7740 | mg7732 | mg7716
deriving DecidableEq, Repr

/-- What is fused at manufacture (R1, R541, R472). -/
structure Ident where
  part : Part
  /-- REVISION: STEPPING and METAL (R542). -/
  revision : Byte
  /-- ID_EUI. -/
  eui : BitVec 64
  /-- KEY_DEVICE_ID, byte 0 in the low bits. -/
  deviceId : BitVec 128
deriving DecidableEq, Repr

/-- The device states of R24. -/
inductive DevState where
  | boot | recovery | waitHost | run | safeHold
deriving DecidableEq, Repr

/-- The local clock (R67) and the 250 MHz counter under it. -/
structure Clock where
  /-- Local TAI in units of 2⁻⁴⁸ ns (R67). -/
  t48 : Nat
  /-- Ticks of the 250 MHz counter. -/
  counter : Nat
  /-- The rate correction in force, TB_RATE_ADJ (R37). -/
  rate : Word
  /-- The clock has stopped: `SAFE_HOLD` with cause `ECC_TB` (R102). -/
  frozen : Bool
deriving DecidableEq, Repr

/-- Staged configuration, or the active one: registers by BAR0 offset and the staged tables (R48, R49). -/
structure Conf where
  /-- RW-S register words that differ from their reset value. -/
  regs : Tbl Word
  /-- Machine table, section table and rate table entries (R119 to R123), raw bytes. -/
  machines : Tbl (List Byte)
  sections : Tbl (List Byte)
  rates : Tbl (List Byte)
  /-- Dispatcher routes (R438), 8 raw bytes each. -/
  routes : Tbl (List Byte)
  /-- Trigger classes (R506), 144 raw bytes each. -/
  classes : Tbl (List Byte)
deriving DecidableEq, Repr

/-- Staging and commit (R48 to R66). -/
structure Cfg where
  staged : Conf
  active : Conf
  /-- CFG_ACTIVE_UNITS. -/
  units : BitVec 20
  /-- CFG_STATUS. -/
  result : Nat
  reason : Nat
  ruleId : Nat
  generation : Word
  clampCount : Nat
  clamped : Bool
  clampLast : Nat
  /-- Counter at which the check of the latest commit ends: CFG_STATUS reads BUSY until then (R61). -/
  busyUntil : Nat
deriving DecidableEq, Repr

/-- An event on its way to a record (R508). -/
structure QEvent where
  /-- Source code of R437. -/
  source : Nat
  severity : Nat
  /-- Trigger class, 255 for none. -/
  cls : Nat
  /-- The class's snapshot list. -/
  list : List Nat
  /-- The class's FLUSH flag. -/
  flush : Bool
  stamp : Nat
  tq : Nat
  arg : List Byte
  /-- The 250 MHz counter when it was raised: events of one tick count as of one stage (log entry 67). -/
  tick : Nat
deriving DecidableEq, Repr

/-- What the device sends out: the model's own journal of outputs, newest last (log entry 6). -/
inductive Out where
  /-- A posted write to host memory: payload data, a completion, a shadow entry or an MSI-X message. -/
  | hostWrite (addr : Nat) (bytes : List Byte)
  /-- A frame handed to the air by a radio port. -/
  | radio (port : Nat) (time : Nat) (channel : Nat) (bytes : List Byte)
  /-- A frame sent on a fabric port. -/
  | fabric (port : Nat) (bytes : List Byte)
  /-- An edge of PPS_OUT: the level that the ball takes, true for high, and its local time in units of 2⁻¹⁶ ns. -/
  | pps (high : Bool) (time : Nat)
  /-- The front-end lines of a radio port take a pattern (R231). -/
  | frontEnd (port : Nat) (time : Nat) (pattern : Nat)
  /-- Transfer on a fabric module's two-wire bus. -/
  | module (port : Nat) (addr : Nat) (bytes : List Byte)
  /-- What a read through port A, or else port B, of the dual-port region returns. -/
  | portRead (portA : Bool) (word : Nat) (data : BitVec 64)
deriving DecidableEq, Repr

/-- Where a descriptor stands (R369, R371, R373). -/
inductive DescPhase where
  /-- Taken; starts when its turn comes. -/
  | ready
  /-- Pending in the launch queue. -/
  | launched
  /-- Started, waiting in its unit. -/
  | waiting
deriving DecidableEq, Repr

/-- A descriptor taken and not completed. -/
structure Desc where
  /-- Its place in the order of all descriptors taken since reset: what the units keep to name it, since its slot may be in use
  again (R369). -/
  serial : Nat
  ring : Nat
  index : Nat
  /-- The 64 bytes copied (R369). -/
  bytes : List Byte
  late : Bool
  clamped : Bool
  /-- A check of steps 1 to 5 that failed: status and detail. -/
  verdict : Option (Nat × Nat)
  noTag : Bool
  phase : DescPhase
  /-- Compact time at which it started, once it waits. -/
  execAt : Option Nat
  /-- Counter at which its launch entry fired (R98, R373). -/
  firedAt : Option Nat
  /-- Its completion is not written: its ring was reset under it (R382). -/
  silent : Bool
  /-- DETAIL of an error that its payload write meets on an ordered ring (R376). -/
  unwritten : Option Nat
deriving DecidableEq, Repr

/-- Ring states (R363). -/
inductive RingState where
  | disabled | running | halted | stopping
deriving DecidableEq, Repr

/-- One ring pair (R363, R367 to R369, R377, R381). -/
structure Ring where
  state : RingState
  badIndex : Bool
  haltSeq : Byte
  haltIndex : Nat
  sqHead : Nat
  sqTail : Nat
  cqHead : Nat
  cqTail : Nat
  /-- Completions written and not yet consumed by the host. -/
  unread : Nat
  phase : Bool
  /-- Completions since the last interrupt, and when the oldest was written. -/
  uncounted : Nat
  oldestAt : Nat
deriving DecidableEq, Repr

/-- A ring after reset (R378). -/
def Ring.reset : Ring :=
  ⟨.disabled, false, 0, 0, 0, 0, 0, 0, 0, true, 0, 0⟩

/-- PCI configuration space as R360 gives it. -/
structure PciConfig where
  vendor : Nat
  device : Nat
  subVendor : Nat
  subSystem : Nat
  revision : Byte
  classCode : Nat
  /-- BAR0: bytes, 64-bit, prefetchable. -/
  bar0Size : Nat
  bar0Wide : Bool
  bar0Prefetch : Bool
  /-- MSI-X: vectors, and the BAR that holds the table and the pending-bit array. -/
  vectors : Nat
  bir : Nat
  /-- Offsets in that BAR of the table and of the pending-bit array (R547). -/
  tableAt : Nat
  pbaAt : Nat
  /-- Best link: generation and lanes. -/
  maxSpeed : Nat
  maxWidth : Nat
  /-- Largest payload supported, and the largest read request that the host has set, bytes. -/
  maxPayload : Nat
  maxRead : Nat
  /-- Completion Timeout Value of Device Control 2, as the host has set it, and the ranges supported, A to C in bits 0 to 2. -/
  timeoutCode : Nat
  timeoutRanges : BitVec 4
  /-- Advanced Error Reporting is present; ASPM L1 is supported and L0s is not. -/
  aer : Bool
  aspmL1 : Bool
  aspmL0s : Bool
deriving DecidableEq, Repr

/-- The Host Interface. -/
structure Hst where
  pci : PciConfig
  rings : Tbl Ring
  /-- Taken descriptors, in the order taken. -/
  taken : List Desc
  /-- Descriptors taken since reset. -/
  serial : Nat
  /-- Values in force of the RW register pairs, by the offset of _LO: what stood when _HI was written (R34). -/
  bases : Tbl Nat
  /-- Values captured for _HI, by its offset, when _LO was read (R34). -/
  capture : Tbl Word
  linkUp : Bool
  speed : Nat
  width : Nat
  fault : Bool
  dbFail : Bool
  dmaErr : Bool
  dmaErrors : Word
  cplLost : Word
  /-- MSI-X table words by vector × 4 + word, and the pending-bit array. -/
  msix : Tbl Word
  pba : BitVec 64
deriving DecidableEq, Repr

/-- A commit waiting for its launch instant (R63). -/
structure PendingCommit where
  ring : Nat
  index : Nat
  tag : Word
  mask : BitVec 20
  snap : Conf
  persist : Bool
  block : List Byte
deriving DecidableEq, Repr

/-- What a host launch entry holds (R97): a commit, or a descriptor by its serial number. -/
inductive LaunchKind where
  | commit (c : PendingCommit)
  | desc (serial : Nat)
deriving DecidableEq, Repr

/-- A host entry of the launch queue (R97). -/
structure Launch where
  time : Nat
  kind : LaunchKind
  /-- A step has passed over its launch time: it fires with `LATE` (R86). -/
  stepped : Bool
deriving DecidableEq, Repr

/-- A periodic entry (R97). -/
structure Periodic where
  unit : Nat
  time : Nat
  period : Nat
deriving DecidableEq, Repr

/-- Time qualities (R78). -/
inductive Quality where
  | free | locked | holdover | relocking
deriving DecidableEq, Repr

/-- Sampling history of one time source (R69, R70): sources are numbered 0 GNSS, 1 fabric PTP, 2 PPS_IN, 3 host. -/
structure SrcState where
  /-- Counter at the latest sample. -/
  lastAt : Option Nat
  /-- Counter at the first sample of the unbroken run. -/
  since : Option Nat
  /-- Uncertainty of the latest sample, ns. -/
  unc : Nat
  qualified : Bool
deriving DecidableEq, Repr

def SrcState.reset : SrcState := ⟨none, none, 0, false⟩

/-- A step decided and waiting for the whole second (R85). -/
structure StepPending where
  /-- The offset e, ns. -/
  e : Int
  unc : Nat
  /-- The whole second, ns, at which it applies. -/
  at' : Nat
deriving DecidableEq, Repr

/-- A stamp of the transmit stamp queue (R94), in units of 2⁻¹⁶ ns. -/
structure Stamp where
  source : Nat
  id : Nat
  t16 : Nat
deriving DecidableEq, Repr

/-- An alarm (R86, R99). -/
structure Alarm where
  armed : Bool
  time : Nat
deriving DecidableEq, Repr

def Alarm.reset : Alarm := ⟨false, 0⟩

/-- A PTP announce data set. -/
structure PtpData where
  prio1 : Nat
  clockClass : Nat
  accuracy : Nat
  variance : Nat
  prio2 : Nat
  identity : Nat
  steps : Nat
  /-- Who sent it: clock identity and port number. -/
  sender : Nat × Nat
deriving DecidableEq, Repr

/-- A foreign master that a port hears: its latest data set, and the counters at its latest Announce and the one before. -/
structure PtpForeign where
  data : PtpData
  lastAt : Nat
  prevAt : Option Nat
deriving DecidableEq, Repr

/-- The state of a PTP port in the best master clock algorithm (R89, R90). -/
inductive PtpRole where
  | master | passive | slave
deriving DecidableEq, Repr

/-- One PTP port (R89, R91). -/
structure PtpPort where
  /-- Offset of the neighbour from local time, ns. -/
  nbrOffset : Int
  /-- Mean path delay, ns. -/
  delay : Rat
  heard : Bool
  skew : Bool
  /-- The best foreign master of the port, and the counter at its latest Announce. -/
  announce : Option PtpData
  announceAt : Nat
  foreign : List PtpForeign
  /-- Sequence number and local time of reception of the latest Sync. -/
  sync : Option (Nat × Rat)
  /-- Sequence number and t1 of the latest Pdelay_Req sent, and t4, t2 of its response. -/
  pd : Option (Nat × Rat × Option (Rat × Rat))
  seqSync : Nat
  seqAnn : Nat
  seqPd : Nat
  lastSync : Nat
  lastAnn : Nat
  lastPd : Nat
deriving DecidableEq, Repr

def PtpPort.reset : PtpPort := ⟨0, 0, false, false, none, 0, [], none, none, 0, 0, 0, 0, 0, 0⟩

/-- The Timebase. -/
structure Tb where
  /-- The servo's frequency estimate, a fraction (R75). -/
  freq : Rat
  quality : Quality
  /-- 0 none, else source number + 1 (TB_STATUS.SOURCE). -/
  source : Nat
  srcs : Tbl SrcState
  /-- The next sample is the first from a newly selected source (R71). -/
  fresh : Bool
  /-- Consecutive samples within LOCK_THRESH, up to 8. -/
  lockRun : Nat
  /-- Counter at the previous sample that the servo took, of whatever source (R75). -/
  lastSample : Option Nat
  /-- e of the latest sample, ns. -/
  offset : Int
  /-- What TB_ERR_EST adds for it: e, or 0 once a step has taken it out (R81, R85). -/
  errOff : Int
  errEst : Nat
  /-- TB_ERR_EST and counter at entry to holdover. -/
  err0 : Nat
  holdAt : Nat
  /-- `FREE` was reached from holdover (R81). -/
  fromHold : Bool
  step : Option StepPending
  /-- Clock class last announced while `LOCKED` (R89). -/
  lastClass : Nat
  /-- PPS_OUT shows its active level; the level of the ball. -/
  ppsHigh : Bool
  ppsPin : Bool
  /-- Local whole second (s) of the next PPS_OUT edge. -/
  ppsNext : Nat
  /-- Counter at the last active edge. -/
  ppsAt : Option Nat
  stamps : List Stamp
  stampDrops : Nat
  stampOvf : Bool
  /-- The entry last popped, shown by TB_STAMP_W0 to W3. -/
  stampOut : Option Stamp
  launches : List Launch
  periodic : List Periodic
  highWater : Nat
  alarms : Tbl Alarm
  ptp : Tbl PtpPort
  slavePort : Option Nat
deriving DecidableEq, Repr

/-- The backup domain: Calendar, tamper monitors and EPOCH, kept on VBAT (R103, R469 to R471, R531). -/
structure Cal where
  /-- Calendar time: TAI seconds, with 15 bits of sub-second count at 32.768 kHz. -/
  count : Nat
  /-- Time since the count's latest step, units of 1/128 ns: a step comes after 3,906,250 of them. -/
  part : Nat
  valid : Bool
  vbatLow : Bool
  /-- Second last written by the Timebase (R103). -/
  lastSync : Nat
  /-- CAL_TAMPER_CTRL. -/
  tamperCtrl : Word
  /-- Event bits of CAL_TAMPER_STATUS: INPUT in [3:0], SUPPLY in [4]. -/
  tamperStatus : BitVec 5
  /-- Inputs that show high now. -/
  inputs : BitVec 4
  tamperTime : Word
  epochCount : Word
  /-- The epoch secret as two shares (R464); none when cleared. -/
  epoch : Option (BitVec 256 × BitVec 256)
deriving DecidableEq, Repr

/-- Power and reset. -/
structure Pwr where
  state : DevState
  /-- FATAL_CAUSE (R30). -/
  fatal : Nat
  /-- Every cause that arose at the entry to `SAFE_HOLD`, by code (R28, R30). -/
  causes : BitVec 8
  /-- The device is held in reset. -/
  inReset : Bool
  resetCause : Nat
  recoveryPin : Bool
  /-- PWR_SUPPLY.GOOD. -/
  good : BitVec 10
  /-- Counter when the last rail passed its threshold: the reset is held for 1 ms from then (R518). -/
  goodAt : Nat
  /-- The warning of PFAIL_N stands: until it has been high for 100 ms. -/
  pfail : Bool
  /-- Counter at the latest fall of the filtered PFAIL_N, and when it rises again. -/
  pfailAt : Nat
  pfailUntil : Nat
  /-- New NV writes are stopped (R520). -/
  nvStopped : Bool
  onVbat : Bool
  stage : Nat
  stageMax : Nat
  slow : Bool
  /-- Counter since when the stage time has stayed above 1.20 ns. -/
  slowSince : Option Nat
  tj : Int
  tjMax : Int
  /-- PWR_HOT has been raised and not re-armed. -/
  hot : Bool
deriving DecidableEq, Repr

/-- The Stop Controller. -/
structure Stp where
  latched : Bool
  /-- The latest latch event: its counter, whether it flooded, and the host code of its STP_STOP. Requests of the same stage join
  it (R333). -/
  event : Option (Nat × Bool × Option Nat)
  /-- The latest release: its counter, and what the test instants were before it (R29). -/
  released : Option (Nat × Nat × Nat)
  /-- CLASS: true for `STOP`, false for `PAUSE`. -/
  stop : Bool
  source : Nat
  count : BitVec 16
  seen : BitVec 12
  /-- Counter at the ARM, while ARMED. -/
  armed : Option Nat
  /-- The filtered pins show stop. -/
  pinA : Bool
  pinB : Bool
  /-- Counter since when the pins disagree. -/
  disagreeAt : Option Nat
  pinFault : Bool
  /-- STP_ENABLED_w: re-enabled machines. -/
  enabled : BitVec 256
  /-- Machines LINK_LOST since their last re-enable (R351). -/
  lostSince : BitVec 256
  /-- Read-back of each output: true for the stopped level. -/
  readA : Bool
  readB : Bool
  /-- The level at which a pad stays that does not follow its drive, true for the stopped level (R348). -/
  padA : Option Bool
  padB : Option Bool
  /-- Counter at the start of a self-test pulse on each output. -/
  pulseA : Option Nat
  pulseB : Option Nat
  /-- Counter of the last self-test, or of the output's first showing run. -/
  testA : Nat
  testB : Nat
  tests : BitVec 16
  precompMiss : Word
  fabReject : Word
  pendantReject : Word
  fabStale : Word
  /-- Missed polls of each supervised pendant, and whether its loss was requested. -/
  missed : Tbl (Nat × Bool)
deriving DecidableEq, Repr

end Sys2Proof.Machine
end

