-- ==== Sys2Proof/Machine/TypesStore.lean ====
section
/-! DEFINITION. The state of the Dispatcher and cores, the Memory System, the Key Store, Boot and Update, the NV die manager
and the Cairn Recorder. -/

namespace Sys2Proof.Machine

/-- Thread states (R433). -/
inductive ThreadState where
  | free | suspended | ready | running | waiting
deriving DecidableEq, Repr

/-- A thread context (R432). -/
structure Thread where
  state : ThreadState
  /-- x1 to x31; unlisted registers hold 0. -/
  x : Tbl Word
  pc : Word
  /-- In user mode. -/
  user : Bool
  mstatus : Word
  mepc : Word
  mcause : Word
  mtval : Word
  mscratch : Word
  prio : Nat
  affinity : BitVec 12
  /-- UMODE as dcfg holds it, and the values of dentry, darg and dsp (R429). -/
  umode : Bool
  entry : Word
  arg : Word
  sp : Word
  flags : Word
  /-- The pending wait: mask, mode (true for ALL), destination register. -/
  mask : Word
  waitAll : Bool
  rd : Nat
  /-- Flags that met the wait, held until the thread is next dispatched (R430). -/
  met : Option Word
  /-- Core on which it last ran. -/
  core : Nat
  /-- Source code of the post that made it `READY` (R443). -/
  wakeSrc : Nat
deriving DecidableEq, Repr

/-- A `FREE` thread. -/
def Thread.reset : Thread :=
  ⟨.free, [], 0, false, 0, 0, 0, 0, 0, 0, 0, false, 0, 0, 0, 0, 0, false, 0, none, 0, 0x3FFFFF⟩

/-- A watchdog's running state (R442). -/
structure Wdog where
  /-- Counter at the latest kick, expiry or enable. -/
  since : Nat
  expired : Bool
deriving DecidableEq, Repr

def Wdog.reset : Wdog := ⟨0, false⟩

/-- The Dispatcher and the cores. -/
structure Dis where
  threads : Tbl Thread
  /-- Ready lists by priority, head first (R435). -/
  ready : Tbl (List Nat)
  /-- Thread running on each core; an unlisted core is idle. -/
  cores : Tbl Nat
  /-- mtvec of each core (R432). -/
  mtvec : Tbl Word
  /-- dsel of each core (R429). -/
  dsel : Tbl Nat
  /-- Invalidations of its data cache done by each core (R429). -/
  dcinv : Tbl Nat
  /-- Bytes of DRAM in each core's data cache and instruction cache, 16 KiB each, by address, newest first (R427). -/
  dcache : Tbl (List (Nat × Byte))
  icache : Tbl (List (Nat × Byte))
  /-- The word that a core has reserved with LR, by core address (R427). -/
  resv : Tbl Nat
  /-- The 16 entries of each core's PMP: entry k of core c under 16 c + k (R427). -/
  pmpcfg : Tbl Byte
  pmpaddr : Tbl Word
  lostPosts : Word
  fault : Bool
  traceWr : Nat
  traceDrops : Nat
  traceOvf : Bool
  /-- Dropped trace records whose DIS_TRACE_DROP is still to be raised. -/
  traceEv : Nat
  wdogs : Tbl Wdog
deriving DecidableEq, Repr

/-- The Memory System. -/
structure Mem where
  /-- Core banks 72 to 95, by byte of 6 MiB. -/
  banks : Memory
  /-- Dual-port region, 512 KiB. -/
  dual : Memory
  /-- DRAM. -/
  dram : Memory
  ready : Bool
  trainFail : Bool
  training : Bool
  /-- DRAM words (8 bytes) that hold an uncorrectable error, by address. -/
  bad : List Nat
  /-- Words of the core banks and of the dual-port region that hold one, by address as MEM_ECC_ADDR gives it. -/
  badWords : List Nat
  /-- Writes of the units that wait until READY, oldest first (R450). -/
  waiting : List (Nat × List Byte)
  /-- Uncorrectable errors of DRAM accesses whose MEM_ECC_UNCORR is still to be raised. -/
  failed : Nat
  eccCorr : Word
  eccUncorr : Word
  eccAddr : BitVec 64
  dpCollide : Word
  /-- Counter when MEM_ECC_CORR was last raised. -/
  corrAt : Option Nat
deriving DecidableEq, Repr

/-- The commit word of a sequence number (R459). -/
def commitWord (seq : Word) : BitVec 64 := (~~~seq) ++ seq

/-- A value kept as two copies, each with its sequence number, and a commit word (R460): no copy where it was never written or its
write was cut off. -/
structure AB (α : Type) where
  a : Option (Word × α)
  b : Option (Word × α)
  commit : BitVec 64
deriving DecidableEq, Repr

/-- Never written. -/
def AB.blank {α : Type} : AB α := ⟨none, none, 0⟩

/-- The committed copy: the one whose sequence number the commit word holds (R460). -/
def AB.committed {α : Type} (x : AB α) : Option (Word × α) :=
  let lo : Word := x.commit.setWidth 32
  if x.commit ≠ commitWord lo then none
  else match x.a.filter fun c => c.1 = lo with
    | some c => some c
    | none => x.b.filter fun c => c.1 = lo

/-- The value of the committed copy. -/
def AB.value {α : Type} (x : AB α) (dflt : α) : α := (x.committed.map (·.2)).getD dflt

/-- Copy A is the committed one. -/
def AB.onA {α : Type} (x : AB α) : Bool := x.committed.isSome && x.a.map (·.1) = x.committed.map (·.1)

/-- An update: the copy that is not committed is written with the next sequence number, then the commit word (R460). -/
def AB.write {α : Type} (x : AB α) (v : α) : AB α :=
  let seq := (x.committed.map (·.1)).getD 0 + 1
  if x.onA then { x with b := some (seq, v), commit := commitWord seq }
  else { x with a := some (seq, v), commit := commitWord seq }

/-- An update that is cut off before its commit word: the old value stands. -/
def AB.tear {α : Type} (x : AB α) : AB α := if x.onA then { x with b := none } else { x with a := none }

/-- One copy of a record slot (R459). -/
structure KeyCopy where
  seq : Word
  index : Nat
  type : Nat
  usage : Nat
  valid : Bool
  exportable : Bool
  attest : Bool
  derived : Bool
  parent : Nat
  depth : Nat
  gen : Word
  parentGen : Word
  /-- BODY: the recipe, or the wrapped material. -/
  label : List Byte
  context : List Byte
  wrapped : List Byte
  kcv : List Byte
  /-- CRC of the copy. -/
  crc : Word
deriving DecidableEq, Repr

/-- A record slot: two copies and the commit word (R459, R460). -/
structure KeySlot where
  a : Option KeyCopy
  b : Option KeyCopy
  commit : BitVec 64
deriving DecidableEq, Repr

/-- A slot never written. -/
def KeySlot.empty : KeySlot := ⟨none, none, 0⟩

/-- A key held as two shares whose XOR is the material (R463). -/
structure Shares where
  s0 : List Byte
  s1 : List Byte
deriving DecidableEq, Repr

/-- The session keys of one machine index or node (R465). -/
structure LinkKeys where
  up : Shares
  dn : Shares
  kw : Shares
deriving DecidableEq, Repr

/-- A queued or running crypto job (R467). -/
structure Job where
  /-- Its descriptor, by serial number. -/
  serial : Nat
  record : Nat
  op : Nat
  payload : List Byte
  /-- Material latched at the start, and the GEN of the record when the job was queued, which is the key's (R468). -/
  key : List Byte
  gen : Word
deriving DecidableEq, Repr

/-- A migration entry (R497). -/
structure Migration where
  type : Nat
  kcv : List Byte
  wrapped : List Byte
deriving DecidableEq, Repr

/-- The Key Store. -/
structure Key where
  slots : Tbl KeySlot
  /-- Attestation counter (R472), kept in the NV die. -/
  attests : AB Word
  /-- Key cache: record and shares, most recently used first (R463). -/
  cache : List (Nat × Shares)
  /-- Records that were invalidated or destroyed since the active configuration named them (R475). -/
  retired : List Nat
  /-- Link bank (R465): machine index, or 256 + node short address. -/
  link : Tbl LinkKeys
  queue : List Job
  /-- Jobs on the four engines. -/
  running : Tbl Job
  rootExact : Option (List Byte)
  rootLineage : Option (List Byte)
  md : List Byte
  signer : List Byte
  svn : Word
  rootsReady : Bool
  tampered : Bool
  worn : Bool
  fault : Bool
  orphaned : Word
  authFail : Word
  /-- Counter when KEY_ORPHAN_USE was last raised for a record. -/
  orphanAt : Tbl Nat
  /-- A tamper event awaits its record at the next firmware start (R470). -/
  tamperLate : Bool
deriving DecidableEq, Repr

/-- The attestation counter as it is committed. -/
def Key.attest (k : Key) : Word := k.attests.value 0

/-- The boot pointers (R494); a slot is true for B. -/
structure BootPtr where
  active : Bool
  trial : Bool
  trialLeft : Nat
  migrating : Bool
deriving DecidableEq, Repr

/-- An update in progress (R495, R498). -/
structure Update where
  header : List Byte
  slotB : Bool
  written : Nat
deriving DecidableEq, Repr

/-- Boot and Update. -/
structure Boot where
  ptrs : AB BootPtr
  booted : Bool
  /-- The ROM has verified, loaded and measured an image in slot `booted`. -/
  loaded : Bool
  lastFail : Nat
  svnMin : Word
  update : Option Update
  /-- Measurement registers 0 to 7 (R492). -/
  meas : Tbl (BitVec 384)
  /-- Measurement log: register, type, digest. -/
  log : List (Nat × Nat × BitVec 384)
  /-- Header of the image running. -/
  header : List Byte
  /-- The components loaded into the security core, the GNSS loop sequencer, the Hop Sequencer and the Fix Engine controller, by TYPE
  (R489). -/
  units : Tbl (List Byte)
  migration : Tbl Migration
  /-- SIGNER and SVN that the migration table was made for. -/
  migSigner : List Byte
  migSvn : Word
  /-- xSPI flash (R488). -/
  flash : Memory
  /-- In `RECOVERY`, the slots that failed. -/
  failA : Bool
  failB : Bool
  /-- Requests of recovering neighbours: EUI-64, PART, REVISION and NEXT by port (R499). -/
  peers : Tbl (Nat × Nat × Nat × Nat)
deriving DecidableEq, Repr

/-- The boot pointers as they are committed. -/
def Boot.ptr (b : Boot) : BootPtr := b.ptrs.value ⟨false, false, 0, false⟩

/-- A stored commit block (R487). -/
structure StoredBlock where
  mask : BitVec 20
  bytes : List Byte
deriving DecidableEq, Repr

/-- A block on its way to the configuration store (R60): its two copies, and the counter at which its commit word is written. -/
structure Storing where
  mask : BitVec 20
  copyA : List Byte
  copyB : List Byte
  wordAt : Nat
deriving DecidableEq, Repr

/-- The NV die manager (R483 to R487). -/
structure Nvm where
  sparesKey : Nat
  sparesCfg : Nat
  sparesPool : Nat
  readOnly : BitVec 5
  recorderNow : Nat
  /-- NVM_RECORDER.MIB as last committed: the size that the next reset puts in force (R486). -/
  recorderNext : Nat
  fault : Bool
  /-- Writes to each block of the die, and the remap table: the spare that holds the data of a block (R484). -/
  wear : Tbl Nat
  remap : AB (Tbl Nat)
  /-- Configuration store, oldest block first. -/
  store : List StoredBlock
  /-- Blocks whose commit words are not yet written, in the order of the writes. -/
  storing : List Storing
  /-- User region by byte. -/
  user : Memory
  /-- Blocks of the recorder and of the user region that are worn with no spare (R485). -/
  worn : List Nat
deriving DecidableEq, Repr

/-- The remap table as it is committed. -/
def Nvm.mapping (n : Nvm) : Tbl Nat := n.remap.value []

/-- A record in a slot (R504): its bytes, the fields the slot rule reads, and the slot's CRC. -/
structure Record where
  seq : Nat
  severity : Nat
  bytes : List Byte
  flushed : Bool
  crc : Word
deriving DecidableEq, Repr

/-- The events of the latest stage, and the queue that they found, for R508 has them enter by source code. -/
structure Round where
  tick : Nat
  base : List QEvent
  lost : Word
  events : List QEvent
deriving DecidableEq, Repr

/-- The Cairn Recorder. -/
structure Crn where
  /-- Event queue, oldest first (R508). -/
  queue : List QEvent
  round : Option Round
  buf : Tbl Record
  nv : Tbl Record
  seq : Word
  boot : BitVec 16
  flushing : Bool
  /-- Counter at which the record that is now being flushed began to be written. -/
  flushAt : Nat
  /-- A record of severity at or above FLUSH_SEV asks for a flush since this counter. -/
  wantAt : Option Nat
  evqLost : Word
  overwritten : Word
  critDropped : Word
  fault : Bool
  dropAt : Option Nat
  capacity : Nat
deriving DecidableEq, Repr

end Sys2Proof.Machine
end

