-- ==== Sys2Proof/Machine/TypesFabric.lean ====
section
/-! DEFINITION. The state of the Fabric Interface and its forwarding tables (R389 to R426). -/

namespace Sys2Proof.Machine

/-- Link states of R397. -/
inductive FabLink where
  | down | init | up
deriving DecidableEq, Repr

/-- ADDR_STATE of R396. -/
inductive AddrState where
  | none | tentative | claimed | conflict
deriving DecidableEq, Repr

/-- One fabric port (R389, R390, R395, R397). -/
structure FabPort where
  modPresent : Bool
  modLos : Bool
  blockLock : Bool
  hiBer : Bool
  link : FabLink
  nbrAddr : Nat
  nbrEui : Nat
  /-- Counter at the latest valid HELLO. -/
  helloAt : Option Nat
  rxFrames : Word
  txFrames : Word
  rxErr : Word
  drop : Word
  linkDowns : Word
  /-- Egress queues by class, oldest frame first. -/
  queues : Tbl (List (List Byte))
  /-- Counter at which the line is free again. -/
  lineFree : Nat
deriving DecidableEq, Repr

def FabPort.reset : FabPort := ⟨false, false, false, false, .down, 0, 0, none, 0, 0, 0, 0, 0, [], 0⟩

/-- An entry of the link-state database (R401): links as neighbour, port, cost. -/
structure Lsa where
  eui : Nat
  seq : Word
  links : List (Nat × Nat × Nat)
  /-- Counter at its latest refresh. -/
  seen : Nat
deriving DecidableEq, Repr

/-- An entry of the learning table (R410). -/
structure LearnEntry where
  key : Nat
  home : Nat
  port : Nat
  hit : Bool
  stale : Bool
  fixed : Bool
  mseq : Nat
deriving DecidableEq, Repr

/-- A sighting held by the learn filter (R414). -/
structure Sighting where
  eui : Nat
  home : Nat
  port : Nat
  /-- Compact time of arrival, and the counter then. -/
  time : Nat
  seen : Nat
  mseq : Nat
  /-- A conflict has been reported for it. -/
  reported : Bool
deriving DecidableEq, Repr

/-- A fabric stop that its originator repeats (R407): the windows still to be served. -/
structure StopRepeat where
  stop : Bool
  count : BitVec 16
  scope : Nat
  windows : List Nat
deriving DecidableEq, Repr

/-- A fabric stop body that the Key Store holds ready (R345): its window, class, count and scope, and its bytes. -/
structure HeldBody where
  window : Nat
  stop : Bool
  count : BitVec 16
  scope : Nat
  bytes : List Byte
deriving DecidableEq, Repr

/-- The Fabric Interface. -/
structure Fab where
  ports : Tbl FabPort
  addr : Nat
  addrState : AddrState
  attempt : Nat
  /-- Counter at step 1 of R399, and at the CLAIM last sent. -/
  claimAt : Nat
  claimSent : Nat
  fault : Bool
  /-- Sequence number of the frame last originated in each class. -/
  seqs : Tbl Nat
  /-- SEQ of the LSA last sent, and the counter then. -/
  lsaSeq : Option Word
  lsaAt : Option Nat
  /-- The set of `UP` links has changed since the last LSA. -/
  lsaDirty : Bool
  lsdb : Tbl Lsa
  /-- Counter at the first database change since the last run of R402. -/
  spfDue : Option Nat
  /-- Next-hop table words (R403). -/
  nextHop : Tbl Word
  /-- Learning table by INDEX of R421. -/
  learn : Tbl LearnEntry
  filter : List Sighting
  /-- Learn event records, oldest first. -/
  events : List (List Byte)
  evqOverflow : Bool
  /-- Duplicate cache, oldest first: key and counter. -/
  dup : List (List Nat × Nat)
  repeats : List StopRepeat
  /-- Stop bodies held for the next eight windows (R345). -/
  held : List HeldBody
  /-- MSEQ of each SRC_EUI (R408). -/
  mseqs : Tbl Nat
  noRoute : Word
  hopExpired : Word
  learnDrop : Word
  undelivered : Word
  hostDrop : Word
  spfRuns : Word
deriving DecidableEq, Repr

end Sys2Proof.Machine
end

