-- ==== Sys2Proof/Machine/TypesRadio.lean ====
section
/-! DEFINITION. The state of the Hop Sequencer and the radio ports (R224 to R267). -/

namespace Sys2Proof.Machine

/-- HOP_MACHINE_m.STATE. -/
inductive LinkState where
  | notJoined | joined | linkLost
deriving DecidableEq, Repr

/-- A machine's link (R250 to R254). -/
structure MachLink where
  state : LinkState
  missed : Nat
  port : Nat
  /-- HELD_GEN of its latest uplink, none before the first. -/
  heldGen : Option Nat
deriving DecidableEq, Repr

def MachLink.reset : MachLink := ⟨.notJoined, 0, 0, none⟩

/-- A sleepy node's link (R255 to R261). -/
structure NodeLink where
  joined : Bool
  /-- TX point of the last answer that completed an exchange, ns of local time (R257, R258). -/
  tc : Nat
  unsynced : Bool
  /-- Counter at which it becomes UNSYNCED: the instant of the poll that it can no longer be heard at (R261). -/
  unsyncAt : Nat
  /-- Consecutive scheduled polls missed, for LEGACY_SYNC (R260). -/
  missed : Nat
  /-- Superframe of its latest NODE_POLL (R340). -/
  polled : Option Nat
deriving DecidableEq, Repr

def NodeLink.reset : NodeLink := ⟨false, 0, false, 0, 0, none⟩

/-- A block queued for a machine, a node or broadcast (R249, R266). -/
structure DlBlock where
  addr : Nat
  port : Nat
  btype : Nat
  body : List Byte
  /-- First slot start and end of validity, ns of local time, 0 for none: SECTION_CMD only (R13, R249). -/
  early : Nat
  late : Nat
  /-- The HOP_SEND descriptor that it completes, by serial number. -/
  desc : Option Nat
  /-- Announces a pending schedule (R236). -/
  pend : Bool
deriving DecidableEq, Repr

/-- An answer due in a `SHARED` slot or a poll's span (R250, R256, R261). -/
inductive Answer where
  /-- JOIN_RESP: EUI-64, JOIN_NONCE, FLAGS of the request, ASN of its slot, superframe of its slot; segments sent, STATUS and
  the response once its first segment is sent. -/
  | join (slot eui : Nat) (nonce : List Byte) (flags asn sf sent : Nat) (resp : Option (Nat × List Byte))
  /-- NODE_ACK in the odd superframe after an unsynced poll: node index and superframe of the poll. -/
  | ack (slot node sf : Nat)
deriving DecidableEq, Repr

/-- What the port listens for in its current slot (R231, R232, R257). -/
inductive Listen where
  /-- The owner machine's UPLINK or OBSERVATION frame. -/
  | machine (m : Nat) (uplink : Bool)
  /-- The scheduled poll of a node. -/
  | node (k : Nat)
  /-- Contention. -/
  | shared
deriving DecidableEq, Repr

/-- The slot a port is in. -/
structure CurSlot where
  asn : Nat
  sf : Nat
  index : Nat
  listen : Option Listen
  /-- Receive window, ns from the slot start. -/
  open' : Nat
  close : Nat
  /-- A preamble was detected: the slot's one frame is taken (R550). -/
  heard : Bool
  /-- A valid frame of the owner arrived. -/
  good : Bool
  /-- The frame received so far with the earliest preamble, until the slot's end delivers it: preamble in ns from the slot start,
  RSSI, bytes (R231, R550). -/
  got : Option (Nat × Nat × List Byte)
deriving DecidableEq, Repr

/-- A stop frame that the Key Store holds ready (R345): the ASN of its slot, its class, its LATCH_COUNT and its bytes. -/
structure HeldStop where
  asn : Nat
  stop : Bool
  count : BitVec 16
  frame : List Byte
deriving DecidableEq, Repr

/-- What the three stop forms of a beacon or an anchor share (R345): the ASN of its slot, the group key and header under which
it is authenticated, and its body up to STATE as it stood when the slot began, with the bits of STATE that no latch sets and
what follows DELAY. -/
structure BeaconForm where
  asn : Nat
  key : List Byte
  head : List Byte
  front : List Byte
  flags : Nat
  tail : List Byte
deriving DecidableEq, Repr

/-- A schedule announced by a pending commit (R236). -/
structure Announce where
  table : List Byte
  launch : Nat
  /-- The port's band and DATA_MODE in the pending configuration. -/
  narrow : Bool
  mode : Nat
deriving DecidableEq, Repr

/-- One radio port as the Hop Sequencer runs it. -/
structure HopPort where
  /-- The slot table in force, and the one that waits for a superframe boundary (R235, R236), raw bytes. -/
  table : List Byte
  next : Option (List Byte)
  announce : Option Announce
  keyGen : Byte
  storm : Bool
  /-- A step silenced the port until a boundary (R264). -/
  silent : Bool
  cur : Option CurSlot
  /-- ASN of the slot last begun. -/
  served : Option Nat
  /-- Local time at which the last transmission ends, ns. -/
  busy : Nat
  /-- Start and end of the latest beacon, and its ASN. -/
  beacon : Option (Nat × Nat × Nat)
  /-- Stop frames held for the next eight ASNs (R345). -/
  held : List HeldStop
  /-- Group key held for the next beacon and for the next anchor, with the ASN of each (R345). -/
  beaconKey : Option (Nat × List Byte)
  anchorKey : Option (Nat × List Byte)
  /-- The three forms of the beacon of the superframe that the port is in. -/
  form : Option BeaconForm
  /-- A synced poll to be acknowledged: node, and ASN of the slot that answers. -/
  ackDue : Option (Nat × Nat)
  answers : List Answer
  cseq : Nat
  /-- Transmissions inside the duty window: channel, start and airtime in ns (R230). -/
  duty : List (Nat × Nat × Nat)
  /-- Channels at their limit: channel, airtime withheld, ASN. -/
  hits : List (Nat × Nat × Nat)
  withheld : Word
  micFail : Word
  secDrop : Word
  recvDrop : Word
  /-- RSSI of the last accepted frame. -/
  rssi : Byte
deriving DecidableEq, Repr

def HopPort.reset : HopPort :=
  ⟨[], none, none, 0, false, false, none, none, 0, none, [], none, none, none, none, [], 0, [], [], 0, 0, 0, 0, 0⟩

/-- The Hop Sequencer. -/
structure Hop where
  ports : Tbl HopPort
  machines : Tbl MachLink
  /-- The node table in force (R255), raw bytes, and the links of its entries by node index. -/
  nodeTable : List Byte
  nodes : Tbl NodeLink
  /-- Queued blocks, oldest first. -/
  queue : List DlBlock
  /-- Number of the superframe last begun. -/
  sf : Nat
  fault : Bool
deriving DecidableEq, Repr

end Sys2Proof.Machine
end

