-- ==== Sys2Proof/Machine/TypesField.lean ====
section
/-! DEFINITION. The state of the Field Store and the Section Engine (R106 to R140, R299 to R331). -/

namespace Sys2Proof.Machine

/-- A cell of a field, by column and row (R109). -/
structure Cell where
  field : Nat
  col : Nat
  row : Nat
deriving DecidableEq, Repr

/-- A line of the tile cache: 1 KiB of one layer of one tile (R116). -/
structure CacheLine where
  field : Nat
  layer : Nat
  tileE : Nat
  tileN : Nat
  /-- 1 KiB block within the tile. -/
  block : Nat
  /-- Its address in DRAM and its bytes; `dirty` until they are written back. -/
  base : Nat
  data : List Byte
  dirty : Bool
deriving DecidableEq, Repr

/-- The last SEQ of a sender and field pair (R137). -/
structure SenderRec where
  src : Nat
  fieldId : Nat
  seq : Word
deriving DecidableEq, Repr

/-- The Field Store. -/
structure Fld where
  /-- STATE words of the active section table (R121), by section index. -/
  secState : Tbl Word
  /-- The copy of R124 is under way. -/
  copying : Bool
  /-- Lines of each set, most recently used first. -/
  cache : Tbl (List CacheLine)
  hits : Word
  misses : Word
  eccBlocks : Nat
  eccSeen : Bool
  fault : Bool
  /-- The delta buffer (R135), oldest cell first. -/
  deltas : List Cell
  foreign : Nat
  overflow : Bool
  senders : List SenderRec
  /-- SEQ of the delta frame last sent for each field. -/
  sendSeq : Tbl Word
  /-- Superframe in which deltas were last sent. -/
  sentAt : Nat
deriving DecidableEq, Repr

/-- A machine's own solution (R248). -/
structure OwnSol where
  /-- The solution instant, ns of compact time. -/
  tag : Nat
  east : Int
  north : Int
  up : Int
  heading : Nat
  status : Nat
  speed : Int
  angRate : Int
  sd : Nat
  /-- Local time of delivery, ns. -/
  at' : Nat
deriving DecidableEq, Repr

/-- A central solution record as its consumers use it (R214). -/
structure CenSol where
  epoch : Nat
  status : Nat
  degraded : Bool
  east : Int
  north : Int
  up : Int
  velE : Int
  velN : Int
  velU : Int
  sdE : Nat
  sdN : Nat
  sdU : Nat
  at' : Nat
deriving DecidableEq, Repr

/-- A cell claim (R317): the cell is its key in the store. -/
structure Claim where
  prior : Nat
  machine : Nat
  sect : Nat
  /-- The application instant, ns. -/
  apply' : Nat
deriving DecidableEq, Repr

/-- An implement point held for a trailed machine (R308), with the hitch at its instant. -/
structure Implement where
  east : Rat
  north : Rat
  time : Nat
  hitchE : Rat
  hitchN : Rat
deriving DecidableEq, Repr

/-- What the Section Engine holds for one machine. -/
structure SecMach where
  reason : Nat
  /-- The central source was used. -/
  src : Bool
  /-- The fallback source is in use (R304). -/
  fallback : Bool
  onCount : Nat
  /-- Fire instant of the machine's previous epoch (R320). -/
  fired : Option Nat
  impl : Option Implement
  /-- Commands of the eight latest application instants: instant and sections commanded on (R320). -/
  hist : List (Nat × List Nat)
  /-- Own and central solutions, newest delivered first. -/
  own : List OwnSol
  cen : List CenSol
  /-- The rate value last sent for each product under RATE_MODE `MACHINE` (R323). -/
  rates : Tbl Nat
deriving DecidableEq, Repr

def SecMach.reset : SecMach := ⟨0, false, false, 0, none, none, [], [], [], []⟩

/-- A feedback block held for the next epoch (R319): machine, body, delivery instant. -/
structure Feedback where
  machine : Nat
  body : List Byte
  at' : Nat
deriving DecidableEq, Repr

/-- The Section Engine. -/
structure Sec where
  machs : Tbl SecMach
  /-- Claims by cell key. -/
  claims : Tbl Claim
  feedback : List Feedback
  /-- Delivery instant of the latest report of each section. -/
  reported : Tbl Nat
  /-- The instant SEC became active. -/
  since : Option Nat
  /-- Counter at which step 2 of the epoch last begun ends. -/
  runUntil : Nat
  epochs : Word
  skip : Word
  maxUs : Nat
  claimFull : Word
  expired : Word
  fbLate : Word
  fbMismatch : Word
  fault : Bool
deriving DecidableEq, Repr

end Sys2Proof.Machine
end

