-- ==== Sys2Proof/Machine/TypesGnss.lean ====
section
/-! DEFINITION. The state of the GNSS Receiver and the Mirage Monitor (R141 to R192). -/

namespace Sys2Proof.Machine

/-- Channel states of R161. -/
inductive ChanState where
  | idle | pullIn | tracking | lost
deriving DecidableEq, Repr

/-- Loop settings of a channel (R159, R160). -/
structure LoopCfg where
  /-- LOOP: FLL_ASSIST, PLL order, PLL_DISC, DLL_DISC. -/
  loop : Nat
  /-- d in units of 1/128 chip. -/
  spacing : Nat
  /-- Coherent ms asked for. -/
  coh : Nat
  pllBw : Nat
  fllBw : Nat
  cn0Drop : Nat
  dllBw : Nat
  /-- Defaults of R160: COH 1 on data until bit synchronisation. -/
  auto : Bool
deriving DecidableEq, Repr

/-- A tracking channel (R158 to R164). -/
structure Chan where
  state : ChanState
  sig : Nat
  svid : Nat
  slot : Int
  pilot : Bool
  cfg : LoopCfg
  bitSync : Bool
  secSync : Bool
  /-- Code phase in chips, carrier Doppler in Hz and code rate in chips per s, at counter `upd`. -/
  code : Rat
  doppler : Rat
  codeRate : Rat
  upd : Nat
  /-- Loop filter integrators: frequency in Hz, and its rate. -/
  freq : Rat
  accel : Rat
  /-- The phase discriminator of the previous interval, cycles, and its prompt. -/
  disc : Rat
  prev : Option (Int × Int)
  /-- Lock indicator of the latest interval. -/
  lock : Rat
  /-- Counter since which it is at least 0.8; since which it is below 0.5; since which C/N0 is below CN0_DROP. -/
  lockAt : Option Nat
  lowAt : Option Nat
  weakAt : Option Nat
  /-- C/N0 of the intervals of the last second, dB-Hz, newest first, with their counters. -/
  cn0s : List (Nat × Rat)
  /-- −∫ D dt since t0 plus N0 and corrections, cycles. -/
  phase : Rat
  /-- Counter at t0, the start of the continuous lock. -/
  t0 : Option Nat
  /-- Counter at t0 or at the last slip. -/
  lockStart : Option Nat
  lli : Nat
  /-- Transmit time of the replica at `upd`, ns of system time. -/
  sent : Option Rat
  halfAmb : Bool
  halfCorr : Bool
deriving DecidableEq, Repr

/-- The defaults of R160: `ATAN2` on a pilot, `COSTAS_ATAN` on data. -/
def LoopCfg.default (pilot : Bool) : LoopCfg := ⟨if pilot then 1 else 5, 16, 20, 60, 20, 22, 100, true⟩

/-- An `IDLE` channel. -/
def Chan.reset : Chan where
  state := .idle
  sig := 0
  svid := 0
  slot := 0
  pilot := false
  cfg := LoopCfg.default false
  bitSync := false
  secSync := false
  code := 0
  doppler := 0
  codeRate := 0
  upd := 0
  freq := 0
  accel := 0
  disc := 0
  prev := none
  lock := 0
  lockAt := none
  lowAt := none
  weakAt := none
  cn0s := []
  phase := 0
  t0 := none
  lockStart := none
  lli := 0
  sent := none
  halfAmb := false
  halfCorr := false

/-- A navigation page (R152). -/
structure NavPage where
  sig : Nat
  svid : Nat
  slot : Byte
  kind : Nat
  bits : Nat
  rx : Nat
  page : List Byte
deriving DecidableEq, Repr

/-- An entry of a measurement record (R165), its values in the units of the record. -/
structure Entry where
  sig : Nat
  svid : Nat
  slot : Int
  rangeValid : Bool
  phaseValid : Bool
  halfAmb : Bool
  halfCorr : Bool
  pilot : Bool
  excluded : Bool
  chan : Nat
  lli : Nat
  psr : Nat
  phase : Int
  doppler : Int
  cn0 : Nat
  codeSd : Nat
  lockMs : Nat
  /-- Counter at t0, the start of the lock, which a slip does not end (R163, R197); no field of the record. -/
  lock : Option Nat
deriving DecidableEq, Repr

/-- A measurement record (R165). -/
structure MeasRec where
  epoch : Nat
  antB : Bool
  quality : Nat
  seq : Word
  clkOfs : Int
  clkStep : Bool
  leapKnown : Bool
  timeValid : Bool
  leap : Nat
  entries : List Entry
deriving DecidableEq, Repr

/-- An epoch latched and not yet delivered (R162). -/
structure Latch where
  tr : Nat
  /-- TIME_QUALITY at t_r. -/
  quality : Nat
  a : List Entry
  b : List Entry
  /-- Measured on the time before a step (R167). -/
  old : Bool
deriving DecidableEq, Repr

/-- States of R170. -/
inductive BaseState where
  | none | surveying | surveyed | fixed
deriving DecidableEq, Repr

/-- The self-survey (R171). -/
structure Survey where
  /-- Counter at its start. -/
  since : Nat
  n : Nat
  /-- The first 1 Hz position, the sum of the others' differences from it, and of their squared lengths. -/
  sum : Int × Int × Int
  first : Int × Int × Int
  sumSq : Nat
deriving DecidableEq, Repr

/-- The GNSS Receiver. -/
structure Gns where
  chans : Tbl Chan
  nav : List NavPage
  /-- Start mode once fixed (R150). -/
  start : Option Nat
  leap : Option Nat
  timeValid : Bool
  fault : Bool
  nosigA : Bool
  nosigB : Bool
  /-- AGC gains by front end, and counter since which all three of an antenna have held 60 dB. -/
  gains : Tbl Nat
  railA : Option Nat
  railB : Option Nat
  seqA : Word
  seqB : Word
  wr : Nat
  drops : Nat
  ovf : Bool
  latched : Option Latch
  /-- The next record carries CLK_STEP (R167). -/
  stepFlag : Bool
  clkOfs : Int
  sysOfs : Tbl Int
  /-- Reference system of the last time solution (R168). -/
  refSys : Nat
  base : BaseState
  survey : Survey
  /-- The survey mean, ECEF mm, and σ in mm. -/
  mean : Int × Int × Int
  sigma : Nat
  elapsed : Nat
  /-- Searches on the reserved units, with the counter at their start, and those queued, by serial number (R157). -/
  running : List (Nat × Nat)
  queue : List Nat
  /-- Captures under way: serial number, and counter and compact time of the first sample (R144). -/
  captures : List (Nat × Nat × Nat)
deriving DecidableEq, Repr

/-- A condition of R175 as R176 latches it. `key` is the front end, signal, system or machine. -/
structure Cond where
  check : Nat
  key : Nat
  /-- Consecutive evaluations on which it held. -/
  run : Nat
  latched : Bool
  /-- Counter at the latest evaluation on which it held. -/
  trueAt : Nat
  /-- Systems at level 2, signals at level 1 as SIGNAL × 256 + SVID, and the device level it asks for. -/
  systems : List Nat
  signals : List Nat
  level : Nat
  /-- It withdraws time samples while latched. -/
  withdraws : Bool
deriving DecidableEq, Repr

/-- The learnt reference of a front end (R177): counted seconds of gain and mean C/N0, newest first. -/
structure AgcRef where
  seconds : List (Nat × Rat)
  valid : Bool
deriving DecidableEq, Repr

/-- The Mirage Monitor. -/
structure Mir where
  conds : List Cond
  level : Nat
  /-- What R184 justifies without climbing, as last evaluated; the level reached by climbing, 0 for none. -/
  base : Nat
  climb : Nat
  /-- Entries of the latest ANT_A record. -/
  last : List Entry
  /-- Counter at which the level came to 3 or above, or last climbed; and at its last fall or rise. -/
  highAt : Nat
  changedAt : Nat
  refs : Tbl AgcRef
  /-- (ρ − λΦ) of each channel in m with its epoch, newest first (check 2). -/
  cc : Tbl (List (Nat × Rat))
  /-- dx of each second, m, with its counter, newest first (R179). -/
  moves : List (Nat × (Rat × Rat × Rat))
  /-- 1 Hz positions of the last 60 s, ECEF mm, with their counters, newest first. -/
  spots : List (Nat × (Int × Int × Int))
  /-- The satellites as they stood at the last whole second. -/
  lastSky : List SatView
  /-- Phases of the last whole second by channel, cycles: signal × 256 + SVID, LLI, phase. -/
  lastPhase : Tbl (Nat × Nat × Rat)
  /-- e of the last whole second, ns (check 5). -/
  lastE : Option Rat
  disp : Nat
  /-- Consecutive disagreeing epochs of each machine (check 9). -/
  rover : Tbl Nat
  /-- Counter of the last scan of each channel (R182). -/
  scans : Tbl Nat
  /-- The channel last scanned, and the counter at which its scan ended. -/
  scanned : Option (Nat × Nat)
  /-- LEVEL, SYS_FLAG and the INTEGRITY byte as `SAFE_HOLD` froze them (R191). -/
  frozen : Option (Nat × Nat × Nat)
  fault : Bool
deriving DecidableEq, Repr

end Sys2Proof.Machine
end

