-- ==== Sys2Proof/Machine/TypesFix.lean ====
section
/-! DEFINITION. The state of the Fix Engine and the Caravan Engine (R193 to R223, R268 to R298). -/

namespace Sys2Proof.Machine

/-- An RTCM frame in a radio queue (R200). -/
structure RtcmFrame where
  tr : Nat
  bytes : List Byte
  /-- Bytes already sent. -/
  sent : Nat
  /-- Its transmission has begun, so it always completes (R200). -/
  begun : Bool
deriving DecidableEq, Repr

/-- The correction queue of a radio port. -/
structure RadioQueue where
  frames : List RtcmFrame
  /-- The next chunk begins on a frame boundary with BOUNDARY set (R246). -/
  resync : Bool
deriving DecidableEq, Repr

def RadioQueue.reset : RadioQueue := ⟨[], false⟩

/-- An epoch in assembly (R205). -/
structure Assembly where
  n : Nat
  tObs : Nat
  count : Nat
  bodyLen : Nat
  frags : Tbl (List Byte)
deriving DecidableEq, Repr

/-- A signal block of an epoch body (R204). -/
structure ObsSig where
  sys : Nat
  /-- Frequency slot of GLONASS, 0 otherwise. -/
  slot : Int
  svid : Nat
  sig : Nat
  phaseValid : Bool
  halfAmb : Bool
  pilot : Bool
  slips : Nat
  rough : Nat
  finePsr : Int
  finePhase : Int
  cn0 : Nat
deriving DecidableEq, Repr

/-- An epoch body parsed (R204). -/
structure ObsEpoch where
  clkReset : Bool
  clkOfs : Int
  nsat : Nat
  sigs : List ObsSig
deriving DecidableEq, Repr

/-- The configuration under which a solve started (R218). -/
structure SolveCfg where
  field : Nat
  period : Nat
  par : Bool
  elevMask : Nat
  ratioMin : Nat
  maxGap : Nat
  parMin : Nat
  baselineMax : Nat
  /-- ACCEL in 0.05 m/s², PHASE_A and PHASE_B in mm, CODE_RATIO, FIX_BASE_PCO in mm (R208). -/
  accel : Nat
  phaseA : Nat
  phaseB : Nat
  codeRatio : Nat
  pco : Int
  /-- The base is known; its coordinates, and the origin of the machine's field, ECEF mm. -/
  known : Bool
  base : Int × Int × Int
  origin : Int × Int × Int
deriving DecidableEq, Repr

def SolveCfg.none : SolveCfg := ⟨0, 0, false, 0, 0, 0, 0, 0, 0, 0, 0, 0, 0, false, (0, 0, 0), (0, 0, 0)⟩

/-- A complete epoch, queued or on a lane (R212). -/
structure Solve where
  machine : Nat
  tObs : Nat
  obs : ObsEpoch
  /-- Compact time of completion. -/
  done : Nat
  cfg : SolveCfg
  /-- FIX_ROVER_RESET, or LINK_LOST, came before it started (R209, R220). -/
  fresh : Bool
deriving DecidableEq, Repr

/-- A float double-difference ambiguity of a filter: its frequency slot, SLIPS and LLI of its signal at the last epoch that used it, and that epoch
(R209). -/
structure Amb where
  slot : Int
  slips : Nat
  lli : Nat
  last : Nat
deriving DecidableEq, Repr

/-- A rover's filter (R208, R209): the instant of the last epoch used, the ambiguities by signal and satellite, the reference
satellite of each signal code, and the status last delivered. -/
structure RoverFilter where
  last : Option Nat
  ambs : Tbl Amb
  refs : Tbl Nat
  /-- States: position in m and velocity in m/s, ECEF, then the ambiguities in the order of `ambs`, in cycles; that of a reference
  satellite is 0. -/
  x : List Rat
  /-- Their covariance, by rows. -/
  p : List (List Rat)
  status : Nat
  /-- A reset applies from the next solve. -/
  fresh : Bool
deriving DecidableEq, Repr

def RoverFilter.reset : RoverFilter := ⟨Option.none, [], [], [], [], 0, false⟩

/-- The Fix Engine. -/
structure Fix where
  radio : Tbl RadioQueue
  /-- Φ moved by R197 for the lock of a channel: counter at its t0, cycles. -/
  shifts : Tbl (Nat × Int)
  /-- The latest correction epoch, where it produced an MSM message (R202). -/
  msmAt : Option Nat
  setupId : Nat
  strings : List (List Byte)
  /-- ANT_A records delivered, newest first. -/
  refs : List MeasRec
  asm : Tbl Assembly
  /-- Number of each machine's epoch that completed or was abandoned last. -/
  ended : Tbl Nat
  queue : List Solve
  lanes : Tbl Solve
  filters : Tbl RoverFilter
  wr : Nat
  drops : Nat
  ovf : Bool
  solved : Word
  abandoned : Word
  late : Word
  stale : Word
  hostMissed : Word
  fragDiscard : Word
  fault : Bool
deriving DecidableEq, Repr

/-- A point of the field frame, mm. -/
abbrev Point := Int × Int

/-- A segment (R271); its owner is the reservation that lists it. -/
structure Seg where
  p0 : Point
  p1 : Point
  h : Nat
  /-- Window in 10 ms units; no end: open. -/
  s : Nat
  e : Option Nat
  field : Nat
  /-- Frozen at R287, with the end it had. -/
  froze : Option (Option Nat)
  /-- Held open by R285. -/
  held : Bool
deriving DecidableEq, Repr

/-- What the Caravan Engine holds for one machine. -/
structure CarMach where
  held : Bool
  /-- Freezes that stand: by a stop, by LINK_LOST. -/
  stopped : Bool
  lost : Bool
  /-- The instant F of R287, ns. -/
  frozenAt : Option Nat
  stand : Bool
  deviations : Nat
  deviation : Bool
  overrun : Bool
  track : Option Nat
  /-- Tracks allotted to it, latest first. -/
  tracks : List Nat
deriving DecidableEq, Repr

/-- The latch stands at power-on, so every machine's requests are stopped until its re-enable (R287, R332). -/
def CarMach.reset : CarMach := ⟨false, true, false, none, false, 0, false, false, none, []⟩

/-- A request (R273, R293): KIND 0 to 4, 5 for CAR_RESERVE, or 6 for a CAR_RESERVE that answers the host queue's request of `task`. -/
structure Req where
  owner : Nat
  kind : Nat
  flags : Nat
  id : Nat
  /-- REQ_TIME, ns, and T_DEPART, ms. -/
  time : Nat
  depart : Nat
  task : Nat
  /-- START and the approach vertices. -/
  points : List Point
  speed : Nat
  prio : Nat
  /-- Delivery instant, ns, at which COLLECT starts. -/
  at' : Nat
  body : List Byte
  /-- CAR_RESERVE: segments, track, entry at the last vertex, the descriptor's serial number, answer to the machine. -/
  segs : List Seg
  track : Option Nat
  reversed : Bool
  desc : Option Nat
  notify : Bool
deriving DecidableEq, Repr

/-- A request of the host policy (R282): TOKEN, counter at which it entered the queue, and whether CAR_REQ_GET has read it. -/
structure HostReq where
  token : Nat
  since : Nat
  read : Bool
  req : Req
deriving DecidableEq, Repr

/-- The Caravan Engine. -/
structure Car where
  /-- Reservations by owner, segments in path order (R272). -/
  res : Tbl (List Seg)
  machs : Tbl CarMach
  tasks : Tbl (List Byte)
  /-- Requests that wait for COLLECT or their turn, in the order taken. -/
  pend : List Req
  hostq : List HostReq
  token : Nat
  granted : Word
  deferred : Word
  refused : Word
  deviations : Word
  overruns : Word
  answerMax : Nat
  fault : Bool
deriving DecidableEq, Repr

end Sys2Proof.Machine
end

