-- ==== Sys2Proof/Machine/State.lean ====
section
/-! DEFINITION. The state of the MG-7740 as plain data, its stops, and the machine right after reset. -/

namespace Sys2Proof.Machine

/-- Why a command stops the model: there is no such reason. The manual stops no command of its table on every path, and an operand
that it does not allow is clamped, replaced, refused by a status or stands for a free value. -/
inductive Fault where
deriving DecidableEq, Repr

/-- Why the model gives a command no meaning. -/
inductive Refusal where
  /-- The command has no meaning yet; raised by Dispatch alone. Safe: nothing is said of the command. -/
  | notModelled (mnemonic : String)
deriving DecidableEq, Repr

/-- What a commit by CFG_COMMIT replaced, kept while CFG_STATUS shows it BUSY: the device state, the active configuration, and the
units that it named as they stood before it (R29, R61). -/
structure Undo where
  state : DevState
  named : BitVec 20
  active : Conf
  units : BitVec 20
  generation : Word
  fld : Fld
  sec : Sec
  gns : Gns
  mir : Mir
  fix : Fix
  hop : Hop
  fab : Fab
  link : Tbl LinkKeys
  training : Bool
  recorderNext : Nat
  store : List StoredBlock
  storing : List Storing
deriving DecidableEq, Repr

/-- The machine. -/
structure State where
  id : Ident
  clk : Clock
  cfg : Cfg
  /-- What a fatal cause brings back while the check of a CFG_COMMIT lasts (R29). -/
  undo : Option Undo
  /-- Immediate (RW) registers by BAR0 offset, where they differ from their reset value. -/
  direct : Tbl Word
  hst : Hst
  tb : Tb
  cal : Cal
  pwr : Pwr
  stp : Stp
  dis : Dis
  mem : Mem
  key : Key
  boot : Boot
  nvm : Nvm
  crn : Crn
  fab : Fab
  hop : Hop
  fld : Fld
  sec : Sec
  gns : Gns
  mir : Mir
  fix : Fix
  car : Car
  /-- Counter of each recurring action when it last took place (log entry 2). -/
  timers : Tbl Nat
  /-- Draws made of free values (log entry 3). -/
  free : Nat
  /-- The journal of outputs (log entry 6). -/
  out : List Out
  /-- Commands waiting, first in, first out. -/
  pending : List Instr
deriving DecidableEq, Repr

/-- What a command answers. -/
abbrev Result := Host.Outcome State Fault Refusal

/-! ### Reset -/

/-- Nothing staged or active: every register at its reset value, every table empty. -/
def Conf.empty : Conf := ⟨[], [], [], [], [], []⟩

/-- CFG after reset (R49, R58). -/
def Cfg.reset : Cfg := ⟨Conf.empty, Conf.empty, 0, 0, 0, 0, 0, 0, false, 0, 0⟩

/-- Configuration space after reset (R360). The largest read request, which the host sets, starts at PCI Express's default of
512 bytes and the completion timeout at code 0, which stands for the 50 ms of R360 (PRESUMED, log entry 63). -/
def PciConfig.reset (part : Nat) (revision : Byte) : PciConfig where
  vendor := 0x1F3A
  device := part
  subVendor := 0x1F3A
  subSystem := part
  revision := revision
  classCode := 0x118000
  bar0Size := 2 ^ 20
  bar0Wide := true
  bar0Prefetch := false
  vectors := 64
  bir := 0
  tableAt := 0xDA00
  pbaAt := 0xDE00
  maxSpeed := 4
  maxWidth := 4
  maxPayload := 512
  maxRead := 512
  timeoutCode := 0
  timeoutRanges := 7
  aer := true
  aspmL1 := true
  aspmL0s := false

/-- The Host Interface after reset; its link is down until it trains (R360, R378). -/
def Hst.reset : Hst :=
  ⟨PciConfig.reset 0x7740 0x21, [], [], 0, [], [], false, 0, 0, false, false, false, 0, 0, [], 0⟩

/-- The Timebase after reset, before R103 seeds it. -/
def Tb.reset : Tb where
  freq := 0
  quality := .free
  source := 0
  srcs := []
  fresh := false
  lockRun := 0
  lastSample := none
  offset := 0
  errOff := 0
  errEst := 0xFFFFFFFF
  err0 := 0
  holdAt := 0
  fromHold := false
  step := none
  lastClass := 52
  ppsHigh := false
  ppsPin := false
  ppsNext := 0
  ppsAt := none
  stamps := []
  stampDrops := 0
  stampOvf := false
  stampOut := none
  launches := []
  periodic := []
  highWater := 0
  alarms := []
  ptp := []
  slavePort := none

/-- The backup domain after it has lost power (R103, R469, R471). -/
def Cal.lost : Cal where
  count := 0
  part := 0
  valid := false
  vbatLow := false
  lastSync := 0
  tamperCtrl := 0x2000
  tamperStatus := 0x10
  inputs := 0
  tamperTime := 0
  epochCount := 0
  epoch := none

/-- Power and reset after a power-on (R518); the levels of the pins are the model's choice. -/
def Pwr.reset : Pwr where
  state := .boot
  fatal := 0
  causes := 0
  inReset := false
  resetCause := 0
  recoveryPin := false
  good := 0x3FF
  goodAt := 0
  pfail := false
  pfailAt := 0
  pfailUntil := 0
  nvStopped := false
  onVbat := false
  stage := 0
  stageMax := 0
  slow := false
  slowSince := none
  tj := -2048
  tjMax := -2048
  hot := false

/-- The Stop Controller after reset: the latch is set at `STOP` by `POWER_ON` (R26, R332). -/
def Stp.reset : Stp where
  latched := true
  event := none
  released := none
  stop := true
  source := 1
  count := 1
  seen := 0x002
  armed := none
  pinA := false
  pinB := false
  disagreeAt := none
  pinFault := false
  enabled := 0
  lostSince := 0
  readA := true
  readB := true
  padA := none
  padB := none
  pulseA := none
  pulseB := none
  testA := 0
  testB := 0
  tests := 0
  precompMiss := 0
  fabReject := 0
  pendantReject := 0
  fabStale := 0
  missed := []

def Dis.reset : Dis := ⟨[], [], [], [], [], [], [], [], [], [], [], 0, false, 0, 0, false, 0, []⟩

def Mem.reset : Mem := ⟨[], [], [], false, false, false, [], [], [], 0, 0, 0, 0, 0, none⟩

def Key.reset : Key where
  slots := []
  attests := AB.blank
  cache := []
  retired := []
  link := []
  queue := []
  running := []
  rootExact := none
  rootLineage := none
  md := []
  signer := []
  svn := 0
  rootsReady := false
  tampered := false
  worn := false
  fault := false
  orphaned := 0
  authFail := 0
  orphanAt := []
  tamperLate := true

def Boot.reset : Boot where
  ptrs := AB.blank
  booted := false
  loaded := false
  lastFail := 0
  svnMin := 0
  update := none
  meas := []
  log := []
  header := []
  units := []
  migration := []
  migSigner := []
  migSvn := 0
  flash := []
  failA := false
  failB := false
  peers := []

/-- The NV die as it is made (R483). -/
def Nvm.reset : Nvm := ⟨8, 8, 32, 0, 8, 8, false, [], AB.blank, [], [], [], []⟩

/-- The recorder at its first reset. STP_LATCH is queued for the power-on latch (R26, R332, R359), and CAL_INVALID, for the
Calendar is not valid (R103, R508). -/
def Crn.reset : Crn where
  queue := [⟨8, 3, 0xFF, [], false, 0, 0x80, [1, 1, 1, 0, 0, 0, 0, 0], 0⟩, ⟨384, 2, 0xFF, [], false, 0, 0x80, List.replicate 8 0, 0⟩]
  round := none
  buf := []
  nv := []
  seq := 0
  boot := 1
  flushing := false
  flushAt := 0
  wantAt := none
  evqLost := 0
  overwritten := 0
  critDropped := 0
  fault := false
  dropAt := none
  capacity := 26112

def Fab.reset : Fab where
  ports := []
  addr := 0
  addrState := .none
  attempt := 0
  claimAt := 0
  claimSent := 0
  fault := false
  seqs := []
  lsaSeq := none
  lsaAt := none
  lsaDirty := false
  lsdb := []
  spfDue := none
  nextHop := []
  learn := []
  filter := []
  events := []
  evqOverflow := false
  dup := []
  repeats := []
  held := []
  mseqs := []
  noRoute := 0
  hopExpired := 0
  learnDrop := 0
  undelivered := 0
  hostDrop := 0
  spfRuns := 0

def Hop.reset : Hop := ⟨[], [], [], [], [], 0, false⟩

def Fld.reset : Fld := ⟨[], false, [], 0, 0, 0, false, false, [], 0, false, [], [], 0⟩

def Sec.reset : Sec := ⟨[], [], [], [], none, 0, 0, 0, 0, 0, 0, 0, 0, false⟩

def Gns.reset : Gns where
  chans := []
  nav := []
  start := none
  leap := none
  timeValid := false
  fault := false
  nosigA := false
  nosigB := false
  gains := []
  railA := none
  railB := none
  seqA := 0
  seqB := 0
  wr := 0
  drops := 0
  ovf := false
  latched := none
  stepFlag := false
  clkOfs := 0
  sysOfs := []
  refSys := 0
  base := .none
  survey := ⟨0, 0, (0, 0, 0), (0, 0, 0), 0⟩
  mean := (0, 0, 0)
  sigma := 0xFFFF
  elapsed := 0
  running := []
  queue := []
  captures := []

/-- The level stands at 3 (MIR_STATUS, R191). -/
def Mir.reset : Mir where
  conds := []
  level := 3
  base := 3
  climb := 0
  last := []
  highAt := 0
  changedAt := 0
  refs := []
  cc := []
  moves := []
  spots := []
  lastSky := []
  lastPhase := []
  lastE := none
  disp := 0
  rover := []
  scans := []
  scanned := none
  frozen := none
  fault := false

def Fix.reset : Fix where
  radio := []
  shifts := []
  msmAt := none
  setupId := 0
  strings := []
  refs := []
  asm := []
  ended := []
  queue := []
  lanes := []
  filters := []
  wr := 0
  drops := 0
  ovf := false
  solved := 0
  abandoned := 0
  late := 0
  stale := 0
  hostMissed := 0
  fragDiscard := 0
  fault := false

def Car.reset : Car := ⟨[], [], [], [], [], 0, 0, 0, 0, 0, 0, 0, false⟩

/-- The machine right after its first power-on reset, in `BOOT`: an MG-7740 B1 whose backup domain has just got power. -/
def State.reset : State where
  id := ⟨.mg7740, 0x21, BitVec.ofNat 64 (1 + Config.fusedEui.toNat % (2 ^ 64 - 1)), Config.fusedDevice⟩
  clk := ⟨0, 0, 0, false⟩
  cfg := Cfg.reset
  undo := none
  direct := []
  hst := Hst.reset
  tb := Tb.reset
  cal := Cal.lost
  pwr := Pwr.reset
  stp := Stp.reset
  dis := Dis.reset
  mem := Mem.reset
  key := Key.reset
  boot := Boot.reset
  nvm := Nvm.reset
  crn := Crn.reset
  fab := Fab.reset
  hop := Hop.reset
  fld := Fld.reset
  sec := Sec.reset
  gns := Gns.reset
  mir := Mir.reset
  fix := Fix.reset
  car := Car.reset
  timers := []
  free := 0
  out := []
  pending := []

end Sys2Proof.Machine
end

