-- ==== Sys2Proof/Machine/Ops.lean ====
section
/-! DEFINITION. The named operations of the machine: time, registers and their clamping, presence on the part, free values,
the journal of outputs. -/

namespace Sys2Proof.Machine

/-! ### Time -/

/-- Compact time (R36): whole nanoseconds of the local clock. -/
def State.now (s : State) : Nat := s.clk.t48 / 2 ^ 48 % 2 ^ 64

/-- `dt` ticks of the 250 MHz counter pass: the clock advances by 4 ns × (1 + TB_RATE_ADJ × 2⁻⁴⁴) on each (R67), and stands
still after `ECC_TB` (R102). The Calendar counts on its own crystal (R103, log entry 8). -/
def State.elapse (s : State) (dt : Nat) : State :=
  { s with
    clk := { s.clk with
      counter := s.clk.counter + dt
      t48 := if s.clk.frozen then s.clk.t48
             else s.clk.t48 + dt * (2 ^ 50 + 64 * s.clk.rate.toInt).toNat }
    cal := { s.cal with
      count := s.cal.count + (s.cal.part + 512 * dt) / 3906250
      part := (s.cal.part + 512 * dt) % 3906250 } }

/-- Whole TAI seconds of the Calendar (CAL_SEC). -/
def Cal.sec (c : Cal) : Nat := c.count / 32768

/-- Counter ticks of 4 ns in a millisecond, a microsecond, a second. -/
def tickMs : Nat := 250000
def tickUs : Nat := 250
def tickS : Nat := 250000000

-- Recurring actions, by number, in the table of their last occurrence.
namespace T
def stageMon : Nat := 0
def tempSample : Nat := 1
def errEst : Nat := 2
def doorbell : Nat := 3
def hello : Nat := 4
def claimRepeat : Nat := 5
def lsaSend : Nat := 6
def scrub : Nat := 7
def remask : Nat := 8
def crnPeriod : Nat := 9
def recoveryReq : Nat := 10
def ageSweep : Nat := 11
def carExpiry : Nat := 12
def peakScan : Nat := 13
def syncSend : Nat := 14
def claimWait : Nat := 15
def fabDirty : Nat := 16
def measEpoch : Nat := 17
def dramScrub : Nat := 18
def dramTrain : Nat := 19
def safeHold : Nat := 20
def remaskEpoch : Nat := 21
end T

/-- A recurring action is due `period` ticks after it last took place. -/
def State.due (s : State) (t period : Nat) : Bool := tget s.timers 0 t + period ≤ s.clk.counter

/-- The recurring action takes place now. -/
def State.mark (s : State) (t : Nat) : State := { s with timers := tset s.timers 0 t s.clk.counter }

/-! ### Outputs and free values -/

/-- One output is added to the journal. -/
def State.emit (s : State) (o : Out) : State := { s with out := s.out ++ [o] }

/-- The next free value is drawn. -/
def State.draw (s : State) : State := { s with free := s.free + 1 }

/-- The length in µs of a turn that the spec bounds, as an operand gives it. An operand above the bound stands for no turn of the
hardware: the length is then a free value within the bound (log entry 78). -/
def State.turnLength (s : State) (us limit : Nat) : Nat × State :=
  if us ≤ limit then (us, s) else ((Config.freeBits 26 s.free 16).toNat % (limit + 1), s.draw)

/-- The bytes of a structure of `n` bytes in host memory, as an operand gives them: those that it leaves out are free
(log entry 64). -/
def fillFree (draw n : Nat) (b : List Byte) : List Byte :=
  b.take n ++ (List.range (n - b.length)).map fun i => Config.freeBits 20 (draw * 4096 + i) 8

/-! ### Register values -/

/-- A field of a configuration. -/
def Conf.get (c : Conf) (f : Sel) (i : Nat := 0) : Nat :=
  bits (tget c.regs (BitVec.ofNat 32 f.reset) (f.base + f.stride * i)).toNat f.lo f.width

/-- A field of the active configuration. -/
def State.act (s : State) (f : Sel) (i : Nat := 0) : Nat := s.cfg.active.get f i

/-- A staged field. -/
def State.stg (s : State) (f : Sel) (i : Nat := 0) : Nat := s.cfg.staged.get f i

/-- An immediate (RW) field. -/
def State.reg (s : State) (f : Sel) (i : Nat := 0) : Nat :=
  bits (tget s.direct (BitVec.ofNat 32 f.reset) (f.base + f.stride * i)).toNat f.lo f.width

/-- Replace one field of a word. -/
def putBits (w : Nat) (lo width v : Nat) : Nat :=
  w - bits w lo width * 2 ^ lo + (v % 2 ^ width) * 2 ^ lo

/-- Write an immediate field. -/
def State.setReg (s : State) (f : Sel) (i v : Nat) : State :=
  let off := f.base + f.stride * i
  let d := BitVec.ofNat 32 f.reset
  { s with direct := tset s.direct d off (BitVec.ofNat 32 (putBits (tget s.direct d off).toNat f.lo f.width v)) }

/-- A 64-bit value from an active or immediate register pair (R34). -/
def State.act64 (s : State) (lo hi : Sel) (i : Nat := 0) : Nat := s.act lo i + 2 ^ 32 * s.act hi i
def State.reg64 (s : State) (lo hi : Sel) (i : Nat := 0) : Nat := s.reg lo i + 2 ^ 32 * s.reg hi i

/-- The value in force of an RW pair that addresses host memory: it takes effect when _HI is written (R34). -/
def State.pairBase (s : State) (lo : Sel) (i : Nat := 0) : Nat := tget s.hst.bases 0 (lo.base + lo.stride * i)

/-- _HI of such a pair is written: the pair takes the value of _LO most recently written (R34). -/
def State.latchPair (s : State) (lo hi : Sel) (i : Nat) : State :=
  { s with hst := { s.hst with bases := tset s.hst.bases 0 (lo.base + lo.stride * i) (s.reg64 lo hi i) } }

/-- A PTP port (R89). -/
def State.ptpPort (s : State) (p : Nat) : PtpPort := tget s.tb.ptp PtpPort.reset p

def State.modPtp (s : State) (p : Nat) (f : PtpPort → PtpPort) : State :=
  { s with tb := { s.tb with ptp := tmod s.tb.ptp PtpPort.reset p f } }

/-- No neighbour is heard on a PTP port: its offset reads 0, and FABRIC_SKEW does not hold (R91). -/
def State.forgetNeighbour (s : State) (p : Nat) : State :=
  s.modPtp p fun q => { q with nbrOffset := 0, heard := false, skew := false }

/-- A unit has an active configuration (R49). -/
def State.unitOn (s : State) (u : Nat) : Bool := s.cfg.units.getLsbD u

-- Unit bits of R51.
namespace U
def tb : Nat := 0
def cal : Nat := 1
def gns : Nat := 2
def mir : Nat := 3
def fix : Nat := 4
def fld : Nat := 5
def sec : Nat := 6
def car : Nat := 7
def stp : Nat := 8
def rad : Nat := 9
def hop : Nat := 10
def hst : Nat := 11
def fab : Nat := 12
def dis : Nat := 13
def mem : Nat := 14
def key : Nat := 15
def boot : Nat := 16
def nvm : Nat := 17
def crn : Nat := 18
def pwr : Nat := 19
end U

-- Refusal reasons of R58.
namespace Rf
def rule : Nat := 1
def absentUnit : Nat := 2
def worn : Nat := 3
def badBlock : Nat := 4
def pending : Nat := 5
def launchFull : Nat := 6
def ringsRunning : Nat := 7
def state : Nat := 8
def abandoned : Nat := 9
def empty : Nat := 0xA
end Rf

/-! ### Sizes and presence on the part (R2 to R6, R544) -/

/-- Machines, and radio and fabric ports fitted. -/
def Part.machines : Part → Nat
  | .mg7740 => 256
  | .mg7732 => 128
  | .mg7716 => 64

def Part.sections (p : Part) : Nat := p.machines * 1024

def Part.radios : Part → Nat
  | .mg7740 => 4
  | .mg7732 => 4
  | .mg7716 => 2

def Part.fabs : Part → Nat
  | .mg7740 => 6
  | .mg7732 => 4
  | .mg7716 => 0

/-- The PART value (R1). -/
def Part.code : Part → Nat
  | .mg7740 => 0x7740
  | .mg7732 => 0x7732
  | .mg7716 => 0x7716

/-- A unit is present on the part (R2, R544). -/
def Part.has (p : Part) (u : Nat) : Bool :=
  match p with
  | .mg7716 => u ≠ U.car && u ≠ U.fab
  | _ => true

/-- The machines, ports and units of this device. -/
def State.machines (s : State) : Nat := s.id.part.machines
def State.has (s : State) (u : Nat) : Bool := s.id.part.has u

/-- The unit whose page holds a BAR0 offset (R538, R539): CFG belongs to PWR. -/
def unitOf (off : Nat) : Option Nat :=
  let p := off / 4096
  if p = 1 then some U.pwr else if 2 ≤ p ∧ p ≤ 21 then some (p - 2) else none

/-- Index of `off` in the array at `base`, when it lies there. -/
def arrayIdx (off base stride count : Nat) : Option Nat :=
  if off < base then none
  else if stride = 0 then (if off = base then some 0 else none)
  else if (off - base) % stride = 0 ∧ (off - base) / stride < count then some ((off - base) / stride) else none

/-- Bits of a register that the part has (R4, R74, R148, R190, R262, R290, R329, R356, R418, R544). -/
def Part.fitMask (p : Part) (off : Nat) : Nat :=
  let all := 0xFFFFFFFF
  if (match unitOf off with | some u => !p.has u | none => false) then 0
  else if (match arrayIdx off 0x6400 4 256 with | some i => decide (p.machines ≤ i) | none => false) then 0
  else if (match arrayIdx off 0x8400 4 256 with | some i => decide (p.machines ≤ i) | none => false) then 0
  else if (match arrayIdx off 0x8800 4 256 with | some i => decide (p.machines ≤ i) | none => false) then 0
  else if (match arrayIdx off 0x9400 4 256 with | some i => decide (p.machines ≤ i) | none => false) then 0
  else if (match arrayIdx off 0x9800 4 256 with | some i => decide (p.machines ≤ i) | none => false) then 0
  else if 0xC100 ≤ off ∧ off < 0xC200 ∧ p.radios ≤ (off - 0xC100) / 64 then 0
  else if 0xB000 ≤ off ∧ off < 0xB040 ∧ p.radios ≤ (off - 0xB000) / 16 then 0
  else if 0xE100 ≤ off ∧ off < 0xE280 ∧ p.fabs ≤ (off - 0xE100) / 64 then 0
  else match p with
    | .mg7740 => all
    | .mg7732 =>
      if off = 0x2060 then all - 0x30                                   -- PORTS 4, 5 (R74)
      else if 0x8400 ≤ off ∧ off < 0x8800 then all - 0x6                -- FALLBACK, DISAGREE_OFF (R329)
      else if off = 0x9000 then all - 0x1000                            -- CONF_SRC (R290)
      else if off = 0x5004 then all - 0x200                             -- ROVER_CENTRAL (R190)
      else if off = 0x6000 then all - 0x2                               -- SOLVER_EN (R217)
      else if fixSolverReg off then 0
      else if off = 0x6008 then all - 0x3000                            -- FAB 4, 5 (R217)
      else all
    | .mg7716 =>
      if off = 0x2000 then all - 0x2                                    -- SRC_EN bit 1 (R74)
      else if off = 0x2060 then all - 0x3F
      else if off = 0x4000 then all - 0x2                               -- EN_B (R148)
      else if off = 0x403C ∨ off = 0x4040 ∨ off = 0x4044 then 0         -- GNS_AGC_3 to 5 (R148)
      else if 0x8400 ≤ off ∧ off < 0x8800 then all - 0x6                -- FALLBACK, DISAGREE_OFF (R329)
      else if off = 0xA000 then all - 0xF                               -- scopes (R356)
      else if off = 0xA004 then all - 0x1
      else if off = 0xA008 then 0
      else if off = 0x5004 then all - 0x210                             -- TWO_ANT, ROVER_CENTRAL (R190)
      else if off = 0x6000 then all - 0x2
      else if fixSolverReg off then 0
      else if off = 0x6008 then all - 0x3F0C                            -- FAB, RADIO 2, 3
      else all
where
  /-- FIX_ROVER_n and the FIX_SOL_ registers (R217). -/
  fixSolverReg (off : Nat) : Bool := (0x6400 ≤ off && off < 0x6800) || off = 0x6030 || off = 0x6034 || off = 0x603C

/-! ### Writing registers (R40 to R44) -/

/-- A field's value as R41 and R42 store it, and whether it was clamped or replaced. -/
def clampField (f : FieldDef) (v : Nat) : Nat × Bool :=
  match f.clamp with
  | .any => (v, false)
  | .range lo hi => if v < lo then (lo, true) else if hi < v then (hi, true) else (v, false)
  | .signed lo hi =>
    let x := signed f.width v
    if x < lo then (unsigned f.width lo, true) else if hi < x then (unsigned f.width hi, true) else (v, false)
  | .enum last => if v ≤ last then (v, false) else (f.reset, true)
  | .codes2 =>
    let fix := fun n => if bits v (2 * n) 2 = 3 then 0 else bits v (2 * n) 2 * 4 ^ n
    let r := fix 0 + fix 1 + fix 2 + fix 3
    (r, r ≠ v)
  | .step k =>
    let r := v % k
    if r = 0 then (v, false)
    else if 2 * r ≤ k ∨ 2 ^ f.width ≤ v - r + k then (v - r, true) else (v - r + k, true)
  | .lowZero k => (v - v % 2 ^ k, false)

/-- The register definition at an offset. -/
def regAt (off : Nat) : Option RegDef := regTable.find? fun r => (arrayIdx off r.base r.stride r.count).isSome

/-- The reset word of a register's fields of one access. -/
def RegDef.resetWord (r : RegDef) (a : Acc) : Nat :=
  r.fields.foldl (fun w f => if f.acc = a then w + f.reset * 2 ^ f.lo else w) 0

/-- Fields of access `a`, written with `v` over the stored word `w`, limited to the bits of `mask`: the new word and the
number of fields clamped (R40, R41, R43). -/
def RegDef.store (r : RegDef) (a : Acc) (mask w v : Nat) : Nat × Nat :=
  r.fields.foldl (fun (acc : Nat × Nat) f =>
    if f.acc ≠ a ∨ bits mask f.lo f.width = 0 then acc
    else
      let (x, c) := clampField f (bits v f.lo f.width &&& bits mask f.lo f.width)
      (putBits acc.1 f.lo f.width x, acc.2 + b2n c)) (w, 0)

/-- `n` clamps are counted; `off` is the register's offset, none for a descriptor field (CFG_CLAMP_STATUS, CFG_CLAMP_LAST). -/
def State.countClamps (s : State) (n : Nat) (off : Option Nat) : State :=
  if n = 0 then s
  else { s with cfg := { s.cfg with
    clampCount := min 0xFFFF (s.cfg.clampCount + n), clamped := true, clampLast := off.getD s.cfg.clampLast } }

/-- One register's staged fields written with a value (R41, R48). -/
def State.writeStaged (s : State) (r : RegDef) (off v : Nat) : State :=
  let d := BitVec.ofNat 32 (r.resetWord .rws)
  let (w, n) := r.store .rws (s.id.part.fitMask off) (tget s.cfg.staged.regs d off).toNat v
  { s with cfg := { s.cfg with
      staged := { s.cfg.staged with regs := tset s.cfg.staged.regs d off (BitVec.ofNat 32 w) } } }.countClamps n (some off)

/-- One register's immediate fields written with a value (R41). -/
def State.writeDirect (s : State) (r : RegDef) (off v : Nat) : State :=
  let d := BitVec.ofNat 32 (r.resetWord .rw)
  let (w, n) := r.store .rw (s.id.part.fitMask off) (tget s.direct d off).toNat v
  { s with direct := tset s.direct d off (BitVec.ofNat 32 w) }.countClamps n (some off)

/-! ### Buffers in DRAM (R166, R444) -/

/-- Where the next record of `len` bytes goes in a ring buffer of `size` bytes: none when it would reach the read offset. -/
def bufNext (size wr rd len : Nat) : Option Nat :=
  let n := (wr + len) % size
  if n = rd then none else some n

end Sys2Proof.Machine
end

