-- ==== Sys2Proof/Machine/Sched.lean ====
section
/-! DEFINITION. The Dispatcher's placement of threads on cores and its scheduling trace (R430 to R436, R443, R444). -/

namespace Sys2Proof.Machine

/-- What an unlisted byte of DRAM, of the scratchpad and of the user region reads as (log entry 9). -/
def memFill : Byte := 0

/-! ### DRAM (R448, R450) -/

/-- Uncorrectable errors at words or accesses of DRAM are counted; MEM_ECC_ADDR holds the latest, with region 2 in [63:60] (R448). -/
def State.dramErrors (s : State) (l : List Nat) : State :=
  match l.getLast? with
  | none => s
  | some a => { s with mem := { s.mem with
      eccUncorr := s.mem.eccUncorr + BitVec.ofNat 32 l.length, eccAddr := BitVec.ofNat 64 (2 * 2 ^ 60 + a)
      failed := s.mem.failed + l.length } }

/-- What a read of `n` bytes meets: the words that hold an uncorrectable error, or the access itself once training has failed. -/
def State.dramFaults (s : State) (a n : Nat) : List Nat :=
  if s.mem.trainFail then [a] else s.mem.bad.filter fun w => a < w + 8 && w < a + n

/-- Bytes are stored in DRAM. A word with an uncorrectable error that is stored in part counts it and stays as it is; one that is stored
whole is good again. -/
def State.dramPut (s : State) (a : Nat) (b : List Byte) : State :=
  let whole := fun (w : Nat) => decide (a ≤ w) && decide (w + 8 ≤ a + b.length)
  let part := (s.dramFaults a b.length).filter fun w => !whole w
  let store := fun (m : Memory) =>
    if part.isEmpty then writeMem m memFill a b
    else b.zipIdx.foldl (fun m (p : Byte × Nat) =>
      if part.any fun w => w ≤ a + p.2 && a + p.2 < w + 8 then m else tset m memFill (a + p.2) p.1) m
  ({ s with mem := { s.mem with dram := store s.mem.dram, bad := s.mem.bad.filter fun w => !whole w } }).dramErrors part

/-- A unit stores bytes in DRAM: the access waits until READY, and fails once training has failed (R450). -/
def State.dramStore (s : State) (a : Nat) (b : List Byte) : State :=
  if s.mem.trainFail then s.dramErrors [a]
  else if s.mem.ready then s.dramPut a b
  else { s with mem := { s.mem with waiting := s.mem.waiting ++ [(a, b)] } }

/-- A thread context. -/
def State.thread (s : State) (t : Nat) : Thread := tget s.dis.threads Thread.reset t

/-- Change a thread context. -/
def State.modThread (s : State) (t : Nat) (f : Thread → Thread) : State :=
  { s with dis := { s.dis with threads := tmod s.dis.threads Thread.reset t f } }

/-- The ready list of a priority, head first. -/
def State.readyList (s : State) (p : Nat) : List Nat := tget s.dis.ready [] p

def State.setReady (s : State) (p : Nat) (l : List Nat) : State :=
  { s with dis := { s.dis with ready := tset s.dis.ready [] p l } }

/-- The thread running on a core. -/
def State.running (s : State) (c : Nat) : Option Nat := tfind s.dis.cores c

/-- Trace reasons (R443). -/
inductive TraceReason where
  | wait | yield | preempt | suspend | kill | wake
deriving DecidableEq, Repr

def TraceReason.code : TraceReason → Nat
  | .wait => 0
  | .yield => 1
  | .preempt => 2
  | .suspend => 3
  | .kill => 4
  | .wake => 5

/-- A trace record of a change of the thread on a core (R443), or its drop (R444). Where a commit has made the buffer smaller than
the write offset, the next record goes to offset 0 (DESIGN CHOICE, log entry 83). -/
def State.traceChange (s : State) (core : Nat) (why : TraceReason) (outT inT : Option Nat) : State :=
  if !(s.unitOn U.dis) || s.act F.DIS_CTRL_TRACE_EN = 0 || !bit (s.reg F.DIS_TRACE_CTRL_CORES) core then s
  else
    let src := match inT with | some t => (s.thread t).wakeSrc | none => 0x3FFFFF
    let who := core + 16 * why.code + 256 * outT.getD 0x1FF + 2 ^ 17 * inT.getD 0x1FF
    let size := 65536 * s.act F.DIS_TRACE_SIZE_SIZE
    let wr := if s.dis.traceWr < size then s.dis.traceWr else 0
    match bufNext size wr (s.reg F.DIS_TRACE_RD_OFFSET) 16 with
    | none => { s with dis := { s.dis with
        traceDrops := min 0xFFFF (s.dis.traceDrops + 1), traceOvf := true, traceEv := s.dis.traceEv + 1 } }
    | some n =>
      let rec' := leBytes 8 s.now ++ leBytes 4 who ++ leBytes 4 src
      ({ s with dis := { s.dis with traceWr := n } }).dramStore (4096 * s.act F.DIS_TRACE_BASE_FRAME + wr) rec'

/-- A thread starts on a core; a wait that had been met retires, `rd` holding the flags that met it (R430). The core's reservation
does not pass to it. -/
def State.dispatchOn (s : State) (core t : Nat) : State :=
  let s := { s with dis := { s.dis with cores := tput s.dis.cores core t, resv := terase s.dis.resv core } }
  s.modThread t fun th =>
    let th := { th with state := .running, core := core }
    match th.met with
    | none => th
    | some v => { th with met := none, pc := th.pc + 4, x := if th.rd = 0 then th.x else tset th.x 0 th.rd v }

/-- The first thread of a list whose AFFINITY includes the core. -/
def State.firstFor (s : State) (core : Nat) (l : List Nat) : Option Nat :=
  l.find? fun t => (s.thread t).affinity.getLsbD core

/-- The highest-priority `READY` thread for a core (R435). -/
def State.nextFor (s : State) (core : Nat) : Option Nat :=
  (List.range 32).findSome? fun p => s.firstFor core (s.readyList p)

/-- A core whose thread has left takes the highest-priority eligible `READY` thread, or idles (R435); under FAULT it idles (R452). -/
def State.refill (s : State) (core : Nat) (why : TraceReason) (left : Nat) : State :=
  let s := { s with dis := { s.dis with cores := terase s.dis.cores core } }
  if s.dis.fault then s.traceChange core why (some left) none
  else match s.nextFor core with
    | none => s.traceChange core why (some left) none
    | some t =>
      let p := (s.thread t).prio
      let s := s.setReady p ((s.readyList p).erase t)
      (s.traceChange core why (some left) (some t)).dispatchOn core t

/-- Cores in a thread's affinity. -/
def State.coresOf (s : State) (t : Nat) : List Nat := (List.range 12).filter fun c => (s.thread t).affinity.getLsbD c

/-- The core to preempt for a thread: of the cores in its affinity, the one whose thread has the numerically greatest PRIO
above its own, lowest number first (R435). -/
def State.victim (s : State) (t : Nat) : Option Nat :=
  (s.coresOf t).foldl (fun best c =>
    match s.running c with
    | none => best
    | some r =>
      let p := (s.thread r).prio
      if p ≤ (s.thread t).prio then best
      else match best with
        | none => some c
        | some b => match s.running b with
          | some rb => if (s.thread rb).prio < p then some c else some b
          | none => some c) none

/-- A thread at the head of its list, as a preempted one is. -/
def State.toHead (t : Nat) (s : State) : State :=
  let p := (s.thread t).prio
  s.setReady p (t :: s.readyList p)

/-- A thread at the tail of its list. -/
def State.toTail (t : Nat) (s : State) : State :=
  let p := (s.thread t).prio
  s.setReady p (s.readyList p ++ [t])

/-- Placement of a `READY` thread (R435): the lowest idle core in its affinity, or the core that it preempts, or its list, where
it `waits` at the head or the tail. A preempted thread is `READY` in turn: it waits at the head of its list unless another core is
idle for it or runs a lower priority (DEDUCED, log entry 81). Each preemption displaces a greater PRIO, so `fuel` 33 is enough. -/
def State.placeAux : Nat → State → Nat → (State → State) → State
  | 0, s, _, waits => waits s
  | fuel + 1, s, t, waits =>
    match (s.coresOf t).find? fun c => (s.running c).isNone with
    | some c => (s.traceChange c .wake none (some t)).dispatchOn c t
    | none => match s.victim t with
      | none => waits s
      | some c => match s.running c with
        | none => waits s
        | some r =>
          let s := s.modThread r fun th => { th with state := .ready, wakeSrc := 0x3FFFFF }
          State.placeAux fuel ((s.traceChange c .preempt (some r) (some t)).dispatchOn c t) r (State.toHead r)

/-- A thread becomes `READY` and is placed, unless the Dispatcher has failed (R435, R452). -/
def State.placeBy (s : State) (t : Nat) (waits : State → State) : State :=
  let s := s.modThread t fun th => { th with state := .ready }
  if s.dis.fault then waits s else State.placeAux 33 s t waits

def State.place (s : State) (t : Nat) : State := s.placeBy t (State.toTail t)

/-- The condition of a wait is met (R430). -/
def waitMet (all : Bool) (flags mask : Word) : Bool :=
  if all then flags &&& mask = mask else flags &&& mask ≠ 0

/-- A flag is set in a thread that is not `FREE` (R431, R439): the state and the thread woken, if any. A thread whose wait has
been met is woken once; a flag set after that stays set. -/
def State.setFlag (s : State) (t flag src : Nat) : State × Option Nat :=
  let s := s.modThread t fun th => { th with flags := th.flags ||| (1 <<< flag) }
  let th := s.thread t
  if th.state = .waiting && th.met.isNone && waitMet th.waitAll th.flags th.mask then
    (s.modThread t fun th => { th with met := some (th.flags &&& th.mask), flags := th.flags &&& ~~~th.mask, wakeSrc := src },
      some t)
  else (s, none)

/-- Threads woken together are placed in ascending PRIO, then ascending index (R435). -/
def State.placeAll (s : State) (l : List Nat) : State :=
  let key := fun t => (s.thread t).prio * 512 + t
  (sortBy key l).foldl State.place s

end Sys2Proof.Machine
end

