-- ==== Sys2Proof/Machine/Events.lean ====
section
/-! DEFINITION. Events: their source codes and record severities (R437 and the events table of each chapter), the routes of
the Dispatcher (R438, R439), and the recorder's event queue (R507, R508). -/

namespace Sys2Proof.Machine

/-- An event row: unit, position in its chapter's table, record severity. -/
structure Ev where
  unit : Nat
  event : Nat
  sev : Option Nat
deriving DecidableEq, Repr

namespace Ev
-- R105
def tbSourceChange : Ev := ⟨0, 0, some 1⟩
def tbRelocking : Ev := ⟨0, 1, some 1⟩
def tbLocked : Ev := ⟨0, 2, some 0⟩
def tbHoldover : Ev := ⟨0, 3, some 2⟩
def tbFree : Ev := ⟨0, 4, some 2⟩
def tbStep : Ev := ⟨0, 5, some 2⟩
def tbPpsOmitted : Ev := ⟨0, 6, some 2⟩
def fabricSkew : Ev := ⟨0, 7, some 2⟩
def tbStampReady : Ev := ⟨0, 8, none⟩
def tbStampOverflow : Ev := ⟨0, 9, some 1⟩
def tbLaunchFull : Ev := ⟨0, 10, some 1⟩
def tbAlarm : Ev := ⟨0, 11, none⟩
def calInvalid : Ev := ⟨0, 12, some 2⟩
-- R388; the severity of HST_RING_HALTED is 2 for ring 0
def hstRingHalted (ring : Nat) : Ev := ⟨11, 0, some (if ring = 0 then 2 else 1)⟩
def hstDmaError : Ev := ⟨11, 1, some 1⟩
def hstCplLost : Ev := ⟨11, 2, some 2⟩
def hstDbFail : Ev := ⟨11, 3, some 1⟩
def hstBadIndex : Ev := ⟨11, 4, some 1⟩
def hstFlr : Ev := ⟨11, 5, some 2⟩
def hstLinkDown : Ev := ⟨11, 6, some 2⟩
def hstFault : Ev := ⟨11, 7, some 3⟩
-- R359; the severity of STP_LATCH is 3 for `STOP`, 2 for `PAUSE`
def stpLatch (stop : Bool) : Ev := ⟨8, 0, some (if stop then 3 else 2)⟩
def stpRequest : Ev := ⟨8, 1, some 1⟩
def stpArmed : Ev := ⟨8, 2, some 1⟩
def stpRelease : Ev := ⟨8, 3, some 2⟩
def stpReleaseRefused : Ev := ⟨8, 4, some 1⟩
def stpReEnable : Ev := ⟨8, 5, some 0⟩
def stpPinFault : Ev := ⟨8, 6, some 2⟩
def stpPendantReject : Ev := ⟨8, 7, some 1⟩
def stpFabReject : Ev := ⟨8, 8, some 1⟩
def stpPrecompMiss : Ev := ⟨8, 9, some 2⟩
def stpFabStale : Ev := ⟨8, 10, some 2⟩
-- R525
def pwrPfail : Ev := ⟨19, 0, some 2⟩
def pwrPfailClear : Ev := ⟨19, 1, some 1⟩
def pwrHot : Ev := ⟨19, 2, some 2⟩
def stageSlow : Ev := ⟨19, 3, some 2⟩
def pwrSafeHold : Ev := ⟨19, 4, some 3⟩
def cfgApplied : Ev := ⟨19, 5, none⟩
def cfgLaunchRefused : Ev := ⟨19, 6, some 2⟩
-- R453: one table of DIS and MEM, so UNIT is DIS
def disWatchdog : Ev := ⟨13, 0, some 3⟩
def disLostPost : Ev := ⟨13, 1, some 1⟩
def disTraceDrop : Ev := ⟨13, 2, some 1⟩
def disFault : Ev := ⟨13, 3, some 3⟩
def memEccCorr : Ev := ⟨13, 4, some 0⟩
def memEccUncorr : Ev := ⟨13, 5, some 2⟩
def memDramReady : Ev := ⟨13, 6, some 0⟩
def memDramFail : Ev := ⟨13, 7, some 3⟩
-- R482
def keyJobDone : Ev := ⟨15, 0, none⟩
def keyTamper : Ev := ⟨15, 1, some 3⟩
def keyWorn : Ev := ⟨15, 2, some 2⟩
def keyPfailAbandon : Ev := ⟨15, 3, some 2⟩
def keyEpochRoll : Ev := ⟨15, 4, some 2⟩
def keyOrphanUse : Ev := ⟨15, 5, some 1⟩
def keyFault : Ev := ⟨15, 6, some 3⟩
-- R502
def bootTrial : Ev := ⟨16, 0, some 1⟩
def bootRollback : Ev := ⟨16, 1, some 2⟩
def bootFallback : Ev := ⟨16, 2, some 3⟩
def bootConfirmed : Ev := ⟨16, 3, some 1⟩
def bootPeerRequest : Ev := ⟨16, 4, none⟩
-- R503
def nvmBlockReplaced : Ev := ⟨17, 0, some 1⟩
def nvmReadOnly : Ev := ⟨17, 1, some 2⟩
def nvmCfgDropped : Ev := ⟨17, 2, some 1⟩
-- the events table of "Cairn Recorder"
def crnFlushDone : Ev := ⟨18, 0, none⟩
def crnShrunk : Ev := ⟨18, 1, some 2⟩
def crnCritDrop : Ev := ⟨18, 2, some 1⟩
def crnFault : Ev := ⟨18, 3, none⟩
-- R426
def fabLinkUp : Ev := ⟨12, 0, some 0⟩
def fabLinkDown : Ev := ⟨12, 1, some 2⟩
def fabAddrClaimed : Ev := ⟨12, 2, some 0⟩
def fabAddrChanged : Ev := ⟨12, 3, some 2⟩
def fabAddrConflict : Ev := ⟨12, 4, some 2⟩
def fabRoutes : Ev := ⟨12, 5, none⟩
def fabModuleChange : Ev := ⟨12, 6, some 1⟩
def fabLearnReady : Ev := ⟨12, 7, none⟩
def fabLearnConflict : Ev := ⟨12, 8, some 1⟩
def fabRelayUndelivered : Ev := ⟨12, 9, some 1⟩
def fabHostRx : Ev := ⟨12, 10, none⟩
def fabFault : Ev := ⟨12, 11, some 3⟩
-- R265
def hopBeacon : Ev := ⟨10, 0, none⟩
def hopUplink : Ev := ⟨10, 1, none⟩
def hopJoin : Ev := ⟨10, 2, some 0⟩
def hopJoinRefused : Ev := ⟨10, 3, some 1⟩
def hopLinkLost : Ev := ⟨10, 4, some 2⟩
def hopRejoin : Ev := ⟨10, 5, some 1⟩
def hopSchedApplied : Ev := ⟨10, 6, some 0⟩
def hopSectionDrop : Ev := ⟨10, 7, some 2⟩
def hopBudget : Ev := ⟨10, 8, some 1⟩
def hopNodeUnsynced : Ev := ⟨10, 9, some 1⟩
def hopNodeResynced : Ev := ⟨10, 10, some 0⟩
def hopNodeDlDiscard : Ev := ⟨10, 11, some 1⟩
def hopNodeMissed : Ev := ⟨10, 12, some 1⟩
def hopFault : Ev := ⟨10, 13, some 3⟩
-- R140
def fldTileEcc : Ev := ⟨5, 0, some 2⟩
def fldSyncGap : Ev := ⟨5, 1, some 1⟩
def fldSyncOverflow : Ev := ⟨5, 2, some 1⟩
def fldCopyDone : Ev := ⟨5, 3, none⟩
-- R331
def secEpochDone : Ev := ⟨6, 0, none⟩
def secEpochSkipped : Ev := ⟨6, 1, some 2⟩
def secForcedOff : Ev := ⟨6, 2, some 1⟩
def secPosFallback : Ev := ⟨6, 3, some 1⟩
def secClaimFull : Ev := ⟨6, 4, some 1⟩
def secClaimExpired : Ev := ⟨6, 5, some 0⟩
def secFbMismatch : Ev := ⟨6, 6, some 1⟩
def secFault : Ev := ⟨6, 7, some 3⟩
-- R173
def gnsAcqDone : Ev := ⟨2, 0, none⟩
def gnsMeasReady : Ev := ⟨2, 1, none⟩
def gnsMeasDrop : Ev := ⟨2, 2, some 1⟩
def gnsChanLost : Ev := ⟨2, 3, some 1⟩
def gnsSlip : Ev := ⟨2, 4, some 0⟩
def gnsNosig : Ev := ⟨2, 5, some 2⟩
def gnsLeapKnown : Ev := ⟨2, 6, some 0⟩
def gnsTimeFail : Ev := ⟨2, 7, some 1⟩
def gnsSurveyDone : Ev := ⟨2, 8, some 0⟩
def gnsFault : Ev := ⟨2, 9, some 3⟩
-- R192; the severity of MIR_LEVEL_UP is 3 on entry to level 5
def mirLevelUp (level : Nat) : Ev := ⟨3, 0, some (if level = 5 then 3 else 2)⟩
def mirLevelDown : Ev := ⟨3, 1, some 1⟩
def mirSigExcl : Ev := ⟨3, 2, some 0⟩
def mirSysFlag : Ev := ⟨3, 3, some 2⟩
def mirJamming : Ev := ⟨3, 4, some 2⟩
def mirSpoof : Ev := ⟨3, 5, some 3⟩
def mirClkJump : Ev := ⟨3, 6, some 2⟩
def mirBaseMove : Ev := ⟨3, 7, some 2⟩
def mirFdeFault : Ev := ⟨3, 8, some 2⟩
def mirRoverDisagree : Ev := ⟨3, 9, some 1⟩
def mirFault : Ev := ⟨3, 10, some 3⟩
-- R223; the severity of FIX_EPOCH_ABANDONED is 1 for `FORMAT`
def fixRtcmReady : Ev := ⟨4, 0, none⟩
def fixRtcmStale : Ev := ⟨4, 1, some 1⟩
def fixSolReady : Ev := ⟨4, 2, none⟩
def fixSolLate : Ev := ⟨4, 3, some 1⟩
def fixSolDrop : Ev := ⟨4, 4, some 1⟩
def fixEpochAbandoned (reason : Nat) : Ev := ⟨4, 5, some (if reason = 2 then 1 else 0)⟩
def fixStatusDrop : Ev := ⟨4, 6, some 1⟩
def fixFault : Ev := ⟨4, 7, some 3⟩
-- R298
def carRequest : Ev := ⟨7, 0, none⟩
def carAnswer : Ev := ⟨7, 1, none⟩
def carDeviation : Ev := ⟨7, 2, some 2⟩
def carOverrun : Ev := ⟨7, 3, some 2⟩
def carHold : Ev := ⟨7, 4, some 2⟩
def carRevised : Ev := ⟨7, 5, some 1⟩
def carTableFull : Ev := ⟨7, 6, some 1⟩
def carHostTimeout : Ev := ⟨7, 7, some 1⟩
def carFault : Ev := ⟨7, 8, some 3⟩
end Ev

/-- Source code of R437. -/
def sourceCode (e : Ev) (inst : Nat) : Nat := e.unit % 32 + 32 * (e.event % 32) + 1024 * (inst % 4096)

/-- Quality code of R78. -/
def Quality.code : Quality → Nat
  | .free => 0
  | .locked => 1
  | .holdover => 2
  | .relocking => 3

/-- ERR_CLASS of R82: the smallest e from 0 to 32 for which the bound is at most 2^e ns. -/
def errClass (err : Nat) : Nat := ((List.range 33).find? fun e => err ≤ 2 ^ e).getD 32

/-- The TIME_QUALITY byte of R82. -/
def State.timeQuality (s : State) : Nat := s.tb.quality.code + 4 * errClass s.tb.errEst

/-! ### The recorder's queue -/

/-- Field of a trigger class (R506). -/
def clsField (c : List Byte) (o n : Nat) : Nat := fieldLE c o n

/-- The first enabled class that matches a source code, in ascending index (R507). -/
def State.matchClass (s : State) (src : Nat) : Option (Nat × List Byte) :=
  if !s.unitOn U.crn then none
  else (List.range 64).findSome? fun i =>
    let c := tget s.cfg.active.classes [] i
    if bit (clsField c 8 1) 0 && ((src ^^^ bits (clsField c 0 4) 0 22) &&& bits (clsField c 4 4) 0 22) = 0 then some (i, c)
    else none

/-- Replace the newest queued event of lower severity (R508). -/
def replaceNewest (e : QEvent) : List QEvent → Option (List QEvent)
  | [] => none
  | q :: r => match replaceNewest e r with
    | some r' => some (q :: r')
    | none => if q.severity < e.severity then some (e :: r) else none

/-- An event joins the end of a queue, before those of its own stage with a greater source code (R508). -/
def joinQueue (e : QEvent) : List QEvent → List QEvent
  | [] => [e]
  | q :: r => if (q :: r).all fun x => x.tick = e.tick && e.source < x.source then e :: q :: r else q :: joinQueue e r

/-- An event enters the 256-entry event queue; in a full one it takes the place of the newest of lower severity, or is lost, and
either counts (R508). -/
def enterQueue (q : List QEvent × Word) (e : QEvent) : List QEvent × Word :=
  if q.1.length < 256 then (joinQueue e q.1, q.2) else ((replaceNewest e q.1).getD q.1, q.2 + 1)

/-- The events of one stage enter the queue that they found in ascending source code (R508). -/
def State.enqueueEvent (s : State) (e : QEvent) : State :=
  let r := match s.crn.round.filter fun r => r.tick = e.tick with
    | some r => { r with events := r.events ++ [e] }
    | none => ⟨e.tick, s.crn.queue, s.crn.evqLost, [e]⟩
  let q := (sortBy (fun x => x.source) r.events).foldl enterQueue (r.base, r.lost)
  { s with crn := { s.crn with round := some r, queue := q.1, evqLost := q.2 } }

/-- The recorder takes note of an event (R507). -/
def State.recordEvent (s : State) (src : Nat) (sev : Option Nat) (arg : List Byte) : State :=
  if s.crn.fault then s
  else
    let mk := fun (severity cls : Nat) (list : List Nat) (flush : Bool) =>
      s.enqueueEvent ⟨src, severity, cls, list, flush, s.now, s.timeQuality, padTo 8 arg, s.clk.counter⟩
    match s.matchClass src, sev with
    | none, none => s
    | none, some v => mk v 0xFF [] false
    | some (i, c), _ =>
      let n := min 32 (clsField c 10 1)
      mk (sev.getD (bits (clsField c 9 1) 0 2)) i ((List.range n).map fun k => bits (clsField c (16 + 4 * k) 4) 0 20)
        (bit (clsField c 8 1) 1)

/-! ### Routes -/

/-- A route matches an event (R438, R439). -/
def routeMatches (r : List Byte) (src : Nat) : Bool :=
  let w := fieldLE r 0 4
  bit (fieldLE r 4 4) 14 && (if bit w 22 then bits w 0 10 = bits src 0 10 else bits w 0 22 = src)

/-- The thread and flag that a route posts for an event (R438). -/
def routeTarget (r : List Byte) (src : Nat) : Nat × Nat :=
  let t := fieldLE r 4 4
  (bits t 0 9, if bit t 15 then (bits t 9 5 + bits src 10 12) % 32 else bits t 9 5)

/-- Posts of one event (R439): the flags are set, then the threads woken are placed; a post to a `FREE` thread is lost and
listed. -/
def State.post (s : State) (posts : List (Nat × Nat)) (src : Nat) : State × List Nat :=
  let r := posts.foldl (fun (acc : State × List Nat × List Nat) p =>
    let (s, woken, lost) := acc
    if (s.thread p.1).state = .free then
      ({ s with dis := { s.dis with lostPosts := s.dis.lostPosts + 1 } }, woken, lost ++ [p.1])
    else
      let (s', w) := s.setFlag p.1 p.2 src
      (s', woken ++ w.toList, lost)) (s, [], [])
  (r.1.placeAll r.2.1, r.2.2)

/-- Routes serve events only while the device is up and DIS is configured (R452). -/
def State.routesOn (s : State) : Bool :=
  s.unitOn U.dis && (s.pwr.state = .waitHost || s.pwr.state = .run)

/-- The posts that the active routes make of an event, in route order. -/
def State.routePosts (s : State) (src : Nat) : List (Nat × Nat) :=
  if s.routesOn then
    (List.range (s.act F.DIS_ROUTE_COUNT_COUNT)).filterMap fun i =>
      let r := tget s.cfg.active.routes [] i
      if routeMatches r src then some (routeTarget r src) else none
  else []

/-- One event goes to its routes and to the recorder; the threads whose posts were lost are listed. -/
def State.raiseOnce (s : State) (e : Ev) (inst : Nat) (arg : List Byte) : State × List Nat :=
  let src := sourceCode e inst
  let (s, lost) := s.post (s.routePosts src) src
  (s.recordEvent src e.sev arg, lost)

/-- DIS_LOST_POST for each post that was lost; its own lost posts are counted only (DESIGN CHOICE, log entry 10). -/
def State.lostPosts (s : State) (lost : List Nat) : State :=
  lost.foldl (fun s t => (s.raiseOnce Ev.disLostPost t (leBytes 2 t)).1) s

/-- What changes of threads have left to raise: DIS_TRACE_DROP for each dropped trace record (R444), and MEM_ECC_UNCORR for each DRAM
access that failed (R448). Their own posts may wake threads, and so leave more: each wakes a thread at most once, so the 2,048 turns
are enough. -/
def State.noteTrace : Nat → State → State
  | 0, s => s
  | turns + 1, s =>
    if s.dis.traceEv ≠ 0 then
      let (s, lost) := ({ s with dis := { s.dis with traceEv := s.dis.traceEv - 1 } }).raiseOnce Ev.disTraceDrop 0 []
      State.noteTrace turns (s.lostPosts lost)
    else if s.mem.failed ≠ 0 then
      let (s, lost) := ({ s with mem := { s.mem with failed := s.mem.failed - 1 } }).raiseOnce Ev.memEccUncorr 0 []
      State.noteTrace turns (s.lostPosts lost)
    else s

def State.noteTraceDrop (s : State) : State := s.noteTrace 2048

/-- An event is raised: routes, then the recorder; a lost post raises DIS_LOST_POST. An absent unit raises nothing (R545). -/
def State.raise (s : State) (e : Ev) (inst : Nat) (arg : List Byte) : State :=
  if !s.has e.unit then s
  else
    let (s, lost) := s.raiseOnce e inst arg
    (s.lostPosts lost).noteTraceDrop

end Sys2Proof.Machine
end

