-- ==== Sys2Proof/Machine/Ring.lean ====
section
/-! DEFINITION. The Host Interface's shared operations: interrupts, shadow entries, completions, halts, and finding the
descriptor that a command executes (R361 to R381). -/

namespace Sys2Proof.Machine

-- Completion status codes (R384, R480, R500).
namespace St
def ok : Nat := 0x00
def more : Nat := 0x01
def notFound : Nat := 0x02
def notPending : Nat := 0x03
def cancelled : Nat := 0x04
def empty : Nat := 0x10
def length : Nat := 0x11
def badDesc : Nat := 0x12
def badRing : Nat := 0x13
def noUnit : Nat := 0x14
def notConfigured : Nat := 0x15
def unitFault : Nat := 0x16
def busy : Nat := 0x17
def launchFull : Nat := 0x18
def refused : Nat := 0x19
def dmaError : Nat := 0x1A
def aborted : Nat := 0x1B
def orphaned : Nat := 0x1C
def worn : Nat := 0x1D
def state : Nat := 0x20
def notLatched : Nat := 0x21
def pins : Nat := 0x22
def notArmed : Nat := 0x23
def tooSoon : Nat := 0x24
def armExpired : Nat := 0x25
def latched : Nat := 0x26
def classStop : Nat := 0x27
def notJoined : Nat := 0x28
def discarded : Nat := 0x29
def sigOff : Nat := 0x30
def chanBusy : Nat := 0x31
def chanAnt : Nat := 0x32
def chanIdle : Nat := 0x33
def frameRange : Nat := 0x38
def claimed : Nat := 0x39
def badField : Nat := 0x3A
def trackBusy : Nat := 0x3B
def usage : Nat := 0x60
def authFail : Nat := 0x61
def noRecord : Nat := 0x62
def recordUsed : Nat := 0x63
def depth : Nat := 0x64
def notExportable : Nat := 0x65
def badType : Nat := 0x66
def inService : Nat := 0x67
def tampered : Nat := 0x68
def pfail : Nat := 0x69
def header : Nat := 0x70
def payload : Nat := 0x71
def sequence : Nat := 0x72
def trial : Nat := 0x73
def range : Nat := 0x78
end St

/-- Rings 0, 1 and 2 are ordered (R370). -/
def ordered (ring : Nat) : Bool := ring < 3

/-- A ring's state. -/
def State.ring (s : State) (n : Nat) : Ring := tget s.hst.rings Ring.reset n

def State.modRing (s : State) (n : Nat) (f : Ring → Ring) : State :=
  { s with hst := { s.hst with rings := tmod s.hst.rings Ring.reset n f } }

/-- Entries in each ring of a pair: 2^LOG_SIZE, and 16 for the ROM ring (R361, R498). -/
def State.ringSize (s : State) (n : Nat) : Nat :=
  if s.pwr.state = .recovery then 16 else 2 ^ s.reg F.HST_RING_CTRL_LOG_SIZE n

/-! ### Interrupts -/

/-- One MSI-X vector is signalled: a message as its table entry says, or a pending bit while the entry is masked
(R360, R381, log entry 11). -/
def State.signal (s : State) (v : Nat) : State :=
  let w := fun k => tget s.hst.msix (if k = 3 then 1 else 0) (4 * v + k)
  if (w 3).getLsbD 0 then { s with hst := { s.hst with pba := s.hst.pba ||| (1 <<< v) } }
  else s.emit (.hostWrite ((w 0).toNat + 2 ^ 32 * (w 1).toNat) (leBytes 4 (w 2).toNat))

/-- ERR_VECTOR is signalled, whatever the moderation (R381). -/
def State.signalErr (s : State) : State := s.signal (s.reg F.HST_CTRL_ERR_VECTOR)

/-! ### Shadow entries (R363) -/

def RingState.code : RingState → Nat
  | .disabled => 0
  | .running => 1
  | .halted => 2
  | .stopping => 3

/-- The STATE word of a shadow entry (R363). -/
def Ring.stateWord (r : Ring) : Nat := r.state.code + 256 * r.haltSeq.toNat + 65536 * (r.haltIndex % 4096)

/-- The device writes a ring's shadow entry (R363). -/
def State.shadow (s : State) (n : Nat) : State :=
  let r := s.ring n
  s.emit (.hostWrite (s.pairBase F.HST_SHADOW_BASE_LO_ADDR 0 + 16 * n)
    (leBytes 2 r.sqHead ++ leBytes 2 r.cqTail ++ leBytes 4 r.stateWord ++ leBytes 8 0))

/-- A ring's state changes, and its shadow entry is written. -/
def State.setRing (s : State) (n : Nat) (st : RingState) : State :=
  (s.modRing n fun r => { r with state := st }).shadow n

/-! ### Descriptors -/

def Desc.op (d : Desc) : Nat := fieldLE d.bytes 0 2
def Desc.flags (d : Desc) : Nat := fieldLE d.bytes 2 2
def Desc.tag (d : Desc) : Nat := fieldLE d.bytes 4 4
def Desc.launch (d : Desc) : Nat := fieldLE d.bytes 8 8
def Desc.addr (d : Desc) : Nat := fieldLE d.bytes 16 8
def Desc.len (d : Desc) : Nat := fieldLE d.bytes 24 4

/-- An operand field: `n` bytes at offset `o` of the operand area (R365). -/
def Desc.operand (d : Desc) (o n : Nat) : Nat := fieldLE d.bytes (32 + o) n

/-- Descriptors of one ring, without those that a reset of the ring has left to finish in silence (R382). -/
def State.takenOf (s : State) (ring : Nat) : List Desc := s.hst.taken.filter fun d => d.ring = ring && !d.silent

/-- Taken and not completed (HST_RING_n_LOAD.INFLIGHT). -/
def State.inflight (s : State) (ring : Nat) : Nat := (s.takenOf ring).length

/-- A descriptor was taken from a slot of a ring. -/
def Desc.is (d : Desc) (ring index : Nat) : Bool := d.ring = ring && d.index = index

/-- Change a taken descriptor. -/
def State.modDesc (s : State) (serial : Nat) (f : Desc → Desc) : State :=
  { s with hst := { s.hst with taken := s.hst.taken.map fun d => if d.serial = serial then f d else d } }

/-- Take a descriptor out, with what the units hold of it: a search, a queued job, a request, a message (R157, R379, R382). -/
def State.dropDesc (s : State) (serial : Nat) : State :=
  { s with
    hst := { s.hst with taken := s.hst.taken.filter fun d => d.serial ≠ serial }
    gns := { s.gns with
      running := s.gns.running.filter fun q => q.1 ≠ serial
      queue := s.gns.queue.filter fun q => q ≠ serial
      captures := s.gns.captures.filter fun q => q.1 ≠ serial }
    key := { s.key with queue := s.key.queue.filter fun j => j.serial ≠ serial }
    car := { s.car with pend := s.car.pend.filter fun r => r.desc ≠ some serial }
    hop := { s.hop with queue := s.hop.queue.filter fun b => b.desc ≠ some serial } }

/-- An earlier descriptor whose launch entry fired on the same tick has not started yet (R373). -/
def State.behindFired (s : State) (d : Desc) : Bool :=
  d.firedAt.isSome && (s.hst.taken.takeWhile fun e => e.serial ≠ d.serial).any fun e =>
    e.phase = .ready && e.firedAt = d.firedAt

/-- A descriptor may start: on an ordered ring it is the first of its ring and the ring runs (R372); of those that fired on one
tick, the first starts first (R373). -/
def State.mayStart (s : State) (d : Desc) : Bool :=
  d.phase = .ready && d.verdict.isNone && !s.hst.fault && s.pwr.state ≠ .safeHold &&
  (if ordered d.ring then
    (s.ring d.ring).state = .running && ((s.takenOf d.ring).head?.map fun h => h.serial) = some d.serial
   else ((s.ring d.ring).state = .running || (s.ring d.ring).state = .stopping || d.silent) && !s.behindFired d)

/-! ### Completions -/

/-- Opcodes of GNS_ACQ and GNS_CAPTURE (R144, R154). -/
def opGnsAcq : Nat := 0x0201
def opKeyCrypt : Nat := 0x0F05
def opGnsCapture : Nat := 0x0204

/-- The 32 bytes of a completion (R366). -/
def complBytes (d : Desc) (phase halted : Bool) (status detail exec : Nat) (result : List Byte) : List Byte :=
  leBytes 4 (if d.noTag then 0 else d.tag) ++ leBytes 2 d.index ++ leBytes 1 d.ring ++
  leBytes 1 (b2n phase + 2 * b2n d.late + 4 * b2n halted + 8 * b2n d.clamped + 16 * b2n d.noTag) ++
  leBytes 1 status ++ leBytes 1 detail ++ leBytes 2 (if d.noTag then 0 else d.op) ++
  leBytes 4 (exec / 1000) ++ padTo 16 result

/-- A status outside the success class is an error (R377, R384). -/
def isError (status : Nat) : Bool := 0x10 ≤ status

/-- Moderation after a completion (R381): the vector is signalled or the completion is counted. -/
def State.moderate (s : State) (n : Nat) (irq : Bool) : State :=
  let r := s.ring n
  let cnt := r.uncounted + 1
  let mc := s.reg F.HST_RING_CTRL_MOD_COUNT n
  if irq || (mc ≠ 0 && mc ≤ cnt) then
    (s.modRing n fun r => { r with uncounted := 0 }).signal (s.reg F.HST_RING_CTRL_VECTOR n)
  else s.modRing n fun r => { r with
    uncounted := cnt, oldestAt := if r.uncounted = 0 then s.clk.counter else r.oldestAt }

/-- One completion is written: CQ slot, PHASE and CQ_TAIL (R366 to R369), an ordered ring's halt (R377), the shadow entry, the
interrupt, in the order of R364. -/
def State.writeCompletion (s : State) (d : Desc) (status detail : Nat) (result : List Byte) : State :=
  let n := d.ring
  let r := s.ring n
  let halt := ordered n && isError status && r.state = .running
  let size := s.ringSize n
  let s := s.emit (.hostWrite (s.pairBase F.HST_RING_CQ_BASE_LO_ADDR n + 32 * r.cqTail)
    (complBytes d r.phase halt status detail (d.execAt.getD s.now) result))
  let s := s.modRing n fun r => { r with
    cqTail := (r.cqTail + 1) % size
    phase := if r.cqTail + 1 = size then !r.phase else r.phase
    unread := r.unread + 1
    state := if halt then .halted else r.state
    haltSeq := if halt then r.haltSeq + 1 else r.haltSeq
    haltIndex := if halt then d.index else r.haltIndex }
  let s := (s.shadow n).moderate n (bit d.flags 0)
  let s := if halt then (s.signalErr).raise (Ev.hstRingHalted n) n (leBytes 1 n ++ leBytes 2 d.index) else s
  -- GNS_ACQ_DONE follows the completion of every GNS_ACQ (R173)
  if d.op = opGnsAcq && !d.noTag then s.raise Ev.gnsAcqDone 0 [] else s

/-- A descriptor leaves the device; KEY_JOB_DONE is raised for a KEY_CRYPT that had become a job (R482). -/
def State.leave (s : State) (d : Desc) : State :=
  if d.op = opKeyCrypt && d.phase = .waiting && s.pwr.state ≠ .safeHold then
    (s.dropDesc d.serial).raise Ev.keyJobDone 0 []
  else s.dropDesc d.serial

/-- The status and DETAIL with which a descriptor completes: `DMA_ERROR` where its payload write has met an error (R376). -/
def Desc.outcome (d : Desc) (status detail : Nat) : Nat × Nat :=
  match d.unwritten with
  | some e => if isError status then (status, detail) else (St.dmaError, e)
  | none => (status, detail)

/-- A descriptor completes: it leaves the device, and its completion is written unless its ring was reset, the Host Interface
has faulted or the device holds safe (R382, R383). -/
def State.complete1 (s : State) (d : Desc) (status detail : Nat) (result : List Byte) : State :=
  let s := s.leave d
  if d.silent || s.hst.fault || s.pwr.state = .safeHold || (s.ring d.ring).state = .disabled then s
  else s.writeCompletion d (d.outcome status detail).1 (d.outcome status detail).2 result

/-- On a running ordered ring whose first descriptor failed a check of steps 1 to 5, that descriptor completes (R371, R372). -/
def State.flushVerdict (s : State) (ring : Nat) : State :=
  match (s.takenOf ring).head? with
  | some d =>
    match d.verdict with
    | some (st, det) => if (s.ring ring).state = .running then s.complete1 d st det [] else s
    | none => s
  | none => s

/-- A descriptor completes with a status, DETAIL and RESULT; on an ordered ring the next one's early verdict follows. -/
def State.complete (s : State) (d : Desc) (status : Nat) (result : List Byte := []) (detail : Nat := 0) : State :=
  let s := s.complete1 d status detail result
  if ordered d.ring then s.flushVerdict d.ring else s

/-- A descriptor starts and waits in its unit; on a timed ring it goes to the end of the list, so that the list holds the
waiting ones in the order in which they began to wait. -/
def State.wait (s : State) (d : Desc) : State :=
  let d' := { d with phase := .waiting, execAt := some s.now }
  if ordered d.ring then s.modDesc d.serial fun _ => d'
  else { s with hst := { s.hst with taken := (s.hst.taken.filter fun e => e.serial ≠ d.serial) ++ [d'] } }

/-- The descriptors of an opcode that wait, the first to wait first. -/
def State.waiters (s : State) (op : Nat) : List Desc :=
  s.hst.taken.filter fun d => d.op = op && d.phase = .waiting

/-- The descriptor that a command executes: taken from (ring, index), with the command's opcode, and free to start. -/
def State.startable (s : State) (ring index op : Nat) : Option Desc :=
  (s.hst.taken.find? fun d => d.is ring index && d.op = op && d.phase = .ready).filter s.mayStart

/-- A descriptor command: when such a descriptor may start and its variant is the command's, `f` is its effect; otherwise only
the time passes (log entry 1). -/
def State.withDesc (s : State) (ring index op : Nat) (variant : Desc → Bool) (f : State → Desc → State) : State :=
  match s.startable ring index op with
  | some d => if variant d then f s d else s
  | none => s

/-- A waiting descriptor by its serial number. -/
def State.waitingDesc (s : State) (serial : Nat) : Option Desc :=
  s.hst.taken.find? fun d => d.serial = serial && d.phase = .waiting

/-- The descriptor of an opcode that waits and was taken from a slot. -/
def State.waitingAt (s : State) (ring index op : Nat) : Option Desc :=
  s.hst.taken.find? fun d => d.is ring index && d.phase = .waiting && d.op = op

/-- A clamped descriptor field: CLAMPED is set and the clamp counted (R44, R366). -/
def Desc.clampIf (d : Desc) (c : Bool) : Desc := { d with clamped := d.clamped || c }

/-- Payload data written to host memory (R364); a write that meets an error leaves nothing there (R376). -/
def State.writePayload (s : State) (d : Desc) (o : Nat) (b : List Byte) : State :=
  if b.isEmpty || d.unwritten.isSome then s else s.emit (.hostWrite (d.addr + o) b)

end Sys2Proof.Machine
end

