-- ==== Sys2Proof/Machine/Keys.lean ====
section
/-! DEFINITION. Key Store operations: record slots, key derivation, material, orphaning, the cache and the link bank
(R454 to R468, R497). -/

namespace Sys2Proof.Machine

/-- A number of `w` bits as big-endian bytes. -/
def bvBytes {w : Nat} (v : BitVec w) : List Byte := beBytes (w / 8) v.toNat

/-- The bytes of an ASCII label. -/
def ascii (l : List Nat) : List Byte := l.map (BitVec.ofNat 8)

-- Labels of R454 to R472, in ASCII.
namespace Label
def mgRoot : List Byte := ascii [77, 71, 45, 82, 79, 79, 84]
def mgRootKw : List Byte := ascii [77, 71, 45, 82, 79, 79, 84, 45, 75, 87]
def mgKcv : List Byte := ascii [77, 71, 45, 75, 67, 86]
def mgJoin : List Byte := ascii [77, 71, 45, 74, 79, 73, 78]
def mgJoinUp : List Byte := ascii [77, 71, 45, 74, 79, 73, 78, 45, 85, 80]
def mgJoinDn : List Byte := ascii [77, 71, 45, 74, 79, 73, 78, 45, 68, 78]
def mgSessUp : List Byte := ascii [77, 71, 45, 83, 69, 83, 83, 45, 85, 80]
def mgSessDn : List Byte := ascii [77, 71, 45, 83, 69, 83, 83, 45, 68, 78]
def mgSessKw : List Byte := ascii [77, 71, 45, 83, 69, 83, 83, 45, 75, 87]
def mgAttest : List Byte := ascii [77, 71, 45, 65, 84, 84, 69, 83, 84]
end Label

/-- KDF of R454: counter mode over HMAC-SHA-256, or HMAC-SHA-384 for a `SECRET384` parent; `len` bytes. -/
def kdf (key : List Byte) (is384 : Bool) (label ctx : List Byte) (len : Nat) : List Byte :=
  let block := fun i => beBytes 4 (i + 1) ++ label ++ [0] ++ ctx ++ beBytes 4 (8 * len)
  let n := if is384 then (len + 47) / 48 else (len + 31) / 32
  (((List.range n).map fun i =>
    if is384 then bvBytes (Config.hmac384 key (block i)) else bvBytes (Config.hmac256 key (block i))).flatten).take len

/-- SP 800-38F KW: the wrapping is 8 bytes longer than the material. -/
def kwWrap (key mat : List Byte) : List Byte := (List.range (mat.length + 8)).map (Config.kwByte key mat)

/-- Names of the roots and of the provisioning key (R456). -/
def rootExactName : Nat := 0xFFF0
def rootLineageName : Nat := 0xFFF1
def provisionName : Nat := 0xFFF2

def isRoot (p : Nat) : Bool := p = rootExactName || p = rootLineageName

/-- Material size of a type (R458). -/
def typeSize (t : Nat) : Nat :=
  match t with
  | 0 => 16
  | 3 => 48
  | _ => 32

def isAes (t : Nat) : Bool := t ≤ 1

-- Usages (R458).
namespace Usage
def encryptOnly : Nat := 0
def decryptOnly : Nat := 1
def wrapOnly : Nat := 2
def deriveOnly : Nat := 3
end Usage

/-- Types and usages that go together (R458); ATTEST only on `DERIVE_ONLY`. -/
def typeUsageOk (type usage : Nat) (attest : Bool) : Bool :=
  (if usage = Usage.wrapOnly then isAes type else if usage = Usage.deriveOnly then !isAes type else true) &&
  (!attest || usage = Usage.deriveOnly)

/-! ### Slots (R459 to R461) -/

/-- FLAGS [7:0] of a record (R459). -/
def KeyCopy.flags (c : KeyCopy) : Nat := b2n c.valid + 2 * b2n c.exportable + 4 * b2n c.attest + 8 * b2n c.derived

/-- BODY of a copy: its recipe, or its wrapped material (R459). -/
def KeyCopy.body (c : KeyCopy) : List Byte :=
  if c.derived then leBytes 1 c.label.length ++ leBytes 1 c.context.length ++ padTo 16 c.label ++ padTo 32 c.context ++ leBytes 14 0
  else padTo 64 c.wrapped

/-- Bytes 0 to 123 of a copy (R459). -/
def KeyCopy.front (c : KeyCopy) : List Byte :=
  leBytes 4 c.seq.toNat ++ leBytes 2 c.index ++ leBytes 1 c.type ++ leBytes 1 c.usage ++ leBytes 2 c.flags ++ leBytes 2 c.parent ++
  leBytes 1 c.depth ++ leBytes 3 0 ++ leBytes 4 c.gen.toNat ++ leBytes 4 c.parentGen.toNat ++ c.body ++ padTo 8 c.kcv ++ leBytes 28 0

/-- The CRC that a copy's bytes have. -/
def KeyCopy.sum (c : KeyCopy) : Word := BitVec.ofNat 32 (crc32c c.front)

/-- The 128 bytes of a copy. -/
def KeyCopy.bytes (c : KeyCopy) : List Byte := c.front ++ leBytes 4 c.crc.toNat

/-- The 512 bytes of a slot (R459). -/
def KeySlot.bytes (k : KeySlot) : List Byte :=
  padTo 128 ((k.a.map KeyCopy.bytes).getD []) ++ padTo 128 ((k.b.map KeyCopy.bytes).getD []) ++ leBytes 8 k.commit.toNat ++
  leBytes 248 0

/-- The committed copy of a slot (R460). -/
def KeySlot.committed (k : KeySlot) : Option KeyCopy :=
  let lo : Word := k.commit.setWidth 32
  if k.commit ≠ commitWord lo then none
  else
    let good := fun (c : Option KeyCopy) => c.filter fun c => c.seq = lo && c.crc = c.sum
    match good k.a with
    | some c => some c
    | none => good k.b

/-- A copy of a slot never written. -/
def KeyCopy.blank (i : Nat) : KeyCopy :=
  ⟨0, i, 0, 0, false, false, false, false, 0, 0, 0, 0, [], [], [], [], 0⟩

/-- The copy that an update writes: SEQ + 1, and its CRC (R460). -/
def KeySlot.next (k : KeySlot) (i : Nat) (f : KeyCopy → KeyCopy) : KeyCopy :=
  let c := { f (k.committed.getD (KeyCopy.blank i)) with seq := (k.committed.map KeyCopy.seq).getD 0 + 1, index := i }
  { c with crc := c.sum }

/-- A copy is written in the place of the one that is not committed. -/
def KeySlot.put (k : KeySlot) (c : KeyCopy) : KeySlot :=
  if k.committed.isSome && k.a = k.committed then { k with b := some c } else { k with a := some c }

/-- An update: the copy that is not committed is written with SEQ + 1, then the commit word (R460). -/
def KeySlot.update (k : KeySlot) (i : Nat) (f : KeyCopy → KeyCopy) : KeySlot :=
  { k.put (k.next i f) with commit := commitWord (k.next i f).seq }

/-- An update that is cut off: the copy's CRC fails, and the old record stands. -/
def KeySlot.tear (k : KeySlot) (i : Nat) (f : KeyCopy → KeyCopy) : KeySlot :=
  k.put { k.next i f with crc := ~~~(k.next i f).sum }

/-- The record in a slot. -/
def State.keyRec (s : State) (i : Nat) : Option KeyCopy := (tget s.key.slots KeySlot.empty i).committed

/-- The `VALID` record in a slot. -/
def State.validRec (s : State) (i : Nat) : Option KeyCopy := (s.keyRec i).filter (·.valid)

def State.updateSlot (s : State) (i : Nat) (f : KeyCopy → KeyCopy) : State :=
  { s with key := { s.key with slots := tmod s.key.slots KeySlot.empty i fun k => k.update i f } }

def State.tearSlot (s : State) (i : Nat) (f : KeyCopy → KeyCopy) : State :=
  { s with key := { s.key with slots := tmod s.key.slots KeySlot.empty i fun k => k.tear i f } }

/-- `VALID` records (KEY_STATUS.RECORDS). -/
def State.validCount (s : State) : Nat := ((List.range 1024).filter fun i => (s.validRec i).isSome).length

/-! ### Material and ancestry (R457, R462, R463, R497) -/

/-- Material of a root. -/
def State.rootMaterial (s : State) (p : Nat) : Option (List Byte) :=
  if p = rootExactName then s.key.rootExact else s.key.rootLineage

/-- The storage key of a root (R457). -/
def rootKw (root : List Byte) : List Byte := kdf root false Label.mgRootKw [] 32

/-- The migration entry that stands in for a slot while the running image has the new SIGNER and SVN (R497). -/
def State.migrationOf (s : State) (i : Nat) : Option Migration :=
  if s.key.signer = s.boot.migSigner && s.key.svn = s.boot.migSvn then tfind s.boot.migration i else none

/-- Key check value (R459). -/
def kcvOf (mat : List Byte) : List Byte := (bvBytes (Config.hmac256 mat Label.mgKcv)).take 8

/-- Material of a record whose parent material is known: derived, unwrapped, or from a migration entry. -/
def State.ownMaterial (s : State) (i : Nat) (c : KeyCopy) (parent : List Byte) (parent384 : Bool) : Option (List Byte) :=
  match s.migrationOf i with
  | some m => Config.kwUnwrap (rootKw parent) (m.wrapped.take (typeSize m.type + 8))
  | none =>
    if c.derived then some (kdf parent parent384 c.label c.context (typeSize c.type))
    else Config.kwUnwrap (if isRoot c.parent then rootKw parent else parent) c.wrapped

/-- The material of shares. -/
def Shares.value (k : Shares) : List Byte := xorBytes k.s0 k.s1

/-- Material of a record: from the cache, else by walking up to the nearest ancestor in it or the root, at most `fuel` records up
(R463; depth is at most 4, R477). -/
def State.materialAux (s : State) : Nat → Nat → Option (List Byte)
  | 0, _ => none
  | fuel + 1, i =>
    match s.validRec i, tfind s.key.cache i with
    | none, _ => none
    | some _, some k => some k.value
    | some c, none =>
      if isRoot c.parent then (s.rootMaterial c.parent).bind fun r => s.ownMaterial i c r false
      else match s.validRec c.parent with
        | none => none
        | some p => (s.materialAux fuel c.parent).bind fun m => s.ownMaterial i c m (p.type = 3)

def State.material (s : State) (i : Nat) : Option (List Byte) := s.materialAux 5 i

/-- The conditions of R462 on a record itself and its ancestors. -/
def State.orphanAux (s : State) : Nat → Nat → Bool
  | 0, _ => true
  | fuel + 1, i =>
    match s.validRec i with
    | none => true
    | some c =>
      (if isRoot c.parent then c.parentGen ≠ s.cal.epochCount
       else match s.validRec c.parent with
        | none => true
        | some p => p.gen ≠ c.parentGen || s.orphanAux fuel c.parent) ||
      (match s.material i with
        | none => true
        | some m => kcvOf m ≠ c.kcv)

/-- A record is orphaned (R462). -/
def State.orphan (s : State) (i : Nat) : Bool := s.orphanAux 5 i

/-- A record that a rule or a use may name: `VALID`, not orphaned, of the usage (R56). -/
def State.keyIs (s : State) (i usage : Nat) : Bool :=
  match s.validRec i with
  | some c => c.usage = usage && !s.orphan i
  | none => false

/-- A record descends from another, or is it. -/
def State.descendsAux (s : State) (anc : Nat) : Nat → Nat → Bool
  | 0, i => i = anc
  | fuel + 1, i => i = anc || (match s.keyRec i with
    | some c => !isRoot c.parent && s.descendsAux anc fuel c.parent
    | none => false)

def State.descends (s : State) (i anc : Nat) : Bool := s.descendsAux anc 5 i

/-! ### Pinned records (R463, R475) -/

/-- Records pinned while the active configuration names them (R463): 12 at most. -/
def State.pinned (s : State) : List Nat :=
  (if s.unitOn U.hop then s.act F.HOP_KEYS_JOIN_ROOT ::
    ((List.range s.id.part.radios).map fun p => [s.act F.HOP_PORT_KEYS_GROUP p, s.act F.HOP_PORT_KEYS_STOP p]).flatten else []) ++
  (if s.unitOn U.stp then [s.act F.STP_KEYS_FAB_TX, s.act F.STP_KEYS_FAB_RX, s.act F.STP_PENDANT_KEY_RECORD] else [])

/-- A record is in service (R475). -/
def State.inService (s : State) (i : Nat) : Bool := s.pinned.any fun p => s.descends p i

/-! ### Uses, cache, shares (R463, R464) -/

/-- `n` bytes from the true random generator: a free value. -/
def State.randomBytes (s : State) (n : Nat) : List Byte := bvBytes (Config.freeBits 1 s.free (8 * n))

/-- Material split into two shares with a fresh random one. -/
def State.split (s : State) (mat : List Byte) : Shares :=
  let r := s.randomBytes mat.length
  ⟨r, xorBytes mat r⟩

/-- Shares XORed with one fresh value (R464). -/
def Shares.remask (k : Shares) (r : List Byte) : Shares := ⟨xorBytes k.s0 r, xorBytes k.s1 r⟩

/-- The least recently used unpinned entry gives way when the cache is full. -/
def evict (pinned : List Nat) (l : List (Nat × Shares)) : List (Nat × Shares) :=
  match (l.reverse.find? fun e => !pinned.contains e.1) with
  | some e => l.filter fun x => x.1 ≠ e.1
  | none => l

/-- A record is used: it enters the cache where it is not there, and is the most recently used (R463). -/
def State.cachePut (s : State) (i : Nat) (mat : List Byte) : State :=
  let l := s.key.cache.filter fun e => e.1 ≠ i
  match tfind s.key.cache i with
  | some k => { s with key := { s.key with cache := (i, k) :: l } }
  | none =>
    let l := if l.length < 64 then l else evict s.pinned l
    ({ s with key := { s.key with cache := (i, s.split mat) :: l } }).draw

/-- A use of a record by its name, where it is one: the roots and the provisioning key never enter the cache (R457). -/
def State.cacheUse (s : State) (name : Nat) : State :=
  if 1024 ≤ name then s
  else match s.material name with
    | some m => s.cachePut name m
    | none => s

/-- A use of an orphaned record: counted, and KEY_ORPHAN_USE at most once per record and second (R462, R482). -/
def State.orphanUse (s : State) (i : Nat) : State :=
  let s := { s with key := { s.key with orphaned := s.key.orphaned + 1 } }
  let recent := match tfind s.key.orphanAt i with
    | some t => decide (s.clk.counter < t + tickS)
    | none => false
  if recent then s
  else ({ s with key := { s.key with orphanAt := tput s.key.orphanAt i s.clk.counter } }).raise Ev.keyOrphanUse 0 []

/-- What the precompute engine holds for a port is dropped. -/
def HopPort.unhold (h : HopPort) : HopPort := { h with held := [], beaconKey := none, anchorKey := none, form := none }

/-- Cache entries of a record and its descendants are purged (R468), and what is held under them goes: the frames that depend on the
record stop (R346, R475). -/
def State.purge (s : State) (i : Nat) : State :=
  let under := fun (x : Nat) => s.pinned.contains x && s.descends x i
  let hold := fun (e : Nat × HopPort) =>
    if under (s.act F.HOP_PORT_KEYS_GROUP e.1) || under (s.act F.HOP_PORT_KEYS_STOP e.1) then (e.1, e.2.unhold) else e
  { s with
    key := { s.key with
      cache := s.key.cache.filter fun e => !s.descends e.1 i
      retired := if s.pinned.contains i then i :: s.key.retired else s.key.retired }
    hop := { s.hop with ports := s.hop.ports.map hold }
    fab := { s.fab with held := if under (s.act F.STP_KEYS_FAB_TX) then [] else s.fab.held } }

/-- The named record cannot be used for the device's own frames: it is orphaned, or it was retired since the active configuration named
it, and stays so until a commit names it again (R462, R475; DEDUCED, log entry 84). -/
def State.unusable (s : State) (i : Nat) : Bool := s.orphan i || s.key.retired.contains i

/-- The Key Store serves operations at all: neither faulted nor tampered. -/
def State.keyStop (s : State) : Option Nat :=
  if s.key.fault then some St.unitFault else if s.key.tampered then some St.tampered else none

/-! ### Link keys (R465) -/

/-- J of a machine or node by its EUI-64. -/
def State.joinSecret (s : State) (eui : Nat) : Option (List Byte) :=
  (s.material (s.act F.HOP_KEYS_JOIN_ROOT)).map fun r =>
    kdf r ((s.validRec (s.act F.HOP_KEYS_JOIN_ROOT)).any fun c => c.type = 3) Label.mgJoin
      (beBytes 8 eui ++ beBytes 2 (s.act F.HOP_CTRL_NET_ID)) 32

/-- The session keys of R465 from J, JOIN_NONCE as carried and ASN_LO of the JOIN_REQ's slot. -/
def State.sessionKeys (s : State) (j nonce : List Byte) (asnLo : Nat) : LinkKeys :=
  let ctx := nonce ++ beBytes 5 asnLo
  ⟨s.split (kdf j false Label.mgSessUp ctx 16), s.draw.split (kdf j false Label.mgSessDn ctx 16),
    s.draw.draw.split (kdf j false Label.mgSessKw ctx 16)⟩

/-- Roots, cache, link bank and the latched material of every engine are cleared, and with it what the precompute engine holds
(R470, step 2; DEDUCED, log entry 84). -/
def State.destroyKeys (s : State) : State :=
  { s with
    key := { s.key with cache := [], link := [], rootExact := none, rootLineage := none }
    hop := { s.hop with ports := s.hop.ports.map fun (e : Nat × HopPort) => (e.1, e.2.unhold) }
    fab := { s.fab with held := [] } }

/-- Every running and queued job completes with a status (R470, step 3). -/
def State.abortJobs (s : State) (status : Nat) : State :=
  let jobs := s.key.running.map (·.2) ++ s.key.queue
  jobs.foldl (fun s j => match s.waitingDesc j.serial with
    | some d => s.complete d status
    | none => s) { s with key := { s.key with running := [], queue := [] } }

/-- The two roots of R455, from an EPOCH as bytes. -/
def rootExactOf (epoch md : List Byte) : List Byte := kdf (bvBytes Config.fusedSecret) false Label.mgRoot (epoch ++ [0] ++ md) 32
def rootLineageOf (epoch signer : List Byte) (svn : Word) : List Byte :=
  kdf (bvBytes Config.fusedSecret) false Label.mgRoot (epoch ++ [1] ++ signer ++ beBytes 4 svn.toNat) 32

/-- EPOCH as bytes, none when none is held. -/
def State.epochBytes (s : State) : Option (List Byte) := s.cal.epoch.map fun e => bvBytes (e.1 ^^^ e.2)

/-- The two roots from EPOCH, MD, SIGNER and SVN (R455). -/
def State.deriveRoots (s : State) : State :=
  match s.epochBytes with
  | none => s
  | some e => { s with key := { s.key with
      rootExact := some (rootExactOf e s.key.md), rootLineage := some (rootLineageOf e s.key.signer s.key.svn), rootsReady := true } }

/-- A new EPOCH from the true random generator; CAL_EPOCH_COUNT increments (R471, R479). -/
def State.newEpoch (s : State) : State :=
  ({ s with cal := { s.cal with
      epoch := some (Config.freeBits 1 s.free 256, Config.freeBits 1 (s.free + 1) 256)
      epochCount := s.cal.epochCount + 1 } }).draw.draw

end Sys2Proof.Machine
end

