-- ==== Sys2Proof/Machine/Nv.lean ====
section
/-! DEFINITION. NV die operations: wear, spares, read-only regions (R483 to R485, R512), and the recorder's slots in both
stores (R509). -/

namespace Sys2Proof.Machine

-- Regions in the order of R485's table.
namespace Region
def key : Nat := 0
def config : Nat := 1
def boot : Nat := 2
def recorder : Nat := 3
def user : Nat := 4
end Region

/-- First block of a region on the die: each region's dedicated spares follow it (R483). -/
def State.regionBase (s : State) (region : Nat) : Nat :=
  if region = Region.boot then 0 else if region = Region.key then 4 else if region = Region.config then 28
  else if region = Region.recorder then 52 else 52 + 16 * s.nvm.recorderNow

/-- Number on the die of a block of a region. -/
def State.nvBlock (s : State) (region block : Nat) : Nat := s.regionBase region + block

/-- The block of the die that holds the data of a block: itself, or the spare that the remap table gives (R484). -/
def State.nvHome (s : State) (b : Nat) : Nat := (tfind s.nvm.mapping b).getD b

/-- New NV writes are stopped by PFAIL_N (R520). -/
def State.nvHeld (s : State) : Bool := s.pwr.nvStopped

/-- The filtered PFAIL_N is low (R523). -/
def State.pfailLow (s : State) : Bool := s.clk.counter < s.pwr.pfailUntil

/-- PFAIL_N has been high for a time without a break (R521). -/
def State.pfailHighFor (s : State) (ticks : Nat) : Bool := s.pwr.pfailUntil + ticks ≤ s.clk.counter

/-- Writes that a block endures (R483). -/
def nvEndurance : Nat := 1000000

/-- A spare for a region and its number on the die, dedicated ones first (R484). -/
def State.takeSpare (s : State) (region : Nat) : Option (State × Nat) :=
  let n := s.nvm
  if region = Region.key ∧ 0 < n.sparesKey then some ({ s with nvm := { n with sparesKey := n.sparesKey - 1 } }, 28 - n.sparesKey)
  else if region = Region.config ∧ 0 < n.sparesCfg then
    some ({ s with nvm := { n with sparesCfg := n.sparesCfg - 1 } }, 52 - n.sparesCfg)
  else if 0 < n.sparesPool then some ({ s with nvm := { n with sparesPool := n.sparesPool - 1 } }, 512 - n.sparesPool)
  else none

/-- A region becomes read-only (R485, R473). -/
def State.makeReadOnly (s : State) (region : Nat) : State :=
  let s := ({ s with nvm := { s.nvm with readOnly := s.nvm.readOnly ||| (1 <<< region) } }).raise Ev.nvmReadOnly region
    (leBytes 1 region)
  if region = Region.key then
    ({ s with key := { s.key with worn := true } }).raise Ev.keyWorn 0 []
  else s

/-- A block that is worn with no spare: what its region suffers (R485); the rest of the recorder's part is `State.dropBlock`. -/
def State.wornOut (s : State) (region b : Nat) : State :=
  if region = Region.recorder ∨ region = Region.user then { s with nvm := { s.nvm with
    worn := if s.nvm.worn.contains b then s.nvm.worn else b :: s.nvm.worn } }
  else s.makeReadOnly region

/-- A block counts a write. -/
def State.countWrite (s : State) (home n : Nat) : State :=
  { s with nvm := { s.nvm with wear := tset s.nvm.wear 0 home n } }

/-- The remap table takes a new mapping, as an A/B update of its own block (R484); that block too may need a spare, and without one the
boot region becomes read-only and nothing is mapped. -/
def State.writeRemap (s : State) (b spare : Nat) : State × Bool :=
  let home := s.nvHome 1
  let n := tget s.nvm.wear 0 home + 1
  let t := tput s.nvm.mapping b spare
  if n < nvEndurance then
    let s := s.countWrite home n
    ({ s with nvm := { s.nvm with remap := s.nvm.remap.write t } }, true)
  else match s.takeSpare Region.boot with
    | some (s, own) =>
      let s := s.countWrite own 1
      (({ s with nvm := { s.nvm with remap := s.nvm.remap.write (tput t 1 own) } }).raise Ev.nvmBlockReplaced Region.boot
        (leBytes 1 Region.boot), true)
    | none => (s.makeReadOnly Region.boot, false)

/-- How a write to the NV die ends: the data stand, the block is worn with no spare, or the write was cut off, by the loss of the
supply or by PFAIL_N. -/
inductive NvEnd where
  | done | worn | cut (power : Bool)
deriving DecidableEq, Repr

/-- What the next write of a command suffers. -/
def runNow (r : NvRun) : NvRun := if r.skip = 0 then r else .plain

/-- The writes after the next one. -/
def runNext (r : NvRun) : NvRun := if r.skip = 0 then .plain else { r with skip := r.skip - 1 }

/-- How a write ends that wears no block. -/
def runEnded (r : NvRun) : NvEnd :=
  match r.cut with
  | some c => .cut c.power
  | none => .done

/-- A write to a block, counted where it lands. A block that is worn by it, or whose read-back fails, is replaced by a spare: the
remap table takes the mapping, then the data complete on the spare (R484). One cut off before the mapping's commit word leaves the
old mapping and a torn one, and the next write replaces the block again. -/
def State.nvWrite (s : State) (region block : Nat) (run : NvRun) : State × NvEnd :=
  let run := runNow run
  let b := s.nvBlock region block
  let home := s.nvHome b
  let n := tget s.nvm.wear 0 home + 1
  if n < nvEndurance && !run.bad then (s.countWrite home n, runEnded run)
  else match s.takeSpare region with
    | none => (s.wornOut region b, .worn)
    | some (t, spare) =>
      match run.cut.filter fun c => !c.mapped with
      | some c =>
        let s := s.countWrite home (nvEndurance - 1)
        ({ s with nvm := { s.nvm with remap := s.nvm.remap.tear } }, .cut c.power)
      | none =>
        match t.writeRemap b spare with
        | (_, false) => ((s.writeRemap b spare).1.wornOut region b, .worn)
        | (t, true) => ((t.countWrite spare 1).raise Ev.nvmBlockReplaced region (leBytes 1 region), runEnded run)

def State.readOnly (s : State) (region : Nat) : Bool := s.nvm.readOnly.getLsbD region

/-- A user block that is worn with no spare reads as zero (R485); `block` counts from the start of the user region. -/
def State.userWorn (s : State) (block : Nat) : Bool := s.nvm.worn.contains (s.nvBlock Region.user block)

/-- Size of the user region in bytes (R483). -/
def State.userSize (s : State) : Nat := (428 - 16 * s.nvm.recorderNow) * 65536

/-! ### The configuration store (R60, R487) -/

/-- Units of 4 KiB that a block takes: two copies, and one for the commit word. -/
def storeUnits (b : StoredBlock) : Nat := 2 * ((b.bytes.length + 4095) / 4096) + 1

/-- A block's UNIT_MASK is a subset of another's. -/
def replaces (new old : StoredBlock) : Bool := old.mask &&& new.mask = old.mask

/-- A block whose commit word is written stands in the store in place of those it replaces: its copies agree, so either is it. -/
def settleBlock (held : List StoredBlock) (x : Storing) : List StoredBlock :=
  let new : StoredBlock := ⟨x.mask, if x.copyA = x.copyB then x.copyA else x.copyB⟩
  (held.filter fun b => !replaces new b) ++ [new]

/-- The configuration store as the commit words written so far make it (R60). -/
def State.settledStore (s : State) : List StoredBlock :=
  (s.nvm.storing.filter fun x => decide (x.wordAt ≤ s.clk.counter)).foldl settleBlock s.nvm.store

/-! ### Recorder slots (R509) -/

/-- The CRC of a slot: the record is zero-padded to byte 315. -/
def recordSum (bytes : List Byte) : Word := BitVec.ofNat 32 (crc32c (padTo 316 bytes))

/-- The 320 bytes of a slot. -/
def Record.slot (r : Record) : List Byte := padTo 316 r.bytes ++ leBytes 4 r.crc.toNat

/-- A record whose slot holds its CRC. -/
def Record.make (seq severity : Nat) (bytes : List Byte) : Record := ⟨seq, severity, bytes, false, recordSum bytes⟩

/-- The records that the NV log holds: a slot whose CRC fails reads as free. -/
def State.nvLog (s : State) : Tbl Record := s.crn.nv.filter fun e => e.2.crc = recordSum e.2.bytes

/-- The lowest-numbered free slot of those that may be used, from one on. -/
def freeSlot (store : Tbl Record) (ok : Nat → Bool) : Nat → Nat → Option Nat
  | 0, _ => none
  | fuel + 1, i => if ok i && (tfind store i).isNone then some i else freeSlot store ok fuel (i + 1)

/-- What R509 chooses for a new record in a store of `n` slots: a slot, or none when the record is dropped. -/
def chooseSlot (store : Tbl Record) (ok : Nat → Bool) (n : Nat) (buffer : Bool) (sev : Nat) : Option Nat :=
  let lowestSeq := fun (l : List (Nat × Record)) => ((sortBy (fun e => e.2.seq) l).head?).map (·.1)
  match freeSlot store ok n 0 with
  | some i => some i
  | none =>
    match (if buffer then lowestSeq (store.filter fun e => e.2.flushed) else none) with
    | some i => some i
    | none =>
      let low := store.filter fun e => e.2.severity < sev
      if !low.isEmpty then
        let m := low.foldl (fun m e => min m e.2.severity) 3
        lowestSeq (low.filter fun e => e.2.severity = m)
      else if sev < 3 then lowestSeq (store.filter fun e => e.2.severity = sev)
      else none

/-- A slot of the NV log lies in a block of the recorder region that is not dropped (R483, R512). -/
def State.slotOk (s : State) (i : Nat) : Bool :=
  i < 3264 * s.nvm.recorderNow && !s.nvm.worn.contains (s.nvBlock Region.recorder (i / 204))

/-- The slot of the NV log that a record takes. -/
def State.logSlot (s : State) (sev : Nat) : Option Nat :=
  chooseSlot s.nvLog s.slotOk (3264 * s.nvm.recorderNow) false sev

/-- CRN_CRIT_DROPPED increments, and CRN_CRIT_DROP is raised at most once per second. -/
def State.critDrop (s : State) : State :=
  let s := { s with crn := { s.crn with critDropped := s.crn.critDropped + 1 } }
  let recent := match s.crn.dropAt with
    | some t => decide (s.clk.counter < t + tickS)
    | none => false
  if recent then s
  else ({ s with crn := { s.crn with dropAt := some s.clk.counter } }).raise Ev.crnCritDrop 0 []

/-- A record that no slot takes is dropped and counts (R509). -/
def State.dropRecord (s : State) (sev : Nat) : State :=
  if sev = 3 then s.critDrop else { s with crn := { s.crn with overwritten := s.crn.overwritten + 1 } }

/-- A record enters the buffer (R509): the next one has the next SEQ; one that is dropped is not written. -/
def State.bufferRecord (s : State) (r : Record) : State :=
  match chooseSlot s.crn.buf (fun _ => true) 819 true r.severity with
  | none => s.dropRecord r.severity
  | some i =>
    let lost := match tfind s.crn.buf i with
      | some old => !old.flushed
      | none => false
    { s with crn := { s.crn with
      buf := tput s.crn.buf i r
      seq := s.crn.seq + 1
      overwritten := if lost then s.crn.overwritten + 1 else s.crn.overwritten } }

/-- A record takes a slot of the NV log; the one that it overwrites counts. -/
def State.putRecord (s : State) (i : Nat) (r : Record) : State :=
  let old := (tfind s.nvLog i).isSome
  { s with crn := { s.crn with
    nv := tput s.crn.nv i { r with flushed := true }
    overwritten := if old then s.crn.overwritten + 1 else s.crn.overwritten } }

/-- A worn block is dropped: its slots are gone, and the recorder is smaller (R512). -/
def State.dropBlock (s : State) (block : Nat) : State :=
  { s with crn := { s.crn with
    nv := s.crn.nv.filter fun e => e.1 / 204 ≠ block, capacity := s.crn.capacity - 204 } }

/-- A record is copied to the NV log; `bad` are the blocks whose writes fail their read-back. A block that is worn with no spare
left gives its readable records to other slots and is dropped, and the record takes another slot (R509, R512). -/
def State.logRecord (bad : List Nat) : Nat → State → Record → State
  | 0, s, r => s.dropRecord r.severity
  | fuel + 1, s, r =>
    match s.logSlot r.severity with
    | none => s.dropRecord r.severity
    | some i =>
      match s.nvWrite Region.recorder (i / 204) ⟨0, bad.contains (i / 204), none⟩ with
      | (s, .done) => s.putRecord i r
      | (s, _) =>
        let moved := s.nvLog.filter fun e => e.1 / 204 = i / 204
        let s := moved.foldl (fun s e => State.logRecord bad fuel s e.2) (s.dropBlock (i / 204))
        State.logRecord bad fuel (s.raise Ev.crnShrunk 0 []) r

/-- Buffer records not yet flushed. -/
def State.unflushed (s : State) : List (Nat × Record) := s.crn.buf.filter fun e => !e.2.flushed

/-- The record that a flush takes next: by descending severity, then ascending SEQ (R510). -/
def State.flushNext (s : State) : Option (Nat × Record) :=
  (sortBy (fun e => (3 - e.2.severity) * 2 ^ 32 + e.2.seq) s.unflushed).head?

/-- One record is flushed. A block is dropped at most once for each of the 384 of the region. -/
def State.flushOne (s : State) (bad : List Nat) : State :=
  match s.flushNext with
  | none => s
  | some e =>
    let s := State.logRecord bad 385 s e.2
    { s with crn := { s.crn with buf := tput s.crn.buf e.1 { e.2 with flushed := true } } }

/-- A number of records is flushed. -/
def State.flushMany (bad : List Nat) : Nat → State → State
  | 0, s => s
  | n + 1, s => State.flushMany bad n (s.flushOne bad)

/-- Ticks that a slot of 320 bytes takes at 80 MB/s (R483, R510). -/
def slotTicks : Nat := 1000

/-- The records whose slots the running flush has written by now are in the NV log (R510). -/
def State.settleFlush (s : State) : State :=
  if !s.crn.flushing then s
  else
    let n := min s.unflushed.length ((s.clk.counter - s.crn.flushAt) / slotTicks)
    let s := State.flushMany [] n s
    { s with crn := { s.crn with flushAt := s.crn.flushAt + slotTicks * n } }

/-- A flush copies every unflushed record (R510). -/
def State.flushAll (s : State) (bad : List Nat) : State := State.flushMany bad s.unflushed.length s

/-- A reset in the middle of a flush tears the slot that is being written (R509, R519). -/
def State.tearFlush (s : State) : State :=
  let s := s.settleFlush
  match s.flushNext with
  | none => s
  | some e =>
    if !s.crn.flushing || s.clk.counter ≤ s.crn.flushAt then s
    else match s.logSlot e.2.severity with
      | none => s
      | some i => { s with crn := { s.crn with nv := tput s.crn.nv i { e.2 with flushed := true, crc := ~~~recordSum e.2.bytes } } }

/-- A flush starts, or the trigger joins the one running (R510). -/
def State.startFlush (s : State) : State :=
  if s.crn.fault then s
  else { s with crn := { s.crn with
    flushing := true, wantAt := none, flushAt := if s.crn.flushing then s.crn.flushAt else s.clk.counter } }

end Sys2Proof.Machine
end

