-- ==== Sys2Proof/Machine/KeyStore.lean ====
section
/-! DEFINITION. The Key Store's commands: records, crypto jobs, attestation, epoch, re-masking, tamper (R458 to R482). -/

namespace Sys2Proof.Machine

/-- Opcodes of R387's KEY range. -/
def opKeyCreate : Nat := 0x0F01
def opKeyDestroy : Nat := 0x0F02
def opKeyInvalidate : Nat := 0x0F03
def opKeyInfo : Nat := 0x0F04
def opKeyWrapOut : Nat := 0x0F06
def opKeyAttest : Nat := 0x0F07
def opKeyEpochRoll : Nat := 0x0F08

/-- An operand held within its range, and the descriptor with the clamp noted (R41, R44). -/
def Desc.clamped' (d : Desc) (o n lo hi : Nat) : Nat × Desc × Nat :=
  let v := d.operand o n
  let w := clampNat lo hi v
  (w, d.clampIf (v ≠ w), b2n (v ≠ w))

/-- What stops a command that changes the key-store region: the Key Store itself, or a region that is read-only (R473). -/
def State.updateStop (s : State) : Option Nat :=
  match s.keyStop with
  | some st => some st
  | none => if s.key.worn then some St.worn else none

/-- An update of the key-store region that has not written its commit word when PFAIL_N falls is abandoned (R474); when the supply
falls instead, nothing completes it. -/
def State.abandonUpdate (s : State) (d : Desc) (power : Bool) : State :=
  if power then s.wait d else (s.raise Ev.keyPfailAbandon 0 []).complete d St.pfail

/-- A write of an update of the key-store region: none starts while PFAIL_N stops NV writes (R474); cut off before its commit word, it
leaves what `torn` says. -/
def State.keyWrite (s : State) (d : Desc) (block : Nat) (run : NvRun) (torn done : State → State) : State :=
  if s.nvHeld then s.complete d St.pfail
  else match s.nvWrite Region.key block run with
    | (s, .worn) => s.complete d St.worn
    | (s, .cut power) => (torn s).abandonUpdate d power
    | (s, .done) => done s

/-- An update of a record slot, in the block that holds it (R460). -/
def State.recordUpdate (s : State) (d : Desc) (i : Nat) (run : NvRun) (f : KeyCopy → KeyCopy) (done : State → State) : State :=
  s.keyWrite d (i / 128) run (fun s => s.tearSlot i f) fun s => done (s.updateSlot i f)

/-! ### KEY_CREATE (R477) -/

/-- METHOD as R477 reads it: other codes read as 0. -/
def createMethod (d : Desc) : Nat := if d.operand 4 1 ≤ 2 then d.operand 4 1 else 0

/-- The record that unwraps an import: its material, or the status that stops it. -/
def State.transportKey (s : State) (name : Nat) : List Byte ⊕ Nat :=
  if name = provisionName then .inl (bvBytes Config.provisionKey)
  else match s.validRec name with
    | none => .inr St.noRecord
    | some c =>
      if s.orphan name then .inr St.orphaned
      else if c.usage ≠ Usage.wrapOnly then .inr St.usage
      else match s.material name with
        | some m => .inl m
        | none => .inr St.orphaned

/-- Material, GEN and depth of a parent that a record may be created under, or the status that stops it (R477). -/
def State.parentOf (s : State) (p : Nat) (derive : Bool) : (List Byte × Bool × Word × Nat) ⊕ Nat :=
  if isRoot p then
    match s.rootMaterial p with
    | none => .inr St.orphaned
    | some m => if derive then .inl (m, false, s.cal.epochCount, 0) else .inr St.usage
  else match s.validRec p with
    | none => .inr St.noRecord
    | some c =>
      if s.orphan p then .inr St.orphaned
      else if c.usage ≠ (if derive then Usage.deriveOnly else Usage.wrapOnly) then .inr St.usage
      else match s.material p with
        | some m => .inl (m, c.type = 3, c.gen, c.depth)
        | none => .inr St.orphaned

/-- A new record is stored, and the descriptor completes with GEN and KCV. -/
def State.storeRecord (s : State) (d : Desc) (run : NvRun) (i : Nat) (f : KeyCopy → KeyCopy) (mat : List Byte) : State :=
  s.recordUpdate d i run (fun c => f { c with valid := true, kcv := kcvOf mat }) fun s =>
    s.complete d St.ok (leBytes 4 (((s.keyRec i).map KeyCopy.gen).getD 0).toNat ++ kcvOf mat)

/-- KEY_CREATE by METHOD, with its checks in the order of R477. -/
def State.keyCreate (s : State) (d : Desc) (method : Nat) (payload : List Byte) (run : NvRun) : State :=
  match s.updateStop with
  | some st => s.complete d st
  | none =>
    let (i, d, n1) := d.clamped' 0 2 0 1023
    let type := d.operand 5 1
    let usage := d.operand 6 1
    if 4 ≤ type ∨ 4 ≤ usage then s.complete d St.badDesc
    else
      let flags := d.operand 7 1
      let (labelLen, d, n2) := if method = 0 then d.clamped' 10 1 1 16 else (0, d, 0)
      let (ctxLen, d, n3) := if method = 0 then d.clamped' 11 1 0 32 else (0, d, 0)
      let n4 := b2n (method ≠ d.operand 4 1)
      let d := d.clampIf (n4 ≠ 0)
      let s := s.countClamps (n1 + n2 + n3 + n4) none
      let parent := d.operand 2 2
      let pl := padTo d.len payload
      if (s.validRec i).isSome then s.complete d St.recordUsed
      else match s.parentOf parent (method = 0) with
        | .inr st => (if st = St.orphaned then s.orphanUse parent else s).complete d st
        | .inl (pm, p384, pgen, pdepth) =>
          let s := s.cacheUse parent
          let attest := bit flags 1
          let need := if method = 0 then labelLen + ctxLen else if method = 1 then 0 else typeSize type + 8
          let base := fun (c : KeyCopy) => { c with
            type := type, usage := usage, exportable := bit flags 0, attest := attest, derived := method = 0,
            parent := parent, depth := pdepth + 1, parentGen := pgen, label := [], context := [], wrapped := [] }
          if 4 < pdepth + 1 then s.complete d St.depth
          else if !typeUsageOk type usage attest then s.complete d St.badType
          else if d.len = 0 && need ≠ 0 then s.complete d St.empty
          else if d.len ≠ need then s.complete d St.length
          else if method = 0 then
            let label := pl.take labelLen
            let ctx := (pl.drop labelLen).take ctxLen
            s.storeRecord d run i (fun c => { base c with label := label, context := ctx })
              (kdf pm p384 label ctx (typeSize type))
          else if method = 1 then
            let mat := s.randomBytes (typeSize type)
            s.draw.storeRecord d run i (fun c => { base c with wrapped := kwWrap pm mat }) mat
          else
            let tr := if d.operand 8 2 = 0xFFFF then .inl pm else s.transportKey (d.operand 8 2)
            match tr with
            | .inr st => (if st = St.orphaned then s.orphanUse (d.operand 8 2) else s).complete d st
            | .inl tk =>
              let s := if d.operand 8 2 = 0xFFFF then s else s.cacheUse (d.operand 8 2)
              match (Config.kwUnwrap tk pl).filter fun m => m.length = typeSize type with
              | none => ({ s with key := { s.key with authFail := s.key.authFail + 1 } }).complete d St.authFail
              | some mat => s.storeRecord d run i (fun c => { base c with wrapped := kwWrap pm mat }) mat

/-- KEY_CREATE with METHOD DERIVE stores a derivation recipe (R477). -/
def execKeyCreateDerive (dt ring index : Nat) (payload : List Byte) (run : NvRun) (s : State) : Result :=
  .next ((s.elapse dt).withDesc ring index opKeyCreate (fun d => createMethod d = 0)
    fun s d => s.keyCreate d 0 payload run)

/-- KEY_CREATE with METHOD GENERATE stores random material (R477). -/
def execKeyCreateGenerate (dt ring index : Nat) (run : NvRun) (s : State) : Result :=
  .next ((s.elapse dt).withDesc ring index opKeyCreate (fun d => createMethod d = 1)
    fun s d => s.keyCreate d 1 [] run)

/-- KEY_CREATE with METHOD IMPORT stores unwrapped material (R477). -/
def execKeyCreateImport (dt ring index : Nat) (payload : List Byte) (run : NvRun) (s : State) : Result :=
  .next ((s.elapse dt).withDesc ring index opKeyCreate (fun d => createMethod d = 2)
    fun s d => s.keyCreate d 2 payload run)

/-! ### KEY_DESTROY, KEY_INVALIDATE (R461, R468, R475) -/

/-- GEN increments; VALID is cleared by a destroy; descendants are purged. A root or the provisioning key answers `USAGE`. -/
def State.keyRetire (s : State) (d : Desc) (destroy : Bool) (run : NvRun) : State :=
  match s.updateStop with
  | some st => s.complete d st
  | none =>
    let i := d.operand 0 2
    if isRoot i || i = provisionName then s.complete d St.usage
    else match s.validRec i with
      | none => s.complete d St.noRecord
      | some _ =>
        if s.inService i && !bit (d.operand 2 1) 0 then s.complete d St.inService
        else
          s.recordUpdate d i run (fun c => { c with gen := c.gen + 1, valid := c.valid && !destroy }) fun s =>
            let s := s.purge i
            -- the link bank goes with the join root (R465)
            let s := if s.unitOn U.hop && s.descends (s.act F.HOP_KEYS_JOIN_ROOT) i then
              { s with key := { s.key with link := [] } } else s
            s.complete d St.ok

def execKeyDestroy (dt ring index : Nat) (run : NvRun) (s : State) : Result :=
  .next ((s.elapse dt).withDesc ring index opKeyDestroy (fun _ => true) fun s d => s.keyRetire d true run)

def execKeyInvalidate (dt ring index : Nat) (run : NvRun) (s : State) : Result :=
  .next ((s.elapse dt).withDesc ring index opKeyInvalidate (fun _ => true) fun s d => s.keyRetire d false run)

/-! ### KEY_INFO, KEY_WRAP_OUT (R478) -/

/-- KEY_INFO's result (R478): it alone still runs when tampered (R470). -/
def State.keyInfo (s : State) (d : Desc) : State :=
  if s.key.fault then s.complete d St.unitFault
  else
    let i := d.operand 0 2
    let c := (s.keyRec i).getD (KeyCopy.blank i)
    let st := if !c.valid then 0 else if s.orphan i then 2 else 1
    s.complete d St.ok (if c.valid then
      leBytes 1 st ++ leBytes 1 c.type ++ leBytes 1 c.usage ++ leBytes 1 c.flags ++ leBytes 1 c.depth ++ [0] ++
      leBytes 2 c.parent ++ leBytes 4 c.gen.toNat ++ c.kcv.take 4
      else leBytes 8 0 ++ leBytes 4 c.gen.toNat)

def execKeyInfo (dt ring index : Nat) (s : State) : Result :=
  .next ((s.elapse dt).withDesc ring index opKeyInfo (fun _ => true) State.keyInfo)

/-- Exports an EXPORTABLE record wrapped under WRAPPER (R478). -/
def State.keyWrapOut (s : State) (d : Desc) : State :=
  match s.keyStop with
  | some st => s.complete d st
  | none =>
    let i := d.operand 0 2
    if isRoot i || i = provisionName then s.complete d St.notExportable
    else match s.validRec i with
    | none => s.complete d St.noRecord
    | some c =>
      if s.orphan i then (s.orphanUse i).complete d St.orphaned
      else if !c.exportable then s.complete d St.notExportable
      else match s.transportKey (d.operand 2 2), s.material i with
        | .inr st, _ => (if st = St.orphaned then s.orphanUse (d.operand 2 2) else s).complete d st
        | .inl _, none => (s.orphanUse i).complete d St.orphaned
        | .inl k, some m =>
          if d.operand 2 2 = provisionName then s.complete d St.usage
          else if d.len = 0 then s.complete d St.empty
          else if d.len < m.length + 8 then s.complete d St.length
          else (((s.cachePut i m).cacheUse (d.operand 2 2)).writePayload d 0 (kwWrap k m)).complete d St.ok

def execKeyWrapOut (dt ring index : Nat) (s : State) : Result :=
  .next ((s.elapse dt).withDesc ring index opKeyWrapOut (fun _ => true) State.keyWrapOut)

/-! ### KEY_CRYPT (R467, R479) -/

/-- OP as R479 reads it: other codes read as 0. -/
def cryptOp (d : Desc) : Nat := if d.operand 2 1 ≤ 7 then d.operand 2 1 else 0

/-- Lengths of a KEY_CRYPT: IV, tag, AAD and data, clamped (R44, R479); and whether any was clamped. -/
structure CryptLen where
  iv : Nat
  tag : Nat
  aad : Nat
  data : Nat
  clamps : Nat
deriving DecidableEq, Repr

/-- Hash length of an HMAC key type. -/
def hashLen (type : Nat) : Nat := if type = 3 then 48 else 32

/-- The lengths that operands spell for an operation and a key type. -/
def cryptLens (d : Desc) (op type : Nat) : CryptLen :=
  let iv := d.operand 3 1
  let tag := d.operand 4 1
  let aad := d.operand 8 4
  let data := d.operand 12 4
  let iv' := if op ≤ 1 then 12 else if op ≤ 3 then clampNat 7 13 iv else 0
  let tag' := if op ≤ 1 then clampNat 12 16 tag
    else if op ≤ 3 then (let t := clampNat 4 16 tag; t - t % 2)
    else if op ≤ 5 then clampNat 8 16 tag
    else clampNat 16 (hashLen type) tag
  let aad' := min 65535 aad
  let data' := min 16777216 data
  ⟨iv', tag', aad', data', b2n (iv' ≠ iv) + b2n (tag' ≠ tag) + b2n (aad' ≠ aad) + b2n (data' ≠ data)⟩

/-- A job is queued when its record, usage, type and length pass (R467, R479). -/
def State.keyCrypt (s : State) (d : Desc) (op : Nat) (payload : List Byte) : State :=
  match s.keyStop with
  | some st => s.complete d st
  | none =>
    let i := d.operand 0 2
    if isRoot i || i = provisionName then s.complete d St.usage
    else match s.validRec i with
    | none => s.complete d St.noRecord
    | some c =>
      if s.orphan i then (s.orphanUse i).complete d St.orphaned
      else if c.usage ≠ (if op % 2 = 0 then Usage.encryptOnly else Usage.decryptOnly) || isAes c.type ≠ decide (op ≤ 5) then
        s.complete d St.usage
      else
        let l := cryptLens d op c.type
        let n := l.clamps + b2n (op ≠ d.operand 2 1)
        let d := d.clampIf (n ≠ 0)
        let s := s.countClamps n none
        if d.len = 0 then s.complete d St.empty
        else if d.len ≠ 64 + l.aad + l.data then s.complete d St.length
        else if 64 ≤ s.key.queue.length then s.complete d St.busy
        else
          let s := { s with key := { s.key with
            queue := s.key.queue ++ [(⟨d.serial, i, op, padTo d.len payload, [], c.gen⟩ : Job)] } }
          (s.modDesc d.serial fun e => { e with clamped := d.clamped }).wait d

def execKeyCryptGcmEncrypt (dt ring index : Nat) (payload : List Byte) (s : State) : Result :=
  .next ((s.elapse dt).withDesc ring index opKeyCrypt (fun d => cryptOp d = 0) fun s d => s.keyCrypt d 0 payload)

def execKeyCryptGcmDecrypt (dt ring index : Nat) (payload : List Byte) (s : State) : Result :=
  .next ((s.elapse dt).withDesc ring index opKeyCrypt (fun d => cryptOp d = 1) fun s d => s.keyCrypt d 1 payload)

def execKeyCryptCcmEncrypt (dt ring index : Nat) (payload : List Byte) (s : State) : Result :=
  .next ((s.elapse dt).withDesc ring index opKeyCrypt (fun d => cryptOp d = 2) fun s d => s.keyCrypt d 2 payload)

def execKeyCryptCcmDecrypt (dt ring index : Nat) (payload : List Byte) (s : State) : Result :=
  .next ((s.elapse dt).withDesc ring index opKeyCrypt (fun d => cryptOp d = 3) fun s d => s.keyCrypt d 3 payload)

def execKeyCryptCmacGenerate (dt ring index : Nat) (payload : List Byte) (s : State) : Result :=
  .next ((s.elapse dt).withDesc ring index opKeyCrypt (fun d => cryptOp d = 4) fun s d => s.keyCrypt d 4 payload)

def execKeyCryptCmacVerify (dt ring index : Nat) (payload : List Byte) (s : State) : Result :=
  .next ((s.elapse dt).withDesc ring index opKeyCrypt (fun d => cryptOp d = 5) fun s d => s.keyCrypt d 5 payload)

def execKeyCryptHmacGenerate (dt ring index : Nat) (payload : List Byte) (s : State) : Result :=
  .next ((s.elapse dt).withDesc ring index opKeyCrypt (fun d => cryptOp d = 6) fun s d => s.keyCrypt d 6 payload)

def execKeyCryptHmacVerify (dt ring index : Nat) (payload : List Byte) (s : State) : Result :=
  .next ((s.elapse dt).withDesc ring index opKeyCrypt (fun d => cryptOp d = 7) fun s d => s.keyCrypt d 7 payload)

/-- The lowest job engine that is free (R466). -/
def State.freeEngine (s : State) : Option Nat := (List.range 4).find? fun e => (tfind s.key.running e).isNone

/-- A queued job of an affected record completes (R468). -/
def State.orphanJob (s : State) (j : Job) : State :=
  match s.waitingDesc j.serial with
  | some d => (s.orphanUse j.record).complete d St.orphaned
  | none => s

/-- The job at the head of the queue starts on a free engine and latches its key; one whose record has been invalidated, destroyed or
orphaned since completes `ORPHANED` (R467, R468). -/
def State.startJob (s : State) : State :=
  match s.freeEngine, s.key.queue with
  | some e, j :: r =>
    let s := { s with key := { s.key with queue := r } }
    match s.validRec j.record, s.material j.record, s.orphan j.record with
    | some c, some m, false =>
      if c.gen ≠ j.gen then s.orphanJob j
      else { s.cachePut j.record m with key := { (s.cachePut j.record m).key with
          running := tput s.key.running e { j with key := m } } }
    | _, _, _ => s.orphanJob j
  | _, _ => s

/-- A queued job starts on a free engine and latches its key (R467). -/
def execKeyJobStart (dt : Nat) (s : State) : Result :=
  let s := s.elapse dt
  .next (if s.keyStop.isSome || s.pwr.state = .safeHold then s else s.startJob)

/-- What a job's engine computes (R479): the data and tag areas as written back, or none where a tag fails. -/
def Job.result (j : Job) (l : CryptLen) (type : Nat) : Option (List Byte × List Byte) :=
  let iv := (j.payload.take 16).take l.iv
  let aad := (j.payload.drop 16).take l.aad
  let data := (j.payload.drop (16 + l.aad)).take l.data
  let tagIn := (j.payload.drop (16 + l.aad + l.data)).take l.tag
  let stream := fun (f : Nat → Byte) => xorBytes data ((List.range data.length).map f)
  let mac := fun (t : List Byte) (gen : Bool) => if gen then some (data, t.take l.tag)
    else if t.take l.tag = tagIn then some (data, tagIn) else none
  match j.op with
  | 0 => let ct := stream (Config.gcmStream j.key iv)
         some (ct, (bvBytes (Config.gcmTag j.key iv aad ct)).take l.tag)
  | 1 => if (bvBytes (Config.gcmTag j.key iv aad data)).take l.tag = tagIn then
           some (stream (Config.gcmStream j.key iv), tagIn) else none
  | 2 => some (stream (Config.ccmStream j.key iv), (bvBytes (Config.ccmTag j.key iv aad data l.tag)).take l.tag)
  | 3 => let pt := stream (Config.ccmStream j.key iv)
         if (bvBytes (Config.ccmTag j.key iv aad pt l.tag)).take l.tag = tagIn then some (pt, tagIn) else none
  | 4 => mac (bvBytes (Config.aesCmac j.key (aad ++ data))) true
  | 5 => mac (bvBytes (Config.aesCmac j.key (aad ++ data))) false
  | 6 => mac (if type = 3 then bvBytes (Config.hmac384 j.key (aad ++ data)) else bvBytes (Config.hmac256 j.key (aad ++ data))) true
  | _ => mac (if type = 3 then bvBytes (Config.hmac384 j.key (aad ++ data)) else bvBytes (Config.hmac256 j.key (aad ++ data))) false

/-- The job of an engine completes on its latched material (R467, R468, R479). -/
def State.finishJob (s : State) (e : Nat) : State :=
  match tfind s.key.running e with
  | none => s
  | some j =>
    let s := { s with key := { s.key with running := terase s.key.running e } }
    match s.waitingDesc j.serial with
    | none => s
    | some d =>
      let type := if 5 < j.op then (if j.key.length = 48 then 3 else 2) else 0
      let l := cryptLens d j.op type
      match j.result l type with
      | some (data, tag) =>
        let s := if j.op ≤ 3 then s.writePayload d (16 + l.aad) data else s
        let s := if j.op % 2 = 0 then s.writePayload d (16 + l.aad + l.data) tag else s
        s.complete d St.ok (leBytes 4 j.gen.toNat)
      | none => ({ s with key := { s.key with authFail := s.key.authFail + 1 } }).complete d St.authFail
          (leBytes 4 j.gen.toNat)

/-- A crypto job completes. -/
def execKeyJobDone (dt engine : Nat) (s : State) : Result :=
  let s := s.elapse dt
  .next (if s.key.fault || s.pwr.state = .safeHold then s else s.finishJob engine)

/-! ### KEY_ATTEST (R472) -/

def State.keyAttest (s : State) (d : Desc) (payload : List Byte) (run : NvRun) : State :=
  match s.updateStop with
  | some st => s.complete d st
  | none =>
    let i := d.operand 0 2
    if isRoot i || i = provisionName then s.complete d St.usage
    else match s.validRec i with
    | none => s.complete d St.noRecord
    | some c =>
      if s.orphan i then (s.orphanUse i).complete d St.orphaned
      else if c.usage ≠ Usage.deriveOnly || !c.attest then s.complete d St.usage
      else if d.len = 0 then s.complete d St.empty
      else if d.len ≠ 136 then s.complete d St.length
      else match s.material i with
        | none => (s.orphanUse i).complete d St.orphaned
        | some m =>
          -- the counter lies in the block after those of the record slots (log entry 84)
          s.keyWrite d 8 run (fun s => { s with key := { s.key with attests := s.key.attests.tear } }) fun s =>
            let s := { s with key := { s.key with attests := s.key.attests.write (s.key.attest + 1) } }
            let devId := leBytes 16 s.id.deviceId.toNat
            let ctr := beBytes 4 s.key.attest.toNat
            let ctx := (padTo 136 payload).take 32 ++ s.key.md ++ devId ++ ctr
            let resp := kdf m (c.type = 3) Label.mgAttest ctx 32
            ((s.cachePut i m).writePayload d 32 (s.key.md ++ devId ++ ctr ++ resp ++ leBytes 4 0)).complete d St.ok

/-- Increments the attestation counter and computes RESPONSE (R472). -/
def execKeyAttest (dt ring index : Nat) (payload : List Byte) (run : NvRun) (s : State) : Result :=
  .next ((s.elapse dt).withDesc ring index opKeyAttest (fun _ => true) fun s d => s.keyAttest d payload run)

/-! ### KEY_EPOCH_ROLL, KEY_REMASK, TAMPER_EVENT -/

/-- A new EPOCH; every record is orphaned, jobs complete `TAMPERED`, and the roots are derived again at once (R479, R497). -/
def State.epochRoll (s : State) (d : Desc) : State :=
  match s.updateStop with
  | some st => s.complete d st
  | none =>
    if d.operand 0 1 ≠ 0xE7 then s.complete d St.badDesc
    else
      let s := ((s.newEpoch.destroyKeys).abortJobs St.tampered).deriveRoots
      let s := { s with boot := { s.boot with migration := [] } }
      (s.raise Ev.keyEpochRoll 0 []).complete d St.ok

def execKeyEpochRoll (dt ring index : Nat) (s : State) : Result :=
  .next ((s.elapse dt).withDesc ring index opKeyEpochRoll (fun _ => true) State.epochRoll)

/-- Every share is XORed with one fresh value (R464). -/
def State.remaskAll (s : State) : State :=
  let fresh := fun (k : Nat) (sh : Shares) => sh.remask (bvBytes (Config.freeBits 1 k (8 * sh.s0.length)))
  let s := { s with key := { s.key with
    cache := s.key.cache.zipIdx.map fun (p : (Nat × Shares) × Nat) => (p.1.1, fresh (s.free + p.2) p.1.2) } }
  let s := { s with free := s.free + s.key.cache.length }
  let s := { s with key := { s.key with
    link := s.key.link.zipIdx.map fun (p : (Nat × LinkKeys) × Nat) =>
      let k := s.free + 3 * p.2
      (p.1.1, ⟨fresh k p.1.2.up, fresh (k + 1) p.1.2.dn, fresh (k + 2) p.1.2.kw⟩) } }
  { s with free := s.free + 3 * s.key.link.length }

/-- The backup domain re-masks EPOCH (R464). -/
def State.remaskEpoch (s : State) : State :=
  match s.cal.epoch with
  | none => s
  | some (a, b) =>
    let r : BitVec 256 := Config.freeBits 1 s.free 256
    ({ s with cal := { s.cal with epoch := some (a ^^^ r, b ^^^ r) } }).draw

/-- Every REMASK × 0.1 ms the Key Store's shares, and every second EPOCH in the backup domain (R464). -/
def execKeyRemask (dt : Nat) (s : State) : Result :=
  let s := s.elapse dt
  let s := if s.key.fault || !s.due T.remask (s.reg F.KEY_CTRL_REMASK * (tickMs / 10)) then s else (s.mark T.remask).remaskAll
  .next (if s.due T.remaskEpoch tickS then (s.mark T.remaskEpoch).remaskEpoch else s)

/-- The active level of tamper input `n` under CAL_TAMPER_CTRL.MODE: none when `OFF` (R469). -/
def State.tamperMode (s : State) (n : Nat) : Nat := bits s.cal.tamperCtrl.toNat (2 * n) 2

/-- An enabled input shows its active level. -/
def State.tamperActive (s : State) (n : Nat) : Bool :=
  (s.tamperMode n = 1 && !s.cal.inputs.getLsbD n) || (s.tamperMode n = 2 && s.cal.inputs.getLsbD n)

/-- The destruction that follows a tamper event, and KEY_TAMPER (R470, steps 2 to 4). -/
def State.tamperDestroy (s : State) : State :=
  let s := { s with key := { s.key with tampered := true }, boot := { s.boot with migration := [] } }
  ((s.destroyKeys).abortJobs St.tampered).raise Ev.keyTamper 0 (leBytes 1 s.cal.tamperStatus.toNat)

/-- A tamper input that has shown its active level for FILTER samples of 32.768 kHz (R469) clears EPOCH and destroys every key (R470).
Without main power, the event reaches the Key Store at the next firmware start. `levels` are the levels of the four inputs, and
`now.env` counts the samples in a row at which the input has shown the level that it shows now (log entry 14). -/
def execTamperEvent (now : Timed Nat) (input : Nat) (levels : BitVec 4) (s : State) : Result :=
  let s := s.elapse now.dt
  let s := { s with cal := { s.cal with inputs := levels } }
  .next (if 4 ≤ input || !s.tamperActive input || now.env < bits s.cal.tamperCtrl.toNat 8 8 then s
    else
      let s := { s with cal := { s.cal with
        epoch := none
        tamperStatus := s.cal.tamperStatus ||| (1 <<< input)
        tamperTime := BitVec.ofNat 32 (s.cal.sec) } }
      if s.pwr.inReset then { s with key := { s.key with tamperLate := true } } else s.tamperDestroy)

end Sys2Proof.Machine
end

