-- ==== Sys2Proof/Machine/FabricOps.lean ====
section
/-! DEFINITION. The Fabric Interface's operations: frames and egress queues, links, the address claim, routing, the learning
table (R389 to R426). -/

namespace Sys2Proof.Machine

/-! ### Ports -/

/-- A fabric port. -/
def State.fabPort (s : State) (p : Nat) : FabPort := tget s.fab.ports FabPort.reset p

def State.modPort (s : State) (p : Nat) (f : FabPort → FabPort) : State :=
  { s with fab := { s.fab with ports := tmod s.fab.ports FabPort.reset p f } }

/-- A port's transmitter is on (R425); in `RECOVERY`, that of FAB_0 alone (R498). -/
def State.portLit (s : State) (p : Nat) : Bool :=
  p < s.id.part.fabs &&
  (match s.pwr.state with
    | .run => s.unitOn U.fab && s.act F.FAB_PORT_CTRL_EN p = 1
    | .waitHost => if s.unitOn U.fab then s.act F.FAB_PORT_CTRL_EN p = 1 else (s.fabPort p).modPresent
    | .recovery => p = 0
    | _ => false)

/-- A port may transmit HELLOs, and takes frames in: under FAULT it sends idle blocks only (R425). -/
def State.portOn (s : State) (p : Nat) : Bool := s.portLit p && !s.fab.fault

/-- FAB_n_TX_DIS is high on a port that may not transmit; the idle blocks of FAULT need it low (R389, R425). -/
def State.txDis (s : State) (p : Nat) : Bool := !s.portLit p

def State.linkUp (s : State) (p : Nat) : Bool := (s.fabPort p).link = .up

/-- The `UP` ports (R397). -/
def State.upPorts (s : State) : List Nat := (List.range 6).filter s.linkUp

/-- The device's claimed address, 0 while it holds none (R392). -/
def State.claimedAddr (s : State) : Nat := if s.fab.addrState = .claimed then s.fab.addr else 0

/-- The Fabric Interface serves a descriptor, or the status that stops it (R49, R425). -/
def State.fabStop (s : State) : Option Nat :=
  if !s.unitOn U.fab then some St.notConfigured else if s.fab.fault then some St.unitFault else none

/-! ### Frames (R392 to R395) -/

/-- Broadcast address. -/
def fabBroadcast : Nat := 0x3FFF

-- Class codes (R393).
namespace FC
def stop : Nat := 0
def time : Nat := 1
def control : Nat := 2
def correction : Nat := 3
def relay : Nat := 4
def bulk : Nat := 5
end FC

-- Fields of a frame.
def frDst (f : List Byte) : Nat := fieldLE f 0 2
def frSrc (f : List Byte) : Nat := fieldLE f 2 2
def frClass (f : List Byte) : Nat := byteAt f 4
def frType (f : List Byte) : Nat := byteAt f 5
def frHops (f : List Byte) : Nat := byteAt f 6
def frFlood (f : List Byte) : Bool := bit (byteAt f 7) 0
def frLocal (f : List Byte) : Bool := bit (byteAt f 7) 1
def frLength (f : List Byte) : Nat := fieldLE f 8 2
def frSeq (f : List Byte) : Nat := fieldLE f 10 2
def frBody (f : List Byte) : List Byte := f.drop 16

/-- The CRC of a frame: over bytes 0 to 11 with HOP_LIMIT zero, and the payload (R392). -/
def frameCrc (head body : List Byte) : Nat := crc32c (head.take 6 ++ [0] ++ (head.drop 7).take 5 ++ body)

/-- A frame (R392). -/
def mkFrame (dst src cls type hops flags seq : Nat) (body : List Byte) : List Byte :=
  let head := leBytes 2 dst ++ leBytes 2 src ++ leBytes 1 cls ++ leBytes 1 type ++ leBytes 1 hops ++ leBytes 1 flags ++
    leBytes 2 body.length ++ leBytes 2 seq
  head ++ leBytes 4 (frameCrc head body) ++ body

/-- A type is assigned in a class (R393). -/
def typeAssigned (cls type : Nat) : Bool :=
  match cls with
  | 2 => type ≤ 4
  | 5 => type ≤ 1
  | 0 | 1 | 3 | 4 => type = 0
  | _ => false

/-- A received frame passes R394. -/
def frameOk (f : List Byte) : Bool :=
  16 ≤ f.length && frLength f ≤ 2048 && frLength f = (frBody f).length &&
  fieldLE f 12 4 = frameCrc (f.take 12) (frBody f) &&
  typeAssigned (frClass f) (frType f) && frDst f < 2 ^ 14 && frSrc f < 2 ^ 14 && byteAt f 7 < 4 &&
  1 ≤ frHops f && frHops f ≤ 32

/-- A frame with its HOP_LIMIT replaced; the CRC stands (R392). -/
def withHops (f : List Byte) (h : Nat) : List Byte := f.take 6 ++ leBytes 1 h ++ f.drop 7

/-- Depth of the egress queue of a class (R395). -/
def queueDepth (cls : Nat) : Nat :=
  match cls with
  | 0 => 8
  | 1 => 16
  | 2 => 64
  | 3 => 32
  | 4 => 128
  | _ => 64

/-- A frame joins a port's egress queue; the Bool says so. A full queue drops it (R395). -/
def State.enqueueFrame (s : State) (p : Nat) (f : List Byte) : State × Bool :=
  let q := tget (s.fabPort p).queues [] (frClass f)
  if q.length < queueDepth (frClass f) then
    (s.modPort p fun r => { r with queues := tset r.queues [] (frClass f) (q ++ [f]) }, true)
  else (s.modPort p fun r => { r with drop := r.drop + 1 }, false)

/-- A frame on every `UP` port but one; the Bool says that some port queued it. -/
def State.floodQueued (s : State) (but : Option Nat) (f : List Byte) : State × Bool :=
  (s.upPorts.filter fun p => some p ≠ but).foldl (fun (acc : State × Bool) p =>
    let (s, q) := acc.1.enqueueFrame p f
    (s, acc.2 || q)) (s, false)

def State.floodFrame (s : State) (but : Option Nat) (f : List Byte) : State := (s.floodQueued but f).1

/-- The next SEQ of a class (R392). -/
def State.nextSeq (s : State) (cls : Nat) : State × Nat :=
  let n := (tget s.fab.seqs 0 cls + 1) % 65536
  ({ s with fab := { s.fab with seqs := tset s.fab.seqs 0 cls n } }, n)

/-- A flood is originated on every `UP` port; the Bool says that some port queued it. -/
def State.originateQueued (s : State) (src cls type hops flags : Nat) (body : List Byte) : State × Bool :=
  let (s, n) := s.nextSeq cls
  s.floodQueued none (mkFrame fabBroadcast src cls type hops flags n body)

def State.originateFlood (s : State) (src cls type hops flags : Nat) (body : List Byte) : State :=
  (s.originateQueued src cls type hops flags body).1

/-- Bytes of a device's EUI-64 in a fabric frame: most significant first (R392). -/
def euiBytes (e : Nat) : List Byte := beBytes 8 e

/-- The first waiting frame of the highest class (R395). -/
def firstFrame (q : Tbl (List (List Byte))) : Option (Nat × List Byte) :=
  (List.range 6).findSome? fun c => (tget q [] c).head?.map fun f => (c, f)

/-! ### Duplicate cache (R406) -/

/-- A key was accepted within 1 s. -/
def State.dupSeen (s : State) (k : List Nat) : Bool :=
  s.fab.dup.any fun e => e.1 = k && s.clk.counter < e.2 + tickS

/-- A key enters the cache; expired ones leave it, and of 512 the oldest gives way. -/
def State.dupAdd (s : State) (k : List Nat) : State :=
  let l := s.fab.dup.filter fun e => decide (s.clk.counter < e.2 + tickS)
  let l := if 512 ≤ l.length then l.drop 1 else l
  { s with fab := { s.fab with dup := l ++ [(k, s.clk.counter)] } }

/-- An accepted flood goes on to every other `UP` port while its HOP_LIMIT is above 1. -/
def State.relayFlood (s : State) (p : Nat) (f : List Byte) : State :=
  if 1 < frHops f then s.floodFrame (some p) (withHops f (frHops f - 1)) else s

/-! ### Links (R396, R397) -/

/-- Why a link fell; its code in FAB_LINK_DOWN is not stated. -/
inductive LinkCause where
  | timeout | neighbour | disabled | pcs
deriving DecidableEq, Repr

def LinkCause.code : LinkCause → Nat
  | .timeout => (Config.freeBits 4 0 8).toNat
  | .neighbour => (Config.freeBits 4 1 8).toNat
  | .disabled => (Config.freeBits 4 2 8).toNat
  | .pcs => (Config.freeBits 4 3 8).toNat

/-- Frames queued on a port. -/
def FabPort.queued (r : FabPort) : Nat := (r.queues.map fun e => e.2.length).sum

/-- A link falls to `DOWN`. -/
def State.linkFall (s : State) (p : Nat) (why : LinkCause) : State :=
  let r := s.fabPort p
  if r.link = .down then s
  else
    let s' := s.modPort p fun r => { r with
      link := .down, queues := [], drop := r.drop + BitVec.ofNat 32 r.queued
      linkDowns := if r.link = .up then r.linkDowns + 1 else r.linkDowns }
    let s' := s'.forgetNeighbour p
    if r.link = .up then
      ({ s' with fab := { s'.fab with lsaDirty := true } }).raise Ev.fabLinkDown p (leBytes 1 p ++ leBytes 1 why.code)
    else s'

/-- A link comes `UP`. -/
def State.linkRise (s : State) (p : Nat) : State :=
  let s := s.modPort p fun r => { r with link := .up }
  ({ s with fab := { s.fab with lsaDirty := true } }).raise Ev.fabLinkUp p (leBytes 1 p)

def AddrState.code : AddrState → Nat
  | .none => 0
  | .tentative => 1
  | .claimed => 2
  | .conflict => 3

/-- State codes of R24. -/
def DevState.code : DevState → Nat
  | .boot => 0
  | .recovery => 1
  | .waitHost => 2
  | .run => 3
  | .safeHold => 4

/-- The address shown in HELLOs and FAB_STATUS: the candidate or claimed address, 0 otherwise (R396, R400, R425). -/
def State.shownAddr (s : State) : Nat :=
  match s.fab.addrState with
  | .tentative | .claimed => s.fab.addr
  | _ => 0

/-- The EUI-64 of the last valid HELLO on a port within 30 ms, else 0. -/
def State.heard (s : State) (p : Nat) : Nat :=
  match (s.fabPort p).helloAt with
  | some t => if s.clk.counter ≤ t + 30 * tickMs then (s.fabPort p).nbrEui else 0
  | none => 0

/-- The 24 bytes of a HELLO body (R396). -/
def State.helloBody (s : State) (p : Nat) : List Byte :=
  euiBytes s.id.eui.toNat ++ euiBytes (s.heard p) ++ leBytes 2 s.shownAddr ++ leBytes 1 s.fab.addrState.code ++ leBytes 1 p ++
  leBytes 1 s.pwr.state.code ++ leBytes 1 (s.act F.FAB_PORT_CTRL_COST p) ++ leBytes 1 (b2n s.stp.latched) ++ [0]

/-- A HELLO goes out on a port. -/
def State.sendHello (s : State) (p : Nat) : State :=
  let (s, n) := s.nextSeq FC.control
  (s.enqueueFrame p (mkFrame fabBroadcast s.claimedAddr FC.control 0 1 2 n (s.helloBody p))).1

/-- Every 10 ms, each port that may transmit sends a HELLO. -/
def State.helloAll (s : State) : State :=
  ((List.range 6).filter s.portOn).foldl State.sendHello (s.mark T.hello)

/-! ### Addresses (R398 to R400) -/

def State.addrFixed (s : State) : Bool := s.act F.FAB_CTRL_ADDR_MODE = 1

/-- The candidate of an attempt (R398, R399). -/
def State.candidate (s : State) (a : Nat) : Nat :=
  if s.addrFixed then s.act F.FAB_CTRL_ADDR
  else if a = 0 ∧ s.act F.FAB_CTRL_ADDR ≠ 0 then s.act F.FAB_CTRL_ADDR
  else crc32c (euiBytes s.id.eui.toNat ++ [BitVec.ofNat 8 a]) % 2 ^ 14

/-- The device floods a CLAIM; its SRC is 0 (R399). -/
def State.sendClaim (s : State) (defend : Bool) : State :=
  s.originateFlood 0 FC.control 1 32 1
    (euiBytes s.id.eui.toNat ++ leBytes 2 s.fab.addr ++ leBytes 1 s.fab.attempt ++ leBytes 1 (b2n defend) ++ leBytes 4 0)

/-- `CONFLICT` is entered (R399, R400). -/
def State.enterConflict (s : State) : State :=
  ({ s with fab := { s.fab with addrState := .conflict } }).raise Ev.fabAddrConflict 0 []

/-- The claim starts at the first attempt from `a` whose candidate is not passed over; `fuel` attempts are left. -/
def State.claimFrom (s : State) : Nat → Nat → State
  | 0, _ => s.enterConflict
  | fuel + 1, a =>
    let c := s.candidate a
    if !s.addrFixed ∧ (c = 0 ∨ c = fabBroadcast) then s.claimFrom fuel (a + 1)
    else ({ s with fab := { s.fab with
        addrState := .tentative, addr := c, attempt := a, claimAt := s.clk.counter, claimSent := s.clk.counter } }).sendClaim false

/-- Claiming starts (R399). -/
def State.startClaim (s : State) : State := s.claimFrom 16 0

/-- The device's address or candidate is met in use by another EUI-64 (R399 step 3, R400). -/
def State.meetAddr (s : State) (eui addr : Nat) : State :=
  let own := s.id.eui.toNat
  if eui = own ∨ addr = 0 ∨ addr ≠ s.fab.addr then s
  else match s.fab.addrState with
    | .tentative =>
      if own < eui then s.sendClaim true
      else if s.addrFixed then s.enterConflict
      else s.claimFrom (15 - s.fab.attempt) (s.fab.attempt + 1)
    | .claimed =>
      if own < eui then s.sendClaim true
      else if s.addrFixed then s.enterConflict
      else (s.raise Ev.fabAddrChanged 0 []).claimFrom (15 - s.fab.attempt) (s.fab.attempt + 1)
    | _ => s

/-- A CLAIM is received: acted on once, and relayed but in `CONFLICT` (R399, R400, R406). -/
def State.takeClaim (s : State) (p : Nat) (f : List Byte) : State :=
  let b := frBody f
  let eui := beNat (slice b 0 8)
  let key := [1, eui, byteAt b 10, byteAt b 11 % 2]
  if b.length ≠ 16 || s.dupSeen key || s.fab.addrState = .none then s
  else
    let s := (s.dupAdd key).meetAddr eui (fieldLE b 8 2)
    if s.fab.addrState = .conflict then s else s.relayFlood p f

/-- A HELLO is received (R397); one with a SRC that loops meets the address only (R394, R400). -/
def State.takeHello (s : State) (p : Nat) (f : List Byte) : State :=
  let b := frBody f
  let eui := beNat (slice b 0 8)
  let s := s.meetAddr eui (fieldLE b 16 2)
  let s := if (s.fabPort p).link ≠ .down && (s.fabPort p).nbrEui ≠ eui then s.linkFall p .neighbour else s
  let s := s.modPort p fun r => { r with
    nbrEui := eui, nbrAddr := fieldLE b 16 2 % 2 ^ 14, helloAt := some s.clk.counter
    link := if r.link = .down && r.blockLock && !r.hiBer then .init else r.link }
  if (s.fabPort p).link = .init && beNat (slice b 8 8) = s.id.eui.toNat then s.linkRise p else s

/-! ### Routing (R401 to R404) -/

/-- The database changes: a run of R402 falls due. -/
def State.lsdbChanged (s : State) : State :=
  { s with fab := { s.fab with spfDue := some (s.fab.spfDue.getD s.clk.counter) } }

/-- An LSA enters the database. -/
def State.putLsa (s : State) (src : Nat) (e : Lsa) : State :=
  let old := tfind s.fab.lsdb src
  let s := { s with fab := { s.fab with lsdb := tput s.fab.lsdb src e } }
  if old.map (fun o => (o.eui, o.links)) = some (e.eui, e.links) then s else s.lsdbChanged

/-- Links of an LSA body. -/
def lsaLinks (b : List Byte) : List (Nat × Nat × Nat) :=
  (List.range (byteAt b 12)).map fun k => (fieldLE b (16 + 4 * k) 2 % 2 ^ 14, byteAt b (18 + 4 * k), byteAt b (19 + 4 * k))

/-- An LSA is received (R401). -/
def State.takeLsa (s : State) (p : Nat) (f : List Byte) : State :=
  let b := frBody f
  let eui := beNat (slice b 0 8)
  let seq : Word := BitVec.ofNat 32 (fieldLE b 8 4)
  let fresh := match tfind s.fab.lsdb (frSrc f) with
    | none => true
    | some e => e.eui ≠ eui || (let d := (seq - e.seq).toNat; 1 ≤ d && d < 2 ^ 31)
  if 6 < byteAt b 12 || b.length ≠ 16 + 4 * byteAt b 12 || s.fab.addrState = .none then s
  else
    let s := s.meetAddr eui (frSrc f)
    if !fresh then s
    else
      let s := s.putLsa (frSrc f) ⟨eui, seq, lsaLinks b, s.clk.counter⟩
      if s.fab.addrState = .conflict then s else s.relayFlood p f

/-- The device's own links, as its LSA lists them. -/
def State.ownLinks (s : State) : List (Nat × Nat × Nat) :=
  s.upPorts.map fun p => ((s.fabPort p).nbrAddr, p, s.act F.FAB_PORT_CTRL_COST p)

/-- The device floods its LSA, which enters its own database too (R401, R402). -/
def State.sendLsa (s : State) : State :=
  let seq : Word := match s.fab.lsaSeq with
    | some q => q + 1
    | none => BitVec.ofNat 32 (s.now / 1000000)
  let links := s.ownLinks
  let body := euiBytes s.id.eui.toNat ++ leBytes 4 seq.toNat ++ leBytes 1 links.length ++ leBytes 3 0 ++
    (links.map fun (a, p, c) => leBytes 2 a ++ leBytes 1 p ++ leBytes 1 c).flatten
  let s := { s with fab := { s.fab with lsaSeq := some seq, lsaAt := some s.clk.counter, lsaDirty := false } }
  (s.putLsa s.fab.addr ⟨s.id.eui.toNat, seq, links, s.clk.counter⟩).originateFlood s.fab.addr FC.control 2 32 1 body

/-- An LSA is due: every LSA_PERIOD, or after a change of the `UP` links, at most one in 50 ms (R401). -/
def State.lsaIsDue (s : State) : Bool :=
  s.pwr.state = .run && s.fab.addrState = .claimed && !s.fab.fault &&
  (match s.fab.lsaAt with
    | none => true
    | some t => t + s.reg F.FAB_ROUTE_LSA_PERIOD * tickS ≤ s.clk.counter || (s.fab.lsaDirty && t + 50 * tickMs ≤ s.clk.counter))

/-- A path found by R402: cost, hops, first-hop neighbour, first port. -/
structure Path where
  cost : Nat
  hops : Nat
  first : Nat
  port : Nat
deriving DecidableEq, Repr

/-- The order of R402: cost, then hops, then the lower first-hop address, then the lower port. -/
def Path.lt (a b : Path) : Bool :=
  a.cost < b.cost || (a.cost = b.cost && (a.hops < b.hops || (a.hops = b.hops &&
    (a.first < b.first || (a.first = b.first && a.port < b.port)))))

/-- A directed link: from, to, port, cost. -/
abbrev Edge := Nat × Nat × Nat × Nat

/-- The links that both ends list (R402). -/
def lsdbEdges (db : Tbl Lsa) : List Edge :=
  (db.map fun (u, e) => e.links.filterMap fun (v, p, c) =>
    if (tfind db v).any (fun f => f.links.any fun l => l.1 = u) then some (u, v, p, c) else none).flatten

/-- The path over one more link. -/
def Path.extend (src : Nat) (d : Path) (e : Edge) : Path :=
  if e.1 = src then ⟨e.2.2.2, 1, e.2.1, e.2.2.1⟩ else ⟨d.cost + e.2.2.2, d.hops + 1, d.first, d.port⟩

/-- One pass over all links. -/
def relaxAll (src : Nat) (es : List Edge) (d : Tbl Path) : Tbl Path :=
  es.foldl (fun d e => match tfind d e.1 with
    | none => d
    | some p =>
      let q := p.extend src e
      match tfind d e.2.1 with
      | none => tput d e.2.1 q
      | some r => if q.lt r then tput d e.2.1 q else d) d

def iter {α : Type} (f : α → α) : Nat → α → α
  | 0, a => a
  | n + 1, a => iter f n (f a)

/-- Shortest paths from a device over the database. -/
def shortest (db : Tbl Lsa) (src : Nat) : Tbl Path :=
  iter (relaxAll src (lsdbEdges db)) db.length [(src, ⟨0, 0, 0, 7⟩)]

/-- The failover port of R403 for a destination: on a port other than PRIMARY, through a neighbour closer to the destination
than by way of this device; lowest cost, then lowest port. -/
def alternate (links : List (Nat × Nat × Nat)) (from' : Nat → Tbl Path) (self dst primary : Nat) (mine : Nat) : Nat :=
  let cands := links.filterMap fun (n, p, c) =>
    if p = primary then none
    else match tfind (from' n) dst, tfind (from' n) self with
      | some a, some b => if a.cost < b.cost + mine then some (p, c + a.cost) else none
      | _, _ => none
  ((sortBy (fun e => e.2 * 8 + e.1) cands).head?.map (·.1)).getD 7

/-- A word of the next-hop table (R403). -/
def hopWord (primary alt : Nat) (valid self : Bool) (hops cost : Nat) : Word :=
  BitVec.ofNat 32 (primary + 8 * alt + 64 * b2n valid + 128 * b2n self + 256 * min hops 255 + 65536 * min cost 0xFFFF)

/-- An entry of a destination that no run has reached (log entry 19). -/
def hopNone : Word := hopWord 7 7 false false 0 0

/-- A run of R402 writes the next-hop table. -/
def State.runSpf (s : State) : State :=
  let self := s.claimedAddr
  let db := s.fab.lsdb
  let mine := if s.fab.addrState = .claimed then shortest db self else []
  let links := (lsdbEdges db).filterMap fun (u, v, p, c) => if u = self then some (v, p, c) else none
  let far := links.map fun l => (l.1, shortest db l.1)
  let from' := fun n => ((far.find? fun e => e.1 = n).map (·.2)).getD []
  let table := mine.foldl (fun t (d, p) =>
    if d = fabBroadcast then t
    else if d = self then tset t hopNone d (hopWord 7 7 true true 0 0)
    else if 32 < p.hops then t
    else tset t hopNone d (hopWord p.port (alternate links from' self d p.port p.cost) true false p.hops p.cost)) []
  ({ s with fab := { s.fab with nextHop := table, spfDue := none, spfRuns := s.fab.spfRuns + 1 } }).raise Ev.fabRoutes 0 []

/-- The port that R404 gives for a destination. -/
def State.routePort (s : State) (dst : Nat) : Option Nat :=
  let w := (tget s.fab.nextHop hopNone dst).toNat
  if !bit w 6 then none
  else if s.linkUp (bits w 0 3) then some (bits w 0 3)
  else if s.linkUp (bits w 3 3) then some (bits w 3 3)
  else none

/-! ### The learning table (R410 to R416) -/

/-- Buckets of R411. -/
def learnH1 (k : Nat) : Nat := crc32c (euiBytes k) % 1024
def learnH2 (k : Nat) : Nat := crc32c (euiBytes (k ^^^ 0x5A5A5A5A5A5A5A5A)) % 1024

/-- The slots of a key's bucket in a way. -/
def learnSlots (w k : Nat) : List Nat :=
  (List.range 4).map fun i => if w = 0 then 4 * learnH1 k + i else 4096 + 4 * learnH2 k + i

def learnStash : List Nat := [8192, 8193, 8194, 8195]

/-- The one-pass lookup: the first match in the order of R411. -/
def learnFind (t : Tbl LearnEntry) (k : Nat) : Option Nat :=
  (learnSlots 0 k ++ learnSlots 1 k ++ learnStash).find? fun i => (tfind t i).any fun e => e.key = k

def learnFree (t : Tbl LearnEntry) (l : List Nat) : Option Nat := l.find? fun i => (tfind t i).isNone

/-- Entries on a path moved from its end into a free slot (R412, R413): the table and the slot left free. -/
def moveAlong (t : Tbl LearnEntry) (free : Nat) : List Nat → Tbl LearnEntry × Nat
  | [] => (t, free)
  | s :: rest =>
    let t := match tfind t s with
      | some e => tput t free e
      | none => t
    moveAlong (terase t s) s rest

/-- The search of R412 from a step; `path` lists the slots last first. Answers the path and the free slot. -/
def learnSearch (t : Tbl LearnEntry) : Nat → Nat → Nat → Nat → List Nat → Option (List Nat × Nat)
  | 0, _, _, _, _ => none
  | fuel + 1, step, cur, w, path =>
    let b := learnSlots w cur
    match learnFree t b with
    | some f => some (path, f)
    | none =>
      let s := b.getD (step % 4) 0
      learnSearch t fuel (step + 1) ((tfind t s).map (·.key) |>.getD 0) (1 - w) (s :: path)

/-- Insertion (R412): the table and DETAIL, or none for `LEARN_FULL`. -/
def learnInsert (t : Tbl LearnEntry) (e : LearnEntry) : Option (Tbl LearnEntry × Nat) :=
  match learnFind t e.key with
  | some i => some (tmod' t i, 0)
  | none =>
    match learnFree t (learnSlots 0 e.key) with
    | some i => some (tput t i e, 0)
    | none =>
      match learnFree t (learnSlots 1 e.key) with
      | some i => some (tput t i e, 0)
      | none =>
        match learnSearch t 32 1 e.key 0 [] with
        | some (path, f) =>
          let (t, free) := moveAlong t f path
          some (tput t free e, path.length)
        | none => (learnFree t learnStash).map fun i => (tput t i e, 0xFF)
where
  /-- An entry that is there is updated: MSEQ stays. -/
  tmod' (t : Tbl LearnEntry) (i : Nat) : Tbl LearnEntry :=
    tput t i { e with mseq := ((tfind t i).map (·.mseq)).getD e.mseq }

/-- The 16 bytes of an entry in host memory (R410). -/
def LearnEntry.bytes (e : LearnEntry) : List Byte :=
  leBytes 8 e.key ++ leBytes 2 (e.home % 2 ^ 14 + 2 ^ 15) ++ leBytes 1 e.port ++
  leBytes 1 (b2n e.hit + 2 * b2n e.stale + 4 * b2n e.fixed) ++ leBytes 2 e.mseq ++ leBytes 2 0

/-- An entry changes. -/
def State.modLearn (s : State) (i : Nat) (f : LearnEntry → LearnEntry) : State :=
  match tfind s.fab.learn i with
  | some e => { s with fab := { s.fab with learn := tput s.fab.learn i (f e) } }
  | none => s

/-- A lookup; a match sets HIT (R411). -/
def State.learnLookup (s : State) (k : Nat) : State × Option LearnEntry :=
  match learnFind s.fab.learn k with
  | some i => (s.modLearn i fun e => { e with hit := true }, (tfind s.fab.learn i).map fun e => { e with hit := true })
  | none => (s, none)

/-- The 32 bytes of a learn event record (R415). -/
def learnRecord (kind portA portB homeA homeB eui timeA timeB mseqA mseqB : Nat) : List Byte :=
  leBytes 1 kind ++ leBytes 1 portA ++ leBytes 1 portB ++ [0] ++ leBytes 2 homeA ++ leBytes 2 homeB ++ leBytes 8 eui ++
  leBytes 4 timeA ++ leBytes 4 timeB ++ leBytes 2 mseqA ++ leBytes 2 mseqB ++ leBytes 4 0

/-- Opcodes of the FAB range (R419 to R423). -/
def opFabSend : Nat := 0x0C01
def opFabRecv : Nat := 0x0C02
def opFabLearn : Nat := 0x0C03
def opFabLearnEvent : Nat := 0x0C04
def opFabModule : Nat := 0x0C05

/-- A waiting FAB_LEARN_EVENT moves as many whole records as its payload holds (R422). -/
def State.serveLearn (s : State) : State :=
  match s.waiters opFabLearnEvent with
  | [] => s
  | d :: _ =>
    if s.fab.events.isEmpty then s
    else
      let n := min (d.len / 32) s.fab.events.length
      let ev := s.fab.events.take n
      let s := { s with fab := { s.fab with events := s.fab.events.drop n } }
      (s.writePayload d 0 ev.flatten).complete d St.ok (leBytes 2 n)

/-- A learn event record is queued (R415). -/
def State.pushLearn (s : State) (rec' : List Byte) (conflict : Bool) : State :=
  if 256 ≤ s.fab.events.length then
    { s with fab := { s.fab with learnDrop := s.fab.learnDrop + 1, evqOverflow := true } }
  else
    let was := s.fab.events.isEmpty
    let s := { s with fab := { s.fab with events := s.fab.events ++ [rec'] } }
    let s := if was then s.raise Ev.fabLearnReady 0 [] else s
    let s := if conflict then s.raise Ev.fabLearnConflict 0 [] else s
    s.serveLearn

/-- Compact time in whole µs, low 32 bits (R415). -/
def us32 (t : Nat) : Nat := t / 1000 % 2 ^ 32

/-- A new sighting is reported and enters the filter (R414). -/
def State.newSighting (s : State) (g : Sighting) (kind : Nat) : State :=
  if 64 ≤ s.fab.filter.length then { s with fab := { s.fab with learnDrop := s.fab.learnDrop + 1 } }
  else ({ s with fab := { s.fab with filter := s.fab.filter ++ [g] } }).pushLearn
    (learnRecord kind g.port 0xFF g.home 0 g.eui (us32 g.time) 0 g.mseq 0) false

/-- Sightings whose WINDOW has passed leave the filter (R414). -/
def State.retireSightings (s : State) : State :=
  { s with fab := { s.fab with
    filter := s.fab.filter.filter fun g => s.clk.counter < g.seen + s.reg F.FAB_LEARN_CTRL_WINDOW * tickMs } }

/-- A sighting (R414). -/
def State.sight (s : State) (p : Nat) (f : List Byte) : State :=
  let b := frBody f
  let g : Sighting := ⟨fieldBE b, frSrc f, p, s.now, s.clk.counter, fieldLE b 16 2, false⟩
  if frClass f ≠ FC.relay || g.eui = 0 || s.act F.FAB_PORT_CTRL_LEARN_EN p = 0 then s
  else
    let s := s.retireSightings
    let known := (learnFind s.fab.learn g.eui).bind fun i => (tfind s.fab.learn i).map fun e => (i, e)
    match known.filter fun e => e.2.home = g.home && e.2.port = g.port with
    | some (i, _) => s.modLearn i fun e => { e with hit := true, mseq := g.mseq }
    | none =>
      match s.fab.filter.find? fun h => h.eui = g.eui with
      | some h =>
        if (h.home = g.home && h.port = g.port) || h.reported then s
        else
          ({ s with fab := { s.fab with filter := s.fab.filter.map fun x =>
              if x = h then { x with reported := true } else x } }).pushLearn
            (learnRecord 2 h.port g.port h.home g.home g.eui (us32 h.time) (us32 g.time) h.mseq g.mseq) true
      | none => s.newSighting g (if known.isSome then 3 else 1)
where
  /-- SRC_EUI of a relay header. -/
  fieldBE (b : List Byte) : Nat := beNat (slice b 8 8)

/-- The sweeper visits one entry (R416). -/
def State.ageEntry (s : State) (i : Nat) (e : LearnEntry) : State :=
  if e.fixed then s
  else if e.hit then s.modLearn i fun e => { e with hit := false, stale := false }
  else if !e.stale then s.modLearn i fun e => { e with stale := true }
  else
    ({ s with fab := { s.fab with learn := terase s.fab.learn i } }).draw.pushLearn
      (learnRecord 4 e.port 0xFF e.home 0 e.key (Config.freeBits 5 s.free 32).toNat 0 e.mseq 0) false

/-! ### Frames for the host (R420) -/

/-- A frame for FAB_RECV: it goes to the first waiting descriptor, or is dropped. -/
def State.hostFrame (s : State) (src cls type port srcEui : Nat) (data : List Byte) : State :=
  let s := s.raise Ev.fabHostRx 0 []
  match s.waiters opFabRecv with
  | [] => { s with fab := { s.fab with hostDrop := s.fab.hostDrop + 1 } }
  | d :: _ =>
    let res := leBytes 2 src ++ leBytes 1 cls ++ leBytes 1 type ++ leBytes 1 port ++ [0] ++ leBytes 2 data.length ++
      leBytes 8 srcEui
    (s.writePayload d 0 (data.take d.len)).complete d (if d.len < data.length then St.more else St.ok) res

end Sys2Proof.Machine
end

