-- ==== Sys2Proof/Machine/Image.lean ====
section
/-! DEFINITION. Firmware images in flash: header and payload checks, loading, measurement, and serving an image to a recovering
neighbour (R488 to R492, R498, R499). -/

namespace Sys2Proof.Machine

/-! ### Flash (R488) -/

/-- What an erased byte of flash reads as (log entry 9). -/
def flashFill : Byte := 0xFF

/-- Flash offset of a slot: true for B. -/
def slotBase (b : Bool) : Nat := if b then 0x04000000 else 0

def slotSize : Nat := 0x04000000

def State.flashRead (s : State) (a n : Nat) : List Byte := readMem s.boot.flash flashFill a n

def State.flashWrite (s : State) (a : Nat) (b : List Byte) : State :=
  { s with boot := { s.boot with flash := writeMem s.boot.flash flashFill a b } }

/-- A slot is erased. -/
def State.eraseSlot (s : State) (b : Bool) : State :=
  { s with boot := { s.boot with
    flash := s.boot.flash.filter fun e => e.1 < slotBase b || slotBase b + slotSize ≤ e.1 } }

/-- The header in a slot. -/
def State.slotHeader (s : State) (b : Bool) : List Byte := s.flashRead (slotBase b) 1024

/-! ### The header (R489) -/

def hdPart (h : List Byte) : Nat := fieldLE h 6 2
def hdSigner (h : List Byte) : Nat := byteAt h 9
/-- TRIAL_BOOTS; one outside 1 to 15 counts as the nearest of them (DESIGN CHOICE, log entry 84). -/
def hdTrials (h : List Byte) : Nat := clampNat 1 15 (byteAt h 10)
def hdSvn (h : List Byte) : Word := BitVec.ofNat 32 (fieldLE h 12 4)
def hdPayloadLen (h : List Byte) : Nat := fieldLE h 16 4
def hdEntry (h : List Byte) : Word := BitVec.ofNat 32 (fieldLE h 20 4)
def hdIv (h : List Byte) : List Byte := slice h 24 12
def hdTag (h : List Byte) : List Byte := slice h 36 16
def hdPubKey (h : List Byte) : List Byte := slice h 52 96

/-- SIGNER of R455: SHA-384 of the public key. -/
def hdSignerHash (h : List Byte) : List Byte := bvBytes (Config.sha384 (hdPubKey h))

/-- A component of an image. -/
structure Comp where
  type : Nat
  offset : Nat
  length : Nat
  load : Nat
deriving DecidableEq, Repr

/-- The components that COMP_COUNT counts. -/
def hdComps (h : List Byte) : List Comp :=
  (List.range (min 16 (byteAt h 11))).map fun k =>
    let o := 196 + 16 * k
    Comp.mk (byteAt h o) (fieldLE h (o + 4) 4) (fieldLE h (o + 8) 4) (fieldLE h (o + 12) 4)

/-- A microcode or security component, which ends in a vendor signature. -/
def Comp.vendor (c : Comp) : Bool := 1 ≤ c.type && c.type ≤ 4

/-- The core banks: 24 banks of 256 KiB, and where the cores see them (R428, R445). -/
def coreBytes : Nat := 24 * 262144
def coreBase : Nat := 0x10000000

/-- Reserved bytes of a header: the fields of R489 without a meaning. -/
def hdReserved (h : List Byte) : List Byte :=
  slice h 452 476 ++ ((List.range 16).map fun k => slice h (198 + 16 * k) 2).flatten

/-- Sizes and components, check 4 of R490; the rules of R489 that no other check names are tested with it (log entry 26). -/
def hdShape (h : List Byte) : Bool :=
  let cs := hdComps h
  16 ≤ hdPayloadLen h && hdPayloadLen h ≤ slotSize - 1024 &&
  1 ≤ byteAt h 11 && byteAt h 11 ≤ 16 &&
  (cs.all fun c => c.type ≤ 5 && c.offset + c.length ≤ hdPayloadLen h && (c.type ≠ 0 || c.load + c.length ≤ coreBytes) &&
    (!c.vendor || 96 ≤ c.length)) &&
  ([1, 2, 3, 4].all fun t => (cs.filter fun c => c.type = t).length = 1) && (cs.any fun c => c.type = 0) &&
  coreBase ≤ (hdEntry h).toNat && (hdEntry h).toNat < coreBase + coreBytes

/-- The first check of R490 that a header fails. -/
def State.headerCheck (s : State) (h : List Byte) : Option Nat :=
  if fieldLE h 0 4 ≠ 0x4D49474D then some 1
  else if fieldLE h 4 2 ≠ 1 || (hdReserved h).any (· ≠ 0) then some 2
  else if !((hdPart h = 0xFFFF || hdPart h = s.id.part.code) && byteAt h 8 ≤ s.id.revision.toNat) then some 3
  else if !hdShape h then some 4
  else if hdSvn h < s.boot.svnMin then some 5
  else if !(1 ≤ hdSigner h && hdSigner h ≤ 3 && Config.sha384 (hdPubKey h) = Config.signerHash (hdSigner h)) then some 6
  else if !Config.ecdsaOk (hdPubKey h) (slice h 928 96) (Config.sha384 (h.take 928)) then some 7
  else none

/-! ### The payload (R491) -/

/-- The plaintext of a ciphertext under a header. -/
def plainOf (h ct : List Byte) : List Byte :=
  let k := bvBytes (Config.imageKey (hdSigner h))
  xorBytes ct ((List.range ct.length).map (Config.gcmStream k (hdIv h)))

/-- The plaintext of a component. -/
def compBytes (plain : List Byte) (c : Comp) : List Byte := slice plain c.offset c.length

/-- The three checks of R491. -/
def payloadOk (h ct : List Byte) : Bool :=
  let plain := plainOf h ct
  bvBytes (Config.sha384 ct) = slice h 148 48 &&
  bvBytes (Config.gcmTag (bvBytes (Config.imageKey (hdSigner h))) (hdIv h) (h.take 36) ct) = hdTag h &&
  ((hdComps h).filter Comp.vendor).all fun c =>
    let b := compBytes plain c
    Config.ecdsaOk (bvBytes Config.vendorKey) (b.drop (c.length - 96)) (Config.sha384 (b.take (c.length - 96)))

/-- The payload in a slot. -/
def State.slotPayload (s : State) (b : Bool) : List Byte :=
  s.flashRead (slotBase b + 1024) (hdPayloadLen (s.slotHeader b))

/-- Why a slot is rejected: a check of R490, or 8 for R491. -/
def State.slotFail (s : State) (b : Bool) : Option Nat :=
  match s.headerCheck (s.slotHeader b) with
  | some n => some n
  | none => if payloadOk (s.slotHeader b) (s.slotPayload b) then none else some 8

/-! ### Measurement (R492) -/

/-- Register `i` is extended by a digest. -/
def State.extendReg (s : State) (i : Nat) (d : BitVec 384) : State :=
  { s with boot := { s.boot with
    meas := tset s.boot.meas 0 i (Config.sha384 (bvBytes (tget s.boot.meas 0 i) ++ bvBytes d)) } }

/-- A write to a block of the boot region: none where the region is read-only, or PFAIL_N stops NV writes (R485, R501). -/
def State.bootWrite (s : State) (block : Nat) (run : NvRun) : State × NvEnd :=
  if s.nvHeld then (s, .cut false) else if s.readOnly Region.boot then (s, .worn) else s.nvWrite Region.boot block run

/-- Register `i` is extended by a digest, and the measurement log takes an entry, in its block of the boot region: a write that is cut
off extends nothing, and a log that is worn takes no more (log entry 84). -/
def State.extend (s : State) (i type : Nat) (d : BitVec 384) (run : NvRun) : State × NvEnd :=
  match s.bootWrite 2 run with
  | (s, .cut power) => (s, .cut power)
  | (s, .worn) => (s.extendReg i d, .done)
  | (s, .done) =>
    let s := s.extendReg i d
    ({ s with boot := { s.boot with log := s.boot.log ++ [(i, type, d)] } }, .done)

/-- An extension that nothing cuts off. -/
def State.measured (s : State) (i type : Nat) (d : BitVec 384) : State := (s.extend i type d .plain).1

/-- An entry of the measurement log. -/
def logEntry (e : Nat × Nat × BitVec 384) : List Byte := leBytes 1 e.1 ++ leBytes 1 e.2.1 ++ leBytes 14 0 ++ bvBytes e.2.2

/-- The register that a component extends. -/
def Comp.register (c : Comp) : Nat :=
  match c.type with
  | 0 => 4
  | 1 => 2
  | 5 => 5
  | _ => 3

/-- What TYPE an entry of registers 0, 1 and 6 holds is not stated. -/
def logType (i : Nat) : Nat := (Config.freeBits 10 i 8).toNat

/-- Measurement of an image, in the order of the registers. -/
def State.measure (s : State) (h plain : List Byte) : State :=
  let s := (s.measured 0 (logType 0) Config.romDigest).measured 1 (logType 1) (Config.sha384 h)
  let s := [2, 3, 4, 5].foldl (fun s r =>
    ((hdComps h).filter fun c => c.register = r).foldl (fun s c => s.measured r c.type (Config.sha384 (compBytes plain c))) s) s
  s.measured 6 (logType 6) (Config.sha384 (leBytes 4 s.boot.svnMin.toNat ++
    ((List.range 4).map fun k => bvBytes (Config.signerHash k)).flatten))

/-- The image of a slot is loaded and measured: its applications into the core banks, its security firmware and microcodes into their
units (R489, R493, step 4). -/
def State.loadImage (s : State) (b : Bool) : State :=
  let h := s.slotHeader b
  let plain := plainOf h (s.slotPayload b)
  let banks := ((hdComps h).filter fun c => c.type = 0).foldl (fun m c => writeMem m memFill c.load (compBytes plain c)) s.mem.banks
  let units := ((hdComps h).filter Comp.vendor).foldl (fun t c => tput t c.type (compBytes plain c)) []
  ({ s with
    mem := { s.mem with banks := banks }
    boot := { s.boot with booted := b, loaded := true, header := h, units := units } }).measure h plain

/-! ### Serving a neighbour (R499) -/

def opBootPeerServe : Nat := 0x1006

/-- The next bytes of the ACTIVE image go to a recovering neighbour; after the last byte the descriptor completes. A device without a
claimed address originates nothing (R400): the neighbour asks again. -/
def State.servePeer (s : State) (p eui part next : Nat) : State :=
  if s.fab.addrState ≠ .claimed then s
  else match (s.waiters opBootPeerServe).find? fun d => d.operand 0 1 = p && d.operand 1 8 = eui with
  | none => s
  | some d =>
    let h := s.slotHeader s.boot.ptr.active
    let total := 1024 + hdPayloadLen h
    if !(hdPart h = 0xFFFF || hdPart h = part) then s.complete d St.noUnit
    else
      let n := min 2040 (total - next)
      let (s, q) := s.nextSeq FC.bulk
      let body := leBytes 1 2 ++ leBytes 4 next ++ s.flashRead (slotBase s.boot.ptr.active + next) n
      let s := (s.enqueueFrame p (mkFrame fabBroadcast s.claimedAddr FC.bulk 1 1 2 q body)).1
      if total ≤ next + n then s.complete d St.ok else s

end Sys2Proof.Machine
end

