-- ==== Sys2Proof/Machine/FieldOps.lean ====
section
/-! DEFINITION. The Field Store's operations: cells and tiles in DRAM, the tile cache, claims on cells, table entries, map
deltas (R106 to R137, R312, R317, R322). -/

namespace Sys2Proof.Machine

/-! ### DRAM -/

/-- A unit stores bytes in DRAM, and an access that fails raises MEM_ECC_UNCORR (R448, R450). -/
def State.dramWrite (s : State) (a : Nat) (b : List Byte) : State := (s.dramStore a b).noteTraceDrop

/-- A unit has read bytes of DRAM: the uncorrectable errors that the read met count (R448). -/
def State.dramSeen (s : State) (a n : Nat) : State := (s.dramErrors (s.dramFaults a n)).noteTraceDrop

/-- First byte of the staging images, none before the Field Store has a map area (R115). -/
def State.imageBase (s : State) : Option Nat := if s.unitOn U.fld then some (2 ^ 20 * s.act F.FLD_MAP_BASE_BASE) else none

/-- The parts of the images: offset, entries, bytes of an entry. The spec does not say where in the 5 MiB each table lies: machine
table, rate tables, section table (DESIGN CHOICE, log entry 74). -/
def imageParts : List (Nat × Nat × Nat) := [(0, 256, 64), (0x10000, 64, 512), (0x100000, 262144, 16)]

/-- The part, entry and byte of it that lie at an offset of the images. -/
def imageSpot (o : Nat) : Option (Nat × Nat × Nat) :=
  (List.range 3).findSome? fun k =>
    let (base, n, w) := imageParts.getD k (0, 0, 1)
    if base ≤ o ∧ o < base + n * w then some (k, (o - base) / w, (o - base) % w) else none

/-- The staged table that is a part of the images. -/
def Conf.part (c : Conf) (k : Nat) : Tbl (List Byte) := match k with | 0 => c.machines | 1 => c.rates | _ => c.sections

/-- A byte of DRAM: in the images, that of the staged tables. -/
def State.dramByte (s : State) (a : Nat) : Byte :=
  match s.imageBase with
  | some base =>
    match (if base ≤ a then imageSpot (a - base) else none) with
    | some (k, e, o) => (tget (s.cfg.staged.part k) [] e).getD o 0
    | none => tget s.mem.dram memFill a
  | none => tget s.mem.dram memFill a

/-- Bytes of DRAM. -/
def State.dramRead (s : State) (a n : Nat) : List Byte :=
  match s.imageBase with
  | some base =>
    if a < base + 5 * 2 ^ 20 ∧ base < a + n then (List.range n).map fun i => s.dramByte (a + i) else readMem s.mem.dram memFill a n
  | none => readMem s.mem.dram memFill a n

/-- The images leave an area: their bytes stay behind in DRAM, as the copy of R115 leaves them. -/
def State.leaveImages (s : State) : State :=
  match s.imageBase with
  | none => s
  | some base =>
    let clear := s.mem.dram.filter fun e => (if base ≤ e.1 then imageSpot (e.1 - base) else none).isNone
    let left := (List.range 3).foldl (fun m k =>
      let (o, _, w) := imageParts.getD k (0, 0, 1)
      (s.cfg.staged.part k).foldl (fun m e => writeMem m memFill (base + o + w * e.1) (e.2.take w)) m) clear
    { s with mem := { s.mem with dram := left } }

/-- DRAM accesses of the units wait until READY (R450). -/
def State.dramHeld (s : State) : Bool := !s.mem.ready && !s.mem.trainFail

/-- An access to `n` bytes of DRAM meets an uncorrectable error (R448, R450). -/
def State.dramBad (s : State) (a n : Nat) : Bool :=
  s.mem.trainFail || s.mem.bad.any fun w => a < w + 8 && w < a + n

/-! ### Fields (R106 to R114) -/

/-- A field that the active configuration enables. -/
def State.fieldOn (s : State) (f : Nat) : Bool := s.unitOn U.fld && f < 16 && s.act F.FLD_FIELD_CTRL_EN f = 1

/-- Cell size of a field in mm. -/
def Conf.cellMm (c : Conf) (f : Nat) : Nat :=
  match c.get F.FLD_FIELD_CTRL_CELL f with
  | 0 => 50
  | 1 => 100
  | 2 => 200
  | _ => 400

def State.cellMm (s : State) (f : Nat) : Nat := s.cfg.active.cellMm f
def State.tilesE (s : State) (f : Nat) : Nat := s.act F.FLD_FIELD_SIZE_TILES_E f
def State.tilesN (s : State) (f : Nat) : Nat := s.act F.FLD_FIELD_SIZE_TILES_N f

/-- The cell that holds a position, none outside the grid (R109). -/
def State.cellAt (s : State) (f : Nat) (east north : Rat) : Option Cell :=
  let mm : Rat := s.cellMm f
  let c := ((east - signed 32 (s.act F.FLD_FIELD_MAP_E0_MAP_E0 f)) / mm).floor
  let r := ((north - signed 32 (s.act F.FLD_FIELD_MAP_N0_MAP_N0 f)) / mm).floor
  if c < 0 ∨ r < 0 ∨ (256 * s.tilesE f : Nat) ≤ c ∨ (256 * s.tilesN f : Nat) ≤ r then none
  else some ⟨f, c.toNat, r.toNat⟩

/-- A cell lies in its field's grid. -/
def State.inGrid (s : State) (c : Cell) : Bool := c.col < 256 * s.tilesE c.field && c.row < 256 * s.tilesN c.field

/-- Address of a layer word (R113): layer 0 coverage, 1 exclusion, 2 to 5 prescription. -/
def State.layerWordAt (s : State) (f te tn layer : Nat) : Nat :=
  4096 * s.act F.FLD_FIELD_DIR_FRAME f + 64 * (tn * s.tilesE f + te) + 8 * layer

def State.layerWord (s : State) (f te tn layer : Nat) : Nat := leNat (s.dramRead (s.layerWordAt f te tn layer) 8)

-- Fields of a layer word.
def lwPresent (w : Nat) : Bool := bit w 0
def lwFill (w : Nat) : Bool := bit w 1
def lwDirty (w : Nat) : Bool := bit w 2
def lwFrame (w : Nat) : Nat := bits w 12 22

/-- Bytes of a layer's tile (R111). -/
def tileBytes (layer : Nat) : Nat := match layer with | 0 => 16384 | 1 => 8192 | _ => 65536

/-- Byte of a cell in its tile, by layer (R111). -/
def cellByte (layer : Nat) (c : Cell) : Nat :=
  let x := c.col % 256
  let y := c.row % 256
  match layer with
  | 0 => y * 64 + x / 4
  | 1 => y * 32 + x / 8
  | _ => y * 256 + x

/-! ### The tile cache (R116 to R118) -/

/-- The set of a line: the manual does not say which lines share a set, so the index is free (log entry 20). -/
def cacheSet (l : CacheLine) : Nat :=
  (Config.freeBits 7 ((((l.field * 8 + l.layer) * 256 + l.tileE) * 256 + l.tileN) * 64 + l.block) 8).toNat

/-- Two lines hold the same block of the same layer and tile. -/
def CacheLine.same (a b : CacheLine) : Bool :=
  a.field = b.field && a.layer = b.layer && a.tileE = b.tileE && a.tileN = b.tileN && a.block = b.block

/-- The line of a cell in a layer whose tile lies in a frame, as yet without its bytes. -/
def lineFor (layer : Nat) (c : Cell) (frame : Nat) : CacheLine :=
  let o := cellByte layer c
  ⟨c.field, layer, c.col / 256, c.row / 256, o / 1024, 4096 * frame + o / 1024 * 1024, [], false⟩

/-- A dirty line's bytes go to DRAM. -/
def State.writeBack (s : State) (l : CacheLine) : State := if l.dirty then s.dramWrite l.base l.data else s

/-- Line `l` comes to the front of its set with other bytes, behind it the set's seven latest. -/
def State.putLine (s : State) (l : CacheLine) : State :=
  let set := (tget s.fld.cache [] (cacheSet l)).filter fun x => !x.same l
  let s := (set.drop 7).foldl State.writeBack s
  { s with fld := { s.fld with cache := tset s.fld.cache [] (cacheSet l) (l :: set.take 7) } }

/-- A line is looked up, and filled on a miss; none where the fill meets an uncorrectable error (R118). A hit of a cell sample is
counted. -/
def State.getLine (s : State) (l : CacheLine) (sample : Bool) : State × Option CacheLine :=
  match (tget s.fld.cache [] (cacheSet l)).find? fun x => x.same l with
  | some x =>
    (({ s with fld := { s.fld with hits := if sample then s.fld.hits + 1 else s.fld.hits } }).putLine x, some x)
  | none =>
    let s := { s with fld := { s.fld with misses := s.fld.misses + 1 } }
    let bad := s.dramBad l.base 1024
    let s := s.dramSeen l.base 1024
    if bad then
      (({ s with fld := { s.fld with eccBlocks := min 0xFFFF (s.fld.eccBlocks + 1), eccSeen := true } }).raise
        Ev.fldTileEcc 0 [], none)
    else
      let x := { l with data := s.dramRead l.base 1024, dirty := false }
      (s.putLine x, some x)

/-- Lines that satisfy `p` are written back and invalidated (R117). -/
def State.dropLines (s : State) (p : CacheLine → Bool) : State :=
  let gone := (s.fld.cache.map fun e => e.2.filter p).flatten
  let s := gone.foldl State.writeBack s
  { s with fld := { s.fld with cache := s.fld.cache.filterMap fun e =>
      let l := e.2.filter fun x => !p x
      if l.isEmpty then none else some (e.1, l) } }

/-- Every dirty line is written back, and stays (R138). -/
def State.cleanLines (s : State) : State :=
  let s := ((s.fld.cache.map fun e => e.2).flatten).foldl State.writeBack s
  { s with fld := { s.fld with
    cache := s.fld.cache.map fun (e : Nat × List CacheLine) => (e.1, e.2.map fun l => { l with dirty := false }) } }

/-- One layer of a cell is read through the cache: `absent` for a layer that is not present (with its word), `excluded` where
R110, R118 or the FAULT of R138 says so, else the byte. -/
inductive LayerRead where
  | absent (word : Nat)
  | excluded
  | byte (b : Nat)
deriving DecidableEq, Repr

def State.readLayer (s : State) (layer : Nat) (c : Cell) (sample : Bool) : State × LayerRead :=
  if s.fld.fault || !s.fieldOn c.field || !s.inGrid c then (s, .excluded)
  else
    let w := s.layerWord c.field (c.col / 256) (c.row / 256) layer
    let s := s.dramSeen (s.layerWordAt c.field (c.col / 256) (c.row / 256) layer) 8
    if !lwPresent w then (s, .absent w)
    else match s.getLine (lineFor layer c (lwFrame w)) sample with
      | (s, some x) => (s, .byte (byteAt x.data (cellByte layer c % 1024)))
      | (s, none) => (s, .excluded)

/-- A coverage cell: its code, none where it reads excluded (R110, R114, R118). -/
def State.coverage (s : State) (c : Cell) (sample : Bool := true) : State × Option Nat :=
  match s.readLayer 0 c sample with
  | (s, .byte b) => (s, some (bits b (2 * (c.col % 4)) 2))
  | (s, _) => (s, none)

/-- An exclusion sample: true where the cell is excluded (R110, R114, R118). -/
def State.exclusion (s : State) (c : Cell) : State × Bool :=
  match s.readLayer 1 c true with
  | (s, .byte b) => (s, bit b (c.col % 8))
  | (s, .absent w) => (s, lwFill w)
  | (s, .excluded) => (s, true)

/-- A prescription sample: the rate index, none where its line is refused and the cell reads excluded (R110, R114, R118). -/
def State.prescription (s : State) (layer : Nat) (c : Cell) : State × Option Nat :=
  match s.readLayer (2 + layer) c true with
  | (s, .byte b) => (s, some b)
  | (s, .absent _) => (s, some 0)
  | (s, .excluded) => (s, none)

/-- A coverage cell is written in its line, which is filled first where it is not cached; nothing is written where the tile is absent
or the line is refused. `change` sets DIRTY of the tile (R113, R116). -/
def State.setCov (s : State) (c : Cell) (code : Nat) (change : Bool) : State :=
  if !s.inGrid c then s
  else
    let wa := s.layerWordAt c.field (c.col / 256) (c.row / 256) 0
    let w := leNat (s.dramRead wa 8)
    let s := s.dramSeen wa 8
    if !lwPresent w then s
    else match s.getLine (lineFor 0 c (lwFrame w)) false with
      | (s, none) => s
      | (s, some x) =>
        let o := cellByte 0 c % 1024
        let b := putBits (byteAt x.data o) (2 * (c.col % 4)) 2 code
        let s := s.putLine { x with data := x.data.set o (BitVec.ofNat 8 b), dirty := true }
        if change && !lwDirty w then s.dramWrite wa (leBytes 8 (w + 4)) else s

/-! ### Claims (R317 to R322) -/

/-- The claim store's key of a cell. -/
def Cell.key (c : Cell) : Nat := (c.field * 65536 + c.col) * 65536 + c.row

def cellOfKey (k : Nat) : Cell := ⟨k / 65536 / 65536, k / 65536 % 65536, k % 65536⟩

/-- A claim is removed, and its cell's prior value restored. -/
def State.dropClaim (s : State) (k : Nat) (c : Claim) : State :=
  ({ s with sec := { s.sec with claims := terase s.sec.claims k } }).setCov (cellOfKey k) c.prior false

/-- Every claim that satisfies `p` is released (R322); under a FAULT of the Section Engine claims stay as they are (R330). -/
def State.releaseClaims (s : State) (p : Nat → Claim → Bool) : State :=
  if s.sec.fault then s
  else (s.sec.claims.filter fun e => p e.1 e.2).foldl (fun s e => s.dropClaim e.1 e.2) s

/-- A confirmed cell joins the delta buffer where its field has peers (R135). -/
def State.noteDelta (s : State) (c : Cell) : State :=
  if s.act F.FLD_FIELD_CTRL_PEER_MASK c.field = 0 then s
  else if s.fld.deltas.length < 4096 then { s with fld := { s.fld with deltas := s.fld.deltas ++ [c] } }
  else ({ s with fld := { s.fld with overflow := true } }).raise Ev.fldSyncOverflow 0 []

/-- A claim is confirmed: the cell takes min (prior + 1, 2) (R320). -/
def State.confirmClaim (s : State) (k : Nat) (c : Claim) : State :=
  let cell := cellOfKey k
  (({ s with sec := { s.sec with claims := terase s.sec.claims k } }).setCov cell (min (c.prior + 1) 2) true).noteDelta cell

/-- A cell counts as applied once more (R137). Of a claimed cell the prior value rises and DIRTY stays as it is (DESIGN CHOICE, log
entry 74). -/
def State.bumpCell (s : State) (c : Cell) : State :=
  match tfind s.sec.claims c.key with
  | some k => { s with sec := { s.sec with claims := tput s.sec.claims c.key { k with prior := min (k.prior + 1) 2 } } }
  | none =>
    match s.coverage c false with
    | (s, some 0) => s.setCov c 1 true
    | (s, some 1) => s.setCov c 2 true
    | (s, _) => s

/-! ### Map deltas (R134 to R137) -/

/-- The enabled field of a FIELD_ID. No rule makes the identifiers distinct: of two fields with one the lower number counts
(DESIGN CHOICE, log entry 74). -/
def State.fieldById (s : State) (id : Nat) : Option Nat :=
  (List.range 16).find? fun f => s.fieldOn f && s.act F.FLD_FIELD_ID_FIELD_ID f = id

/-- The cells of a delta body for a field (R136); a RUN that would pass the tile's edge is held at it. -/
def deltaCells (f : Nat) (b : List Byte) : List Cell :=
  ((List.range (fieldLE b 8 2)).map fun k =>
    let o := 12 + 6 * k
    let x := byteAt b (o + 3)
    (List.range (min (byteAt b (o + 4)) (255 - x) + 1)).map fun r =>
      Cell.mk f (256 * byteAt b o + x + r) (256 * byteAt b (o + 1) + byteAt b (o + 2))).flatten

/-- RUN values of a body that R44 holds at 255 − X. -/
def deltaClamps (b : List Byte) : Nat :=
  ((List.range (fieldLE b 8 2)).filter fun k => 255 - byteAt b (15 + 6 * k) < byteAt b (16 + 6 * k)).length

def State.applyDelta (s : State) (f : Nat) (b : List Byte) : State := (deltaCells f b).foldl State.bumpCell s

/-- A delta body from a peer (R137): a skip of SEQ raises FLD_SYNC_GAP; of more than 64 pairs the later ones are not kept. A SEQ that
repeats or goes back is a skip with its count modulo 2³², and a body of a wrong length or ENTRY_COUNT is dropped and counted nowhere
(DESIGN CHOICE, log entry 74). -/
def State.takeDelta (s : State) (src : Nat) (b : List Byte) : State :=
  let id := fieldLE b 0 4
  let seq : Word := BitVec.ofNat 32 (fieldLE b 4 4)
  let n := fieldLE b 8 2
  if n = 0 || 339 < n || b.length ≠ 12 + 6 * n || s.fld.fault || !s.unitOn U.fld then s
  else match s.fieldById id with
    | none => { s with fld := { s.fld with foreign := min 255 (s.fld.foreign + 1) } }
    | some f =>
      let s := match s.fld.senders.find? fun r => r.src = src && r.fieldId = id with
        | some r =>
          let miss := seq - r.seq - 1
          let s := { s with fld := { s.fld with
            senders := s.fld.senders.map fun x => if x = r then { x with seq := seq } else x } }
          if miss = 0 then s
          else s.raise Ev.fldSyncGap src (leBytes 2 src ++ leBytes 1 f ++ leBytes 4 miss.toNat)
        | none =>
          if s.fld.senders.length < 64 then
            { s with fld := { s.fld with senders := s.fld.senders ++ [SenderRec.mk src id seq] } }
          else s
      s.applyDelta f b

/-- A unicast frame is originated towards its destination (R404), by a device that has its address (R400); the Bool says that it was
queued. -/
def State.sendUnicast (s : State) (dst cls type hops : Nat) (body : List Byte) : State × Bool :=
  if s.fab.addrState ≠ .claimed then (s, false)
  else match s.routePort dst with
  | none => ({ s with fab := { s.fab with noRoute := s.fab.noRoute + 1 } }, false)
  | some p =>
    let (s, n) := s.nextSeq cls
    s.enqueueFrame p (mkFrame dst s.claimedAddr cls type hops 0 n body)

/-- A list in runs of at most `n`. -/
def chunks {α : Type} (n : Nat) : Nat → List α → List (List α)
  | 0, _ => []
  | fuel + 1, l => if l.isEmpty then [] else l.take n :: chunks n fuel (l.drop n)

/-- The entry of one cell in a delta body. -/
def deltaEntry (c : Cell) : List Byte :=
  leBytes 1 (c.col / 256) ++ leBytes 1 (c.row / 256) ++ leBytes 1 (c.row % 256) ++ leBytes 1 (c.col % 256) ++ [0, 0]

/-- One frame of a field's deltas goes to each peer of the field's mask, one cell an entry (R135, R136, log entry 21); the first SEQ
of a field is 1 (DESIGN CHOICE, log entry 74). -/
def State.sendDelta (s : State) (f : Nat) (cells : List Cell) : State :=
  let seq := tget s.fld.sendSeq 0 f + 1
  let body := leBytes 4 (s.act F.FLD_FIELD_ID_FIELD_ID f) ++ leBytes 4 seq.toNat ++ leBytes 2 cells.length ++ leBytes 2 0 ++
    (cells.map deltaEntry).flatten
  let s := { s with fld := { s.fld with sendSeq := tset s.fld.sendSeq 0 f seq } }
  (List.range 8).foldl (fun s m =>
    let a := s.act F.FLD_SYNC_PEER_ADDR m
    if bit (s.act F.FLD_FIELD_CTRL_PEER_MASK f) m && a ≠ 0 then (s.sendUnicast a FC.control 3 32 body).1 else s) s

/-- Every PERIOD superframes the buffered cells are sent (R135). -/
def State.sendDeltas (s : State) : State :=
  let cells := s.fld.deltas
  let s := { s with fld := { s.fld with deltas := [], sentAt := s.now / 20000000 } }
  (List.range 16).foldl (fun s f =>
    let mine := cells.filter fun c => c.field = f
    (chunks 339 mine.length mine).foldl (fun s l => s.sendDelta f l) s) s

/-! ### Tables (R119 to R123) -/

/-- Machine table entries in a configuration. -/
def Conf.machine (c : Conf) (m : Nat) : List Byte := padTo 64 (tget c.machines [] m)

-- Fields of a machine entry (R120).
def meEui (e : List Byte) : Nat := fieldLE e 0 8
def meEn (e : List Byte) : Bool := bit (byteAt e 8) 0
def meTrailed (e : List Byte) : Bool := bit (byteAt e 8) 1
def meField (e : List Byte) : Nat := byteAt e 9
def mePriority (e : List Byte) : Nat := byteAt e 10
def meProducts (e : List Byte) : Nat := byteAt e 11
def meCount (e : List Byte) : Nat := fieldLE e 12 2
def meBase (e : List Byte) : Nat := fieldLE e 16 4
def meAntFwd (e : List Byte) : Int := signed 16 (fieldLE e 20 2)
def meAntRight (e : List Byte) : Int := signed 16 (fieldLE e 22 2)
def meAntUp (e : List Byte) : Int := signed 16 (fieldLE e 24 2)
def meHitchFwd (e : List Byte) : Int := signed 16 (fieldLE e 26 2)
def meHitchRight (e : List Byte) : Int := signed 16 (fieldLE e 28 2)
def meTrailLen (e : List Byte) : Nat := fieldLE e 30 2
def meLayer (e : List Byte) (p : Nat) : Nat := byteAt e (32 + 4 * p)
def meTable (e : List Byte) (p : Nat) : Nat := byteAt e (33 + 4 * p)

/-- The active entry of a machine. -/
def State.machine (s : State) (m : Nat) : List Byte := s.cfg.active.machine m

/-- A machine that the active machine table enables. -/
def State.machineOn (s : State) (m : Nat) : Bool := s.unitOn U.fld && m < s.machines && meEn (s.machine m)

/-- The enabled machine of an EUI-64. -/
def State.machineByEui (s : State) (eui : Nat) : Option Nat :=
  (List.range s.machines).find? fun m => s.machineOn m && meEui (s.machine m) = eui

/-- Section configuration of a configuration: 16 bytes with STATE zero. -/
def Conf.sectionEntry (c : Conf) (i : Nat) : List Byte := padTo 16 (tget c.sections [] i)

-- Fields of a section entry (R121).
def seXFwd (e : List Byte) : Int := signed 16 (fieldLE e 0 2)
def seYRight (e : List Byte) : Int := signed 16 (fieldLE e 2 2)
def seWidth (e : List Byte) : Nat := fieldLE e 4 2
def seLength (e : List Byte) : Nat := fieldLE e 6 2
def seLeadOn (e : List Byte) : Nat := bits (fieldLE e 8 4) 0 11
def seLeadOff (e : List Byte) : Nat := bits (fieldLE e 8 4) 11 11
def seProducts (e : List Byte) : Nat := bits (fieldLE e 8 4) 22 4
def seEn (e : List Byte) : Bool := bit (fieldLE e 8 4) 26

/-- Value `index` of a rate table (R123). -/
def State.rateValue (s : State) (t index : Nat) : Nat := fieldLE (padTo 512 (tget s.cfg.active.rates [] t)) (2 * index) 2

/-- A machine entry as R44 and R120 store it, and the clamps made. -/
def fixMachine (b : List Byte) : List Byte × Nat :=
  let c := fun (o n hi : Nat) => (leBytes n (min (fieldLE b o n) hi), b2n (hi < fieldLE b o n))
  let layer := fun p => let v := byteAt b (32 + 4 * p); if 3 < v ∧ v < 0xFF then (0xFF, 1) else (v, 0)
  let prod := (List.range 4).map fun p =>
    let (l, k) := layer p
    let (t, j) := c (33 + 4 * p) 1 63
    (leBytes 1 l ++ t ++ [0, 0], k + j)
  let (f, n1) := c 9 1 15
  let (pr, n2) := c 11 1 4
  let (cnt, n3) := c 12 2 1024
  let (base, n4) := c 16 4 262143
  let (tl, n5) := c 30 2 30000
  (slice b 0 8 ++ leBytes 1 (byteAt b 8 % 4) ++ f ++ slice b 10 1 ++ pr ++ cnt ++ [0, 0] ++ base ++ slice b 20 10 ++ tl ++
    (prod.map (·.1)).flatten ++ List.replicate 16 0, n1 + n2 + n3 + n4 + n5 + (prod.map (·.2)).sum)

/-- A section entry as R44, R121 and R122 store it, and the clamps made. -/
def fixSection (b : List Byte) : List Byte × Nat :=
  let w := clampNat 1 30000 (fieldLE b 4 2)
  let l := clampNat 1 10000 (fieldLE b 6 2)
  let on := min (seLeadOn b) 2000
  let off := min (seLeadOff b) 2000
  (slice b 0 4 ++ leBytes 2 w ++ leBytes 2 l ++
    leBytes 4 (on + 2 ^ 11 * off + 2 ^ 22 * seProducts b + 2 ^ 26 * b2n (seEn b)) ++ leBytes 4 0,
    b2n (w ≠ fieldLE b 4 2) + b2n (l ≠ fieldLE b 6 2) + b2n (on ≠ seLeadOn b) + b2n (off ≠ seLeadOff b))

/-- Entry size, entries on the part, and stored form of a table of R132. -/
def tblSize (t : Nat) : Nat := match t with | 0 => 64 | 1 => 16 | _ => 512

def State.tblLimit (s : State) (t : Nat) : Nat :=
  match t with | 0 => s.machines | 1 => s.id.part.sections | _ => 64

def tblFix (t : Nat) (b : List Byte) : List Byte × Nat :=
  match t with | 0 => fixMachine b | 1 => fixSection b | _ => (b, 0)

def Conf.table (c : Conf) (t : Nat) : Tbl (List Byte) := match t with | 0 => c.machines | 1 => c.sections | _ => c.rates

def Conf.setTable (c : Conf) (t : Nat) (v : Tbl (List Byte)) : Conf :=
  match t with
  | 0 => { c with machines := v }
  | 1 => { c with sections := v }
  | _ => { c with rates := v }

/-! ### Tiles (R128 to R131) -/

/-- A frame lies in the map area after its reserved 5 MiB (R115, R130). -/
def State.inMapArea (s : State) (frame size : Nat) : Bool :=
  let a := 4096 * frame
  1048576 * (s.act F.FLD_MAP_BASE_BASE + 5) ≤ a &&
  a + size ≤ 1048576 * (s.act F.FLD_MAP_BASE_BASE + s.act F.FLD_MAP_SIZE_SIZE)

/-- The Section Engine holds a claim on a tile. -/
def State.tileClaimed (s : State) (f te tn : Nat) : Bool :=
  s.sec.claims.any fun e => let c := cellOfKey e.1; c.field = f && c.col / 256 = te && c.row / 256 = tn

/-- A coverage byte with its cells of code 3 stored as code 2 (R130). -/
def noClaims (b : Byte) : Byte := b &&& ~~~(b &&& (b >>> 1) &&& 0x55)

/-- Records of a tile load in payload order, `fuel` of them at most: the state, the status and the records applied (R130). R130 gives no
order to its tests: FRAME_RANGE comes first, then CLAIMED, then LENGTH, and the layer word has DIRTY 0 (DESIGN CHOICE, log entry 74). -/
def State.loadTiles (s : State) (f : Nat) : Nat → List Byte → Nat → State × Nat × Nat
  | 0, _, n => (s, St.ok, n)
  | fuel + 1, p, n =>
    if p.isEmpty then (s, St.ok, n)
    else if p.length < 8 then (s, St.length, n)
    else
      let te := byteAt p 0
      let tn := byteAt p 1
      let layer := byteAt p 2
      let present := bit (byteAt p 3) 0
      let frame := bits (fieldLE p 4 4) 0 22
      if 5 < layer || s.tilesE f ≤ te || s.tilesN f ≤ tn || (present && !s.inMapArea frame (tileBytes layer)) then
        (s, St.frameRange, n)
      else if layer = 0 && s.tileClaimed f te tn then (s, St.claimed, n)
      else
        let size := if present then tileBytes layer else 0
        if p.length < 8 + size then (s, St.length, n)
        else
          let data := slice p 8 size
          let data := if layer = 0 then data.map noClaims else data
          let s := s.dropLines fun l => l.field = f && l.tileE = te && l.tileN = tn
          let s := s.dramWrite (4096 * frame) data
          let s := s.dramWrite (s.layerWordAt f te tn layer) (leBytes 8 (byteAt p 3 % 4 + 4096 * frame))
          s.loadTiles f fuel (p.drop (8 + size)) (n + 1)

/-- A coverage tile's bytes with each claimed cell at its prior value (R131). -/
def State.withPriors (s : State) (f te tn : Nat) (tile : List Byte) : List Byte :=
  s.sec.claims.foldl (fun t e =>
    let c := cellOfKey e.1
    if c.field = f && c.col / 256 = te && c.row / 256 = tn then
      let o := cellByte 0 c
      t.set o (BitVec.ofNat 8 (putBits (byteAt t o) (2 * (c.col % 4)) 2 e.2.prior))
    else t) tile

/-- Records of a tile save over a list of tiles: the state, the payload, the records written, and the tile at which to go on
(R131). -/
def State.saveTiles (s : State) (f layer room : Nat) (dirtyOnly : Bool) :
    List (Nat × Nat) → List Byte → Nat → State × List Byte × Nat × Option Nat
  | [], out, n => (s, out, n, none)
  | (te, tn) :: rest, out, n =>
    let wa := s.layerWordAt f te tn layer
    let w := leNat (s.dramRead wa 8)
    let s := s.dramSeen wa 8
    if dirtyOnly && layer = 0 && !lwDirty w then s.saveTiles f layer room dirtyOnly rest out n
    else
      let size := if lwPresent w then tileBytes layer else 0
      if room < out.length + 8 + size then (s, out, n, some (tn * 256 + te))
      else
        let s := s.dropLines fun l => l.field = f && l.tileE = te && l.tileN = tn
        let data := if lwPresent w then s.dramRead (4096 * lwFrame w) size else []
        let s := s.dramSeen (4096 * lwFrame w) size
        let data := if layer = 0 then s.withPriors f te tn data else data
        let s := if layer = 0 && lwDirty w then s.dramWrite wa (leBytes 8 (w - 4)) else s
        s.saveTiles f layer room dirtyOnly rest
          (out ++ leBytes 1 te ++ leBytes 1 tn ++ leBytes 1 layer ++ leBytes 1 (w % 4) ++ leBytes 4 (lwFrame w) ++ data) (n + 1)

/-- The status that stops a descriptor, FAULT before a missing configuration; one that needs DRAM also where training failed (R138,
R450, DEDUCED, log entries 22 and 43). -/
def State.fldStop (s : State) (dram : Bool) : Option Nat :=
  if s.fld.fault then some St.unitFault else if !s.unitOn U.fld then some St.notConfigured
  else if dram && s.mem.trainFail then some St.unitFault else none

end Sys2Proof.Machine
end

