-- ==== Sys2Proof/Machine/Time.lean ====
section
/-! DEFINITION. The Timebase: samples, source selection, the servo, time quality, stamps, alarms, PTP (R67 to R105). -/

namespace Sys2Proof.Machine

/-! ### The stamp queue (R94 to R96) -/

/-- Advance of the clock in one tick, units of 2⁻⁴⁸ ns (R67). -/
def State.tickStep (s : State) : Nat := (2 ^ 50 + 64 * s.clk.rate.toInt).toNat

/-- A stamp at the interpolator phase `phase` of the tick, eighths of it, with the top 16 of the clock's 48 fraction bits: units
of 2⁻¹⁶ ns (R35, R67). -/
def State.stamp16 (s : State) (phase : Nat) : Nat := (s.clk.t48 + phase * s.tickStep / 8) / 2 ^ 32

/-- The interpolator phase nearest a local time, ns: an edge or a stamp of an event at that time is placed there, units of 2⁻¹⁶ ns
(R67). -/
def State.placed16 (s : State) (t : Rat) : Nat :=
  let step : Rat := (s.tickStep : Rat) / 8
  ((s.clk.t48 : Rat) + roundRat ((t * 2 ^ 48 - s.clk.t48) / step) * step).floor.toNat / 2 ^ 32

/-- A stamp is pushed; a full queue drops it (R96). -/
def State.pushStamp (s : State) (source id t16 : Nat) : State :=
  if s.tb.stamps.length < 64 then
    let s' := { s with tb := { s.tb with stamps := s.tb.stamps ++ [⟨source, id % 65536, t16⟩] } }
    if s.tb.stamps.isEmpty then s'.raise Ev.tbStampReady 0 [] else s'
  else
    ({ s with tb := { s.tb with stampDrops := min 0xFFFF (s.tb.stampDrops + 1), stampOvf := true } }).raise
      Ev.tbStampOverflow 0 []

/-- A read of TB_STAMP_W0 pops the head (R95). -/
def State.popStamp (s : State) : State :=
  match s.tb.stamps with
  | [] => { s with tb := { s.tb with stampOut := none } }
  | h :: r => { s with tb := { s.tb with stamps := r, stampOut := some h } }

/-! ### PPS_OUT (R87, R88) -/

/-- PPS_OUT is enabled. -/
def State.ppsOn (s : State) : Bool := s.unitOn U.tb && s.reg F.TB_PPS_OUT_EN = 1 && !s.clk.frozen

/-- PPS_OUT takes its active or its inactive level at a local time in units of 2⁻¹⁶ ns: POL says which is high. -/
def State.ppsDrive (s : State) (active : Bool) (time : Nat) : State :=
  let level := active ≠ (s.reg F.TB_PPS_OUT_POL = 1)
  let s' := { s with tb := { s.tb with ppsHigh := active, ppsPin := level } }
  if level = s.tb.ppsPin then s' else s'.emit (.pps level time)

/-- PPS_OUT rests at its inactive level. -/
def State.ppsEnd (s : State) : State := s.ppsDrive false (s.stamp16 0)

/-! ### Sources (R69 to R73) -/

/-- The history of a source. -/
def State.src (s : State) (i : Nat) : SrcState := tget s.tb.srcs SrcState.reset i

def State.setSrc (s : State) (i : Nat) (v : SrcState) : State :=
  { s with tb := { s.tb with srcs := tset s.tb.srcs SrcState.reset i v } }

/-- A source is enabled by the active SRC_EN. -/
def State.srcEnabled (s : State) (i : Nat) : Bool :=
  s.unitOn U.tb && bit (s.act F.TB_CTRL_SRC_EN) i && !(s.id.part = .mg7716 && i = 1)

/-- The highest-ranked source that is enabled and qualified. -/
def State.bestSource (s : State) : Option Nat :=
  (List.range 4).find? fun i => s.srcEnabled i && (s.src i).qualified

/-- SLEW_MAX as a fraction (R75). -/
def State.slewMax (s : State) : Rat := (s.reg F.TB_SLEW_MAX_PPM : Rat) / 1000000

/-- A rate as the TB_RATE_ADJ word (R37, R75). -/
def rateWord (r : Rat) : Word :=
  let lim : Rat := 1 / 2 ^ 13
  BitVec.ofInt 32 (clampInt (-(2 ^ 31)) (2 ^ 31 - 1) (roundRat ((if r < -lim then -lim else if lim < r then lim else r) * 2 ^ 44)))

/-- The quality changes, and the event of the new quality is raised (R79, R105). -/
def State.setQuality (s : State) (q : Quality) : State :=
  if s.tb.quality = q then s
  else
    let s := { s with tb := { s.tb with quality := q } }
    match q with
    | .locked => s.raise Ev.tbLocked 0 []
    | .relocking => ({ s with tb := { s.tb with lockRun := 0 } }).raise Ev.tbRelocking 0 []
    | .holdover => s.raise Ev.tbHoldover 0 []
    | .free => s.raise Ev.tbFree 0 []

/-- Holdover begins: the rate holds freq, and the error bound grows from here (R80, R81). -/
def State.enterHoldover (s : State) : State :=
  ({ s with
      clk := { s.clk with rate := rateWord s.tb.freq }
      tb := { s.tb with err0 := s.tb.errEst, holdAt := s.clk.counter } }).setQuality .holdover

/-- The Timebase selects its source again (R69, R71); every change raises TB_SOURCE_CHANGE. A change while `RELOCKING` leaves the
run of samples within LOCK_THRESH as it is, so that the eight of R78 may come from two sources (DESIGN CHOICE, log entry 41). -/
def State.reselect (s : State) : State :=
  let new := match s.bestSource with | some i => i + 1 | none => 0
  if new = s.tb.source then s
  else
    let s := ({ s with tb := { s.tb with source := new, fresh := true } }).raise Ev.tbSourceChange 0 []
    if new = 0 then
      if s.tb.quality = .locked || s.tb.quality = .relocking then s.enterHoldover else s
    else if s.tb.quality = .free || s.tb.quality = .holdover then s.setQuality .relocking else s

/-- A source is lost (R70, R71). -/
def State.loseSource (s : State) (i : Nat) : State := (s.setSrc i SrcState.reset).reselect

/-- Loss timeout of a source in ticks; fabric PTP has the announce-receipt timeout of the profile: 3 intervals (R70, R89). -/
def State.srcTimeout (s : State) (i : Nat) : Nat :=
  match i with
  | 0 => s.reg F.TB_SRC_TIMEOUT_GNSS * 100 * tickMs
  | 1 => 3 * 2 ^ s.act F.TB_PTP_CTRL_ANNOUNCE_LOG * tickS
  | 2 => s.reg F.TB_SRC_TIMEOUT_PPS_IN * 100 * tickMs
  | _ => s.reg F.TB_SRC_TIMEOUT_HOST * 100 * tickMs

/-! ### The servo (R75, R76) -/

/-- A radio port counts as enabled for R84. -/
def State.radioEnabled (s : State) : Bool :=
  s.pwr.state = .run && s.unitOn U.hop &&
    (List.range s.id.part.radios).any fun p => s.act F.HOP_PORT_CTRL_EN p = 1

/-- The servo's answer to one sample: offset in ns and interval in s. At the first sample of all there is no previous one, and dt
is 0 (DESIGN CHOICE, log entry 41). -/
def State.servo (s : State) (e : Int) (dt : Rat) : State :=
  if s.act F.TB_CTRL_SERVO_MODE = 1 then s
  else
    let wn : Rat := 1 / 2 ^ s.act F.TB_CTRL_TIME_CONST
    let kp : Rat := 14142 / 10000 * wn
    let ki : Rat := wn * wn
    let es : Rat := e / 1000000000
    let lim : Rat := 1 / 2 ^ 13
    let cl := fun (lo hi x : Rat) => if x < lo then lo else if hi < x then hi else x
    if 500000 < e.natAbs then
      { s with clk := { s.clk with rate := rateWord (s.tb.freq + (if 0 < e then s.slewMax else -s.slewMax)) } }
    else
      let freq := cl (-lim) lim (s.tb.freq + ki * es * dt)
      let rate := cl (freq - s.slewMax) (freq + s.slewMax) (freq + kp * es)
      { s with clk := { s.clk with rate := rateWord rate }, tb := { s.tb with freq := freq } }

/-- An offset as TB_OFFSET shows it: saturating at ±(2³¹ − 1). -/
def satOffset (e : Int) : Int := clampInt (-(2 ^ 31 - 1)) (2 ^ 31 - 1) e

/-- A step by `e` is decided: it waits for the first whole second of the local clock (R85). -/
def State.decideStep (s : State) (e : Int) (unc : Nat) : State :=
  { s with tb := { s.tb with step := some ⟨e, unc, (s.now / 1000000000 + 1) * 1000000000⟩ } }

/-- A sample from the selected source (R75, R79, R83, R84). While a step is pending, samples skip the servo, and the step keeps
the e that decided it, whatever becomes of its source (DESIGN CHOICE, log entry 41). -/
def State.useSample (s : State) (e : Int) (unc : Nat) : State :=
  let within := e.natAbs ≤ s.reg F.TB_THRESH_LOCK_THRESH
  let fresh := s.tb.fresh
  let dt : Rat := match s.tb.lastSample with
    | some t => ((s.clk.counter - t : Nat) : Rat) / 250000000
    | none => 0
  let s := { s with tb := { s.tb with
    offset := satOffset e, errOff := satOffset e, fresh := false, lastSample := some s.clk.counter,
    lockRun := if within then min 8 (s.tb.lockRun + 1) else 0 } }
  let s := if fresh && s.tb.quality = .locked && !within then s.setQuality .relocking else s
  let s :=
    if s.tb.step.isSome then s
    else if 500000 < e.natAbs && s.act F.TB_CTRL_SERVO_MODE = 0 && (s.reg F.TB_ALLOW_STEP_ALLOW = 1 || !s.radioEnabled) then s.decideStep e unc
    else s.servo e dt
  if s.tb.quality = .relocking && s.tb.lockRun = 8 then s.setQuality .locked else s

/-- A sample of source `i`: offset in ns and uncertainty in ns (R69, R70). Whether the source is enabled or not, its samples count
towards its qualification. The offset is taken in whole ns, as TB_OFFSET shows it
(DESIGN CHOICE, log entry 41). -/
def State.sample (s : State) (i : Nat) (e : Int) (unc : Nat) : State :=
  let h := s.src i
  let s := s.setSrc i { h with
    lastAt := some s.clk.counter, since := some (h.since.getD s.clk.counter), unc := unc }
  if s.tb.source = i + 1 then s.useSample e unc else s

/-- A source qualifies (R70, R72): unbroken samples for REQUAL seconds; PPS_IN never while the error bound is 400 ms or more. -/
def State.mayQualify (s : State) (i : Nat) : Bool :=
  let h := s.src i
  s.unitOn U.tb && !(s.id.part = .mg7716 && i = 1) && !h.qualified &&
  (match h.since, h.lastAt with
    | some a, some l => a + s.reg F.TB_SRC_TIMEOUT_REQUAL * tickS ≤ s.clk.counter && s.clk.counter < l + s.srcTimeout i
    | _, _ => false) &&
  !(i = 2 && 400000000 ≤ s.tb.errEst)

/-- The clock class announced (R89). -/
def State.clockClass (s : State) : Nat :=
  match s.tb.quality with
  | .locked => if s.tb.source = 1 then 6 else if s.tb.source = 2 then
      (match s.tb.slavePort with
        | some p => ((tget s.tb.ptp PtpPort.reset p).announce.map (·.clockClass)).getD 52
        | none => 52)
    else 13
  | .relocking => 52
  | .free => 248
  | .holdover =>
    if s.tb.lastClass = 6 ∨ s.tb.lastClass = 7 then 7
    else if s.tb.lastClass = 13 ∨ s.tb.lastClass = 14 then 14 else 52

/-- The class announced while `LOCKED` is kept for holdover; `FREE` forgets it (R89). -/
def State.noteClass (s : State) : State :=
  match s.tb.quality with
  | .locked => { s with tb := { s.tb with lastClass := s.clockClass } }
  | .free => { s with tb := { s.tb with lastClass := 52 } }
  | _ => s

/-! ### The error bound (R81) -/

/-- TB_ERR_EST recomputed. -/
def State.errBound (s : State) : Nat :=
  let unc := (s.src (s.tb.source - 1)).unc
  let hold : Nat :=
    let t : Rat := ((s.clk.counter - s.tb.holdAt : Nat) : Rat) / 250000000
    let u : Rat := (s.reg F.TB_HOLDOVER_RATE_UNC : Rat) / 100
    let a : Rat := (s.reg F.TB_HOLDOVER_AGING : Rat) / 1000000
    ((s.tb.err0 : Rat) + u * t + a * t * t / 2).ceil.toNat
  min 0xFFFFFFFF (match s.tb.quality with
    | .locked | .relocking => unc + s.tb.errOff.natAbs
    | .holdover => hold
    | .free => if s.tb.fromHold then hold else s.tb.errEst)

/-- The 1 ms update, and the fall to `FREE` (R79, R81). -/
def State.updateErr (s : State) : State :=
  let s := { s with tb := { s.tb with errEst := s.errBound } }
  if s.tb.quality = .holdover && s.reg F.TB_THRESH_FREE_THRESH * 1000 < s.tb.errEst then
    (({ s with tb := { s.tb with fromHold := true } }).setQuality .free).noteClass
  else s

/-! ### Alarms and launches (R86, R97 to R102) -/

/-- The next time of a period that lies after now, from one that is not. -/
def rearm (time period now : Nat) : Nat :=
  if period = 0 then time else time + ((now - time) / period + 1) * period

/-- Alarm `n` falls due. -/
def State.fireAlarm (s : State) (n : Nat) : State :=
  let a := tget s.tb.alarms Alarm.reset n
  let per := s.reg F.TB_ALARM_PERIOD_PERIOD n * 1000
  let a' : Alarm := if per = 0 then ⟨false, 0⟩ else ⟨true, rearm a.time per s.now⟩
  ({ s with tb := { s.tb with alarms := tset s.tb.alarms Alarm.reset n a' } }).raise Ev.tbAlarm n (leBytes 1 n)

/-- A free host entry of the launch queue exists (R97). -/
def State.launchRoom (s : State) : Bool := s.tb.launches.length < 248

/-- A host launch is inserted. -/
def State.insertLaunch (s : State) (time : Nat) (k : LaunchKind) : State :=
  let l := s.tb.launches ++ [⟨time, k, false⟩]
  { s with tb := { s.tb with launches := l, highWater := max s.tb.highWater l.length } }

def LaunchKind.isCommit : LaunchKind → Bool
  | .commit _ => true
  | .desc _ => false

/-- The counter tick on which the clock first equals or passes a local time that it has reached, at the rate in force (R98). -/
def State.tickOf (s : State) (time : Nat) : Nat := s.clk.counter - (s.clk.t48 - time * 2 ^ 48) / s.tickStep

/-- The tick on which a due entry fires; those that a step has passed over fire at once, before what falls due later (R86). -/
def State.launchTick (s : State) (l : Launch) : Nat := if l.stepped then 0 else s.tickOf l.time

/-- A commit is due on a tick or before it (R16, R99). -/
def State.commitFirst (s : State) (tick : Nat) : Bool :=
  s.tb.launches.any fun l => l.kind.isCommit && l.time ≤ s.now && s.launchTick l ≤ tick

/-- A periodic entry is due on a tick or before it (R99). -/
def State.periodicFirst (s : State) (tick : Nat) : Bool :=
  s.tb.periodic.any fun p => p.time ≤ s.now && s.tickOf p.time ≤ tick

/-- A commit is due no later than a local time, so a unit's action at that time waits for it (R16, R64). -/
def State.commitWaits (s : State) (time : Nat) : Bool := s.commitFirst (s.tickOf time)

/-- The first due launch entry that satisfies `p`: by tick, then in order of insertion (R98, R99). -/
def State.dueLaunch (s : State) (p : LaunchKind → Bool) : Option Launch :=
  (sortBy s.launchTick (s.tb.launches.filter fun l => p l.kind && l.time ≤ s.now)).head?

/-- Launch entries and alarms that a step passes over fire once, with `LATE` (R86). -/
def markStepped (l : List Launch) (old new : Nat) : List Launch :=
  l.map fun e => if old < e.time ∧ e.time ≤ new then { e with stepped := true } else e

end Sys2Proof.Machine
end

