-- ==== Sys2Proof/Machine/HopOps.lean ====
section
/-! DEFINITION. The Hop Sequencer's shared operations: slots, capacities and channels, the queue of downlink blocks, frames
and their keys, transmission and the duty budget (R224 to R249). -/

namespace Sys2Proof.Machine

/-! ### Ports and time -/

def State.hopPort (s : State) (p : Nat) : HopPort := tget s.hop.ports HopPort.reset p

def State.modHop (s : State) (p : Nat) (f : HopPort → HopPort) : State :=
  { s with hop := { s.hop with ports := tmod s.hop.ports HopPort.reset p f } }

/-- A superframe, ns (R10). -/
def sfNs : Nat := 20000000

/-- Slot length in ns (R224). -/
def slotLenNs (code : Nat) : Nat :=
  match code with | 0 => 125000 | 1 => 625000 | 2 => 2500000 | _ => 10000000

def State.slotNs (s : State) (p : Nat) : Nat := slotLenNs (s.act F.HOP_PORT_CTRL_SLOT_LEN p)

def State.narrow (s : State) (p : Nat) : Bool := s.act F.RAD_PORT_CTRL_BAND p = 1

/-- The device's TX point, ns from the slot start (R231). -/
def State.txPoint (s : State) (p : Nat) : Nat := if s.narrow p then 200000 else 20000

/-- The port is enabled in the active configuration. -/
def State.hopEnabled (s : State) (p : Nat) : Bool :=
  s.unitOn U.hop && p < s.id.part.radios && s.act F.HOP_PORT_CTRL_EN p = 1

/-- A cause of `SAFE_HOLD` that silences the radios: `ECC_TB`, `ECC_HOP`, `DIE_LINK` (R25). -/
def silentCause (cause : Nat) : Bool := cause = 2 || cause = 3 || cause = 5

/-- Radios run: in `RUN`, and in `SAFE_HOLD` unless one of the causes of its entry silences them (R25). In `SAFE_HOLD` entered from
`WAIT_HOST` with HOP configured, ports that were silent begin the Sandstorm with their next slot: R25 speaks of one that
continues, and does not say what ports do that had none (DESIGN CHOICE, log entry 65). -/
def State.radiosRun (s : State) : Bool :=
  match s.pwr.state with
  | .run | .safeHold => !((List.range 8).any fun c => silentCause c && s.pwr.causes.getLsbD c)
  | _ => false

/-- A port follows its slot table. -/
def State.hopLive (s : State) (p : Nat) : Bool :=
  s.radiosRun && s.hopEnabled p && !(s.hopPort p).table.isEmpty && !(s.hopPort p).silent

/-! ### Slot tables (R234, R235) -/

-- Slot types.
namespace ST
def idle : Nat := 0
def beacon : Nat := 1
def correction : Nat := 2
def downlink : Nat := 3
def uplink : Nat := 4
def observation : Nat := 5
def shared : Nat := 6
def nodePoll : Nat := 7
end ST

def stCount (t : List Byte) : Nat := fieldLE t 6 2
def stHopLen (t : List Byte) : Nat := clampNat 1 64 (byteAt t 8)
def stRdv (t : List Byte) : Nat := byteAt t 9
def stGen (t : List Byte) : Nat := byteAt t 10
def stHopList (t : List Byte) : List Nat := (List.range (stHopLen t)).map fun i => byteAt t (16 + i)
def stType (t : List Byte) (i : Nat) : Nat := byteAt t (80 + 8 * i)
def stOffset (t : List Byte) (i : Nat) : Nat := min 63 (byteAt t (81 + 8 * i))
def stMode (t : List Byte) (i : Nat) : Nat := byteAt t (82 + 8 * i)
def stRdvFlag (t : List Byte) (i : Nat) : Bool := bit (byteAt t (83 + 8 * i)) 0 && stType t i = ST.shared
def stOwner (t : List Byte) (i : Nat) : Nat := fieldLE t (84 + 8 * i) 2
def stFrag (t : List Byte) (i : Nat) : Nat := min 255 (fieldLE t (86 + 8 * i) 2)

/-- Slots of a span from its head on (R233). -/
def stSpan (t : List Byte) (i : Nat) : Nat :=
  if stType t i = ST.shared || stType t i = ST.nodePoll then
    1 + (((List.range (stCount t)).drop (i + 1)).takeWhile fun j => stType t j = ST.idle).length
  else 1

/-- Slots that lie inside a span after its head. -/
def stInSpan (t : List Byte) (i : Nat) : Bool :=
  (List.range i).any fun h => i < h + stSpan t h

/-- The first RDV `SHARED` slot. -/
def stJoinSlot (t : List Byte) : Nat := ((List.range (stCount t)).find? fun i => stRdvFlag t i).getD 0

/-- The slot of the anchor beacon (R243). -/
def stAnchor (t : List Byte) : Nat :=
  ((List.range (stCount t)).find? fun i => stType t i = ST.idle && !stInSpan t i).getD (stJoinSlot t)

/-- Channel of a slot (R229). -/
def stChannel (t : List Byte) (i asn : Nat) : Nat :=
  if stRdvFlag t i then stRdv t else (stHopList t).getD ((asn + stOffset t i) % stHopLen t) 0

/-! ### Airtime and capacity (R225 to R227, R233) -/

/-- Data bits per symbol by MODE. -/
def nDbps (mode : Nat) : Nat := [12, 18, 24, 36, 48, 72, 96].getD mode 12

def narrowRate (code : Nat) : Nat := if code = 0 then 50000 else 150000

/-- Airtime of a MAC frame of `len` bytes, ns, rounded up. -/
def airNs (narrow : Bool) (rate mode len : Nat) : Nat :=
  if narrow then (8 * (len + 10) * 1000000000 + rate - 1) / rate
  else 16000 + 4000 * ((8 * len + 6 + nDbps mode - 1) / nDbps mode)

/-- The largest MAC frame with an airtime of at most `avail` ns. -/
def airCap (narrow : Bool) (rate mode avail : Nat) : Nat :=
  if narrow then avail * rate / 8000000000 - 10
  else min 2047 (((avail - 16000) / 4000 * nDbps mode - 6) / 8)

/-- Capacity of `len` ns of slot time. -/
def slotCap (narrow : Bool) (rate mode len : Nat) : Nat :=
  airCap narrow rate mode (len - (if narrow then 400000 else 35000))

def State.rate (s : State) (p : Nat) : Nat := narrowRate (s.act F.HOP_PORT_CTRL_NARROW_RATE p)

/-- MODE of a slot: the port's DATA_MODE for values above 6, and no mode on a narrow port. -/
def State.slotMode (s : State) (p i : Nat) : Nat :=
  if s.narrow p then 0
  else
    let m := stMode (s.hopPort p).table i
    if m ≤ 6 then m else s.act F.HOP_PORT_CTRL_DATA_MODE p

/-- Airtime of a frame on a port. -/
def State.air (s : State) (p mode len : Nat) : Nat := airNs (s.narrow p) (s.rate p) mode len

/-- Capacity of a slot, or of the span that it heads. -/
def State.slotCapacity (s : State) (p i : Nat) : Nat :=
  slotCap (s.narrow p) (s.rate p) (s.slotMode p i) (stSpan (s.hopPort p).table i * s.slotNs p)

/-- Capacity of the NODE_ACK in a poll slot's span: it starts at L + 0.4 L (R256). -/
def State.ackCapacity (s : State) (p i : Nat) : Nat :=
  let l := s.slotNs p
  airCap (s.narrow p) (s.rate p) (s.slotMode p i)
    (stSpan (s.hopPort p).table i * l - (l + l * 2 / 5) - (if s.narrow p then 200000 else 15000))

/-! ### Machines and nodes -/

def State.machLink (s : State) (m : Nat) : MachLink := tget s.hop.machines MachLink.reset m

def State.modMach (s : State) (m : Nat) (f : MachLink → MachLink) : State :=
  { s with hop := { s.hop with machines := tmod s.hop.machines MachLink.reset m f } }

def State.joined (s : State) (m : Nat) : Bool := (s.machLink m).state = .joined

/-- Machines joined on a port. -/
def State.joinedOn (s : State) (p : Nat) : List Nat :=
  (s.hop.machines.filter fun e => e.2.state = .joined && e.2.port = p).map (·.1)

/-- A node is UNSYNCED: the instant of the poll that made it so has come (R261). -/
def State.unsynced (s : State) (k : Nat) : Bool :=
  let n := tget s.hop.nodes NodeLink.reset k
  n.unsynced && n.unsyncAt ≤ s.clk.counter

def State.nodeLink (s : State) (k : Nat) : NodeLink := tget s.hop.nodes NodeLink.reset k

def State.modNode (s : State) (k : Nat) (f : NodeLink → NodeLink) : State :=
  { s with hop := { s.hop with nodes := tmod s.hop.nodes NodeLink.reset k f } }

/-- Entries of a node table (R255). -/
def ntCount (t : List Byte) : Nat := t.length / 16
def ntEui (t : List Byte) (k : Nat) : Nat := fieldLE t (16 * k) 8
def ntShort (t : List Byte) (k : Nat) : Nat := clampNat 0x100 0x10FF (fieldLE t (16 * k + 8) 2)
def ntPort (t : List Byte) (k : Nat) : Nat := min 3 (byteAt t (16 * k + 10))
def ntSlot (t : List Byte) (k : Nat) : Nat := byteAt t (16 * k + 11)
def ntEn (t : List Byte) (k : Nat) : Bool := k < ntCount t && bit (byteAt t (16 * k + 12)) 0
def ntLegacy (t : List Byte) (k : Nat) : Bool := bit (byteAt t (16 * k + 12)) 1
def ntLog (t : List Byte) (k : Nat) : Nat := min 15 (byteAt t (16 * k + 13))
def ntPhase (t : List Byte) (k : Nat) : Nat := min (2 ^ ntLog t k - 1) (fieldLE t (16 * k + 14) 2)

/-- A node polls in a superframe. -/
def ntPolls (t : List Byte) (k sf : Nat) : Bool := sf % 2 ^ ntLog t k = ntPhase t k

/-- The enabled node of a short address, and of an EUI-64. -/
def State.nodeByShort (s : State) (a : Nat) : Option Nat :=
  (List.range (ntCount s.hop.nodeTable)).find? fun k => ntEn s.hop.nodeTable k && ntShort s.hop.nodeTable k = a

def State.nodeByEui (s : State) (eui : Nat) : Option Nat :=
  (List.range (ntCount s.hop.nodeTable)).find? fun k => ntEn s.hop.nodeTable k && ntEui s.hop.nodeTable k = eui

/-- Key of an address in the link bank: machine index, or 256 plus the offset of a node's short address (R465). -/
def linkKeyOf (addr : Nat) : Nat := addr

/-- The port on which an address is joined. -/
def State.portOfAddr (s : State) (a : Nat) : Option Nat :=
  if a < 256 then (if s.joined a then some (s.machLink a).port else none)
  else (s.nodeByShort a).bind fun k => if (s.nodeLink k).joined then some (ntPort s.hop.nodeTable k) else none

/-! ### The downlink queue (R249) -/

-- Downlink block types.
namespace DL
def sectionCmd : Nat := 1
def trackAnswer : Nat := 2
def message : Nat := 3
def sched : Nat := 4
def hoplist : Nat := 5
def keys : Nat := 6
def reEnable : Nat := 7
end DL

/-- Class order of R249. -/
def dlRank (b : Nat) : Nat := [7, 1, 2, 6, 4, 5, 3].findIdx (· = b)

/-- A block is queued. -/
def State.queueDl (s : State) (b : DlBlock) : State := { s with hop := { s.hop with queue := s.hop.queue ++ [b] } }

/-- A block of a unit for a machine. -/
def State.queueBlock (s : State) (m btype : Nat) (body : List Byte) : State :=
  s.queueDl ⟨m, (s.machLink m).port, btype, body, 0, 0, none, false⟩

/-- Size of a block in a frame. -/
def DlBlock.size (b : DlBlock) : Nat := 2 + b.body.length

def DlBlock.bytes (b : DlBlock) : List Byte := leBytes 1 b.btype ++ leBytes 1 b.body.length ++ b.body

/-- A section command block is dropped: SEC_DROP and HOP_SECTION_DROP (R249). -/
def State.sectionDrop (s : State) (p : Nat) : State :=
  (s.modHop p fun h => { h with secDrop := h.secDrop + 1 }).raise Ev.hopSectionDrop 0 []

/-- The blocks waiting for a port; a machine's blocks follow the port on which it is joined. -/
def State.blockPort (s : State) (b : DlBlock) : Option Nat :=
  if b.addr = 0xFFFF then some b.port else s.portOfAddr b.addr

/-- Bodies of the `DOWNLINK` slots of a port: the capacities less header and MIC. -/
def State.dlCaps (s : State) (p : Nat) : List Nat :=
  ((List.range (stCount (s.hopPort p).table)).filter fun i => stType (s.hopPort p).table i = ST.downlink).map fun i =>
    s.slotCapacity p i - 14

/-- Blocks of R249 that no `DOWNLINK` slot of the port holds are discarded as they become the oldest of their class. -/
def State.dropUnfit (s : State) (p : Nat) : Nat → State
  | 0 => s
  | fuel + 1 =>
    let mine := s.hop.queue.filter fun b => s.blockPort b = some p && (b.addr < 256 || b.addr = 0xFFFF)
    let most := (s.dlCaps p).foldl max 0
    let oldest := [7, 1, 2, 6, 4, 5, 3].filterMap fun t => mine.find? fun b => b.btype = t
    match oldest.find? fun b => most < b.size with
    | none => s
    | some b =>
      let s := { s with hop := { s.hop with queue := s.hop.queue.erase b } }
      let s := if b.btype = DL.sectionCmd then s.sectionDrop p else s
      let s := match b.desc with
        | some n => match s.waitingDesc n with
          | some d => s.complete d St.length
          | none => s
        | none => s
      s.dropUnfit p fuel

/-- Further blocks of one destination while they fit. -/
def takeBlocks : List DlBlock → Nat → List DlBlock
  | [], _ => []
  | b :: r, room => if b.size ≤ room then b :: takeBlocks r (room - b.size) else []

/-- The blocks of a `DOWNLINK` slot that starts at `start` with room for `room` body bytes (R249, R13). -/
def State.chooseBlocks (s : State) (p start room : Nat) : List DlBlock :=
  let cand := s.hop.queue.filter fun b =>
    s.blockPort b = some p && (b.addr < 256 || b.addr = 0xFFFF) && b.size ≤ room && b.early ≤ start &&
      (b.late = 0 || start < b.late)
  match (sortBy (fun b => dlRank b.btype) cand) with
  | [] => []
  | h :: _ => takeBlocks ((sortBy (fun b => dlRank b.btype) cand).filter fun b => b.addr = h.addr) room

/-- A block sent completes its HOP_SEND. -/
def State.blockSent (s : State) (b : DlBlock) : State :=
  let s := { s with hop := { s.hop with queue := s.hop.queue.erase b } }
  match b.desc with
  | some n => match s.waitingDesc n with
    | some d => s.complete d St.ok
    | none => s
  | none => s

/-! ### Schedule blocks (R236, R249) -/

/-- Body bytes that the port's smallest `DOWNLINK` slot holds. -/
def State.dlLeast (s : State) (p : Nat) : Nat := (s.dlCaps p).foldl min 2047

/-- Entry of a slot in a SCHED block for a machine; `narrow` and `mode` are the band and DATA_MODE of the table's configuration. -/
def schedEntry (narrow : Bool) (mode m : Nat) (t : List Byte) (i : Nat) : List Byte :=
  let md := if narrow then 0 else if stMode t i ≤ 6 then stMode t i else mode
  leBytes 2 (bits (stType t i) 0 4 + 16 * md + 128 * b2n (owned t i) + 256 * stOffset t i)
where
  owned (t : List Byte) (i : Nat) : Bool := stOwner t i = m && (stType t i = ST.uplink || stType t i = ST.observation)

/-- FRAG_BYTES of a slot when the machine owns it. -/
def schedFrag (t : List Byte) (m i : Nat) : Option Nat :=
  if stOwner t i = m && (stType t i = ST.uplink || stType t i = ST.observation) then some (stFrag t i) else none

/-- Slots of one SCHED block from slot `i` on: at most `room`, ending before an owned slot whose FRAG_BYTES differs. -/
def schedRun (t : List Byte) (m : Nat) : Nat → Nat → Option Nat → List Nat
  | 0, _, _ => []
  | room + 1, i, f =>
    if stCount t ≤ i then []
    else match schedFrag t m i, f with
      | some a, some b => if a = b then i :: schedRun t m room (i + 1) f else []
      | some a, none => i :: schedRun t m room (i + 1) (some a)
      | none, _ => i :: schedRun t m room (i + 1) f

/-- SCHED blocks of a table for a machine. -/
def State.schedBlocks (s : State) (p m lasn : Nat) (narrow : Bool) (mode : Nat) (t : List Byte) : Nat → Nat → List (List Byte)
  | 0, _ => []
  | fuel + 1, i =>
    let room := max 1 (min ((s.dlLeast p - 11) / 2) 123)
    let run := schedRun t m room i none
    if run.isEmpty then []
    else
      let frag := (run.findSome? fun j => schedFrag t m j).getD 0
      (leBytes 1 (stGen t) ++ leBytes 5 lasn ++ leBytes 1 i ++ leBytes 1 run.length ++ leBytes 1 frag ++
        (run.map fun j => schedEntry narrow mode m t j).flatten) :: s.schedBlocks p m lasn narrow mode t fuel (i + run.length)

/-- A machine's schedule is queued: LAUNCH_ASN 0 for the table in force. -/
def State.queueSched (s : State) (p m lasn : Nat) (narrow : Bool) (mode : Nat) (t : List Byte) (pend : Bool) : State :=
  (s.schedBlocks p m lasn narrow mode t (stCount t) 0).foldl (fun s b =>
    s.queueDl ⟨m, p, DL.sched, b, 0, 0, none, pend⟩) s

/-- The hop list of a pending schedule. -/
def hoplistBody (lasn : Nat) (t : List Byte) : List Byte :=
  leBytes 1 (stGen t) ++ leBytes 5 lasn ++ leBytes 1 (stHopLen t) ++ leBytes 1 (stRdv t) ++ slice t 16 (stHopLen t)

/-- The device's own use of a `VALID` record that it cannot use is a use of an orphaned record: it counts (R462). -/
def State.countOrphan (s : State) (i : Nat) : State :=
  if s.keyStop.isSome || (s.validRec i).isNone || !s.unusable i then s else s.orphanUse i

/-- The active group and stop keys of a port wrapped for a machine or node, none where a key is missing or orphaned (R462, R465). -/
def State.wrapKeys (s : State) (addr group stop : Nat) : Option (List Byte) :=
  match tfind s.key.link (linkKeyOf addr), s.material group, s.material stop with
  | some k, some g, some st => if s.orphan group || s.orphan stop then none else some (kwWrap k.kw.value (g.take 16) ++ kwWrap k.kw.value (st.take 16))
  | _, _, _ => none

/-- A pending schedule is announced to one machine (R236). -/
def State.announceTo (s : State) (p m : Nat) (a : Announce) (group stop keyGen : Nat) : State :=
  let h := s.hopPort p
  -- the first slot of the new schedule: the first boundary at or after the launch instant, in the active slot length
  let lasn := (a.launch + sfNs - 1) / sfNs * sfNs / s.slotNs p % 2 ^ 40
  let s := s.queueSched p m lasn a.narrow a.mode a.table true
  let s := if stHopList a.table = stHopList h.table && stRdv a.table = stRdv h.table then s
    else s.queueDl ⟨m, p, DL.hoplist, hoplistBody lasn a.table, 0, 0, none, true⟩
  if group = s.act F.HOP_PORT_KEYS_GROUP p && stop = s.act F.HOP_PORT_KEYS_STOP p then s
  else match s.wrapKeys m group stop with
    | some w => s.queueDl ⟨m, p, DL.keys, leBytes 1 keyGen ++ leBytes 5 lasn ++ w, 0, 0, none, true⟩
    | none => (s.countOrphan group).countOrphan stop

/-- A pending schedule is no longer pending: its announcement, and the blocks that carry it. -/
def State.endAnnounce (s : State) : State :=
  let s := (List.range 4).foldl (fun s p => s.modHop p fun h => { h with announce := none }) s
  { s with hop := { s.hop with queue := s.hop.queue.filter fun b => !b.pend } }

/-! ### Frames and keys (R237 to R240) -/

-- Frame types.
namespace FT
def beacon : Nat := 0
def anchor : Nat := 1
def stop : Nat := 2
def correction : Nat := 3
def downlink : Nat := 4
def uplink : Nat := 5
def joinReq : Nat := 6
def joinResp : Nat := 7
def nodePoll : Nat := 8
def nodeAck : Nat := 9
def pendantStop : Nat := 10
end FT

/-- The header of a frame. -/
def State.hopHeader (s : State) (p type enc addr : Nat) : List Byte :=
  leBytes 1 (type + 16 * enc) ++ leBytes 1 (s.hopPort p).keyGen.toNat ++ leBytes 2 (s.act F.HOP_CTRL_NET_ID) ++ leBytes 2 addr

/-- The device's EUI-64 on the radio. -/
def State.hopEui (s : State) : Nat := s.act64 F.HOP_DEV_EUI_LO_EUI F.HOP_DEV_EUI_HI_EUI

/-- The nonce of R239. -/
def hopNonce (eui asn : Nat) : List Byte := beBytes 8 eui ++ beBytes 5 (asn % 2 ^ 40)

/-- A body under CCM (R239): the body as sent, and the MIC. -/
def ccmSeal (key nonce head body : List Byte) (enc : Bool) : List Byte × List Byte :=
  if enc then
    (xorBytes body ((List.range body.length).map (Config.ccmStream key nonce)), bvBytes (Config.ccmTag key nonce head body 8) |>.take 8)
  else (body, (bvBytes (Config.ccmTag key nonce (head ++ body) [] 8)).take 8)

/-- A received frame opened: its body, none where the MIC fails. -/
def ccmOpen (key nonce f : List Byte) (enc : Bool) : Option (List Byte) :=
  if f.length < 14 then none
  else
    let head := f.take 6
    let ct := (f.drop 6).take (f.length - 14)
    let mic := f.drop (f.length - 8)
    let body := if enc then xorBytes ct ((List.range ct.length).map (Config.ccmStream key nonce)) else ct
    if mic = (ccmSeal key nonce head body enc).2 then some body else none

/-- AES-CMAC truncated to its first 8 bytes. -/
def cmac8 (key msg : List Byte) : List Byte := (bvBytes (Config.aesCmac key msg)).take 8

/-- Material of a named record that may be used now: `VALID` and neither orphaned nor retired, with the Key Store running (R346). -/
def State.readyKey (s : State) (i : Nat) : Option (List Byte) :=
  if s.keyStop.isSome || !s.key.rootsReady || s.unusable i then none else s.material i

def State.groupKey (s : State) (p : Nat) : Option (List Byte) := s.readyKey (s.act F.HOP_PORT_KEYS_GROUP p)
def State.stopKey (s : State) (p : Nat) : Option (List Byte) := s.readyKey (s.act F.HOP_PORT_KEYS_STOP p)

/-- J of an EUI-64 (R465). -/
def State.joinKey (s : State) (eui : Nat) : Option (List Byte) :=
  if (s.readyKey (s.act F.HOP_KEYS_JOIN_ROOT)).isSome then s.joinSecret eui else none

/-- Session keys of an address. -/
def State.sessionOf (s : State) (addr : Nat) : Option LinkKeys := tfind s.key.link (linkKeyOf addr)

/-- A counter of frames dropped under R238. -/
def State.micFail (s : State) (p : Nat) : State := s.modHop p fun h => { h with micFail := h.micFail + 1 }

/-! ### Transmission (R230, R231, R245) -/

/-- Window of the duty budget, ns. -/
def State.dutyWindow (s : State) (p : Nat) : Nat :=
  if s.act F.HOP_PORT_DUTY_WINDOW p = 1 then 20000000000 else 3600000000000

/-- Airtime spent on a channel in the window before an instant. -/
def State.dutyUsed (s : State) (p ch at' : Nat) : Nat :=
  (((s.hopPort p).duty.filter fun e => e.1 = ch && at' < e.2.1 + s.dutyWindow p).map fun e => e.2.2).sum

/-- Budget of a channel, ns. -/
def State.dutyBudget (s : State) (p : Nat) : Nat := s.act F.HOP_PORT_DUTY_PERMILLE p * s.dutyWindow p / 1000

/-- At the start of a slot, a channel that could again hold the withheld frame is no longer at its limit (R230). -/
def State.dutyReview (s : State) (p asn at' : Nat) : State :=
  s.modHop p fun h => { h with
    hits := h.hits.filter fun e => !(e.2.2 < asn && s.dutyUsed p e.1 at' + e.2.1 ≤ s.dutyBudget p)
    duty := h.duty.filter fun e => decide (at' < e.2.1 + s.dutyWindow p) }

/-- A transmission of `air` ns on a channel may go: stop frames, downlinks and answers keep to the budget. -/
def State.dutyAllows (s : State) (p ch at' air : Nat) : Bool :=
  s.act F.HOP_PORT_DUTY_EN p = 0 || s.dutyUsed p ch at' + air ≤ s.dutyBudget p

/-- A frame is withheld (R230). -/
def State.withhold (s : State) (p ch air asn : Nat) : State :=
  (s.modHop p fun h => { h with
    withheld := h.withheld + 1, hits := h.hits.filter (fun e => e.1 ≠ ch) ++ [(ch, air, asn)] }).raise Ev.hopBudget 0 []

/-- The TX point that a transmission gets: its own, or 4 µs after the previous one ends (R245). -/
def State.txStart (s : State) (p nominal : Nat) : Nat :=
  let b := (s.hopPort p).busy
  if b = 0 then nominal else max nominal (b + 4000)

/-- The front-end lines of a port take a pattern at an instant (R231). -/
def State.frontEnd (s : State) (p time : Nat) (f : Sel) : State := s.emit (.frontEnd p time (s.act f p))

/-- The front-end lines of a port are not idle: it sends, or has ended a frame within the ramp down, or it listens. -/
def State.femDriven (s : State) (p : Nat) : Bool :=
  let h := s.hopPort p
  (h.busy ≠ 0 && s.now < h.busy + 2000) || h.cur.any fun c => c.listen.isSome

/-- A frame goes on the air: the front-end lines take the TX pattern 2 µs before its TX point, and the idle pattern when the ramp
down after it has ended (R231). -/
def State.onAir (s : State) (p ch start mode : Nat) (frame : List Byte) : State :=
  let air := s.air p mode frame.length
  let s := s.frontEnd p (max s.now (start - 2000)) F.RAD_PORT_CTRL_FEM_TX
  ((s.modHop p fun h => { h with busy := start + air, duty := h.duty ++ [(ch, start, air)] }).emit
    (.radio p start ch frame)).frontEnd p (start + air + 2000) F.RAD_PORT_CTRL_FEM_IDLE

/-- No authenticated frame is ready (R346). -/
def State.precompMiss (s : State) : State :=
  ({ s with stp := { s.stp with precompMiss := s.stp.precompMiss + 1 } }).raise Ev.stpPrecompMiss 0 []

/-- No authenticated frame is ready under a record. -/
def State.missUnder (s : State) (i : Nat) : State := (s.countOrphan i).precompMiss

/-- The bits of a beacon's STATE that the latch sets (R241). -/
def State.latchBits (s : State) : Nat := b2n s.stp.latched + 2 * b2n (s.stp.latched && s.stp.stop)

/-- Correction period, ns (R194). -/
def State.rtcmPeriod (s : State) : Nat :=
  1000000 * [100, 200, 500, 1000, 2000, 5000, 10000].getD (s.act F.FIX_RTCM_CTRL_PERIOD) 1000

/-- FIX_STATUS.CORR_AVAIL (R202): the epoch that produced an MSM message is the latest while the messages of the next are not due,
3.5 ms after its t_r (R194). -/
def State.corrAvail (s : State) : Bool :=
  s.unitOn U.fix && !s.fix.fault && s.act F.FIX_CTRL_RTCM_EN = 1 && (s.gns.base = .surveyed || s.gns.base = .fixed) &&
    s.fix.msmAt.any fun t => s.now < t + s.rtcmPeriod + 3500000

/-- Level of the Mirage Monitor as it stands: 3 without an active configuration, and frozen in `SAFE_HOLD` (R191). -/
def State.mirLevel (s : State) : Nat :=
  match s.mir.frozen with
  | some v => v.1
  | none => if s.unitOn U.mir then s.mir.level else 3

/-- SYS_FLAG of R187: systems at level 2 within MAX_LEVEL. -/
def State.sysFlag (s : State) : Nat :=
  match s.mir.frozen with
  | some v => v.2.1
  | none =>
    if !s.unitOn U.mir || s.act F.MIR_CTRL_MAX_LEVEL < 2 then 0
    else (List.range 7).foldl (fun w k => if s.mir.conds.any (fun c =>
      c.latched && c.systems.contains k && !bit (s.reg F.MIR_CHECK_EVONLY_EVONLY) c.check) then w + 2 ^ k else w) 0

/-- The INTEGRITY byte of R187. -/
def State.integrity (s : State) : Nat :=
  match s.mir.frozen with
  | some v => v.2.2
  | none => s.mirLevel + 8 * b2n (s.mirLevel < 3 && s.corrAvail) + 16 * b2n (4 ≤ s.mirLevel)

/-- The Monitor's outputs freeze as they stand (R191). -/
def State.freezeMirage (s : State) : State :=
  { s with mir := { s.mir with frozen := some (s.mirLevel, s.sysFlag, s.integrity) } }

/-- Correction of the transmit stamp before the ball, units of 2⁻¹⁶ ns (R92). -/
def State.radioCorr16 (s : State) (p : Nat) : Nat := if s.narrow p then 3150 * 65536 else 1412 * 65536 + 32768

/-- DELAY of a beacon or anchor. -/
def delayField (nominal start : Nat) : Nat := min 65535 ((start - nominal + 250) / 500)

/-- A beacon or anchor in the form of the latch as it stands, with its DELAY (R241, R243, R345). -/
def State.formFrame (s : State) (f : BeaconForm) (delay : Nat) : List Byte :=
  let body := f.front ++ leBytes 1 (s.latchBits + f.flags) ++ leBytes 2 delay ++ f.tail
  f.head ++ body ++ (ccmSeal f.key (hopNonce s.hopEui f.asn) f.head body false).2

/-- The group key under which the frame of an ASN is authenticated: the one held for it, else the port's (R345); none once the Key
Store has stopped (R346). -/
def State.formKey (s : State) (p asn : Nat) (held : Option (Nat × List Byte)) : Option (List Byte) :=
  if s.keyStop.isSome then none
  else match held.filter fun k => k.1 = asn with
    | some k => some k.2
    | none => s.groupKey p

/-- The three forms of the beacon of a superframe, with what it carries as it stands now, at the boundary (R187, R241). -/
def State.beaconForm (s : State) (p asn : Nat) : Option BeaconForm :=
  (s.formKey p asn (s.hopPort p).beaconKey).map fun k =>
    { asn := asn, key := k, head := s.hopHeader p FT.beacon 0 0xFFFF
      front := leBytes 5 asn ++ leBytes 1 (stGen (s.hopPort p).table) ++ leBytes 1 s.timeQuality ++ leBytes 1 s.integrity ++
        leBytes 1 s.sysFlag
      flags := 4 * s.reg F.HOP_JOIN_OPEN, tail := [] }

/-- The three forms of an anchor (R243). -/
def State.anchorForm (s : State) (p asn : Nat) : Option BeaconForm :=
  (s.formKey p asn (s.hopPort p).anchorKey).map fun k =>
    { asn := asn, key := k, head := s.hopHeader p FT.anchor 0 0xFFFF
      front := leBytes 5 asn ++ leBytes 1 (stGen (s.hopPort p).table) ++ leBytes 1 s.timeQuality
      flags := 4 * s.reg F.HOP_JOIN_OPEN, tail := leBytes 1 (stJoinSlot (s.hopPort p).table) }

/-- The beacon of a form goes on the air at `start`. -/
def State.beaconAir (s : State) (p ch : Nat) (f : BeaconForm) (nominal start : Nat) : State :=
  let s := s.onAir p ch start 0 (s.formFrame f (delayField nominal start))
  s.modHop p fun h => { h with beacon := some (start, h.busy, f.asn) }

/-- The beacon of a superframe is sent (R242), with its stamp (R94) and event; without a key the slot stays silent (R346). -/
def State.sendBeacon (s : State) (p ch asn nominal : Nat) : State :=
  let start := s.txStart p nominal
  match s.beaconForm p asn with
  | none => (s.modHop p fun h => { h with form := none }).missUnder (s.act F.HOP_PORT_KEYS_GROUP p)
  | some f =>
    let s := (s.modHop p fun h => { h with form := some f }).beaconAir p ch f nominal start
    (s.pushStamp (0x10 + p) (asn % 65536) (start * 65536 - s.radioCorr16 p)).raise Ev.hopBeacon p (leBytes 1 p)

/-- The stamp of a beacon that starts later than planned is that of its TX point (R94, R242); one that the host has read already
stays as it was read (log entry 66). -/
def State.restamp (s : State) (p asn start : Nat) : State :=
  { s with tb := { s.tb with stamps := s.tb.stamps.map fun x =>
    if x.source = 0x10 + p ∧ x.id = asn % 65536 then { x with t16 := start * 65536 - s.radioCorr16 p } else x } }

/-- The anchor beacon (R243). -/
def State.sendAnchor (s : State) (p asn nominal : Nat) : State :=
  match s.anchorForm p asn with
  | none => s.missUnder (s.act F.HOP_PORT_KEYS_GROUP p)
  | some f =>
    let start := s.txStart p nominal
    s.onAir p (stRdv (s.hopPort p).table) start 0 (s.formFrame f (delayField nominal start))

/-! ### Stop frames held ready (R244, R345) -/

/-- Classes and counts of the frames that the Key Store holds, by the state of the latch. -/
def State.heldKinds (s : State) : List (Bool × BitVec 16) :=
  let c := s.stp.count
  if !s.stp.latched then [(false, c + 1), (true, c + 1)]
  else if s.stp.stop then [(true, c)]
  else [(false, c), (true, c + 1)]

/-- A stop frame under a key (R244). -/
def State.stopBytes (s : State) (p asn : Nat) (stop : Bool) (count : BitVec 16) (key : List Byte) : List Byte :=
  let m := s.hopHeader p FT.stop 0 0xFFFF ++ leBytes 5 asn ++ leBytes 1 (b2n stop) ++ leBytes 2 count.toNat ++ [0, 0]
  m ++ cmac8 key m

/-- The stop frame of a slot: the one held, else one computed under the key that is ready now, none where there is none. A frame
counts as held as soon as its key is ready (DESIGN CHOICE, log entry 46). -/
def State.stopFrame (s : State) (p asn : Nat) (stop : Bool) (count : BitVec 16) : Option (List Byte) :=
  if s.keyStop.isSome then none
  else match (s.hopPort p).held.find? fun f => f.asn = asn && f.stop = stop && f.count = count with
    | some f => some f.frame
    | none => (s.stopKey p).map (s.stopBytes p asn stop count)

/-- The frames held for the next eight ASNs of a port, from one on. -/
def State.holdStops (s : State) (p asn : Nat) : State :=
  let frames := ((List.range 8).map fun i => s.heldKinds.filterMap fun k =>
    (s.stopFrame p (asn + i) k.1 k.2).map fun f => (⟨asn + i, k.1, k.2, f⟩ : HeldStop)).flatten
  s.modHop p fun h => { h with held := frames }

/-- The group keys held for the next beacon and the next anchor after a slot (R345). -/
def State.holdForms (s : State) (p asn : Nat) : State :=
  let h := s.hopPort p
  let n := sfNs / s.slotNs p
  let bcn := (asn / n + 1) * n
  let per := max 1 (s.act F.HOP_CTRL_ANCHOR_PERIOD)
  let k0 := (asn / n + per - 1) / per * per
  let anc := (if k0 * n + stAnchor h.table ≤ asn then k0 + per else k0) * n + stAnchor h.table
  s.modHop p fun h => { h with
    beaconKey := (s.formKey p bcn h.beaconKey).map fun k => (bcn, k)
    anchorKey := (s.formKey p anc h.anchorKey).map fun k => (anc, k) }

/-- What the Key Store holds for every enabled port follows the latch (R345). -/
def State.holdAll (s : State) : State :=
  ((List.range s.id.part.radios).filter fun p => s.hopEnabled p && !(s.hopPort p).table.isEmpty).foldl (fun s p =>
    s.holdStops p (s.now / s.slotNs p)) s

/-- Frames of slots that begin at or after a key change are computed anew (R345). -/
def State.dropHeld (s : State) (p : Nat) : State :=
  s.modHop p fun h => { h with
    held := h.held.filter fun f => f.asn * s.slotNs p < s.now, beaconKey := none, anchorKey := none }

/-- A stop frame goes out (R244), or its absence counts (R346). -/
def State.sendStop (s : State) (p ch asn nominal : Nat) : State :=
  match s.stopFrame p asn s.stp.stop s.stp.count with
  | none => s.missUnder (s.act F.HOP_PORT_KEYS_STOP p)
  | some f =>
    let start := s.txStart p nominal
    let air := s.air p 0 24
    if !s.dutyAllows p ch start air then s.withhold p ch air asn else s.onAir p ch start 0 f

/-- A frame under CCM in a slot: the Bool says that it was sent. -/
def State.sendSealed (s : State) (p ch asn nominal mode type enc addr : Nat) (key body : List Byte) : State × Bool :=
  let head := s.hopHeader p type enc addr
  let (b, mic) := ccmSeal key (hopNonce s.hopEui asn) head body (enc = 1)
  let f := head ++ b ++ mic
  let start := s.txStart p nominal
  let air := s.air p mode f.length
  if !s.dutyAllows p ch start air then (s.withhold p ch air asn, false)
  else (s.onAir p ch start mode f, true)

/-- A message for the host goes to the first waiting HOP_RECV, or is dropped (R267). -/
def opHopSend : Nat := 0x0A01
def opHopRecv : Nat := 0x0A02

def State.hostMessage (s : State) (p addr asn : Nat) (data : List Byte) : State :=
  match s.waiters opHopRecv with
  | [] => s.modHop p fun h => { h with recvDrop := h.recvDrop + 1 }
  | d :: _ =>
    (s.writePayload d 0 (data.take d.len)).complete d (if d.len < data.length then St.more else St.ok)
      (leBytes 2 addr ++ leBytes 1 p ++ [0] ++ leBytes 5 asn)

/-- MESSAGE blocks queued on a port, those for addresses that have lost their link among them: at most 256 (R266). -/
def State.messagesOn (s : State) (p : Nat) : Nat :=
  (s.hop.queue.filter fun b => b.btype = DL.message && (s.blockPort b).getD b.port = p).length

/-- The largest message that a destination on a port can be sent (R266): a machine or broadcast by the port's largest `DOWNLINK`
slot, a node by the NODE_ACK of its span. -/
def State.messageCap (s : State) (p addr : Nat) : Nat :=
  min 255 (if addr < 256 || addr = 0xFFFF then (s.dlCaps p).foldl max 0 - 2
    else match s.nodeByShort addr with
      | some k => s.ackCapacity p (ntSlot s.hop.nodeTable k) - 15
      | none => 0)

/-- A MESSAGE block is queued, none when its port's queue is full. -/
def State.queueMessage (s : State) (addr p : Nat) (data : List Byte) (desc : Option Nat) : Option State :=
  if 256 ≤ s.messagesOn p then none else some (s.queueDl ⟨addr, p, DL.message, data, 0, 0, desc, false⟩)

end Sys2Proof.Machine
end

