-- ==== Sys2Proof/Machine/Trig.lean ====
section
/-! DEFINITION. The real functions in the manual's formulas, on rationals: sine and cosine of a fraction of a turn, 2π and the
square root; sine and cosine are rounded to multiples of 2⁻⁶⁴ (log entry 5). -/

namespace Sys2Proof.Machine

/-- Scale of the fixed-point numbers used here. -/
def fpScale : Int := 2 ^ 80

/-- 2π. -/
def twoPi : Rat := 6283185307179586476925286766559005768394338798750 / 1000000000000000000000000000000000000000000000000

/-- The Taylor series from a term: `k` is the next factor of the factorial. -/
def fpSeries (a2 : Int) : Nat → Int → Int → Int
  | 0, _, _ => 0
  | n + 1, k, t => t + fpSeries a2 n (k + 2) (-(t * a2 / fpScale) / (k * (k + 1)))

/-- A fixed-point number rounded to a multiple of 2⁻⁶⁴. -/
def fpRound (v : Int) : Rat := (((v + 2 ^ 15) / 2 ^ 16 : Int) : Rat) / 2 ^ 64

/-- sin and cos of y turns, 0 ≤ y < 1/4. -/
def fpSin (y : Rat) : Rat :=
  let a := (twoPi * y * fpScale).floor
  fpRound (fpSeries (a * a / fpScale) 16 2 a)

def fpCos (y : Rat) : Rat :=
  let a := (twoPi * y * fpScale).floor
  fpRound (fpSeries (a * a / fpScale) 16 1 fpScale)

/-- sin (2π x). -/
def sinTurn (x : Rat) : Rat :=
  let r := x - x.floor
  let q := (4 * r).floor
  let y := r - (q : Rat) / 4
  if q = 0 then fpSin y else if q = 1 then fpCos y else if q = 2 then -fpSin y else -fpCos y

/-- cos (2π x). -/
def cosTurn (x : Rat) : Rat := sinTurn (x + 1 / 4)

/-- The integer square root, bit by bit from bit `n`. -/
def isqrtFrom (v : Nat) : Nat → Nat → Nat
  | 0, r => if (r + 1) * (r + 1) ≤ v then r + 1 else r
  | n + 1, r =>
    let c := r + 2 ^ (n + 1)
    isqrtFrom v n (if c * c ≤ v then c else r)

def isqrt (v : Nat) : Nat := isqrtFrom v (Nat.log2 v / 2 + 1) 0

/-- The square root of a rational that is not negative. -/
def sqrtR (q : Rat) : Rat :=
  ((isqrt ((q * fpScale * fpScale).floor.toNat) : Nat) : Rat) / fpScale

def absR (q : Rat) : Rat := if q < 0 then -q else q
def maxR (a b : Rat) : Rat := if a < b then b else a
def minR (a b : Rat) : Rat := if a < b then a else b

end Sys2Proof.Machine
end

