-- ==== Sys2Proof/Machine/CarOps.lean ====
section
/-! DEFINITION. The Caravan Engine's operations: tracks and tasks, segments, the conflict test and its bins, decisions and
answers, expiry, freeze and thaw, conformance (R268 to R288). -/

namespace Sys2Proof.Machine

/-! ### Tracks and tasks (R268 to R270) -/

def carTracks : Nat := 4096
def trackSize : Nat := 528

def State.trackAddr (s : State) (k : Nat) : Nat := 4096 * s.act F.CAR_TRACK_FRAME_FRAME + trackSize * k

/-- A track record, STATE included. -/
def State.trackRec (s : State) (k : Nat) : List Byte := s.dramRead (s.trackAddr k) trackSize

/-- The engine has read a track record: the uncorrectable errors that the read met count (R448). -/
def State.trackSeen (s : State) (k : Nat) : State := s.dramSeen (s.trackAddr k) trackSize

-- Fields of a track record.
def trKind (b : List Byte) : Nat := if byteAt b 0 ≤ 2 then byteAt b 0 else 1
def trEn (b : List Byte) : Bool := bit (byteAt b 1) 0
def trBoth (b : List Byte) : Bool := bit (byteAt b 1) 1
def trCount (b : List Byte) : Nat := if trKind b = 0 then 2 else clampNat 2 64 (byteAt b 2)
def trField (b : List Byte) : Nat := min 15 (byteAt b 3)
def trState (b : List Byte) : Nat := bits (fieldLE b 6 2) 0 2
def trMachine (b : List Byte) : Nat := bits (fieldLE b 6 2) 8 8
def trVert (b : List Byte) (v : Nat) : Point := (signed 32 (fieldLE b (16 + 8 * v) 4), signed 32 (fieldLE b (20 + 8 * v) 4))
def trVerts (b : List Byte) : List Point := (List.range (trCount b)).map (trVert b)

-- States of R269.
namespace TR
def free : Nat := 0
def allotted : Nat := 1
def done : Nat := 2
def blocked : Nat := 3
end TR

/-- A record as a load stores it (R268, R291): clamped fields, STATE set; and the clamps made. -/
def fixTrack (b : List Byte) : List Byte × Nat :=
  let task := fieldLE b 4 2
  let task' := if task = 0xFFFF then task else min task 255
  (leBytes 1 (trKind b) ++ leBytes 1 (byteAt b 1 % 8) ++ leBytes 1 (trCount b) ++ leBytes 1 (trField b) ++ leBytes 2 task' ++
    leBytes 2 (if bit (byteAt b 1) 2 then TR.blocked else TR.free) ++ List.replicate 8 0 ++ slice b 16 512,
    b2n (trKind b ≠ byteAt b 0) + b2n (trCount b ≠ byteAt b 2) + b2n (trField b ≠ byteAt b 3) + b2n (task ≠ task'))

def State.carMach (s : State) (m : Nat) : CarMach := tget s.car.machs CarMach.reset m

def State.modCar (s : State) (m : Nat) (f : CarMach → CarMach) : State :=
  { s with car := { s.car with machs := tmod s.car.machs CarMach.reset m f } }

/-- STATE of a track is written; a machine that held it holds it no more (R269). -/
def State.setTrack (s : State) (k state : Nat) (m : Nat) : State :=
  let b := s.trackRec k
  let s := if trState b = TR.allotted then s.modCar (trMachine b) fun c => { c with track := none } else s
  let s := s.dramWrite (s.trackAddr k + 6) (leBytes 2 (state + (if state = TR.allotted then 256 * m else 0)))
  if state = TR.allotted then s.modCar m fun c => { c with track := some k, tracks := k :: c.tracks.filter (· ≠ k) } else s

def State.task (s : State) (t : Nat) : List Byte := padTo 48 (tget s.car.tasks [] t)

-- Fields of a task record (R270).
def tkEn (b : List Byte) : Bool := bit (byteAt b 0) 0
def tkPolicy (b : List Byte) : Nat := if byteAt b 1 ≤ 3 then byteAt b 1 else 0
def tkSkip (b : List Byte) : Nat := clampNat 1 15 (byteAt b 2)
def tkField (b : List Byte) : Nat := byteAt b 3
def tkFirst (b : List Byte) : Nat := min 4095 (fieldLE b 4 2)
def tkCount (b : List Byte) : Nat := clampNat 1 (4096 - tkFirst b) (fieldLE b 6 2)
def tkEligible (b : List Byte) (m : Nat) : Bool := bit (byteAt b (16 + m / 8)) (m % 8)

/-- A record as CAR_TASK_SET stores it, and the clamps made. -/
def fixTask (b : List Byte) : List Byte × Nat :=
  (leBytes 1 (byteAt b 0 % 2) ++ leBytes 1 (tkPolicy b) ++ leBytes 1 (tkSkip b) ++ slice b 3 1 ++ leBytes 2 (tkFirst b) ++
    leBytes 2 (tkCount b) ++ List.replicate 8 0 ++ slice b 16 32,
    b2n (tkPolicy b ≠ byteAt b 1) + b2n (tkSkip b ≠ byteAt b 2) + b2n (tkFirst b ≠ fieldLE b 4 2) +
      b2n (tkCount b ≠ fieldLE b 6 2))

/-! ### The conflict test (R277) -/

def orient (p q r : Point) : Int := ((q.1 - p.1) * (r.2 - p.2) - (q.2 - p.2) * (r.1 - p.1)).sign

/-- `q` lies in the box of `p` and `r`. -/
def between (p q r : Point) : Bool :=
  decide (min p.1 r.1 ≤ q.1 ∧ q.1 ≤ max p.1 r.1 ∧ min p.2 r.2 ≤ q.2 ∧ q.2 ≤ max p.2 r.2)

/-- Two segments cross or touch. -/
def crosses (p0 p1 q0 q1 : Point) : Bool :=
  let a := orient p0 p1 q0
  let b := orient p0 p1 q1
  let c := orient q0 q1 p0
  let d := orient q0 q1 p1
  (a ≠ b && c ≠ d) || (a = 0 && between p0 q0 p1) || (b = 0 && between p0 q1 p1) || (c = 0 && between q0 p0 q1) ||
    (d = 0 && between q0 p1 q1)

/-- Squared distance from a point to a segment. -/
def pt2 (x a b : Point) : Rat :=
  let dx := b.1 - a.1
  let dy := b.2 - a.2
  let wx := x.1 - a.1
  let wy := x.2 - a.2
  let dd := dx * dx + dy * dy
  if dd = 0 then ((wx * wx + wy * wy : Int) : Rat)
  else
    let t : Rat := maxR 0 (minR 1 (((wx * dx + wy * dy : Int) : Rat) / dd))
    let ex : Rat := wx - t * dx
    let ey : Rat := wy - t * dy
    ex * ex + ey * ey

/-- Squared distance of two segments. -/
def segdist2 (p0 p1 q0 q1 : Point) : Rat :=
  if crosses p0 p1 q0 q1 then 0
  else minR (minR (pt2 p0 q0 q1) (pt2 p1 q0 q1)) (minR (pt2 q0 p0 p1) (pt2 q1 p0 p1))

/-- The end of a segment's window; one that R285 holds open has none. -/
def Seg.until' (g : Seg) : Option Nat := if g.held then none else g.e

/-- Two windows overlap within a margin. -/
def windowsMeet (a b : Seg) (margin : Nat) : Bool :=
  (match b.until' with | some e => decide (a.s < e + margin) | none => true) &&
  (match a.until' with | some e => decide (b.s < e + margin) | none => true)

/-- Segments of different owners conflict. -/
def conflict (clearance margin : Nat) (a b : Seg) : Bool :=
  let r : Nat := a.h + b.h + clearance
  windowsMeet a b margin && segdist2 a.p0 a.p1 b.p0 b.p1 < (r * r : Nat)

/-! ### Bins (R278) -/

/-- Squared distance from a square's closed area to a segment. -/
def boxDist2 (a b : Point) (x0 y0 side : Int) : Rat :=
  let inside := fun (p : Point) => decide (x0 ≤ p.1 ∧ p.1 ≤ x0 + side ∧ y0 ≤ p.2 ∧ p.2 ≤ y0 + side)
  if inside a || inside b then 0
  else
    let c0 : Point := (x0, y0)
    let c1 : Point := (x0 + side, y0)
    let c2 : Point := (x0 + side, y0 + side)
    let c3 : Point := (x0, y0 + side)
    minR (minR (segdist2 c0 c1 a b) (segdist2 c1 c2 a b)) (minR (segdist2 c2 c3 a b) (segdist2 c3 c0 a b))

/-- The head of a bin. -/
def binHead (field : Nat) (bx by' : Int) : Nat :=
  crc32c (leBytes 1 field ++ leBytes 4 (unsigned 32 bx) ++ leBytes 4 (unsigned 32 by')) % 8192

/-- Integers from `lo` to `hi`. -/
def intRange (lo hi : Int) : List Int := (List.range (hi - lo + 1).toNat).map fun k => lo + k

/-- The heads under which a segment is registered, one for each bin. -/
def segHeads (bin clearance : Nat) (g : Seg) : List Nat :=
  let r : Int := g.h + clearance
  let lox := min g.p0.1 g.p1.1 - r
  let hix := max g.p0.1 g.p1.1 + r
  let loy := min g.p0.2 g.p1.2 - r
  let hiy := max g.p0.2 g.p1.2 + r
  ((intRange (lox / bin) (hix / bin)).map fun bx =>
    (intRange (loy / bin) (hiy / bin)).filterMap fun by' =>
      if boxDist2 g.p0 g.p1 (bx * bin) (by' * bin) bin ≤ ((r * r : Int) : Rat) then some (binHead g.field bx by') else none).flatten

/-! ### Parameters -/

def State.carClearance (s : State) : Nat := s.act F.CAR_CLEAR_CLEARANCE
def State.carMargin (s : State) : Nat := s.act F.CAR_CLEAR_MARGIN

/-- BIN in mm. -/
def State.carBin (s : State) : Nat := 8000 * 2 ^ min 4 (s.act F.CAR_CTRL_BIN)

/-- HALF_WIDTH and BODY_HALF of a machine, mm. -/
def State.carHalf (s : State) (m : Nat) : Nat := 10 * s.act F.CAR_MACH_HALF_WIDTH m
def State.carBody (s : State) (m : Nat) : Nat := 10 * s.act F.CAR_MACH_BODY_HALF m

def State.carOn (s : State) : Bool := s.unitOn U.car && !s.car.fault && s.act F.CAR_CTRL_EN = 1

/-- A machine may request and be checked. -/
def State.carEnabled (s : State) (m : Nat) : Bool := s.carOn && m < s.machines && s.act F.CAR_MACH_EN m = 1

/-- CONF_SRC is `CENTRAL`; the MG-7732 has `ROVER` only (R290). -/
def State.confCentral (s : State) : Bool := s.id.part = .mg7740 && s.act F.CAR_CTRL_CONF_SRC = 1

/-- Windows are counted in 10 ms units (R271). -/
def carUnit : Nat := 10000000

/-- The reservation of an owner. -/
def State.reservation (s : State) (o : Nat) : List Seg := tget s.car.res [] o

/-- Active segments, and bin entries in use. -/
def State.carSegs (s : State) : Nat := (s.car.res.map fun e => e.2.length).sum

def State.carHeads (s : State) : List Nat :=
  (s.car.res.map fun e => (e.2.map (segHeads s.carBin s.carClearance)).flatten).flatten

/-- Two segments are a candidate pair, since they share a bin head, and conflict (R277, R278). -/
def State.clash (s : State) (a b : Seg) : Bool :=
  conflict s.carClearance s.carMargin a b &&
    (segHeads s.carBin s.carClearance a).any fun h => (segHeads s.carBin s.carClearance b).contains h

/-- A reservation is replaced; what froze, stood, deviated or was held open with the old one goes with it (R272, R284, R285; log
entry 76). -/
def State.setRes (s : State) (o : Nat) (l : List Seg) : State :=
  let s := { s with car := { s.car with res := tset s.car.res [] o l } }
  if o < 256 then s.modCar o fun c =>
    { c with frozenAt := none, stand := false, deviations := 0, deviation := false, overrun := false } else s

/-! ### Answers (R279, R280) -/

-- Answer codes and reasons.
namespace An
def granted : Nat := 0
def deferred : Nat := 1
def refused : Nat := 2
def hold : Nat := 3
def resume : Nat := 4
def revised : Nat := 5
end An

namespace Why
def none : Nat := 0
def conflict : Nat := 1
def noTrack : Nat := 2
def trackTaken : Nat := 3
def segCount : Nat := 4
def segLong : Nat := 5
def tableFull : Nat := 6
def horizon : Nat := 7
def notEligible : Nat := 8
def stopped : Nat := 9
def binFull : Nat := 10
def hostTimeout : Nat := 11
def deviation : Nat := 12
def overrun : Nat := 13
def trackHeld : Nat := 14
def noTrackHeld : Nat := 15
end Why

/-- An answer. -/
structure Answered where
  code : Nat
  why : Nat
  track : Option Nat
  segs : Nat
  reversed : Bool
  /-- TIME, ms. -/
  time : Nat
  other : Option Nat
deriving DecidableEq, Repr

def refusal (why : Nat) : Answered := ⟨An.refused, why, none, 0, false, 0, none⟩

/-- The 16 bytes of R280. -/
def Answered.bytes (a : Answered) (id : Nat) : List Byte :=
  leBytes 2 id ++ leBytes 1 a.code ++ leBytes 1 a.why ++ leBytes 2 (a.track.getD 0xFFFF) ++ leBytes 1 a.segs ++
  leBytes 1 (b2n a.reversed) ++ leBytes 4 a.time ++ leBytes 2 (a.other.getD 0xFFFF) ++ [0, 0]

/-- An unsolicited answer to a machine. -/
def State.carTell (s : State) (m code why segs : Nat) : State :=
  s.queueBlock m DL.trackAnswer ((Answered.mk code why (s.carMach m).track segs false 0 none).bytes 0xFFFF)

/-! ### Building segments (R274) -/

/-- Length of a leg, mm. -/
def legLen (a b : Point) : Rat :=
  sqrtR ((((b.1 - a.1) * (b.1 - a.1) + (b.2 - a.2) * (b.2 - a.2) : Int) : Rat))

/-- The segments of a path; `cum` is the length at its start, `t` T_DEPART in ms. -/
def pathSegs (field h t speed : Nat) : Rat → List Point → List Seg
  | cum, a :: b :: r =>
    let cum' := cum + legLen a b
    let unit := fun (c : Rat) => ((t : Rat) + c * 1000 / speed) / 10
    ⟨a, b, h, (unit cum).floor.toNat, some (unit cum').ceil.toNat, field, none, false⟩ :: pathSegs field h t speed cum' (b :: r)
  | _, _ => []

def sqDist (a b : Point) : Int := (a.1 - b.1) * (a.1 - b.1) + (a.2 - b.2) * (a.2 - b.2)

/-- The entry is the last vertex (R274): under `NEXT` with BOTH_DIR the nearer end, vertex 0 winning a tie. -/
def entersLast (t : List Byte) (from' : Point) : Bool :=
  trBoth t && sqDist (trVert t (trCount t - 1)) from' < sqDist (trVert t 0) from'

/-! ### Choosing a track (R275) -/

/-- Positions tried under `SKIP_N`, outward from the last one. -/
def skipOrder (last skip count : Nat) : List Nat :=
  ((List.range count).map fun k =>
    let d := skip + 1 + k
    [last + d] ++ (if d ≤ last then [last - d] else [])).flatten

/-- The track of a `NEXT` request, by its position in the task. -/
def State.chooseTrack (s : State) (m : Nat) (task : List Byte) (from' : Point) : Option Nat :=
  let first := tkFirst task
  let ok := fun (head : Bool) (i : Nat) =>
    let t := s.trackRec (first + i)
    trState t = TR.free && trEn t && trField t = tkField task && (trKind t = 2) = head
  let all := List.range (tkCount task)
  let plainFree := all.any fun i => trState (s.trackRec (first + i)) = TR.free && trKind (s.trackRec (first + i)) ≠ 2
  let cand := all.filter (ok !plainFree)
  let lastPos := ((s.carMach m).tracks.find? fun k => first ≤ k && k < first + tkCount task).map (· - first)
  match tkPolicy task, lastPos with
  | 1, some l => match (skipOrder l (tkSkip task) (tkCount task)).find? fun i => cand.contains i with
    | some i => some (first + i)
    | none => cand.head?.map (first + ·)
  | 2, _ =>
    let dist := fun i =>
      let t := s.trackRec (first + i)
      (sqDist (if entersLast t from' then trVert t (trCount t - 1) else trVert t 0) from').toNat
    (sortBy dist cand).head?.map (first + ·)
  | _, _ => cand.head?.map (first + ·)

/-! ### Decisions (R276 to R281) -/

/-- A machine's requests are refused: the latch is set, or it is frozen or held. -/
def State.carStopped (s : State) (m : Nat) : Bool :=
  let c := s.carMach m
  s.stp.latched || c.stopped || c.lost || c.held

/-- Every active segment of other owners, with its owner. -/
def State.othersSegs (s : State) (o : Nat) : List (Nat × Seg) :=
  (s.car.res.map fun e => if e.1 = o then [] else e.2.map fun g => (e.1, g)).flatten

/-- The test of a reservation and its grant (R277 to R279); reasons are taken in the order SEG_COUNT, HORIZON, SEG_LONG,
CONFLICT, TABLE_FULL, BIN_FULL (log entry 23). -/
def State.carTest (s : State) (o : Nat) (segs : List Seg) (track : Option Nat) (rev : Bool) : State × Answered :=
  let base : Answered := ⟨An.refused, Why.none, track, 0, rev, 0, none⟩
  let now := s.now
  let mg := s.carMargin
  let defer := s.act F.CAR_CLEAR_DEFER_MAX * 1000000000
  let limit := now + s.act F.CAR_CTRL_HORIZON * 10000000000
  if segs.isEmpty || 64 < segs.length then (s, { base with why := Why.segCount })
  else if segs.any fun g => g.s * carUnit + 1000000000 < now || (match g.e with | some e => decide (limit < e * carUnit) | none => false)
    then (s, { base with why := Why.horizon })
  else
    let heads := segs.map (segHeads s.carBin s.carClearance)
    if heads.any fun h => 32 < h.length then (s, { base with why := Why.segLong })
    else
      let others := s.othersSegs o
      let hits := (segs.map fun g => others.filter fun x => s.clash g x.2).flatten
      match hits with
      | h :: _ =>
        let closes := hits.all fun x => match x.2.until' with | some e => decide ((e + mg) * carUnit ≤ now + defer) | none => false
        let latest := (hits.map fun x => x.2.e.getD 0 + mg).foldl max 0
        if defer ≠ 0 && closes then
          (s, { base with code := An.deferred, why := Why.conflict, other := some h.1, time := latest * 10 % 2 ^ 32 })
        else (s, { base with why := Why.conflict, other := some h.1 })
      | [] =>
        let kept := (s.car.res.filter fun e => e.1 ≠ o).map fun e => e.2
        let total := (kept.map (·.length)).sum + segs.length
        let all := ((kept.flatten ++ segs).map (segHeads s.carBin s.carClearance)).flatten
        if 16384 < total || 131072 < all.length then (s, { base with why := Why.tableFull })
        else if heads.flatten.any fun h => 64 < all.countP (· = h) then (s, { base with why := Why.binFull })
        else
          let s := s.setRes o segs
          let s := match track with | some k => s.setTrack k TR.allotted o | none => s
          let last := (segs.getLast?.bind (·.e)).getD 0
          (s, { base with code := An.granted, segs := segs.length, time := last * 10 % 2 ^ 32 })

/-- The field of a machine. -/
def State.machineField (s : State) (o : Nat) : Nat := if o < 256 then meField (s.machine o) else 0

/-- What a decision does: an answer, or the host queue (R282). -/
inductive Verdict where
  | answer (a : Answered)
  | toHost
deriving DecidableEq, Repr

/-- A request along a track. -/
def State.carAlong (s : State) (r : Req) (k : Nat) (rev : Bool) : State × Answered :=
  let v := trVerts (s.trackRec k)
  let pts := r.points ++ (if rev then v.reverse else v)
  (s.trackSeen k).carTest r.owner (pathSegs (s.machineField r.owner) (s.carHalf r.owner) r.depart r.speed 0 pts) (some k) rev

/-- A machine may be allotted tracks of a task (R270, R279). -/
def State.taskOpen (s : State) (t : List Byte) (o : Nat) : Bool := tkEn t && tkEligible t o && tkField t = s.machineField o

/-- DONE_CURRENT, whatever the KIND and the answer (R273, R275). -/
def State.doneCurrent (s : State) (r : Req) : State :=
  match (s.carMach r.owner).track with
  | some k => if r.owner < 256 && bit r.flags 0 then s.setTrack k TR.done 0 else s
  | none => s

/-- What R275 and R279 say of the track that a CAR_RESERVE names, before its segments are tested: the reason of a refusal. The answer
to a token is held to the task of its request as well (R282). -/
def State.trackRefused (s : State) (r : Req) (k : Nat) : Option Nat :=
  let held := (s.carMach r.owner).track
  let t := s.trackRec k
  let task := s.task r.task
  let token := r.kind = 6
  if token && !s.taskOpen task r.owner then some Why.notEligible
  else if carTracks ≤ k || !trEn t || (token && (k < tkFirst task || tkFirst task + tkCount task ≤ k || trField t ≠ tkField task)) then
    some Why.noTrack
  else if held.isSome && (token || held ≠ some k) then some Why.trackHeld
  else if trState t ≠ TR.free && held ≠ some k then some Why.trackTaken
  else none

/-- One request is decided (R275, R279, R281, R293; log entries 48 and 77). `RELEASE` and `DONE` are answered whatever stands
(R281). -/
def State.carDecide (s : State) (r : Req) : State × Verdict :=
  let o := r.owner
  let mach := o < 256
  let s := s.doneCurrent r
  let held := (s.carMach o).track
  let no := fun (w : Nat) => Verdict.answer (refusal w)
  let always := r.kind = 3 || r.kind = 4
  if mach && !always && !s.carEnabled o then (s, no Why.notEligible)
  else if mach && !always && s.carStopped o then (s, no Why.stopped)
  else match r.kind with
    | 0 =>
      if held.isSome then (s, no Why.trackHeld)
      else
        let t := s.task r.task
        if !s.taskOpen t o then (s, no Why.notEligible)
        else if tkPolicy t = 3 then
          if 64 ≤ (s.car.hostq.filter fun h => !h.read).length then (s, no Why.tableFull) else (s, .toHost)
        else
          let from' := r.points.getLast?.getD (0, 0)
          let s := (List.range (tkCount t)).foldl (fun s i => s.trackSeen (tkFirst t + i)) s
          match s.chooseTrack o t from' with
          | none => (s, no Why.noTrack)
          | some k => let (s, a) := s.carAlong r k (entersLast (s.trackRec k) from'); (s, .answer a)
    | 1 => match held with
      | none => (s, no Why.noTrackHeld)
      | some k =>
        let (s, a) := s.carAlong r k (bit r.flags 1)
        (s, .answer a)
    | 2 =>
      let (s, a) := s.carTest o (pathSegs (s.machineField o) (s.carHalf o) r.depart r.speed 0 r.points) none false
      (s, .answer a)
    | 3 =>
      let s := s.setRes o []
      let s := match held with
        | some k => if bit r.flags 2 then s.setTrack k TR.free 0 else s
        | none => s
      (s, .answer ⟨An.granted, Why.none, none, 0, false, 0, none⟩)
    | 4 => match held with
      | none => (s, no Why.noTrackHeld)
      | some k => (s.setTrack k TR.done 0, .answer ⟨An.granted, Why.none, none, 0, false, 0, none⟩)
    | _ =>
      let track := if mach then r.track else none
      match track with
      | none => let (s, a) := s.carTest o r.segs none r.reversed; (s, .answer a)
      | some k =>
        let why := s.trackRefused r k
        let s := if k < carTracks then s.trackSeen k else s
        match why with
        | some w => (s, no w)
        | none => let (s, a) := s.carTest o r.segs (some k) r.reversed; (s, .answer a)

/-- An answer is counted, raised and sent (R279, R280, R298). -/
def State.giveAnswer (s : State) (r : Req) (a : Answered) : State :=
  let c := s.car
  let s := { s with car :=
    if a.code = An.granted then { c with granted := c.granted + 1 }
    else if a.code = An.deferred then { c with deferred := c.deferred + 1 }
    else { c with refused := c.refused + 1 } }
  let s := if a.why = Why.tableFull || a.why = Why.binFull then s.raise Ev.carTableFull 0 [] else s
  let s := s.raise Ev.carAnswer r.owner (leBytes 2 r.owner ++ leBytes 1 a.code)
  let body := a.bytes r.id
  let s := if r.owner < 256 && r.notify then s.queueBlock r.owner DL.trackAnswer body else s
  match r.desc with
  | some serial => match s.waitingDesc serial with
    | some d => s.complete d St.ok body
    | none => s
  | none => s

/-- COLLECT in ns. -/
def State.carCollect (s : State) : Nat := s.act F.CAR_CTRL_COLLECT * 1000000

/-- The order of R276. -/
def Req.before (a b : Req) : Bool :=
  a.time < b.time || (a.time = b.time && (a.prio < b.prio || (a.prio = b.prio && a.owner < b.owner)))

/-- The pending request that is decided first, of those whose COLLECT has passed. -/
def State.firstReq (s : State) : Option Req :=
  (s.car.pend.filter fun r => r.at' + s.carCollect ≤ s.now).foldl (fun b r => match b with
    | none => some r
    | some x => if r.before x then some r else b) none

/-! ### Requests from machines (R273) -/

/-- The instant nearest `ref` whose low 32 bits are `low`; the earlier of two equally near (R248). -/
def nearest32 (low ref : Nat) : Nat :=
  let d := (low + 2 ^ 32 - ref % 2 ^ 32) % 2 ^ 32
  if d < 2 ^ 31 then ref + d else ref + d - 2 ^ 32

/-- Steps from a point. -/
def stepPoints (b : List Byte) : Nat → Nat → Point → List Point
  | 0, _, _ => []
  | n + 1, v, p =>
    let q : Point := (p.1 + 100 * signed 16 (fieldLE b (28 + 4 * v) 2), p.2 + 100 * signed 16 (fieldLE b (30 + 4 * v) 2))
    q :: stepPoints b n (v + 1) q

/-- A TRACK_REQUEST block is taken, up to the length of its format (R247, R273, R276). -/
def State.trackRequest (s : State) (m : Nat) (b : List Byte) : State :=
  if !s.has U.car || !s.carEnabled m || 4 < byteAt b 0 || b.length < 28 then s
  else
    let nv := min 8 (byteAt b 13)
    if b.length < 28 + 4 * nv then s
    else
      let now := s.now
      let rt := nearest32 (fieldLE b 4 4) (now / 1000000) * 1000000
      let rt := if now < rt || rt + 1000000000 < now then now else rt
      let start : Point := (signed 32 (fieldLE b 16 4), signed 32 (fieldLE b 20 4))
      let speed := clampNat 100 10000 (fieldLE b 24 2)
      let s := s.countClamps (b2n (nv ≠ byteAt b 13) + b2n (speed ≠ fieldLE b 24 2)) none
      let r : Req := ⟨m, byteAt b 0, byteAt b 1, fieldLE b 2 2, rt, nearest32 (fieldLE b 8 4) (now / 1000000), byteAt b 12,
        start :: stepPoints b nv 0 start, speed, mePriority (s.machine m), now, b.take (28 + 4 * nv), [], none, false, none, true⟩
      { s with car := { s.car with pend := s.car.pend ++ [r] } }

/-! ### Expiry and stands (R284) -/

/-- The stand of a machine. -/
def State.standAt (s : State) (m : Nat) (p : Point) : Seg :=
  ⟨p, p, s.carHalf m, s.now / carUnit, none, s.machineField m, none, false⟩

/-- A segment's E + M has passed. -/
def Seg.past (g : Seg) (margin now : Nat) : Bool :=
  match g.e with | some e => !g.held && decide ((e + margin) * carUnit ≤ now) | none => false

/-- Expired segments of one owner go; a machine's last one leaves a stand. -/
def State.expireOwner (s : State) (o : Nat) (l : List Seg) : State :=
  let keep := l.filter fun g => !g.past s.carMargin s.now
  if keep.length = l.length then s
  else if !keep.isEmpty || 256 ≤ o then { s with car := { s.car with res := tset s.car.res [] o keep } }
  else match l.getLast? with
    | none => s
    | some g =>
      let frozen := (s.carMach o).frozenAt.isSome
      let st := s.standAt o g.p1
      let st := if frozen then { st with froze := some none } else st
      ({ s with car := { s.car with res := tset s.car.res [] o [st] } }).modCar o fun c => { c with stand := true }

def State.expireAll (s : State) : State := s.car.res.foldl (fun s e => s.expireOwner e.1 e.2) s

/-! ### Freeze and thaw (R287) -/

/-- A machine's reservation is frozen now. -/
def State.freezeRes (s : State) (m : Nat) : State :=
  if (s.carMach m).frozenAt.isSome || (s.reservation m).isEmpty then s
  else
    let now := s.now
    let l := (s.reservation m).map fun g =>
      if (match g.e with | some e => decide (now ≤ e * carUnit) | none => true) then { g with froze := some g.e, e := none } else g
    ({ s with car := { s.car with res := tset s.car.res [] m l } }).modCar m fun c => { c with frozenAt := some now }

/-- The freezes by the latch, for every machine. -/
def State.freezeAll (s : State) : State :=
  if !s.has U.car then s
  else (List.range s.machines).foldl (fun s m => (s.modCar m fun c => { c with stopped := true }).freezeRes m) s

/-- The freeze by LINK_LOST. -/
def State.freezeLost (s : State) (m : Nat) : State :=
  if !s.has U.car then s else (s.modCar m fun c => { c with lost := true }).freezeRes m

/-- The longest run of segments from the front with no conflict. -/
def State.keepClear (s : State) (m : Nat) (l : List Seg) : List Seg :=
  let others := s.othersSegs m
  l.takeWhile fun g => !others.any fun x => s.clash g x.2

/-- The thaw, once no freeze stands (R287). -/
def State.thaw (s : State) (m : Nat) : State :=
  let c := s.carMach m
  if c.stopped || c.lost || c.held then s
  else match c.frozenAt with
    | none => s
    | some f =>
      let d := (s.now - f + carUnit - 1) / carUnit
      let l := (s.reservation m).map fun g => match g.froze with
        | some e => { g with s := g.s + d, e := e.map (· + d), froze := none }
        | none => g
      let keep := s.keepClear m l
      let s := s.modCar m fun c => { c with frozenAt := none }
      let cut := keep.length < l.length
      let s := if keep.isEmpty then
          match l.getLast? with
          | some g =>
            ({ s with car := { s.car with res := tset s.car.res [] m [s.standAt m g.p1] } }).modCar m fun c => { c with stand := true }
          | none => s
        else { s with car := { s.car with res := tset s.car.res [] m keep } }
      let s := s.carTell m An.revised Why.none keep.length
      if cut then s.raise Ev.carRevised 0 [] else s

/-- A re-enable lifts the freezes of a stop and of LINK_LOST. -/
def State.thawEnable (s : State) (m : Nat) : State :=
  if !s.has U.car then s else (s.modCar m fun c => { c with stopped := false, lost := false }).thaw m

/-- A Timebase step releases every machine reservation (R288). -/
def State.carStep (s : State) : State :=
  (s.car.res.filter fun e => e.1 < 256).foldl (fun s e =>
    ((s.setRes e.1 []).carTell e.1 An.revised Why.none 0).raise Ev.carRevised 0 []) s

/-! ### Conformance (R285, R286) -/

/-- A machine is held. -/
def State.carHoldMachine (s : State) (m why : Nat) : State :=
  if (s.carMach m).held then s
  else
    -- the Section Engine releases its claims (R322)
    let s := (s.carTell m An.hold why 0).releaseClaims fun _ c => c.machine = m
    ((s.modCar m fun c => { c with held := true }).freezeRes m).raise Ev.carHold 0 []

/-- What DEV_ACT or OVR_ACT selects. -/
def State.carAct (s : State) (m act why : Nat) (e : Ev) : State :=
  if act = 0 then s
  else
    let s := s.raise e 0 []
    if act = 2 then s.carHoldMachine m why else s

/-- Distance from a point to a segment's centreline, mm. -/
def distTo (east north : Rat) (a b : Point) : Rat :=
  let dx : Rat := b.1 - a.1
  let dy : Rat := b.2 - a.2
  let wx : Rat := east - a.1
  let wy : Rat := north - a.2
  let dd := dx * dx + dy * dy
  let t : Rat := if dd = 0 then 0 else maxR 0 (minR 1 ((wx * dx + wy * dy) / dd))
  let ex := wx - t * dx
  let ey := wy - t * dy
  sqrtR (ex * ex + ey * ey)

/-- A conformance solution: antenna position in mm, unit heading (sin, cos) and its instant. While any freeze stands the solutions are
counted, and a condition that fails clears, but nothing is raised and no segment is newly held open (R285, R287; log entry 76). -/
def State.conform (s : State) (m : Nat) (east north hs hc : Rat) (tObs : Nat) : State :=
  if !s.carEnabled m || (s.reservation m).isEmpty then s
  else
    let c := s.carMach m
    let frozen := c.stopped || c.lost || c.held
    let e := s.machine m
    let f : Rat := meAntFwd e
    let r : Rat := meAntRight e
    let vE := east - f * hs - r * hc
    let vN := north - f * hc + r * hs
    let live := (s.reservation m).filter fun g => !g.past s.carMargin s.now
    let body : Rat := s.carBody m
    let dev := !live.isEmpty && live.all fun g => 0 < distTo vE vN g.p0 g.p1 + body - g.h
    let isOver := fun (g : Seg) => match g.e with
      | some en => decide ((en + s.carMargin) * carUnit ≤ tObs) && distTo vE vN g.p0 g.p1 ≤ (g.h : Rat) &&
          (g.h : Rat) < distTo vE vN g.p1 g.p1
      | none => false
    let l := (s.reservation m).map fun g => { g with held := isOver g && (g.held || !frozen) }
    let anyOver := l.any (·.held)
    let n := if dev then c.deviations + 1 else 0
    let nowDev := dev && (c.deviation || (!frozen && s.reg F.CAR_CONF_DEV_COUNT ≤ n))
    let s := { s with car := { s.car with res := tset s.car.res [] m l } }
    let s := s.modCar m fun c => { c with deviations := n, deviation := nowDev, overrun := anyOver }
    let s := if nowDev && !c.deviation then
        ({ s with car := { s.car with deviations := s.car.deviations + 1 } }).carAct m (s.reg F.CAR_CONF_DEV_ACT) Why.deviation
          Ev.carDeviation
      else s
    if anyOver && !c.overrun then
      ({ s with car := { s.car with overruns := s.car.overruns + 1 } }).carAct m (s.reg F.CAR_CONF_OVR_ACT) Why.overrun
        Ev.carOverrun
    else s

/-- The Caravan Engine serves a descriptor, or the status that stops it (R297). -/
def State.carStop (s : State) : Option Nat :=
  if s.car.fault then some St.unitFault else if !s.unitOn U.car then some St.notConfigured else none

end Sys2Proof.Machine
end

