-- ==== Sys2Proof/Machine/StopOps.lean ====
section
/-! DEFINITION. The stop latch and what it does, fabric stops, the stop outputs, and the entry to `SAFE_HOLD`
(R17, R28 to R30, R102, R245, R332 to R347, R383). -/

namespace Sys2Proof.Machine

-- Source codes of R335.
namespace Src
def powerOn : Nat := 1
def pinA : Nat := 2
def pinB : Nat := 3
def ring : Nat := 4
def fabric : Nat := 5
def pendant : Nat := 6
def mirage : Nat := 7
def watchdog : Nat := 8
def pfail : Nat := 9
def pendantLost : Nat := 10
def fatal : Nat := 11
end Src

-- Fatal causes of R28.
namespace Fatal
def eccStp : Nat := 1
def eccTb : Nat := 2
def eccHop : Nat := 3
def stageSlow : Nat := 4
def dieLink : Nat := 5
def stopSelftest : Nat := 6
def securityCore : Nat := 7
end Fatal

/-! ### The outputs (R347) -/

/-- An output is driven to its stopped level; false for STOP_OUT_A. -/
def State.outStopped (s : State) (b : Bool) : Bool :=
  !(s.pwr.state = .run && (!s.stp.latched ||
      (!s.stp.stop && s.act (if b then F.STP_CTRL_OUT_B_PAUSE else F.STP_CTRL_OUT_A_PAUSE) = 0)) &&
    (if b then s.stp.pulseB else s.stp.pulseA).isNone)

/-- The read-backs follow the drives, but for a pad that is stuck (R348); an output that begins to be driven to its running level
begins its test period. -/
def State.settleOuts (s : State) : State :=
  let a := s.stp.padA.getD (s.outStopped false)
  let b := s.stp.padB.getD (s.outStopped true)
  let now := s.clk.counter
  { s with stp := { s.stp with
    readA := a, readB := b
    testA := if s.stp.readA && !a then now else s.stp.testA
    testB := if s.stp.readB && !b then now else s.stp.testB } }

/-- A pad does not follow its drive: it stays at a level, and the read-back shows it (R348). -/
def State.stickPad (s : State) (outB stopped : Bool) : State :=
  { s with stp :=
    if outB then { s.stp with padB := some stopped, readB := stopped }
    else { s.stp with padA := some stopped, readA := stopped } }

/-! ### Fabric stops (R341, R342, R407) -/

/-- The window of R341. -/
def State.stopWindow (s : State) : Nat := s.now / 10000000

/-- SCOPE of a class. -/
def State.stopScope (s : State) (stop : Bool) : Nat :=
  if !s.unitOn U.stp then 0 else s.act (if stop then F.STP_CTRL_SCOPE_STOP else F.STP_CTRL_SCOPE_PAUSE)

/-- The initial hop limit of a scope. -/
def State.scopeHops (s : State) (scope : Nat) : Nat :=
  match scope with
  | 2 => s.act F.STP_CTRL_REGION_HOPS
  | 3 => 32
  | _ => 1

/-- The body of a fabric stop without its CMAC (R341). -/
def State.stopBody (s : State) (stop : Bool) (count : BitVec 16) (scope window : Nat) : List Byte :=
  leBytes 2 s.claimedAddr ++ leBytes 1 (b2n stop + 2 * scope) ++ [0] ++ leBytes 4 (window % 2 ^ 32) ++
  leBytes 2 count.toNat ++ leBytes 6 0

/-- The fabric stop key for sending. -/
def State.fabTxKey (s : State) : Option (List Byte) := s.readyKey (s.act F.STP_KEYS_FAB_TX)

/-- A fabric stop's body with its CMAC: the one held, else one computed under the key that is ready now (R345, log entry 46). -/
def State.stopPayload (s : State) (stop : Bool) (count : BitVec 16) (scope window : Nat) : Option (List Byte) :=
  let b := s.stopBody stop count scope window
  if s.keyStop.isSome then none
  else match s.fab.held.find? fun h =>
      h.window = window && h.stop = stop && h.count = count && h.scope = scope && h.bytes.take 16 = b with
    | some h => some h.bytes
    | none => s.fabTxKey.map fun k => b ++ cmac8 k b

/-- The bodies held for the next eight windows; a class whose scope is `NONE` is held for `NEIGHBOURS`, the scope that R343 and the
entry to `SAFE_HOLD` give it. -/
def State.holdBodies (s : State) : State :=
  if !s.has U.fab || !s.unitOn U.stp then s
  else
    let bodies := ((List.range 8).map fun i => s.heldKinds.filterMap fun k =>
      let scope := if s.stopScope k.1 = 0 then 1 else s.stopScope k.1
      (s.stopPayload k.1 k.2 scope (s.stopWindow + i)).map fun b =>
        (⟨s.stopWindow + i, k.1, k.2, scope, b⟩ : HeldBody)).flatten
    { s with fab := { s.fab with held := bodies } }

/-- One fabric stop goes out on every `UP` port; with none ready, nothing is sent (R346). -/
def State.sendFabStop (s : State) (stop : Bool) (count : BitVec 16) (scope window : Nat) : State :=
  match s.stopPayload stop count scope window with
  | none => s.missUnder (s.act F.STP_KEYS_FAB_TX)
  | some b => s.originateFlood s.claimedAddr FC.stop 0 (s.scopeHops scope) 1 b

/-- A fabric stop of the device's own, and its repeats in the next two windows (R342, R407). -/
def State.floodStop (s : State) (scope : Nat) : State :=
  if s.pwr.state ≠ .run || !s.has U.fab || !s.unitOn U.fab || s.fab.fault || scope = 0 then s
  else
    let w := s.stopWindow
    let s := s.sendFabStop s.stp.stop s.stp.count scope w
    { s with fab := { s.fab with repeats := s.fab.repeats ++ [⟨s.stp.stop, s.stp.count, scope, [w + 1, w + 2]⟩] } }

/-- The flood of a latch event that a request of its own stage changes is withdrawn (R333): the frames that wait, and the
repeats. -/
def State.unflood (s : State) : State :=
  let own := fun (f : List Byte) => (frBody f).take 2 = leBytes 2 s.claimedAddr && fieldLE (frBody f) 8 2 = s.stp.count.toNat
  { s with fab := { s.fab with
    ports := s.fab.ports.map fun (e : Nat × FabPort) => (e.1, { e.2 with
      queues := tset e.2.queues [] FC.stop ((tget e.2.queues [] FC.stop).filter fun f => !own f) })
    repeats := s.fab.repeats.filter fun r => r.count ≠ s.stp.count } }

/-! ### The Sandstorm begins (R245) -/

/-- An output of a radio port that does not begin before an instant. -/
def Out.radioFrom (o : Out) (p at' : Nat) : Bool :=
  match o with
  | .radio q t _ _ => q = p && at' ≤ t
  | .frontEnd q t _ => q = p && at' ≤ t
  | _ => false

/-- Radio outputs of a port later than an instant are withdrawn: they had not begun. -/
def dropFuture (p now : Nat) (l : List Out) : List Out := l.filter fun o => !o.radioFrom p (now + 1)

/-- The beacon of a port's slot is on the air, or its TX point lies within 2 µs: it goes on in its stop form (R245). -/
def State.beaconStays (s : State) (p : Nat) : Option (BeaconForm × Nat) :=
  let h := s.hopPort p
  match h.form, h.beacon with
  | some f, some b =>
    if f.asn = s.now / s.slotNs p ∧ b.2.2 = f.asn ∧ b.1 ≤ s.now + 2000 ∧ s.now < b.2.1 then some (f, b.1) else none
  | _, _ => none

/-- The beacon of a port's slot is still to come, more than 2 µs away: it follows the stop frame. -/
def State.beaconWaits (s : State) (p : Nat) : Option BeaconForm :=
  let h := s.hopPort p
  match h.form, h.beacon with
  | some f, some b => if f.asn = s.now / s.slotNs p ∧ b.2.2 = f.asn ∧ s.now + 2000 < b.1 then some f else none
  | _, _ => none

/-- Answers under the latch: an ACCEPTED response of which segments have gone is dropped, any other join is answered `STOPPED`, and no
poll is acknowledged (R245, R251). -/
def stoppedAnswers (l : List Answer) : List Answer :=
  l.filterMap fun a => match a with
    | .join slot eui nonce flags asn sf sent _ => if sent = 0 then some (.join slot eui nonce flags asn sf 0 none) else none
    | .ack .. => none

/-- What a port had planned, and a beacon that goes on in another form, leave the journal and the duty sum; what is on the air
otherwise ends now. -/
def State.abandonSlot (s : State) (p : Nat) (stays : Option Nat) : State :=
  let now := s.now
  let s := { s with out := (dropFuture p now s.out).filter fun o => match o with
    | .radio q t _ _ => !(q = p && some t = stays)
    | _ => true }
  s.modHop p fun h => { h with
    storm := true, ackDue := none, busy := 0, answers := stoppedAnswers h.answers
    cur := h.cur.map fun c => { c with listen := none, got := none }
    duty := (h.duty.filter fun e => e.2.1 ≤ now && some e.2.1 ≠ stays).map fun e =>
      (e.1, e.2.1, min e.2.2 (now - e.2.1)) }

/-- A port abandons what its slot holds and starts a stop frame; a beacon whose TX point lies within 2 µs, or that is on the
air, goes out in its stop form instead, and one whose TX point lies later follows the stop frame, with its DELAY and the stamp of
its own TX point. -/
def State.latchPort (s : State) (p : Nat) : State :=
  let now := s.now
  let asn := now / s.slotNs p
  let ch := stChannel (s.hopPort p).table (now % sfNs / s.slotNs p) asn
  let nominal := now - now % s.slotNs p + s.txPoint p
  match s.beaconStays p with
  | some (f, b) => (s.abandonSlot p (some b)).beaconAir p ch f nominal b
  | none =>
    let driven := s.femDriven p
    let t := (s.abandonSlot p none).sendStop p ch asn now
    -- with no stop frame on the air, the lines fall idle after the ramp down (R231)
    let t := if driven && (t.hopPort p).busy = 0 then t.frontEnd p (now + 2000) F.RAD_PORT_CTRL_FEM_IDLE else t
    match s.beaconWaits p with
    | some f =>
      let start := t.txStart p nominal
      (t.beaconAir p ch f nominal start).restamp p asn start
    | none => t

/-- The Sandstorm begins on every port that follows its slot table, and no block that it stops stays queued (R17, R344): the
section command blocks, built before the latch, and the re-enables. -/
def State.beginStorm (s : State) : State :=
  let s := { s with hop := { s.hop with
    queue := s.hop.queue.filter fun b => b.btype ≠ DL.sectionCmd && b.btype ≠ DL.reEnable } }
  -- a correction frame under way starts again after the Sandstorm, and still completes (R200, R246)
  let s := { s with fix := { s.fix with radio := s.fix.radio.map fun e =>
    (e.1, { frames := e.2.frames.map fun f => { f with sent := 0 }, resync := true }) } }
  -- a port that a step has silenced sends nothing now, and answers no more than the others do (R344)
  let s := ((List.range s.id.part.radios).filter fun p => (s.hopPort p).silent).foldl (fun s p =>
    s.modHop p fun h => { h with ackDue := none, answers := stoppedAnswers h.answers }) s
  ((List.range s.id.part.radios).filter s.hopLive).foldl State.latchPort s

/-- The class of a latch event rises in its own stage: each port that sends a frame of this very instant, or a beacon in its stop
form, sends it at the new class. -/
def State.restartStorm (s : State) : State :=
  let now := s.now
  let busy := fun (s : State) (p : Nat) => (s.beaconStays p).isSome || s.out.any fun o => o.radioFrom p now
  ((List.range s.id.part.radios).filter fun p => s.hopLive p && busy s p).foldl (fun s p =>
    let s := { s with out := s.out.filter fun o => !(o.radioFrom p now && (s.beaconStays p).isNone) }
    let s := if (s.beaconStays p).isSome then s else s.modHop p fun h => { h with duty := h.duty.filter fun e => e.2.1 < now }
    s.latchPort p) s

/-! ### The latch (R333, R344) -/

/-- What the Key Store holds ready follows the latch (R345). -/
def State.holdFrames (s : State) : State := s.holdAll.holdBodies

/-- ARG of STP_LATCH (R359). -/
def State.latchArg (s : State) (hostCode : Option Nat) : List Byte :=
  leBytes 1 s.stp.source ++ leBytes 1 (b2n s.stp.stop) ++ leBytes 2 s.stp.count.toNat ++
    (match hostCode with | some h => leBytes 2 h | none => [])

/-- Everything that a latch event does (R344). -/
def State.latchEffects (s : State) (hostCode : Option Nat) (flood : Bool) : State :=
  let s := { s with stp := { s.stp with enabled := 0, event := some (s.clk.counter, flood, hostCode) } }
  let s := (s.releaseClaims fun _ _ => true).freezeAll
  let s := s.beginStorm.settleOuts
  let s := if flood then s.floodStop (s.stopScope s.stp.stop) else s
  (s.raise (Ev.stpLatch s.stp.stop) 0 (s.latchArg hostCode)).holdFrames

/-- The newest event of a source that waits for its record, replaced or taken out. -/
def dropNewest (src : Nat) (by' : Option (QEvent → QEvent)) (q : List QEvent) : List QEvent :=
  match (q.reverse.find? fun e => e.source = src) with
  | none => q
  | some e => (q.reverse.takeWhile fun x => x ≠ e).reverse.foldl (fun l x => l ++ [x])
      ((q.reverse.dropWhile fun x => x ≠ e).tail.reverse ++ (match by' with | some f => [f e] | none => []))

/-- A request joins the latch event of its own stage (R333): the highest class of the stage, and the lowest source code among the
requests of that class. -/
def State.joinEvent (s : State) (src : Nat) (stop : Bool) (hostCode : Option Nat) (flood was : Bool) (wasCode : Option Nat) :
    State :=
  let c := s.stp
  let rise := stop && !c.stop
  let takes := rise || (stop = c.stop && src < c.source)
  let flood' := if takes then flood else was
  let code := if takes then hostCode else wasCode
  let s := if takes then s.unflood else s
  let s := { s with stp := { s.stp with
    stop := c.stop || stop, source := if takes then src else c.source, event := some (s.clk.counter, flood', code) } }
  if !takes then s
  else
    let s := if rise then s.restartStorm.settleOuts else s
    let s := if flood' then s.floodStop (s.stopScope s.stp.stop) else s
    let s := { s with crn := { s.crn with
      queue := dropNewest (sourceCode (Ev.stpLatch true) 0)
        (some fun e => { e with severity := max e.severity (if s.stp.stop then 3 else 2), arg := padTo 8 (s.latchArg code) })
        s.crn.queue } }
    s.holdFrames

/-- A release of this very stage is discarded (R29, R350): the latch stays as it was, and no STP_RELEASE is recorded. The
descriptor has completed (log entry 67). -/
def State.undoRelease (s : State) : State :=
  match s.stp.released with
  | some (at', ta, tb) =>
    if at' ≠ s.clk.counter || s.stp.latched then s
    else
      let s := ({ s with
        stp := { s.stp with latched := true, enabled := 0, released := none }
        crn := { s.crn with queue := dropNewest (sourceCode Ev.stpRelease 0) none s.crn.queue } }).settleOuts
      ({ s with stp := { s.stp with testA := ta, testB := tb } }).holdFrames
  | none => s

/-- A request of a class from a source (R333, R335). -/
def State.stopRequest (s : State) (src : Nat) (stop : Bool) (hostCode : Option Nat) (flood : Bool) : State :=
  let s := s.undoRelease
  let c := s.stp
  let mark : BitVec 12 := 1 <<< src
  let s := { s with stp := { s.stp with armed := none } }
  if !c.latched then
    ({ s with stp := { s.stp with
      latched := true, stop := stop, source := src, count := c.count + 1, seen := mark } }).latchEffects hostCode flood
  else
    let s := { s with stp := { s.stp with seen := c.seen ||| mark } }
    match c.event.filter fun e => e.1 = s.clk.counter with
    | some e => s.joinEvent src stop hostCode flood e.2.1 e.2.2
    | none =>
      if stop && !c.stop then
        ({ s with stp := { s.stp with stop := true, source := src, count := c.count + 1 } }).latchEffects hostCode flood
      else s.raise Ev.stpRequest 0 []

/-- A source of R335 that an active configuration must enable. -/
def State.stopSource (s : State) (f : Sel) : Bool := s.unitOn U.stp && s.act f = 1

/-! ### SAFE_HOLD (R25, R28 to R30, R102, R358, R383) -/

/-- The one stop flood at entry leaves every `UP` port at once; the ports fall silent after it (R25, R358). -/
def State.lastFlood (s : State) : State :=
  if !s.has U.fab || s.fab.fault then s
  else
    let s := { s with fab := { s.fab with
      repeats := [], ports := s.fab.ports.map fun (e : Nat × FabPort) => (e.1, { e.2 with queues := [] }) } }
    let scope := s.stopScope s.stp.stop
    let s := s.sendFabStop s.stp.stop s.stp.count (if scope = 0 then 1 else scope) s.stopWindow
    s.upPorts.foldl (fun s p => match firstFrame (s.fabPort p).queues with
      | some (_, f) => (s.modPort p fun r => { r with queues := [], txFrames := r.txFrames + 1 }).emit (.fabric p f)
      | none => s) s

/-- What stops on entry: rings, launch queue and alarms, the Fix Engine, jobs, an update in progress, application cores (R25, R222,
R383, R481, R501). -/
def State.haltForHold (s : State) : State :=
  { s.freezeMirage.cleanLines with
    hst := { s.hst with taken := [] }
    gns := { s.gns with running := [], queue := [], captures := [] }
    tb := { s.tb with launches := [], periodic := [], alarms := [] }
    fix := { s.fix with radio := [], asm := [], queue := [], lanes := [] }
    car := { s.car with pend := [], hostq := [] }
    stp := { s.stp with armed := none }
    key := { s.key with queue := [], running := [] }
    boot := { s.boot with update := none } }

/-- The clock stops, and PPS_OUT takes its inactive level (R102). -/
def State.stopClock (s : State) : State :=
  let s := s.ppsEnd
  { s with clk := { s.clk with frozen := true } }

/-- No transmission begins on any port from now on (R25). -/
def State.silenceRadios (s : State) : State :=
  { s with out := s.out.filter fun o => !((List.range 4).any fun p => o.radioFrom p s.now) }

/-- CFG_STATUS records a refusal (R62). -/
def State.noteRefusal (s : State) (reason rule : Nat) : State :=
  { s with cfg := { s.cfg with result := 3, reason := reason, ruleId := rule } }

/-- The state with what a commit replaced back in its place. -/
def Undo.restore (u : Undo) (s : State) : State :=
  let on := fun {α : Type} (unit : Nat) (old new : α) => if u.named.getLsbD unit then old else new
  { s with
    pwr := { s.pwr with state := u.state }
    cfg := { s.cfg with active := u.active, units := u.units, generation := u.generation }
    fld := on U.fld u.fld s.fld
    sec := on U.sec u.sec s.sec
    gns := on U.gns u.gns s.gns
    mir := on U.mir u.mir s.mir
    fix := on U.fix u.fix s.fix
    hop := on U.hop u.hop s.hop
    fab := on U.fab u.fab s.fab
    key := { s.key with link := on U.hop u.link s.key.link }
    mem := { s.mem with training := on U.mem u.training s.mem.training }
    nvm := { s.nvm with recorderNext := on U.nvm u.recorderNext s.nvm.recorderNext, store := u.store, storing := u.storing } }

/-- A fatal cause while a CFG_COMMIT is being checked: the commit is abandoned, and the configuration before it stays (R29). -/
def State.abandonCheck (s : State) : State :=
  match s.undo with
  | none => s
  | some u =>
    let t := { s with undo := none, cfg := { s.cfg with busyUntil := min s.cfg.busyUntil s.clk.counter } }
    if s.cfg.busyUntil ≤ s.clk.counter then t
    else
      let t := (u.restore t).noteRefusal Rf.abandoned 0
      (if t.ppsOn then t else t.ppsEnd).reselect

/-- The ports begin the Sandstorm with the slots that come, while the latch stands (R26, R264). -/
def State.stormAll (s : State) : State :=
  ((List.range s.id.part.radios).filter s.hopEnabled).foldl (fun s p =>
    s.modHop p fun h => { h with storm := h.storm || s.stp.latched }) s

/-- A cause of the entry takes its place among them: FATAL_CAUSE holds the lowest code (R30), the radios fall silent where it
says so (R25), and the clock stops with `ECC_TB` (R102). -/
def State.addCause (s : State) (cause : Nat) : State :=
  let fatal := if s.pwr.causes = 0 then cause else min s.pwr.fatal cause
  let s := { s with pwr := { s.pwr with causes := s.pwr.causes ||| (1 <<< cause), fatal := fatal } }
  let s := if silentCause cause then s.silenceRadios else s
  if cause = Fatal.eccTb then s.stopClock else s

/-- A fatal cause (R28). Another one at the instant of the entry joins it (R30); a later one finds the device in `SAFE_HOLD`
already. -/
def State.fatal (s : State) (cause : Nat) : State :=
  match s.pwr.state with
  | .waitHost | .run =>
    let s := s.abandonCheck
    let s := ((s.addCause cause).stopRequest Src.fatal false none false).lastFlood
    let s := (s.raise Ev.pwrSafeHold 0 (leBytes 1 cause)).startFlush
    let s := s.signalErr
    ((({ s with pwr := { s.pwr with state := .safeHold } }).haltForHold).stormAll.settleOuts).mark T.safeHold
  | .safeHold =>
    if tget s.timers 0 T.safeHold = s.clk.counter && !s.pwr.causes.getLsbD cause then
      (s.addCause cause).raise Ev.pwrSafeHold 0 (leBytes 1 cause)
    else s
  | _ => s

end Sys2Proof.Machine
end

