-- ==== Sys2Proof/Machine/Power.lean ====
section
/-! DEFINITION. Power and reset: resets and what outlives them, the power-fail warning, the stage monitor, temperature, the
fatal causes and the backup supply (R20, R24 to R30, R103, R486, R511, R518 to R525, R531). -/

namespace Sys2Proof.Machine

/-! ### Resets -/

/-- Slots of a recorder of a size in MiB: 204 in each block that is not dropped (R512). -/
def State.slotsOf (s : State) (mib : Nat) : Nat := 204 * ((List.range (16 * mib)).filter fun k => !s.nvm.worn.contains (52 + k)).length

/-- The recorder's boundary moves at reset (R486, R511): it gains empty slots from the front of the user region, or records of the
blocks that leave move into the others, and the user region gains erased bytes at its front. -/
def State.moveBoundary (s : State) : State :=
  let old := s.nvm.recorderNow
  let new := s.nvm.recorderNext
  let shift := fun (m : Memory) (f : Nat → Option Nat) => m.filterMap fun (e : Nat × Byte) => (f e.1).map fun a => (a, e.2)
  if old < new then
    let d := (new - old) * 2 ^ 20
    { s with
      nvm := { s.nvm with recorderNow := new, user := shift s.nvm.user fun a => if a < d then none else some (a - d) }
      crn := { s.crn with capacity := s.slotsOf new } }
  else if new < old then
    let d := (old - new) * 2 ^ 20
    let moved := s.nvLog.filter fun e => 3264 * new ≤ e.1
    let s := { s with
      nvm := { s.nvm with recorderNow := new, user := shift s.nvm.user fun a => some (a + d) }
      crn := { s.crn with capacity := s.slotsOf new, nv := s.crn.nv.filter fun e => e.1 < 3264 * new } }
    moved.foldl (fun s e => State.logRecord [] 385 s e.2) s
  else s

/-- The recorder at a reset: the flush that runs is torn (R519); before blocks leave it at a reset that comes in order, it flushes
whole (R486). -/
def State.flushForReset (s : State) (cause : Nat) : State :=
  if 2 ≤ cause && s.nvm.recorderNext < s.nvm.recorderNow && !s.crn.fault then s.settleFlush.flushAll [] else s.tearFlush

/-- What stays of a fabric port: its module. -/
def portsAfterReset (t : Tbl FabPort) : Tbl FabPort :=
  t.foldl (fun r (e : Nat × FabPort) =>
    tset r FabPort.reset e.1 { FabPort.reset with modPresent := e.2.modPresent, modLos := e.2.modLos }) []

/-- The device is reset and held: the fused identity, the backup domain, the NV die, the flash and the levels of the pins stay,
and all else takes its reset value. The 250 MHz counter runs on. A device that is held in reset already is not reset once more: only
the cause is, a power-on before all (log entry 28). Of the power page the last stage time measured stays: STAGE has no reset value,
so a stage time that stays too long raises no second STAGE_SLOW at the first sample after the reset (R20; DESIGN CHOICE, log entry 38). -/
def State.restart (s : State) (cause : Nat) : State :=
  let s := s.flushForReset cause
  let now := s.clk.counter
  let r := State.reset
  let s' := { r with
    id := s.id
    clk := { r.clk with counter := now }
    hst := { r.hst with pci := PciConfig.reset s.id.part.code s.id.revision }
    cal := s.cal
    pwr := { r.pwr with
      inReset := true, resetCause := if s.pwr.inReset then min s.pwr.resetCause cause else cause
      recoveryPin := s.pwr.recoveryPin, good := s.pwr.good, goodAt := s.pwr.goodAt
      pfail := s.pwr.pfail, pfailAt := s.pwr.pfailAt, pfailUntil := s.pwr.pfailUntil, nvStopped := s.pwr.nvStopped
      onVbat := s.pwr.onVbat
      stage := s.pwr.stage, tj := s.pwr.tj, tjMax := s.pwr.tj }
    stp := { r.stp with
      pinA := s.stp.pinA, pinB := s.stp.pinB, disagreeAt := if s.stp.pinA = s.stp.pinB then none else some now
      testA := now, testB := now }
    key := { r.key with
      slots := s.key.slots, attests := s.key.attests, worn := s.key.worn, tamperLate := s.key.tamperLate }
    boot := { r.boot with
      ptrs := s.boot.ptrs, svnMin := s.boot.svnMin, migration := s.boot.migration, migSigner := s.boot.migSigner
      migSvn := s.boot.migSvn, flash := s.boot.flash }
    nvm := { s.nvm with fault := false, store := s.settledStore, storing := [] }
    crn := { r.crn with
      queue := [], nv := s.nvLog, capacity := s.crn.capacity
      boot := if s.pwr.inReset then s.crn.boot else s.crn.boot + 1
      seq := match s.nvLog with
        | [] => 0
        | _ => BitVec.ofNat 32 ((s.nvLog.map fun (e : Nat × Record) => e.2.seq).foldl max 0) + 1 }
    fab := { r.fab with ports := portsAfterReset s.fab.ports }
    timers := (List.range 22).foldl (fun t n => tset t 0 n now) []
    free := s.free
    -- what the radios had not begun is withdrawn, and PPS_OUT falls to the inactive level of its reset polarity, low
    out := (s.out.filter fun (o : Out) => match o with
        | .radio _ t _ _ => !(s.now < t)
        | .frontEnd _ t _ => !(s.now < t)
        | _ => true) ++ (if s.tb.ppsPin then [Out.pps false (s.clk.t48 / 2 ^ 32)] else [])
    pending := s.pending }
  s'.moveBoundary

/-- The clock is seeded from the Calendar (R103). -/
def State.seed (s : State) : State :=
  if s.cal.valid then
    -- seconds since the last synchronisation, units of 1/32768 s
    let since := s.cal.count - s.cal.lastSync * 32768
    { s with
      clk := { s.clk with t48 := s.cal.count * 3906250 * 2 ^ 41 }
      tb := { s.tb with errEst := min 0xFFFFFFFF (92000 + (since * s.reg F.CAL_DRIFT_PPM * 1000 + 32767) / 32768) } }
  else { s with clk := { s.clk with t48 := 0 } }

/-- The reset is released (R26, R27, R519): the ROM runs with the stop latch set, which is the first latch event (R332). -/
def State.leaveReset (s : State) (recoveryLow : Bool) : State :=
  let s := { s with
    pwr := { s.pwr with inReset := false, recoveryPin := recoveryLow }
    stp := { s.stp with seen := s.stp.seen ||| (if s.stp.pinA then 4 else 0) ||| (if s.stp.pinB then 8 else 0) } }
  let s := s.seed
  let s := s.raise (Ev.stpLatch true) 0 [1, 1, 1, 0]
  let s := if s.cal.valid then s else s.raise Ev.calInvalid 0 []
  if recoveryLow then { s with
    pwr := { s.pwr with state := .recovery }
    boot := { s.boot with failA := (s.slotFail false).isSome, failB := (s.slotFail true).isSome } }
  else s

/-- A supply rail is below its threshold, or all are above it: `good` has a bit for each, VDDIO_B last. Below the threshold of VDDIO_B
the backup domain runs from VBAT, and without VBAT it loses power; BACKUP_SUPPLY_SWITCH says when VDDIO_B passes 3.0 V (R518, R531). -/
def execPowerOnReset (dt : Nat) (good : BitVec 10) (vbat : Bool) (s : State) : Result :=
  let s := s.elapse dt
  let risen := good = 0x3FF && s.pwr.good ≠ 0x3FF
  let s := { s with pwr := { s.pwr with
    good := good, goodAt := if risen then s.clk.counter else s.pwr.goodAt, onVbat := s.pwr.onVbat || !good.getLsbD 9 } }
  let s := if good.getLsbD 9 || vbat then s
    else { s with cal := { Cal.lost with inputs := s.cal.inputs }, key := { s.key with tamperLate := true } }
  .next (if good = 0x3FF then s else s.restart 0)

/-- PORST_N falls: at once, even during a flush or an NV write (R519). -/
def execPorstNFall (dt : Nat) (s : State) : Result := .next ((s.elapse dt).restart 1)

/-- The later of the PORST_N rise and the release of R518, 1 ms after the last rail has passed its threshold; BOOT_RECOVERY_N is
sampled (R519). -/
def execResetRelease (dt : Nat) (recoveryLow : Bool) (s : State) : Result :=
  let s := s.elapse dt
  .next (if s.pwr.inReset && s.pwr.good = 0x3FF && s.pwr.goodAt + tickMs ≤ s.clk.counter then s.leaveReset recoveryLow else s)

/-- RESET_KEY 0xA5A5 resets the device (R24); the pins are not sampled again (log entry 28). -/
def execPwrDeviceReset (dt : Nat) (value : Word) (s : State) : Result :=
  let s := s.elapse dt
  .next (if s.pwr.inReset || value.toNat % 65536 ≠ 0xA5A5 then s else (s.restart 2).leaveReset false)

/-! ### PFAIL_N (R520, R521) -/

/-- The filtered fall of PFAIL_N, which then stays low for `now.env` ticks (log entry 29). A fall after a rise that was too short for
PWR_PFAIL_CLEAR acts again. An update that the fall meets before its commit word says so itself, in the command that makes it. -/
def execPfailFall (now : Timed Nat) (s : State) : Result :=
  let s := s.elapse now.dt
  .next (if s.pfailLow then s
    else
      let s := { s with pwr := { s.pwr with
        pfail := true, pfailAt := s.clk.counter, pfailUntil := s.clk.counter + now.env, nvStopped := true } }
      if s.pwr.inReset then s
      else
        let s := if s.stopSource F.STP_SRC_PFAIL then
          s.stopRequest Src.pfail (s.act F.STP_SRC_PFAIL_CLASS = 1) none true else s
        (s.raise Ev.pwrPfail 0 []).startFlush)

/-- PFAIL_N has been high for 100 ms without a break: NV writes resume. -/
def execPfailClear (dt : Nat) (s : State) : Result :=
  let s := s.elapse dt
  .next (if !s.pwr.pfail || !s.pfailHighFor (100 * tickMs) then s
    else
      let s := { s with pwr := { s.pwr with pfail := false, nvStopped := false } }
      if s.pwr.inReset then s else s.raise Ev.pwrPfailClear 0 [])

/-! ### Stage time and temperature (R20, R523) -/

/-- The ring monitor measures the stage time, every 10 µs. -/
def execStageMonSample (dt ps : Nat) (s : State) : Result :=
  let s := s.elapse dt
  .next (if s.pwr.inReset || !s.due T.stageMon (10 * tickUs) then s
    else
      let ps := min 4095 ps
      let rise := 950 < ps && s.pwr.stage ≤ 950
      let s := (s.mark T.stageMon)
      let s := { s with pwr := { s.pwr with
        stage := ps, stageMax := max s.pwr.stageMax ps, slow := s.pwr.slow || rise
        slowSince := if ps ≤ 1200 then none else some (s.pwr.slowSince.getD s.clk.counter) } }
      if rise then s.raise Ev.stageSlow 0 [] else s)

/-- The stage time has stayed above 1.20 ns for 1 ms. -/
def execStageSlowFatal (dt : Nat) (s : State) : Result :=
  let s := s.elapse dt
  .next (match s.pwr.slowSince with
    | some t => if s.clk.counter < t + tickMs || s.pwr.inReset then s else s.fatal Fatal.stageSlow
    | none => s)

/-- The die-to-die interface to the RF die has failed (R28). -/
def execDieLinkFail (dt : Nat) (s : State) : Result :=
  let s := s.elapse dt
  .next (if s.pwr.inReset then s else s.fatal Fatal.dieLink)

/-- The security core has reported an internal fault (R28). -/
def execSecurityCoreFault (dt : Nat) (s : State) : Result :=
  let s := s.elapse dt
  .next (if s.pwr.inReset then s else s.fatal Fatal.securityCore)

/-- The junction sensor reports Tj, in units of 0.125 °C: PWR_HOT as Tj passes HOT_THRESH, re-armed 5 °C below it (R523). -/
def execPwrTempSample (dt : Nat) (tj : Int) (s : State) : Result :=
  let s := s.elapse dt
  .next (if s.pwr.inReset then s
    else
      let tj := clampInt (-2048) 2047 tj
      let th : Int := 8 * s.reg F.PWR_THERM_HOT_THRESH
      let rise := th < tj && !s.pwr.hot
      let s := { s with pwr := { s.pwr with
        tj := tj, tjMax := max s.pwr.tjMax tj, hot := if th < tj then true else if tj ≤ th - 40 then false else s.pwr.hot } }
      if rise then s.raise Ev.pwrHot 0 [] else s)

/-- The backup domain changes its supply, with no loss of state (R531); `levels` are those of the tamper inputs then. -/
def execBackupSupplySwitch (dt : Nat) (supply : Supply) (levels : BitVec 4) (s : State) : Result :=
  let s := s.elapse dt
  .next { s with pwr := { s.pwr with onVbat := supply.vbat }, cal := { s.cal with inputs := levels, vbatLow := supply.low } }

end Sys2Proof.Machine
end

