-- ==== Sys2Proof/Machine/Boot.lean ====
section
/-! DEFINITION. The boot ROM, firmware start, field update, key migration, recovery, and the NV die's descriptors
(R434, R455, R470, R471, R483 to R503). -/

namespace Sys2Proof.Machine

/-! ### The ROM (R493, R494) -/

/-- The boot pointers are committed as an A/B update (R494); a read-only boot region keeps what it holds (R485). -/
def State.commitPtr (s : State) (p : BootPtr) (run : NvRun) : State × NvEnd :=
  match s.bootWrite 0 run with
  | (s, .done) => ({ s with boot := { s.boot with ptrs := s.boot.ptrs.write p } }, .done)
  | (s, .cut power) => ({ s with boot := { s.boot with ptrs := s.boot.ptrs.tear } }, .cut power)
  | (s, .worn) => (s, .worn)

/-- A slot is rejected (BOOT_STATUS.LAST_FAIL). -/
def State.noteFail (s : State) (n : Nat) : State := { s with boot := { s.boot with lastFail := n } }

/-- ACTIVE is booted, else the other slot, which becomes ACTIVE; with neither, the ROM enters `RECOVERY`. A pointer update that is cut
off, or that PFAIL_N holds back, leaves the choice to be made again. -/
def State.bootActive (s : State) (run : NvRun) : State :=
  let a := s.boot.ptr.active
  match s.slotFail a with
  | none => s.loadImage a
  | some n =>
    let s := s.noteFail n
    match s.slotFail (!a) with
    | none => match s.commitPtr { s.boot.ptr with active := !a } run with
      | (s, .cut _) => s
      | (s, _) => (s.raise Ev.bootFallback 0 []).loadImage (!a)
    | some n => { s.noteFail n with
        pwr := { s.pwr with state := .recovery }, boot := { s.boot with lastFail := n, failA := true, failB := true } }

/-- TRIAL is cleared and the migration table discarded; ACTIVE is booted. -/
def State.rollback (s : State) (run : NvRun) : State :=
  match s.commitPtr { s.boot.ptr with trial := false } run with
  | (s, .cut _) => s
  | (s, _) => (({ s with boot := { s.boot with migration := [] } }).raise Ev.bootRollback 0 []).bootActive (runNext run)

/-- The ROM chooses a slot, verifies, loads and measures its image (R493 steps 2 to 4, R494). It waits until PFAIL_N has been high for
10 ms (R521), and with a pointer update until NV writes resume. -/
def execRomSlotSelect (now : Timed NvRun) (s : State) : Result :=
  let s := s.elapse now.dt
  .next (if s.pwr.inReset || s.pwr.state ≠ .boot || s.boot.loaded || !s.pfailHighFor (10 * tickMs) then s
    else if !s.boot.ptr.trial then s.bootActive now.env
    else if s.boot.ptr.trialLeft = 0 then s.rollback now.env
    else match s.commitPtr { s.boot.ptr with trialLeft := s.boot.ptr.trialLeft - 1 } now.env with
      | (s, .cut _) => s
      | (s, _) =>
        let t := !s.boot.ptr.active
        match s.slotFail t with
        | none => (s.raise Ev.bootTrial 0 []).loadImage t
        | some n => (s.noteFail n).rollback (runNext now.env))

/-! ### Migration (R497) -/

/-- The migration table for a new image: an entry for each `VALID` record under the `LINEAGE` root that is not orphaned. -/
def State.makeMigration (s : State) (signer : List Byte) (svn : Word) : Tbl Migration :=
  match s.epochBytes with
  | none => []
  | some e =>
    let kw := rootKw (rootLineageOf e signer svn)
    (List.range 1024).foldl (fun t i =>
      match s.validRec i, s.material i with
      | some c, some m =>
        if c.parent = rootLineageName && !s.orphan i then tput t i ⟨c.type, c.kcv, padTo 64 (kwWrap kw m)⟩ else t
      | _, _ => t) []

/-- What the rewrite of a slot makes of its record: a stored one whose BODY is the entry's WRAPPED, with the same KCV. -/
def Migration.store (m : Migration) (c : KeyCopy) : KeyCopy :=
  { c with derived := false, label := [], context := [], wrapped := m.wrapped.take (typeSize m.type + 8) }

/-- A slot is rewritten already: its material, unwrapped under the new root's storage key, verifies against its KCV. -/
def State.migrated (s : State) (i : Nat) : Bool :=
  match s.validRec i, s.rootMaterial rootLineageName with
  | some c, some r => !c.derived && c.parent = rootLineageName &&
    ((Config.kwUnwrap (rootKw r) c.wrapped).any fun m => kcvOf m = c.kcv)
  | _, _ => false

/-- A slot that the table names is rewritten, unless it is already; a rewrite that is cut off or finds its block worn is the last. -/
def migrateSlot (acc : State × NvRun × NvEnd) (e : Nat × Migration) : State × NvRun × NvEnd :=
  match acc with
  | (s, run, .done) =>
    if s.migrated e.1 then acc
    else match s.nvWrite Region.key (e.1 / 128) run with
      | (s, .done) => (s.updateSlot e.1 e.2.store, runNext run, .done)
      | (s, .cut power) => (s.tearSlot e.1 e.2.store, run, .cut power)
      | (s, .worn) => (s, run, .worn)
  | _ => acc

/-- Each named slot becomes a stored record under the new root. -/
def State.applyMigration (s : State) (run : NvRun) : State × NvRun × NvEnd :=
  s.boot.migration.foldl migrateSlot (s, run, .done)

/-- MIGRATING is cleared, and the table erased. -/
def State.endMigration (s : State) (run : NvRun) : State × NvRun × NvEnd :=
  match s.commitPtr { s.boot.ptr with migrating := false } run with
  | (s, .done) => ({ s with boot := { s.boot with migration := [] } }, runNext run, .done)
  | (s, e) => (s, run, e)

/-- An unfinished migration is finished. -/
def State.finishMigration (s : State) (run : NvRun) : State × NvRun × NvEnd :=
  match s.applyMigration run with
  | (s, run, .done) => s.endMigration run
  | r => r

/-- BOOT_CONFIRM's part of a migration: MIGRATING is set, the slots are rewritten, and it is cleared again. -/
def State.migrateNow (s : State) (run : NvRun) : State × NvRun × NvEnd :=
  if s.boot.migration.isEmpty then (s, run, .done)
  else match s.commitPtr { s.boot.ptr with migrating := true } run with
    | (s, .done) => s.finishMigration (runNext run)
    | (s, e) => (s, run, e)

/-! ### Firmware start (R434, R455, R470, R471, R493 step 5) -/

/-- The Key Store at firmware start: a late tamper event is recorded, a missing EPOCH is made unless an input is active, and
the roots are derived. -/
def State.startKeys (s : State) : State :=
  let s := if s.key.tamperLate then
    ({ s with key := { s.key with tamperLate := false }, boot := { s.boot with migration := [] } }).raise Ev.keyTamper 0
      (leBytes 1 s.cal.tamperStatus.toNat) else s
  let active := (List.range 4).any s.tamperActive
  let s := { s with key := { s.key with tampered := s.cal.epoch.isNone && active } }
  let s := if s.cal.epoch.isNone && !active then s.newEpoch else s
  s.deriveRoots

/-- THREAD_0 is `READY` at the entry point, and the device waits for its host (R434). -/
def State.startCores (s : State) : State :=
  let h := s.boot.header
  let s := { s with pwr := { s.pwr with state := .waitHost } }
  (s.modThread 0 fun _ => { Thread.reset with affinity := 1, entry := hdEntry h, pc := hdEntry h }).place 0

/-- The application cores start: MD, SIGNER and SVN are frozen, and an unfinished migration is finished first. One that is cut off, or
that PFAIL_N holds back, keeps the cores waiting; one that a worn region stops leaves its entries in use (log entry 84). `levels` are
those of the tamper inputs. -/
def execFirmwareStart (now : Timed NvRun) (levels : BitVec 4) (s : State) : Result :=
  let s := s.elapse now.dt
  .next (if s.pwr.inReset || s.pwr.state ≠ .boot || !s.boot.loaded || (s.boot.ptr.migrating && s.nvHeld) then s
    else
      let h := s.boot.header
      let md := bvBytes (Config.sha384 ((List.range 8).map fun i => bvBytes (tget s.boot.meas 0 i)).flatten)
      let s := { s with
        cal := { s.cal with inputs := levels }
        key := { s.key with md := md, signer := hdSignerHash h, svn := hdSvn h } }
      let s := s.startKeys
      if !s.boot.ptr.migrating then s.startCores
      else match s.finishMigration now.env with
        | (s, _, .cut _) => s
        | (s, _, _) => s.startCores)

/-! ### Field update (R495, R498) -/

def opBootBegin : Nat := 0x1001
def opBootWrite : Nat := 0x1002
def opBootFinish : Nat := 0x1003
def opBootConfirm : Nat := 0x1004
def opBootExtend : Nat := 0x1005
def opBootLogRead : Nat := 0x1007

/-- The slot that an update writes: not the ACTIVE one; in `RECOVERY` the slot that failed, or A when both did (R495, R498). -/
def State.updateSlotB (s : State) : Bool :=
  if s.pwr.state ≠ .recovery then !s.boot.ptr.active
  else if s.boot.failA then false
  else if s.boot.failB then true
  else !s.boot.ptr.active

/-- A header is checked; when it passes, the target slot is erased and the header written. The failed check is the answer. -/
def State.beginUpdate (s : State) (h : List Byte) : State × Option Nat :=
  let s := { s with boot := { s.boot with update := none } }
  match s.headerCheck h with
  | some n => (s.noteFail n, some n)
  | none =>
    let b := s.updateSlotB
    let s := (s.eraseSlot b).flashWrite (slotBase b) h
    ({ s with boot := { s.boot with update := some ⟨h, b, 0⟩ } }, none)

/-- Payload bytes join an update in progress. -/
def State.writeUpdate (s : State) (u : Update) (b : List Byte) : State :=
  let s := s.flashWrite (slotBase u.slotB + 1024 + u.written) b
  { s with boot := { s.boot with update := some { u with written := u.written + b.length } } }

/-- The update in progress whose header is whole. -/
def State.updateNow (s : State) : Option Update := s.boot.update.filter fun u => u.header.length = 1024

/-- The pointers that FINISH commits (R495, R498). -/
def State.finishPtr (s : State) (u : Update) : BootPtr :=
  let trial : BootPtr := { s.boot.ptr with active := !u.slotB, trial := true, trialLeft := hdTrials u.header }
  if s.pwr.state ≠ .recovery then trial
  else if (s.slotFail (!u.slotB)).isNone then trial
  else { s.boot.ptr with active := u.slotB, trial := false, trialLeft := 0 }

/-- The status of a command whose NV writes ended so: none when the supply has gone, for then nothing completes it. -/
def NvEnd.status (e : NvEnd) : Option Nat :=
  match e with
  | .done => some St.ok
  | .worn => some St.worn
  | .cut power => if power then none else some St.pfail

/-- The migration table is written, where one is needed. -/
def State.writeTable (s : State) (u : Update) (run : NvRun) : State × NvRun × NvEnd :=
  let signer := hdSignerHash u.header
  let svn := hdSvn u.header
  let table := if s.pwr.state ≠ .recovery && (signer ≠ s.key.signer || svn ≠ s.key.svn) then s.makeMigration signer svn else []
  let set := fun (s : State) => { s with boot := { s.boot with migration := table, migSigner := signer, migSvn := svn } }
  if table.isEmpty then (set s, run, .done)
  else match s.bootWrite 3 run with
    | (s, .done) => (set s, runNext run, .done)
    | (s, e) => (s, run, e)

/-- The slot is read back and checked, the migration table built and the pointers committed: the status of FINISH. -/
def State.finishUpdate (s : State) (run : NvRun) : State × Option Nat :=
  match s.updateNow with
  | none => (s, some St.sequence)
  | some u =>
    if u.written ≠ hdPayloadLen u.header then (s, some St.sequence)
    else if s.nvHeld then (s, some St.pfail)
    else if s.readOnly Region.boot then (s, some St.worn)
    else if !payloadOk u.header (s.slotPayload u.slotB) then (s.noteFail 8, some St.payload)
    else match s.writeTable u run with
      | (s, run, .done) =>
        match s.commitPtr (s.finishPtr u) run with
        | (s, .done) => ({ s with boot := { s.boot with update := none } }, some St.ok)
        | (s, e) => (s, e.status)
      | (s, _, e) => (s, e.status)

/-- A descriptor of the unit completes `PFAIL` while PFAIL_N stops NV writes (R501). -/
def State.unlessHeld (s : State) (d : Desc) (f : State → State) : State := if s.nvHeld then s.complete d St.pfail else f s

/-- A descriptor completes as its NV writes ended; with the supply gone nothing completes it. -/
def State.completeNv (s : State) (d : Desc) (st : Option Nat) : State :=
  match st with
  | some st => s.complete d st
  | none => s.wait d

/-- BOOT_UPDATE_BEGIN: the header is checked, and the slot erased. -/
def execBootUpdateBegin (dt ring index : Nat) (payload : List Byte) (s : State) : Result :=
  .next ((s.elapse dt).withDesc ring index opBootBegin (fun _ => true) fun s d => s.unlessHeld d fun s =>
    if d.len = 0 then s.complete d St.empty
    else if d.len ≠ 1024 then s.complete d St.length
    else if s.boot.ptr.trial && s.pwr.state ≠ .recovery then s.complete d St.trial
    else match s.beginUpdate (padTo 1024 payload) with
      | (s, some n) => s.complete d St.header [] n
      | (s, none) => s.complete d St.ok)

/-- BOOT_UPDATE_WRITE: payload bytes at OFFSET, which is the count written so far; bytes beyond PAYLOAD_LEN answer `LENGTH`. -/
def execBootUpdateWrite (dt ring index : Nat) (payload : List Byte) (s : State) : Result :=
  .next ((s.elapse dt).withDesc ring index opBootWrite (fun _ => true) fun s d => s.unlessHeld d fun s =>
    if d.len = 0 then s.complete d St.empty
    else match s.updateNow with
    | none => s.complete d St.sequence
    | some u =>
      if d.operand 0 4 ≠ u.written then s.complete d St.sequence
      else if hdPayloadLen u.header < u.written + d.len then s.complete d St.length
      else (s.writeUpdate u (padTo d.len payload)).complete d St.ok)

/-- BOOT_UPDATE_FINISH; in `RECOVERY` an internal reset follows (R27, R498). -/
def execBootUpdateFinish (dt ring index : Nat) (run : NvRun) (s : State) : Result :=
  .next ((s.elapse dt).withDesc ring index opBootFinish (fun _ => true) fun s d => s.unlessHeld d fun s =>
    let (s, st) := s.finishUpdate run
    let s := s.completeNv d st
    if st = some St.ok && s.pwr.state = .recovery then (s.restart 3).leaveReset false else s)

/-- The running image is on trial. -/
def State.onTrial (s : State) : Bool := s.boot.ptr.trial && s.boot.booted ≠ s.boot.ptr.active

/-- The pointers of a confirmed image. -/
def State.confirmPtr (s : State) (run : NvRun) : State × NvEnd :=
  s.commitPtr { s.boot.ptr with active := s.boot.booted, trial := false } run

/-- BOOT_CONFIRM (R496): the migration table is applied, BOOT_SVN_MIN fused when asked, and the pointers committed. -/
def execBootConfirm (dt ring index : Nat) (run : NvRun) (s : State) : Result :=
  .next ((s.elapse dt).withDesc ring index opBootConfirm (fun _ => true) fun s d => s.unlessHeld d fun s =>
    if !s.onTrial then s.complete d St.notPending
    else if s.readOnly Region.boot || (s.key.worn && !s.boot.migration.isEmpty) then s.complete d St.worn
    else match s.migrateNow run with
      | (s, run, .done) =>
        let s := if bit (d.operand 0 1) 0 then { s with boot := { s.boot with svnMin := hdSvn s.boot.header } } else s
        match s.confirmPtr run with
        | (s, .done) => (s.raise Ev.bootConfirmed 0 []).complete d St.ok
        | (s, e) => s.completeNv d e.status
      | (s, _, e) => s.completeNv d e.status)

/-- BOOT_EXTEND: a 48-byte digest extends register 7. -/
def execBootExtend (now : Timed NvRun) (ring index : Nat) (payload : List Byte) (s : State) : Result :=
  .next ((s.elapse now.dt).withDesc ring index opBootExtend (fun _ => true) fun s d => s.unlessHeld d fun s =>
    if d.len = 0 then s.complete d St.empty
    else if d.len ≠ 48 then s.complete d St.length
    else
      let (s, e) := s.extend 7 (d.operand 0 1) (BitVec.ofNat 384 (beNat (padTo 48 payload))) now.env
      s.completeNv d e.status)

/-- BOOT_PEER_SERVE waits for the requests of a neighbour; one that has come already is answered at once (R499). -/
def execBootPeerServe (dt ring index : Nat) (s : State) : Result :=
  .next ((s.elapse dt).withDesc ring index opBootPeerServe (fun _ => true) fun s d => s.unlessHeld d fun s =>
    let s := s.wait d
    match tfind s.boot.peers (d.operand 0 1) with
    | some (eui, part, _, next) => if eui = d.operand 1 8 then s.servePeer (d.operand 0 1) eui part next else s
    | none => s)

/-- BOOT_LOG_READ: whole entries of the measurement log from FIRST. -/
def execBootLogRead (dt ring index : Nat) (s : State) : Result :=
  .next ((s.elapse dt).withDesc ring index opBootLogRead (fun _ => true) fun s d => s.unlessHeld d fun s =>
    let rest := s.boot.log.drop (d.operand 0 2)
    let n := d.len / 64
    if d.len = 0 then s.complete d St.empty
    else (s.writePayload d 0 ((rest.take n).map logEntry).flatten).complete d (if n < rest.length then St.more else St.ok))

/-! ### Recovery over FAB_0 (R498) -/

/-- The next offset of the image that is wanted. -/
def State.nextWanted (s : State) : Nat :=
  match s.boot.update with
  | none => 0
  | some u => u.header.length + u.written

/-- Every 100 ms a REQUEST goes out on FAB_0, once its link is `UP` (R397). -/
def execRecoveryRequestSend (dt : Nat) (s : State) : Result :=
  let s := s.elapse dt
  .next (if s.pwr.inReset || s.pwr.state ≠ .recovery || !s.has U.fab || !s.linkUp 0 || !s.due T.recoveryReq (100 * tickMs) then s
    else
      let (s, n) := (s.mark T.recoveryReq).nextSeq FC.bulk
      let body := leBytes 1 1 ++ euiBytes s.id.eui.toNat ++ leBytes 2 s.id.part.code ++ leBytes 1 s.id.revision.toNat ++
        leBytes 4 s.nextWanted
      (s.enqueueFrame 0 (mkFrame fabBroadcast 0 FC.bulk 1 1 2 n body)).1)

/-- Image bytes at the offset wanted: the header first, which is checked once whole. -/
def State.recoveryBytes (s : State) (b : List Byte) : State :=
  match s.updateNow with
  | some u => s.writeUpdate u (b.take (hdPayloadLen u.header - u.written))
  | none =>
    let h := ((s.boot.update.map (·.header)).getD []) ++ b
    if h.length < 1024 then { s with boot := { s.boot with update := some ⟨h, s.updateSlotB, 0⟩ } }
    else
      let s := (s.beginUpdate (h.take 1024)).1
      match s.boot.update with
      | some u => s.writeUpdate u ((h.drop 1024).take (hdPayloadLen u.header))
      | none => s

/-- A DATA frame on FAB_0; after the last byte the image is checked, and the ROM resets. An image that fails starts over. -/
def execRecoveryDataReceived (now : Timed NvRun) (frame : List Byte) (s : State) : Result :=
  let s := s.elapse now.dt
  let b := frBody frame
  .next (if s.pwr.inReset || s.pwr.state ≠ .recovery || !s.portOn 0 then s
    else
      let s := s.modPort 0 fun r => { r with rxFrames := r.rxFrames + 1 }
      if !frameOk frame then s.modPort 0 fun r => { r with rxErr := r.rxErr + 1 }
      else if !s.linkUp 0 || frClass frame ≠ FC.bulk || frType frame ≠ 1 || byteAt b 0 ≠ 2 || b.length < 6 then s
      else if fieldLE b 1 4 ≠ s.nextWanted then s
      else
        let s := s.recoveryBytes (b.drop 5)
        match s.updateNow with
        | none => s
        | some u =>
          if u.written ≠ hdPayloadLen u.header then s
          else match s.finishUpdate now.env with
            | (s, some 0) => (s.restart 3).leaveReset false
            | (s, none) => s
            | (s, some _) => { s with boot := { s.boot with update := none } })

/-! ### The NV die's descriptors (R483, R485, R487, R500) -/

def opNvmCfgGet : Nat := 0x1101
def opNvmUser : Nat := 0x1102

/-- NVM_CFG_GET: one held block, the oldest first. -/
def execNvmCfgGet (dt ring index : Nat) (s : State) : Result :=
  .next ((s.elapse dt).withDesc ring index opNvmCfgGet (fun _ => true) fun s d =>
    if s.nvm.fault then s.complete d St.unitFault
    else if s.nvHeld then s.complete d St.pfail
    else if d.len = 0 then s.complete d St.empty
    else match s.settledStore[d.operand 0 1]? with
      | none => s.complete d St.notFound
      | some b => if d.len < b.bytes.length then s.complete d St.length else (s.writePayload d 0 b.bytes).complete d St.ok)

/-- NVM_USER_XFER: its span lies in the user region, and it moves 1 to 1,048,576 bytes. -/
def State.userXfer (s : State) (d : Desc) (f : State → Desc → Nat → State) : State :=
  let o := d.operand 1 4
  if s.nvm.fault then s.complete d St.unitFault
  else if s.nvHeld then s.complete d St.pfail
  else if d.len = 0 then s.complete d St.empty
  else if 1048576 < d.len then s.complete d St.length
  else if s.userSize < o + d.len then s.complete d St.range
  else f s d o

/-- Bytes of the user region are written. -/
def State.putUser (s : State) (a : Nat) (b : List Byte) : State :=
  { s with nvm := { s.nvm with user := writeMem s.nvm.user memFill a b } }

/-- One block of a write of `b` at `o`: one that is worn takes nothing; one that is cut off holds free values where it was written, and
nothing is written after it. -/
def userBlock (o : Nat) (b : List Byte) (acc : State × NvRun × NvEnd) (blk : Nat) : State × NvRun × NvEnd :=
  let (s, run, e) := acc
  match e with
  | .cut _ => acc
  | _ =>
    if s.userWorn blk then (s, run, .worn)
    else
      let lo := max o (65536 * blk)
      let hi := min (o + b.length) (65536 * (blk + 1))
      match s.nvWrite Region.user blk run with
      | (s, .worn) => (s, runNext run, .worn)
      | (s, .cut power) => ({ s with free := s.free + (hi - lo) }.putUser lo
          ((List.range (hi - lo)).map fun i => (Config.freeBits 27 (s.free + i) 8 : Byte)), run, .cut power)
      | (s, .done) => (s.putUser lo (slice b (lo - o) (hi - lo)), runNext run, e)

/-- DIR 0: block by block; a block that is worn takes nothing, and the descriptor completes `WORN`. -/
def execNvmUserWrite (dt ring index : Nat) (payload : List Byte) (run : NvRun) (s : State) : Result :=
  .next ((s.elapse dt).withDesc ring index opNvmUser (fun d => d.operand 0 1 = 0) fun s d =>
    s.userXfer d fun s d o =>
      let first := o / 65536
      let (s, _, e) := ((List.range ((o + d.len - 1) / 65536 + 1 - first)).map fun k => first + k).foldl
        (userBlock o (padTo d.len payload)) (s, run, NvEnd.done)
      s.completeNv d e.status)

/-- DIR 1: a worn block reads as zero. -/
def execNvmUserRead (dt ring index : Nat) (s : State) : Result :=
  .next ((s.elapse dt).withDesc ring index opNvmUser (fun d => d.operand 0 1 ≠ 0) fun s d =>
    if d.operand 0 1 ≠ 1 then s.complete d St.badDesc
    else s.userXfer d fun s d o =>
      let b := (List.range d.len).map fun i =>
        if s.userWorn ((o + i) / 65536) then (0 : Byte) else tget s.nvm.user memFill (o + i)
      (s.writePayload d 0 b).complete d St.ok)

end Sys2Proof.Machine
end

