-- ==== Sys2Proof/Machine/Dispatcher.lean ====
section
/-! DEFINITION. The Dispatcher's commands: thread control, waits, posts, watchdog kicks and the route table (R429 to R444). -/

namespace Sys2Proof.Machine

/-- The cores run instructions (R25, R452). -/
def State.coresRun (s : State) : Bool := (s.pwr.state = .waitHost || s.pwr.state = .run) && !s.pwr.inReset

/-- A CSR instruction of the thread running on a core; without one, only the time passes. -/
def State.onCore (s : State) (core : Nat) (f : State → Nat → State) : State :=
  if !s.coresRun then s else match s.running core with
    | some t => (f s t).noteTraceDrop
    | none => s

/-- An instruction retires. -/
def State.retire (s : State) (t : Nat) : State := s.modThread t fun th => { th with pc := th.pc + 4 }

/-- A register of a thread takes a value; x0 takes none. -/
def Thread.put (th : Thread) (rd : Nat) (v : Word) : Thread := { th with x := if rd = 0 then th.x else tset th.x 0 rd v }

/-- It retires with a result in `rd`. -/
def State.retireRd (s : State) (t rd : Nat) (v : Word) : State :=
  s.modThread t fun th => { th.put rd v with pc := th.pc + 4 }

/-- A trap for an exception: taken on the core under its mtvec, in the context of the running thread (R432); mcause, mstatus and the
handler's address are the standard's, and what mtval then holds is free (log entry 15). -/
def State.trap (s : State) (core t : Nat) (cause : Word) : State :=
  let vec := tget s.dis.mtvec 0 core
  (s.modThread t fun th => { th with
    mepc := th.pc, mcause := cause, mtval := Config.freeBits 3 s.free 32, user := false
    mstatus := (th.mstatus &&& ~~~(0x1888 : Word)) ||| (if th.mstatus.getLsbD 3 then 0x80 else 0) ||| (if th.user then 0 else 0x1800)
    pc := vec &&& ~~~(3 : Word) }).draw

/-- An MRW CSR traps as an illegal instruction in user mode (R429). -/
def State.trapIllegal (s : State) (core t : Nat) : State := s.trap core t 2

/-- A machine-mode CSR write by the thread on a core. -/
def State.machineCsr (s : State) (core : Nat) (f : State → State) : State :=
  s.onCore core fun s t => if (s.thread t).user then s.trapIllegal core t else f (s.retire t)

/-- dsel of a core (R429). -/
def State.select (s : State) (core thread : Nat) : State :=
  { s with dis := { s.dis with dsel := tset s.dis.dsel 0 core (thread % 512) } }

/-- A command on the thread that dsel of the core names: dsel holds the thread, and the command acts on it (log entry 16). -/
def State.onSelected (s : State) (core thread : Nat) (f : State → State) : State :=
  s.machineCsr core fun s => f (s.select core thread)

/-! ### dctl (R433) -/

/-- Take a thread out of its ready list. -/
def State.unready (s : State) (t : Nat) : State :=
  let p := (s.thread t).prio
  s.setReady p ((s.readyList p).erase t)

/-- START: pc, a0 and sp from dentry, darg and dsp, the mode from UMODE, all else 0 (R433). -/
def State.startThread (s : State) (t : Nat) : State :=
  let th := s.thread t
  if th.state ≠ .free || th.affinity = 0 then s
  else (s.modThread t fun th => { Thread.reset with
      prio := th.prio, affinity := th.affinity, umode := th.umode, entry := th.entry, arg := th.arg, sp := th.sp
      pc := th.entry, user := th.umode, x := tset (tset [] 0 2 th.sp) 0 10 th.arg, core := th.core }).place t

/-- SUSPEND: from `READY`, `RUNNING` or `WAITING` (R433). -/
def State.suspendThread (s : State) (t : Nat) : State :=
  let th := s.thread t
  match th.state with
  | .ready => (s.unready t).modThread t fun th => { th with state := .suspended }
  | .running => (s.modThread t fun th => { th with state := .suspended }).refill th.core .suspend t
  | .waiting => s.modThread t fun th => { th with state := .suspended, mask := 0 }
  | .free => s
  | .suspended => s

/-- RESUME: from `SUSPENDED` (R433). -/
def State.resumeThread (s : State) (t : Nat) : State :=
  if (s.thread t).state = .suspended then
    (s.modThread t fun th => { th with wakeSrc := 0x3FFFFF }).place t
  else s

/-- KILL: from any state (R433). -/
def State.killThread (s : State) (t : Nat) : State :=
  let th := s.thread t
  let clear := fun (th : Thread) => { Thread.reset with
    prio := th.prio, affinity := th.affinity, umode := th.umode, entry := th.entry, arg := th.arg, sp := th.sp, core := th.core }
  match th.state with
  | .ready => (s.unready t).modThread t clear
  | .running => (s.modThread t clear).refill th.core .kill t
  | _ => s.modThread t clear

/-- dctl START by the thread on a core; dsel, and dentry, darg and dsp of the thread that it names, hold `thread`, `entry`, `arg` and
`sp` (log entry 16). -/
def execDctlStart (dt core thread : Nat) (entry arg sp : Word) (s : State) : Result :=
  .next ((s.elapse dt).onSelected core thread fun s =>
    (s.modThread (thread % 512) fun th => { th with entry := entry, arg := arg, sp := sp }).startThread (thread % 512))

def execDctlSuspend (dt core thread : Nat) (s : State) : Result :=
  .next ((s.elapse dt).onSelected core thread fun s => s.suspendThread (thread % 512))

def execDctlResume (dt core thread : Nat) (s : State) : Result :=
  .next ((s.elapse dt).onSelected core thread fun s => s.resumeThread (thread % 512))

def execDctlKill (dt core thread : Nat) (s : State) : Result :=
  .next ((s.elapse dt).onSelected core thread fun s => s.killThread (thread % 512))

/-- A running thread whose priority has fallen is preempted by a better `READY` thread for its core (R435). -/
def State.yieldTo (s : State) (core t : Nat) : State :=
  match s.nextFor core with
  | none => s
  | some n =>
    if s.dis.fault || (s.thread t).prio ≤ (s.thread n).prio then s
    else
      let s := s.modThread t fun th => { th with state := .ready, wakeSrc := 0x3FFFFF }
      (s.refill core .preempt t).placeBy t (State.toHead t)

/-- dcfg: PRIO, UMODE and AFFINITY; a change of PRIO re-runs placement (R429, R433). -/
def State.dcfgWrite (s : State) (t : Nat) (v : Word) : State :=
  let p := bits v.toNat 0 5
  let th := s.thread t
  let set := fun (th : Thread) => { th with
    prio := p, umode := v.getLsbD 5, affinity := BitVec.ofNat 12 (bits v.toNat 6 12) }
  match th.state with
  | .ready => if th.prio = p then s.modThread t set else ((s.unready t).modThread t set).place t
  | .running => (s.modThread t set).yieldTo th.core t
  | _ => s.modThread t set

def execDcfgWrite (dt core thread : Nat) (value : Word) (s : State) : Result :=
  .next ((s.elapse dt).onSelected core thread fun s => s.dcfgWrite (thread % 512) value)

/-- Any write to dcinv invalidates the core's data cache; being write-through, it holds nothing that DRAM lacks (R427, R429). -/
def State.dcacheInv (s : State) (core : Nat) : State :=
  { s with dis := { s.dis with
    dcinv := tset s.dis.dcinv 0 core (tget s.dis.dcinv 0 core + 1), dcache := tset s.dis.dcache [] core [] } }

def execDcinv (dt core : Nat) (s : State) : Result :=
  .next ((s.elapse dt).machineCsr core fun s => s.dcacheInv core)

/-! ### Waits, posts, yields (R430, R431, R435) -/

/-- A wait on a mask (R430). -/
def State.waitOn (s : State) (core t rd : Nat) (mask : Word) (all : Bool) : State :=
  let th := s.thread t
  if mask = 0 then s.retireRd t rd 0
  else if waitMet all th.flags mask then
    (s.modThread t fun th => { th with flags := th.flags &&& ~~~mask }).retireRd t rd (th.flags &&& mask)
  else (s.modThread t fun th => { th with state := .waiting, mask := mask, waitAll := all, rd := rd, met := none }).refill
    core .wait t

/-- `csrrw rd, dwany, rs1` with rs1 = `mask`. -/
def execDwany (dt core rd : Nat) (mask : Word) (s : State) : Result :=
  .next ((s.elapse dt).onCore core fun s t => s.waitOn core t (rd % 32) mask false)

/-- `csrrw rd, dwall, rs1` with rs1 = `mask`. -/
def execDwall (dt core rd : Nat) (mask : Word) (s : State) : Result :=
  .next ((s.elapse dt).onCore core fun s t => s.waitOn core t (rd % 32) mask true)

/-- Sets a flag of a thread from software: [8:0] thread, [20:16] flag; EVENT 31 of DIS stands for the post (R429, R437). -/
def State.softPost (s : State) (t : Nat) (value : Word) : State :=
  let (s, lost) := s.post [(bits value.toNat 0 9, bits value.toNat 16 5)] (sourceCode ⟨U.dis, 31, none⟩ t)
  lost.foldl (fun s l => s.raise Ev.disLostPost l (leBytes 2 l)) s

def execDpost (dt core : Nat) (value : Word) (s : State) : Result :=
  .next ((s.elapse dt).onCore core fun s t => (s.retire t).softPost t value)

/-- The running thread yields to the tail of its list, and continues when nothing eligible of equal or higher priority is
`READY` (R435); `READY` again, it is placed as any thread is (log entry 81). -/
def State.yieldThread (s : State) (core t : Nat) : State :=
  if s.dis.fault then
    let p := (s.thread t).prio
    let s := s.modThread t fun th => { th with state := .ready }
    (s.setReady p (s.readyList p ++ [t])).refill core .yield t
  else match s.nextFor core with
    | none => s
    | some n =>
      if (s.thread t).prio < (s.thread n).prio then s
      else
        let s := s.modThread t fun th => { th with state := .ready, wakeSrc := 0x3FFFFF }
        (s.refill core .yield t).place t

def execDyield (dt core : Nat) (s : State) : Result :=
  .next ((s.elapse dt).onCore core fun s t => (s.retire t).yieldThread core t)

/-- Kicks watchdog `k`, when the running thread is the one bound (R442). -/
def State.kick (s : State) (t k : Nat) : State :=
  if k < 16 && s.reg F.DIS_WDOG_EN k = 1 && s.reg F.DIS_WDOG_THREAD k = t then
    { s with dis := { s.dis with wdogs := tset s.dis.wdogs Wdog.reset k ⟨s.clk.counter, false⟩ } }
  else s

def execDkick (dt core : Nat) (value : Word) (s : State) : Result :=
  .next ((s.elapse dt).onCore core fun s t => (s.retire t).kick t value.toNat)

/-- Clears flags of the running thread (R429). -/
def State.clearFlags (s : State) (t : Nat) (mask : Word) : State :=
  s.modThread t fun th => { th with flags := th.flags &&& ~~~mask }

def execDclr (dt core : Nat) (mask : Word) (s : State) : Result :=
  .next ((s.elapse dt).onCore core fun s t => (s.retire t).clearFlags t mask)

/-! ### DIS_ROUTE_XFER (R440) -/

def opRouteXfer : Nat := 0x0D01

/-- FIRST and COUNT of a table transfer: COUNT from 1, FIRST + COUNT at most `size`; and the clamps made (R41, R440, R548). -/
def xferSpan (size first count : Nat) : Nat × Nat × Nat :=
  let f := min (size - 1) first
  let c := min (size - f) (max 1 count)
  (f, c, b2n (f ≠ first) + b2n (c ≠ count))

/-- A transfer of table entries of `w` bytes: the checks shared by the table transfers, then the move `f` of FIRST and
COUNT. -/
def State.tableXfer (s : State) (d : Desc) (size w first count : Nat) (f : State → Desc → Nat → Nat → State) : State :=
  if d.len = 0 then s.complete d St.empty
  else
    let (fst, cnt, n) := xferSpan size first count
    let d := d.clampIf (n ≠ 0)
    let s := s.countClamps n none
    if d.len ≠ w * cnt then s.complete d St.length else f s d fst cnt

/-- Entries `first` to `first + count - 1` written from a payload. -/
def putEntries (t : Tbl (List Byte)) (w first count : Nat) (fix : List Byte → List Byte) (payload : List Byte) :
    Tbl (List Byte) :=
  (List.range count).foldl (fun t k =>
    let e := fix (slice payload (w * k) w)
    tset t [] (first + k) (if e.all (· = 0) then [] else e)) t

/-- Entries read into a payload. -/
def getEntries (t : Tbl (List Byte)) (w first count : Nat) : List Byte :=
  ((List.range count).map fun k => padTo w (tget t [] (first + k))).flatten

/-- A route entry with its reserved bits zero (R438). -/
def fixRoute (e : List Byte) : List Byte := leBytes 4 (bits (fieldLE e 0 4) 0 23) ++ leBytes 4 (bits (fieldLE e 4 4) 0 16)

/-- DIS_ROUTE_XFER after its unit checks. -/
def State.routeXfer (s : State) (d : Desc) (f : State → Desc → Nat → Nat → State) : State :=
  if s.dis.fault then s.complete d St.unitFault
  else s.tableXfer d 1024 8 (d.operand 2 2) (d.operand 4 2) f

/-- DIR 0 writes routes to staging. -/
def execDisRouteWriteStaging (dt ring index : Nat) (payload : List Byte) (s : State) : Result :=
  .next ((s.elapse dt).withDesc ring index opRouteXfer (fun d => d.operand 0 1 = 0) fun s d =>
    s.routeXfer d fun s d f c =>
      ({ s with cfg := { s.cfg with staged := { s.cfg.staged with
          routes := putEntries s.cfg.staged.routes 8 f c fixRoute (padTo d.len payload) } } }).complete d St.ok)

/-- DIR 1 reads staged routes; an unassigned DIR completes `BAD_DESC` (R42). -/
def execDisRouteReadStaging (dt ring index : Nat) (s : State) : Result :=
  .next ((s.elapse dt).withDesc ring index opRouteXfer (fun d => d.operand 0 1 = 1 || 3 ≤ d.operand 0 1) fun s d =>
    if 3 ≤ d.operand 0 1 then s.complete d St.badDesc
    else s.routeXfer d fun s d f c =>
      (s.writePayload d 0 (getEntries s.cfg.staged.routes 8 f c)).complete d St.ok)

/-- DIR 2 reads active routes. -/
def execDisRouteReadActive (dt ring index : Nat) (s : State) : Result :=
  .next ((s.elapse dt).withDesc ring index opRouteXfer (fun d => d.operand 0 1 = 2) fun s d =>
    s.routeXfer d fun s d f c =>
      (s.writePayload d 0 (getEntries s.cfg.active.routes 8 f c)).complete d St.ok)

end Sys2Proof.Machine
end

