-- ==== Sys2Proof/Machine/Caravan.lean ====
section
/-! DEFINITION. The Caravan Engine's commands: decisions, the host policy, expiry and the descriptors of its range
(R276, R282 to R284, R291 to R297). -/

namespace Sys2Proof.Machine

def opCarTrack : Nat := 0x0701
def opCarTask : Nat := 0x0702
def opCarReserve : Nat := 0x0703
def opCarReqGet : Nat := 0x0704
def opCarRelease : Nat := 0x0705
def opCarResume : Nat := 0x0706

/-! ### The host policy (R282, R294) -/

/-- CAR_REQ_GET descriptors that wait are served from the host queue. -/
def State.serveReq (s : State) : State :=
  match (s.waiters opCarReqGet).head?, s.car.hostq.find? fun h => !h.read with
  | some d, some h =>
    let s := { s with car := { s.car with
      hostq := s.car.hostq.map fun (x : HostReq) => if x.token = h.token then { x with read := true } else x } }
    (s.writePayload d 0 h.req.body).complete d St.ok
      (leBytes 2 h.token ++ leBytes 1 h.req.owner ++ [0] ++ leBytes 8 h.req.at')
  | _, _ => s

/-- A request enters the host queue. -/
def State.toHostQueue (s : State) (r : Req) : State :=
  let empty := s.car.hostq.all (·.read)
  let token := s.car.token % 65535 + 1
  let s := { s with car := { s.car with token := token, hostq := s.car.hostq ++ [HostReq.mk token s.clk.counter false r] } }
  (if empty then s.raise Ev.carRequest 0 [] else s).serveReq

/-- The first pending request is decided; `us` is the length of its turn (R276, R283). No turn is longer than 200 µs. -/
def execCarRequestDecide (dt us : Nat) (s : State) : Result :=
  let (turn, s) := (s.elapse dt).turnLength us 200
  .next (if s.car.fault || !s.unitOn U.car || s.dramHeld then s
    else match s.firstReq with
      | none => s
      | some r =>
        let s := { s with car := { s.car with pend := s.car.pend.erase r, answerMax := max s.car.answerMax turn } }
        match s.carDecide r with
        | (s, .answer a) => s.giveAnswer r a
        | (s, .toHost) => s.toHostQueue r)

/-- A host-policy request that no CAR_RESERVE named within HOST_TIMEOUT is refused; under FAULT none is decided (R282, R297). -/
def execCarHostTimeout (dt : Nat) (s : State) : Result :=
  let s := s.elapse dt
  .next (if s.car.fault || !s.unitOn U.car then s
    else match s.car.hostq.find? fun h => h.since + s.reg F.CAR_CONF_HOST_TIMEOUT * 10 * tickMs ≤ s.clk.counter with
      | some h =>
        let s := { s with car := { s.car with hostq := s.car.hostq.filter fun x => x.token ≠ h.token } }
        (s.raise Ev.carHostTimeout 0 []).giveAnswer h.req (refusal Why.hostTimeout)
      | none => s)

/-- Every 10 ms (R284). -/
def execCarExpiry (dt : Nat) (s : State) : Result :=
  let s := s.elapse dt
  .next (if !s.unitOn U.car || s.pwr.state = .safeHold || !s.due T.carExpiry (10 * tickMs) then s
    else (s.mark T.carExpiry).expireAll)

/-! ### Tracks and tasks (R291, R292) -/

/-- A descriptor of the engine, after its unit checks. -/
def State.withCar (s : State) (ring index op : Nat) (variant : Desc → Bool) (dram : Bool) (f : State → Desc → State) : State :=
  s.withDesc ring index op variant fun s d =>
    match s.carStop with
    | some st => s.complete d st
    | none => if !dram then f s d else if s.dramHeld then s else if s.mem.trainFail then s.complete d St.unitFault else f s d

/-- Track records written from `k` on; a record whose track is `ALLOTTED` stops the load. The Nat counts the clamps. -/
def State.loadTracks (s : State) : Nat → List (List Byte) → State × Bool × Nat
  | _, [] => (s, true, 0)
  | k, b :: r =>
    let state := trState (s.trackRec k)
    let s := s.trackSeen k
    if state = TR.allotted then (s, false, 0)
    else
      let (b, n) := fixTrack b
      let (s, ok, m) := (s.dramWrite (s.trackAddr k) b).loadTracks (k + 1) r
      (s, ok, n + m)

/-- DIR 0 loads. -/
def execCarTrackLoad (dt ring index : Nat) (payload : List Byte) (s : State) : Result :=
  .next ((s.elapse dt).withCar ring index opCarTrack (fun d => d.operand 0 1 = 0) true fun s d =>
    s.tableXfer d carTracks trackSize (d.operand 2 2) (d.operand 4 2) fun s d f c =>
      let recs := (List.range c).map fun i => slice payload (trackSize * i) trackSize
      let (s, ok, n) := s.loadTracks f recs
      (s.countClamps n none).complete (d.clampIf (n ≠ 0)) (if ok then St.ok else St.trackBusy))

/-- DIR 1 reads; an unassigned DIR completes `BAD_DESC` (R42). -/
def execCarTrackRead (dt ring index : Nat) (s : State) : Result :=
  .next ((s.elapse dt).withDesc ring index opCarTrack (fun d => d.operand 0 1 ≠ 0) fun s d =>
    if 1 < d.operand 0 1 then s.complete d St.badDesc
    else (s.withCar ring index opCarTrack (fun _ => true) true fun s d =>
      s.tableXfer d carTracks trackSize (d.operand 2 2) (d.operand 4 2) fun s d f c =>
        (((List.range c).foldl (fun s i => s.trackSeen (f + i)) s).writePayload d 0
          ((List.range c).map fun i => s.trackRec (f + i)).flatten).complete d St.ok))

/-- Task records are stored (R292, whose operands follow each other: COUNT lies at offset 1). -/
def execCarTaskSet (dt ring index : Nat) (payload : List Byte) (s : State) : Result :=
  .next ((s.elapse dt).withCar ring index opCarTask (fun _ => true) false fun s d =>
    s.tableXfer d 256 48 (d.operand 0 1) (d.operand 1 2) fun s d f c =>
      let recs := (List.range c).map fun i => fixTask (slice payload (48 * i) 48)
      let n := (recs.map (·.2)).sum
      let s := { s with car := { s.car with
        tasks := putEntries s.car.tasks 48 f c (fun b => (fixTask b).1) (padTo d.len payload) } }
      (s.countClamps n none).complete (d.clampIf (n ≠ 0)) St.ok)

/-! ### CAR_RESERVE (R293) -/

/-- One segment record: its window counted from BASE, widened to whole units, and the clamps made. An open end is for host
blocks only. -/
def reserveSeg (base owner field : Nat) (b : List Byte) : Seg × Nat :=
  let e := fieldLE b 20 4
  let openEnd := e = 0xFFFFFFFF
  let bad := openEnd && decide (owner < 256)
  let e' := if bad then 0xFFFFFFFE else e
  let h := min 2000 (fieldLE b 24 2)
  (⟨(signed 32 (fieldLE b 0 4), signed 32 (fieldLE b 4 4)), (signed 32 (fieldLE b 8 4), signed 32 (fieldLE b 12 4)), 10 * h,
    base / carUnit + fieldLE b 16 4, if openEnd && !bad then none else some ((base + carUnit - 1) / carUnit + e'), field, none,
    false⟩, b2n bad + b2n (h ≠ fieldLE b 24 2))

/-- CAR_RESERVE joins the pending set as a request of its own; with a TOKEN it has the REQ_TIME and REQ_ID of the request
that it answers. -/
def State.carReserve (s : State) (d : Desc) (payload : List Byte) : State :=
  if d.len = 0 then s.complete d St.empty
  else if d.len % 32 ≠ 0 || 64 < d.len / 32 then s.complete d St.length
  else
    let owner := min 0x1FF (d.operand 0 2)
    let token := d.operand 2 2
    let tr := d.operand 4 2
    let flags := d.operand 6 1
    let base := d.operand 8 8
    let recs := (List.range (d.len / 32)).map fun i => reserveSeg base owner (s.machineField owner) (slice payload (32 * i) 32)
    let n := b2n (owner ≠ d.operand 0 2) + (recs.map (·.2)).sum
    let s := s.countClamps n none
    let d := d.clampIf (n ≠ 0)
    let was := if token = 0 then none else s.car.hostq.find? fun h => h.token = token
    let r : Req := ⟨owner, if was.isSome then 6 else 5, 0, (was.map (·.req.id)).getD 0xFFFF, (was.map (·.req.time)).getD s.now, 0,
      (was.map (·.req.task)).getD 0, [], 0,
      if owner < 256 then mePriority (s.machine owner) else 0, s.now, [], recs.map (·.1),
      if tr = 0xFFFF then none else some tr, bit flags 1, some d.serial, bit flags 0 || token ≠ 0⟩
    let s := { s with car := { s.car with
      hostq := s.car.hostq.filter fun h => token = 0 || h.token ≠ token, pend := s.car.pend ++ [r] } }
    s.wait d

def execCarReserve (dt ring index : Nat) (payload : List Byte) (s : State) : Result :=
  .next ((s.elapse dt).withCar ring index opCarReserve (fun _ => true) false fun s d => s.carReserve d payload)

/-! ### CAR_REQ_GET, CAR_RELEASE, CAR_RESUME (R294 to R296) -/

/-- Four may wait at once; a fifth completes `BUSY`. -/
def State.carReqGet (s : State) (d : Desc) : State :=
  if d.len = 0 then s.complete d St.empty
  else if d.len < 60 then s.complete d St.length
  else if 4 ≤ (s.waiters opCarReqGet).length then s.complete d St.busy
  else (s.wait d).serveReq

def execCarReqGet (dt ring index : Nat) (s : State) : Result :=
  .next ((s.elapse dt).withCar ring index opCarReqGet (fun _ => true) false State.carReqGet)

/-- The whole reservation of an owner goes, then TRACK_OP is applied; a machine that was `ACTIVE` hears of it. -/
def State.carRelease (s : State) (d : Desc) : State :=
  let owner := d.operand 0 2
  let k := d.operand 2 2
  let op := d.operand 4 1
  if 3 < op then s.complete d St.badDesc
  else
    let active := owner < 256 && !(s.reservation owner).isEmpty && (s.carMach owner).frozenAt.isNone && !(s.carMach owner).held
    let s := if owner = 0xFFFF then s else s.setRes owner []
    let s := if k = 0xFFFF || carTracks ≤ k || op = 0 then s
      else s.setTrack k (if op = 1 then TR.free else if op = 2 then TR.done else TR.blocked) 0
    (if active then s.carTell owner An.revised Why.none 0 else s).complete d St.ok

def execCarRelease (dt ring index : Nat) (s : State) : Result :=
  .next ((s.elapse dt).withCar ring index opCarRelease (fun _ => true) true State.carRelease)

/-- A hold is lifted: `RESUME`, and the thaw of R287. -/
def State.carResume (s : State) (d : Desc) : State :=
  let m := d.operand 0 1
  if !(s.carMach m).held then s.complete d St.notPending
  else
    let s := (s.modCar m fun c => { c with held := false }).carTell m An.resume Why.none 0
    (s.thaw m).complete d St.ok

def execCarResume (dt ring index : Nat) (s : State) : Result :=
  .next ((s.elapse dt).withCar ring index opCarResume (fun _ => true) false State.carResume)

end Sys2Proof.Machine
end

