-- ==== Sys2Proof/Machine/FixOps.lean ====
section
/-! DEFINITION. Rover observations: fragments, epochs in assembly and their abandonment (R203 to R206, R217, R222). -/

namespace Sys2Proof.Machine

/-- A rover's period, ns. -/
def rateNs (code : Nat) : Nat := [1000000000, 500000000, 200000000, 100000000, 50000000].getD code 100000000

def State.roverPeriod (s : State) (m : Nat) : Nat := rateNs (s.act F.FIX_ROVER_RATE m)

/-- The central solver works at all. -/
def State.solverOn (s : State) : Bool :=
  s.id.part = .mg7740 && s.unitOn U.fix && !s.fix.fault && s.act F.FIX_CTRL_SOLVER_EN = 1

/-- A machine is solved centrally. -/
def State.roverOn (s : State) (m : Nat) : Bool := s.solverOn && m < s.machines && s.act F.FIX_ROVER_EN m = 1

-- Reasons of R206.
namespace Ab
def deadline : Nat := 1
def format : Nat := 2
def clock : Nat := 3
def queue : Nat := 4
def config : Nat := 5
def step : Nat := 6
def linkLost : Nat := 7
end Ab

/-- An epoch is abandoned (R206). -/
def State.abandonEpoch (s : State) (m n reason : Nat) : State :=
  ({ s with fix := { s.fix with
    asm := terase s.fix.asm m, ended := tput s.fix.ended m n, abandoned := s.fix.abandoned + 1 } }).raise
    (Ev.fixEpochAbandoned reason) m (leBytes 1 m ++ leBytes 1 reason)

/-- The epoch that a machine has in assembly, if any, is abandoned, unless the engine has halted (R222). -/
def State.abandonAsm (s : State) (m reason : Nat) : State :=
  match if s.fix.fault then none else tfind s.fix.asm m with
  | some a => s.abandonEpoch m a.n reason
  | none => s

/-! ### The epoch body (R204) -/

/-- Signal blocks of one satellite. -/
def parseSigs (sys : Nat) (slot : Int) (svid rough : Nat) : Nat → List Byte → List ObsSig
  | 0, _ => []
  | n + 1, b =>
    let fl := byteAt b 1
    ⟨sys, slot, svid, byteAt b 0, bit fl 0, bit fl 1, bit fl 2, bits fl 4 3, rough, signed 16 (fieldLE b 2 2),
      signed 24 (fieldLE b 4 3), byteAt b 7⟩ :: parseSigs sys slot svid rough n (b.drop 8)

/-- Satellite blocks, none where a count lies out of range or the bytes run out; every byte must be used. -/
def parseSats : Nat → List Byte → Option (List ObsSig)
  | 0, b => if b.isEmpty then some [] else none
  | n + 1, b =>
    let k := byteAt b 5
    if k = 0 ∨ 4 < k ∨ b.length < 6 + 8 * k then none
    else (parseSats n (b.drop (6 + 8 * k))).map fun r =>
      let sys := byteAt b 0 % 16
      let slot : Int := if sys = 1 then (byteAt b 0 / 16 : Nat) - 7 else 0
      parseSigs sys slot (byteAt b 1) (fieldLE b 2 3) k (b.drop 6) ++ r

/-- An epoch body parsed. -/
def parseEpoch (b : List Byte) : Option ObsEpoch :=
  let nsat := byteAt b 1
  let nsig := byteAt b 2
  if b.length < 8 ∨ byteAt b 0 ≠ 1 ∨ nsat = 0 ∨ 40 < nsat ∨ nsig = 0 ∨ 120 < nsig then none
  else match parseSats nsat (b.drop 8) with
    | some l => if l.length = nsig then some ⟨bit (byteAt b 3) 0, signed 32 (fieldLE b 4 4), nsat, l⟩ else none
    | none => none

/-! ### Assembly (R205, R206) -/

/-- Every index of the epoch is held. -/
def Assembly.full (a : Assembly) : Bool := (List.range a.count).all fun i => (tfind a.frags i).isSome

def Assembly.body (a : Assembly) : List Byte := ((List.range a.count).map fun i => tget a.frags [] i).flatten

/-- A complete epoch goes to the solver's queue, or is abandoned (R206, R213). -/
def State.completeEpoch (s : State) (m : Nat) (a : Assembly) : State :=
  if a.body.length ≠ a.bodyLen then s.abandonEpoch m a.n Ab.format
  else match parseEpoch a.body with
    | none => s.abandonEpoch m a.n Ab.format
    | some e =>
      if 500000 < e.clkOfs.natAbs then s.abandonEpoch m a.n Ab.clock
      else if 256 ≤ s.fix.queue.length then s.abandonEpoch m a.n Ab.queue
      else { s with fix := { s.fix with
        asm := terase s.fix.asm m, ended := tput s.fix.ended m a.n, queue := s.fix.queue ++ [⟨m, a.tObs, e, s.now, SolveCfg.none, false⟩] } }

/-- A fragment that agrees with its epoch is held. -/
def State.holdFragment (s : State) (m : Nat) (a : Assembly) (i : Nat) (data : List Byte) : State :=
  let a := { a with frags := tput a.frags i data }
  let s := { s with fix := { s.fix with asm := tput s.fix.asm m a } }
  if a.full then s.completeEpoch m a else s

/-- A fragment arrives (R203, R205): shorter than its header and FRAG_LEN, it is not used (R247); one of an epoch that has
ended is not taken up again (log entry 25). -/
def State.takeFragment (s : State) (m : Nat) (b : List Byte) : State :=
  let len := fieldLE b 6 2
  if b.length < 8 || b.length < 8 + len || s.fix.fault then s
  else
    let discard := { s with fix := { s.fix with fragDiscard := s.fix.fragDiscard + 1 } }
    if !s.roverOn m then discard
    else
      let per := s.roverPeriod m
      let cur := s.now / per
      let n := cur - (cur + 65536 - fieldLE b 0 2) % 65536
      let t := n * per
      if t + s.act F.FIX_SOLVER_ASM_LIMIT * 10000000 ≤ s.now then discard
      else
        let i := byteAt b 2 % 16
        let count := byteAt b 2 / 16 + 1
        let data := slice b 8 len
        let fresh : Assembly := ⟨n, t, count, fieldLE b 4 2, []⟩
        let start := fun (s : State) =>
          if tfind s.fix.ended m = some n then s
          else if count ≤ i then s.abandonEpoch m n Ab.format
          else s.holdFragment m fresh i data
        match tfind s.fix.asm m with
        | none => start s
        | some a =>
          if a.n = n then
            if (tfind a.frags i).isSome then s
            else if a.count ≠ count || a.bodyLen ≠ fieldLE b 4 2 || count ≤ i then s.abandonEpoch m n Ab.format
            else s.holdFragment m a i data
          else if a.n < n then start (s.abandonEpoch m a.n Ab.deadline)
          else s

end Sys2Proof.Machine
end

