-- ==== Sys2Proof/Machine/Arc.lean ====
section
/-! DEFINITION. The arctangent in turns, the decimal logarithm and ratios on rationals, rounded to multiples of 2⁻⁶⁴ (log
entry 5); free rationals for what these leave without a value (log entry 3). -/

namespace Sys2Proof.Machine

/-- A free rational, where a formula of the manual has no value. -/
def freeRat (tag n : Nat) : Rat := (Config.freeInt tag n : Rat) / 2 ^ 32

/-- z + z³/3 + z⁵/5 + …, with alternating signs where `alt`; `t` is the current power of z. -/
def oddSeries (alt : Bool) (z2 : Int) : Nat → Int → Int → Int
  | 0, _, _ => 0
  | n + 1, k, t =>
    let u := t * z2 / fpScale
    t / k + oddSeries alt z2 n (k + 2) (if alt then -u else u)

/-- tan of half the angle whose tangent is `t`, fixed point. -/
def halfTan (t : Int) : Int :=
  t * fpScale / (fpScale + (isqrt ((fpScale * fpScale + t * t).toNat) : Nat))

/-- The angle in turns whose tangent is q, 0 ≤ q ≤ 1. -/
def atanUnit (q : Rat) : Rat :=
  let t := halfTan (halfTan (halfTan (q * fpScale).floor))
  let a := oddSeries true (t * t / fpScale) 16 1 t
  fpRound (((8 * (a : Rat)) / twoPi).floor)

/-- The angle of (x, y) in turns, above −1/2 and at most 1/2; none at the origin. -/
def atan2Turn (y x : Rat) : Option Rat :=
  let ay := absR y
  let ax := absR x
  if ax = 0 ∧ ay = 0 then none
  else
    let a := if ay ≤ ax then atanUnit (ay / ax) else 1 / 4 - atanUnit (ax / ay)
    let b := if x < 0 then 1 / 2 - a else a
    some (if y < 0 then -b else b)

/-- ln 2 and ln 10. -/
def ln2 : Rat := 693147180559945309417232121458176568075500134360 / 1000000000000000000000000000000000000000000000000
def ln10 : Rat := 2302585092994045684017991454684364207601101488629 / 1000000000000000000000000000000000000000000000000

/-- The whole part of log₂ of a rational above 0. -/
def log2Floor (q : Rat) : Int :=
  let e : Int := (Nat.log2 q.num.natAbs : Int) - (Nat.log2 q.den : Int)
  if q < (2 : Rat) ^ e then e - 1 else e

/-- 10 log₁₀ of a rational; none where it is not above 0. -/
def dB (q : Rat) : Option Rat :=
  if q ≤ 0 then none
  else
    let e := log2Floor q
    let m := q / (2 : Rat) ^ e
    let z := ((m - 1) / (m + 1) * fpScale).floor
    let l := 2 * oddSeries false (z * z / fpScale) 44 1 z
    some (fpRound (10 * (((l : Rat) + (e : Rat) * ln2 * fpScale) / ln10)).floor)

/-- a / b, or a free value where b is 0. -/
def ratioOr (a b : Rat) (free : Rat) : Rat := if b = 0 then free else a / b

/-- −1, 0 or 1. -/
def signR (q : Rat) : Rat := if q < 0 then -1 else if 0 < q then 1 else 0

end Sys2Proof.Machine
end

