-- ==== Sys2Proof/Machine/GnssOps.lean ====
section
/-! DEFINITION. The GNSS Receiver's signals, channels, loops and epochs (R141 to R147, R154 to R167). -/

namespace Sys2Proof.Machine

/-! ### Systems and signals (R145 to R147) -/

/-- A row of R146: bit, code, band (0 Low, 1 Mid, 2 High), carrier in Hz and Hz per frequency slot, chips per second, primary
period, whether it has a pilot, acquisition limit and data symbol in ms. -/
structure SigDef where
  bit : Nat
  code : Nat
  band : Nat
  carrier : Nat
  step : Nat
  rate : Nat
  period : Nat
  pilot : Bool
  acq : Nat
  symbol : Nat
deriving DecidableEq, Repr

/-- The signals of R146. -/
def sigTable : List SigDef := [
  ⟨0, 0x01, 2, 1575420000, 0, 1023000, 1, false, 20, 20⟩,
  ⟨1, 0x02, 2, 1575420000, 0, 1023000, 10, true, 10, 10⟩,
  ⟨2, 0x03, 1, 1227600000, 0, 1023000, 20, true, 20, 20⟩,
  ⟨3, 0x04, 0, 1176450000, 0, 10230000, 1, true, 1, 10⟩,
  ⟨4, 0x10, 2, 1602000000, 562500, 511000, 1, false, 10, 10⟩,
  ⟨5, 0x11, 1, 1246000000, 437500, 511000, 1, false, 10, 10⟩,
  ⟨6, 0x20, 2, 1575420000, 0, 1023000, 4, true, 4, 4⟩,
  ⟨7, 0x21, 0, 1176450000, 0, 10230000, 1, true, 1, 20⟩,
  ⟨8, 0x22, 0, 1207140000, 0, 10230000, 1, true, 1, 4⟩,
  ⟨9, 0x23, 1, 1278750000, 0, 5115000, 1, true, 1, 1⟩,
  ⟨10, 0x30, 2, 1561098000, 0, 2046000, 1, false, 1, 20⟩] ++ [
  ⟨11, 0x31, 2, 1575420000, 0, 1023000, 10, true, 10, 10⟩,
  ⟨12, 0x32, 0, 1176450000, 0, 10230000, 1, true, 1, 5⟩,
  ⟨13, 0x33, 1, 1268520000, 0, 10230000, 1, false, 1, 20⟩,
  ⟨14, 0x40, 2, 1575420000, 0, 1023000, 1, false, 20, 20⟩,
  ⟨15, 0x41, 2, 1575420000, 0, 1023000, 10, true, 10, 10⟩,
  ⟨16, 0x42, 1, 1227600000, 0, 1023000, 20, true, 20, 20⟩,
  ⟨17, 0x43, 0, 1176450000, 0, 10230000, 1, true, 1, 10⟩,
  ⟨18, 0x44, 1, 1278750000, 0, 2557500, 4, false, 4, 4⟩,
  ⟨19, 0x50, 0, 1176450000, 0, 1023000, 1, false, 20, 20⟩,
  ⟨20, 0x60, 2, 1575420000, 0, 1023000, 1, false, 2, 2⟩]

/-- GPS L1 C/A, which an unassigned code reads as. -/
def sigFirst : SigDef := ⟨0, 0x01, 2, 1575420000, 0, 1023000, 1, false, 20, 20⟩

def sigFind (code : Nat) : Option SigDef := sigTable.find? fun g => g.code = code

/-- The row of a code; an unassigned code reads as 0x01. -/
def sigOf (code : Nat) : SigDef := (sigFind code).getD sigFirst

/-- System nibble of a signal. -/
def SigDef.sys (g : SigDef) : Nat := g.code / 16

/-- Chips in a primary period. -/
def SigDef.chips (g : SigDef) : Nat := g.rate * g.period / 1000

/-- The BOC-modulated signals, whose spacing is at most 48/128 chip (R147). -/
def SigDef.boc (g : SigDef) : Bool := [0x02, 0x20, 0x31, 0x41].contains g.code

/-- Nominal carrier, Hz. -/
def SigDef.freq (g : SigDef) (slot : Int) : Rat := ((g.carrier : Int) + slot * g.step : Int)

/-- SVID range of a system (R145). -/
def svidRange : Nat → Nat × Nat
  | 0 => (1, 32)
  | 1 => (1, 24)
  | 2 => (1, 36)
  | 3 => (1, 63)
  | 4 => (193, 202)
  | 5 => (1, 14)
  | _ => (120, 158)

/-- A BeiDou satellite in geostationary orbit. PRESUMED: SVID 1 to 5 and 59 to 63 (log entry 30). -/
def geo (sys svid : Nat) : Bool := sys = 3 && (svid ≤ 5 || 59 ≤ svid)

/-- Data symbol of a signal and satellite, ms (R146). -/
def SigDef.symbolOf (g : SigDef) (svid : Nat) : Nat := if geo g.sys svid && (g.code = 0x30 || g.code = 0x33) then 2 else g.symbol

/-- Δ_S in ns (R145), with the leap count for GLONASS. -/
def sysDelta (sys : Nat) (leap : Nat) : Int :=
  if sys = 1 then (19 + (leap : Int) - 10800) * 1000000000 else if sys = 3 then 33000000000 else 19000000000

/-- SIGNAL × 256 + SVID: one signal of one satellite. -/
def sigKey (code svid : Nat) : Nat := code * 256 + svid

/-- Speed of light, m/s. -/
def lightSpeed : Rat := 299792458

/-! ### Channels -/

/-- A unit of the receiver runs (R172). -/
def State.gnsRuns (s : State) : Bool :=
  s.unitOn U.gns && !s.gns.fault && (s.pwr.state = .waitHost || s.pwr.state = .run) && !s.pwr.inReset

/-- A channel serves ANT_B. -/
def State.chanB (s : State) (c : Nat) : Bool := s.act F.GNS_CTRL_CHAN_SPLIT ≤ c

/-- An antenna is enabled. -/
def State.antOn (s : State) (antB : Bool) : Bool := (if antB then s.act F.GNS_CTRL_EN_B else s.act F.GNS_CTRL_EN_A) = 1

/-- A signal is enabled. -/
def State.sigOn (s : State) (code : Nat) : Bool := bit (s.act F.GNS_SIG_EN_SIG) (sigOf code).bit

def State.chan (s : State) (c : Nat) : Chan := tget s.gns.chans Chan.reset c

def State.modChan (s : State) (c : Nat) (f : Chan → Chan) : State :=
  { s with gns := { s.gns with chans := tmod s.gns.chans Chan.reset c f } }

/-- Search units for descriptors: all 16 under `MANUAL` (GNS_CTRL.ACQ_HOST). -/
def State.acqUnits (s : State) : Nat := if s.act F.GNS_CTRL_MODE = 1 then 16 else s.act F.GNS_CTRL_ACQ_HOST

/-- A channel begins in `PULL_IN`, at a code phase in chips and a Doppler in Hz. -/
def State.startChan (s : State) (c code svid : Nat) (slot : Int) (cfg : LoopCfg) (phase doppler : Rat) : State :=
  let g := sigOf code
  s.modChan c fun _ => { Chan.reset with
    state := .pullIn, sig := code, svid := svid, slot := slot, pilot := g.pilot, cfg := cfg, code := phase, doppler := doppler
    codeRate := g.rate * (1 + doppler / g.freq slot), upd := s.clk.counter, freq := doppler, halfAmb := !g.pilot }

/-- The same with the default loops (R156, R160). -/
def State.startDefault (s : State) (c code svid : Nat) (slot : Int) (phase doppler : Rat) : State :=
  s.startChan c code svid slot (LoopCfg.default (sigOf code).pilot) phase doppler

/-- Coherent ms in force: what is asked for, held to the limit of R147 without a clamp being counted (DESIGN CHOICE, log entry 82);
on data the defaults take 1 until bit synchronisation (R160). -/
def Chan.cohMs (c : Chan) : Nat :=
  let g := sigOf c.sig
  let limit := if c.pilot && c.secSync then 100 else if c.bitSync then g.symbolOf c.svid else g.acq
  min limit (if c.cfg.auto && !c.pilot && !c.bitSync then 1 else c.cfg.coh)

/-! ### The loops (R158 to R161, R163) -/

/-- PLL_DISC in force: `ATAN2` on a pilot only; 3 reads as 1. -/
def Chan.pllDisc (c : Chan) : Nat :=
  let d := bits c.cfg.loop 2 2
  if d = 3 ∨ (d = 0 ∧ !c.pilot) then 1 else d

/-- DLL_DISC in force; 3 reads as 0. -/
def Chan.dllDisc (c : Chan) : Nat := if bits c.cfg.loop 4 2 = 3 then 0 else bits c.cfg.loop 4 2

/-- Power of a correlation. -/
def cpow (z : Corr) : Rat := ((z.i * z.i + z.q * z.q : Int) : Rat)

/-- The phase discriminator, cycles. -/
def phaseDisc (kind : Nat) (p : Corr) (free : Rat) : Rat :=
  match kind with
  | 0 => (atan2Turn p.q p.i).getD free
  | 1 => if p.i = 0 then free else (atan2Turn ((p.q : Rat) / p.i) 1).getD free
  | _ => ratioOr (signR p.i * p.q) (sqrtR (cpow p)) free / twoPi

/-- The code discriminator, chips; d in chips. -/
def codeDisc (kind : Nat) (e p l : Corr) (d free : Rat) : Rat :=
  match kind with
  | 0 => ratioOr ((cpow e) - (cpow l)) ((cpow e) + (cpow l)) free * (1 - d / 2)
  | 1 => ratioOr (((e.i - l.i) * p.i + (e.q - l.q) * p.q : Int) : Rat) (cpow p) free * (1 - d / 2) / 2
  | _ => ratioOr (sqrtR (cpow e) - sqrtR (cpow l)) (sqrtR (cpow e) + sqrtR (cpow l)) free * (1 - d / 2)

/-- Turn from one prompt to the next, cycles (the FLL's atan2 (cross, dot) / 2π). -/
def promptTurn (a : Int × Int) (b : Corr) (free : Rat) : Rat :=
  (atan2Turn ((a.1 * b.q - a.2 * b.i : Int) : Rat) ((a.1 * b.i + a.2 * b.q : Int) : Rat)).getD free

/-- Lock indicator of one interval: the mean over the tracked components. -/
def lockOf (comps : List (Corr × Corr × Corr)) (free : Rat) : Rat :=
  let v := comps.map fun z => ratioOr (((z.2.1.i * z.2.1.i - z.2.1.q * z.2.1.q : Int)) : Rat) (cpow z.2.1) free
  ratioOr v.sum v.length free

/-- Mean of the C/N0 estimates held, dB-Hz. -/
def Chan.cn0 (c : Chan) : Rat := ratioOr (c.cn0s.map fun e => e.2).sum c.cn0s.length 0

/-- The Timebase's rate correction as a fraction. -/
def State.rateFrac (s : State) : Rat := (s.clk.rate.toInt : Rat) / 2 ^ 44

/-- D of R163 in Hz of the local clock, from a Doppler of the sample clock. -/
def State.localDoppler (s : State) (fc d : Rat) : Rat := (d - fc * s.rateFrac) / (1 + s.rateFrac)

/-- The local clock exactly, ns. -/
def State.nowR (s : State) : Rat := (s.clk.t48 : Rat) / 2 ^ 48

/-- Pseudorange in m at a local instant and a transmit time; none while it is not known in full (R145, R163, R165). -/
def State.range (s : State) (c : Chan) (t : Rat) (sent : Option Rat) : Option Rat :=
  match sent with
  | none => none
  | some x =>
    let sys := c.sig / 16
    if sys = 1 && s.gns.leap.isNone then none
    else some (lightSpeed * (t - sysDelta sys (s.gns.leap.getD 0) - x) / 1000000000)

/-- Wavelength, m. -/
def Chan.lambda (c : Chan) : Rat := lightSpeed / (sigOf c.sig).freq c.slot

/-- A page enters the store: the latest of its kind for its satellite and signal (R150). -/
def pageKey (p : NavPage) : Nat := (p.sig * 256 + p.svid) * 4 + p.kind

def navPut (p : NavPage) (l : List NavPage) : List NavPage :=
  insertBy pageKey p (l.filter fun q => pageKey q ≠ pageKey p)

/-- The leap count is learnt from a GPS message (R149). -/
def State.learnLeap (s : State) (l : Nat) : State :=
  if s.gns.leap = some l then s
  else ({ s with gns := { s.gns with leap := some l } }).raise Ev.gnsLeapKnown 0 []

/-- Transmit time of the replica after `dt` s of the sample clock. -/
def Chan.sentAfter (c : Chan) (dt : Rat) : Option Rat :=
  c.sent.map fun x => x + c.codeRate / (sigOf c.sig).rate * dt * 1000000000

/-- The loops take in one coherent interval of T seconds, `dt` seconds after the last (R160): frequency, its integrators and the
code rate. `f` is the FLL's turn, `e` the phase discriminator, `k` the code discriminator. -/
def Chan.steer (c : Chan) (t dt f e k : Rat) : Chan :=
  let g := sigOf c.sig
  let fl : Rat := if bit c.cfg.loop 0 && c.state = .pullIn then (c.cfg.fllBw : Rat) / 2 / (1 / 4) * f else 0
  let b : Rat := (c.cfg.pllBw : Rat) / 4
  let (freq, accel, d) :=
    if bit c.cfg.loop 1 then
      let w := b / (7845 / 10000)
      let a := c.accel + w * w * w * e * t
      let q := c.freq + fl + (c.accel + 11 / 10 * w * w * e) * t
      (q, a, q + 24 / 10 * w * e)
    else
      let w := b / (53 / 100)
      let q := c.freq + fl + w * w * e * t
      (q, 0, q + sqrtR 2 * w * e)
  { c with
    freq := freq, accel := accel, doppler := d
    code := c.code + c.codeRate * dt
    codeRate := g.rate * (1 + d / g.freq c.slot) + 4 * ((c.cfg.dllBw : Rat) / 100) * k }

/-- Indicators after an interval: lock, C/N0 over the last second, and since when each has stood low or high. -/
def Chan.watch (c : Chan) (now : Nat) (lock : Rat) (cn0 : Rat) : Chan :=
  let c := { c with
    lock := lock
    cn0s := (now, cn0) :: c.cn0s.filter fun e => now < e.1 + tickS
    lockAt := if 4 / 5 ≤ lock then some (c.lockAt.getD now) else none
    lowAt := if lock < 1 / 2 then some (c.lowAt.getD now) else none }
  { c with weakAt := if c.cn0 < c.cfg.cn0Drop then some (c.weakAt.getD now) else none }

/-- The end of a coherent interval (R158 to R164). -/
def State.loopUpdate (s : State) (k : Nat) (x : LoopIn) : State :=
  let c := s.chan k
  let now := s.clk.counter
  let free := fun n => freeRat 13 (s.free + n)
  let t : Rat := (c.cohMs : Rat) / 1000
  let dt : Rat := ((now - c.upd : Nat) : Rat) / 250000000
  let (e, p, l) := x.comps.headD (⟨0, 0⟩, ⟨0, 0⟩, ⟨0, 0⟩)
  let disc := phaseDisc c.pllDisc p (free 0)
  let turn := match c.prev with | some a => promptTurn a p (free 1) | none => 0
  let code := codeDisc c.dllDisc e p l ((c.cfg.spacing : Rat) / 128) (free 2)
  let lock := lockOf x.comps (free 3)
  let pow := (x.comps.map fun z => (cpow z.2.1)).sum
  let cn0 := ((dB (ratioOr pow ((x.noise : Rat) * t) 0))).getD (free 4)
  let fc := (sigOf c.sig).freq c.slot
  -- the carrier and the code ran at their rates up to here
  let c1 := { c with
    phase := c.phase - (c.doppler - fc * s.rateFrac) * dt
    sent := match x.sent with | some v => some v | none => c.sentAfter dt }
  let slip := c.state = .tracking && (lock < 1 / 2 || (c.prev.isSome && 1 / 4 < absR (disc - c.disc - turn)))
  let c2 := (c1.steer t dt turn disc code).watch now lock cn0
  let c2 := { c2 with
    upd := now, disc := disc, prev := some (p.i, p.q), bitSync := x.bitSync, secSync := x.secSync
    lli := if slip then c.lli + 1 else c.lli }
  -- continuous lock starts, goes on, slips or ends
  let c3 :=
    if lock < 4 / 5 then { c2 with t0 := none, lockStart := none }
    else if c2.lockStart.isNone then
      let n0 : Int := match s.range c2 s.nowR c2.sent with | some r => roundRat (r / c2.lambda) | none => 0
      { c2 with phase := n0, t0 := some now, lockStart := some now, halfAmb := !c2.pilot, halfCorr := false }
    else { c2 with lockStart := if slip then some now else c2.lockStart }
  let c4 := match x.polarity with
    | some half =>
      if c3.halfAmb then { c3 with phase := if half then c3.phase + 1 / 2 else c3.phase, halfAmb := false, halfCorr := true } else c3
    | none => c3
  let s := { (s.modChan k fun _ => c4) with free := s.free + 5 }
  let s := if slip then s.raise Ev.gnsSlip 0 [] else s
  let s := match x.page with
    | some (kind, n, rx, b) =>
      { s with gns := { s.gns with nav := navPut ⟨c.sig, c.svid, BitVec.ofInt 8 c.slot, kind, n, rx, b⟩ s.gns.nav } }
    | none => s
  match x.leap with
  | some v => if c.sig / 16 = 0 then s.learnLeap v else s
  | none => s

/-! ### Epochs (R162, R163, R165, R167) -/

/-- Measurement period, ns. -/
def State.measPeriod (s : State) : Nat :=
  1000000 * [10, 20, 25, 40, 50, 100, 125, 200, 250, 500, 1000].getD (s.act F.GNS_MEAS_CTRL_PERIOD) 100

/-- The latest whole multiple of the period. -/
def State.epochAt (s : State) : Nat := s.now / s.measPeriod * s.measPeriod

/-- That epoch fell after the one last latched and after the last step. -/
def State.epochDue (s : State) : Bool :=
  s.gnsRuns && s.antOn false &&
    s.nowR - s.epochAt < 4 * (1 + s.rateFrac) * ((s.clk.counter - tget s.timers 0 T.measEpoch : Nat) : Rat)

/-- The observables of a channel, carried to t_r at its rates. -/
def State.entryAt (s : State) (k : Nat) (tr : Nat) (draw : Nat) : Entry :=
  let c := s.chan k
  let fc := (sigOf c.sig).freq c.slot
  -- seconds of the sample clock from the last loop update to t_r
  let dt : Rat := ((s.clk.counter - c.upd : Nat) : Rat) / 250000000 - (s.nowR - tr) / 1000000000 / (1 + s.rateFrac)
  let r := s.range c tr (c.sentAfter dt)
  let phase := c.phase - (c.doppler - fc * s.rateFrac) * dt
  let locked : Bool := 4 / 5 ≤ c.lock
  let cl := fun (w : Nat) (v : Int) => clampInt (-(2 ^ (w - 1))) (2 ^ (w - 1) - 1) v
  { sig := c.sig, svid := c.svid, slot := c.slot, rangeValid := r.isSome, phaseValid := locked, halfAmb := c.halfAmb,
    halfCorr := c.halfCorr, pilot := c.pilot, excluded := false, chan := k, lli := c.lli % 256
    psr := match r with | some v => (roundRat (v * 1024)).toNat % 2 ^ 64 | none => 0
    phase := if locked then cl 64 (roundRat (phase * 2 ^ 24)) else 0
    doppler := cl 32 (roundRat (s.localDoppler fc c.doppler * 4096))
    cn0 := min 0xFFFF (roundRat (c.cn0 * 100)).toNat
    codeSd := if r.isSome then (Config.freeBits 8 draw 16).toNat else 0
    lockMs := match c.lockStart with | some t => min 0xFFFFFFFF ((s.clk.counter - t) / tickMs) | none => 0
    lock := c.t0 }

/-- Channels that report: those in `PULL_IN` and `TRACKING`, in ascending order. -/
def State.reporting (s : State) (antB : Bool) : List Nat :=
  (s.gns.chans.filter fun e => (e.2.state = .pullIn || e.2.state = .tracking) && s.chanB e.1 = antB).map fun e => e.1

/-- Every channel latches for the epoch at t_r. -/
def State.latchEpoch (s : State) : State :=
  let tr := s.epochAt
  let a := (s.reporting false).map fun k => s.entryAt k tr (s.free + k)
  let b := if s.antOn true then (s.reporting true).map fun k => s.entryAt k tr (s.free + k) else []
  let s := { s with
    gns := { s.gns with latched := some ⟨tr, s.timeQuality, a, b, false⟩ }
    free := s.free + 320 }
  s.mark T.measEpoch

/-- A Timebase step by `e` ns: the epoch of the old time is latched first and gives no sample; phases shift with the ranges, and
the next epoch is the first on the new time (R167, R169). -/
def State.gnsStep (s : State) (e : Int) : State :=
  let shift := fun (c : Chan) => { c with phase := c.phase + (sigOf c.sig).freq c.slot * e / 1000000000 }
  let s := s.mark T.measEpoch
  { s with
    gns := { s.gns with
      stepFlag := true
      latched := s.gns.latched.map fun l => { l with old := true }
      chans := s.gns.chans.map fun (v : Nat × Chan) => (v.1, shift v.2) }
    mir := { s.mir with cc := s.mir.cc.map fun (v : Nat × List (Nat × Rat)) =>
      (v.1, v.2.map fun (w : Nat × Rat) => (((w.1 : Int) + e).toNat, w.2)) } }

end Sys2Proof.Machine
end

