-- ==== Sys2Proof/Machine/Geodesy.lean ====
section
/-! DEFINITION. Positions and linear systems: the GRS80 frame of a point (R107), satellites as seen from a point, weighted least
squares, and the chi-square bound of R180. -/

namespace Sys2Proof.Machine

/-! ### Vectors and frames -/

/-- A vector of the Earth-fixed frame, m. -/
abbrev Vec := Rat × Rat × Rat

def Vec.add (a b : Vec) : Vec := (a.1 + b.1, a.2.1 + b.2.1, a.2.2 + b.2.2)
def Vec.sub (a b : Vec) : Vec := (a.1 - b.1, a.2.1 - b.2.1, a.2.2 - b.2.2)
def Vec.dot (a b : Vec) : Rat := a.1 * b.1 + a.2.1 * b.2.1 + a.2.2 * b.2.2
def Vec.scale (k : Rat) (a : Vec) : Vec := (k * a.1, k * a.2.1, k * a.2.2)
def Vec.norm (a : Vec) : Rat := sqrtR (a.dot a)
def Vec.list (a : Vec) : List Rat := [a.1, a.2.1, a.2.2]
def Vec.ofList (l : List Rat) : Vec := (l.getD 0 0, l.getD 1 0, l.getD 2 0)

/-- Millimetres as metres, and back to the nearest. -/
def Vec.ofMm (p : Int × Int × Int) : Vec := ((p.1 : Rat) / 1000, (p.2.1 : Rat) / 1000, (p.2.2 : Rat) / 1000)
def Vec.mm (a : Vec) : Int × Int × Int := (roundRat (1000 * a.1), roundRat (1000 * a.2.1), roundRat (1000 * a.2.2))

/-- A fraction rounded to a multiple of 2⁻⁶⁴. -/
def fpOf (q : Rat) : Rat := fpRound (q * fpScale).floor

/-- (y, x) scaled to length 1: sine and cosine of its angle; (0, 1) at the origin. -/
def direction (y x : Rat) : Rat × Rat :=
  let r := sqrtR (x * x + y * y)
  if r = 0 then (0, 1) else (fpOf (y / r), fpOf (x / r))

/-- The GRS80 ellipsoid: semi-major axis in m, and the square of its eccentricity. -/
def grsA : Rat := 6378137
def grsE2 : Rat := (2 - 1 / (298257222101 / 1000000000)) / (298257222101 / 1000000000)

/-- Sine and cosine of the geodetic latitude, from those of a first guess: z and the distance from the axis fix it. -/
def latitude (z r : Rat) : Nat → Rat × Rat → Rat × Rat
  | 0, v => v
  | n + 1, v => latitude z r n (direction (z + grsE2 * (grsA / sqrtR (1 - grsE2 * v.1 * v.1)) * v.1) r)

/-- East, north and up at a point, by its geodetic latitude and longitude (R107). -/
structure Frame where
  east : Vec
  north : Vec
  up : Vec

def frameAt (p : Vec) : Frame :=
  let r := sqrtR (p.1 * p.1 + p.2.1 * p.2.1)
  let (sl, cl) := direction p.2.1 p.1
  let (sp, cp) := latitude p.2.2 r 10 (direction p.2.2 (r * (1 - grsE2)))
  ⟨(-sl, cl, 0), (-(sp * cl), -(sp * sl), cp), (cp * cl, cp * sl, sp)⟩

/-- A vector in east, north and up of a frame. -/
def Frame.turn (f : Frame) (v : Vec) : Vec := (f.east.dot v, f.north.dot v, f.up.dot v)

/-! ### Satellites -/

/-- What the navigation data of a satellite give, with the ephemeris in the store (R168). -/
def viewOf (sky : List SatView) (sys svid : Nat) : Option SatView :=
  sky.find? fun v => v.sys = sys && v.svid = svid && v.eph

/-- From a point to a satellite. -/
def toSat (v : SatView) (p : Vec) : Vec := Vec.sub v.pos p

/-- The line to a satellite from a point, of length 1. -/
def lineTo (v : SatView) (p : Vec) : Vec := (toSat v p).scale (ratioOr 1 (toSat v p).norm 0)

/-- The pseudorange predicted at a point, m: the distance less the lead of the satellite's clock. -/
def rangeTo (v : SatView) (p : Vec) : Rat := (toSat v p).norm - v.clock

/-- Its rate, m/s. -/
def rateTo (v : SatView) (p : Vec) : Rat := (lineTo v p).dot v.vel - v.drift

/-- Sine of the elevation of a satellite at a point. -/
def sinElevAt (v : SatView) (p : Vec) : Rat := (frameAt p).up.dot (lineTo v p)

/-- An elevation, by its sine, above a mask in degrees. -/
def aboveMask (mask : Nat) (sinElev : Rat) : Bool := sinTurn ((mask : Rat) / 360) < sinElev

/-! ### Linear systems -/

/-- Gaussian elimination of n equations in n unknowns, each row with its right side last; none where they are singular. -/
def solveRows : Nat → List (List Rat) → Option (List Rat)
  | 0, _ => some []
  | n + 1, rows =>
    match rows.find? fun r => r.headD 0 ≠ 0 with
    | none => none
    | some p =>
      let q := p.map fun x => x / p.headD 1
      let rest := (rows.erase p).map fun r => (List.zipWith (fun a b => a - r.headD 0 * b) r q).drop 1
      match solveRows n rest with
      | none => none
      | some xs => some ((q.getLastD 0 - (List.zipWith (fun a b => a * b) (q.drop 1) xs).sum) :: xs)

/-- A row of a least-squares problem: coefficients, the value observed, and the weight. -/
structure Row where
  coef : List Rat
  value : Rat
  weight : Rat

/-- Products of weighted columns of the rows. -/
def normalAt (rows : List Row) (i j : Nat) : Rat := (rows.map fun r => r.weight * r.coef.getD i 0 * r.coef.getD j 0).sum

/-- The normal matrix of `n` unknowns with right sides `b`. -/
def normalRows (n : Nat) (rows : List Row) (b : Nat → Rat) : List (List Rat) :=
  (List.range n).map fun i => ((List.range n).map fun j => normalAt rows i j) ++ [b i]

/-- Least squares. -/
def leastSquares (n : Nat) (rows : List Row) : Option (List Rat) :=
  solveRows n (normalRows n rows fun i => (rows.map fun r => r.weight * r.coef.getD i 0 * r.value).sum)

/-- Column `k` of the covariance of the solution. -/
def covarColumn (n : Nat) (rows : List Row) (k : Nat) : Option (List Rat) :=
  solveRows n (normalRows n rows fun i => if i = k then 1 else 0)

/-- What a row leaves over. -/
def Row.residual (r : Row) (x : List Rat) : Rat := r.value - (List.zipWith (fun a b => a * b) r.coef x).sum

/-! ### The chi-square bound -/

/-- 1 + 2x/(d+2) + (2x)²/((d+2)(d+4)) + …, from the current term, fixed point. -/
def chiSeries (x2 : Int) : Nat → Int → Int → Int
  | 0, _, t => t
  | n + 1, d, t => if t = 0 then 0 else t + chiSeries x2 n (d + 2) (t * x2 / (fpScale * (d + 2)))

/-- x^(d/2) / Γ(d/2 + 1). -/
def chiFactor (x : Rat) : Nat → Rat
  | 0 => 1
  | 1 => 2 * sqrtR (2 * x / twoPi)
  | d + 2 => chiFactor x d * (2 * x / (d + 2))

/-- `t` is at most the chi-square quantile for `dof` at probability 1 − p: the distribution there is at most 1 − p (R180, log
entry 5). Its terms run until they vanish; a `t` above 4,000 lies beyond every quantile that the receiver needs. -/
def chiPass (dof : Nat) (p t : Rat) : Bool :=
  let x2 := (t * fpScale).floor
  t ≤ 4000 && chiFactor (t / 2) dof * (chiSeries x2 12000 dof fpScale : Rat) ≤ (1 - p) * (chiSeries x2 12000 0 fpScale : Rat)

end Sys2Proof.Machine
end

