-- ==== Sys2Proof/Machine/MirOps.lean ====
section
/-! DEFINITION. The Mirage Monitor's conditions, checks and ladder (R174 to R191). -/

namespace Sys2Proof.Machine

-- Checks of R175.
namespace Ck
def cn0Unif : Nat := 0
def agcCn0 : Nat := 1
def codeCarrier : Nat := 2
def secPeak : Nat := 3
def twoAnt : Nat := 4
def clkJump : Nat := 5
def isysOffset : Nat := 6
def baseMove : Nat := 7
def raimFde : Nat := 8
def roverCentral : Nat := 9
end Ck

/-- The Monitor works (R191). -/
def State.mirRuns (s : State) : Bool :=
  s.unitOn U.mir && !s.mir.fault && (s.pwr.state = .waitHost || s.pwr.state = .run) && !s.pwr.inReset

/-- A check runs. -/
def State.checkOn (s : State) (c : Nat) : Bool := s.mirRuns && bit (s.act F.MIR_CHECK_EN_EN) c

/-- A check only raises events (R176). -/
def State.evOnly (s : State) (c : Nat) : Bool := bit (s.reg F.MIR_CHECK_EVONLY_EVONLY) c

/-! ### Conditions (R176, R188) -/

/-- A latched condition that contributes. -/
def State.counts (s : State) (c : Cond) : Bool := c.latched && !s.evOnly c.check

def Cond.is (c : Cond) (check key : Nat) : Bool := c.check = check && c.key = key

/-- A signal, by its key, is excluded now: at level 1 itself, or by its system at level 2 (R183, R184). -/
def State.sigExcluded (s : State) (key : Nat) : Bool :=
  (s.unitOn U.mir && 1 ≤ s.act F.MIR_CTRL_MAX_LEVEL && s.mir.conds.any fun c => s.counts c && c.signals.contains key) ||
    bit s.sysFlag (key / 4096)

/-- The latest ANT_A entries with whether each is excluded now. -/
def State.lastExcluded (s : State) : List (Entry × Bool) := s.mir.last.map fun e => (e, s.sigExcluded (sigKey e.sig e.svid))

/-- Distinct satellites, as system × 256 + SVID. -/
def satellites (l : List Entry) : List Nat := (l.map fun e => e.sig / 16 * 256 + e.svid).eraseDups

/-- What R184 justifies without climbing. -/
def State.justified (s : State) : Nat :=
  let live := s.mir.conds.filter s.counts
  let dev := (live.map fun c => c.level).foldl max 0
  let rovers := if s.act F.MIR_ROVER_MULTI ≤ (live.filter fun c => c.check = Ck.roverCentral).length then 4 else 0
  let l := s.lastExcluded
  let out := satellites ((l.filter fun e => e.2).map fun e => e.1)
  let promote := if (List.range 7).any fun k => s.reg F.MIR_ESC_SYS_PROMOTE ≤ (out.filter fun v => v / 256 = k).length then 2 else 0
  let good := satellites ((l.filter fun e => !e.2 && e.1.rangeValid && !bit s.sysFlag (e.1.sig / 16)).map fun e => e.1)
  let few := if good.length < s.reg F.MIR_ESC_MIN_SV_CORR then 3 else 0
  min (s.act F.MIR_CTRL_MAX_LEVEL) (max (max dev rovers) (max promote few))

/-- The level rises to `n`; on entry to level 5 the PAUSE request is made (R185, R186). -/
def State.riseTo (s : State) (n : Nat) : State :=
  let was := s.mir.level
  let s := { s with mir := { s.mir with
    level := n, changedAt := s.clk.counter, highAt := if was < 3 ∧ 3 ≤ n then s.clk.counter else s.mir.highAt } }
  let s := s.raise (Ev.mirLevelUp n) 0 []
  if n = 5 && was < 5 && s.stopSource F.STP_SRC_MIRAGE then s.stopRequest Src.mirage false none true else s

/-- The ladder: climbed levels lapse as their base falls, and a rise, as far as `cap`, takes effect at once (R184, R185). -/
def State.mirSettleTo (s : State) (cap : Nat) : State :=
  if !s.mirRuns then s
  else
    let b := s.justified
    let climb := if b < 3 ∨ b < s.mir.base then 0 else s.mir.climb
    let s := { s with mir := { s.mir with base := b, climb := climb } }
    let n := min cap (min (s.act F.MIR_CTRL_MAX_LEVEL) (max b climb))
    if s.mir.level < n then s.riseTo n else s

/-- The ladder after an evaluation. -/
def State.mirSettle (s : State) : State := s.mirSettleTo 5

/-- One evaluation of a condition: its run and its latch (R176). While it is latched, each signal and system that it newly excludes
or flags raises its event; `ev` is raised at the latch, and where the outcome changes between one with a level and one without
(R188, R192). -/
def State.evalCond (s : State) (check key : Nat) (holds : Bool) (systems signals : List Nat) (level : Nat)
    (ev : State → State) : State :=
  let old := s.mir.conds.find? fun c => c.is check key
  let rest := s.mir.conds.filter fun c => !c.is check key
  if holds then
    let run := (old.map fun c => c.run).getD 0 + 1
    let was := (old.map fun c => c.latched).getD false
    let latched : Bool := was || s.act F.MIR_CTRL_PERSIST ≤ run
    let s := { s with mir := { s.mir with
      conds := rest ++ [⟨check, key, run, latched, s.clk.counter, systems, signals, level, check = Ck.twoAnt⟩] } }
    if latched then
      let had := old.filter fun c => c.latched
      let new := fun (l : List Nat) (k : Nat) => !l.contains k
      let s := (signals.filter (new ((had.map fun c => c.signals).getD []))).foldl (fun s _ =>
        s.raise Ev.mirSigExcl 0 []) s
      let s := (systems.filter (new ((had.map fun c => c.systems).getD []))).foldl (fun s _ => s.raise Ev.mirSysFlag 0 []) s
      if (had.map fun c => c.systems.isEmpty) ≠ some systems.isEmpty then ev s else s
    else s
  else
    match old with
    | some c => { s with mir := { s.mir with conds := if c.latched then rest ++ [{ c with run := 0 }] else rest } }
    | none => s

/-- Conditions of a check that a commit has switched off are gone (R188). -/
def State.dropDisabled (s : State) : State :=
  { s with mir := { s.mir with conds := s.mir.conds.filter fun c => bit (s.act F.MIR_CHECK_EN_EN) c.check } }

/-! ### Statistics -/

def meanR (l : List Rat) : Rat := ratioOr l.sum l.length 0

/-- The standard deviation of a list, over all its members. -/
def sdR (l : List Rat) : Rat :=
  let m := meanR l
  sqrtR (ratioOr (l.map fun x => (x - m) * (x - m)).sum l.length 0)

/-! ### The checks of a record (R175 to R179) -/

/-- Entries received through a band of one antenna's record. -/
def onBand (l : List Entry) (band : Nat) : List Entry := l.filter fun e => (sigOf e.sig).band = band

/-- Systems with a signal in a list of entries. -/
def systemsOf (l : List Entry) : List Nat := (l.map fun e => e.sig / 16).eraseDups

def Entry.cn0R (e : Entry) : Rat := (e.cn0 : Rat) / 100
def Entry.phaseR (e : Entry) : Rat := (e.phase : Rat) / 2 ^ 24
def Entry.lambda (e : Entry) : Rat := lightSpeed / (sigOf e.sig).freq e.slot
def Entry.key (e : Entry) : Nat := sigKey e.sig e.svid

/-- Sine of the elevation of an entry's satellite at a point, when the ephemeris gives it. -/
def elevOf (sky : List SatView) (p : Vec) (e : Entry) : Option Rat := (viewOf sky (e.sig / 16) e.svid).map fun v => sinElevAt v p

/-- An entry's satellite stands above a mask in degrees. -/
def entryAbove (sky : List SatView) (p : Vec) (mask : Nat) (e : Entry) : Bool := (elevOf sky p e).any (aboveMask mask)

/-- Coordinates of the base now: the committed ones, or the survey mean (R170). -/
def State.basePos (s : State) : Int × Int × Int :=
  if s.gns.base = .surveyed then s.gns.mean
  else (signed 64 (s.act64 F.GNS_BASE_X_LO_X F.GNS_BASE_X_HI_X), signed 64 (s.act64 F.GNS_BASE_Y_LO_Y F.GNS_BASE_Y_HI_Y),
    signed 64 (s.act64 F.GNS_BASE_Z_LO_Z F.GNS_BASE_Z_HI_Z))

def State.baseKnown (s : State) : Bool := s.gns.base = .surveyed || s.gns.base = .fixed

/-- Where ANT_A stands as the receiver has it, m. -/
def State.viewPoint (s : State) (x : MeasIn) : Vec := Vec.ofMm (if s.baseKnown then s.basePos else x.near)

/-- `CN0_UNIF` on a front end of ANT_A. -/
def State.checkUniform (s : State) (a : List Entry) (x : MeasIn) (fe : Nat) : State :=
  if !s.checkOn Ck.cn0Unif then s
  else
    let l := onBand a fe
    let up := l.filter (entryAbove x.sky (s.viewPoint x) (s.reg F.MIR_CN0_ELEV_MASK))
    let holds := s.reg F.MIR_CN0_MIN_SIG ≤ up.length && sdR (up.map Entry.cn0R) < (s.reg F.MIR_CN0_SD_MIN : Rat) / 10
    s.evalCond Ck.cn0Unif fe holds (systemsOf l) [] 0 fun s => s.raise Ev.mirSpoof 0 []

/-- Means of a front end over the last LEARN minutes: gain in steps and C/N0 (R177). -/
def State.agcRef (s : State) (fe : Nat) : Rat × Rat :=
  let l := (tget s.mir.refs ⟨[], false⟩ fe).seconds.take (60 * s.reg F.MIR_AGC_LEARN)
  (meanR (l.map fun x => x.1), meanR (l.map fun x => x.2))

/-- `AGC_CN0` on a front end of ANT_A: jamming lowers C/N0 with the gain, a spoofer does not. -/
def State.checkAgc (s : State) (a : List Entry) (fe : Nat) : State :=
  if !s.checkOn Ck.agcCn0 || !(tget s.mir.refs ⟨[], false⟩ fe).valid then s
  else
    let (g, c) := s.agcRef fe
    let l := onBand a fe
    let holds : Bool := ((tget s.gns.gains 0 fe : Nat) : Rat) + s.reg F.MIR_AGC_AGC_DROP ≤ g
    let jam : Bool := meanR (l.map Entry.cn0R) + (s.reg F.MIR_AGC_CN0_DROP : Rat) / 4 ≤ c
    s.evalCond Ck.agcCn0 fe holds (if jam then [] else systemsOf l) [] 0 fun s =>
      if jam then s.raise Ev.mirJamming 0 [] else s.raise Ev.mirSpoof 0 []

/-- A second counts towards the reference of a front end (R177): one in which it has a signal, while `AGC_CN0` is not latched on that
same front end (DESIGN CHOICE, log entry 82). -/
def State.learnAgc (s : State) (l : List Entry) (fe : Nat) : State :=
  let clear := !(s.mir.conds.any fun c => c.check = Ck.agcCn0 && c.key = fe && c.latched)
  if !s.mirRuns || s.mir.level ≠ 0 || !clear || l.isEmpty then s
  else
    let r := tget s.mir.refs ⟨[], false⟩ fe
    let seconds := (tget s.gns.gains 0 fe, meanR (l.map Entry.cn0R)) :: r.seconds.take 15299
    let valid : Bool := r.valid || 60 * s.reg F.MIR_AGC_LEARN ≤ seconds.length
    { s with mir := { s.mir with refs := tset s.mir.refs ⟨[], false⟩ fe ⟨seconds, valid⟩ } }

/-- `CODE_CARRIER` on one entry: ρ − λΦ against its value CC_WINDOW ago. -/
def State.checkCarrier (s : State) (tr : Nat) (e : Entry) : State :=
  let v := (e.psr : Rat) / 1024 - e.lambda * e.phaseR
  let hist := if e.rangeValid && e.phaseValid then (tget s.mir.cc [] e.chan).takeWhile fun x => tr < x.1 + 61000000000 else []
  let w := s.reg F.MIR_CC_CC_WINDOW
  let ready := e.rangeValid && e.phaseValid && w * 1000 ≤ e.lockMs
  let s := { s with mir := { s.mir with
    cc := tset s.mir.cc [] e.chan (if e.rangeValid && e.phaseValid then (tr, v) :: hist else []) } }
  if !s.checkOn Ck.codeCarrier || !ready then s
  else match hist.find? fun x => x.1 + w * 1000000000 ≤ tr with
    | none => s
    | some (_, u) => s.evalCond Ck.codeCarrier (e.chan * 65536 + e.key) ((s.reg F.MIR_CC_CC_LIMIT : Rat) < absR (v - u) * 1000)
        [] [e.key] 0 fun s => s

/-- Wrapped into [−1/2, 1/2). -/
def wrapHalf (x : Rat) : Rat := x - (x + 1 / 2).floor

/-- Single differences of R178, with their satellites. -/
def twoAntSet (a b : List Entry) : List (Nat × Rat) :=
  let use := fun (e : Entry) => (sigOf e.sig).carrier = 1575420000 && e.phaseValid && !e.halfAmb
  (a.filter use).filterMap fun e =>
    ((b.filter use).find? fun f => f.key = e.key).map fun f => (e.sig / 16 * 256 + e.svid, e.phaseR - f.phaseR)

/-- `TWO_ANT` on the records of both antennas. -/
def State.checkTwoAnt (s : State) (a b : List Entry) : State :=
  if !s.checkOn Ck.twoAnt then s
  else
    let l := twoAntSet a b
    if (l.map fun x => x.1).eraseDups.length < s.reg F.MIR_TWO_ANT_MIN_SAT then s
    else
      let m := (atan2Turn (l.map fun x => sinTurn x.2).sum (l.map fun x => cosTurn x.2).sum).getD (freeRat 13 s.free)
      let w := l.map fun x => wrapHalf (x.2 - m)
      let disp := sqrtR (ratioOr (w.map fun x => x * x).sum l.length 0)
      let s := { s with mir := { s.mir with disp := min 255 (roundRat (disp * 1000)).toNat }, free := s.free + 1 }
      s.evalCond Ck.twoAnt 0 (disp * 1000 ≤ s.reg F.MIR_TWO_ANT_DISP) [] [] 3 fun s => s.raise Ev.mirSpoof 0 []

/-- `CLK_JUMP`: e of this second against that of the last; whether the condition holds. -/
def State.clkJumped (s : State) (e : Option Rat) : Bool :=
  s.checkOn Ck.clkJump && s.tb.source = 1 && s.tb.quality = .locked &&
    (match e, s.mir.lastE with
      | some x, some y => (s.reg F.MIR_CLK_JUMP : Rat) < absR (x - y)
      | _, _ => false)

def State.checkClock (s : State) (e : Option Rat) : State :=
  let hold := s.clkJumped e
  let ran := s.checkOn Ck.clkJump && s.tb.source = 1 && s.tb.quality = .locked && e.isSome && s.mir.lastE.isSome
  let s := if ran then s.evalCond Ck.clkJump 0 hold [s.gns.refSys] [] 0 fun s => s.raise Ev.mirClkJump 0 [] else s
  { s with mir := { s.mir with lastE := e } }

/-- `ISYS_OFFSET`: the estimated offsets against those broadcast, units of 0.01 ns. The failing systems agree with each other where
every two of them do; else each is flagged itself (R175; DESIGN CHOICE, log entry 82). -/
def State.checkIsys (s : State) (bcast : List (Nat × Int)) : State :=
  if !s.checkOn Ck.isysOffset then s
  else
    let lim : Int := 100 * s.reg F.MIR_ISO_LIMIT
    let diffs : List (Nat × Int) := bcast.filterMap fun x => (tfind s.gns.sysOfs x.1).map fun o => (x.1, o - x.2)
    let bad := diffs.filter fun x => decide (lim < x.2.natAbs)
    let agree := 2 ≤ bad.length && bad.all fun x => bad.all fun y => decide ((x.2 - y.2).natAbs ≤ lim.natAbs)
    diffs.foldl (fun s x => s.evalCond Ck.isysOffset x.1 (lim < x.2.natAbs) [if agree then s.gns.refSys else x.1] [] 0 fun s => s) s

/-- Squared length, mm². -/
def sq3 (v : Int × Int × Int) : Int := v.1 * v.1 + v.2.1 * v.2.1 + v.2.2 * v.2.2
def sub3 (a b : Int × Int × Int) : Int × Int × Int := (a.1 - b.1, a.2.1 - b.2.1, a.2.2 - b.2.2)
def add3 (a b : Int × Int × Int) : Int × Int × Int := (a.1 + b.1, a.2.1 + b.2.1, a.2.2 + b.2.2)

/-- dx of one second by time-differenced phase, m, in east, north and up of the base (R179). The range change predicted takes in
that of the satellite's clock (log entry 71). -/
def State.movedBy (s : State) (a : List Entry) (sky : List SatView) : Vec :=
  let p := Vec.ofMm s.basePos
  let f := frameAt p
  let rows := a.filterMap fun e =>
    match tfind s.mir.lastPhase e.chan, viewOf sky (e.sig / 16) e.svid, viewOf s.mir.lastSky (e.sig / 16) e.svid with
    | some (k, lli, ph), some v, some w =>
      if e.phaseValid && k = e.key && lli = e.lli && 1000 ≤ e.lockMs then
        some (e.sig / 16 * 256 + e.svid, (⟨((f.turn (lineTo v p)).scale (-1)).list ++ [1],
          e.lambda * (e.phaseR - ph) - (rangeTo v p - rangeTo w p), 1⟩ : Row))
      else none
    | _, _, _ => none
  if (rows.map fun r => r.1).eraseDups.length < 5 then (0, 0, 0)
  else match leastSquares 4 (rows.map fun r => r.2) with
    | some x => Vec.ofList x
    | none => (freeRat 13 s.free, freeRat 13 (s.free + 1), freeRat 13 (s.free + 2))

/-- Of things dated by the counter, those of the last `n` seconds. -/
def State.recent {α : Type} (s : State) (n : Nat) (l : List (Nat × α)) : List (Nat × α) :=
  l.filter fun x => s.clk.counter < x.1 + n * tickS

/-- disp of R179, mm: east, north, up. -/
def State.baseDisp (s : State) : Vec :=
  ((s.recent (s.reg F.MIR_BASE_WINDOW) s.mir.moves).foldl (fun (t : Vec) x => t.add x.2) (0, 0, 0)).scale 1000

/-- The mean of the positions of the last 60 s, once they reach back over them, lies more than COARSE from the base (log entry
71). -/
def State.farOff (s : State) : Bool :=
  let l := s.recent 60 s.mir.spots
  let n := l.length
  if n = 0 || (s.recent 59 s.mir.spots).length = s.mir.spots.length then false
  else
    let d := sub3 (l.foldl (fun t x => add3 t x.2) (0, 0, 0))
      ((fun (b : Int × Int × Int) => ((n : Int) * b.1, (n : Int) * b.2.1, (n : Int) * b.2.2)) s.basePos)
    decide ((1000 * n * s.reg F.MIR_BASE_COARSE : Nat) ^ 2 < (sq3 d).natAbs)

/-- Phases, positions and satellites of this second are kept for the next. -/
def State.keepSecond (s : State) (a : List Entry) (x : MeasIn) (spot : Option (Int × Int × Int)) : State :=
  let phases := (a.filter fun e => e.phaseValid).foldl (fun (t : Tbl (Nat × Nat × Rat)) e => tput t e.chan (e.key, e.lli, e.phaseR)) []
  let spots := (spot.toList.map fun p => (s.clk.counter, p)) ++ s.recent 61 s.mir.spots
  { s with mir := { s.mir with lastPhase := phases, spots := spots, lastSky := x.sky } }

/-- `BASE_MOVE`, with the position of the second. -/
def State.checkBase (s : State) (a : List Entry) (x : MeasIn) (spot : Option (Int × Int × Int)) : State :=
  if !s.checkOn Ck.baseMove || !s.baseKnown then s.keepSecond a x spot
  else
    let d := s.movedBy a x.sky
    let s := s.keepSecond a x spot
    let s := { s with
      mir := { s.mir with moves := (s.clk.counter, d) :: s.recent 1024 s.mir.moves }
      free := s.free + 3 }
    let (e, n, u) := s.baseDisp
    let m : Rat := s.reg F.MIR_BASE_MOVE
    let holds : Bool := m * m < e * e + n * n || 2 * m < absR u || s.farOff
    s.evalCond Ck.baseMove 0 holds [] [] 3 fun s => s.raise Ev.mirBaseMove 0 []

/-! ### Solutions of a second (R168, R171, R180) -/

/-- Entries that the time solution and FDE may use: range, ephemeris, above ELEV_MASK and not EXCLUDED (R168, R174). -/
def State.timeEntries (s : State) (a : List Entry) (x : MeasIn) : List Entry :=
  a.filter fun e => e.rangeValid && !e.excluded && entryAbove x.sky (s.viewPoint x) (s.reg F.GNS_TIME_CTRL_ELEV_MASK) e

/-- One satellite's part in a solution: its pseudorange less what is predicted, m, the variance of that, and the line to it. -/
structure SatObs where
  sat : Nat
  y : Rat
  var : Rat
  line : Vec

def SatObs.sys (o : SatObs) : Nat := o.sat / 256

def Entry.rho (e : Entry) : Rat := (e.psr : Rat) / 1024
def Entry.freq (e : Entry) : Rat := (sigOf e.sig).freq e.slot

/-- Variance of a pseudorange, m²: CODE_SD, no less than its unit (log entry 71). -/
def Entry.codeVar (e : Entry) : Rat := ((max 1 e.codeSd : Nat) : Rat) / 1000 * (((max 1 e.codeSd : Nat) : Rat) / 1000)

/-- The entries of lowest and highest carrier, the first of equals. -/
def widest (e0 : Entry) (l : List Entry) : Entry × Entry :=
  l.foldl (fun b e => (if e.freq < b.1.freq then e else b.1, if b.2.freq < e.freq then e else b.2)) (e0, e0)

/-- Pseudorange and variance of a satellite: the ionosphere-free combination of its two signals furthest apart in frequency, or
one signal less the broadcast delay. -/
def clearRange (v : SatView) (e0 : Entry) (l : List Entry) : Rat × Rat :=
  let (a, b) := widest e0 l
  let fa := a.freq * a.freq
  let fb := b.freq * b.freq
  if fa = fb then (e0.rho - v.iono, e0.codeVar)
  else ((fb * b.rho - fa * a.rho) / (fb - fa), (fb * fb * b.codeVar + fa * fa * a.codeVar) / ((fb - fa) * (fb - fa)))

/-- The satellites of a list of entries as a solution takes them, seen from a point. -/
def satObs (sky : List SatView) (p : Vec) (l : List Entry) : List SatObs :=
  (satellites l).filterMap fun k =>
    let mine := l.filter fun e => e.sig / 16 * 256 + e.svid = k
    match mine.head?, viewOf sky (k / 256) (k % 256) with
    | some e, some v =>
      let (rho, var) := clearRange v e mine
      some ⟨k, rho - rangeTo v p, var, lineTo v p⟩
    | _, _ => none

def State.timeObs (s : State) (a : List Entry) (x : MeasIn) : List SatObs :=
  satObs x.sky (s.viewPoint x) (s.timeEntries a x)

/-- Systems in a list of observations, one offset each. -/
def obsSystems (l : List SatObs) : List Nat := (l.map SatObs.sys).eraseDups

/-- Unknowns: position where `full`, and the offset of each system. -/
def unknowns (full : Bool) (l : List SatObs) : Nat := (if full then 3 else 0) + (obsSystems l).length

/-- A row of the solution: y = −line · dx + c × (local − system), in m. -/
def obsRow (full : Bool) (systems : List Nat) (o : SatObs) : Row :=
  ⟨(if full then (o.line.scale (-1)).list else []) ++ systems.map fun k => if k = o.sys then 1 else 0, o.y, 1 / o.var⟩

def obsRows (full : Bool) (l : List SatObs) : List Row := l.map (obsRow full (obsSystems l))

/-- How the fault test ends. -/
inductive FdeEnd where
  | pass | untestable | notIsolated
deriving DecidableEq, Repr

/-- One test of R180: it ends, or a satellite is to be left out. -/
def fdeTest (full : Bool) (pfa : Rat) (l : List SatObs) : FdeEnd ⊕ Nat :=
  let n := unknowns full l
  let rows := obsRows full l
  match leastSquares n rows with
  | none => .inl .untestable
  | some x =>
    let r := l.zip (rows.map fun r => r.weight * r.residual x * r.residual x)
    if l.length ≤ n then .inl .untestable
    else if chiPass (l.length - n) pfa (r.map fun v => v.2).sum then .inl .pass
    else match r.foldl (fun (b : Option (SatObs × Rat)) v =>
        if b.any fun w => v.2 ≤ w.2 then b else some v) none with
      | some w => .inr w.1.sat
      | none => .inl .untestable

/-- The loop of R180 with `left` exclusions still allowed: what is left, the satellites excluded, and how it ends. -/
def fdeRun (full : Bool) (pfa : Rat) : Nat → List SatObs → List SatObs × List Nat × FdeEnd
  | 0, l => (l, [], match fdeTest full pfa l with | .inl e => e | .inr _ => .notIsolated)
  | left + 1, l =>
    match fdeTest full pfa l with
    | .inl e => (l, [], e)
    | .inr k =>
      let r := fdeRun full pfa left (l.filter fun o => o.sat ≠ k)
      (r.1, k :: r.2.1, r.2.2)

/-- PFA of MIR_FDE. -/
def State.fdePfa (s : State) : Rat := [1 / 1000, 1 / 100000, 1 / 10000000].getD (s.reg F.MIR_FDE_PFA) (1 / 100000)

def State.fde (s : State) (a : List Entry) (x : MeasIn) : List SatObs × List Nat × FdeEnd :=
  fdeRun (!s.baseKnown) s.fdePfa (s.reg F.MIR_FDE_MAX_EXCL) (s.timeObs a x)

/-- A time solution: the reference system, the offset of the local clock from each system in m, and σ of the reference's. -/
structure TimeFix where
  ref : Nat
  offsets : List (Nat × Rat)
  sigma : Rat

/-- The reference system: REF_SYS, or the first of GPS, Galileo and BeiDou with two satellites (R168). -/
def State.refOf (s : State) (l : List SatObs) : Option Nat :=
  let has := fun (k : Nat) => decide (2 ≤ (l.filter fun o => o.sys = k).length)
  let want := [0, 2, 3].getD (s.reg F.GNS_TIME_CTRL_REF_SYS) 0
  if has want then some want else [0, 2, 3].find? has

/-- The solution of a second over the satellites that FDE leaves, weighted by their variances (log entry 71); none where there are too
few or it has no solution. -/
def State.timeFix (s : State) (a : List Entry) (x : MeasIn) : Option TimeFix :=
  let full := !s.baseKnown
  let all := s.timeObs a x
  if all.length < s.reg F.GNS_TIME_CTRL_MIN_SV + (if full then 3 else 0) then none
  else
    let l := if s.checkOn Ck.raimFde && !s.evOnly Ck.raimFde then (s.fde a x).1 else all
    let sys := obsSystems l
    let n := unknowns full l
    let rows := obsRows full l
    match s.refOf l, leastSquares n rows with
    | some ref, some v =>
      let k := n - sys.length + sys.idxOf ref
      some ⟨ref, sys.zip (v.drop (n - sys.length)), sqrtR (((covarColumn n rows k).getD []).getD k 0)⟩
    | _, _ => none

/-- The single-point position of a second, ECEF mm: one step from where the receiver has itself (R171, log entry 71). -/
def State.singlePosition (s : State) (a : List Entry) (x : MeasIn) : Option (Int × Int × Int) :=
  let l := s.timeObs a x
  (leastSquares (unknowns true l) (obsRows true l)).map fun v => ((s.viewPoint x).add (Vec.ofList v)).mm

/-- All signals of R146 of one satellite. -/
def signalsOf (sat : Nat) : List Nat := (sigTable.filter fun g => g.sys = sat / 256).map fun g => sigKey g.code (sat % 256)

/-- Key of the condition 'fault not isolated'. -/
def fdeOpen : Nat := 0xFFFF

/-- `RAIM_FDE` on a time solution. -/
def State.checkFde (s : State) (a : List Entry) (x : MeasIn) : State :=
  if !s.checkOn Ck.raimFde then s
  else
    let (_, out, e) := s.fde a x
    let known := (s.mir.conds.filter fun c => c.check = Ck.raimFde && c.key ≠ fdeOpen).map fun c => c.key
    let s := (known.filter fun k => !out.contains k).foldl (fun s k => s.evalCond Ck.raimFde k false [] [] 0 fun s => s) s
    let s := out.foldl (fun s k => s.evalCond Ck.raimFde k true [] (signalsOf k) 0 fun s => s) s
    let s := s.evalCond Ck.raimFde fdeOpen (e = .notIsolated) [] [] 3 fun s => s
    if e = .notIsolated then s.raise Ev.mirFdeFault 0 [] else s

/-- A time sample is kept from the Timebase (R175, R176, R180). -/
def State.withheld (s : State) (jumped : Bool) (a : List Entry) (x : MeasIn) : Bool :=
  (s.checkOn Ck.raimFde && !s.evOnly Ck.raimFde && (s.fde a x).2.2 = .notIsolated) ||
  (jumped && !s.evOnly Ck.clkJump) ||
  (s.mirRuns && s.mir.conds.any fun c => s.counts c && c.withdraws)

/-! ### A record (R174) -/

/-- The checks of one epoch. `sol` is the solution's offset e in ns when one was made this second. -/
def State.mirRecord (s : State) (tr : Nat) (a b : List Entry) (both second : Bool) (solved : Bool) (e : Option Rat)
    (x : MeasIn) : State :=
  let s := { s with mir := { s.mir with last := a } }
  let s := (a ++ b).foldl (fun s v => s.checkCarrier tr v) s
  let s := if both then s.checkTwoAnt a b else s
  let s := if !second then s
    else
      let s := (List.range 3).foldl (fun s f => (s.checkUniform a x f).checkAgc a f) s
      let s := (s.checkClock e).checkIsys x.bcast
      let s := s.checkBase a x (s.singlePosition a x)
      if solved then s.checkFde a x else s
  let s := s.mirSettle
  if !second then s
  else (List.range 3).foldl (fun s f => (s.learnAgc (onBand a f) f).learnAgc (onBand b f) (f + 3)) s

/-! ### Central solutions (R181) -/

/-- `ROVER_CENTRAL` on a central solution: status, east and north, and its epoch. -/
def State.checkRover (s : State) (m tObs status : Nat) (east north : Int) : State :=
  if !s.checkOn Ck.roverCentral then s
  else match (tget s.sec.machs SecMach.reset m).own.find? fun o => o.tag = tObs with
    | none => s
    | some o =>
      if !(3 ≤ o.status && o.status ≤ 4 && 3 ≤ status) then s
      else
        let de := east - o.east
        let dn := north - o.north
        let lim := if o.status = 4 && status = 4 then s.act F.MIR_ROVER_FIXED_LIM else s.act F.MIR_ROVER_FLOAT_LIM
        let n := if lim * lim < (de * de + dn * dn).natAbs then tget s.mir.rover 0 m + 1 else 0
        let s := { s with mir := { s.mir with rover := tset s.mir.rover 0 m n } }
        (s.evalCond Ck.roverCentral m (s.act F.MIR_ROVER_COUNT ≤ n) [] [] 0 fun s =>
          s.raise Ev.mirRoverDisagree m (leBytes 1 m)).mirSettle

/-- A machine is `DISAGREE`. -/
def State.disagrees (s : State) (m : Nat) : Bool :=
  s.mir.conds.any fun c => c.check = Ck.roverCentral && c.key = m && c.latched

/-- Level 4 or above covers a machine (R183, R184). -/
def State.degraded (s : State) (m : Nat) : Bool :=
  4 ≤ s.mirLevel || (s.unitOn U.mir && 4 ≤ s.act F.MIR_CTRL_MAX_LEVEL && s.disagrees m && !s.evOnly Ck.roverCentral)

end Sys2Proof.Machine
end

