-- ==== Sys2Proof/Machine/CommitRules.lean ====
section
/-! DEFINITION. What a commit is checked by: the configuration that would result from it, the 61 cross-field rules of the units
and the fitting of steps 2 and 4 (R55 to R57, R77, R126, R127, R148, R189, R216, R224, R228, R255, R262, R263, R289, R328, R355,
R417, R451, R546). -/

namespace Sys2Proof.Machine

/-! ### Configurations -/

/-- A BAR0 offset lies on a page of a unit of a mask. -/
def pageIn (mask : BitVec 20) (off : Nat) : Bool :=
  match unitOf off with
  | some u => mask.getLsbD u
  | none => false

/-- The part of a configuration that belongs to the units of a mask. -/
def Conf.only (c : Conf) (mask : BitVec 20) : Conf where
  regs := c.regs.filter fun e => pageIn mask e.1
  machines := if mask.getLsbD U.fld then c.machines else []
  sections := if mask.getLsbD U.fld then c.sections else []
  rates := if mask.getLsbD U.fld then c.rates else []
  routes := if mask.getLsbD U.dis then c.routes else []
  classes := if mask.getLsbD U.crn then c.classes else []

/-- A configuration with the units of a mask as a snapshot has them (R50). -/
def Conf.withUnits (c snap : Conf) (mask : BitVec 20) : Conf where
  regs := (snap.regs.filter fun e => pageIn mask e.1).foldl (fun t e => tput t e.1 e.2)
    (c.regs.filter fun e => !pageIn mask e.1)
  machines := if mask.getLsbD U.fld then snap.machines else c.machines
  sections := if mask.getLsbD U.fld then snap.sections else c.sections
  rates := if mask.getLsbD U.fld then snap.rates else c.rates
  routes := if mask.getLsbD U.dis then snap.routes else c.routes
  classes := if mask.getLsbD U.crn then snap.classes else c.classes

/-- What a commit would result in (R56): the configuration, the units named, those named or active, the slot tables read for its
enabled ports (one that met a DMA error is not listed), the node table, and the tables announced for a pending commit (R236). -/
structure Cand where
  conf : Conf
  named : BitVec 20
  units : BitVec 20
  slots : Tbl (List Byte)
  nodes : Option (List Byte)
  announced : Tbl (List Byte)
deriving DecidableEq, Repr

def Cand.get (c : Cand) (f : Sel) (i : Nat := 0) : Nat := c.conf.get f i

/-! ### DRAM areas -/

/-- Usable DRAM of a configuration in bytes: seven eighths of CAPACITY, 0 without EN (R450). -/
def Cand.dram (c : Cand) : Nat :=
  if c.get F.MEM_DRAM_CFG_EN = 0 then 0
  else [4, 6, 8, 12, 16].getD (c.get F.MEM_DRAM_CFG_CAPACITY) 4 * 2 ^ 30 / 8 * 7

/-- The map area, the record buffers, the trace buffer and the track store: first byte and end. -/
def Cand.mapArea (c : Cand) : Nat × Nat :=
  (2 ^ 20 * c.get F.FLD_MAP_BASE_BASE, 2 ^ 20 * (c.get F.FLD_MAP_BASE_BASE + c.get F.FLD_MAP_SIZE_SIZE))

def bufArea (frame size : Nat) : Nat × Nat := (4096 * frame, 4096 * frame + 65536 * size)

def Cand.gnsArea (c : Cand) : Nat × Nat := bufArea (c.get F.GNS_MEAS_BUF_BASE_FRAME) (c.get F.GNS_MEAS_BUF_SIZE_SIZE)
def Cand.fixArea (c : Cand) : Nat × Nat := bufArea (c.get F.FIX_SOL_BUF_BASE_FRAME) (c.get F.FIX_SOL_BUF_SIZE_SIZE)
/-- The Fix Engine's record buffer takes no DRAM on a part without the solver, where FIX_SOL_BUF_SIZE reads 0 (R7, R217). -/
def State.fixAreaOf (s : State) (c : Cand) : Nat × Nat := if s.id.part = .mg7740 then c.fixArea else (0, 0)
def Cand.traceArea (c : Cand) : Nat × Nat := bufArea (c.get F.DIS_TRACE_BASE_FRAME) (c.get F.DIS_TRACE_SIZE_SIZE)
def Cand.trackArea (c : Cand) : Nat × Nat :=
  (4096 * c.get F.CAR_TRACK_FRAME_FRAME, 4096 * c.get F.CAR_TRACK_FRAME_FRAME + 4096 * 528)

/-- Two areas have no byte in common. -/
def apart (a b : Nat × Nat) : Bool := a.2 ≤ a.1 || b.2 ≤ b.1 || a.2 ≤ b.1 || b.2 ≤ a.1

/-- An area lies within DRAM and apart from others. -/
def Cand.placed (c : Cand) (a : Nat × Nat) (others : List (Nat × Nat)) : Bool := a.2 ≤ c.dram && others.all (apart a)

/-! ### Machines, rovers, ports -/

/-- Enabled machines (R119). -/
def State.candMachines (s : State) (c : Cand) : List Nat := (List.range s.machines).filter fun m => meEn (c.conf.machine m)

/-- Enabled machines with sections. -/
def State.candSectioned (s : State) (c : Cand) : List Nat :=
  (s.candMachines c).filter fun m => meCount (c.conf.machine m) ≠ 0

/-- Section indices of a machine. -/
def Cand.sectionsOf (c : Cand) (m : Nat) : List Nat :=
  (List.range (meCount (c.conf.machine m))).map fun k => meBase (c.conf.machine m) + k

/-- Enabled rovers. -/
def State.candRovers (s : State) (c : Cand) : List Nat := (List.range s.machines).filter fun m => c.get F.FIX_ROVER_EN m = 1

def Cand.rover (c : Cand) (m : Nat) : Bool := c.get F.FIX_ROVER_EN m = 1
def Cand.roverNs (c : Cand) (m : Nat) : Nat := rateNs (c.get F.FIX_ROVER_RATE m)

/-- Measurement and correction periods, ms. -/
def Cand.measMs (c : Cand) : Nat := [10, 20, 25, 40, 50, 100, 125, 200, 250, 500, 1000].getD (c.get F.GNS_MEAS_CTRL_PERIOD) 100
def Cand.rtcmMs (c : Cand) : Nat := [100, 200, 500, 1000, 2000, 5000, 10000].getD (c.get F.FIX_RTCM_CTRL_PERIOD) 1000

/-- A fabric port is enabled. -/
def Cand.fabOn (c : Cand) (p : Nat) : Bool := c.get F.FAB_PORT_CTRL_EN p = 1

/-- Every fabric port of a mask is enabled. -/
def Cand.fabAll (c : Cand) (mask : Nat) : Bool := (List.range 6).all fun p => !bit mask p || c.fabOn p

/-- No value occurs twice. -/
def distinct : List Nat → Bool
  | [] => true
  | a :: r => !r.contains a && distinct r

/-! ### Timebase to Caravan Engine -/

/-- 2^TIME_CONST ≥ 16 × 2^SYNC_LOG, SYNC_LOG being signed (TB-03). -/
def Cand.servoSlow (c : Cand) : Bool :=
  decide ((4 : Int) + signed 4 (c.get F.TB_PTP_CTRL_SYNC_LOG) ≤ (c.get F.TB_CTRL_TIME_CONST : Int))

/-- Squared length of the base vector (GNS-06). -/
def Cand.baseSq (c : Cand) : Int :=
  let v := fun (lo hi : Sel) => signed 64 (c.get lo + 2 ^ 32 * c.get hi)
  sq3 (v F.GNS_BASE_X_LO_X F.GNS_BASE_X_HI_X, v F.GNS_BASE_Y_LO_Y F.GNS_BASE_Y_HI_Y, v F.GNS_BASE_Z_LO_Z F.GNS_BASE_Z_HI_Z)

def State.rulesTb (_s : State) (c : Cand) : List Bool :=
  let ptp := bit (c.get F.TB_CTRL_SRC_EN) 1
  [!ptp || c.get F.TB_PTP_CTRL_PORTS ≠ 0, c.fabAll (c.get F.TB_PTP_CTRL_PORTS), !ptp || c.servoSlow,
    c.get F.TB_CTRL_SERVO_MODE = 0 || c.get F.TB_CTRL_SRC_EN = 0]

def State.rulesGns (_s : State) (c : Cand) : List Bool :=
  let a := c.get F.GNS_CTRL_EN_A = 1
  let b := c.get F.GNS_CTRL_EN_B = 1
  let split := c.get F.GNS_CTRL_CHAN_SPLIT
  [!b || a, (!a || 1 ≤ split) && (!b || split ≤ 319), !a || c.get F.GNS_SIG_EN_SIG ≠ 0,
    c.get F.GNS_CTRL_MODE = 1 || c.get F.GNS_CTRL_ACQ_HOST ≤ 12, c.placed c.gnsArea [c.mapArea],
    c.get F.GNS_SURVEY_CTRL_MODE ≠ 2 || (decide ((6340000000 : Int) ^ 2 ≤ c.baseSq) && decide (c.baseSq ≤ (6400000000 : Int) ^ 2))]

def State.rulesMir (_s : State) (c : Cand) : List Bool :=
  [!bit (c.get F.MIR_CHECK_EN_EN) 4 || c.get F.GNS_CTRL_EN_B = 1, c.get F.MIR_ROVER_FIXED_LIM ≤ c.get F.MIR_ROVER_FLOAT_LIM]

def State.rulesFix (s : State) (c : Cand) : List Bool :=
  let solver := c.get F.FIX_CTRL_SOLVER_EN = 1
  let rovers := s.candRovers c
  [!(c.get F.FIX_CTRL_RTCM_EN = 1 || solver) || c.get F.GNS_CTRL_EN_A = 1, c.rtcmMs % c.measMs = 0, solver || rovers.isEmpty,
    rovers.all fun m => meEn (c.conf.machine m), rovers.all fun m => c.roverNs m % (1000000 * c.measMs) = 0,
    (rovers.map fun m => 1000000000 / c.roverNs m).sum ≤ 2560,
    rovers.all fun m => 10000000 * c.get F.FIX_SOLVER_ASM_LIMIT < c.roverNs m,
    !solver || c.placed c.fixArea [c.mapArea, c.gnsArea], c.fabAll (c.get F.FIX_RTCM_PORTS_FAB)]

/-- The directory of a field lies in the map area after its first 5 MiB (FLD-02). -/
def Cand.directoryIn (c : Cand) (f : Nat) : Bool :=
  let a := 4096 * c.get F.FLD_FIELD_DIR_FRAME f
  c.mapArea.1 + 5 * 2 ^ 20 ≤ a && a + 64 * c.get F.FLD_FIELD_SIZE_TILES_E f * c.get F.FLD_FIELD_SIZE_TILES_N f ≤ c.mapArea.2

def Cand.field (c : Cand) (f : Nat) : Bool := c.get F.FLD_FIELD_CTRL_EN f = 1

def State.rulesFld (s : State) (c : Cand) : List Bool :=
  let ms := s.candMachines c
  let e := c.conf.machine
  let disjoint := fun (l : List Nat) => l.all fun m => l.all fun k => m = k ||
    apart (meBase (e m), meBase (e m) + meCount (e m)) (meBase (e k), meBase (e k) + meCount (e k))
  [c.mapArea.2 ≤ c.dram, (List.range 16).all fun f => !c.field f || c.directoryIn f, ms.all fun m => c.field (meField (e m)),
    disjoint (s.candSectioned c), ms.all (fun m => meEui (e m) ≠ 0) && distinct (ms.map fun m => meEui (e m)),
    (s.candSectioned c).all fun m => (c.sectionsOf m).all fun i => seProducts (c.conf.sectionEntry i) < 2 ^ meProducts (e m),
    ms.all fun m => (List.range (min 4 (meProducts (e m)))).all fun p =>
      meLayer (e m) p = 0xFF || meLayer (e m) p < c.get F.FLD_FIELD_CTRL_PRESC (meField (e m)),
    ms.all fun m => !meTrailed (e m) || 500 ≤ meTrailLen (e m)]

/-- SEC-04 for one port. -/
def State.downlinkAfter (s : State) (c : Cand) (p : Nat) (t : List Byte) : Bool :=
  let ms := s.candSectioned c
  let owns := (List.range (stCount t)).any fun i =>
    (stType t i = ST.uplink || stType t i = ST.observation) && ms.contains (stOwner t i)
  !owns || (List.range (stCount t)).any fun i =>
    stType t i = ST.downlink && c.get F.SEC_CTRL_PHASE * 125000 ≤ i * slotLenNs (c.get F.HOP_PORT_CTRL_SLOT_LEN p)

def State.rulesSec (s : State) (c : Cand) : List Bool :=
  let ms := s.candSectioned c
  let full := s.id.part = .mg7740
  [!full || ms.all fun m => c.get F.SEC_MACH_POS_SRC m = 0 || c.rover m,
    ms.all fun m => c.get F.SEC_MACH_FALLBACK m = 0 || c.get F.SEC_MACH_POS_SRC m = 1 || c.rover m,
    ms.all fun m => meProducts (c.conf.machine m) ≠ 0 || c.get F.SEC_MACH_RATE_MODE m = 0,
    c.slots.all fun e => s.downlinkAfter c e.1 e.2,
    !full || ms.all fun m => c.get F.SEC_MACH_DISAGREE_OFF m = 0 || bit (c.get F.MIR_CHECK_EN_EN) 9]

def State.rulesCar (s : State) (c : Cand) : List Bool :=
  let ms := (List.range s.machines).filter fun m => c.get F.CAR_MACH_EN m = 1
  [c.get F.CAR_CTRL_EN = 0 || c.placed c.trackArea [c.mapArea, c.gnsArea, s.fixAreaOf c],
    ms.all fun m => meEn (c.conf.machine m), ms.all fun m => c.get F.CAR_MACH_BODY_HALF m ≤ c.get F.CAR_MACH_HALF_WIDTH m,
    -- CONF_SRC is not fitted on the smaller parts and reads 0 there (R290)
    c.get F.CAR_CTRL_CONF_SRC = 0 || s.id.part ≠ .mg7740 || ms.all c.rover, c.get F.CAR_CLEAR_DEFER_MAX ≤ 10 * c.get F.CAR_CTRL_HORIZON]

/-! ### Stop Controller, fabric, Dispatcher, Memory System -/

def State.rulesStp (s : State) (c : Cand) : List Bool :=
  let tx := c.get F.STP_KEYS_FAB_TX
  let pens := (List.range 16).filter fun n => c.get F.STP_PENDANT_EN n = 1
  let nodes := pens.map fun n => c.get F.STP_PENDANT_NODE n
  [(c.get F.STP_CTRL_SCOPE_PAUSE = 0 && c.get F.STP_CTRL_SCOPE_STOP = 0) ||
      (s.keyIs tx Usage.encryptOnly && (List.range 6).any c.fabOn),
    c.get F.STP_SRC_FABRIC = 0 || (s.keyIs (c.get F.STP_KEYS_FAB_RX) Usage.decryptOnly && c.get F.STP_KEYS_FAB_RX ≠ tx),
    c.get F.STP_SRC_PENDANT = 0 || (s.keyIs (c.get F.STP_PENDANT_KEY_RECORD) Usage.decryptOnly && !pens.isEmpty),
    nodes.all (fun k => k < c.get F.HOP_NODE_COUNT_COUNT && ntEn (c.nodes.getD []) k) && distinct nodes,
    c.get F.STP_SRC_MIRAGE = 0 || c.get F.MIR_CTRL_MAX_LEVEL = 5]

def State.rulesFab (_s : State) (c : Cand) : List Bool :=
  let fixed := c.get F.FAB_CTRL_ADDR_MODE = 1
  let a := c.get F.FAB_CTRL_ADDR
  [!fixed || (1 ≤ a && a ≤ 0x3FFE), !fixed || (List.range 8).all fun m => c.get F.FLD_SYNC_PEER_ADDR m ≠ a]

def State.rulesDis (s : State) (c : Cand) : List Bool :=
  [c.get F.DIS_CTRL_TRACE_EN = 0 ||
    c.placed c.traceArea ([c.mapArea, c.gnsArea, s.fixAreaOf c] ++ if s.has U.car then [c.trackArea] else [])]

def State.rulesMem (s : State) (c : Cand) : List Bool :=
  [!s.unitOn U.mem || s.act F.MEM_DRAM_CFG_EN = 0 || tget c.conf.regs 4 0x10000 = tget s.cfg.active.regs 4 0x10000]

/-! ### Hop Sequencer (R263) -/

/-- Enabled ports. -/
def State.candPorts (s : State) (c : Cand) : List Nat :=
  (List.range s.id.part.radios).filter fun p => c.get F.HOP_PORT_CTRL_EN p = 1

def Cand.slotNs (c : Cand) (p : Nat) : Nat := slotLenNs (c.get F.HOP_PORT_CTRL_SLOT_LEN p)
def Cand.narrow (c : Cand) (p : Nat) : Bool := c.get F.RAD_PORT_CTRL_BAND p = 1
def Cand.table (c : Cand) (p : Nat) : List Byte := tget c.slots [] p

/-- HOP-01 for a table: R235's shape and CRC, and the count that the slot length calls for. -/
def tableOk (slot : Nat) (t : List Byte) : Bool :=
  fieldLE t 0 4 = 0x42544C53 && fieldLE t 4 2 = 1 && stCount t = sfNs / slot && t.length = 80 + 8 * stCount t &&
    fieldLE t 12 4 = crc32c (t.take 12 ++ leBytes 4 0 ++ t.drop 16)

/-- HOP-01 for a port. -/
def Cand.tableValid (c : Cand) (p : Nat) : Bool :=
  match tfind c.slots p with
  | none => false
  | some t => tableOk (c.slotNs p) t && (match tfind c.announced p with
    | some a => fieldLE a 12 4 = fieldLE t 12 4
    | none => true)

/-- HOP-02 for a table. -/
def tableTypes (t : List Byte) : Bool :=
  (List.range (stCount t)).all fun i =>
    stType t i ≤ 7 && decide (stType t i = ST.beacon) = decide (i = 0) &&
    (!(stType t i = ST.shared || stType t i = ST.nodePoll) || (i + 1 < stCount t && stType t (i + 1) = ST.idle))

/-- HOP-03 for a port (R224). -/
def Cand.lengthOk (c : Cand) (p : Nat) : Bool :=
  let l := c.get F.HOP_PORT_CTRL_SLOT_LEN p
  if c.narrow p then 2 ≤ l && (l = 3 || c.get F.HOP_PORT_CTRL_NARROW_RATE p = 1) else l ≤ 1

/-- HOP-04 for a port (R228). -/
def Cand.channelsOk (c : Cand) (p : Nat) : Bool :=
  let t := c.table p
  let plan1 := c.narrow p && c.get F.RAD_PORT_CTRL_PLAN p = 1
  let top := if !c.narrow p then 7 else if plan1 then 128 else 33
  (stRdv t :: stHopList t).all (fun ch => ch ≤ top) && (!plan1 || 50 ≤ (stHopList t).eraseDups.length)

/-- HOP-06 for a port: the airtime of 26-byte beacons in every superframe and of 25-byte anchors every ANCHOR_PERIOD, shared by
the entries of the hop list, takes at most half of a channel's budget. -/
def Cand.dutyOk (c : Cand) (p : Nat) : Bool :=
  let t := c.table p
  let ap := c.get F.HOP_CTRL_ANCHOR_PERIOD
  !c.narrow p || (c.get F.HOP_PORT_DUTY_EN p = 1 && (stHopList t).all fun ch =>
    100000 * ((stHopList t).filter fun x => x = ch).length * (288 * ap + 280) ≤
      c.get F.HOP_PORT_DUTY_PERMILLE p * narrowRate (c.get F.HOP_PORT_CTRL_NARROW_RATE p) * ap * stHopLen t)

/-- Owned slots of all enabled ports: machine, port, and whether it is an `UPLINK` slot. -/
def State.candOwned (s : State) (c : Cand) : List (Nat × Nat × Bool) :=
  ((s.candPorts c).map fun p =>
    ((List.range (stCount (c.table p))).filter fun i =>
      stType (c.table p) i = ST.uplink || stType (c.table p) i = ST.observation).map fun i =>
        (stOwner (c.table p) i, p, decide (stType (c.table p) i = ST.uplink))).flatten

/-- Capacity of the span that a slot heads. -/
def Cand.capacity (c : Cand) (p i : Nat) : Nat :=
  let t := c.table p
  let mode := if c.narrow p then 0 else if stMode t i ≤ 6 then stMode t i else c.get F.HOP_PORT_CTRL_DATA_MODE p
  slotCap (c.narrow p) (narrowRate (c.get F.HOP_PORT_CTRL_NARROW_RATE p)) mode (stSpan t i * c.slotNs p)

/-- HOP-08 for a port: a JOIN_RESP is 66 bytes and the hop list, and a segment has 15 bytes around it (R251). -/
def Cand.framesFit (c : Cand) (p : Nat) : Bool :=
  let t := c.table p
  (List.range (stCount t)).all fun i =>
    if stType t i = ST.uplink || stType t i = ST.observation then 17 + stFrag t i ≤ c.capacity p i
    else if stType t i = ST.shared then 66 + stHopLen t ≤ 4 * (c.capacity p i - 15) else true

/-- Enabled entries of the node table. -/
def Cand.nodeList (c : Cand) : List Nat := let t := c.nodes.getD []; (List.range (ntCount t)).filter fun k => ntEn t k

/-- HOP-09. -/
def State.nodesOk (s : State) (c : Cand) : Bool :=
  match c.nodes with
  | none => false
  | some t =>
    let ks := c.nodeList
    ks.all (fun k => (s.candPorts c).contains (ntPort t k) && ntSlot t k < stCount (c.table (ntPort t k)) &&
      stType (c.table (ntPort t k)) (ntSlot t k) = ST.nodePoll) &&
    ks.all (fun k => ks.all fun j => k = j || ntPort t k ≠ ntPort t j || ntSlot t k ≠ ntSlot t j ||
      ntPhase t k % 2 ^ min (ntLog t k) (ntLog t j) ≠ ntPhase t j % 2 ^ min (ntLog t k) (ntLog t j)) &&
    distinct (ks.map (ntEui t)) && distinct (ks.map (ntShort t))

def State.rulesHop (s : State) (c : Cand) : List Bool :=
  let ps := s.candPorts c
  let own := s.candOwned c
  let group := fun p => c.get F.HOP_PORT_KEYS_GROUP p
  let stop := fun p => c.get F.HOP_PORT_KEYS_STOP p
  [ps.all c.tableValid, ps.all fun p => tableTypes (c.table p), ps.all c.lengthOk, ps.all c.channelsOk,
    ps.all fun p => (List.range (stCount (c.table p))).any fun i => stRdvFlag (c.table p) i,
    ps.all c.dutyOk,
    own.all fun o => o.1 < s.machines && meEn (c.conf.machine o.1) && own.all (fun x => x.1 ≠ o.1 || x.2.1 = o.2.1) &&
      own.any fun x => x.1 = o.1 && x.2.2,
    ps.all c.framesFit, s.nodesOk c,
    ps.isEmpty || (s.keyIs (c.get F.HOP_KEYS_JOIN_ROOT) Usage.deriveOnly && ps.all fun p =>
      s.keyIs (group p) Usage.encryptOnly && s.keyIs (stop p) Usage.encryptOnly && group p ≠ stop p),
    ps.isEmpty || c.units.getLsbD U.rad,
    ps.isEmpty || (1 ≤ c.get F.HOP_CTRL_NET_ID && c.get F.HOP_CTRL_NET_ID ≤ 0xFFFE &&
      c.get F.HOP_DEV_EUI_LO_EUI + 2 ^ 32 * c.get F.HOP_DEV_EUI_HI_EUI ≠ 0),
    c.nodeList.all fun k => !ntLegacy (c.nodes.getD []) k ||
      10 * (1000 * c.get F.HOP_NODE_CTRL_LEGACY_GUARD) ≤ 4 * c.slotNs (ntPort (c.nodes.getD []) k)]

/-! ### Steps 4 and 2 of R55 -/

/-- The rules of a unit, in the order of its table. -/
def State.rulesOf (s : State) (c : Cand) (u : Nat) : List Bool :=
  if u = U.tb then s.rulesTb c else if u = U.gns then s.rulesGns c else if u = U.mir then s.rulesMir c
  else if u = U.fix then s.rulesFix c else if u = U.fld then s.rulesFld c else if u = U.sec then s.rulesSec c
  else if u = U.car then s.rulesCar c else if u = U.stp then s.rulesStp c else if u = U.hop then s.rulesHop c
  else if u = U.fab then s.rulesFab c else if u = U.dis then s.rulesDis c else if u = U.mem then s.rulesMem c
  else []

/-- The identifier of the first rule that fails, unit by unit and in table order (R55, R57). -/
def State.firstBroken (s : State) (c : Cand) : Option Nat :=
  (List.range 20).findSome? fun u =>
    if c.units.getLsbD u then
      let l := s.rulesOf c u
      if l.all (fun ok => ok) then none else some (256 * u + (l.findIdx fun ok => !ok) + 1)
    else none

/-- A commit-block entry sets a field whose setting refuses the commit on this part (R74, R148, R262, R418, R546). -/
def Part.entryAbsent (p : Part) (off v : Nat) : Bool :=
  match p with
  | .mg7740 => false
  | .mg7732 => (off = 0xE200 || off = 0xE240) && bit v 0
  | .mg7716 => (off = 0x2000 && bit v 1) || (off = 0x2060 && bits v 0 6 ≠ 0) || (off = 0x4000 && bit v 1) ||
      ((off = 0xC180 || off = 0xC1C0) && bit v 0)

/-- Step 2 of R55: a named unit is absent, or what the commit selects is (R3 to R5, R126, R262, R546). -/
def State.absentUnit (s : State) (c : Cand) (entries : List (Nat × Nat)) : Bool :=
  let p := s.id.part
  (List.range 20).any (fun u => c.named.getLsbD u && !s.has u) || entries.any (fun e => p.entryAbsent e.1 e.2) ||
  (p ≠ .mg7740 &&
    ((c.named.getLsbD U.fld && (List.range 256).any fun m => meEn (c.conf.machine m) &&
        (s.machines ≤ m || (0 < meCount (c.conf.machine m) && p.sections < meBase (c.conf.machine m) + meCount (c.conf.machine m)))) ||
      (c.named.getLsbD U.sec && (List.range s.machines).any fun m => c.get F.SEC_MACH_POS_SRC m = 1))) ||
  (p = .mg7716 && c.named.getLsbD U.hop && c.nodeList.any fun k => 2 ≤ ntPort (c.nodes.getD []) k)

end Sys2Proof.Machine
end

