-- ==== Sys2Proof/Machine/Ptp.lean ====
section
/-! DEFINITION. Fabric PTP: the messages of IEEE 1588-2019 in frames of class `TIME`, the best master clock, and what the engine
computes (R89 to R93, R393, R395). The bytes of a message are the standard's (PRESUMED, log entry 68). -/

namespace Sys2Proof.Machine

/-! ### Clock accuracy and data sets (R89, R90) -/

/-- Clock accuracy codes of IEEE 1588 with their bounds in units of 1 ps, smallest first (log entry 12). -/
def accuracyTable : List (Nat × Nat) :=
  [(0x17, 1), (0x18, 3), (0x19, 10), (0x1A, 25), (0x1B, 100), (0x1C, 250), (0x1D, 1000), (0x1E, 2500), (0x1F, 10000),
   (0x20, 25000), (0x21, 100000), (0x22, 250000), (0x23, 1000000), (0x24, 2500000), (0x25, 10000000), (0x26, 25000000),
   (0x27, 100000000), (0x28, 250000000), (0x29, 1000000000), (0x2A, 2500000000), (0x2B, 10000000000),
   (0x2C, 25000000000), (0x2D, 100000000000), (0x2E, 250000000000), (0x2F, 1000000000000), (0x30, 10000000000000)]

/-- The smallest code whose bound is at least the error bound (R89). -/
def accuracyCode (errNs : Nat) : Nat := ((accuracyTable.find? fun e => errNs * 1000 ≤ e.2).map (·.1)).getD 0x31

/-- The bound of an accuracy code, ns. -/
def accuracyBound (code : Nat) : Nat :=
  match accuracyTable.find? fun e => e.1 = code with
  | some e => (e.2 + 999) / 1000
  | none => 10000000000

/-- PTP runs on a port. -/
def State.ptpOn (s : State) (p : Nat) : Bool :=
  s.unitOn U.tb && bit (s.act F.TB_PTP_CTRL_PORTS) p && p < s.id.part.fabs

/-- The class of the device's own data set. A clock that takes its time over the fabric is itself no reference: its class is then
the standard's default, 248 (PRESUMED, log entry 12). -/
def State.ownClass (s : State) : Nat :=
  if s.tb.source = 2 && (s.tb.quality = .locked || s.tb.quality = .relocking) then 248 else s.clockClass

/-- The data set of the device's own clock (R89); its variance is free (log entry 12). -/
def State.ownData (s : State) : PtpData :=
  ⟨s.act F.TB_PTP_CTRL_PRIO1, s.ownClass, accuracyCode s.tb.errEst, (Config.freeBits 2 0 16).toNat,
    s.reg F.TB_PTP_CTRL2_PRIO2, s.id.eui.toNat, 0, (s.id.eui.toNat, 0)⟩

/-- The data set announced: the class and accuracy of R89 over the grandmaster's identity and priorities, one step further, while
a port is SLAVE. -/
def State.announceData (s : State) : PtpData :=
  match s.tb.slavePort.bind fun p => (s.ptpPort p).announce with
  | some d => { d with clockClass := s.clockClass, accuracy := accuracyCode s.tb.errEst, steps := d.steps + 1 }
  | none => { s.ownData with clockClass := s.clockClass }

/-- The standard's order between data sets of different grandmasters: lower is better. -/
def PtpData.rank (d : PtpData) : List Nat := [d.prio1, d.clockClass, d.accuracy, d.variance, d.prio2, d.identity]

def listLt : List Nat → List Nat → Bool
  | a :: r, b :: t => a < b || (a = b && listLt r t)
  | _, _ => false

/-- The data set comparison of the standard, of sets received on ports `p` and `q` of clock `own`: 2 and 1 where the first is better
and better by topology, −1 and −2 where the second is (PRESUMED, log entry 12). -/
def dataOrder (own : Nat) (a : PtpData) (p : Nat) (b : PtpData) (q : Nat) : Int :=
  if a.identity ≠ b.identity then (if listLt a.rank b.rank then 2 else -2)
  else if a.steps + 1 < b.steps then 2
  else if b.steps + 1 < a.steps then -2
  else if b.steps < a.steps then (if own < a.sender.1 then -2 else -1)
  else if a.steps < b.steps then (if own < b.sender.1 then 2 else 1)
  else if a.sender.1 ≠ b.sender.1 then (if a.sender.1 < b.sender.1 then 1 else -1)
  else if listLt [a.sender.2, p] [b.sender.2, q] then 1 else -1

/-- A foreign master qualifies with two Announces within four intervals; the device's own clock and one 255 steps away never do
(PRESUMED, log entry 12). -/
def State.ptpQualifies (s : State) (f : PtpForeign) : Bool :=
  (f.prevAt.any fun t => f.lastAt ≤ t + 4 * (tickS * 2 ^ s.act F.TB_PTP_CTRL_ANNOUNCE_LOG)) &&
  f.data.identity ≠ s.id.eui.toNat && f.data.sender.1 ≠ s.id.eui.toNat && f.data.steps < 255

/-- The best qualified foreign master of a port. -/
def State.bestForeign (s : State) (p : Nat) : Option PtpForeign :=
  ((s.ptpPort p).foreign.filter s.ptpQualifies).foldl (fun (b : Option PtpForeign) f => match b with
    | none => some f
    | some g => if 0 < dataOrder s.id.eui.toNat f.data p g.data p then some f else b) none

/-- The best data set of all ports, and its port. -/
def State.bestMaster (s : State) : Option (Nat × PtpData) :=
  (List.range s.id.part.fabs).foldl (fun (b : Option (Nat × PtpData)) p =>
    if !s.ptpOn p then b else match (s.ptpPort p).announce, b with
      | none, _ => b
      | some d, none => some (p, d)
      | some d, some (q, e) => if 0 < dataOrder s.id.eui.toNat d p e q then some (p, d) else b) none

/-- The state decision of the standard for a port (R89): a clock of class 1 to 127 is MASTER, or PASSIVE behind a better one; any other
is SLAVE on the port of the best master, PASSIVE where that is better only by topology, else MASTER. Only with SRC_EN bit 1 set can a
port be SLAVE; without it, it is PASSIVE in its place (R90, log entry 12). -/
def State.ptpDecide (s : State) (p : Nat) : PtpRole :=
  let own := s.ownData
  let eui := s.id.eui.toNat
  match (s.ptpPort p).announce with
  | none => .master
  | some d =>
    if 1 ≤ own.clockClass ∧ own.clockClass ≤ 127 then (if 0 < dataOrder eui own 0 d p then .master else .passive)
    else match s.bestMaster with
      | none => .master
      | some (q, e) =>
        if 0 < dataOrder eui own 0 e q then .master
        else if q = p then (if s.srcEnabled 1 then .slave else .passive)
        else if dataOrder eui e q d p = 1 then .passive else .master

/-- The best master clock algorithm runs (R89). Where the SLAVE port moves to another port or grandmaster, the unbroken run of the
source's samples goes on (DESIGN CHOICE, log entry 41). -/
def State.runBmca (s : State) : State :=
  let s := { s with tb := { s.tb with ptp := s.tb.ptp.map fun (e : Nat × PtpPort) =>
    let f := s.bestForeign e.1
    (e.1, { e.2 with
        announce := f.map fun (g : PtpForeign) => g.data
        announceAt := (f.map fun (g : PtpForeign) => g.lastAt).getD e.2.announceAt }) } }
  let slave := (List.range s.id.part.fabs).find? fun p => s.ptpOn p && s.ptpDecide p = .slave
  let s' := { s with tb := { s.tb with slavePort := slave } }
  if s.tb.slavePort.isSome && slave.isNone then s'.loseSource 1 else s'

/-- A port is SLAVE or PASSIVE: it sends neither Sync nor Announce. -/
def State.ptpPassive (s : State) (p : Nat) : Bool := s.tb.slavePort = some p || s.ptpDecide p ≠ .master

/-- The offset of a neighbour is known anew: FABRIC_SKEW is raised above 5,000 ns and clears below 4,000 ns (R91). -/
def State.setNbrOffset (s : State) (p : Nat) (off : Int) : State :=
  let was := (s.ptpPort p).skew
  let s := s.modPtp p fun q => { q with
    nbrOffset := satOffset off, heard := true
    skew := if 5000 < off.natAbs then true else if off.natAbs < 4000 then false else q.skew }
  if !was && (s.ptpPort p).skew then s.raise Ev.fabricSkew p (leBytes 1 p) else s

/-- Local time of reception of a fabric message at the ball, ns: the stamp less 52.0 ns (R92, R93). -/
def State.rxTime (s : State) (phase : Nat) : Rat := (s.stamp16 phase : Rat) / 65536 - 52

/-- Local time of sending at the ball, ns: the stamp plus 38.4 ns (R92). -/
def State.txTime (s : State) : Rat := (s.stamp16 0 : Rat) / 65536 + 384 / 10

/-! ### Messages -/

-- Message types of the standard.
namespace Pm
def sync : Nat := 0x0
def pdelayReq : Nat := 0x2
def pdelayResp : Nat := 0x3
def followUp : Nat := 0x8
def pdelayRespFollowUp : Nat := 0xA
def announce : Nat := 0xB
end Pm

/-- Fewest bytes of a message, by its type. -/
def ptpSize (type : Nat) : Nat :=
  if type = Pm.announce then 64 else if type = Pm.sync ∨ type = Pm.followUp then 44 else 54

/-- Whole ns of a time, and its fraction in units of 2⁻¹⁶ ns. -/
def wholeNs (t : Rat) : Nat := t.floor.toNat
def fracNs (t : Rat) : Nat := ((t - t.floor) * 65536).floor.toNat

/-- A time stamp in a message: 6 bytes of seconds and 4 of nanoseconds. -/
def ptpStamp (ns : Nat) : List Byte := beBytes 6 (ns / 1000000000) ++ beBytes 4 (ns % 1000000000)

/-- The time stamp at an offset of a message, ns. -/
def ptpTime (m : List Byte) (o : Nat) : Rat := ((beNat (slice m o 6) * 1000000000 + beNat (slice m (o + 6) 4) : Nat) : Rat)

-- Fields of a received message.
def ptpType (m : List Byte) : Nat := byteAt m 0 % 16
def ptpSeq (m : List Byte) : Nat := beNat (slice m 30 2)
def ptpCorr (m : List Byte) : Rat := (signed 64 (beNat (slice m 8 8)) : Rat) / 65536

/-- The identity of a port: clockIdentity and portNumber. -/
def State.ptpIdentity (s : State) (p : Nat) : List Byte := beBytes 8 s.id.eui.toNat ++ beBytes 2 (p + 1)

/-- A message of a port: the 34-byte header with flags, correction in 2⁻¹⁶ ns and log interval, and its body. -/
def State.ptpMessage (s : State) (p type flags : Nat) (corr : Int) (seq log : Nat) (body : List Byte) : List Byte :=
  leBytes 1 type ++ [0x12] ++ beBytes 2 (34 + body.length) ++ leBytes 1 (s.act F.TB_PTP_CTRL_DOMAIN) ++ [0] ++
    beBytes 2 flags ++ beBytes 8 (unsigned 64 corr) ++ beBytes 4 0 ++ s.ptpIdentity p ++ beBytes 2 seq ++ [0] ++
    leBytes 1 log ++ body

/-- A log interval of 4 bits as the message's byte of two's complement. -/
def logByte (v : Nat) : Nat := unsigned 8 (signed 4 v)

-- Flags: two-step; PTP timescale with a valid UTC offset.
def ptpTwoStep : Nat := 0x0200
def ptpScale : Nat := 0x000C

/-- The body of an Announce; its timeSource is free (log entry 68). -/
def State.announceBody (s : State) : List Byte :=
  let d := s.announceData
  ptpStamp 0 ++ beBytes 2 (s.reg F.TB_PTP_CTRL2_UTC_OFFSET) ++ [0] ++ leBytes 1 d.prio1 ++ leBytes 1 d.clockClass ++
    leBytes 1 d.accuracy ++ beBytes 2 d.variance ++ leBytes 1 d.prio2 ++ beBytes 8 d.identity ++ beBytes 2 d.steps ++
    [Config.freeBits 23 s.tb.source 8]

/-- A message leaves in a frame of class `TIME`, through the port's queue (R393, R395). -/
def State.sendPtp (s : State) (p : Nat) (m : List Byte) : State :=
  let (s, n) := s.nextSeq FC.time
  (s.enqueueFrame p (mkFrame fabBroadcast s.claimedAddr FC.time 0 1 2 n m)).1

/-- A frame of class `TIME` starts on the line of a port: an event message is stamped, and the second step follows it while the
address is claimed (R89, R93, R94, R400). -/
def State.timeSent (s : State) (p : Nat) (f : List Byte) : State :=
  let m := frBody f
  let n := ptpSeq m
  let t := s.txTime
  let stamped := s.pushStamp (0x20 + p) n (s.stamp16 0)
  let second := fun type log (more : List Byte) =>
    if s.fab.addrState ≠ .claimed then stamped else stamped.sendPtp p (s.ptpMessage p type 0 (fracNs t) n log (ptpStamp (wholeNs t) ++ more))
  if ptpType m = Pm.sync then second Pm.followUp (logByte (s.act F.TB_PTP_CTRL_SYNC_LOG)) []
  else if ptpType m = Pm.pdelayResp then second Pm.pdelayRespFollowUp 0x7F (slice m 44 10)
  else if ptpType m = Pm.pdelayReq then stamped.modPtp p fun q => { q with pd := some (n, t, none) }
  else s

/-- A port whose line is free starts its next frame, which holds the line for (LENGTH + 44) × 0.8 ns (R391, R395). -/
def State.dequeueFrame (s : State) (p : Nat) : State :=
  let r := s.fabPort p
  if s.clk.counter < r.lineFree || !s.portOn p then s
  else match firstFrame r.queues with
    | none => s
    | some (c, f) =>
      let s := (s.modPort p fun r => { r with
        queues := tset r.queues [] c (tget r.queues [] c).tail
        txFrames := r.txFrames + 1
        lineFree := s.clk.counter + (frLength f + 44 + 4) / 5 }).emit (.fabric p f)
      if c = FC.time then s.timeSent p f else s

/-! ### The engine (R89 to R91) -/

/-- 2^log seconds in ticks, for a signed log of `w` bits. -/
def logInterval (w log : Nat) : Nat :=
  let l := signed w log
  if 0 ≤ l then tickS * 2 ^ l.toNat else tickS / 2 ^ l.natAbs

/-- The data set of an Announce. -/
def announced (m : List Byte) : PtpData :=
  ⟨byteAt m 47, byteAt m 48, byteAt m 49, beNat (slice m 50 2), byteAt m 52, beNat (slice m 53 8), beNat (slice m 61 2),
    (beNat (slice m 20 8), beNat (slice m 28 2))⟩

/-- A foreign master's Announce joins those of its port, in place of the one before it. -/
def hearMaster (l : List PtpForeign) (d : PtpData) (now : Nat) : List PtpForeign :=
  (l.filter fun f => f.data.sender ≠ d.sender) ++
    [⟨d, now, (l.find? fun f => f.data.sender = d.sender).map fun f => f.lastAt⟩]

/-- An Announce is received. -/
def State.takeAnnounce (s : State) (p : Nat) (m : List Byte) : State :=
  (s.modPtp p fun q => { q with foreign := hearMaster q.foreign (announced m) s.clk.counter }).runBmca

/-- A Follow_Up is received: the neighbour's offset, and on the SLAVE port a sample with its bound (R69, R91). -/
def State.takeFollowUp (s : State) (p : Nat) (m : List Byte) : State :=
  match (s.ptpPort p).sync with
  | some (n, t2) =>
    if n ≠ ptpSeq m then s
    else
      let dly := (s.ptpPort p).delay
      let off := roundRat (ptpTime m 34 + ptpCorr m + dly - t2)
      let s := s.setNbrOffset p off
      if s.tb.slavePort = some p then
        let acc := ((s.ptpPort p).announce.map (·.accuracy)).getD 0x31
        s.sample 1 off (accuracyBound acc + (dly / 2).ceil.toNat)
      else s
  | none => s

/-- The answer to a Pdelay_Req: the time at which it came, less its fraction in the correction, and who asked. -/
def State.pdelayAnswer (s : State) (p : Nat) (m : List Byte) (phase : Nat) : List Byte :=
  let t := s.rxTime phase
  s.ptpMessage p Pm.pdelayResp ptpTwoStep (-(fracNs t : Int)) (ptpSeq m) 0x7F (ptpStamp (wholeNs t) ++ slice m 20 10)

/-- The responder's two messages of a peer delay measurement that this port began: the second gives the path delay, and the offset of
the neighbour that answers, corrected for it (R91). -/
def State.takePdelay (s : State) (p : Nat) (m : List Byte) (phase : Nat) : State :=
  match (s.ptpPort p).pd with
  | some (n, t1, got) =>
    if n ≠ ptpSeq m || slice m 44 10 ≠ s.ptpIdentity p then s
    else if ptpType m = Pm.pdelayResp then
      s.modPtp p fun q => { q with pd := some (n, t1, some (s.rxTime phase, ptpTime m 34 - ptpCorr m)) }
    else match got with
      | some (t4, t2) =>
        let t3 := ptpTime m 34 + ptpCorr m
        (s.modPtp p fun q => { q with delay := ((t4 - t1) - (t3 - t2)) / 2, pd := none }).setNbrOffset p
          (roundRat (((t2 - t1) + (t3 - t4)) / 2))
      | none => s
  | none => s

/-- A PTP message is received on a port: one of another domain or version, or a short one, is ignored (R89). -/
def State.ptpReceive (s : State) (p : Nat) (m : List Byte) (phase : Nat) : State :=
  let t := ptpType m
  if m.length < ptpSize t || byteAt m 1 % 16 ≠ 2 || byteAt m 4 ≠ s.act F.TB_PTP_CTRL_DOMAIN then s
  else if t = Pm.announce then s.takeAnnounce p m
  else if t = Pm.sync then s.modPtp p fun q => { q with sync := some (ptpSeq m, s.rxTime phase - ptpCorr m) }
  else if t = Pm.followUp then s.takeFollowUp p m
  else if t = Pm.pdelayReq then s.sendPtp p (s.pdelayAnswer p m phase)
  else if t = Pm.pdelayResp || t = Pm.pdelayRespFollowUp then s.takePdelay p m phase
  else s

/-- The PTP engine sends on a port at its intervals: 0 Sync, 1 Announce, 2 Pdelay_Req (R89). -/
def State.ptpSend (s : State) (p kind : Nat) : State :=
  let q := s.ptpPort p
  match kind with
  | 0 =>
    if s.ptpPassive p || s.clk.counter < q.lastSync + logInterval 4 (s.act F.TB_PTP_CTRL_SYNC_LOG) then s
    else
      let n := (q.seqSync + 1) % 65536
      let s := s.modPtp p fun q => { q with seqSync := n, lastSync := s.clk.counter }
      s.sendPtp p (s.ptpMessage p Pm.sync ptpTwoStep 0 n (logByte (s.act F.TB_PTP_CTRL_SYNC_LOG)) (ptpStamp 0))
  | 1 =>
    if s.ptpPassive p || s.clk.counter < q.lastAnn + tickS * 2 ^ s.act F.TB_PTP_CTRL_ANNOUNCE_LOG then s
    else
      let n := (q.seqAnn + 1) % 65536
      let s := s.modPtp p fun q => { q with seqAnn := n, lastAnn := s.clk.counter }
      (s.sendPtp p (s.ptpMessage p Pm.announce ptpScale 0 n (s.act F.TB_PTP_CTRL_ANNOUNCE_LOG) s.announceBody)).noteClass
  | 2 =>
    if s.clk.counter < q.lastPd + logInterval 4 (s.reg F.TB_PTP_CTRL2_PDELAY_LOG) then s
    else
      let n := (q.seqPd + 1) % 65536
      let s := s.modPtp p fun q => { q with seqPd := n, lastPd := s.clk.counter }
      s.sendPtp p (s.ptpMessage p Pm.pdelayReq 0 0 n (logByte (s.reg F.TB_PTP_CTRL2_PDELAY_LOG)) (ptpStamp 0 ++ ptpStamp 0))
  | _ => s

end Sys2Proof.Machine
end

