-- ==== Sys2Proof/Machine/Fabric.lean ====
section
/-! DEFINITION. The Fabric Interface's commands: received frames, links and HELLOs, claims, link-state routing, the learning
table, its descriptors, and the fabric stops (R343, R389 to R426). -/

namespace Sys2Proof.Machine

/-! ### Frames for other units -/

def opFixRtcmGet : Nat := 0x0401

/-- Whole frames from the front of a list that fit `room` bytes. -/
def fitFrames : List (List Byte) → Nat → List (List Byte)
  | [], _ => []
  | f :: r, room => if f.length ≤ room then f :: fitFrames r (room - f.length) else []

/-- A set of RTCM frames goes to the oldest waiting FIX_RTCM_GET of its SOURCE; without one it is missed (R199, R201, R219). -/
def State.serveRtcm (s : State) (source epoch peer : Nat) (frames : List (List Byte)) : State :=
  match (s.waiters opFixRtcmGet).find? fun d => d.operand 0 1 = source with
  | none => { s with fix := { s.fix with hostMissed := s.fix.hostMissed + 1 } }
  | some d =>
    let fit := if d.len = 0 then [] else fitFrames frames d.len
    let total := frames.flatten.length
    let st := if d.len = 0 || fit.length = frames.length then St.ok else St.more
    (s.writePayload d 0 fit.flatten).complete d st
      (leBytes 8 epoch ++ leBytes 4 total ++ leBytes 2 fit.length ++ leBytes 2 peer)

/-- RTCM frames one after another in a payload; bytes that begin no frame end the list. -/
def splitRtcm : Nat → List Byte → List (List Byte)
  | 0, _ => []
  | fuel + 1, b =>
    let n := bits (byteAt b 1 * 256 + byteAt b 2) 0 10 + 6
    if b.length < 6 || byteAt b 0 ≠ 0xD3 || b.length < n then [] else b.take n :: splitRtcm fuel (b.drop n)

/-- A CORRECTION frame from a neighbour (R201). -/
def State.takeCorrection (s : State) (f : List Byte) : State :=
  if s.fix.fault then s else s.serveRtcm 1 0 (frSrc f) (splitRtcm 2048 (frBody f))

/-- A MACHINE_MSG at its DST (R409). -/
def State.takeMachineMsg (s : State) (p : Nat) (f : List Byte) : State :=
  let b := frBody f
  let dest := beNat (slice b 0 8)
  let srcEui := beNat (slice b 8 8)
  let msg := b.drop 20
  let lost := fun (s : State) =>
    ({ s with fab := { s.fab with undelivered := s.fab.undelivered + 1 } }).raise Ev.fabRelayUndelivered 0 []
  if dest = 0 then s.hostFrame (frSrc f) FC.relay 0 p srcEui msg
  else match (s.machineByEui dest).filter s.joined with
    -- as HOP_SEND would: a message that the machine's port cannot carry is not queued (R266)
    | some m =>
      let p := (s.machLink m).port
      if s.messageCap p m < msg.length then lost s else (s.queueMessage m p msg none).getD (lost s)
    | none => lost s

/-- A fabric stop (R343, R406). -/
def State.takeStop (s : State) (p : Nat) (f : List Byte) (relay : Bool) : State :=
  let b := frBody f
  let ok := match s.readyKey (s.act F.STP_KEYS_FAB_RX) with
    | some k => b.length = 24 && cmac8 k (b.take 16) = b.drop 16
    | none => false
  if !ok then (({ s with stp := { s.stp with fabReject := s.stp.fabReject + 1 } }).countOrphan (s.act F.STP_KEYS_FAB_RX)).raise
    Ev.stpFabReject 0 []
  else
    let stop := bit (byteAt b 2) 0
    let key := [0, fieldLE b 0 2, fieldLE b 8 2, b2n stop]
    if s.dupSeen key then s
    else
      let s := s.dupAdd key
      let d := (fieldLE b 4 4 + 2 ^ 32 - s.stopWindow % 2 ^ 32 + 1) % 2 ^ 32
      let on := s.stopSource F.STP_SRC_FABRIC
      if d ≤ 2 then
        let s := if relay then s.relayFlood p f else s
        if on then s.stopRequest Src.fabric stop none false else s
      else
        let s := ({ s with stp := { s.stp with fabStale := s.stp.fabStale + 1 } }).raise Ev.stpFabStale 0 (slice b 0 2)
        if !on then s
        else
          let c := s.stp
          let s := s.stopRequest Src.fabric stop none false
          -- the request is a latch event, or has become that of its stage (R333)
          if s.stp.count = c.count && (s.stp.source ≠ Src.fabric || (c.source = Src.fabric && c.stop = s.stp.stop)) then s
          else s.floodStop (if s.stopScope s.stp.stop = 0 then 1 else s.stopScope s.stp.stop)

/-- A RECOVERY frame from a neighbour: a REQUEST is noted, reported and, once served, answered (R499). -/
def State.takeRecovery (s : State) (p : Nat) (f : List Byte) : State :=
  let b := frBody f
  if byteAt b 0 ≠ 1 || b.length < 16 || s.pwr.state ≠ .run then s
  else
    let eui := beNat (slice b 1 8)
    let part := fieldLE b 9 2
    let next := fieldLE b 12 4
    (({ s with boot := { s.boot with
      peers := tput s.boot.peers p (eui, part, byteAt b 11, next) } }).raise Ev.bootPeerRequest p
      (leBytes 8 eui)).servePeer p eui part next

/-! ### Received frames (R394, R405, R406) -/

/-- A frame delivered on this device. -/
def State.deliverFrame (s : State) (p : Nat) (f : List Byte) : State :=
  match frClass f, frType f with
  | 0, _ => s.takeStop p f false
  | 2, 3 => s.takeDelta (frSrc f) (frBody f)
  | 2, 4 => s.hostFrame (frSrc f) 2 4 p 0 (frBody f)
  | 3, _ => s.takeCorrection f
  | 4, _ => if (frBody f).length < 21 then s else s.takeMachineMsg p f
  | 5, 0 => s.hostFrame (frSrc f) 5 0 p 0 (frBody f)
  | 5, 1 => s.takeRecovery p f
  | _, _ => s

/-- A FLOOD frame (R406, R407). -/
def State.takeFlood (s : State) (p : Nat) (f : List Byte) : State :=
  match frClass f, frType f with
  | 0, _ => s.takeStop p f true
  | 2, 1 => s.takeClaim p f
  | 2, 2 => s.takeLsa p f
  | 2, 4 | 5, 0 =>
    let key := [2, frSrc f, frClass f, frSeq f]
    if s.dupSeen key then s
    else
      let s := (s.dupAdd key).deliverFrame p f
      if s.fab.addrState = .conflict then s else s.relayFlood p f
  | _, _ => s

/-- A unicast frame goes on towards its destination (R404, R405). -/
def State.forwardFrame (s : State) (p : Nat) (f : List Byte) : State :=
  if s.fab.addrState ≠ .claimed then s
  else if frHops f ≤ 1 then { s with fab := { s.fab with hopExpired := s.fab.hopExpired + 1 } }
  else match s.routePort (frDst f) with
    | none => { s with fab := { s.fab with noRoute := s.fab.noRoute + 1 } }
    | some q => if q = p then s else (s.enqueueFrame q (withHops f (frHops f - 1))).1

/-- A frame passes R394 on a port in `RUN`; every frame but a HELLO needs an `UP` link (R397). -/
def State.handleFrame (s : State) (p : Nat) (f : List Byte) : State :=
  let hello := frClass f = FC.control && frType f = 0
  if hello then (if (frBody f).length = 24 then s.takeHello p f else s)
  else if s.pwr.state ≠ .run || !s.linkUp p then s
  else
    let s := if frClass f = FC.relay && 21 ≤ (frBody f).length then s.sight p f else s
    if frLocal f then s.deliverFrame p f
    else if frFlood f then s.takeFlood p f
    else if s.claimedAddr ≠ 0 && frDst f = s.claimedAddr then s.deliverFrame p f
    else s.forwardFrame p f

/-- The address that a frame looping back shows in use (R400). -/
def State.meetLoop (s : State) (f : List Byte) : State :=
  let b := frBody f
  if frClass f ≠ FC.control then s
  else match frType f with
    | 0 => s.meetAddr (beNat (slice b 0 8)) (fieldLE b 16 2)
    | 2 => s.meetAddr (beNat (slice b 0 8)) (frSrc f)
    | _ => s

/-- A frame arrives on a port. -/
def State.receiveFrame (s : State) (p : Nat) (f : List Byte) : State :=
  if !s.portOn p then s
  else
    let s := s.modPort p fun r => { r with rxFrames := r.rxFrames + 1 }
    if !frameOk f then s.modPort p fun r => { r with rxErr := r.rxErr + 1 }
    else if s.claimedAddr ≠ 0 && frSrc f = s.claimedAddr then
      (s.modPort p fun r => { r with drop := r.drop + 1 }).meetLoop f
    else s.handleFrame p f

/-- A frame of class `TIME` passes the checks of R394 and comes over an `UP` link: its PTP message is the engine's (R393, R397). -/
def State.timeTaken (s : State) (p : Nat) (f : List Byte) : Bool :=
  frClass f = FC.time && frLocal f && frameOk f && s.portOn p && s.pwr.state = .run && s.linkUp p &&
    !(s.claimedAddr ≠ 0 && frSrc f = s.claimedAddr)

/-- A reception row acts on the frames that it names; for others only the time passes. -/
def State.receiveIf (s : State) (p : Nat) (f : List Byte) (is : Bool) : State := if is then s.receiveFrame p f else s

/-- A frame of any class; one of class `TIME` is counted here, and its message comes as PTP_MESSAGE_RECEIVED. -/
def execFabFrameReceived (dt port : Nat) (frame : List Byte) (s : State) : Result :=
  .next ((s.elapse dt).receiveFrame port frame)

def execHelloReceived (dt port : Nat) (frame : List Byte) (s : State) : Result :=
  .next ((s.elapse dt).receiveIf port frame (frClass frame = FC.control && frType frame = 0))

def execClaimReceived (dt port : Nat) (frame : List Byte) (s : State) : Result :=
  .next ((s.elapse dt).receiveIf port frame (frClass frame = FC.control && frType frame = 1))

def execLsaReceived (dt port : Nat) (frame : List Byte) (s : State) : Result :=
  .next ((s.elapse dt).receiveIf port frame (frClass frame = FC.control && frType frame = 2))

def execMapDeltaReceived (dt port : Nat) (frame : List Byte) (s : State) : Result :=
  .next ((s.elapse dt).receiveIf port frame (frClass frame = FC.control && frType frame = 3))

def execFabCorrectionReceived (dt port : Nat) (frame : List Byte) (s : State) : Result :=
  .next ((s.elapse dt).receiveIf port frame (frClass frame = FC.correction))

def execMachineMsgReceived (dt port : Nat) (frame : List Byte) (s : State) : Result :=
  .next ((s.elapse dt).receiveIf port frame (frClass frame = FC.relay))

/-- A frame for the host: CONTROL or BULK HOST, or a MACHINE_MSG with DEST_EUI zero (R420). -/
def execFabHostFrameReceived (dt port : Nat) (frame : List Byte) (s : State) : Result :=
  .next ((s.elapse dt).receiveIf port frame
    ((frClass frame = FC.control && frType frame = 4) || (frClass frame = FC.bulk && frType frame = 0) ||
      (frClass frame = FC.relay && beNat (slice (frBody frame) 0 8) = 0)))

def execFabricStopReceived (dt port : Nat) (frame : List Byte) (s : State) : Result :=
  .next ((s.elapse dt).receiveIf port frame (frClass frame = FC.stop))

def execBootPeerRequest (dt port : Nat) (frame : List Byte) (s : State) : Result :=
  .next ((s.elapse dt).receiveIf port frame (frClass frame = FC.bulk && frType frame = 1))

/-! ### Links (R389, R390, R395 to R397) -/

/-- Every 10 ms: HELLO on the ports, and the fabric stop bodies of the next eight windows held (R345). -/
def execFabHelloSend (dt : Nat) (s : State) : Result :=
  let s := s.elapse dt
  .next (if s.due T.hello (10 * tickMs) then s.helloAll.holdBodies else s)

/-- No valid HELLO for 30 ms. -/
def execFabLinkTimeout (dt port : Nat) (s : State) : Result :=
  let s := s.elapse dt
  .next (match (s.fabPort port).helloAt with
    | some t => if t + 30 * tickMs ≤ s.clk.counter then s.linkFall port .timeout else s
    | none => s)

/-- Block lock is lost, or HI_BER shows. -/
def execFabPcsLoss (dt port : Nat) (hiBer : Bool) (s : State) : Result :=
  let s := s.elapse dt
  .next (if s.id.part.fabs ≤ port then s
    else
      let s := s.modPort port fun r => if hiBer then { r with hiBer := true } else { r with blockLock := false }
      s.linkFall port .pcs)

/-- Block lock is gained, or HI_BER clears. -/
def execFabBlockLock (dt port : Nat) (s : State) : Result :=
  let s := s.elapse dt
  .next (if s.id.part.fabs ≤ port then s
    else s.modPort port fun r => { r with blockLock := true, hiBer := false })

/-- MOD_ABS changes; `los` is the level of LOS with it. -/
def execFabModuleChange (dt port : Nat) (present los : Bool) (s : State) : Result :=
  let s := s.elapse dt
  .next (if s.id.part.fabs ≤ port then s
    else
      let was := (s.fabPort port).modPresent
      let s := s.modPort port fun r => { r with modPresent := present, modLos := los }
      if was = present then s else s.raise Ev.fabModuleChange 0 [])

def execFabEgressDequeue (dt port : Nat) (s : State) : Result := .next ((s.elapse dt).dequeueFrame port)

/-! ### Addresses (R399) -/

/-- CLAIM_WAIT in ticks. -/
def State.claimWait (s : State) : Nat := s.act F.FAB_CTRL_CLAIM_WAIT * 10 * tickMs

def State.claiming (s : State) : Bool := s.pwr.state = .run && s.fab.addrState = .tentative && !s.fab.fault

def execFabClaimRepeat (dt : Nat) (s : State) : Result :=
  let s := s.elapse dt
  .next (if s.claiming && s.fab.claimSent + 20 * tickMs ≤ s.clk.counter && s.clk.counter < s.fab.claimAt + s.claimWait then
      ({ s with fab := { s.fab with claimSent := s.clk.counter } }).sendClaim false
    else s)

def execFabClaimWaitExpired (dt : Nat) (s : State) : Result :=
  let s := s.elapse dt
  .next (if s.claiming && s.fab.claimAt + s.claimWait ≤ s.clk.counter then
      ({ s with fab := { s.fab with addrState := .claimed } }).raise Ev.fabAddrClaimed 0 []
    else s)

/-! ### Routing (R401, R402) -/

def execFabLsaSend (dt : Nat) (s : State) : Result :=
  let s := s.elapse dt
  .next (if s.lsaIsDue then s.sendLsa else s)

/-- Entries not refreshed within 4 × LSA_PERIOD are removed. -/
def execFabLsaExpire (dt : Nat) (s : State) : Result :=
  let s := s.elapse dt
  let keep := s.fab.lsdb.filter fun e => s.clk.counter < e.2.seen + 4 * s.reg F.FAB_ROUTE_LSA_PERIOD * tickS
  .next (if keep.length = s.fab.lsdb.length then s
    else ({ s with fab := { s.fab with lsdb := keep } }).lsdbChanged)

def execFabSpfRun (dt : Nat) (s : State) : Result :=
  let s := s.elapse dt
  .next (match s.fab.spfDue with
    | some t => if t + s.reg F.FAB_ROUTE_SPF_HOLD * 10 * tickMs ≤ s.clk.counter && s.pwr.state = .run && !s.fab.fault then s.runSpf
      else s
    | none => s)

/-! ### Learning (R414, R416) -/

/-- Sightings whose WINDOW has passed retire. -/
def execFabLearnFilterRetire (dt : Nat) (s : State) : Result :=
  .next (s.elapse dt).retireSightings

/-- Every AGE_PERIOD seconds the sweeper visits every entry. -/
def execFabAgeSweep (dt : Nat) (s : State) : Result :=
  let s := s.elapse dt
  .next (if s.pwr.state = .run && s.unitOn U.fab && !s.fab.fault &&
      s.due T.ageSweep (s.reg F.FAB_LEARN_CTRL_AGE_PERIOD * tickS) then
      s.fab.learn.foldl (fun s e => s.ageEntry e.1 e.2) (s.mark T.ageSweep)
    else s)

/-! ### Fabric stops of the device's own (R407) -/

/-- A repeat falls due in its window. -/
def State.serveRepeat (s : State) (r : StopRepeat) : State × Option StopRepeat :=
  match r.windows with
  | [] => (s, none)
  | w :: rest =>
    if s.stopWindow < w then (s, some r)
    else (s.sendFabStop r.stop r.count r.scope w, if rest.isEmpty then none else some { r with windows := rest })

def execFabStopRepeat (dt : Nat) (s : State) : Result :=
  let s := s.elapse dt
  .next (if s.pwr.state ≠ .run || s.fab.fault then s
    else
      let (s, keep) := s.fab.repeats.foldl (fun (acc : State × List StopRepeat) r =>
        let (s, k) := acc.1.serveRepeat r
        (s, acc.2 ++ k.toList)) (s, [])
      { s with fab := { s.fab with repeats := keep } })

/-! ### Descriptors (R419 to R424) -/

namespace St
def unknownMachine : Nat := 0x50
def noRoute : Nat := 0x51
def learnFull : Nat := 0x52
def noModule : Nat := 0x53
def moduleNack : Nat := 0x54
def noAddress : Nat := 0x55
end St

/-- A frame of the host that is for this device. -/
def State.deliverOwn (s : State) (cls type : Nat) (body : List Byte) (hops : Nat) : State :=
  let (s, n) := s.nextSeq cls
  s.deliverFrame 0xFF (mkFrame s.claimedAddr s.claimedAddr cls type hops 0 n body)

/-- FAB_SEND (R419). A MACHINE_MSG has hop limit 32 whatever HOP_LIMIT is (R393). A flood that finds no port `UP` completes `NO_ROUTE`,
one that every egress queue drops `BUSY` (log entry 79). -/
def State.fabSend (s : State) (d : Desc) (payload : List Byte) : State :=
  let cls := let c := d.operand 2 1; if c = 2 || c = 4 || c = 5 then c else 5
  let relay := cls = FC.relay
  let hops := clampNat 1 32 (d.operand 3 1)
  let n := b2n (cls ≠ d.operand 2 1) + b2n (hops ≠ d.operand 3 1)
  let s := s.countClamps n none
  let d := d.clampIf (n ≠ 0)
  match s.fabStop with
  | some st => s.complete d st
  | none =>
    let hops := if relay then 32 else hops
    let most := if relay then 255 else 2048
    if d.len = 0 then s.complete d St.empty
    else if most < d.len then s.complete d St.length
    else if s.fab.addrState ≠ .claimed then s.complete d St.noAddress
    else
      let data := padTo d.len payload
      let type := if cls = 2 then 4 else 0
      let m := d.operand 4 1
      let srcEui := if relay && bit (d.operand 5 1) 0 then meEui (s.machine m) else 0
      let dest := d.operand 8 8
      let (s, home) :=
        if relay && d.operand 0 2 % 2 ^ 14 = 0 then
          let (s, e) := s.learnLookup dest
          (s, e.map (·.home))
        else (s, some (d.operand 0 2 % 2 ^ 14))
      match home with
      | none => s.complete d St.unknownMachine
      | some dst =>
        let mseq := if srcEui = 0 then 0 else (tget s.fab.mseqs 0 srcEui + 1) % 65536
        let body := if relay then euiBytes dest ++ euiBytes srcEui ++ leBytes 2 mseq ++ [0, 0] ++ data else data
        let noteMseq := fun (s : State) =>
          if srcEui = 0 then s else { s with fab := { s.fab with mseqs := tput s.fab.mseqs srcEui mseq } }
        if dst = s.claimedAddr then ((noteMseq s).deliverOwn cls type body hops).complete d St.ok
        else if dst = fabBroadcast && !relay then
          let (s, queued) := s.originateQueued s.claimedAddr cls type hops 1 body
          s.complete d (if queued then St.ok else if s.upPorts.isEmpty then St.noRoute else St.busy)
        else match s.routePort dst with
          | none => ({ s with fab := { s.fab with noRoute := s.fab.noRoute + 1 } }).complete d St.noRoute
          | some p =>
            let (s, n) := s.nextSeq cls
            match s.enqueueFrame p (mkFrame dst s.claimedAddr cls type hops 0 n body) with
            | (s, true) => (noteMseq s).complete d St.ok
            | (s, false) => s.complete d St.busy

def execFabSend (dt ring index : Nat) (payload : List Byte) (s : State) : Result :=
  .next ((s.elapse dt).withDesc ring index opFabSend (fun _ => true) fun s d => s.fabSend d payload)

/-- A descriptor waits for its unit, of at most `most` of its opcode. -/
def State.waitAtMost (s : State) (d : Desc) (most : Nat) (p : Desc → Bool) : State :=
  if most ≤ ((s.waiters d.op).filter p).length then s.complete d St.busy else s.wait d

def execFabRecv (dt ring index : Nat) (s : State) : Result :=
  .next ((s.elapse dt).withDesc ring index opFabRecv (fun _ => true) fun s d =>
    match s.fabStop with
    | some st => s.complete d st
    | none => s.waitAtMost d 16 fun _ => true)

/-- OP of FAB_LEARN: other codes read as 2. -/
def learnOp (d : Desc) : Nat := if d.operand 0 1 ≤ 3 then d.operand 0 1 else 2

/-- A FAB_LEARN of one OP. -/
def State.fabLearn (s : State) (d : Desc) (f : State → Desc → State) : State :=
  match s.fabStop with
  | some st => s.complete d st
  | none => f s d

/-- An entry in the RESULT of R421. -/
def LearnEntry.result (e : Option LearnEntry) : List Byte := (e.map LearnEntry.bytes).getD []

/-- INSERT: MSEQ of a new entry is not stated. -/
def State.learnInsertOp (s : State) (d : Desc) : State :=
  let e : LearnEntry := ⟨d.operand 8 8, d.operand 4 2 % 2 ^ 14, d.operand 2 1, true, false, bit (d.operand 1 1) 0,
    (Config.freeBits 5 s.free 16).toNat⟩
  let s := s.draw
  match learnInsert s.fab.learn e with
  | none => s.complete d St.learnFull
  | some (t, detail) =>
    let s := { s with fab := { s.fab with learn := t } }
    s.complete d St.ok (LearnEntry.result ((learnFind t e.key).bind (tfind t))) detail

def execFabLearnInsert (dt ring index : Nat) (s : State) : Result :=
  .next ((s.elapse dt).withDesc ring index opFabLearn (fun d => learnOp d = 0) fun s d =>
    s.fabLearn d State.learnInsertOp)

def execFabLearnRemove (dt ring index : Nat) (s : State) : Result :=
  .next ((s.elapse dt).withDesc ring index opFabLearn (fun d => learnOp d = 1) fun s d =>
    s.fabLearn d fun s d => match learnFind s.fab.learn (d.operand 8 8) with
      | some i =>
        let e := tfind s.fab.learn i
        ({ s with fab := { s.fab with learn := terase s.fab.learn i } }).complete d St.ok (LearnEntry.result e)
      | none => s.complete d St.notFound)

def execFabLearnLookup (dt ring index : Nat) (s : State) : Result :=
  .next ((s.elapse dt).withDesc ring index opFabLearn (fun d => learnOp d = 2) fun s d =>
    s.fabLearn d fun s d =>
      let c := decide (3 < d.operand 0 1)
      let s := s.countClamps (b2n c) none
      let d := d.clampIf c
      match s.learnLookup (d.operand 8 8) with
      | (s, some e) => s.complete d St.ok e.bytes
      | (s, none) => s.complete d St.notFound)

/-- READ of a slot; INDEX is held at the last slot, and a free slot reads as an entry without VALID. -/
def execFabLearnRead (dt ring index : Nat) (s : State) : Result :=
  .next ((s.elapse dt).withDesc ring index opFabLearn (fun d => learnOp d = 3) fun s d =>
    s.fabLearn d fun s d =>
      let i := min 8195 (d.operand 6 2)
      let c := decide (i ≠ d.operand 6 2)
      (s.countClamps (b2n c) none).complete (d.clampIf c) St.ok (LearnEntry.result (tfind s.fab.learn i)))

/-- FAB_LEARN_EVENT (R422). -/
def execFabLearnEvent (dt ring index : Nat) (s : State) : Result :=
  .next ((s.elapse dt).withDesc ring index opFabLearnEvent (fun _ => true) fun s d =>
    match s.fabStop with
    | some st => s.complete d st
    | none =>
      if d.len < 32 then s.complete d St.length
      else (s.waitAtMost d 4 fun _ => true).serveLearn)

/-- FAB_MODULE after its checks: PORT, COUNT and the state of the module (R423). -/
def State.fabModule (s : State) (d : Desc) (f : State → Desc → Nat → Nat → State) : State :=
  let p := d.operand 0 1
  let off := d.operand 2 1
  let cnt := min (256 - off) (clampNat 1 128 (d.operand 4 1))
  let n := b2n (cnt ≠ d.operand 4 1) + b2n (5 < p)
  let d := d.clampIf (n ≠ 0)
  let s := s.countClamps n none
  match s.fabStop with
  | some st => s.complete d st
  | none =>
    if s.id.part.fabs ≤ min 5 p then s.complete d St.noUnit
    else if d.len ≠ cnt then s.complete d St.length
    else if !(s.fabPort (min 5 p)).modPresent then s.complete d St.noModule
    else f s d (min 5 p) cnt

/-- DIR 0: `data` is what the module's memory holds, `ack` whether it acknowledged. -/
def execFabModuleRead (dt ring index : Nat) (data : List Byte) (ack : Bool) (s : State) : Result :=
  .next ((s.elapse dt).withDesc ring index opFabModule (fun d => d.operand 3 1 = 0 || 2 ≤ d.operand 3 1) fun s d =>
    if 2 ≤ d.operand 3 1 || 2 ≤ d.operand 1 1 then s.complete d St.badDesc
    else s.fabModule d fun s d _ cnt =>
      if !ack then s.complete d St.moduleNack
      else (s.writePayload d 0 (padTo cnt data)).complete d St.ok)

/-- Pieces of a write, split at 8-byte boundaries: offset and bytes. -/
def modulePieces : Nat → Nat → List Byte → List (Nat × List Byte)
  | 0, _, _ => []
  | fuel + 1, off, b =>
    if b.isEmpty then []
    else
      let n := 8 - off % 8
      (off, b.take n) :: modulePieces fuel (off + n) (b.drop n)

/-- DIR 1: `acked` is how many pieces the module acknowledges. -/
def execFabModuleWrite (dt ring index : Nat) (payload : List Byte) (acked : Nat) (s : State) : Result :=
  .next ((s.elapse dt).withDesc ring index opFabModule (fun d => d.operand 3 1 = 1) fun s d =>
    if 2 ≤ d.operand 1 1 then s.complete d St.badDesc
    else s.fabModule d fun s d p cnt =>
      let pieces := modulePieces 32 (d.operand 2 1) (padTo cnt payload)
      let done := pieces.take acked
      let s := done.foldl (fun s e => s.emit (.module p (0xA0 + 2 * d.operand 1 1) (leBytes 1 e.1 ++ e.2))) s
      if done.length < pieces.length then s.complete d St.moduleNack else s.complete d St.ok)

end Sys2Proof.Machine
end

