-- ==== Sys2Proof/Machine/FixRtcm.lean ====
section
/-! DEFINITION. The correction messages: RTCM 3.3 coding, and their three paths (R193 to R202). The layouts of RTCM 3.3 are
PRESUMED (log entry 31). -/

namespace Sys2Proof.Machine

/-! ### Bits and frames (R198) -/

/-- A field of w bits, most significant first. -/
def bitsOf : Nat → Nat → List Bool
  | 0, _ => []
  | w + 1, v => bit v w :: bitsOf w v

/-- A signed field. -/
def sbits (w : Nat) (v : Int) : List Bool := bitsOf w (unsigned w v)

/-- A byte from up to eight bits, the first most significant, padded with zeros. -/
def byteOfBits (l : List Bool) : Byte := BitVec.ofNat 8 (((List.range 8).map fun i => b2n (l.getD i false) * 2 ^ (7 - i)).sum)

/-- Bits packed into bytes. -/
def packBits : Nat → List Bool → List Byte
  | 0, _ => []
  | _, [] => []
  | n + 1, l => byteOfBits (l.take 8) :: packBits n (l.drop 8)

/-- One byte of CRC-24Q. -/
def crc24Byte (c : Nat) (b : Byte) : Nat :=
  (List.range 8).foldl (fun c _ => if bit c 23 then (c * 2 % 2 ^ 24) ^^^ 0x864CFB else c * 2 % 2 ^ 24) (c ^^^ (b.toNat * 65536))

/-- An RTCM transport frame. -/
def rtcmFrame (msg : List Bool) : List Byte :=
  let m := packBits 1100 msg
  let f := [0xD3] ++ beBytes 2 (m.length % 1024) ++ m
  f ++ beBytes 3 (f.foldl crc24Byte 0)

/-! ### MSM7 (R195 to R197) -/

/-- RTCM signal identifier of a signal and its PILOT flag; none where R195 has no row. -/
def rtcmSignal (code : Nat) (pilot : Bool) : Option Nat :=
  let r : Option (Option Nat × Option Nat) := match code with
    | 0x01 => some (some 2, none)
    | 0x02 => some (some 30, some 31)
    | 0x03 => some (some 15, some 16)
    | 0x04 => some (some 22, some 23)
    | 0x10 => some (some 2, none)
    | 0x11 => some (some 8, none)
    | 0x20 => some (some 4, some 2)
    | 0x21 => some (some 22, some 23)
    | 0x22 => some (some 14, some 15)
    | 0x23 => some (some 10, some 8)
    | 0x30 => some (some 2, none)
    | 0x33 => some (some 8, none)
    | 0x40 => some (some 2, none)
    | 0x41 => some (some 30, some 31)
    | 0x42 => some (some 15, some 16)
    | 0x43 => some (some 22, some 23)
    | 0x44 => some (some 9, none)
    | _ => none
  r.bind fun x => if pilot then x.2 else x.1

/-- Messages in the order of R194: MSM_SYS bit, system, message number. -/
def msmTable : List (Nat × Nat × Nat) := [(0, 0, 1077), (1, 1, 1087), (2, 2, 1097), (3, 4, 1117), (4, 3, 1127)]

/-- Satellite identifier in the mask. -/
def satId (sys svid : Nat) : Nat := if sys = 4 then svid - 192 else svid

/-- One cell of an MSM: satellite and signal identifiers, ranges in ms of light, rate in m/s. -/
structure MsmCell where
  sat : Nat
  sig : Nat
  slot : Int
  rho : Rat
  /-- Phaserange, none when PHASE_VALID is 0. -/
  phi : Option Rat
  rate : Rat
  lockMs : Nat
  half : Bool
  cn0 : Nat
  chan : Nat

/-- Metres as ms of light travel. -/
def lightMs (m : Rat) : Rat := m / (lightSpeed / 1000)

/-- What the fine phaserange can encode, m. -/
def finePhaseMax : Rat := (2 ^ 23 - 1) / 2 ^ 31 * (lightSpeed / 1000)

/-- Cycles by which Φ of an entry is moved (R197): the shift of its lock if it has one, which a slip does not end; a new one where ρ
is valid and the fine phaserange cannot encode the difference. -/
def State.phaseShift (s : State) (e : Entry) : Option Int :=
  if !e.phaseValid then none
  else match tfind s.fix.shifts e.chan with
    | some (t, n) => if e.lock = some t then some n else fresh
    | none => fresh
where
  fresh : Option Int :=
    let d := (e.psr : Rat) / 1024 - e.lambda * e.phaseR
    if e.rangeValid && finePhaseMax < absR d then some (roundRat (d / e.lambda)) else none

/-- The shifts that stand after a correction epoch: those of the entries that it reports. -/
def State.keepShifts (s : State) (l : List Entry) : State :=
  { s with fix := { s.fix with
    shifts := (l.filter fun e => e.rangeValid && !e.excluded).foldl (fun t e => match s.phaseShift e, e.lock with
      | some n, some t0 => tput t e.chan (t0, n)
      | _, _ => t) s.fix.shifts } }

/-- The cell of an entry. -/
def State.cellOf (s : State) (e : Entry) : Option MsmCell :=
  (rtcmSignal e.sig e.pilot).map fun g =>
    let sh := s.phaseShift e
    { sat := satId (e.sig / 16) e.svid, sig := g, slot := e.slot, rho := lightMs ((e.psr : Rat) / 1024)
      phi := if e.phaseValid then some (lightMs (e.lambda * (e.phaseR + (sh.getD 0 : Int)))) else none
      rate := -(e.lambda * ((e.doppler : Rat) / 4096))
      lockMs := if sh.isSome then 0 else e.lockMs
      half := e.halfAmb, cn0 := e.cn0, chan := e.chan }

/-- Cells of a system in ascending satellite and signal, the lower channel of two on one signal (R195). -/
def State.cellsOf (s : State) (l : List Entry) (sys : Nat) : List MsmCell :=
  let use := l.filter fun e => e.rangeValid && !e.excluded && e.sig / 16 = sys
  let c := sortBy (fun (c : MsmCell) => (c.sat * 64 + c.sig) * 1024 + c.chan) (use.filterMap s.cellOf)
  c.foldl (fun acc x => if acc.any fun y => y.sat = x.sat && y.sig = x.sig then acc else acc ++ [x]) []

/-- The extended lock time indicator, DF407. -/
def lockIndicator (ms : Nat) : Nat :=
  if ms < 64 then ms
  else
    let n := Nat.log2 (ms / 64) + 1
    if 21 ≤ n then 704 else 64 + 32 * (n - 1) + (ms - 64 * 2 ^ (n - 1)) / 2 ^ n

/-- A signed field that holds `bad` where the value does not fit. -/
def fitOr (w : Nat) (v : Int) : Int := if v.natAbs < 2 ^ (w - 1) then v else -(2 ^ (w - 1))

/-- Epoch time of R196, 30 bits. -/
def epochBits (sys tr leap : Nat) : List Bool :=
  let t : Nat := ((tr : Int) - sysDelta sys leap).toNat / 1000000
  if sys = 1 then bitsOf 3 ((t / 86400000 + 4) % 7) ++ bitsOf 27 (t % 86400000)
  else bitsOf 30 ((t + 604800000 - 259200000) % 604800000)

/-- Rough range of a satellite in units of 2⁻¹⁰ ms, and rough rate in m/s, from its first cell. -/
def roughOf (l : List MsmCell) : Nat × Int :=
  match l with
  | [] => (0, 0)
  | c :: _ => ((roundRat (c.rho * 1024)).toNat, roundRat c.rate)

/-- One MSM7 message over cells whose mask has at most 64 bits. -/
def State.msm7 (s : State) (number sys tr quality leap : Nat) (more : Bool) (cells : List MsmCell) (sigs : List Nat) : List Bool :=
  let sats := (cells.map fun c => c.sat).eraseDups
  let of := fun sat => cells.filter fun c => c.sat = sat
  let locked := quality % 4
  let head := bitsOf 12 number ++ bitsOf 12 (s.act F.FIX_CTRL_STATION_ID) ++ epochBits sys tr leap ++ [more] ++ bitsOf 3 0 ++
    bitsOf 7 0 ++ bitsOf 2 (b2n (locked ≠ 0)) ++ bitsOf 2 (if locked = 1 then 1 else 2) ++ [false] ++ bitsOf 3 0 ++
    ((List.range 64).map fun i => sats.contains (i + 1)) ++ ((List.range 32).map fun i => sigs.contains (i + 1)) ++
    (sats.map fun a => sigs.map fun g => (of a).any fun c => c.sig = g).flatten
  let rough := sats.map fun a => roughOf (of a)
  let satData :=
    (rough.map fun r => bitsOf 8 (min 255 (r.1 / 1024))).flatten ++
    (sats.map fun a => bitsOf 4 (if sys = 1 then ((((of a).head?).map fun c => (c.slot + 7).toNat).getD 0) else 0)).flatten ++
    (rough.map fun r => bitsOf 10 (r.1 % 1024)).flatten ++ (rough.map fun r => sbits 14 (fitOr 14 r.2)).flatten
  let by' := fun (f : MsmCell → Nat × Int → List Bool) => (cells.map fun c => f c (roughOf (of c.sat))).flatten
  let sigData :=
    by' (fun c r => sbits 20 (fitOr 20 (roundRat ((c.rho - (r.1 : Rat) / 1024) * 2 ^ 29)))) ++
    by' (fun c r => sbits 24 (match c.phi with
      | some p => fitOr 24 (roundRat ((p - (r.1 : Rat) / 1024) * 2 ^ 31))
      | none => -(2 ^ 23))) ++
    by' (fun c _ => bitsOf 10 (lockIndicator c.lockMs)) ++
    by' (fun c _ => [c.half]) ++
    by' (fun c _ => bitsOf 10 (min 1023 (roundRat ((c.cn0 : Rat) * 16 / 100)).toNat)) ++
    by' (fun c r => sbits 15 (fitOr 15 (roundRat ((c.rate - r.2) * 10000))))
  head ++ satData ++ sigData

/-- Satellites in groups whose cell masks hold at most 64 bits. -/
def groupsOf (n : Nat) : Nat → List Nat → List (List Nat)
  | 0, _ => []
  | _, [] => []
  | f + 1, l => l.take (max n 1) :: groupsOf n f (l.drop (max n 1))

/-- The MSM messages of one system, still without their multiple message bit. -/
def State.msmOf (s : State) (number sys tr quality leap : Nat) (l : List Entry) : List (Bool → List Bool) :=
  let cells := s.cellsOf l sys
  let sigs := sortBy (fun n => n) (cells.map fun c => c.sig).eraseDups
  (groupsOf (64 / max 1 sigs.length) 64 ((cells.map fun c => c.sat).eraseDups)).map fun g =>
    fun more => s.msm7 number sys tr quality leap more (cells.filter fun c => g.contains c.sat) sigs

/-! ### The other messages (R194, R198) -/

/-- 1005, or 1006 with the antenna height. -/
def State.msgStation (s : State) : List Bool :=
  let (x, y, z) := s.basePos
  let hi := s.act F.FIX_CTRL_USE_1006 = 1
  let sys := s.act F.FIX_RTCM_CTRL_MSM_SYS
  bitsOf 12 (if hi then 1006 else 1005) ++ bitsOf 12 (s.act F.FIX_CTRL_STATION_ID) ++ bitsOf 6 (s.act F.FIX_CTRL_ITRF_YEAR) ++
  [bit sys 0, bit sys 1, bit sys 2, false] ++ sbits 38 (10 * x) ++ [true, false] ++ sbits 38 (10 * y) ++ bitsOf 2 0 ++
  sbits 38 (10 * z) ++ (if hi then bitsOf 16 (min 65535 (10 * s.act F.GNS_ANT_HEIGHT_HEIGHT)) else [])

/-- 1033: the strings last loaded. -/
def State.msg1033 (s : State) : List Bool :=
  let str := fun i => let t := s.fix.strings.getD i []; bitsOf 8 t.length ++ (t.map fun b => bitsOf 8 b.toNat).flatten
  bitsOf 12 1033 ++ bitsOf 12 (s.act F.FIX_CTRL_STATION_ID) ++ str 0 ++ bitsOf 8 s.fix.setupId ++ str 1 ++ str 2 ++ str 3 ++ str 4

/-- 1230: GLONASS code-phase biases. -/
def State.msg1230 (s : State) : List Bool :=
  let l1 := s.reg F.FIX_GLO_BIAS_L1
  let l2 := s.reg F.FIX_GLO_BIAS_L2
  let one := fun v => if v = 0x8000 then [] else bitsOf 16 v
  bitsOf 12 1230 ++ bitsOf 12 (s.act F.FIX_CTRL_STATION_ID) ++ bitsOf 1 (s.act F.FIX_CTRL_GLO_ALIGNED) ++ bitsOf 3 0 ++
  [decide (l1 ≠ 0x8000), false, decide (l2 ≠ 0x8000), false] ++ one l1 ++ one l2

/-! ### A correction epoch (R193, R194, R199, R200) -/

/-- The engine works (R222). -/
def State.fixRuns (s : State) : Bool :=
  s.unitOn U.fix && !s.fix.fault && (s.pwr.state = .waitHost || s.pwr.state = .run) && !s.pwr.inReset

/-- The frames of the epoch at t_r in order, and whether an MSM message is among them. -/
def State.buildEpoch (s : State) (r : MeasRec) : List (List Byte) × Bool :=
  let tr := r.epoch
  let leap := s.gns.leap.getD 0
  let sys := (msmTable.filter fun m => bit (s.act F.FIX_RTCM_CTRL_MSM_SYS) m.1 && !bit s.sysFlag m.2.1)
  let per := sys.map fun m => (m.2.2, s.msmOf m.2.2 m.2.1 tr r.quality leap r.entries)
  let msms := (per.map fun x => x.2).flatten
  let station : Bool := tr % (s.act F.FIX_RTCM_CTRL_STATION_PERIOD * 1000000000) = 0
  let glo := per.any fun x => x.1 = 1087 && !x.2.isEmpty
  let msgs := (if station then [s.msgStation] else []) ++
    (if station && s.act F.FIX_RTCM_CTRL_SEND_1033 = 1 then [s.msg1033] else []) ++
    (if glo && s.act F.FIX_RTCM_CTRL_SEND_1230 = 1 then [s.msg1230] else []) ++
    (List.range msms.length).map fun i => (msms.getD i fun _ => []) (decide (i + 1 < msms.length))
  (msgs.map rtcmFrame, !msms.isEmpty)

/-- Frames of a radio queue are discarded and counted (R200). -/
def State.countStale (s : State) (n : Nat) : State :=
  if n = 0 then s
  else ({ s with fix := { s.fix with stale := s.fix.stale + BitVec.ofNat 32 n } }).raise Ev.fixRtcmStale 0 []

/-- Bytes of a queue not yet sent. -/
def queueBytes (l : List RtcmFrame) : Nat := (l.map fun f => f.bytes.length - f.sent).sum

/-- Frames of an epoch that fit 8 KiB behind those held. -/
def takeFitting : Nat → List (List Byte) → List (List Byte)
  | _, [] => []
  | used, f :: r => if used + f.length ≤ 8192 then f :: takeFitting (used + f.length) r else []

/-- An epoch enters a radio queue: older frames not begun go, and what does not fit goes with the rest of its epoch. -/
def State.queueRadio (s : State) (p tr : Nat) (frames : List (List Byte)) : State :=
  let q := tget s.fix.radio RadioQueue.reset p
  let begun := q.frames.filter fun f => f.begun
  let fit := takeFitting (queueBytes begun) frames
  let s := { s with fix := { s.fix with
    radio := tset s.fix.radio RadioQueue.reset p { q with frames := begun ++ fit.map fun f => RtcmFrame.mk tr f 0 false } } }
  s.countStale (q.frames.length - begun.length + (frames.length - fit.length))

/-- Whole frames gathered into payloads of at most 2,048 bytes (R199). -/
def gather : List (List Byte) → List Byte → List (List Byte)
  | [], acc => if acc.isEmpty then [] else [acc]
  | f :: r, acc => if acc.length + f.length ≤ 2048 then gather r (acc ++ f) else acc :: gather r f

/-- The frames go to the neighbours on the ports named (R199), from a device that has its address (R400). -/
def State.sendFabCorr (s : State) (frames : List (List Byte)) : State :=
  if !s.has U.fab || s.fab.fault || s.pwr.state ≠ .run || s.fab.addrState ≠ .claimed then s
  else
    let ports := s.upPorts.filter fun p => bit (s.act F.FIX_RTCM_PORTS_FAB) p
    (gather frames []).foldl (fun s b =>
      let (s, n) := s.nextSeq FC.correction
      ports.foldl (fun s p => (s.enqueueFrame p (mkFrame fabBroadcast s.claimedAddr FC.correction 0 1 2 n b)).1) s) s

/-- An epoch without an ANT_A record: a correction epoch at it produces nothing (R202, R222). -/
def State.fixMissed (s : State) (tr : Nat) : State :=
  if s.fixRuns && tr % s.rtcmPeriod = 0 then { s with fix := { s.fix with msmAt := none } } else s

/-- The Fix Engine takes an ANT_A record: it keeps it for the solver, and builds the corrections of a correction epoch. -/
def State.fixRecord (s : State) (r : MeasRec) : State :=
  let s := { s with fix := { s.fix with
    refs := (r :: s.fix.refs).take 256
    filters := if r.clkStep then s.fix.filters.map fun (e : Nat × RoverFilter) => (e.1, { e.2 with fresh := true }) else s.fix.filters } }
  if !s.fixRuns || r.epoch % s.rtcmPeriod ≠ 0 then s
  else if s.act F.FIX_CTRL_RTCM_EN ≠ 1 || !s.baseKnown || 3 ≤ s.mirLevel then { s with fix := { s.fix with msmAt := none } }
  else
    let (frames, msm) := s.buildEpoch r
    let s := (s.keepShifts r.entries)
    let s := { s with fix := { s.fix with msmAt := if msm then some r.epoch else none } }
    if frames.isEmpty then s
    else
      let s := if s.pwr.state ≠ .run then s
        else ((List.range s.id.part.radios).filter fun p => bit (s.act F.FIX_RTCM_PORTS_RADIO) p).foldl
          (fun s p => s.queueRadio p r.epoch frames) s
      ((s.sendFabCorr frames).serveRtcm 0 r.epoch 0 frames).raise Ev.fixRtcmReady 0 []

end Sys2Proof.Machine
end

