-- ==== Sys2Proof/Machine/Gnss.lean ====
section
/-! DEFINITION. The GNSS Receiver's commands: captures, the navigation store, searches, channels, loops, epochs and the time
solution (R141 to R173). -/

namespace Sys2Proof.Machine

def opGnsChan : Nat := 0x0202
def opGnsNav : Nat := 0x0203

/-- What stops a GNS descriptor (R157, R172). -/
def State.gnsStop (s : State) : Option Nat :=
  if s.gns.fault then some St.unitFault else if !s.unitOn U.gns then some St.notConfigured else none

/-- A value held within a range, and the clamps made (R41). -/
def held (lo hi v : Nat) : Nat × Nat := (clampNat lo hi v, b2n (v < lo || hi < v))
def heldInt (lo hi v : Int) : Int × Nat := (clampInt lo hi v, b2n (v < lo || hi < v))

/-- A descriptor with `n` of its fields clamped, and the count (R44). -/
def State.noteClamps (s : State) (d : Desc) (n : Nat) : State × Desc := (s.countClamps n none, d.clampIf (n ≠ 0))

/-- A signal, its satellite and frequency slot as an operand gives them, from byte `o`; and the clamps made (R145, R154, R159). -/
def sigOperand (d : Desc) (o : Nat) : Nat × Nat × Int × Nat :=
  let raw := d.operand o 1
  let code := if (sigFind raw).isSome then raw else 0x01
  let (lo, hi) := svidRange (code / 16)
  let (svid, n) := held lo hi (d.operand (o + 1) 1)
  let (k, m) := if code / 16 = 1 then heldInt (-7) 6 (signed 8 (d.operand (o + 2) 1)) else (0, 0)
  (code, svid, k, b2n (raw ≠ code) + n + m)

/-! ### Captures (R144) -/

/-- The counter at the first sample from now on; samples fall on even ticks (log entry 69). -/
def State.firstSample (s : State) : Nat := s.clk.counter + s.clk.counter % 2

/-- Compact time at a counter value from now on, at the rate of now. -/
def State.timeAt (s : State) (counter : Nat) : Nat :=
  (s.clk.t48 + (if s.clk.frozen then 0 else (counter - s.clk.counter) * s.tickStep)) / 2 ^ 48 % 2 ^ 64

/-- A capture from a front end whose antenna is disabled runs as any other; the manual names no status for it (DESIGN CHOICE, log
entry 69). -/
def execGnsCapture (dt ring index : Nat) (s : State) : Result :=
  .next ((s.elapse dt).withDesc ring index opGnsCapture (fun _ => true) fun s d =>
    match s.gnsStop with
    | some st => s.complete d st
    | none =>
      let (fe, n) := held 0 5 (d.operand 0 1)
      let (count, m) := held 1 16777216 (d.operand 4 4)
      let (s, d) := s.noteClamps d (n + m)
      if s.id.part = .mg7716 && 3 ≤ fe then s.complete d St.noUnit
      else if d.len = 0 then s.complete d St.empty
      else if d.len ≠ count then s.complete d St.length
      else { s with gns := { s.gns with
        captures := s.gns.captures ++ [(d.serial, s.firstSample, s.timeAt s.firstSample)] } }.wait d)

/-- Captured samples, a byte each: I in the low half, Q in the high half (R142). -/
def sampleBytes (i q : List (BitVec 4)) : List Byte := List.zipWith (fun i q => BitVec.ofNat 8 (i.toNat + 16 * q.toNat)) i q

/-- COUNT samples from the first have been taken, two ticks of the counter each (R141, log entry 69): their `i` and `q` are what
the front end delivered. -/
def execGnsCaptureDone (dt ring index : Nat) (i q : List (BitVec 4)) (s : State) : Result :=
  let s := s.elapse dt
  .next (match s.waitingAt ring index opGnsCapture with
    | some d =>
      match s.gns.captures.find? fun q => q.1 = d.serial with
      | some c =>
        if s.gnsRuns && c.2.1 + 2 * d.len ≤ s.clk.counter then
          (s.writePayload d 0 (padTo d.len (sampleBytes i q))).complete d St.ok (leBytes 8 c.2.2)
        else s
      | none => s
    | none => s)

/-! ### The navigation store (R150 to R153) -/

/-- Bytes of a page record. -/
def NavPage.bytes (p : NavPage) : List Byte :=
  leBytes 1 p.sig ++ leBytes 1 p.svid ++ [p.slot] ++ leBytes 1 p.kind ++ leBytes 2 p.bits ++ leBytes 2 0 ++ leBytes 8 p.rx ++
    padTo (4 * ((p.bits + 31) / 32)) p.page

/-- The page at the front of a payload, its size and the clamps made; none where the payload ends inside it. A page of no signal
of R146 is passed over (log entry 30). -/
def parsePage (b : List Byte) : Option (Option NavPage × Nat × Nat) :=
  if b.length < 16 then none
  else
    let code := byteAt b 0
    let (lo, hi) := svidRange (code / 16)
    let (svid, n) := held lo hi (byteAt b 1)
    let (kind, m) := held 0 2 (byteAt b 3)
    let (nbits, k) := held 1 2048 (fieldLE b 4 2)
    let size := 16 + 4 * ((nbits + 31) / 32)
    if b.length < size then none
    else some (if (sigFind code).isSome then
        some ⟨code, svid, if code / 16 = 1 then b.getD 2 0 else 0, kind, nbits, fieldLE b 8 8, slice b 16 (size - 16)⟩
      else none, size, n + m + k)

/-- A page is loaded unless the one it would replace is younger (R153). -/
def navLoad (l : List NavPage) (p : NavPage) : List NavPage :=
  if l.any fun q => pageKey q = pageKey p && p.rx < q.rx then l else navPut p l

/-- Pages of a payload in order: the store, the clamps, and whether the payload ended between records. -/
def loadPages : Nat → List NavPage → List Byte → List NavPage × Nat × Bool
  | 0, l, _ => (l, 0, true)
  | fuel + 1, l, b =>
    if b.isEmpty then (l, 0, true)
    else match parsePage b with
      | none => (l, 0, false)
      | some (p, size, n) =>
        let (l', m, ok) := loadPages fuel (match p with | some q => navLoad l q | none => l) (b.drop size)
        (l', n + m, ok)

def execGnsNavLoad (dt ring index : Nat) (payload : List Byte) (s : State) : Result :=
  .next ((s.elapse dt).withDesc ring index opGnsNav (fun d => d.operand 0 1 = 0) fun s d =>
    if s.gns.fault then s.complete d St.unitFault
    else if d.len = 0 then s.complete d St.empty
    else
      let (l, n, ok) := loadPages d.len s.gns.nav (padTo d.len payload)
      let (s, d) := s.noteClamps d n
      { s with gns := { s.gns with nav := l } }.complete d (if ok then St.ok else St.length))

/-- Pages that fit, from the front of a list. -/
def fitPages : List NavPage → Nat → List NavPage
  | [], _ => []
  | p :: r, room => if p.bytes.length ≤ room then p :: fitPages r (room - p.bytes.length) else []

/-- DIR 1; an unassigned DIR completes `BAD_DESC` (R42). -/
def execGnsNavSave (dt ring index : Nat) (s : State) : Result :=
  .next ((s.elapse dt).withDesc ring index opGnsNav (fun d => d.operand 0 1 ≠ 0) fun s d =>
    if s.gns.fault then s.complete d St.unitFault
    else if 1 < d.operand 0 1 then s.complete d St.badDesc
    else if d.len = 0 then s.complete d St.empty
    else
      let first := d.operand 4 4
      let l := (s.gns.nav.filter fun p => bit (d.operand 1 1) (p.sig / 16)).drop first
      let fit := fitPages l d.len
      let s := s.writePayload d 0 (fit.map NavPage.bytes).flatten
      if fit.length = l.length then s.complete d St.ok
      else s.complete d St.more (leBytes 4 (first + fit.length)))

/-! ### Searches (R154 to R157) -/

/-- GNS_ACQ as it is carried out (R154). -/
structure AcqReq where
  antB : Bool
  code : Nat
  svid : Nat
  slot : Int
  centre : Int
  halfSpan : Nat
  width : Nat
  start : Nat
  cells : Nat
  n : Nat
  dwellMs : Nat
  thresh : Nat
  v : Nat
  m : Nat
  chan : Nat
  track : Bool
  stopFirst : Bool

/-- The fields of a GNS_ACQ, and the clamps made. -/
def acqOperand (d : Desc) : AcqReq × Nat :=
  let (code, svid, slot, n0) := sigOperand d 1
  let g := sigOf code
  let cells := 2 * g.chips
  let (centre, n1) := heldInt (-50000) 50000 (signed 32 (d.operand 4 4))
  let (half, n2) := held 0 50000 (d.operand 8 2)
  let w := clampNat 25 1000 (d.operand 10 2)
  let w := if 2 * (w % 25) ≤ 25 then w - w % 25 else w - w % 25 + 25
  let (start, n3) := held 0 (cells - 1) (d.operand 12 4)
  let (n, n4) := held (min 2048 cells) cells (d.operand 16 4)
  let (coh, n5) := held 1 g.acq (d.operand 20 1)
  let (non, n6) := held 1 64 (d.operand 21 1)
  let (thresh, n7) := held 24 120 (d.operand 22 1)
  let (v, n8) := held 1 15 (d.operand 23 1 % 16)
  let (m, n9) := held 1 v (d.operand 23 1 / 16)
  let (chan, n10) := held 0 319 (d.operand 24 2)
  let fl := d.operand 26 1
  (⟨d.operand 0 1 = 1, code, svid, slot, centre, half, w, start, cells, n, coh * non, thresh, v, m, chan, bit fl 0, bit fl 2⟩,
    n0 + n1 + n2 + b2n (w ≠ d.operand 10 2) + n3 + n4 + n5 + n6 + n7 + n8 + n9 + n10)

/-- GNS_ACQ (R154, R157). A search on an antenna that is not enabled completes `SIG_OFF` as one for a signal that is not (DESIGN
CHOICE, log entry 82). -/
def execGnsAcq (dt ring index : Nat) (s : State) : Result :=
  .next ((s.elapse dt).withDesc ring index opGnsAcq (fun _ => true) fun s d =>
    match s.gnsStop with
    | some st => s.complete d st
    | none =>
      if 1 < d.operand 0 1 then s.complete d St.badDesc
      else if d.operand 0 1 = 1 && s.id.part = .mg7716 then s.complete d St.noUnit
      else
        let (r, n) := acqOperand d
        let (s, d) := s.noteClamps d n
        if !s.sigOn r.code || !s.antOn r.antB then s.complete d St.sigOff
        else if s.gns.running.length < s.acqUnits then
          { s with gns := { s.gns with running := s.gns.running ++ [(d.serial, s.clk.counter)] } }.wait d
        else if s.gns.queue.length < 64 then
          { s with gns := { s.gns with queue := s.gns.queue ++ [d.serial] } }.wait d
        else s.complete d St.busy)

/-- Cells between two cells of a code period, the shorter way round. -/
def cellDist (cells a b : Nat) : Nat := min ((a + cells - b % cells) % cells) ((b + cells - a % cells) % cells)

/-- The powers of window `w`, each with its cell; cells at or beyond the `n`-th are dropped (R155). -/
def AcqReq.window (r : AcqReq) (w : Nat) (powers : List Nat) : List (Nat × Nat) :=
  (List.range (min 2048 (r.n - 2048 * w))).map fun i => ((r.start + 2048 * w + i) % r.cells, powers.getD i 0)

/-- The strongest cell, the first of equals. -/
def peakOf (l : List (Nat × Nat)) : Nat × Nat := l.foldl (fun b x => if b.2 < x.2 then x else b) (l.headD (0, 0))

/-- Peak cell of a dwell, and 10 log₁₀ of its power over the mean of the cells outside ±3 of it, where both are above 0. -/
def AcqReq.dwell (r : AcqReq) (w : Nat) (powers : List Nat) : Nat × Option Rat :=
  let l := r.window w powers
  let p := peakOf l
  let rest := l.filter fun x => 3 < cellDist r.cells x.1 p.1
  (p.1, dB (ratioOr ((p.2 * rest.length : Nat) : Rat) ((rest.map fun x => x.2).sum : Nat) 0))

/-- A dwell's peak reaches the threshold. -/
def AcqReq.detects (r : AcqReq) (x : Option Rat) : Bool := x.any fun v => (r.thresh : Rat) / 4 ≤ v

/-- The re-dwells of a verification on one window: passed, and dwells used. `v` re-dwells are left and `m` passes needed. -/
def AcqReq.verify (r : AcqReq) (w c : Nat) : Nat → Nat → List (List Nat) → Bool × Nat
  | 0, m, _ => (m = 0, 0)
  | v + 1, m, l =>
    if m = 0 then (true, 0)
    else if v + 1 < m then (false, 0)
    else
      let (k, x) := r.dwell w (l.headD [])
      let (ok, n) := r.verify w c v (if r.detects x && cellDist r.cells k c ≤ 1 then m - 1 else m) l.tail
      (ok, n + 1)

/-- The search of R155 over its bins and windows: the best verified peak (cell, Doppler, dB), and dwells used. -/
def AcqReq.search (r : AcqReq) :
    List (Int × Nat) → List (List Nat) → Option (Nat × Int × Rat) → Nat → Option (Nat × Int × Rat) × Nat
  | [], _, best, used => (best, used)
  | (f, w) :: rest, l, best, used =>
    let (c, x) := r.dwell w (l.headD [])
    if !r.detects x then r.search rest l.tail best (used + 1)
    else
      let (ok, n) := r.verify w c r.v r.m l.tail
      let v := x.getD 0
      let best' := if ok && (match best with | some b => decide (b.2.2 < v) | none => true) then some (c, f, v) else best
      if ok && r.stopFirst then (best', used + 1 + n) else r.search rest (l.tail.drop n) best' (used + 1 + n)

/-- Bins 0, +1, −1, +2, …, and each bin's windows in turn. -/
def AcqReq.steps (r : AcqReq) : List (Int × Nat) :=
  let jmax := r.halfSpan / r.width
  let js : List Int := 0 :: ((List.range jmax).map fun (k : Nat) => [(k + 1 : Int), -(k + 1 : Int)]).flatten
  (js.map fun j => (List.range ((r.n + 2047) / 2048)).map fun w => (r.centre + j * r.width, w)).flatten

/-- Waiting searches take the units that are free (R157). -/
def State.nextSearch (s : State) : State :=
  let k := s.acqUnits - s.gns.running.length
  { s with gns := { s.gns with
    running := s.gns.running ++ (s.gns.queue.take k).map fun (q : Nat) => (q, s.clk.counter)
    queue := s.gns.queue.drop k } }

/-- A descriptor's search ends with an outcome (R156). -/
def State.acqEnd (s : State) (d : Desc) (r : AcqReq) (best : Option (Nat × Int × Rat)) (used : Nat) : State :=
  let s := match best with
    | none =>
      { s with free := s.free + 1 }.complete d St.notFound (leBytes 4 0xFFFFFFFF ++
        leBytes 6 (Config.freeBits 12 s.free 48).toNat ++ leBytes 2 used)
    | some (c, f, x) =>
      let res := leBytes 4 c ++ leBytes 4 (unsigned 32 f) ++ leBytes 2 (roundRat (4 * x)).toNat ++ leBytes 2 used
      if !r.track then s.complete d St.ok res
      else if (s.chan r.chan).state ≠ ChanState.idle then s.complete d St.chanBusy res
      else if s.chanB r.chan ≠ r.antB || !s.antOn r.antB then s.complete d St.chanAnt res
      else (s.startDefault r.chan r.code r.svid r.slot ((c : Rat) / 2) f).complete d St.ok res
  s.nextSearch

/-- The channel for a signal that `AUTO` has found: the `LOST` one of that signal, else the first idle one from AUTO_BASE (R157,
R161). -/
def State.autoChan (s : State) (antB : Bool) (code svid : Nat) : Option Nat :=
  let mine := fun k => s.chanB k = antB && (s.chan k).sig = code && (s.chan k).svid = svid
  let l := (List.range 320).filter mine
  if l.any fun k => (s.chan k).state = ChanState.pullIn || (s.chan k).state = ChanState.tracking then none
  else match l.find? fun k => (s.chan k).state = ChanState.lost with
    | some k => some k
    | none => (List.range 320).find? fun k => s.act F.GNS_CTRL_AUTO_BASE ≤ k && s.chanB k = antB && decide ((s.chan k).state = ChanState.idle)

/-- Where a search under `AUTO` begins: Doppler and half-chip cell. The prediction is the satellite's, a free value (log entry 70). -/
structure AutoPlan where
  doppler : Option Int
  cell : Option Nat

/-- What the start mode predicts (R150), and for a channel that is `LOST` the Doppler (R161); in `HOLDOVER` a lost channel has the
predictions of the start mode alone (R172). -/
def State.autoPlan (s : State) (lost : Bool) : AutoPlan :=
  let mode := s.gns.start.getD 0
  let doppler : Bool := 1 ≤ mode || (lost && s.tb.quality ≠ .holdover)
  ⟨if doppler then some (Config.freeInt 24 s.free) else none, if mode = 2 then some (Config.freeInt 24 (s.free + 1)).natAbs else none⟩

/-- `AUTO` has found a signal: what is not predicted is swept from ±5,000 Hz of zero and over the whole code. -/
def State.autoStart (s : State) (k code svid : Nat) (slot : Int) (cell : Nat) (offset : Int) : State :=
  let p := s.autoPlan ((s.chan k).state = ChanState.lost)
  let s := { s with free := s.free + 2 }
  if p.doppler.isNone && 5000 < offset.natAbs then s
  else
    let cells := 2 * (sigOf code).chips
    s.startDefault k code svid slot ((((p.cell.getD 0 + cell) % cells : Nat) : Rat) / 2) ((p.doppler.getD 0 + offset : Int) : Rat)

def execGnsAcqDone (dt : Nat) (search : AcqEnd) (s : State) : Result :=
  let s := s.elapse dt
  .next (if !s.gnsRuns then s
    else match search with
    | .host ring index dwells =>
      match s.waitingAt ring index opGnsAcq with
      | some d =>
        match s.gns.running.find? fun q => q.1 = d.serial with
        | some q =>
          let r := (acqOperand d).1
          let (best, used) := r.search r.steps dwells none 0
          if s.clk.counter < q.2 + used * r.dwellMs * tickMs then s else s.acqEnd d r best used
        | none => s
      | none => s
    | .auto antenna code svid slot cell offset =>
      let antB := antenna = 1
      let (lo, hi) := svidRange (code / 16)
      if s.act F.GNS_CTRL_MODE = 1 || !s.antOn antB || (sigFind code).isNone || !s.sigOn code || svid < lo || hi < svid then s
      else match s.autoChan antB code svid with
        | some k => s.autoStart k code svid slot cell offset
        | none => s)

/-! ### Channels (R159 to R161) -/

/-- The loop fields of a GNS_CHAN_CFG for a signal, and the clamps made. COH above the limit of R147 is kept as asked for and held where
it is used; it is no clamp of R44 (DESIGN CHOICE, log entry 82). -/
def loopOperand (d : Desc) (g : SigDef) : LoopCfg × Nat :=
  let (sp, n0) := held 2 (if g.boc then 48 else 128) (d.operand 7 1)
  let (coh, n1) := held 1 100 (d.operand 8 1)
  let (pll, n2) := held 4 160 (d.operand 9 1)
  let (fll, n3) := held 1 40 (d.operand 10 1)
  let (drop, n4) := held 15 40 (d.operand 11 1)
  let (dll, n5) := held 1 500 (d.operand 12 2)
  -- PLL_DISC 3 is read as 1 and DLL_DISC 3 as 0 (R42, R160)
  let loop := d.operand 6 1
  let p3 : Bool := bits loop 2 2 = 3
  let d3 : Bool := bits loop 4 2 = 3
  let loop := loop - (if p3 then 8 else 0) - (if d3 then 48 else 0)
  (⟨loop, sp, coh, pll, fll, drop, dll, false⟩, n0 + n1 + n2 + n3 + n4 + n5 + b2n p3 + b2n d3)

/-- A GNS_CHAN_CFG on its channel: what stops it comes first. -/
def State.chanCfg (s : State) (d : Desc) (f : State → Desc → Nat → State) : State :=
  match s.gnsStop with
  | some st => s.complete d st
  | none =>
    let (c, n) := held 0 319 (d.operand 0 2)
    let (s, d) := s.noteClamps d n
    if !s.antOn (s.chanB c) then s.complete d St.chanAnt else f s d c

def execGnsChanStart (dt ring index : Nat) (s : State) : Result :=
  .next ((s.elapse dt).withDesc ring index opGnsChan (fun d => d.operand 2 1 = 0) fun s d =>
    s.chanCfg d fun s d c =>
      let (code, svid, slot, n) := sigOperand d 3
      let (cfg, m) := loopOperand d (sigOf code)
      let (s, d) := s.noteClamps d (n + m)
      (s.startChan c code svid slot cfg ((d.operand 16 4 : Rat) / 256) ((signed 32 (d.operand 20 4) : Rat) / 4096)).complete d St.ok)

def execGnsChanRelease (dt ring index : Nat) (s : State) : Result :=
  .next ((s.elapse dt).withDesc ring index opGnsChan (fun d => d.operand 2 1 = 1) fun s d =>
    s.chanCfg d fun s d c => (s.modChan c fun _ => Chan.reset).complete d St.ok)

/-- ACTION 2; an unassigned ACTION completes `BAD_DESC` (R42). -/
def execGnsChanRetune (dt ring index : Nat) (s : State) : Result :=
  .next ((s.elapse dt).withDesc ring index opGnsChan (fun d => 2 ≤ d.operand 2 1) fun s d =>
    if 2 < d.operand 2 1 && s.gnsStop.isNone then s.complete d St.badDesc
    else s.chanCfg d fun s d c =>
      if (s.chan c).state = .idle then s.complete d St.chanIdle
      else
        let (cfg, n) := loopOperand d (sigOf (s.chan c).sig)
        let (s, d) := s.noteClamps d n
        (s.modChan c fun k => { k with cfg := cfg }).complete d St.ok)

/-- A channel's coherent interval ends once it has lasted (R158, R160). -/
def execGnsLoopUpdate (dt chan : Nat) (input : LoopIn) (s : State) : Result :=
  let s := s.elapse dt
  let c := s.chan chan
  .next (if s.gnsRuns && (c.state = .pullIn || c.state = .tracking) && c.upd + c.cohMs * tickMs ≤ s.clk.counter then
      s.loopUpdate chan input
    else s)

/-- Counter ticks of a moment that has lasted at least `n` ticks. -/
def State.lasted (s : State) (since : Option Nat) (n : Nat) : Bool := since.any fun t => t + n ≤ s.clk.counter

def execGnsChanTracking (dt chan : Nat) (s : State) : Result :=
  let s := s.elapse dt
  let c := s.chan chan
  .next (if s.gnsRuns && c.state = .pullIn && s.lasted c.lockAt (100 * tickMs) && (c.pilot || c.bitSync) then
      s.modChan chan fun k => { k with state := .tracking }
    else s)

/-- A channel is lost, or released by a commit (R149, R161). GNS_CHAN_LOST's row carries nothing: the reason is the channel's
own state afterwards, `LOST` or free (R173, R437, R504). -/
def State.chanGone (s : State) (chan : Nat) (config : Bool) : State :=
  let s := s.modChan chan fun k => if config then Chan.reset else { k with state := .lost }
  s.raise Ev.gnsChanLost 0 []

def execGnsChanLost (dt chan : Nat) (s : State) : Result :=
  let s := s.elapse dt
  let c := s.chan chan
  .next (if s.gnsRuns && (c.state = .pullIn || c.state = .tracking) &&
        (s.lasted c.weakAt tickS || s.lasted c.lowAt (500 * tickMs)) then
      let s := s.chanGone chan false
      if s.act F.GNS_CTRL_MODE = 1 then s.modChan chan fun _ => Chan.reset else s
    else s)

/-! ### Gain and NOSIG (R143) -/

/-- Gains of the fitted front ends from `fe` on are reported. NOSIG clears where one of an antenna's is below 59 dB (R143). -/
def State.setGains (s : State) (fe : Nat) (gains : List Nat) : State :=
  let gains := if s.id.part = .mg7716 then gains.take (3 - fe) else gains
  let g := (List.range gains.length).foldl (fun t i => tset t 0 (fe + i) (min 240 (gains.getD i 0))) s.gns.gains
  let rail := fun (f : Nat) (old : Option Nat) =>
    if (List.range 3).all fun i => tget g 0 (f + i) = 240 then some (old.getD s.clk.counter) else none
  let low := fun (f : Nat) => (List.range 3).any fun i => tget g 0 (f + i) < 236
  { s with gns := { s.gns with
    gains := g, railA := rail 0 s.gns.railA, railB := rail 3 s.gns.railB
    nosigA := s.gns.nosigA && !low 0, nosigB := s.gns.nosigB && !low 3 } }

def execGnsNosig (dt : Nat) (antB : Bool) (gains : List Nat) (s : State) : Result :=
  let s := s.elapse dt
  .next (if !s.gnsRuns || !s.antOn antB then s
    else
      let s := s.setGains (if antB then 3 else 0) (gains.take 3)
      if antB then
        if !s.gns.nosigB && s.lasted s.gns.railB tickS then
          ({ s with gns := { s.gns with nosigB := true } }).raise Ev.gnsNosig 0 []
        else s
      else if !s.gns.nosigA && s.lasted s.gns.railA tickS then
        ({ s with gns := { s.gns with nosigA := true } }).raise Ev.gnsNosig 0 []
      else s)

def execGnsNosigClear (dt : Nat) (antB : Bool) (gains : List Nat) (s : State) : Result :=
  let s := s.elapse dt
  .next (if s.gnsRuns then s.setGains (if antB then 3 else 0) (gains.take 3) else s)

/-! ### Epochs and records (R162 to R167) -/

def execGnsMeasEpoch (dt : Nat) (s : State) : Result :=
  let s := s.elapse dt
  .next (if s.epochDue && !s.commitWaits s.epochAt then s.latchEpoch else s)

/-- The 40 bytes of an entry. -/
def Entry.bytes (e : Entry) : List Byte :=
  leBytes 1 e.sig ++ leBytes 1 e.svid ++ leBytes 1 (unsigned 8 e.slot) ++
  leBytes 1 (b2n e.rangeValid + 2 * b2n e.phaseValid + 4 * b2n e.halfAmb + 8 * b2n e.halfCorr + 16 * b2n e.pilot +
    32 * b2n e.excluded) ++
  leBytes 2 e.chan ++ leBytes 1 e.lli ++ leBytes 1 0 ++ leBytes 8 e.psr ++ leBytes 8 (unsigned 64 e.phase) ++
  leBytes 4 (unsigned 32 e.doppler) ++ leBytes 2 e.cn0 ++ leBytes 2 e.codeSd ++ leBytes 4 e.lockMs ++ leBytes 4 0

/-- The bytes of a record, padded to a multiple of 64 (R165). -/
def MeasRec.bytes (r : MeasRec) : List Byte :=
  let b := leBytes 8 r.epoch ++ leBytes 1 (b2n r.antB) ++ leBytes 1 r.quality ++ leBytes 2 r.entries.length ++
    leBytes 4 r.seq.toNat ++ leBytes 4 (unsigned 32 r.clkOfs) ++
    leBytes 4 (b2n r.clkStep + 2 * b2n r.leapKnown + 4 * b2n r.timeValid) ++ leBytes 1 r.leap ++ leBytes 7 0 ++
    (r.entries.map Entry.bytes).flatten
  padTo ((b.length + 63) / 64 * 64) b

/-- A wrap header: COUNT 0xFFFF, its other bytes free (log entry 3). -/
def wrapHeader (n : Nat) : List Byte :=
  leBytes 10 (Config.freeBits 18 n 80).toNat ++ leBytes 2 0xFFFF ++ leBytes 20 (Config.freeBits 18 (n + 1) 160).toNat

/-- A record goes to the buffer, or is dropped where it would reach the reader (R166). Where a commit has made the buffer smaller than
the write offset, the next record goes to offset 0 without a wrap header (DESIGN CHOICE, log entry 83). -/
def State.writeMeas (s : State) (r : MeasRec) : State :=
  let b := r.bytes
  let size := 65536 * s.act F.GNS_MEAS_BUF_SIZE_SIZE
  let base := 4096 * s.act F.GNS_MEAS_BUF_BASE_FRAME
  let wr := s.gns.wr
  let rd := s.reg F.GNS_MEAS_RD_OFFSET
  let room := if wr < rd then rd - wr else size + rd - wr
  let wrap : Bool := size < wr + b.length
  let need := if wrap then size - wr + b.length else b.length
  if room ≤ need then
    ({ s with gns := { s.gns with drops := min 0xFFFF (s.gns.drops + 1), ovf := true } }).raise Ev.gnsMeasDrop 0 []
  else
    let s := if wrap && wr < size then { s with free := s.free + 2 }.dramWrite (base + wr) (wrapHeader s.free) else s
    let at' := if wrap then 0 else wr
    { s with gns := { s.gns with wr := (at' + b.length) % size } }.dramWrite (base + at') b

/-! ### The time solution (R168, R169) -/

/-- The solution of a whole second: TIME_VALID and the offsets; e in ns and its uncertainty when it succeeds. A fault test that is
not event-only leaves its satellites out (R180). The offset is local less reference, so e is its negative, less A_DELAY (log entry
32); the offset of a system is its time less the reference's. -/
def State.solveTime (s : State) (a : List Entry) (x : MeasIn) : State × Option (Rat × Nat) :=
  match s.timeFix a x with
  | some f =>
    let at' := fun (k : Nat) => (f.offsets.find? fun o => o.1 = k).map fun o => o.2
    let off : Rat := ((at' f.ref).getD 0) / lightSpeed * 1000000000
    let ofs : Tbl Int := (List.range 7).foldl (fun t k => match at' k with
      | some y => tput t k (roundRat (100 * (off - y / lightSpeed * 1000000000)))
      | none => t) []
    let e : Rat := -off - (s.reg F.GNS_TIME_CAL_A_DELAY : Rat) / 10
    ({ s with gns := { s.gns with
        timeValid := true, clkOfs := clampInt (-(2 ^ 31)) (2 ^ 31 - 1) (roundRat (1000 * off)), sysOfs := ofs, refSys := f.ref } },
      some (e, (3 * f.sigma / lightSpeed * 1000000000).ceil.toNat + s.reg F.GNS_TIME_CAL_A_UNC))
  | none =>
    let was := s.gns.timeValid
    let s := { s with gns := { s.gns with timeValid := false } }
    (if was then s.raise Ev.gnsTimeFail 0 [] else s, none)

/-! ### The self-survey (R171) -/

/-- σ of the survey in mm, saturating; 0xFFFF before a whole minute has passed (log entry 33). -/
def surveySigma (v : Survey) (minutes : Nat) : Nat :=
  if minutes = 0 ∨ v.n = 0 then 0xFFFF
  else
    let n : Rat := v.n
    let var := (v.sumSq : Rat) / n - (sq3 v.sum : Rat) / (n * n)
    min 0xFFFF (roundRat (sqrtR (maxR 0 var / minutes))).toNat

/-- One second of the survey (R171). A survey that has had no position when DURATION has passed has no mean; it goes on until one comes
(DESIGN CHOICE, log entry 82). -/
def State.surveySecond (s : State) (spp : Option (Int × Int × Int)) : State :=
  if s.gns.base ≠ .surveying then s
  else
    let v := s.gns.survey
    let v := match spp with
      | none => v
      | some p =>
        if v.n = 0 then { v with n := 1, first := p, sum := (0, 0, 0), sumSq := 0 }
        else
          let d := sub3 p v.first
          { v with n := v.n + 1, sum := add3 v.sum d, sumSq := v.sumSq + (sq3 d).toNat }
    let minutes := (s.clk.counter - v.since) / (60 * tickS)
    let sg := surveySigma v minutes
    let s := { s with gns := { s.gns with survey := v, elapsed := min 0xFFF minutes, sigma := sg } }
    if 0 < v.n && (s.act F.GNS_SURVEY_CTRL_DURATION ≤ minutes || (0 < minutes && sg ≤ s.act F.GNS_SURVEY_CTRL_TARGET)) then
      let q := fun (a b : Int) => a + roundRat ((b : Rat) / v.n)
      ({ s with gns := { s.gns with
        base := .surveyed
        mean := (q v.first.1 v.sum.1, q v.first.2.1 v.sum.2.1, q v.first.2.2 v.sum.2.2) } }).raise Ev.gnsSurveyDone 0 []
    else s

/-- The record of one antenna. -/
def State.measRec (s : State) (l : Latch) (antB : Bool) (seq : Word) (entries : List Entry) : MeasRec :=
  { epoch := l.tr, antB := antB, quality := l.quality, seq := seq, clkOfs := s.gns.clkOfs, clkStep := s.gns.stepFlag && !l.old,
    leapKnown := s.gns.leap.isSome, timeValid := s.gns.timeValid, leap := s.gns.leap.getD 0,
    entries := entries.map fun e => { e with excluded := s.sigExcluded e.key } }

/-- The records of an epoch are complete: they go to the buffer, the Mirage Monitor and the Fix Engine, with the solutions of a
whole second (R162, R166 to R171, R174). -/
def State.deliver (s : State) (l : Latch) (x : MeasIn) : State :=
  let both := s.antOn true
  let ra := s.measRec l false s.gns.seqA l.a
  let rb := s.measRec l true s.gns.seqB l.b
  let s := { s with gns := { s.gns with
    latched := none, stepFlag := s.gns.stepFlag && l.old
    seqA := s.gns.seqA + 1, seqB := if both then s.gns.seqB + 1 else s.gns.seqB } }
  let s := s.setGains 0 (x.gains.take 6)
  let s := s.writeMeas ra
  let s := if both && s.act F.GNS_MEAS_CTRL_REC_B = 1 then s.writeMeas rb else s
  let second : Bool := l.tr % 1000000000 = 0
  let (s, sol) := if second then s.solveTime ra.entries x else (s, none)
  let e := sol.map fun v => v.1
  let jumped := s.clkJumped e
  let s := s.mirRecord l.tr ra.entries (if both then rb.entries else []) both second sol.isSome e x
  let s := match sol with
    | some (e, unc) => if l.old || s.withheld jumped ra.entries x then s else s.sample 0 (roundRat e) unc
    | none => s
  let s := if second then s.surveySecond (s.singlePosition ra.entries x) else s
  let s := if s.gns.nosigA then s.fixMissed l.tr else s.fixRecord ra
  let s := s.raise Ev.gnsMeasReady 0 []
  if both then s.raise Ev.gnsMeasReady 0 [] else s

def execGnsMeasReady (dt : Nat) (input : MeasIn) (s : State) : Result :=
  let s := s.elapse dt
  .next (match s.gns.latched with
    | some l => if s.gnsRuns then s.deliver l input else s
    | none => s)

end Sys2Proof.Machine
end

