-- ==== Sys2Proof/Machine/Hop.lean ====
section
/-! DEFINITION. The Hop Sequencer's commands: superframes and slots, joins, uplinks, node polls and pendant stops, HOP_SEND and
HOP_RECV (R10, R224 to R267, R338 to R340, R549, R550). -/

namespace Sys2Proof.Machine

/-! ### Slots -/

/-- First instant of a slot, ns. -/
def State.slotAt (s : State) (p asn : Nat) : Nat := asn * s.slotNs p

/-- Last instant of the span that a slot heads. -/
def State.spanEnd (s : State) (p : Nat) (c : CurSlot) : Nat :=
  s.slotAt p c.asn + stSpan (s.hopPort p).table c.index * s.slotNs p

/-- The guard of a scheduled machine slot. -/
def State.machGuard (s : State) (p : Nat) : Nat := if s.narrow p then 100000 else 10000

/-- The port listens in a slot, from `a` to `b` ns after its start; the front-end lines take the RX pattern as its receive window
opens, after the ramp down of a frame that is still on the air (R231). -/
def State.listenIn (s : State) (p asn i : Nat) (l : Option Listen) (a b : Nat) : State :=
  let busy := (s.hopPort p).busy
  let a := if busy = 0 then a else max a (busy + 2000 - s.slotAt p asn)
  let s := s.modHop p fun h => { h with cur := some ⟨asn, s.slotAt p asn / sfNs, i, l, a, b, false, false, none⟩ }
  if l.isSome then s.frontEnd p (s.slotAt p asn + a) F.RAD_PORT_CTRL_FEM_RX else s

/-- The slot is taken with nothing to hear. -/
def State.enterSlot (s : State) (p asn i : Nat) : State := s.listenIn p asn i none 0 0

/-! ### Link loss and the end of a slot (R253, R260) -/

/-- A machine is declared LINK_LOST (R253). -/
def State.linkLost (s : State) (m : Nat) : State :=
  let s := s.modMach m fun l => { l with state := .linkLost, missed := 0 }
  let s := (s.releaseClaims fun _ c => c.machine = m).freezeLost m
  let s := s.abandonAsm m Ab.linkLost
  let s := { s with
    fix := { s.fix with filters := tmod s.fix.filters RoverFilter.reset m fun f => { f with fresh := true } }
    stp := { s.stp with lostSince := s.stp.lostSince ||| (1 <<< m) } }
  s.raise Ev.hopLinkLost 0 []

/-- The slot's bookkeeping. MISSED stands still while the latch is set. -/
def State.finishSlot (s : State) (p : Nat) : State :=
  match (s.hopPort p).cur with
  | none => s
  | some c =>
    if s.now < s.spanEnd p c then s
    else
      let s := s.modHop p fun h => { h with cur := none }
      let s := if c.listen.isSome then s.frontEnd p (s.spanEnd p c) F.RAD_PORT_CTRL_FEM_IDLE else s
      match c.listen with
      | some (.machine m true) =>
        if s.stp.latched || (s.hopPort p).storm || !s.joined m then s
        else if c.good then s.modMach m fun l => { l with missed := 0 }
        else if 2 ≤ (s.machLink m).missed then s.linkLost m
        else s.modMach m fun l => { l with missed := l.missed + 1 }
      | some (.node k) =>
        if c.good then s.modNode k fun n => { n with missed := 0 }
        else
          let s := s.modNode k fun n => { n with missed := n.missed + 1 }
          if ntLegacy s.hop.nodeTable k && (s.nodeLink k).missed = 3 then s.raise Ev.hopNodeMissed 0 [] else s
      | _ => s

/-! ### Answers (R250, R251, R256, R261) -/

/-- Keys of a pending commit for a port: GROUP, STOP. -/
def State.pendingKeys (s : State) (p : Nat) : Option (Nat × Nat) :=
  s.tb.launches.findSome? fun l => match l.kind with
    | .commit c => if c.mask.getLsbD U.hop then
        some (c.snap.get F.HOP_PORT_KEYS_GROUP p, c.snap.get F.HOP_PORT_KEYS_STOP p) else none
    | .desc .. => none

/-- A machine is accepted: it is `JOINED`, and its schedule is queued, with what is pending (R236, R251, R254). -/
def State.acceptMachine (s : State) (p m : Nat) (rejoin : Bool) : State :=
  let was := (s.machLink m).state
  let s := s.modMach m fun l => { l with state := .joined, missed := 0, port := p }
  let s := s.raise Ev.hopJoin 0 []
  let s := if rejoin || was ≠ .notJoined then s.raise Ev.hopRejoin 0 [] else s
  let s := s.queueSched p m 0 (s.narrow p) (s.act F.HOP_PORT_CTRL_DATA_MODE p) (s.hopPort p).table false
  match (s.hopPort p).announce, s.pendingKeys p with
  | some a, some (g, k) => s.announceTo p m a g k ((s.hopPort p).keyGen.toNat + 1)
  | _, _ => s

/-- The address and join secret of a request that is accepted, or its refusal STATUS (R251). -/
def State.joinStatus (s : State) (eui flags : Nat) : Nat ⊕ Nat :=
  if s.stp.latched || bit flags 8 then .inr 3
  else if s.reg F.HOP_JOIN_OPEN = 0 then .inr 2
  else if bit flags 1 then
    match s.nodeByEui eui with
    | some k => .inl (ntShort s.hop.nodeTable k)
    | none => .inr 1
  else match s.machineByEui eui with
    | some m => .inl m
    | none => .inr 1

/-- The response of R251 is made, with what an acceptance does; none where a key is missing. `tx` is the TX point of its first
segment: an accepted node's t_c until a later segment goes (R258). -/
def State.makeJoin (s : State) (p eui : Nat) (nonce : List Byte) (flags asn tx : Nat) : State × Option (Nat × List Byte) :=
  let head := euiBytes eui ++ nonce
  match s.joinStatus eui flags with
  | .inr st => (s.raise Ev.hopJoinRefused 0 [], some (st, head ++ leBytes 1 st))
  | .inl addr =>
    match s.joinKey eui with
    | none => (s.countOrphan (s.act F.HOP_KEYS_JOIN_ROOT), none)
    | some j =>
      let keys := s.sessionKeys j nonce (asn % 2 ^ 40)
      let s := { s with key := { s.key with link := tput s.key.link addr keys }, free := s.free + 3 }
      match s.wrapKeys addr (s.act F.HOP_PORT_KEYS_GROUP p) (s.act F.HOP_PORT_KEYS_STOP p) with
      | none => ((s.countOrphan (s.act F.HOP_PORT_KEYS_GROUP p)).countOrphan (s.act F.HOP_PORT_KEYS_STOP p), none)
      | some w =>
        let t := (s.hopPort p).table
        let resp := head ++ [0] ++ leBytes 2 addr ++ leBytes 1 (s.hopPort p).keyGen.toNat ++ w ++
          leBytes 1 (stHopLen t) ++ leBytes 1 (stRdv t) ++ slice t 16 (stHopLen t)
        let s := if addr < 256 then s.acceptMachine p addr (bit flags 0)
          else match s.nodeByShort addr with
            | some k => (s.modNode k fun n => { n with joined := true, unsynced := false, missed := 0, tc := tx }).raise Ev.hopJoin 0 []
            | none => s
        (s, some (0, resp))

/-- Replace the answer at the head of a slot's queue, or take it out. -/
def swapAnswer (a : Answer) (by' : Option Answer) : List Answer → List Answer
  | [] => []
  | b :: r => if a = b then by'.toList ++ r else b :: swapAnswer a by' r

/-- Slot of an answer, and superframe of what it answers. -/
def Answer.slot : Answer → Nat
  | .join s .. => s
  | .ack s .. => s

def Answer.asked : Answer → Nat
  | .join _ _ _ _ _ sf _ _ => sf
  | .ack _ _ sf => sf

/-- The oldest downlink of a node that fits, and whether more wait (R256). -/
def State.nodeDl (s : State) (k room : Nat) : Option DlBlock × Bool :=
  let l := s.hop.queue.filter fun b => b.addr = ntShort s.hop.nodeTable k
  match l with
  | [] => (none, false)
  | b :: r => if b.body.length ≤ room then (some b, !r.isEmpty) else (none, true)

/-- A NODE_ACK goes out at a TX point; an exchange is complete with it (R256, R257, R261). -/
def State.sendAck (s : State) (p ch asn nominal mode room k : Nat) : State × Bool :=
  match s.sessionOf (ntShort s.hop.nodeTable k) with
  | none => (s.precompMiss, true)
  | some keys =>
    let (b, more) := s.nodeDl k (room - 15)
    let body := leBytes 1 (b2n b.isSome + 2 * b2n more) ++ (b.map DlBlock.body).getD []
    let at' := s.txStart p nominal
    match s.sendSealed p ch asn nominal mode FT.nodeAck 1 (ntShort s.hop.nodeTable k) keys.dn.value body with
    | (s, false) => (s, false)
    | (s, true) =>
      let s := match b with
        | some b => s.blockSent b
        | none => s
      let was := (s.nodeLink k).unsynced
      let s := s.modNode k fun n => { n with tc := at', unsynced := false }
      (if was then s.raise Ev.hopNodeResynced 0 [] else s, true)

/-- One answer goes out in its slot. -/
def State.sendAnswer (s : State) (p ch asn i : Nat) (a : Answer) : State :=
  let nominal := s.slotAt p asn + s.txPoint p
  let mode := s.slotMode p i
  let cap := s.slotCapacity p i
  let set := fun (s : State) (v : Option Answer) => s.modHop p fun h => { h with answers := swapAnswer a v h.answers }
  match a with
  | .ack _ k _ =>
    match s.sendAck p ch asn nominal mode cap k with
    | (s, true) => set s none
    | (s, false) => s
  | .join slot eui nonce flags rasn sf sent resp =>
    let (s, made) := match resp with
      | some r => (s, some r)
      | none => s.makeJoin p eui nonce flags rasn (s.txStart p nominal)
    match made, s.joinKey eui with
    | some (st, r), some j =>
      let seg := max 1 (cap - 15)
      let n := if st = 0 then min 4 ((r.length + seg - 1) / seg) else 1
      let part := leBytes 1 (sent + 4 * (n - 1)) ++ ((r.drop (sent * seg)).take seg)
      let at' := s.txStart p nominal
      match s.sendSealed p ch asn nominal mode FT.joinResp 1 0xFFFE (kdf j false Label.mgJoinDn [] 16) part with
      | (s, false) => set s (some (.join slot eui nonce flags rasn sf sent (some (st, r))))
      | (s, true) =>
        let s := match (if st = 0 && bit flags 1 then s.nodeByEui eui else none) with
          | some k => s.modNode k fun l => { l with tc := at' }
          | none => s
        set s (if sent + 1 < n then some (.join slot eui nonce flags rasn sf (sent + 1) (some (st, r))) else none)
    | _, _ => set s.precompMiss none

/-- The first answer due in a slot of an odd superframe; `onlyJoin` under the latch. -/
def State.answerDue (s : State) (p i sf : Nat) (onlyJoin : Bool) : Option Answer :=
  if sf % 2 = 0 then none
  else (s.hopPort p).answers.find? fun a => a.slot = i && a.asked < sf &&
    (!onlyJoin || (match a with | .join .. => true | .ack .. => false))

/-! ### Slot content (R231 to R233, R242 to R246, R249, R257) -/

/-- Bytes of the RTCM stream for a chunk, and the frames left (R246). -/
def takeChunk : List RtcmFrame → Nat → List Byte × List RtcmFrame
  | [], _ => ([], [])
  | f :: r, room =>
    let left := f.bytes.drop f.sent
    if room = 0 then ([], f :: r)
    else if room < left.length then (left.take room, { f with sent := f.sent + room, begun := true } :: r)
    else
      let (b, l) := takeChunk r (room - left.length)
      (left ++ b, l)

/-- A `CORRECTION` slot: the next chunk of the stream; at Mirage level 3 only a frame already begun goes on, and under FAULT of the
Fix Engine none (R200, R202, R222). -/
def State.sendCorrection (s : State) (p ch asn i : Nat) : State :=
  let q := tget s.fix.radio RadioQueue.reset p
  let go := if 3 ≤ s.mirLevel then q.frames.takeWhile fun f => f.begun else q.frames
  let rest := q.frames.drop go.length
  let room := s.slotCapacity p i - 17
  match (if s.fix.fault then [] else go) with
  | [] => s
  | f :: _ =>
    match s.groupKey p with
    | none => s.missUnder (s.act F.HOP_PORT_KEYS_GROUP p)
    | some k =>
      let (b, left) := takeChunk go room
      let body := leBytes 2 (s.hopPort p).cseq ++ leBytes 1 (b2n (f.sent = 0)) ++ b
      match s.sendSealed p ch asn (s.slotAt p asn + s.txPoint p) (s.slotMode p i) FT.correction 0 0xFFFF k body with
      | (s, false) => s
      | (s, true) =>
        let s := s.modHop p fun h => { h with cseq := (h.cseq + 1) % 65536 }
        { s with fix := { s.fix with radio := tset s.fix.radio RadioQueue.reset p ⟨left ++ rest, false⟩ } }

/-- A `DOWNLINK` slot (R249). -/
def State.sendDownlink (s : State) (p ch asn i : Nat) : State :=
  let s := s.dropUnfit p (s.hop.queue.length + 1)
  let blocks := s.chooseBlocks p (s.slotAt p asn) (s.slotCapacity p i - 14)
  match blocks with
  | [] => s
  | b :: _ =>
    match (if b.addr = 0xFFFF then s.groupKey p else (s.sessionOf b.addr).map fun k => k.dn.value) with
    | none => if b.addr = 0xFFFF then s.missUnder (s.act F.HOP_PORT_KEYS_GROUP p) else s.precompMiss
    | some key =>
      match s.sendSealed p ch asn (s.slotAt p asn + s.txPoint p) (s.slotMode p i) FT.downlink 1 b.addr key
          (blocks.map DlBlock.bytes).flatten with
      | (s, true) => blocks.foldl State.blockSent s
      | (s, false) => s

/-- The guard of a native node at a poll, in units of 10⁻⁶ ns (R257). -/
def State.nodeGuard (s : State) (p k tx : Nat) : Nat :=
  (if s.narrow p then 100000 else 10000) * 1000000 + s.act F.HOP_NODE_CTRL_DRIFT * (tx - (s.nodeLink k).tc)

/-- A `NODE_POLL` slot (R256, R257, R260): the device listens for the node scheduled in it. A node that can no longer be heard is
UNSYNCED from the instant of its poll; its event is raised as the slot begins (DEDUCED, log entry 46). -/
def State.openPoll (s : State) (p asn i sf : Nat) : State :=
  let t := s.hop.nodeTable
  let l := s.slotNs p
  let mid := l * 2 / 5
  match (List.range (ntCount t)).find? fun k => ntEn t k && ntPort t k = p && ntSlot t k = i && ntPolls t k sf &&
      (s.nodeLink k).joined && !(s.nodeLink k).unsynced with
  | none => s.enterSlot p asn i
  | some k =>
    if ntLegacy t k then
      let g := s.act F.HOP_NODE_CTRL_LEGACY_GUARD * 1000
      s.listenIn p asn i (some (.node k)) (mid - g) (mid + g)
    else
      let g := s.nodeGuard p k (s.slotAt p asn + mid)
      if mid * 1000000 < g then
        ((s.modNode k fun n => { n with unsynced := true, unsyncAt := s.clk.counter + mid / 4 }).enterSlot p asn i).raise
          Ev.hopNodeUnsynced 0 []
      else s.listenIn p asn i (some (.node k)) (mid - g / 1000000) (mid + g / 1000000)

/-- Contention: the window of R232. -/
def State.openShared (s : State) (p asn i : Nat) : State :=
  s.listenIn p asn i (some .shared) 0 (s.slotNs p * 4 / 5)

/-- An anchor beacon falls in this slot. -/
def State.anchorHere (s : State) (p i sf : Nat) : Bool :=
  stAnchor (s.hopPort p).table = i && sf % s.act F.HOP_CTRL_ANCHOR_PERIOD = 0

/-- What a slot sends or listens for during the Sandstorm (R245). -/
def State.stormSlot (s : State) (p asn i sf ch : Nat) : State :=
  let t := (s.hopPort p).table
  let tx := s.slotAt p asn + s.txPoint p
  let enter := fun (s : State) => if stInSpan t i then s else s.enterSlot p asn i
  if stType t i = ST.beacon then (s.enterSlot p asn i).sendBeacon p ch asn tx
  else if s.anchorHere p i sf then (enter s).sendAnchor p asn tx
  else if stType t i = ST.shared && sf % 2 = 0 then s.openShared p asn i
  else if stType t i = ST.shared then
    match s.answerDue p i sf true with
    | some a => (s.enterSlot p asn i).sendAnswer p ch asn i a
    | none => (s.enterSlot p asn i).sendStop p ch asn tx
  else (enter s).sendStop p ch asn tx

/-- The NODE_ACK of a synced poll, in slot `i` = `asn` of the span that follows the poll's slot (R256). -/
def State.ackInSpan (s : State) (p asn i k : Nat) : State :=
  let ch := stChannel (s.hopPort p).table i asn
  (s.sendAck p ch asn (s.slotAt p asn + s.slotNs p * 2 / 5) (s.slotMode p (i - 1)) (s.ackCapacity p (i - 1)) k).1

/-- What a slot sends or listens for otherwise. -/
def State.plainSlot (s : State) (p asn i sf ch : Nat) : State :=
  let t := (s.hopPort p).table
  let tx := s.slotAt p asn + s.txPoint p
  if s.anchorHere p i sf && stType t i ≠ ST.beacon then (s.enterSlot p asn i).sendAnchor p asn tx
  else match stType t i with
    | 1 => (s.enterSlot p asn i).sendBeacon p ch asn tx
    | 2 => (s.enterSlot p asn i).sendCorrection p ch asn i
    | 3 => (s.enterSlot p asn i).sendDownlink p ch asn i
    | 4 | 5 =>
      let m := stOwner t i
      let n := s.txPoint p
      let g := s.machGuard p
      if s.joined m && (s.machLink m).port = p then
        s.listenIn p asn i (some (.machine m (stType t i = ST.uplink))) (n - g) (n + g)
      else s.enterSlot p asn i
    | 6 =>
      match s.answerDue p i sf false with
      | some a => (s.enterSlot p asn i).sendAnswer p ch asn i a
      | none => s.openShared p asn i
    | 7 => s.openPoll p asn i sf
    | _ =>
      if !stInSpan t i then s.enterSlot p asn i
      else match (s.hopPort p).ackDue with
        | some (k, a) =>
          if a ≠ asn then s
          else
            (s.modHop p fun h => { h with ackDue := none }).ackInSpan p asn i k
        | none => s

/-! ### Reception (R231, R232, R238, R550) -/

/-- The slot in which a port has received a frame whose preamble arrived `time` ns after the slot's start: within the window, before
that of any frame that the slot has, and with its end passed (R550). -/
def State.rxSlot (s : State) (p time len : Nat) : Option CurSlot :=
  if !s.radiosRun then none
  else (s.hopPort p).cur.filter fun c =>
    c.listen.isSome && !c.heard && c.open' ≤ time && time ≤ c.close && (c.got.all fun g => decide (time < g.1)) &&
      s.slotAt p c.asn + time + s.air p (s.slotMode p c.index) len ≤ s.now

/-- The slot has yielded a frame; an accepted one leaves its RSSI. -/
def State.heardFrame (s : State) (p rssi : Nat) (good : Bool) : State :=
  s.modHop p fun h => { h with
    cur := h.cur.map fun c => { c with heard := true, good := good, got := none }
    rssi := if good then BitVec.ofNat 8 rssi else h.rssi }

-- Fields of a radio frame.
def rfType (f : List Byte) : Nat := byteAt f 0 % 16
def rfEnc (f : List Byte) : Bool := bit (byteAt f 0) 4
def rfNet (f : List Byte) : Nat := fieldLE f 2 2
def rfAddr (f : List Byte) : Nat := fieldLE f 4 2

/-- A frame that R238 drops. -/
def State.badFrame (s : State) (p : Nat) : State := (s.heardFrame p 0 false).micFail p

/-- A machine's own solution (R248): recorded for position and comparison, and checked where CONF_SRC is `ROVER`. -/
def State.ownSolution (s : State) (m : Nat) (b : List Byte) : State :=
  if b.length < 28 then s
  else
    let o : OwnSol := ⟨nearest32 (fieldLE b 0 4) s.now, signed 32 (fieldLE b 4 4), signed 32 (fieldLE b 8 4),
      signed 32 (fieldLE b 12 4), fieldLE b 16 2, bits (byteAt b 18) 0 3, signed 32 (fieldLE b 20 4),
      signed 16 (fieldLE b 24 2), fieldLE b 26 2, s.now⟩
    let s := { s with sec := { s.sec with
      machs := tmod s.sec.machs SecMach.reset m fun x => { x with own := (o :: x.own).take 256 } } }
    if s.has U.car && !s.confCentral && (o.status = 3 || o.status = 4) then
      let h : Rat := (o.heading : Rat) / 65536
      s.conform m o.east o.north (sinTurn h) (cosTurn h) o.tag
    else s

/-- A SECTION_FEEDBACK block waits for the next epoch (R319). -/
def State.takeFeedback (s : State) (m : Nat) (b : List Byte) : State :=
  let n := clampNat 1 1024 (fieldLE b 8 2)
  if b.length < 10 || b.length < 10 + (n + 7) / 8 then s
  else { s with sec := { s.sec with feedback := s.sec.feedback ++ [⟨m, b, s.now⟩] } }

/-- One uplink block goes to its unit; `frag` is FRAG_BYTES of the slot (R247). -/
def State.deliverBlock (s : State) (p m asn frag type : Nat) (b : List Byte) : State :=
  match type with
  | 1 => s.ownSolution m b
  | 2 => s.takeFeedback m b
  | 3 => s.takeFragment m (b.take frag)
  | 4 => s.trackRequest m b
  | 5 => s.hostMessage p m (asn % 2 ^ 40) b
  | _ => s

/-- The blocks of an uplink body; one that runs past the end ends the list (R247). -/
def uplinkBlocks : Nat → List Byte → List (Nat × List Byte)
  | 0, _ => []
  | fuel + 1, b =>
    let n := byteAt b 1
    if b.length < 2 || b.length < 2 + n then [] else (byteAt b 0, (b.drop 2).take n) :: uplinkBlocks fuel (b.drop (2 + n))

/-- An UPLINK or OBSERVATION frame of the slot's owner. -/
def State.takeUplink (s : State) (p m rssi : Nat) (c : CurSlot) (f : List Byte) : State :=
  match s.sessionOf m with
  | none => s.badFrame p
  | some k =>
    match ccmOpen k.up.value (hopNonce (meEui (s.machine m)) c.asn) f true with
    | none => s.badFrame p
    | some body =>
      let s := (s.heardFrame p rssi true).modMach m fun l => { l with heldGen := some (byteAt body 0) }
      let s := (uplinkBlocks 1024 (body.drop 1)).foldl (fun s b => s.deliverBlock p m c.asn (stFrag (s.hopPort p).table c.index) b.1 b.2) s
      s.raise Ev.hopUplink m (leBytes 2 m ++ leBytes 1 p)

/-- A JOIN_REQ (R250). -/
def State.takeJoin (s : State) (p rssi : Nat) (c : CurSlot) (f : List Byte) : State :=
  let eui := beNat (slice f 6 8)
  if f.length < 28 then s.badFrame p
  else match s.joinKey eui with
    | none => (s.countOrphan (s.act F.HOP_KEYS_JOIN_ROOT)).badFrame p
    | some j =>
      match ccmOpen (kdf j false Label.mgJoinUp [] 16) (hopNonce eui c.asn) f false with
      | none => s.badFrame p
      | some b => (s.heardFrame p rssi true).modHop p fun h => { h with
          answers := h.answers ++
            [.join c.index eui (slice b 8 4) (byteAt b 12 + 256 * b2n s.stp.latched) c.asn c.sf 0 none] }

/-- A NODE_POLL has come from a node: in its own slot, or, while it is UNSYNCED, in contention, it is a poll of its superframe, and the
count of a pendant whose loss was requested starts again (R340). -/
def State.pollSeen (s : State) (k sf : Nat) (shared : Bool) : State :=
  let s := s.modNode k fun n => { n with
    missed := 0, polled := if shared && !n.unsynced then n.polled else some sf }
  ((List.range 16).filter fun n => s.act F.STP_PENDANT_NODE n = k && (tget s.stp.missed (0, false) n).2).foldl (fun s n =>
    { s with stp := { s.stp with missed := tset s.stp.missed (0, false) n (0, false) } }) s

/-- A node's poll is acknowledged in its span, or, from contention, in an odd superframe (R256, R261); during the latch it is
not answered. A poll that ends after its span's next slot has begun is acknowledged at once, while there is time. -/
def State.takePoll (s : State) (p k rssi : Nat) (c : CurSlot) (shared : Bool) (f : List Byte) : State :=
  match s.sessionOf (ntShort s.hop.nodeTable k) with
  | none => s.badFrame p
  | some keys =>
    match ccmOpen keys.up.value (hopNonce (ntEui s.hop.nodeTable k) c.asn) f true with
    | none => s.badFrame p
    | some body =>
      let s := (s.heardFrame p rssi true).pollSeen k c.sf shared
      let s := if bit (byteAt body 0) 1 then s.hostMessage p (ntShort s.hop.nodeTable k) (c.asn % 2 ^ 40) (body.drop 1) else s
      if (s.hopPort p).storm || s.stp.latched then s
      else if shared then s.modHop p fun h => { h with answers := h.answers ++ [.ack c.index k c.sf] }
      else if (s.hopPort p).served = some (c.asn + 1) then
        if s.now ≤ s.slotAt p (c.asn + 1) + s.slotNs p * 2 / 5 then s.ackInSpan p (c.asn + 1) (c.index + 1) k else s
      else s.modHop p fun h => { h with ackDue := some (k, c.asn + 1) }

/-- A PENDANT_STOP, in whatever slot the port listens (R338, R339; DEDUCED, log entry 46): one that fails its CMAC counts in MIC_FAIL
too (R238). -/
def State.takePendant (s : State) (p rssi : Nat) (c : CurSlot) (f : List Byte) : State :=
  let reject := ({ s.heardFrame p 0 false with stp := { s.stp with pendantReject := s.stp.pendantReject + 1 } }).raise
    Ev.stpPendantReject 0 []
  let asn := fieldLE f 6 5
  let who := (List.range 16).find? fun n => s.unitOn U.stp && s.act F.STP_PENDANT_EN n = 1 &&
    ntEn s.hop.nodeTable (s.act F.STP_PENDANT_NODE n) && ntShort s.hop.nodeTable (s.act F.STP_PENDANT_NODE n) = rfAddr f
  match who, s.readyKey (s.act F.STP_PENDANT_KEY_RECORD) with
  | some n, some k =>
    let eui := ntEui s.hop.nodeTable (s.act F.STP_PENDANT_NODE n)
    if f.length ≠ 24 || !(asn = c.asn % 2 ^ 40 || asn = (c.asn - 1) % 2 ^ 40) then reject
    else if cmac8 k (euiBytes eui ++ f.take 16) ≠ f.drop 16 then reject.micFail p
    else
      let s := s.heardFrame p rssi true
      let stop := bit (byteAt f 11) 0 && s.act F.STP_PENDANT_STOP_OK n = 1
      if s.stopSource F.STP_SRC_PENDANT then s.stopRequest Src.pendant stop none true else s
  | some _, none => (reject.countOrphan (s.act F.STP_PENDANT_KEY_RECORD)).micFail p
  | none, _ => reject

/-- The frame of a slot is taken (R238). -/
def State.takeFrame (s : State) (p rssi : Nat) (c : CurSlot) (f : List Byte) : State :=
  if rfNet f ≠ s.act F.HOP_CTRL_NET_ID then s.badFrame p
  else if rfType f = FT.pendantStop then s.takePendant p rssi c f
  else match c.listen, rfType f with
    | some (.machine m _), 5 => if rfAddr f = m && rfEnc f then s.takeUplink p m rssi c f else s.badFrame p
    | some (.node k), 8 =>
      if rfAddr f = ntShort s.hop.nodeTable k && rfEnc f then s.takePoll p k rssi c false f else s.badFrame p
    | some .shared, 6 => if rfEnc f then s.badFrame p else s.takeJoin p rssi c f
    | some .shared, 8 =>
      match (s.nodeByShort (rfAddr f)).filter fun k => (s.nodeLink k).joined with
      | some k => if rfEnc f then s.takePoll p k rssi c true f else s.badFrame p
      | none => s.badFrame p
    | _, _ => s.badFrame p

/-- A frame is received in the slot that a port is in: a pendant stop is taken at once (R339), any other at the slot's end; until then a
frame whose preamble came earlier takes its place (R231, R550; a pendant's stop once taken stands: DEDUCED, log entry 46). -/
def State.radioReceive (s : State) (p time rssi : Nat) (f : List Byte) : State :=
  match s.rxSlot p time f.length with
  | none => s
  | some c =>
    if rfType f = FT.pendantStop || s.slotAt p c.asn + s.slotNs p ≤ s.now then s.takeFrame p rssi c f
    else s.modHop p fun h => { h with cur := h.cur.map fun c => { c with got := some (time, rssi, f) } }

/-- The slot's end delivers the frame received in it (R231). -/
def State.deliverGot (s : State) (p : Nat) : State :=
  match (s.hopPort p).cur with
  | none => s
  | some c => match c.got with
    | some (_, rssi, f) => if s.slotAt p c.asn + s.slotNs p ≤ s.now then s.takeFrame p rssi c f else s
    | none => s

/-- A slot's frame is delivered, and its bookkeeping done (R231). -/
def State.endSlot (s : State) (p : Nat) : State := (s.deliverGot p).finishSlot p

/-! ### The start and the end of a slot -/

/-- A slot begins (R231): once for each slot, in the superframe that the last boundary began, and after the commits due by then
(R64). The Key Store then holds the stop frames of eight slots, and the keys of the next beacon and anchor (R345). -/
def State.slotStart (s : State) (p : Nat) : State :=
  let asn := s.now / s.slotNs p
  let sf := s.now / sfNs
  let i := s.now % sfNs / s.slotNs p
  if !s.hopLive p || s.hop.sf ≠ sf || s.commitWaits (s.slotAt p asn) then s
  else
    let s := s.endSlot p
    if (s.hopPort p).served = some asn then s
    else
      let s := (s.modHop p fun h => { h with served := some asn }).dutyReview p asn s.now
      let ch := stChannel (s.hopPort p).table i asn
      let s := if (s.hopPort p).storm then s.stormSlot p asn i sf ch else s.plainSlot p asn i sf ch
      (s.holdStops p asn).holdForms p asn

def execSlotStart (dt port : Nat) (s : State) : Result := .next ((s.elapse dt).slotStart port)

/-- A slot's span ends, after the commits due by then (R64). -/
def execSlotEnd (dt port : Nat) (s : State) : Result :=
  let s := s.elapse dt
  let waits := (s.hopPort port).cur.any fun c => s.commitWaits (s.spanEnd port c)
  .next (if s.radiosRun && !waits then s.endSlot port else s)

/-! ### Superframes (R10, R236, R245, R249, R264, R340) -/

/-- A changed slot table takes effect at a boundary (R236). -/
def State.applyTable (s : State) (p : Nat) : State :=
  match (s.hopPort p).next with
  | some t => (s.modHop p fun h => { h with table := t, next := none }).raise Ev.hopSchedApplied p
      (leBytes 1 p ++ leBytes 1 (stGen t))
  | none => s

/-- A port at a boundary: its new slot table, the end of silence, and the end of the Sandstorm. A port without a `DOWNLINK` slot drops
here the blocks that wait for it (R249). -/
def State.portBoundary (s : State) (p : Nat) : State :=
  let s := s.endSlot p
  let ended := (s.hopPort p).storm && !s.stp.latched
  let s := s.applyTable p
  let s := s.modHop p fun h => { h with storm := s.stp.latched, silent := false }
  let s := if (s.dlCaps p).isEmpty then s.dropUnfit p (s.hop.queue.length + 1) else s
  if ended then
    { s with hop := { s.hop with machines := s.hop.machines.map fun e =>
      if e.2.port = p then (e.1, { e.2 with missed := 0 }) else e } }
  else s

/-- SECTION_CMD blocks whose superframe has ended are discarded (R249). -/
def State.expireCommands (s : State) : State :=
  let gone := s.hop.queue.filter fun b => b.late ≠ 0 && b.late ≤ s.now
  gone.foldl (fun s b => s.sectionDrop b.port)
    { s with hop := { s.hop with queue := s.hop.queue.filter fun b => !(b.late ≠ 0 && b.late ≤ s.now) } }

/-- Supervision of pendant `n` over the superframe that has just ended (R340). -/
def State.supervise (s : State) (n : Nat) : State :=
  let k := s.act F.STP_PENDANT_NODE n
  let sf := s.hop.sf - 1
  if !s.unitOn U.stp || s.act F.STP_PENDANT_EN n = 0 || s.act F.STP_PENDANT_SUPERVISE n = 0 ||
      !ntEn s.hop.nodeTable k || !ntPolls s.hop.nodeTable k sf then s
  else
    let (c, asked) := tget s.stp.missed (0, false) n
    if (s.nodeLink k).polled = some sf then
      { s with stp := { s.stp with missed := tset s.stp.missed (0, false) n (0, false) } }
    else if asked then s
    else
      let lost := s.act F.STP_PENDANT_LOST_POLLS n ≤ c + 1
      let s := { s with stp := { s.stp with missed := tset s.stp.missed (0, false) n (c + 1, lost) } }
      if lost && s.stopSource F.STP_SRC_PENDANT_LOST then
        s.stopRequest Src.pendantLost (s.act F.STP_SRC_PENDANT_LOST_CLASS = 1) none true
      else s

/-- A new superframe begins, after the commits due no later (R16). -/
def State.boundary (s : State) : State :=
  let k := s.now / sfNs
  if s.hop.sf = k || s.commitWaits (k * sfNs) then s
  else
    let s := { s with hop := { s.hop with sf := k } }
    if !s.unitOn U.hop || s.pwr.inReset then s
    else if !s.radiosRun then
      -- a table takes effect whether or not the radios run, but in `SAFE_HOLD` (R25, R236)
      if s.pwr.state = .safeHold then s else ((List.range s.id.part.radios).filter s.hopEnabled).foldl State.applyTable s
    else
      let s := ((List.range s.id.part.radios).filter s.hopEnabled).foldl State.portBoundary s
      let s := s.expireCommands
      if s.pwr.state = .run then (List.range 16).foldl State.supervise s else s

def execSuperframeBoundary (dt : Nat) (s : State) : Result := .next ((s.elapse dt).boundary)

/-! ### Frames on the air -/

/-- An UPLINK or OBSERVATION frame, or one whose TYPE no other row names. -/
def execUplinkReceived (dt port time rssi : Nat) (frame : List Byte) (s : State) : Result :=
  let s := s.elapse dt
  .next (if rfType frame = FT.joinReq || rfType frame = FT.nodePoll || rfType frame = FT.pendantStop then s
    else s.radioReceive port time rssi frame)

def execJoinReqReceived (dt port time rssi : Nat) (frame : List Byte) (s : State) : Result :=
  let s := s.elapse dt
  .next (if rfType frame = FT.joinReq then s.radioReceive port time rssi frame else s)

def execNodePollReceived (dt port time rssi : Nat) (frame : List Byte) (s : State) : Result :=
  let s := s.elapse dt
  .next (if rfType frame = FT.nodePoll then s.radioReceive port time rssi frame else s)

def execPendantStopReceived (dt port time rssi : Nat) (frame : List Byte) (s : State) : Result :=
  let s := s.elapse dt
  .next (if rfType frame = FT.pendantStop then s.radioReceive port time rssi frame else s)

/-! ### Downlinks of the host (R261, R266, R267) -/

/-- UNSYNC_HOLD has passed: the node's downlinks are discarded (R261). -/
def State.discardDl (s : State) (k : Nat) : State :=
  let mine := s.hop.queue.filter fun b => b.addr = ntShort s.hop.nodeTable k
  let n := s.nodeLink k
  if !n.unsynced || mine.isEmpty || s.clk.counter < n.unsyncAt + s.reg F.HOP_NODE_CTRL_UNSYNC_HOLD * tickS then s
  else
    let s := mine.foldl (fun s b =>
      let s := { s with hop := { s.hop with queue := s.hop.queue.erase b } }
      match b.desc.bind s.waitingDesc with
      | some d => s.complete d St.discarded
      | none => s) s
    s.raise Ev.hopNodeDlDiscard 0 []

def execHopNodeDlDiscard (dt node : Nat) (s : State) : Result :=
  let s := s.elapse dt
  .next (if s.radiosRun && node < ntCount s.hop.nodeTable then s.discardDl node else s)

/-- The Hop Sequencer serves a descriptor, or the status that stops it. -/
def State.hopStop (s : State) : Option Nat := if s.unitOn U.hop then none else some St.notConfigured

/-- HOP_SEND (R266). -/
def State.hopSend (s : State) (d : Desc) (payload : List Byte) : State :=
  match s.hopStop with
  | some st => s.complete d st
  | none =>
    let addr := d.operand 0 2
    let port := min 3 (d.operand 2 1)
    let c := decide (port ≠ d.operand 2 1)
    let d := d.clampIf c
    let s := s.countClamps (b2n c) none
    let where' := if addr = 0xFFFF then (if s.hopEnabled port then some port else none) else s.portOfAddr addr
    if d.len = 0 then s.complete d St.empty
    else match where' with
      | none => s.complete d St.notJoined
      | some p =>
        if s.messageCap p addr < d.len then s.complete d St.length
        else match s.queueMessage addr p (padTo d.len payload) (some d.serial) with
          | some s => (s.modDesc d.serial fun e => { e with clamped := d.clamped }).wait d
          | none => s.complete d St.busy

def execHopSend (dt ring index : Nat) (payload : List Byte) (s : State) : Result :=
  .next ((s.elapse dt).withDesc ring index opHopSend (fun _ => true) fun s d => s.hopSend d payload)

def execHopRecv (dt ring index : Nat) (s : State) : Result :=
  .next ((s.elapse dt).withDesc ring index opHopRecv (fun _ => true) fun s d =>
    match s.hopStop with
    | some st => s.complete d st
    | none => s.waitAtMost d 8 fun _ => true)

end Sys2Proof.Machine
end

