-- ==== Sys2Proof/Machine/Mirage.lean ====
section
/-! DEFINITION. The Mirage Monitor's commands: climbing and falling, clearing conditions, MIR_CLEAR and the secondary-peak scans
(R176, R179, R182, R185, R188). -/

namespace Sys2Proof.Machine

/-- After ESC_DELAY at level 3 or above the level climbs, while what R184 justifies is still 3 or above (log entry 34). -/
def execMirEscalate (dt : Nat) (s : State) : Result :=
  let s := s.elapse dt
  let d := s.act F.MIR_CTRL_ESC_DELAY
  .next (if s.mirRuns && d ≠ 0 && 3 ≤ s.mir.level && 3 ≤ s.mir.base && s.mir.level < s.act F.MIR_CTRL_MAX_LEVEL &&
        s.mir.highAt + d * tickS ≤ s.clk.counter then
      let n := s.mir.level + 1
      { s with mir := { s.mir with climb := n, highAt := s.clk.counter } }.riseTo n
    else s)

/-- The level falls by one, not below what R184 and the climb justify. -/
def execMirLevelFall (dt : Nat) (s : State) : Result :=
  let s := s.elapse dt
  let floor := min (s.act F.MIR_CTRL_MAX_LEVEL) (max s.mir.base s.mir.climb)
  .next (if s.mirRuns && floor < s.mir.level && s.mir.changedAt + s.act F.MIR_CTRL_CLEAR_HOLD * tickS ≤ s.clk.counter then
      ({ s with mir := { s.mir with level := s.mir.level - 1, changedAt := s.clk.counter } }).raise Ev.mirLevelDown 0 []
    else s)

/-- A latched condition that has been false for CLEAR_HOLD seconds clears. -/
def execMirConditionClear (dt check key : Nat) (s : State) : Result :=
  let s := s.elapse dt
  .next (if !s.mirRuns then s
    else match s.mir.conds.find? fun c => c.is check key with
      | some c =>
        if c.latched && c.trueAt + s.act F.MIR_CTRL_CLEAR_HOLD * tickS ≤ s.clk.counter then
          { s with mir := { s.mir with conds := s.mir.conds.filter fun c => !c.is check key } }.mirSettle
        else s
      | none => s)

/-- MIR_CLEAR takes a write: KEY 0xC3, and not under FAULT (R188, R191). -/
def State.mirKey (s : State) (value : Word) : Bool :=
  !s.pwr.inReset && s.pwr.state ≠ .safeHold && !s.hst.fault && !s.mir.fault && bits value.toNat 0 8 = 0xC3

/-- Every latched condition and the climb are cleared, and the level is 0; the runs that COUNT asks for go on, so that a condition
that still holds latches again after PERSIST evaluations (R188). Without an active configuration LEVEL reads 3 as before. -/
def State.clearMirage (s : State) : State :=
  let was := s.mirLevel
  let s := { s with mir := { s.mir with
    conds := s.mir.conds.filter fun c => !c.latched
    climb := 0, base := 0, level := 0, changedAt := s.clk.counter } }
  if s.mirLevel < was then s.raise Ev.mirLevelDown 0 [] else s

/-- The sum of R179 starts again. -/
def State.restartBase (s : State) : State := { s with mir := { s.mir with moves := [] } }

def execMirClear (dt : Nat) (value : Word) (s : State) : Result :=
  let s := s.elapse dt
  .next (if s.mirKey value then if bit value.toNat 8 then s.clearMirage.restartBase else s.clearMirage else s)

/-- MIR_CLEAR with BASE_RESET: the clear of R188, and the sum of R179 restarts. -/
def execMirBaseReset (dt : Nat) (value : Word) (s : State) : Result :=
  let s := s.elapse dt
  .next (if s.mirKey value && bit value.toNat 8 then s.clearMirage.restartBase else s)

/-- A scan of this channel may run: ANT_A, `TRACKING`, and SCAN_PERIOD past its last (R182). -/
def State.scanDue (s : State) (k : Nat) : Bool :=
  !s.chanB k && (s.chan k).state = .tracking &&
    (tfind s.mir.scans k).all fun t => t + s.reg F.MIR_PEAK_SCAN_PERIOD * tickS ≤ s.clk.counter

/-- The channel whose turn it is, in ascending order from the one scanned last. -/
def State.nextScan (s : State) : Option Nat :=
  let due := (List.range 320).filter s.scanDue
  match s.mir.scanned with
  | some (k, _) => (due.find? fun j => k < j).or due.head?
  | none => due.head?

/-- `AUTO` searches for a signal of a satellite: its antenna and signal are enabled, no channel holds it, and a channel is there to
take it (R150, R157, R161). -/
def State.autoWants (s : State) (antB : Bool) (code svid : Nat) : Bool :=
  s.antOn antB && s.sigOn code && (s.autoChan antB code svid).isSome

/-- Search units that `AUTO` holds: it is on every search that it wants, as far as the units that ACQ_HOST does not reserve go (R157;
DEDUCED, log entry 72). -/
def State.autoUnits (s : State) : Nat :=
  if s.act F.GNS_CTRL_MODE = 1 then 0
  else min (16 - s.act F.GNS_CTRL_ACQ_HOST)
    ((sigTable.map fun g =>
      let (lo, hi) := svidRange (g.code / 16)
      ((List.range (hi + 1 - lo)).map fun k =>
        b2n (s.autoWants false g.code (lo + k)) + b2n (s.autoWants true g.code (lo + k))).sum).sum)

/-- A search unit is idle for a scan while the GNS_ACQ queue is empty: one of the 16 under `MANUAL`, one that `AUTO` leaves unused
under `AUTO` (R182; log entry 72). -/
def State.scanUnit (s : State) : Bool :=
  s.gns.queue.isEmpty &&
    (if s.act F.GNS_CTRL_MODE = 1 then s.gns.running.length < s.acqUnits
     else decide (s.autoUnits < 16 - s.act F.GNS_CTRL_ACQ_HOST))

/-- Ticks that a scan takes: a dwell of COH ms on each window of the code (R182). -/
def scanTicks (g : SigDef) : Nat := (2 * g.chips + 2047) / 2048 * min 10 g.acq * tickMs

/-- A secondary peak stands more than 3 cells from the tracked cell, within `ratio` quarter dB of the tracked peak, the strongest cell
no more than 3 away (R175). -/
def secondPeak (cells tracked ratio : Nat) (powers : List Nat) : Bool :=
  let l := (List.range cells).map fun i => (i, powers.getD i 0)
  let p := (peakOf (l.filter fun x => cellDist cells x.1 tracked ≤ 3)).2
  let q := (peakOf (l.filter fun x => 3 < cellDist cells x.1 tracked)).2
  0 < q && (p ≤ q || (dB ((p : Rat) / q)).any fun v => v ≤ (ratio : Rat) / 4)

/-- A scan of a channel ends: the powers of the cells of its code, in order. -/
def execMirPeakScan (dt chan : Nat) (powers : List Nat) (s : State) : Result :=
  let s := s.elapse dt
  let c := s.chan chan
  let g := sigOf c.sig
  let from' := (s.mir.scanned.map fun x => x.2).getD 0
  .next (if s.checkOn Ck.secPeak && s.gnsRuns && s.scanUnit && s.nextScan = some chan && from' + scanTicks g ≤ s.clk.counter then
      let s := { s with mir := { s.mir with
        scans := tput s.mir.scans chan s.clk.counter, scanned := some (chan, s.clk.counter) } }
      let key := sigKey c.sig c.svid
      let tracked := (2 * c.code).floor.toNat % (2 * g.chips)
      (s.evalCond Ck.secPeak (chan * 65536 + key) (secondPeak (2 * g.chips) tracked (s.reg F.MIR_PEAK_RATIO) powers) [] [key] 0
        fun s => s).mirSettle
    else s)

end Sys2Proof.Machine
end

