-- ==== Sys2Proof/Machine/Timebase.lean ====
section
/-! DEFINITION. The Timebase's commands: samples, sources, steps, PPS, stamps, alarms and the PTP engine (R69 to R105). -/

namespace Sys2Proof.Machine

/-- Registers take writes over BAR0: not in reset, in `SAFE_HOLD` or under a FAULT of the Host Interface (R383). -/
def State.writable (s : State) : Bool := !s.pwr.inReset && s.pwr.state ≠ .safeHold && !s.hst.fault

/-- The Timebase is out of reset and its clock runs. -/
def State.clockRuns (s : State) : Bool := !s.pwr.inReset && !s.clk.frozen

/-! ### Samples (R70 to R73) -/

/-- A write to TB_HOST_TIME_HI, whose arrival is stamped now (R73). -/
def execTbHostTime (dt : Nat) (value : Word) (s : State) : Result :=
  let s := s.elapse dt
  .next (if !s.writable then s
    else
      let s := s.setReg F.TB_HOST_TIME_HI_TIME 0 value.toNat
      let t := s.reg64 F.TB_HOST_TIME_LO_TIME F.TB_HOST_TIME_HI_TIME
      s.sample 3 ((t : Int) - s.now) (s.reg F.TB_HOST_UNC_UNC * 1000))

/-- An edge of PPS_IN; the one that EDGE selects is stamped, carried to the ball (−3.0 ns),
corrected by TB_PPS_IN_OFFSET and labelled with the nearest whole second (R72, R92). R69 calls the sample a filtered stamp and gives no
filter: the stamp counts as it is (DESIGN CHOICE, log entry 41). -/
def execPpsInEdge (dt : Nat) (edge : PinEdge) (s : State) : Result :=
  let s := s.elapse dt
  .next (if !s.clockRuns || edge.falling ≠ (s.reg F.TB_PPS_IN_EDGE = 1) then s
    else
      let t16 := s.stamp16 edge.phase
      let t : Rat := (t16 : Rat) / 65536 - 3 - signed 32 (s.reg F.TB_PPS_IN_OFFSET_OFFSET)
      let label := roundRat (t / 1000000000)
      let s := s.pushStamp 0x31 (label % 65536).toNat t16
      s.sample 2 (roundRat ((label : Rat) * 1000000000 - t)) (s.reg F.TB_PPS_IN_UNC))

/-- A source qualifies, and is selected where it ranks highest (R70, R71). -/
def execTbSourceQualify (dt src : Nat) (s : State) : Result :=
  let s := s.elapse dt
  .next (if s.mayQualify src then (s.setSrc src { s.src src with qualified := true }).reselect else s)

/-- The announce-receipt timeout of a port has run out (R89). -/
def State.announceLate (s : State) (p : Nat) : Bool :=
  (s.ptpPort p).announce.isSome && (s.ptpPort p).announceAt + s.srcTimeout 1 ≤ s.clk.counter

/-- The masters of a port that have been silent for the timeout are forgotten, and its neighbour is heard no more
(R70, R90, R91). -/
def State.dropAnnounce (s : State) (p : Nat) : State :=
  if s.announceLate p then
    ((s.modPtp p fun q => { q with
      announce := none, foreign := q.foreign.filter fun f => s.clk.counter < f.lastAt + s.srcTimeout 1 }).forgetNeighbour p).runBmca
  else s

/-- A source's loss timeout expires (R70, R71); fabric PTP is lost with the announcements of its slave port. -/
def execTbSourceLost (dt src : Nat) (s : State) : Result :=
  let s := s.elapse dt
  .next (if src = 1 then
      match s.tb.slavePort with
      | some p => s.dropAnnounce p
      | none => s
    else match (s.src src).lastAt with
      | some t => if t + s.srcTimeout src ≤ s.clk.counter then s.loseSource src else s
      | none => s)

/-! ### PPS_OUT (R87, R88) -/

/-- TB_PPS_OUT_COMP, ns. -/
def State.ppsComp (s : State) : Int := signed 32 (s.reg F.TB_PPS_OUT_COMP_COMP)

/-- The whole second whose edge instant came last. -/
def State.ppsSecond (s : State) : Nat := (((s.now : Int) - s.ppsComp) / 1000000000).toNat

/-- Where the output register places the active edge of a second: at the interpolator phase nearest the instant, less the 2.5 ns from
there to the ball (R67, R92). -/
def State.ppsStamp (s : State) (k : Nat) : Nat := s.placed16 ((((k : Int) * 1000000000 + s.ppsComp : Int) : Rat) - 25 / 10)

/-- PPS_OUT shows the active edge of a second: 2.5 ns after its stamp at the ball (R92, R94). -/
def State.ppsEdge (s : State) (k : Nat) : State :=
  let t := s.ppsStamp k
  let s := { s with tb := { s.tb with ppsNext := k + 1, ppsAt := some s.clk.counter } }
  (s.pushStamp 0x30 (k % 65536) t).ppsDrive true (t + 163840)

/-- After a write of its registers or a commit: the ball takes the level that POL now gives, a newly enabled PPS_OUT begins at the next
second, and one that is off rests at its inactive level. -/
def State.ppsSettle (s : State) (wasOn : Bool) : State :=
  if !s.ppsOn then s.ppsEnd
  else
    let s := s.ppsDrive s.tb.ppsHigh (s.stamp16 0)
    if wasOn then s else { s with tb := { s.tb with ppsNext := s.ppsSecond + 1 } }

/-- While `LOCKED`, the time is written to the Calendar at every whole second (R103). -/
def State.syncCalendar (s : State) : State :=
  let k := s.now / 1000000000
  if s.tb.quality = .locked && s.cal.lastSync ≠ k then
    { s with cal := { s.cal with
      count := s.now * 128 / 3906250, part := s.now * 128 % 3906250, valid := true, lastSync := k } }
  else s

/-- The edge of a whole second: PPS_OUT, and the Calendar. -/
def execPpsOutEdge (dt : Nat) (s : State) : Result :=
  let s := s.elapse dt
  .next (if !s.clockRuns then s
    else
      let s := if s.ppsOn && s.tb.ppsNext ≤ s.ppsSecond then s.ppsEdge s.ppsSecond else s
      s.syncCalendar)

def execPpsOutPulseEnd (dt : Nat) (s : State) : Result :=
  let s := s.elapse dt
  .next (match s.tb.ppsAt with
    | some t => if t + s.reg F.TB_PPS_OUT_WIDTH * tickMs ≤ s.clk.counter then s.ppsEnd else s
    | none => s)

/-! ### Steps (R85, R86, R167, R206, R264, R288, R322) -/

/-- A periodic entry that a step passed over stands at the latest launch time passed: it fires once. -/
def Periodic.passed (p : Periodic) (now : Nat) : Periodic :=
  if p.period = 0 ∨ now < p.time then p else { p with time := p.time + (now - p.time) / p.period * p.period }

/-- The next PPS_OUT edge falls on the next whole second of the new time; one that would come less than 500 ms after the
previous edge is omitted. -/
def State.ppsAfterStep (s : State) : State :=
  if !s.ppsOn then s
  else
    let k := s.ppsSecond + 1
    let gap : Int := (k : Int) * 1000000000 + s.ppsComp - s.now
    let since : Int := match s.tb.ppsAt with | some t => 4 * ((s.clk.counter : Int) - t) | none => 1000000000
    if gap + since < 500000000 then
      ({ s with tb := { s.tb with ppsNext := k + 1 } }).raise Ev.tbPpsOmitted 0 []
    else { s with tb := { s.tb with ppsNext := k } }

/-- A radio port falls silent at a step, until the first boundary of the new time (R264). -/
def State.silence (s : State) (now p : Nat) : State :=
  if !s.hopLive p then s
  else
    let s := if s.femDriven p then s.frontEnd p now F.RAD_PORT_CTRL_FEM_IDLE else s
    let s := s.modHop p fun h => { h with
      silent := true, cur := none, served := none, busy := 0, beacon := none, ackDue := none }
    { s with out := dropFuture p now s.out }

/-- What the other units do at a step. -/
def State.unitsStep (s : State) : State :=
  let s := s.releaseClaims fun _ _ => true
  let s := { s with sec := { s.sec with
    machs := s.sec.machs.map fun (e : Nat × SecMach) => (e.1, { e.2 with own := [], cen := [], impl := none }) } }
  -- epoch numbers follow the new time
  let s := (s.fix.asm.map (·.1)).foldl (fun s m => s.abandonAsm m Ab.step) s
  let s := { s with fix := { s.fix with ended := [] } }
  if s.has U.car && s.unitOn U.car then s.carStep else s

/-- The step is applied. -/
def State.applyStep (s : State) (p : StepPending) : State :=
  let old := s.now
  -- the edge of the second at which the step applies is shown on the old time
  let k := p.at' / 1000000000
  let s := if s.ppsOn && s.tb.ppsNext ≤ k then s.ppsEdge k else s
  let s := (List.range s.id.part.radios).foldl (fun s r => s.silence old r) s
  let s := (if s.epochDue then s.latchEpoch else s).gnsStep p.e
  let s := { s with clk := { s.clk with t48 := ((s.clk.t48 : Int) + p.e * 2 ^ 48).toNat } }
  let s := { s with
    tb := { s.tb with
      step := none, errOff := 0, errEst := p.unc
      launches := markStepped s.tb.launches old s.now
      periodic := s.tb.periodic.map fun (e : Periodic) => if old < e.time then e.passed s.now else e }
    hop := { s.hop with sf := if s.now % sfNs = 0 then s.now / sfNs - 1 else s.now / sfNs } }
  (s.ppsAfterStep.unitsStep).raise Ev.tbStep 0 []

/-- The first whole second after the decision. -/
def execTbStepApply (dt : Nat) (s : State) : Result :=
  let s := s.elapse dt
  .next (match s.tb.step with
    | some p => if s.now < p.at' then s else s.applyStep p
    | none => s)

/-! ### The error bound, stamps, alarms (R81, R95, R99) -/

def execTbErrEstUpdate (dt : Nat) (s : State) : Result :=
  let s := s.elapse dt
  .next (if s.pwr.inReset || !s.due T.errEst tickMs then s else (s.mark T.errEst).updateErr)

def execTbStampPop (dt : Nat) (s : State) : Result :=
  let s := s.elapse dt
  .next (if s.pwr.inReset then s else s.popStamp)

/-- A write to TB_ALARM_n_HI: 0 disarms; a time already past posts at once (R34, R99). -/
def execTbAlarmArm (dt n : Nat) (value : Word) (s : State) : Result :=
  let s := s.elapse dt
  .next (if !s.writable || 31 < n then s
    else
      let s := s.setReg F.TB_ALARM_HI_TIME n value.toNat
      let t := s.reg64 F.TB_ALARM_LO_TIME F.TB_ALARM_HI_TIME n
      let a : Alarm := if t = 0 then Alarm.reset else ⟨true, t⟩
      let s := { s with tb := { s.tb with alarms := tset s.tb.alarms Alarm.reset n a } }
      if t ≠ 0 && t ≤ s.now then s.fireAlarm n else s)

/-- An alarm falls due, after every entry of the launch queue that fires on its tick or before it (R99). -/
def execTbAlarmFire (dt n : Nat) (s : State) : Result :=
  let s := s.elapse dt
  let a := tget s.tb.alarms Alarm.reset n
  let tick := s.tickOf a.time
  let before := s.periodicFirst tick || s.tb.launches.any fun l => l.time ≤ s.now && s.launchTick l ≤ tick
  .next (if a.armed && a.time ≤ s.now && !before && s.pwr.state ≠ .safeHold then s.fireAlarm n else s)

/-! ### PTP (R89 to R91) -/

/-- The PTP engine uses a port: named in PORTS, its link `UP`, the address claimed, in `RUN`. -/
def State.ptpLive (s : State) (p : Nat) : Bool :=
  s.ptpOn p && s.pwr.state = .run && s.linkUp p && s.fab.addrState = .claimed && !s.fab.fault && s.portOn p

/-- A frame of class `TIME` is received, its first block at the MAC `phase` eighths of a tick after it. -/
def execPtpMessageReceived (dt port : Nat) (frame : List Byte) (phase : Nat) (s : State) : Result :=
  let s := s.elapse dt
  let live := s.timeTaken port frame && s.ptpLive port
  let s := s.receiveIf port frame (frClass frame = FC.time)
  .next (if live then s.ptpReceive port (frBody frame) phase else s)

def execPtpMessageSend (dt port kind : Nat) (s : State) : Result :=
  let s := s.elapse dt
  .next (if s.ptpLive port then s.ptpSend port kind else s)

def execPtpAnnounceTimeout (dt port : Nat) (s : State) : Result :=
  .next ((s.elapse dt).dropAnnounce port)

end Sys2Proof.Machine
end

