-- ==== Sys2Proof/Machine/CommitOps.lean ====
section
/-! DEFINITION. What a commit does when it takes effect, unit by unit, and the entry to `RUN` (R27, R49, R50, R66, R117, R124,
R149, R150, R170, R171, R179, R188, R206, R218, R236, R240, R258, R300, R322, R397, R399, R425, R450, R463, R465, R486). -/

namespace Sys2Proof.Machine

/-! ### Field Store, before the change (R117, R124, R322) -/

/-- A field whose CELL, SIZE, MAP_E0, MAP_N0 or DIR changes, or whose EN is cleared. -/
def fieldChanged (old new : Conf) (f : Nat) : Bool :=
  old.get F.FLD_FIELD_CTRL_EN f = 1 &&
  (new.get F.FLD_FIELD_CTRL_EN f = 0 ||
    [F.FLD_FIELD_CTRL_CELL, F.FLD_FIELD_SIZE_TILES_E, F.FLD_FIELD_SIZE_TILES_N, F.FLD_FIELD_MAP_E0_MAP_E0,
      F.FLD_FIELD_MAP_N0_MAP_N0, F.FLD_FIELD_DIR_FRAME].any fun x => old.get x f ≠ new.get x f)

/-- Section-table entries whose configuration bytes change. -/
def changedSections (old new : Conf) : List Nat :=
  (((old.sections ++ new.sections).map fun e => e.1).eraseDups).filter fun i => old.sectionEntry i ≠ new.sectionEntry i

/-- The staging images have been copied to the map area of the new configuration (R115): where that moves, their bytes stay in the old
one. Claims that the commit releases are released under the configuration that still stands, and the lines of the changed fields
leave the cache. -/
def State.releaseFld (s : State) (new : Conf) : State :=
  let old := s.cfg.active
  let secs := changedSections old new
  let s := s.releaseClaims fun k c => fieldChanged old new (cellOfKey k).field || secs.contains c.sect
  let s := s.dropLines fun l => fieldChanged old new l.field
  let s := if old.get F.FLD_MAP_BASE_BASE = new.get F.FLD_MAP_BASE_BASE then s else s.leaveImages
  { s with fld := { s.fld with
    copying := true, secState := s.fld.secState.filter fun e => !secs.contains e.1 } }

/-! ### Timebase -/

/-- A port without PTP hears no neighbour; the selection follows the sources enabled (R69, R71, R91). -/
def State.applyTb (s : State) (was : State) : State :=
  let s := (List.range 6).foldl (fun s p => if s.ptpOn p then s else s.forgetNeighbour p) s
  s.runBmca.reselect.ppsSettle was.ppsOn

/-! ### GNSS Receiver (R149, R150, R170, R171) -/

/-- Channels whose antenna or signal the commit disables, or whose index changes antenna. -/
def State.lostChans (s : State) (was : State) : List Nat :=
  (s.gns.chans.filter fun e => e.2.state ≠ .idle &&
    (!s.antOn (s.chanB e.1) || !s.sigOn e.2.sig || s.chanB e.1 ≠ was.chanB e.1)).map fun e => e.1

/-- Acquisitions whose signal or antenna is disabled complete with `SIG_OFF`. -/
def State.endAcq (s : State) : State :=
  let gone := (s.waiters opGnsAcq).filter fun d =>
    let r := (acqOperand d).1
    !s.sigOn r.code || !s.antOn r.antB
  let s := { s with gns := { s.gns with
    running := s.gns.running.filter fun q => !gone.any fun d => d.serial = q.1
    queue := s.gns.queue.filter fun q => !gone.any fun d => d.serial = q } }
  (gone.foldl (fun s d => s.complete d St.sigOff) s).nextSearch

/-- The base coordinates' state and the survey. -/
def State.applyBase (s : State) (was : State) : State :=
  match s.act F.GNS_SURVEY_CTRL_MODE with
  | 2 =>
    let t := { s with gns := { s.gns with base := .fixed } }
    if s.gns.base = .surveying then t.raise Ev.gnsSurveyDone 0 [] else t
  | 1 =>
    if was.act F.GNS_SURVEY_CTRL_MODE = 1 && was.act F.GNS_SURVEY_CTRL_DURATION = s.act F.GNS_SURVEY_CTRL_DURATION &&
        was.act F.GNS_SURVEY_CTRL_TARGET = s.act F.GNS_SURVEY_CTRL_TARGET then s
    else { s with gns := { s.gns with
      base := .surveying, survey := ⟨s.clk.counter, 0, (0, 0, 0), (0, 0, 0), 0⟩, sigma := 0xFFFF, elapsed := 0 } }
  | _ => { s with gns := { s.gns with base := .none } }

/-- Satellites that have an ephemeris page no older than 4 h. -/
def State.freshEph (s : State) : Nat :=
  ((s.gns.nav.filter fun p => p.kind = 0 && s.now ≤ p.rx + 14400 * 1000000000).map fun p =>
    (sigOf p.sig).sys * 256 + p.svid).eraseDups.length

/-- An almanac page of a system with an enabled signal. -/
def State.hasAlmanac (s : State) : Bool :=
  s.gns.nav.any fun p => p.kind = 1 && sigTable.any fun g => g.sys = (sigOf p.sig).sys && s.sigOn g.code

/-- The start mode: 0 `COLD`, 1 `WARM`, 2 `HOT`. -/
def State.startMode (s : State) : Nat :=
  if s.gns.base = .fixed && s.tb.errEst ≤ 10000000 && 4 ≤ s.freshEph then 2
  else if s.gns.base = .fixed && s.tb.errEst ≤ 5000000000 && s.hasAlmanac then 1 else 0

def State.applyGns (s : State) (was : State) : State :=
  let s := (s.lostChans was).foldl (fun s c => s.chanGone c true) s
  let s := s.endAcq.applyBase was
  let moved := s.basePos ≠ was.basePos || s.gns.base ≠ was.gns.base
  let s := if moved then s.restartBase else s
  if s.antOn false && !(was.unitOn U.gns && was.antOn false) then
    { s.mark T.measEpoch with gns := { s.gns with start := some (s.gns.start.getD s.startMode) } }
  else s

/-! ### Mirage Monitor and Fix Engine (R185, R188, R206, R218) -/

/-- The checks switched off lose their conditions, and the ladder settles; a commit never sets the stop latch, so the entry to level
5 waits for an evaluation (R59, log entry 34). -/
def State.applyMir (s : State) (was : State) : State :=
  let s := s.dropDisabled
  let s := if was.unitOn U.mir then s else { s with mir := { s.mir with highAt := s.clk.counter, changedAt := s.clk.counter } }
  s.mirSettleTo 4

/-- An epoch in assembly is abandoned where its machine's EN or RATE changes, and its epochs are numbered anew. -/
def State.applyFix (s : State) (was : State) : State :=
  let same := fun (m : Nat) => s.roverOn m && s.act F.FIX_ROVER_RATE m = was.act F.FIX_ROVER_RATE m
  let s := (s.fix.asm.map fun e => e.1).foldl (fun s m => if same m then s else s.abandonAsm m Ab.config) s
  { s with fix := { s.fix with ended := s.fix.ended.filter fun e => same e.1 } }

/-! ### Section Engine (R300) -/

/-- The first instant T + P at or after now. -/
def State.firstEpoch (s : State) : Nat :=
  let t := s.now / sfNs * sfNs + s.act F.SEC_CTRL_PHASE * 125000
  if s.now ≤ t then t else t + sfNs

/-- The periodic entry stands while the device is in `RUN` and EN is active; one that lies in a later superframe takes the new
phase. -/
def State.armSec (s : State) : State :=
  let others := s.tb.periodic.filter fun p => p.unit ≠ U.sec
  if s.pwr.state ≠ .run || !s.unitOn U.sec || s.act F.SEC_CTRL_EN = 0 then { s with tb := { s.tb with periodic := others } }
  else
    let t := match s.tb.periodic.find? fun p => p.unit = U.sec with
      | some p => if s.now / sfNs < p.time / sfNs then p.time / sfNs * sfNs + s.act F.SEC_CTRL_PHASE * 125000 else p.time
      | Option.none => s.firstEpoch
    { s with tb := { s.tb with periodic := others ++ [⟨U.sec, t, sfNs⟩] } }

def State.applySec (s : State) (was : State) : State :=
  let s := if was.unitOn U.sec then s else { s with sec := { s.sec with since := some s.now, feedback := [] } }
  s.armSec

/-! ### Hop Sequencer (R236, R240, R258) -/

/-- A node's identity or place changes, or its EN is cleared. -/
def nodeMoved (old new : List Byte) (k : Nat) : Bool :=
  !ntEn new k || ntEui old k ≠ ntEui new k || ntShort old k ≠ ntShort new k || ntPort old k ≠ ntPort new k ||
    ntSlot old k ≠ ntSlot new k

/-- One port: KEY_GEN counts a change of its keys; its table waits for a superframe boundary; a port that is off holds none. -/
def State.applyPort (s : State) (was : State) (slots : Tbl (List Byte)) (p : Nat) : State :=
  let keys := fun (x : State) => (x.act F.HOP_PORT_KEYS_GROUP p, x.act F.HOP_PORT_KEYS_STOP p)
  let s := if keys s = keys was then s else s.modHop p fun h => { h with keyGen := h.keyGen + 1 }
  match tfind slots p with
  | some t => s.modHop p fun h => { h with next := if t = h.table then none else some t }
  | none => s.modHop p fun h => { h with table := [], next := none, cur := none, ackDue := none, answers := [] }

def State.applyHop (s : State) (was : State) (slots : Tbl (List Byte)) (nodes : List Byte) : State :=
  let s := (List.range s.id.part.radios).foldl (fun s p => (s.applyPort was slots p).dropHeld p) s.endAnnounce
  let s := { s with hop := { s.hop with
    nodeTable := nodes, nodes := s.hop.nodes.filter fun e => !nodeMoved s.hop.nodeTable nodes e.1 } }
  if s.act F.HOP_KEYS_JOIN_ROOT = was.act F.HOP_KEYS_JOIN_ROOT then s else { s with key := { s.key with link := [] } }

/-! ### Fabric Interface, Memory System, NV dies, Key Store -/

/-- Ports that the commit disables fall, and a changed address is claimed anew in `RUN` (R397, R399). -/
def State.applyFab (s : State) (was : State) : State :=
  let s := (List.range s.id.part.fabs).foldl (fun s p =>
    if s.act F.FAB_PORT_CTRL_EN p = 1 then s else s.linkFall p .disabled) s
  let addr := fun (x : State) => (x.act F.FAB_CTRL_ADDR, x.act F.FAB_CTRL_ADDR_MODE)
  if s.pwr.state = .run && !s.fab.fault && (!was.unitOn U.fab || addr s ≠ addr was) then s.startClaim else s

/-- EN going to 1 starts the training of the DRAM (R450). -/
def State.applyMem (s : State) (was : State) : State :=
  if was.act F.MEM_DRAM_CFG_EN = 0 && s.act F.MEM_DRAM_CFG_EN = 1 then
    { s with mem := { s.mem with training := true } }.mark T.dramTrain
  else s

def State.applyNvm (s : State) : State :=
  { s with nvm := { s.nvm with recorderNext := s.act F.NVM_RECORDER_MIB } }

/-- Records that a commit of the named units names again are no longer retired (R475, R479). -/
def State.renewPins (s : State) (named : BitVec 20) : State :=
  if named.getLsbD U.hop || named.getLsbD U.stp then { s with key := { s.key with retired := [] } } else s

/-- Records named by the active configuration are loaded and pinned (R463). -/
def State.loadPinned (s : State) : State :=
  s.pinned.foldl (fun s i => match s.readyKey i with
    | some m => s.cachePut i m
    | none => s) s

/-! ### The effect (R27, R50, R62, R66) -/

/-- `WAIT_HOST` gives way to `RUN` when the Timebase, the Hop Sequencer and the Stop Controller are configured; the ports start with
the Sandstorm while the power-on latch stands (R26, R27). -/
def State.enterRun (s : State) : State :=
  if s.pwr.state = .waitHost && s.unitOn U.tb && s.unitOn U.hop && s.unitOn U.stp then
    let s := { s with pwr := { s.pwr with state := .run } }.stormAll
    let s := if s.has U.fab && s.unitOn U.fab && !s.fab.fault then s.startClaim else s
    s.armSec
  else s

/-- The configuration of the named units becomes the snapshot. -/
def State.activate (s : State) (c : Cand) : State :=
  { s with cfg := { s.cfg with
    active := c.conf, units := s.cfg.units ||| c.named, generation := s.cfg.generation + 1
    result := 2, reason := 0, ruleId := 0 } }

/-- A commit takes effect. -/
def State.takeEffect (was : State) (c : Cand) : State :=
  let on := fun (u : Nat) (f : State → State) (s : State) => if c.named.getLsbD u then f s else s
  let s := on U.fld (fun s => s.releaseFld c.conf) was
  let s := s.activate c
  let s := on U.tb (fun s => s.applyTb was) s
  let s := on U.gns (fun s => s.applyGns was) s
  let s := on U.mir (fun s => s.applyMir was) s
  let s := on U.fix (fun s => s.applyFix was) s
  let s := on U.sec (fun s => s.applySec was) s
  let s := on U.hop (fun s => s.applyHop was c.slots (c.nodes.getD [])) s
  let s := on U.fab (fun s => s.applyFab was) s
  let s := on U.mem (fun s => s.applyMem was) s
  let s := on U.nvm State.applyNvm s
  -- bodies from the commit on are computed under the new key (R345)
  let s := if s.act F.STP_KEYS_FAB_TX = was.act F.STP_KEYS_FAB_TX then s else { s with fab := { s.fab with held := [] } }
  (s.renewPins c.named).enterRun.loadPinned.settleOuts.holdFrames

end Sys2Proof.Machine
end

