-- ==== Sys2Proof/Machine/HostInterface.lean ====
section
/-! DEFINITION. The Host Interface's commands: doorbells, taking descriptors, ring set-up and disable, DMA errors, link and
function reset, interrupt moderation, launch entries and their cancelling (R361 to R387). -/

namespace Sys2Proof.Machine

/-- Opcodes of the HST range (R387). -/
def opCommit : Nat := 0x0B01
def opLaunchCancel : Nat := 0x0B02
def opNop : Nat := 0x0B03

/-- Opcodes that the chapters assign (R387). -/
def opAssigned (op : Nat) : Bool :=
  let u := op / 256
  let n := op % 256
  match u with
  | 0x02 => 1 ≤ n && n ≤ 4
  | 0x04 => 1 ≤ n && n ≤ 3
  | 0x05 => 1 ≤ n && n ≤ 3
  | 0x07 => 1 ≤ n && n ≤ 6
  | 0x08 => 1 ≤ n && n ≤ 4
  | 0x0A => 1 ≤ n && n ≤ 2
  | 0x0B => 1 ≤ n && n ≤ 3
  | 0x0C => 1 ≤ n && n ≤ 5
  | 0x0D => n = 1
  | 0x0F => 1 ≤ n && n ≤ 8
  | 0x10 => 1 ≤ n && n ≤ 7
  | 0x11 => 1 ≤ n && n ≤ 2
  | 0x12 => 1 ≤ n && n ≤ 4
  | _ => false

/-- An opcode that runs only on ordered ring 2 (R370, and the tables of KEY and BOOT). -/
def opRing2 (op : Nat) : Bool :=
  (op / 256 = 0x0F && op ≠ 0x0F04 && op ≠ 0x0F05) || (0x1001 ≤ op && op ≤ 0x1005)

/-- A ring accepts an opcode (R370, R498). -/
def State.ringAccepts (s : State) (ring op : Nat) : Bool :=
  if s.pwr.state = .recovery then ring = 2 && (op = opNop || (0x1001 ≤ op && op ≤ 0x1003))
  else if op = opNop then true
  else match ring with
    | 0 => op / 256 = 0x08
    | 1 => op = opCommit || op = opLaunchCancel
    | 2 => opRing2 op
    | _ => op / 256 ≠ 0x08 && op ≠ opCommit && !opRing2 op

/-- Step 1 of R371. -/
def headerOk (ring : Nat) (d : Desc) : Bool :=
  opAssigned d.op && d.flags / 2 = 0 && fieldLE d.bytes 28 4 = 0 && d.addr % 8 = 0 &&
  !((ring = 0 || ring = 2) && d.launch ≠ 0)

/-- Steps 1 to 4 of R371: the first failure's status. -/
def State.takeCheck (s : State) (ring : Nat) (d : Desc) : Option Nat :=
  if !headerOk ring d then some St.badDesc
  else if !s.ringAccepts ring d.op then some St.badRing
  else if !s.has (d.op / 256) then some St.noUnit
  else if ordered ring && 131072 < d.len && d.op ≠ opCommit then some St.length
  else none

/-- A CQ slot is free for one more descriptor (R369, log entry 17). -/
def State.cqRoom (s : State) (ring : Nat) : Bool := s.inflight ring + (s.ring ring).unread < s.ringSize ring

/-- A ring may take its next descriptor (R369, R377, R379, R383). -/
def State.mayTake (s : State) (ring : Nat) : Bool :=
  let r := s.ring ring
  ring < 64 && r.state = .running && r.sqHead ≠ r.sqTail && s.cqRoom ring && !s.hst.fault && s.pwr.state ≠ .safeHold

/-- SQ_HEAD advances by one, and the shadow entry follows (R363, R369). -/
def State.advanceSq (s : State) (ring : Nat) : State :=
  let size := s.ringSize ring
  (s.modRing ring fun r => { r with sqHead := (r.sqHead + 1) % size }).shadow ring

/-- A descriptor joins the taken ones; on a timed ring one that failed completes at once, on an ordered ring in its turn
(R371 to R373). -/
def State.addTaken (s : State) (d : Desc) : State :=
  let s := { s with hst := { s.hst with taken := s.hst.taken ++ [d], serial := s.hst.serial + 1 } }
  match d.verdict with
  | none => s
  | some (st, det) => if ordered d.ring then s.flushVerdict d.ring else s.complete d st [] det

/-- A descriptor of 64 bytes is taken from the slot at SQ_HEAD and checked (R369, R371, R373). -/
def State.takeDesc (s : State) (ring : Nat) (bytes : List Byte) : State :=
  let idx := (s.ring ring).sqHead
  let d : Desc := ⟨s.hst.serial, ring, idx, bytes, false, false, none, false, .ready, none, none, false, none⟩
  let s := s.advanceSq ring
  match s.takeCheck ring d with
  | some st => s.addTaken { d with verdict := some (st, 0) }
  | none =>
    if ordered ring || d.launch = 0 then s.addTaken d
    else if d.launch ≤ s.now then s.addTaken { d with late := true }
    else if s.launchRoom then
      (s.insertLaunch d.launch (.desc d.serial)).addTaken { d with phase := .launched }
    else (s.addTaken { d with verdict := some (St.launchFull, 0) }).raise Ev.tbLaunchFull 0 []

/-- A descriptor is copied, checked and queued for execution (R371). The operand is what the slot holds: 64 bytes, of which any
that it leaves out are free (log entry 64). -/
def execDescriptorTake (dt ring : Nat) (bytes : List Byte) (s : State) : Result :=
  let s := s.elapse dt
  .next (if s.mayTake ring then s.draw.takeDesc ring (fillFree s.free 64 bytes) else s)

/-! ### Doorbells (R362, R368, R377) -/

/-- One doorbell entry takes effect. -/
def State.doorbell (s : State) (n tail head resume : Nat) : State :=
  let size := s.ringSize n
  let bad := size ≤ tail || size ≤ head
  let s := s.modRing n fun r => { r with
    sqTail := if size ≤ tail then r.sqTail else tail
    cqHead := if size ≤ head then r.cqHead else head
    unread := if size ≤ head then r.unread else r.unread - (head + size - r.cqHead) % size
    badIndex := r.badIndex || bad }
  let s := if bad then s.raise Ev.hstBadIndex 0 [] else s
  let r := s.ring n
  if r.state = .halted && resume = r.haltSeq.toNat then (s.setRing n .running).flushVerdict n else s

/-- Every INTERVAL µs the entries of all enabled rings are read in one request; the operand is what the block holds: 1,024 bytes,
of which any that it leaves out are free (log entry 64). -/
def execDoorbellRead (dt : Nat) (block : List Byte) (s : State) : Result :=
  let s := s.elapse dt
  let b := fillFree s.free 1024 block
  .next (if s.hst.fault || s.pwr.state = .safeHold || !s.due T.doorbell (s.reg F.HST_DB_POLL_INTERVAL * tickUs) then s
    else (List.range 64).foldl (fun s n =>
      if (s.ring n).state = .disabled then s
      else s.doorbell n (fieldLE b (16 * n) 2) (fieldLE b (16 * n + 2) 2) (byteAt b (16 * n + 4)))
      (s.mark T.doorbell).draw)

/-! ### Enabling and disabling (R378, R379, R498) -/

/-- A ring can be enabled now (R378). -/
def State.mayEnable (s : State) (n : Nat) : Bool :=
  n < 64 && (s.ring n).state = .disabled && !s.hst.fault &&
  s.pairBase F.HST_DB_BASE_LO_ADDR ≠ 0 && s.pairBase F.HST_SHADOW_BASE_LO_ADDR ≠ 0 &&
  (s.pwr.state = .waitHost || s.pwr.state = .run || (s.pwr.state = .recovery && n = 2))

/-- HST_RING_n_CTRL is written; LOG_SIZE keeps its value when `keepSize`. -/
def State.writeRingCtrl (s : State) (n : Nat) (v : Word) (keepSize : Bool) : State :=
  match regAt (0xD110 + 0x20 * n) with
  | some r =>
    let size := s.reg F.HST_RING_CTRL_LOG_SIZE n
    let v := if keepSize then putBits v.toNat 1 4 size else v.toNat
    s.writeDirect r (0xD110 + 0x20 * n) v
  | none => s

/-- Writing EN 1 enables the ring (R378); a write that R378 ignores changes nothing (log entry 18). In `RECOVERY`, LOG_SIZE
stays 4 (R498). -/
def execRingEnable (dt ring : Nat) (value : Word) (s : State) : Result :=
  let s := s.elapse dt
  .next (if !s.mayEnable ring || !value.getLsbD 0 then s
    else
      let s := if s.pwr.state = .recovery then
        (s.setReg F.HST_RING_CTRL_LOG_SIZE ring 4).writeRingCtrl ring value true
        else s.writeRingCtrl ring value false
      (s.modRing ring fun r => { Ring.reset with
        badIndex := r.badIndex, haltSeq := r.haltSeq, haltIndex := r.haltIndex }).setRing ring .running)

/-- A waiting descriptor that its unit is carrying out already (R379, R382): a key operation on an engine, a search on a unit, a
capture, a flush under way. -/
def State.executing (s : State) (d : Desc) : Bool :=
  s.key.running.any (fun e => e.2.serial = d.serial) || s.gns.running.any (fun q => q.1 = d.serial) ||
  s.gns.captures.any (fun q => q.1 = d.serial) || (d.op = 0x1201 && s.crn.flushing)

/-- A descriptor waits, is pending, or has not had its turn on an ordered ring. -/
def State.notStarted (s : State) (d : Desc) : Bool :=
  match d.phase with
  | .launched => true
  | .ready => ordered d.ring
  | .waiting => !s.executing d

/-- The launch entry of a descriptor is taken out. -/
def State.dropLaunch (s : State) (serial : Nat) : State :=
  { s with tb := { s.tb with launches := s.tb.launches.filter fun l => l.kind ≠ .desc serial } }

/-- Writing EN 0: waiting and pending descriptors complete `ABORTED`, and executing ones finish (R379). -/
def State.stopRing (s : State) (ring : Nat) : State :=
  let gone := (s.takenOf ring).filter s.notStarted
  let s := s.setRing ring .stopping
  gone.foldl (fun s d => (s.dropLaunch d.serial).complete1 d St.aborted 0 []) s

def execRingDisable (dt ring : Nat) (value : Word) (s : State) : Result :=
  let s := s.elapse dt
  .next (if 64 ≤ ring || value.getLsbD 0 || s.pwr.state = .safeHold || s.hst.fault then s
    else
      let st := (s.ring ring).state
      let s := s.writeRingCtrl ring value (st ≠ .disabled || s.pwr.state = .recovery)
      if st = .running || st = .halted then s.stopRing ring else s)

/-- When its executing descriptors have finished, a STOPPING ring becomes DISABLED (R379). -/
def execRingDrained (dt ring : Nat) (s : State) : Result :=
  let s := s.elapse dt
  .next (if (s.ring ring).state = .stopping && s.inflight ring = 0 then s.setRing ring .disabled else s)

/-! ### DMA errors (R376) -/

/-- An ordered ring halts at a slot (R377). -/
def State.haltRing (s : State) (ring index : Nat) : State :=
  let s := s.modRing ring fun r => { r with state := .halted, haltSeq := r.haltSeq + 1, haltIndex := index }
  ((s.shadow ring).signalErr).raise (Ev.hstRingHalted ring) ring (leBytes 1 ring ++ leBytes 2 index)

/-- The opcodes of ordered rings that write their payload: KEY_WRAP_OUT and KEY_ATTEST (R370, R477). -/
def opWrites (op : Nat) : Bool := op = 0x0F06 || op = 0x0F07

/-- A payload error of a descriptor. On a timed ring, and for a descriptor under way, it completes `DMA_ERROR`. On an ordered ring
a payload is read ahead (R371), so that one which has not had its turn keeps the error for it and does not execute (R372); the error
of its payload write meets it when it executes: its effects stand, it completes `DMA_ERROR` and the ring halts. -/
def State.payloadError (s : State) (d : Desc) (detail : Nat) (reading : Bool) : State :=
  if !ordered d.ring || d.phase = .waiting then s.complete d St.dmaError [] detail
  else if reading && d.verdict.isNone then
    (s.modDesc d.serial fun e => { e with verdict := some (St.dmaError, detail) }).flushVerdict d.ring
  else if !reading && opWrites d.op then s.modDesc d.serial fun e => { e with unwritten := some detail }
  else s

/-- A DMA error of a kind (1 poisoned, 2 timeout, 3 UR, 4 CA) in a phase: 0 fetch, 1 payload read, 2 payload write,
3 completion write, 4 doorbell read, 5 shadow write. -/
def State.dmaError (s : State) (phase kind ring index : Nat) : State :=
  let s := ({ s with hst := { s.hst with dmaErrors := s.hst.dmaErrors + 1, dmaErr := true } }).raise Ev.hstDmaError ring
    (leBytes 1 ring ++ leBytes 1 kind ++ leBytes 1 phase)
  match phase with
  | 0 =>
    if s.mayTake ring then
      let d : Desc := ⟨s.hst.serial, ring, (s.ring ring).sqHead, List.replicate 64 0, false, false, some (St.dmaError, kind),
        true, .ready, none, none, false, none⟩
      (s.advanceSq ring).addTaken d
    else s
  | 1 | 2 =>
    match s.hst.taken.find? fun d => d.is ring index && d.phase ≠ .launched with
    | some d => s.payloadError d (kind + 16 * phase) (phase = 1)
    | none => s
  | 3 =>
    let s := ({ s with hst := { s.hst with cplLost := s.hst.cplLost + 1 } }).raise Ev.hstCplLost 0 []
    if ordered ring && (s.ring ring).state = .running then s.haltRing ring index else s
  | 4 => (({ s with hst := { s.hst with dbFail := true } }).mark T.doorbell).raise Ev.hstDbFail 0 []
  | _ => s

/-- A kind that R376 does not list has no code there: the code shown is free (log entry 64). -/
def execPcieDmaError (dt phase kind ring index : Nat) (s : State) : Result :=
  let s := s.elapse dt
  .next (if s.hst.fault || s.pwr.state = .safeHold then s
    else if 1 ≤ kind && kind ≤ 4 then s.dmaError phase kind ring index
    else s.draw.dmaError phase (Config.freeBits 21 s.free 4).toNat ring index)

/-! ### Function Level Reset and the link (R382) -/

/-- The MSI-X table after reset: every vector masked (log entry 11). -/
def State.resetHst (s : State) : State :=
  let s := (s.hst.taken.filter s.notStarted).foldl (fun s d => s.dropDesc d.serial) s
  { s with
    hst := { s.hst with
      rings := [], taken := s.hst.taken.map fun d => { d with silent := true }, msix := [], pba := 0, bases := [] }
    direct := s.direct.filter fun e => e.1 / 4096 ≠ 0xD
    tb := { s.tb with launches := s.tb.launches.filter fun l => l.kind.isCommit } }

/-- A Function Level Reset or a hot reset. -/
def execHstFlr (dt : Nat) (s : State) : Result :=
  .next (((s.elapse dt).resetHst).raise Ev.hstFlr 0 [])

/-- A loss of the link. -/
def execHstLinkDown (dt : Nat) (s : State) : Result :=
  let s := (s.elapse dt).resetHst
  .next (({ s with hst := { s.hst with linkUp := false, speed := 0, width := 0 } }).raise Ev.hstLinkDown 0 [])

/-- What the host sets in configuration space: a read request of 128 to 4,096 bytes, and a completion timeout of ranges A to C; a
value beyond them changes nothing (R360; the codes are PCI Express's, log entry 63). -/
def PciConfig.set (p : PciConfig) (readReq timeout : Nat) : PciConfig :=
  { p with
    maxRead := if readReq ≤ 5 then 128 * 2 ^ readReq else p.maxRead
    timeoutCode := if [0, 1, 2, 5, 6, 9, 10].contains timeout then timeout else p.timeoutCode }

/-- The link trains to L0 at a generation and width (R360, R382), and the host sets up configuration space: its Max_Read_Request_Size
and Completion Timeout Value are operands (log entry 63). What SPEED or WIDTH shows for a link that R360 does not list is free (log
entry 64). -/
def execPcieLinkUp (now : Timed HostSet) (speed width : Nat) (s : State) : Result :=
  let s := s.elapse now.dt
  let speed' := if 1 ≤ speed && speed ≤ s.hst.pci.maxSpeed then speed else (Config.freeBits 21 s.free 3).toNat
  let width' := if width = 1 || width = 2 || width = 4 then width else (Config.freeBits 22 s.free 4).toNat
  .next ({ s with hst := { s.hst with linkUp := true, speed := speed', width := width', pci := s.hst.pci.set now.env.readReq now.env.timeout } }.draw)

/-- MOD_TIME expires with uncounted completions (R381). -/
def execHstIrqModTimeout (dt ring : Nat) (s : State) : Result :=
  let s := s.elapse dt
  let r := s.ring ring
  let t := s.reg F.HST_RING_CTRL_MOD_TIME ring
  .next (if r.uncounted = 0 || t = 0 || s.reg F.HST_RING_CTRL_MOD_COUNT ring = 0 ||
      s.clk.counter < r.oldestAt + t * 8 * tickUs then s
    else (s.modRing ring fun r => { r with uncounted := 0 }).signal (s.reg F.HST_RING_CTRL_VECTOR ring))

/-! ### HST_NOP, HST_LAUNCH_CANCEL, launch entries -/

def execHstNop (dt ring index : Nat) (s : State) : Result :=
  .next ((s.elapse dt).withDesc ring index opNop (fun _ => true) fun s d => s.complete d St.ok)

/-- Withdraws one pending launch entry (R101, R375). -/
def State.launchCancel (s : State) (d : Desc) : State :=
  let ring := d.operand 0 1
  let index := d.operand 2 2
  let tag := d.operand 4 4
  if !(if d.ring = 1 then ring = 1 else 3 ≤ ring && ring < 64) then s.complete d St.badRing
  else if ring = 1 then
    match s.tb.launches.find? fun l => match l.kind with
        | .commit c => c.index = index && c.tag.toNat = tag
        | .desc _ => false with
    | some l =>
      let s := { s with tb := { s.tb with launches := s.tb.launches.filter fun x => x.kind ≠ l.kind } }
      (match l.kind with
        | .commit c => if c.mask.getLsbD U.hop then s.endAnnounce else s
        | .desc _ => s).complete d St.cancelled
    | none => s.complete d St.notPending
  else
    match s.hst.taken.find? fun e => e.is ring index && e.phase = .launched && e.tag = tag with
    | some e => ((s.dropLaunch e.serial).complete d St.ok).complete e St.cancelled
    | none => s.complete d St.notPending

def execHstLaunchCancel (dt ring index : Nat) (s : State) : Result :=
  .next ((s.elapse dt).withDesc ring index opLaunchCancel (fun _ => true) State.launchCancel)

/-- A descriptor whose entry has fired: it goes to the end of the taken ones, so that those of one tick start in the order in which
they fired (R373). -/
def State.startFired (s : State) (serial : Nat) (late : Bool) : State :=
  { s with hst := { s.hst with
    taken := (s.hst.taken.filter fun d => d.serial ≠ serial) ++ (s.hst.taken.filter fun d => d.serial = serial).map fun d =>
      { d with phase := .ready, late := d.late || late, firedAt := some s.clk.counter } } }

/-- A host one-shot entry fires, and its timed-ring descriptor starts (R98). The commits and periodic entries of its tick come
first (R99). -/
def State.fireEntry (s : State) : State :=
  match s.dueLaunch fun k => !k.isCommit with
  | none => s
  | some l =>
    if s.commitFirst (s.launchTick l) || s.periodicFirst (s.launchTick l) || s.pwr.state = .safeHold then s
    else match l.kind with
      | .desc n => (s.dropLaunch n).startFired n l.stepped
      | .commit _ => s

def execLaunchEntryFire (dt : Nat) (s : State) : Result := .next ((s.elapse dt).fireEntry)

end Sys2Proof.Machine
end

