-- ==== Sys2Proof/Machine/Commit.lean ====
section
/-! DEFINITION. The commit commands: CFG_COMMIT, HST_COMMIT and the launch instant of a queued commit, with commit blocks, the
checks of R55 and the configuration store (R47, R52 to R65, R100, R236, R385, R487). -/

namespace Sys2Proof.Machine

/-! ### Commit blocks (R52 to R54) -/

/-- What a commit block holds: named units, PERSIST, entries. -/
structure Block where
  mask : BitVec 20
  persist : Bool
  entries : List (Nat × Nat)
deriving DecidableEq, Repr

/-- The register at an offset has a staged field (R55). -/
def hasStaged (off : Nat) : Bool :=
  match regAt off with
  | some r => r.fields.any fun f => f.acc = .rws
  | none => false

/-- A commit block, none where step 1 of R55 fails. -/
def parseBlock (b : List Byte) : Option Block :=
  let n := fieldLE b 12 4
  let flags := fieldLE b 6 2
  let mask := BitVec.ofNat 20 (fieldLE b 8 4)
  let entries := (List.range n).map fun k => (fieldLE b (32 + 8 * k) 4, fieldLE b (36 + 8 * k) 4)
  let shape := fieldLE b 0 4 = 0x4B424643 && fieldLE b 4 2 = 1 && flags ≤ 1 && fieldLE b 8 4 < 2 ^ 20 &&
    1 ≤ n && n ≤ 8192 && b.length = 32 + 8 * n && (slice b 20 12).all (fun x => x = 0) &&
    fieldLE b 16 4 = crc32c (b.take 16 ++ leBytes 4 0 ++ b.drop 20)
  if !shape then none
  else if entries.all fun e => e.1 % 4 = 0 && e.1 < 2 ^ 20 && pageIn mask e.1 && hasStaged e.1 then
    some ⟨mask, bit flags 0, entries⟩
  else none

/-- Entries are written to staging in block order (R53). -/
def State.stageEntries (s : State) (l : List (Nat × Nat)) : State :=
  l.foldl (fun s e => match regAt e.1 with
    | some r => s.writeStaged r e.1 e.2
    | none => s) s

/-- The registers of the named units that hold staged fields, in ascending order of offset. -/
def stagedRegs (p : Part) (mask : BitVec 20) : List (Nat × RegDef) :=
  sortBy (fun e => e.1) (((regTable.filter fun r => r.fields.any fun f => f.acc = .rws).map fun r =>
    ((List.range r.count).map fun i => (r.base + r.stride * i, r)).filter fun e =>
      pageIn mask e.1 && p.fitMask e.1 ≠ 0).flatten)

/-- The commit block that PERSIST stores for staging contents (CFG_COMMIT, R47): every register of the named units. -/
def State.blockOf (s : State) (mask : BitVec 20) : List Byte :=
  let regs := stagedRegs s.id.part mask
  let head := leBytes 4 0x4B424643 ++ leBytes 2 1 ++ leBytes 2 1 ++ leBytes 4 mask.toNat ++ leBytes 4 regs.length
  let rest := leBytes 12 0 ++ (regs.map fun e =>
    leBytes 4 e.1 ++ leBytes 4 (tget s.cfg.staged.regs (BitVec.ofNat 32 (e.2.resetWord .rws)) e.1).toNat).flatten
  head ++ leBytes 4 (crc32c (head ++ leBytes 4 0 ++ rest)) ++ rest

/-! ### The configuration store (R60, R487) -/

/-- Blocks dropped to make space, and those kept, oldest first. -/
def makeSpace (new : StoredBlock) : Nat → List StoredBlock → List StoredBlock → List StoredBlock × List StoredBlock
  | 0, held, gone => (held, gone)
  | fuel + 1, held, gone =>
    let others := held.filter fun b => !replaces new b
    if 7 < others.length || 256 < (held.map storeUnits).sum + storeUnits new then
      match others with
      -- the blocks that it replaces go too when units are still short
      | [] => ([], gone)
      | o :: _ => makeSpace new fuel (held.erase o) (gone ++ [o])
    else (held, gone)

/-- Commit words written by now settle their blocks in the store. -/
def State.settleStore (s : State) : State :=
  { s with nvm := { s.nvm with
    store := s.settledStore, storing := s.nvm.storing.filter fun x => decide (s.clk.counter < x.wordAt) } }

/-- The counter at which a new block's commit word is written: its own writes follow those of the blocks before it. -/
def State.commitWordAt (s : State) (env : CommitIn) : Nat :=
  (s.nvm.storing.map fun x => x.wordAt).foldl max (s.clk.counter + env.check) + env.store

/-- A block is stored as two copies with a commit word, which makes it the stored block (R60): with NV writes stopped by PFAIL_N none
is; the NV block it lies in is a free value. -/
def State.storeBlock (s : State) (mask : BitVec 20) (bytes : List Byte) (env : CommitIn) : State :=
  if s.nvHeld || s.nvm.fault then s
  else
    let s := s.settleStore
    -- the blocks held once those on their way are stored, for they are written first
    let all := s.nvm.storing.foldl settleBlock s.nvm.store
    let (held, gone) := makeSpace ⟨mask, bytes⟩ (all.length + 1) all []
    let out := fun (b : StoredBlock) => all.contains b && !held.contains b
    let s := gone.foldl (fun s _ => s.raise Ev.nvmCfgDropped 0 []) { s with nvm := { s.nvm with
        store := s.nvm.store.filter fun b => !out b, storing := s.nvm.storing.filter fun x => !out ⟨x.mask, x.copyA⟩ } }
    match ({ s with free := s.free + 1 }).nvWrite Region.config ((Config.freeBits 9 s.free 4).toNat) ⟨0, env.bad, none⟩ with
    | (s, .done) => { s with nvm := { s.nvm with storing := s.nvm.storing ++ [⟨mask, bytes, bytes, s.commitWordAt env⟩] } }
    | (s, _) => s

/-! ### Tables in host memory (R236, R255) -/

/-- One read by DMA for a commit: a byte that host memory does not answer is an Unsupported Request, reported for ring 1. -/
def State.dmaTable (s : State) (host : List (Nat × List Byte)) (addr n : Nat) : State × Option (List Byte) :=
  match hostRead host addr n with
  | some b => (s, some b)
  | none => (({ s with hst := { s.hst with dmaErrors := s.hst.dmaErrors + 1, dmaErr := true } }).raise Ev.hstDmaError 1
      (leBytes 1 1 ++ leBytes 1 3 ++ leBytes 1 1), none)

/-- The slot tables of enabled ports and the node table of a configuration: read where the commit names HOP, else those committed
before. -/
def State.readTables (s : State) (conf : Conf) (named : BitVec 20) (host : List (Nat × List Byte)) :
    State × Tbl (List Byte) × Option (List Byte) :=
  let ports := (List.range s.id.part.radios).filter fun p => conf.get F.HOP_PORT_CTRL_EN p = 1
  if named.getLsbD U.hop then
    let (s, l) := ports.foldl (fun (a : State × Tbl (List Byte)) p =>
      let base := conf.get F.HOP_PORT_SLOT_TABLE_BASE_LO_ADDR p + 2 ^ 32 * conf.get F.HOP_PORT_SLOT_TABLE_BASE_HI_ADDR p
      match a.1.dmaTable host base (80 + 8 * (sfNs / slotLenNs (conf.get F.HOP_PORT_CTRL_SLOT_LEN p))) with
      | (s, some t) => (s, tput a.2 p t)
      | (s, Option.none) => (s, a.2)) (s, [])
    let n := 16 * conf.get F.HOP_NODE_COUNT_COUNT
    if n = 0 then (s, l, some [])
    else
      let (s, t) := s.dmaTable host (conf.get F.HOP_NODE_TABLE_LO_ADDR + 2 ^ 32 * conf.get F.HOP_NODE_TABLE_HI_ADDR) n
      (s, l, t)
  else
    (s, ports.foldl (fun l p => tput l p ((s.hopPort p).next.getD (s.hopPort p).table)) [], some s.hop.nodeTable)

/-- What the commit of a snapshot would result in (R56). -/
def State.candidate' (s : State) (snap : Conf) (named : BitVec 20) (host : List (Nat × List Byte)) (again : Bool) : State × Cand :=
  let conf := s.cfg.active.withUnits snap named
  let (s, slots, nodes) := s.readTables conf named host
  let ann := if again && named.getLsbD U.hop then (List.range 4).foldl (fun l p => match (s.hopPort p).announce with
    | some a => tput l p a.table
    | Option.none => l) [] else []
  (s, ⟨conf, named, s.cfg.units ||| named, slots, nodes, ann⟩)

/-! ### The checks (R55) -/

/-- Units of the pending launch-timed commits. -/
def State.pendingUnits (s : State) : BitVec 20 :=
  s.tb.launches.foldl (fun m l => match l.kind with
    | .commit c => m ||| c.mask
    | .desc _ => m) 0

/-- Steps 4 and 5: the reason and rule of a refusal. -/
def State.checkRules (s : State) (c : Cand) (persist : Bool) : Option (Nat × Nat) :=
  match s.firstBroken c with
  | some r => some (Rf.rule, r)
  | Option.none => if persist && s.readOnly Region.config then some (Rf.worn, 0) else Option.none

/-- Steps 2 to 5. -/
def State.checkCommit (s : State) (c : Cand) (entries : List (Nat × Nat)) (persist : Bool) : Option (Nat × Nat) :=
  if s.absentUnit c entries then some (Rf.absentUnit, 0)
  else if c.named &&& s.pendingUnits ≠ 0 then some (Rf.pending, 0)
  else s.checkRules c persist

/-- A commit takes effect, and its block is stored under PERSIST (R60). -/
def State.commitNow (s : State) (c : Cand) (persist : Bool) (block : List Byte) (env : CommitIn) : State :=
  let s := s.takeEffect c
  if persist then s.storeBlock c.named block env else s

/-- A CFG_COMMIT's check begins: CFG_STATUS shows BUSY while it lasts (R61). What the commit does stands from its beginning, and is
taken back when a fatal cause arises before its end (R29; DESIGN CHOICE, log entry 52). -/
def State.beginCheck (s : State) (env : CommitIn) : State :=
  { s with cfg := { s.cfg with busyUntil := s.clk.counter + env.check } }

/-- What a commit of the named units replaces in `was` is kept while its check lasts. -/
def State.keepUndo (s was : State) (named : BitVec 20) : State :=
  { s with undo := some {
      state := was.pwr.state, named := named, active := was.cfg.active, units := was.cfg.units
      generation := was.cfg.generation, fld := was.fld, sec := was.sec, gns := was.gns, mir := was.mir, fix := was.fix
      hop := was.hop, fab := was.fab, link := was.key.link, training := was.mem.training
      recorderNext := was.nvm.recorderNext, store := was.nvm.store, storing := was.nvm.storing } }

/-- A commit by ring or launch comes after the check of a register commit: that check is over (log entry 52). -/
def State.endCheck (s : State) : State :=
  { s with undo := none, cfg := { s.cfg with busyUntil := min s.cfg.busyUntil s.clk.counter } }

/-- The fatal cause that arises during a check. -/
def fatalCause (env : CommitIn) : Option Nat :=
  env.cause.filter fun c => decide (Fatal.eccStp ≤ c ∧ c ≤ Fatal.securityCore)

/-- A commit is abandoned at a fatal cause: the active configuration stays, and `SAFE_HOLD` is entered (R29). -/
def State.abandonCommit (s : State) (cause : Nat) : State := ((s.noteRefusal Rf.abandoned 0).endCheck).fatal cause

/-! ### CFG_COMMIT (R61) -/

def State.commitRegister (s : State) (v : Word) (env : CommitIn) : State :=
  let mask : BitVec 20 := BitVec.ofNat 20 v.toNat
  let persist := v.getLsbD 20
  if s.pwr.inReset || s.hst.fault || bits v.toNat 24 8 ≠ 0x5C || s.clk.counter < s.cfg.busyUntil then s
  else if s.pwr.state = .safeHold then s.noteRefusal Rf.state 0
  else if mask = 0 then s.noteRefusal Rf.empty 0
  else if s.hst.rings.any fun r => r.2.state ≠ .disabled then s.noteRefusal Rf.ringsRunning 0
  else
    let (s, c) := (s.beginCheck env).candidate' (s.cfg.staged.only mask) mask env.host false
    match fatalCause env, s.checkCommit c [] persist with
    | some cause, _ => s.abandonCommit cause
    | Option.none, some (reason, rule) => (s.noteRefusal reason rule).keepUndo s 0
    | Option.none, Option.none => (s.commitNow c persist (s.blockOf mask) env).keepUndo s mask

def execCfgCommit (dt : Nat) (value : Word) (env : CommitIn) (s : State) : Result :=
  .next ((s.elapse dt).commitRegister value env)

/-! ### HST_COMMIT (R63, R385) -/

/-- RESULT of R385. -/
def commitResult (rule queued gen : Nat) : List Byte := leBytes 2 rule ++ leBytes 1 queued ++ [0] ++ leBytes 4 gen ++ leBytes 8 0

/-- A refused commit: CFG_STATUS, and the completion. -/
def State.refuseCommit (s : State) (d : Desc) (reason rule : Nat) : State :=
  (s.noteRefusal reason rule).complete d St.refused (commitResult rule 0 0) reason

/-- A queued commit: every enabled port's schedule is pending from now, and is announced to its joined machines (R236). -/
def State.announceAll (s : State) (c : Cand) (launch : Nat) : State :=
  if !c.named.getLsbD U.hop then s
  else c.slots.foldl (fun s e =>
    let a : Announce := ⟨e.2, launch, c.narrow e.1, c.get F.HOP_PORT_CTRL_DATA_MODE e.1⟩
    let s := s.modHop e.1 fun h => { h with announce := some a }
    (s.joinedOn e.1).foldl (fun s m => s.announceTo e.1 m a (c.get F.HOP_PORT_KEYS_GROUP e.1) (c.get F.HOP_PORT_KEYS_STOP e.1)
      (((s.hopPort e.1).keyGen.toNat + 1) % 256)) s) s

/-- A commit descriptor whose block's entries are in staging; `before` is staging as it stood before them (R53). -/
def State.runCommit (s : State) (d : Desc) (b : Block) (block : List Byte) (before : Conf) (env : CommitIn) : State :=
  let snap := s.cfg.staged.only b.mask
  let restore := fun (s : State) => { s with cfg := { s.cfg with staged := before } }
  let (s, c) := s.endCheck.candidate' snap b.mask env.host false
  match fatalCause env, s.checkCommit c b.entries b.persist with
  | some cause, _ => (restore s).abandonCommit cause
  | Option.none, some (reason, rule) => (restore s).refuseCommit d reason rule
  | Option.none, Option.none =>
    if s.now < d.launch then
      if s.launchRoom then
        let s := s.insertLaunch d.launch (.commit ⟨d.ring, d.index, BitVec.ofNat 32 d.tag, b.mask, snap, b.persist, block⟩)
        (s.announceAll c d.launch).complete d St.ok (commitResult 0 1 0)
      else ((restore s).refuseCommit d Rf.launchFull 0).raise Ev.tbLaunchFull 0 []
    else
      let s := s.commitNow c b.persist block env
      s.complete { d with late := d.late || d.launch ≠ 0 } St.ok (commitResult 0 0 s.cfg.generation.toNat)

/-- HST_COMMIT: of a block, or, without a payload, of the staging contents (R47). -/
def State.hostCommit (s : State) (d : Desc) (payload : List Byte) (env : CommitIn) : State :=
  let before := s.cfg.staged
  if d.len = 0 then
    let mask : BitVec 20 := BitVec.ofNat 20 (d.operand 0 4)
    if mask = 0 then s.refuseCommit d Rf.empty 0
    else
      let persist := bit (d.operand 4 1) 0
      s.runCommit d ⟨mask, persist, []⟩ (if persist then s.blockOf mask else []) before env
  else if 131072 < d.len then s.refuseCommit d Rf.badBlock 0
  else match parseBlock (padTo d.len payload) with
    | Option.none => s.refuseCommit d Rf.badBlock 0
    | some b => (s.stageEntries b.entries).runCommit d b (padTo d.len payload) before env

def execHstCommit (dt ring index : Nat) (payload : List Byte) (host : List (Nat × List Byte)) (run : CommitRun) (s : State) : Result :=
  .next ((s.elapse dt).withDesc ring index opCommit (fun _ => true) fun s d => s.hostCommit d payload ⟨run, host⟩)

/-! ### The launch instant (R64, R65) -/

/-- The first due commit is re-checked, and takes effect or is dropped. -/
def State.launchCommit (s : State) (env : CommitIn) : State :=
  match s.dueLaunch LaunchKind.isCommit with
  | Option.none => s
  | some l => match l.kind with
    | .desc _ => s
    | .commit p =>
      let s := { s with tb := { s.tb with launches := s.tb.launches.erase l } }
      let (s, c) := s.endCheck.candidate' p.snap p.mask env.host true
      match fatalCause env, s.checkRules c p.persist with
      | some cause, _ => s.abandonCommit cause
      | Option.none, some (reason, rule) =>
        let s := if p.mask.getLsbD U.hop then s.endAnnounce else s
        (s.noteRefusal reason rule).raise Ev.cfgLaunchRefused 0 (leBytes 1 reason)
      | Option.none, Option.none => (s.commitNow c p.persist p.block env).raise Ev.cfgApplied 0 []

def execLaunchCommitApply (dt : Nat) (host : List (Nat × List Byte)) (run : CommitRun) (s : State) : Result :=
  let s := s.elapse dt
  .next (if s.pwr.inReset || s.clk.frozen then s else s.launchCommit ⟨run, host⟩)

end Sys2Proof.Machine
end

