-- ==== Sys2Proof/Machine/FieldStore.lean ====
section
/-! DEFINITION. The Field Store's commands: tiles, tables and map deltas (R124, R128 to R137). -/

namespace Sys2Proof.Machine

def opFldTile : Nat := 0x0501
def opFldTable : Nat := 0x0502
def opFldSync : Nat := 0x0503

/-- A descriptor of the unit, after its unit checks; one that reaches DRAM waits until READY. -/
def State.withFld (s : State) (ring index op : Nat) (variant : Desc → Bool) (dram : Bool) (f : State → Desc → State) : State :=
  s.withDesc ring index op variant fun s d =>
    match s.fldStop dram with
    | some st => s.complete d st
    | none => if dram && s.dramHeld then s else if d.len = 0 then s.complete d St.empty else f s d

/-! ### FLD_TILE_XFER (R128 to R131) -/

/-- FIELD of a tile transfer, held at 15. -/
def State.tileField (s : State) (d : Desc) (f : State → Desc → Nat → State) : State :=
  let n := min 15 (d.operand 0 1)
  let c := decide (n ≠ d.operand 0 1)
  let s := s.countClamps (b2n c) none
  let d := d.clampIf c
  if s.fieldOn n then f s d n else s.complete d St.badField

def execFldTileLoad (dt ring index : Nat) (payload : List Byte) (s : State) : Result :=
  .next ((s.elapse dt).withFld ring index opFldTile (fun d => d.operand 1 1 = 0) true fun s d =>
    s.tileField d fun s d f =>
      let p := padTo d.len payload
      let (s, st, n) := s.loadTiles f (p.length / 8 + 1) p 0
      s.complete d st (leBytes 4 n))

/-- The tiles of a rectangle clipped to the grid, row by row. -/
def rectTiles (e0 ce tilesE n0 cn tilesN : Nat) : List (Nat × Nat) :=
  ((List.range cn).filterMap fun j =>
    if n0 + j < tilesN then some ((List.range ce).filterMap fun i =>
      if e0 + i < tilesE then some (e0 + i, n0 + j) else none) else none).flatten

def execFldTileSave (dt ring index : Nat) (s : State) : Result :=
  .next ((s.elapse dt).withFld ring index opFldTile (fun d => d.operand 1 1 ≠ 0) true fun s d =>
    if 1 < d.operand 1 1 || 5 < d.operand 3 1 then s.complete d St.badDesc
    else s.tileField d fun s d f =>
      let ce := clampNat 1 256 (d.operand 6 2)
      let cn := clampNat 1 256 (d.operand 8 2)
      let n := b2n (ce ≠ d.operand 6 2) + b2n (cn ≠ d.operand 8 2)
      let s := s.countClamps n none
      let d := d.clampIf (n ≠ 0)
      let tiles := rectTiles (d.operand 4 1) ce (s.tilesE f) (d.operand 5 1) cn (s.tilesN f)
      let (s, out, k, rest) := s.saveTiles f (d.operand 3 1) d.len (bit (d.operand 2 1) 0) tiles [] 0
      let s := s.writePayload d 0 out
      match rest with
      | some t => s.complete d St.more (leBytes 4 t)
      | none => s.complete d St.ok (leBytes 4 k))

/-! ### FLD_TABLE_XFER (R132, R133) -/

/-- TABLE, FIRST and COUNT of a table transfer whose payload has the right length. -/
def State.fldTable (s : State) (d : Desc) (f : State → Desc → Nat → Nat → Nat → State) : State :=
  let t := d.operand 0 1
  let count := max 1 (d.operand 8 4)
  let c := decide (count ≠ d.operand 8 4)
  let s := s.countClamps (b2n c) none
  let d := d.clampIf c
  if 2 < t then s.complete d St.badDesc
  else if d.len ≠ count * tblSize t then s.complete d St.length
  else f s d t (d.operand 4 4) count

/-- `OK`, or `NO_UNIT` where the span reaches past the part's size. -/
def State.tableStatus (s : State) (t first count : Nat) : Nat := if s.tblLimit t < first + count then St.noUnit else St.ok

/-- Entries of a table that lie on the part, written from a payload. -/
def writeTable (v : Tbl (List Byte)) (t limit first count : Nat) (p : List Byte) : Tbl (List Byte) :=
  let w := tblSize t
  (List.range count).foldl (fun v k =>
    if limit ≤ first + k then v
    else
      let e := (tblFix t (slice p (w * k) w)).1
      tset v [] (first + k) (if e.all (· = 0) then [] else e)) v

/-- The staging images lie in DRAM (R115), so that a transfer of them waits until READY. -/
def execFldTableWriteStaging (dt ring index : Nat) (payload : List Byte) (s : State) : Result :=
  .next ((s.elapse dt).withFld ring index opFldTable (fun d => d.operand 0 1 ≤ 2 && d.operand 1 1 = 0) true fun s d =>
    s.fldTable d fun s d t first count =>
      let w := tblSize t
      let limit := s.tblLimit t
      let p := padTo d.len payload
      let n := ((List.range count).map fun k => if limit ≤ first + k then 0 else (tblFix t (slice p (w * k) w)).2).sum
      let s := { s with cfg := { s.cfg with
        staged := s.cfg.staged.setTable t (writeTable (s.cfg.staged.table t) t limit first count p) } }
      (s.countClamps n none).complete (d.clampIf (n ≠ 0)) (s.tableStatus t first count))

/-- Entries of a configuration's table as they read: zero beyond the part's size. -/
def State.readTable (s : State) (c : Conf) (t first count : Nat) (live : Bool) : List Byte :=
  ((List.range count).map fun k =>
    let i := first + k
    if s.tblLimit t ≤ i then List.replicate (tblSize t) 0
    else
      let e := padTo (tblSize t) (tget (c.table t) [] i)
      if t = 1 && live then e.take 12 ++ leBytes 4 (tget s.fld.secState 0 i).toNat else e).flatten

/-- DIR 1; an unassigned TABLE or DIR completes `BAD_DESC` (R42). -/
def execFldTableReadStaging (dt ring index : Nat) (s : State) : Result :=
  .next ((s.elapse dt).withFld ring index opFldTable
    (fun d => d.operand 1 1 = 1 || 2 < d.operand 0 1 || 2 < d.operand 1 1) true fun s d =>
      if 2 < d.operand 0 1 || 2 < d.operand 1 1 then s.complete d St.badDesc
      else s.fldTable d fun s d t first count =>
        (s.writePayload d 0 (s.readTable s.cfg.staged t first count false)).complete d (s.tableStatus t first count))

/-- The active tables lie in the scratchpad (R124). -/
def execFldTableReadActive (dt ring index : Nat) (s : State) : Result :=
  .next ((s.elapse dt).withFld ring index opFldTable (fun d => d.operand 0 1 ≤ 2 && d.operand 1 1 = 2) false fun s d =>
    s.fldTable d fun s d t first count =>
      (s.writePayload d 0 (s.readTable s.cfg.active t first count true)).complete d (s.tableStatus t first count))

/-! ### Map deltas (R134, R135) and the copy (R124) -/

/-- The length of the body is tested before its FIELD_ID (DESIGN CHOICE, log entry 74). -/
def execFldSyncApply (dt ring index : Nat) (payload : List Byte) (s : State) : Result :=
  .next ((s.elapse dt).withFld ring index opFldSync (fun _ => true) true fun s d =>
    let p := padTo d.len payload
    let n := fieldLE p 8 2
    if n = 0 || 339 < n || d.len ≠ 12 + 6 * n then s.complete d St.length
    else match s.fieldById (fieldLE p 0 4) with
      | none => s.complete d St.badField
      | some f =>
        let k := deltaClamps p
        ((s.countClamps k none).applyDelta f p).complete (d.clampIf (k ≠ 0)) St.ok)

/-- Every PERIOD superframes, in `RUN`, after the commits due by then (R64). -/
def execFldSyncSend (dt : Nat) (s : State) : Result :=
  let s := s.elapse dt
  let sf := s.now / 20000000
  let next := if s.fld.sentAt ≤ sf then s.fld.sentAt + s.reg F.FLD_SYNC_CTRL_PERIOD else sf
  .next (if s.pwr.state ≠ .run || !s.unitOn U.fld || s.fld.fault || sf < next || s.commitWaits (next * 20000000) then s
    else s.sendDeltas)

def execFldCopyDone (dt : Nat) (s : State) : Result :=
  let s := s.elapse dt
  .next (if s.fld.copying then ({ s with fld := { s.fld with copying := false } }).raise Ev.fldCopyDone 0 [] else s)

end Sys2Proof.Machine
end

