-- ==== Sys2Proof/Machine/Solver.lean ====
section
/-! DEFINITION. The central solver's mathematics: pairing, the filter, the integer search and the field frame of a solution (R107,
R207 to R214). What the manual leaves open of it stands in log entry 73. -/

namespace Sys2Proof.Machine

/-! ### Matrices, by rows -/

abbrev Mat := List (List Rat)

def Mat.at' (a : Mat) (i j : Nat) : Rat := (a.getD i []).getD j 0

/-- The matrix of n rows and m columns with these members. -/
def Mat.of (n m : Nat) (f : Nat → Nat → Rat) : Mat := (List.range n).map fun i => (List.range m).map fun j => f i j

def dotR (a b : List Rat) : Rat := (List.zipWith (fun x y => x * y) a b).sum

def Mat.transpose (a : Mat) : Mat := (List.range (a.headD []).length).map fun j => a.map fun r => r.getD j 0

def Mat.mul (a b : Mat) : Mat := a.map fun r => b.transpose.map fun c => dotR r c

def Mat.sub (a b : Mat) : Mat := List.zipWith (fun r s => List.zipWith (fun x y => x - y) r s) a b

/-- T P Tᵀ: a covariance carried by a linear map. -/
def Mat.carry (t p : Mat) : Mat := (t.mul p).mul t.transpose

/-- X with X S = B, for a symmetric S. -/
def Mat.solveRight (b s : Mat) : Option Mat := b.mapM fun r => solveRows s.length (List.zipWith (fun row v => row ++ [v]) s r)

/-! ### Observations (R204, R207) -/

/-- Code and phase of a signal block, m. -/
def ObsSig.rho (o : ObsSig) : Rat := lightSpeed / 1000 * ((o.rough : Rat) / 2 ^ 16 + (o.finePsr : Rat) / 2 ^ 24)
def ObsSig.phi (o : ObsSig) : Rat := lightSpeed / 1000 * ((o.rough : Rat) / 2 ^ 16 + (o.finePhase : Rat) / 2 ^ 31)

/-- Key of an ambiguity: signal and satellite. -/
def ambKey (o : ObsSig) : Nat := sigKey o.sig o.svid

def satOf (o : ObsSig) : Nat := o.sys * 256 + o.svid

/-- A rover signal, the reference entry that it pairs with, its satellite, and the sine of the elevation at the base. -/
structure Paired where
  o : ObsSig
  e : Entry
  v : SatView
  sinEl : Rat

/-- The base's phase centre: FIX_BASE_PCO above the base coordinates along the local up (R208). -/
def SolveCfg.basePhase (c : SolveCfg) : Vec :=
  let b := Vec.ofMm c.base
  b.add ((frameAt b).up.scale ((c.pco : Rat) / 1000))

/-- Pairs of an epoch: SIGNAL and PILOT equal, a valid range not excluded, above ELEV_MASK at the base (R207). -/
def pairsOf (q : Solve) (sky : List SatView) (base : Vec) (r : MeasRec) : List Paired :=
  q.obs.sigs.filterMap fun o =>
    match r.entries.find? fun e => e.sig = o.sig && e.svid = o.svid && e.pilot = o.pilot && e.rangeValid && !e.excluded,
      viewOf sky o.sys o.svid with
    | some e, some v => if aboveMask q.cfg.elevMask (sinElevAt v base) then some ⟨o, e, v, sinElevAt v base⟩ else none
    | _, _ => none

/-- Phase takes part in a pair. -/
def Paired.phase (p : Paired) : Bool := p.o.phaseValid && p.e.phaseValid && !p.o.halfAmb && !p.e.halfAmb

/-- Sorted by elevation, the highest first. -/
def byElev (l : List Paired) : List Paired := sortBy (fun p => ((1 - p.sinEl) * 2 ^ 64).floor.toNat) l

/-- The 90 phase pairs of highest elevation (R208). -/
def phaseSet (l : List Paired) : List Paired := (byElev (l.filter Paired.phase)).take 90

/-- The reference pair of a signal: the highest with phase on both sides; for code alone, the highest (R208, log entry 73). -/
def refPair (l : List Paired) (sig : Nat) : Option Paired :=
  let mine := byElev (l.filter fun p => p.o.sig = sig)
  (mine.find? Paired.phase).or mine.head?

/-- Carrier wavelength by signal and slot, m. -/
def waveOf (sig : Nat) (slot : Int) : Rat := lightSpeed / (sigOf sig).freq slot

def Paired.wave (p : Paired) : Rat := waveOf p.o.sig p.o.slot

/-- Rover less base, m: code or phase, the rover's carried from t_m to t_obs at the satellite's range rate there (R207). -/
def Paired.single (p : Paired) (phase : Bool) (rover : Vec) (clkOfs : Int) : Rat :=
  (if phase then p.o.phi else p.o.rho) - rateTo p.v rover * ((clkOfs : Rat) / 1000000000) -
    (if phase then p.e.lambda * p.e.phaseR else p.e.rho)

/-- Height above the ellipsoid, m. -/
def heightOf (p : Vec) : Rat :=
  let u := (frameAt p).up
  p.dot u - grsA * sqrtR (1 - grsE2 * u.2.2 * u.2.2)

/-- What the geometry and the standard atmosphere predict of the same, m. -/
def Paired.predicted (p : Paired) (rover base : Vec) : Rat :=
  rangeTo p.v rover - rangeTo p.v base +
    (Config.standardAtmosphere (heightOf rover) (sinElevAt p.v rover) - Config.standardAtmosphere (heightOf base) p.sinEl)

/-- Variance of one observation, m²: phase σ² = PHASE_A² + PHASE_B² / sin², and code CODE_RATIO times the deviation (R208). -/
def obsVar (c : SolveCfg) (sinEl : Rat) (phase : Bool) : Rat :=
  let a : Rat := (c.phaseA : Rat) / 1000
  let b : Rat := (c.phaseB : Rat) / 1000
  let v := a * a + ratioOr (b * b) (sinEl * sinEl) 0
  if phase then v else v * c.codeRatio * c.codeRatio

/-! ### The filter (R208, R209) -/

/-- A filter carried to `t`: constant velocity with white acceleration noise. -/
def RoverFilter.predict (f : RoverFilter) (accel t : Nat) : RoverFilter :=
  let dt : Rat := (((t : Int) - ((f.last.getD t : Nat) : Int) : Int) : Rat) / 1000000000
  let a : Rat := (accel : Rat) / 20
  let q := a * a
  let n := f.x.length
  let step := Mat.of n n fun i j => if i = j then 1 else if i < 3 ∧ j = i + 3 then dt else 0
  let noise := Mat.of n n fun i j =>
    if i < 3 ∧ i = j then q * dt * dt * dt / 3
    else if i < 6 ∧ i = j then q * dt
    else if (i < 3 ∧ j = i + 3) ∨ (j < 3 ∧ i = j + 3) then q * dt * dt / 2 else 0
  { f with
    x := step.map fun r => dotR r f.x
    p := List.zipWith (fun r s => List.zipWith (fun x y => x + y) r s) (step.carry f.p) noise }

def RoverFilter.pos (f : RoverFilter) : Vec := Vec.ofList f.x
def RoverFilter.vel (f : RoverFilter) : Vec := Vec.ofList (f.x.drop 3)

/-- An ambiguity stands no longer: SLIPS or LLI changed, or more than MAX_GAP periods since its last epoch (R209). -/
def Amb.broken (a : Amb) (c : SolveCfg) (t : Nat) (p : Paired) : Bool :=
  a.slips ≠ p.o.slips || a.lli ≠ p.e.lli || a.last + c.maxGap * c.period < t

/-- The pairs of an epoch by what an ambiguity needs of them. -/
structure PhaseEpoch where
  phases : List Paired
  /-- The reference satellite of each signal, as an ambiguity's key. -/
  refs : Tbl Nat

def phaseEpoch (phases : List Paired) : PhaseEpoch :=
  ⟨phases, (phases.map fun p => p.o.sig).eraseDups.foldl (fun t g =>
    match refPair phases g with | some r => tput t g (ambKey r.o) | none => t) []⟩

def PhaseEpoch.pair (e : PhaseEpoch) (k : Nat) : Option Paired := e.phases.find? fun p => ambKey p.o = k

/-- The record of a key stands in an epoch (R209). -/
def RoverFilter.stands (f : RoverFilter) (c : SolveCfg) (t : Nat) (e : PhaseEpoch) (k : Nat) : Bool :=
  match tfind f.ambs k with
  | some a => match e.pair k with
    | some p => !a.broken c t p
    | none => decide (t ≤ a.last + c.maxGap * c.period)
  | none => false

/-- Carrier wavelength of a key, m. -/
def RoverFilter.waveAt (f : RoverFilter) (e : PhaseEpoch) (k : Nat) : Rat :=
  match e.pair k with
  | some p => p.wave
  | none => waveOf (k / 256) (((tfind f.ambs k).map fun a => a.slot).getD 0)

/-- The float value with which an ambiguity begins against another: phase less code, differenced twice, in cycles (log entry 73). -/
def firstAmb (e : PhaseEpoch) (rover : Vec) (clkOfs : Int) (k r : Nat) : Rat :=
  match e.pair k, e.pair r with
  | some p, some q =>
    (p.single true rover clkOfs - p.single false rover clkOfs - (q.single true rover clkOfs - q.single false rover clkOfs)) / p.wave
  | _, _ => 0

/-- A linear form over a filter's states, with a constant, and whether a first variance of its own goes with it. -/
structure Form where
  row : List Rat
  const : Rat
  noise : Rat

/-- The state of a key's ambiguity, times `v`. -/
def RoverFilter.unit (f : RoverFilter) (k : Nat) (v : Rat) : List Rat :=
  let keys := f.ambs.map fun a => a.1
  (List.range f.x.length).map fun i => if i = 6 + keys.idxOf k then v else 0

/-- What the ambiguity of an epoch's reference satellite is against the reference of before: its own where it stands; else its float
initial value against the highest satellite of the signal that stands, the old reference among them, so that what the others know
of one another is kept (R208). None where nothing of the signal stands. -/
def RoverFilter.datum (f : RoverFilter) (c : SolveCfg) (t : Nat) (clkOfs : Int) (e : PhaseEpoch) (g : Nat) : Option Form :=
  match tfind e.refs g with
  | none => some ⟨List.replicate f.x.length 0, 0, 0⟩
  | some r =>
    if f.stands c t e r then some ⟨f.unit r 1, 0, 0⟩
    else ((byElev e.phases).find? fun p => p.o.sig = g && f.stands c t e (ambKey p.o)).map fun p =>
      ⟨f.unit (ambKey p.o) (ratioOr p.wave (f.waveAt e r) 0), firstAmb e f.pos clkOfs r (ambKey p.o), 1⟩

/-- The ambiguity of a key survives into an epoch: its record stands, and its reference satellite can be referred to the one before
(log entry 73). -/
def RoverFilter.survives (f : RoverFilter) (c : SolveCfg) (t : Nat) (clkOfs : Int) (e : PhaseEpoch) (k : Nat) : Bool :=
  f.stands c t e k && (f.datum c t clkOfs e (k / 256)).isSome

/-- The ambiguities that an epoch works with: those of its phases, and absent ones that still stand, 90 at most. -/
def RoverFilter.keysAt (f : RoverFilter) (c : SolveCfg) (t : Nat) (clkOfs : Int) (e : PhaseEpoch) : List Nat :=
  let now := e.phases.map fun p => ambKey p.o
  let old := (f.ambs.map fun a => a.1).filter fun k => !now.contains k && f.survives c t clkOfs e k
  sortBy (fun k => k) ((now ++ old).take 90)

/-- The ambiguity of a key that survives, from the old states: its own less its reference satellite's, in wavelengths of its own, so
that integers stay integers (R208). -/
def RoverFilter.ambForm (f : RoverFilter) (c : SolveCfg) (t : Nat) (clkOfs : Int) (e : PhaseEpoch) (k : Nat) : Form :=
  match tfind e.refs (k / 256), f.datum c t clkOfs e (k / 256) with
  | some r, some d =>
    let v := ratioOr (f.waveAt e r) (f.waveAt e k) 0
    ⟨List.zipWith (fun x y => x - v * y) (f.unit k 1) d.row, -(v * d.const), -(v * d.noise)⟩
  | _, _ => ⟨f.unit k 1, 0, 0⟩

/-- A filter with the ambiguities of an epoch: carried, begun anew, or 0 for a reference satellite. -/
def RoverFilter.align (f : RoverFilter) (c : SolveCfg) (t : Nat) (clkOfs : Int) (e : PhaseEpoch) : RoverFilter :=
  let keys := f.keysAt c t clkOfs e
  let n := f.x.length
  let zero := List.replicate n (0 : Rat)
  let own := (List.range 6).map fun i => Form.mk ((List.range n).map fun j => if i = j then 1 else 0) 0 0
  let isRef := fun (k : Nat) => decide (tfind e.refs (k / 256) = some k)
  let begins := fun (k : Nat) => !isRef k && !f.survives c t clkOfs e k
  let forms := own ++ keys.map fun k =>
    if isRef k then ⟨zero, 0, 0⟩
    else if begins k then ⟨zero, firstAmb e f.pos clkOfs k ((tfind e.refs (k / 256)).getD k), 0⟩
    else f.ambForm c t clkOfs e k
  let carried := Mat.carry (forms.map fun v => v.row) f.p
  let key := fun (i : Nat) => keys.getD (i - 6) 0
  { f with
    x := forms.map fun v => dotR v.row f.x + v.const
    p := Mat.of forms.length forms.length fun i j =>
      if i = j ∧ 6 ≤ i ∧ begins (key i) then Config.firstVariance 1
      else match forms[i]?, forms[j]? with
        | some a, some b => carried.at' i j + (if 6 ≤ i ∧ 6 ≤ j ∧ key i / 256 = key j / 256 then a.noise * b.noise * Config.firstVariance 1 else 0)
        | _, _ => 0
    refs := e.refs.foldl (fun t' r => tput t' r.1 r.2) f.refs
    ambs := keys.foldl (fun t' k => match e.pair k with
      | some p => tput t' k ⟨p.o.slot, p.o.slips, p.e.lli, t⟩
      | none => match tfind f.ambs k with | some a => tput t' k a | none => t') [] }

/-- A double difference: its row, what is observed over what is predicted, its variances, and the differences it shares its
reference observation with. -/
structure DoubleDiff where
  row : List Rat
  excess : Rat
  own : Rat
  ref : Rat
  group : Nat

/-- The double differences of one kind at a filter's position. -/
def doubleDiffs (c : SolveCfg) (f : RoverFilter) (base : Vec) (clkOfs : Int) (phase : Bool) (l : List Paired) : List DoubleDiff :=
  let keys := f.ambs.map fun a => a.1
  l.filterMap fun p =>
    match refPair l p.o.sig with
    | none => none
    | some r =>
      if ambKey r.o = ambKey p.o then none
      else
        let k := 6 + keys.idxOf (ambKey p.o)
        let line := ((lineTo r.v f.pos).sub (lineTo p.v f.pos)).list
        let amb := if phase then p.wave * f.x.getD k 0 else 0
        some {
          row := (List.range f.x.length).map fun i => if i < 3 then line.getD i 0 else if phase && i = k then p.wave else 0
          excess := (p.single phase f.pos clkOfs - r.single phase f.pos clkOfs) - (p.predicted f.pos base - r.predicted f.pos base) - amb
          own := 2 * obsVar c p.sinEl phase
          ref := 2 * obsVar c r.sinEl phase
          group := 2 * p.o.sig + b2n phase }

/-- The float update with a list of double differences; as it was where the innovation is singular. -/
def RoverFilter.update (f : RoverFilter) (l : List DoubleDiff) : RoverFilter :=
  let h : Mat := l.map fun d => d.row
  let r := Mat.of l.length l.length fun i j =>
    match l[i]?, l[j]? with
    | some a, some b => (if a.group = b.group then a.ref else 0) + (if i = j then a.own else 0)
    | _, _ => 0
  let ph := Mat.mul f.p h.transpose
  let s := List.zipWith (fun x y => List.zipWith (fun u v => u + v) x y) (Mat.mul h ph) r
  match if l.isEmpty then none else ph.solveRight s with
  | none => f
  | some k => { f with
    x := List.zipWith (fun x g => x + dotR g (l.map fun d => d.excess)) f.x k
    p := Mat.sub f.p (Mat.mul k ph.transpose) }

/-! ### The integer search (R210) -/

/-- The best and second-best candidates so far, with their norms. -/
structure Best where
  first : Option (Rat × List Int)
  second : Option (Rat × List Int)

def Best.add (b : Best) (norm : Rat) (z : List Int) : Best :=
  if b.first.all fun v => norm < v.1 then ⟨some (norm, z), b.first⟩
  else if b.second.all fun v => norm < v.1 then ⟨b.first, some (norm, z)⟩ else b

/-- Variance of each variable given those before it, and how the means of the later ones follow it. -/
def conditional : Nat → Mat → List (Rat × List Rat)
  | 0, _ => []
  | n + 1, p =>
    let v := p.at' 0 0
    let g := ((p.headD []).drop 1).map fun x => ratioOr x v 0
    (v, g) :: conditional n (List.zipWith (fun r (u : Rat) => List.zipWith (fun x y => x - u * y) (r.drop 1) g) (p.drop 1)
      ((p.headD []).drop 1))

/-- Ambiguities under an integer Z-transform: its rows, those of its inverse transposed, and their covariance. -/
structure Decor where
  z : List (List Int)
  back : List (List Int)
  q : Mat
deriving DecidableEq

def dotI (a b : List Int) : Int := (List.zipWith (fun x y => x * y) a b).sum

/-- Row j less `u` times row i. -/
def takeRow {α : Type} [Sub α] [Mul α] (u : α) (i j : Nat) (a : List (List α)) : List (List α) :=
  a.set j (List.zipWith (fun x y => x - u * y) (a.getD j []) (a.getD i []))

/-- Ambiguity j less the whole multiple of ambiguity i that decorrelates the two best. -/
def Decor.pair (d : Decor) (i j : Nat) : Decor :=
  let u := if i = j then 0 else roundRat (ratioOr (d.q.at' i j) (d.q.at' i i) 0)
  if u = 0 then d
  else ⟨takeRow u i j d.z, takeRow (-u) j i d.back, (takeRow (u : Rat) i j (takeRow (u : Rat) i j d.q).transpose)⟩

/-- The integer Z-transform: pairs in turn until nothing changes (R210; its order is the model's, log entry 73). -/
def Decor.run : Nat → Decor → Decor
  | 0, d => d
  | n + 1, d =>
    let l := List.range d.q.length
    let e := l.foldl (fun d i => l.foldl (fun d j => d.pair i j) d) d
    if e = d then d else Decor.run n e

def decorrelate (q : Mat) : Decor :=
  let one : List (List Int) := (List.range q.length).map fun i => (List.range q.length).map fun j => if i = j then 1 else 0
  Decor.run 256 ⟨one, one, q⟩

/-- The norm of an integer vector that takes the nearest integer at every level, the last one moved by `last`. -/
def nearNorm (last : Int) : List (Rat × List Rat) → List Rat → Rat → Rat
  | [], _, norm => norm
  | (v, g) :: rest, means, norm =>
    let m := means.headD 0
    let k := roundRat m + if rest.isEmpty then last else 0
    let d : Rat := (k : Rat) - m
    nearNorm last rest (List.zipWith (fun x u => x + u * d) means.tail g) (norm + ratioOr (d * d) v 0)

/-- The integers no more than √w from a mean, the nearest first. -/
def nearInts (m w : Rat) : List Int :=
  let r := isqrt w.floor.toNat + 2
  let k := roundRat m
  let up : Int := if (k : Rat) ≤ m then 1 else -1
  k :: ((List.range r).map fun (i : Nat) => [k + up * (i + 1), k - up * (i + 1)]).flatten

/-- The search over the integer vectors whose norm is at most `bound`: the squared norm weighted by the covariance is a sum over the
conditional variances. -/
def intSearch (bound : Rat) : List (Rat × List Rat) → List Rat → Rat → List Int → Best → Best
  | [], _, norm, z, b => b.add norm z.reverse
  | (v, g) :: rest, means, norm, z, b =>
    let m := means.headD 0
    (nearInts m (v * (bound - norm))).foldl (fun b (k : Int) =>
      let d : Rat := (k : Rat) - m
      let norm := norm + ratioOr (d * d) v 0
      if decide (bound < norm) || b.second.any (fun w => decide (w.1 ≤ norm)) then b
      else intSearch bound rest (List.zipWith (fun x u => x + u * d) means.tail g) norm (k :: z) b) b

/-- What a search over some ambiguities finds, best and second-best: over the decorrelated ambiguities, every vector whose norm is
at most that of two near ones, turned back to the ambiguities themselves (R210). -/
def RoverFilter.searchOn (f : RoverFilter) (idx : List Nat) : Best :=
  let d := decorrelate (idx.map fun i => idx.map fun j => Mat.at' f.p i j)
  let levels := conditional idx.length d.q
  let x := idx.map fun i => f.x.getD i 0
  let means := d.z.map fun r => dotR (r.map fun v => (v : Rat)) x
  let bound := max (nearNorm 1 levels means 0) (nearNorm (-1) levels means 0)
  let b := intSearch bound levels means 0 [] ⟨none, none⟩
  let turn := fun (z : Rat × List Int) => (z.1, (List.range idx.length).map fun k => dotI z.2 (d.back.map fun r => r.getD k 0))
  ⟨b.first.map turn, b.second.map turn⟩

/-- A fix: the states it fixes, their integers, the ratio, and whether on a subset. -/
structure IntFix where
  idx : List Nat
  ints : List Int
  ratio : Rat
  part : Bool

/-- A search passes RATIO_MIN. -/
def RoverFilter.tryFix (f : RoverFilter) (c : SolveCfg) (part : Bool) (idx : List Nat) : Option IntFix :=
  match (f.searchOn idx).first, (f.searchOn idx).second with
  | some a, some b =>
    if !idx.isEmpty && (c.ratioMin : Rat) * a.1 ≤ 10 * b.1 then some ⟨idx, a.2, ratioOr b.1 a.1 (freeRat 13 0), part⟩ else none
  | _, _ => none

/-- The fix that is accepted: on all the ambiguities, or with PAR on the first subset that passes as they are dropped in ascending
elevation, PAR_MIN or more (R210). `idx` has the highest elevation first. -/
def RoverFilter.accept (f : RoverFilter) (c : SolveCfg) (idx : List Nat) : Option IntFix :=
  match f.tryFix c false idx with
  | some r => some r
  | none =>
    if c.par then
      ((List.range idx.length).reverse.filter fun n => c.parMin ≤ n).findSome? fun n => f.tryFix c true (idx.take n)
    else none

/-- A filter's position, velocity and covariance given the integers; the filter itself keeps its floats (R210). -/
def RoverFilter.fixed (f : RoverFilter) (r : IntFix) : List Rat × Mat :=
  let n := 6
  let qa := r.idx.map fun i => r.idx.map fun j => Mat.at' f.p i j
  let xa := (List.range n).map fun i => r.idx.map fun j => Mat.at' f.p i j
  match Mat.solveRight xa qa with
  | none => (f.x.take n, f.p)
  | some g =>
    let d := List.zipWith (fun i (z : Int) => f.x.getD i 0 - (z : Rat)) r.idx r.ints
    (List.zipWith (fun x row => x - dotR row d) (f.x.take n) g,
      Mat.sub (Mat.of n n fun i j => Mat.at' f.p i j) (g.mul xa.transpose))

/-! ### Rover code alone (R211) -/

/-- Position and its covariance from the rover's code and the ephemerides, from a point (log entry 73). -/
def singlePoint (q : Solve) (sky : List SatView) (near : Vec) : Option (Vec × Mat) :=
  let l := q.obs.sigs.filterMap fun o => (viewOf sky o.sys o.svid).map fun v => (o, v)
  let systems := (l.map fun x => x.1.sys).eraseDups
  let rows : List Row := l.map fun x =>
    ⟨((lineTo x.2 near).scale (-1)).list ++ systems.map fun k => if k = x.1.sys then 1 else 0,
      x.1.rho - rateTo x.2 near * ((q.obs.clkOfs : Rat) / 1000000000) - rangeTo x.2 near,
      ratioOr 1 (obsVar q.cfg (sinElevAt x.2 near) false) 0⟩
  let n := 3 + systems.length
  match leastSquares n rows, (List.range 3).mapM (covarColumn n rows) with
  | some v, some cols => some (near.add (Vec.ofList v), cols.map fun c => c.take 3)
  | _, _ => none

/-! ### The field frame (R107, R214) -/

/-- The origin of a field, ECEF mm. -/
def State.fieldOrigin (s : State) (k : Nat) : Int × Int × Int :=
  (signed 64 (s.act64 F.FLD_FIELD_ORG_X_LO_ORG_X F.FLD_FIELD_ORG_X_HI_ORG_X k),
    signed 64 (s.act64 F.FLD_FIELD_ORG_Y_LO_ORG_Y F.FLD_FIELD_ORG_Y_HI_ORG_Y k),
    signed 64 (s.act64 F.FLD_FIELD_ORG_Z_LO_ORG_Z F.FLD_FIELD_ORG_Z_HI_ORG_Z k))

/-- A position in the field frame, mm. -/
def SolveCfg.place (c : SolveCfg) (p : Vec) : Int × Int × Int :=
  let o := Vec.ofMm c.origin
  ((frameAt o).turn (p.sub o)).mm

/-- A velocity in the field frame, mm/s. -/
def SolveCfg.turn (c : SolveCfg) (v : Vec) : Int × Int × Int := ((frameAt (Vec.ofMm c.origin)).turn v).mm

/-- A covariance of position in the field frame, mm²: EE, NN, UU, EN, EU, NU, saturating. -/
def SolveCfg.covar (c : SolveCfg) (p : Mat) : List Int :=
  let f := frameAt (Vec.ofMm c.origin)
  let t : Mat := [f.east.list, f.north.list, f.up.list]
  let c := t.carry (Mat.of 3 3 fun i j => Mat.at' p i j)
  let big : Int := 2 ^ 31 - 1
  [(0, 0), (1, 1), (2, 2), (0, 1), (0, 2), (1, 2)].map fun (v : Nat × Nat) =>
    clampInt (-big) big (roundRat (1000000 * c.at' v.1 v.2))

end Sys2Proof.Machine
end

