-- ==== Sys2Proof/Machine/Fix.lean ====
section
/-! DEFINITION. The Fix Engine's commands: stale corrections, RTCM to the host, strings, and the central solver (R200, R206 to
R221). -/

namespace Sys2Proof.Machine

def opFixRoverReset : Nat := 0x0402
def opFixStrings : Nat := 0x0403

/-- What stops a FIX descriptor (R222). -/
def State.fixStop (s : State) : Option Nat :=
  if s.fix.fault then some St.unitFault else if !s.unitOn U.fix then some St.notConfigured else none

/-! ### Corrections (R200, R219, R221) -/

/-- Frames of a radio queue that have not begun AGE_LIMIT ms after their t_r go, with the rest of their epoch. -/
def execFixRtcmStale (dt port : Nat) (s : State) : Result :=
  let s := s.elapse dt
  let q := tget s.fix.radio RadioQueue.reset port
  let limit := s.reg F.FIX_RTCM_AGE_AGE_LIMIT * 1000000
  let keep := q.frames.filter fun f => f.begun || s.now < f.tr + limit
  .next (if s.pwr.inReset || s.fix.fault then s
    else ({ s with fix := { s.fix with
      radio := tset s.fix.radio RadioQueue.reset port { q with frames := keep } } }).countStale
        (q.frames.length - keep.length))

/-- FIX_RTCM_GET waits, four of each SOURCE at most; an unassigned SOURCE completes `BAD_DESC` (R42, R219). -/
def execFixRtcmGet (dt ring index : Nat) (s : State) : Result :=
  .next ((s.elapse dt).withDesc ring index opFixRtcmGet (fun _ => true) fun s d =>
    match s.fixStop with
    | some st => s.complete d st
    | none =>
      let src := d.operand 0 1
      if 1 < src then s.complete d St.badDesc
      else if 4 ≤ ((s.waiters opFixRtcmGet).filter fun w => w.operand 0 1 = src).length then s.complete d St.busy
      else s.wait d)

/-- `n` strings from the front of a payload, each held to 31 characters, and the clamps made; none where it ends inside one. -/
def parseStrings : Nat → List Byte → Option (List (List Byte) × Nat)
  | 0, _ => some ([], 0)
  | _ + 1, [] => none
  | n + 1, k :: b =>
    if b.length < k.toNat then none
    else (parseStrings n (b.drop k.toNat)).map fun r => ((b.take (min 31 k.toNat)) :: r.1, r.2 + b2n (decide (31 < k.toNat)))

def execFixStrings (dt ring index : Nat) (payload : List Byte) (s : State) : Result :=
  .next ((s.elapse dt).withDesc ring index opFixStrings (fun _ => true) fun s d =>
    match s.fixStop with
    | some st => s.complete d st
    | none =>
      if d.len = 0 then s.complete d St.empty
      else match parseStrings 6 (padTo d.len payload) with
        | none => s.complete d St.length
        | some (l, n) =>
          let s := { s with fix := { s.fix with setupId := d.operand 0 1, strings := l.take 5 } }
          (s.countClamps n none).complete (d.clampIf (n ≠ 0)) St.ok)

/-! ### Rovers (R206, R212, R220) -/

/-- The filter of a machine is reset from its next solve. -/
def State.resetRover (s : State) (m : Nat) : State :=
  if !s.roverOn m then s
  else { s with fix := { s.fix with filters := tmod s.fix.filters RoverFilter.reset m fun f => { f with fresh := true } } }

def execFixRoverReset (dt ring index : Nat) (s : State) : Result :=
  .next ((s.elapse dt).withDesc ring index opFixRoverReset (fun _ => true) fun s d =>
    if s.id.part ≠ .mg7740 then s.complete d St.noUnit
    else match s.fixStop with
      | some st => s.complete d st
      | none =>
        let s := if bit (d.operand 1 1) 0 then (List.range 256).foldl State.resetRover s else s.resetRover (d.operand 0 1)
        s.complete d St.ok)

/-- The assembly limit of an epoch has passed, after the commits due by then (R64). -/
def execFixEpochDeadline (dt machine : Nat) (s : State) : Result :=
  let s := s.elapse dt
  .next (match tfind s.fix.asm machine with
    | some a =>
      let t := a.tObs + s.act F.FIX_SOLVER_ASM_LIMIT * 10000000
      if s.fixRuns && t ≤ s.now && !s.commitWaits t then s.abandonEpoch machine a.n Ab.deadline else s
    | none => s)

/-- The oldest complete epoch takes the first free lane, under the configuration of now: after the commits due by now (R64, R212,
R213, R218). -/
def execFixSolveStart (dt : Nat) (s : State) : Result :=
  let s := s.elapse dt
  .next (if !s.fixRuns || s.commitFirst s.clk.counter then s
    else match s.fix.queue, (List.range 64).find? fun l => (tfind s.fix.lanes l).isNone with
      | q :: r, some l =>
        let m := q.machine
        let cfg : SolveCfg := ⟨meField (s.machine m), s.roverPeriod m, s.act F.FIX_ROVER_PAR m = 1, s.act F.FIX_SOLVER_ELEV_MASK,
          s.act F.FIX_SOLVER_RATIO_MIN, s.act F.FIX_SOLVER_MAX_GAP, s.act F.FIX_SOLVER_PAR_MIN, s.reg F.FIX_WEIGHT_BASELINE_MAX,
          s.act F.FIX_ROVER_ACCEL m, s.reg F.FIX_WEIGHT_PHASE_A, s.reg F.FIX_WEIGHT_PHASE_B, s.reg F.FIX_WEIGHT_CODE_RATIO,
          signed 16 (s.act F.FIX_BASE_PCO_UP), s.baseKnown, s.basePos, s.fieldOrigin (meField (s.machine m))⟩
        let fresh := (tget s.fix.filters RoverFilter.reset m).fresh
        { s with fix := { s.fix with
          queue := r
          lanes := tput s.fix.lanes l { q with cfg := cfg, fresh := fresh }
          filters := tmod s.fix.filters RoverFilter.reset m fun f => { f with fresh := false } } }
      | _, _ => s)

/-! ### Solutions (R207 to R215) -/

/-- A solution record (R214). -/
structure SolRec where
  tObs : Nat
  machine : Nat
  status : Nat
  degraded : Bool
  partial' : Bool
  long : Bool
  field : Nat
  nsig : Nat
  ratio : Nat
  age : Nat
  pos : Int × Int × Int
  vel : Int × Int × Int
  cov : List Int

/-- The 64 bytes of a solution record. -/
def SolRec.bytes (r : SolRec) : List Byte :=
  let w := fun v => leBytes 4 (unsigned 32 v)
  leBytes 8 r.tObs ++ leBytes 1 r.machine ++
  leBytes 1 (r.status + 8 * b2n r.degraded + 16 * b2n r.partial' + 32 * b2n r.long) ++ leBytes 1 r.field ++ leBytes 1 r.nsig ++
  leBytes 2 r.ratio ++ leBytes 2 r.age ++ w r.pos.1 ++ w r.pos.2.1 ++ w r.pos.2.2 ++ w r.vel.1 ++ w r.vel.2.1 ++ w r.vel.2.2 ++
  ((List.range 6).map fun i => w (r.cov.getD i 0)).flatten

/-- Position, velocity and covariance that a solve reports, with the filter that it leaves. -/
structure Solution where
  pos : Vec
  vel : Vec
  cov : Mat
  filter : RoverFilter
  fix : Option IntFix

/-- A value that no rule gives: the position of a solution without one, the velocity of one from code alone (log entry 73). -/
def State.freeVec (s : State) (n : Nat) : Vec :=
  (freeRat 25 (s.free + n), freeRat 25 (s.free + n + 1), freeRat 25 (s.free + n + 2))

/-- A solution from the rover's code alone (R211). With the filter reset, it begins again from here (R209). -/
def State.solveSingle (s : State) (q : Solve) (x : SolveIn) (f : RoverFilter) (all : Bool) : Solution :=
  let near := if f.x.isEmpty then Vec.ofMm x.near else (f.predict q.cfg.accel q.tObs).pos
  let vel := s.freeVec 3
  match singlePoint q x.sky near with
  | none => ⟨s.freeVec 0, vel, [], if all then { f with last := none, ambs := [], refs := [], x := [], p := [] } else f, none⟩
  | some (p, cov) =>
    let begun := { f with
      last := some q.tObs, ambs := [], refs := [], x := p.list ++ vel.list
      p := Mat.of 6 6 fun i j => if i < 3 ∧ j < 3 then Mat.at' cov i j else if i = j then Config.firstVariance 0 else 0 }
    ⟨p, vel, cov, if all then begun else f, none⟩

/-- A solution from double differences: the float update, the integer search, and the fix that is accepted (R208 to R210). -/
def solveDouble (q : Solve) (f : RoverFilter) (pairs phases : List Paired) : Solution :=
  let base := q.cfg.basePhase
  let ofs := q.obs.clkOfs
  let g := (f.predict q.cfg.accel q.tObs).align q.cfg q.tObs ofs (phaseEpoch phases)
  let h := { g.update (doubleDiffs q.cfg g base ofs false pairs ++ doubleDiffs q.cfg g base ofs true phases) with last := some q.tObs }
  let keys := h.ambs.map fun a => a.1
  -- GLONASS phase never enters the search
  let idx := (phases.filter fun p => p.o.sys ≠ 1 && tfind h.refs p.o.sig ≠ some (ambKey p.o)).map fun p => 6 + keys.idxOf (ambKey p.o)
  match h.accept q.cfg idx with
  | some r =>
    let (v, c) := h.fixed r
    ⟨Vec.ofList v, Vec.ofList (v.drop 3), c, h, some r⟩
  | none => ⟨h.pos, h.vel, h.p, h, none⟩

/-- Every field of the solution of a lane, with the filter that it leaves: under the configuration with which it started, base
coordinates and field origin among it (R218). -/
def State.solve (s : State) (q : Solve) (x : SolveIn) : SolRec × RoverFilter :=
  let f := tget s.fix.filters RoverFilter.reset q.machine
  let base := q.cfg.basePhase
  let ref := s.fix.refs.find? fun r => r.epoch = q.tObs
  let pairs := match ref with | some r => pairsOf q x.sky base r | none => []
  let phases := phaseSet pairs
  let usable := q.obs.sigs.filter fun o => (viewOf x.sky o.sys o.svid).isSome
  let paired := (pairs.map fun p => satOf p.o).eraseDups.length
  let all := q.fresh || q.obs.clkReset || f.x.isEmpty
  -- phase can be differenced twice: two satellites on one signal
  let dd := phases.any fun p => 2 ≤ (phases.filter fun r => r.o.sig = p.o.sig).length
  let none' := (usable.map satOf).eraseDups.length < 4
  let single : Bool := none' || ref.isNone || !q.cfg.known || paired < 4 || all
  let v := if single then s.solveSingle q x f all else solveDouble q f pairs phases
  let st0 := if none' then 0 else if single then 1 else if !dd then 2 else if v.fix.isSome then 4 else 3
  let limit : Rat := 1000 * (q.cfg.baselineMax : Rat)
  let long : Bool := 2 ≤ st0 && limit < (v.pos.sub base).norm
  let deg := s.degraded q.machine
  let st := if st0 = 4 && (long || deg) then 3 else st0
  let pos := if none' then s.freeVec 0 else v.pos
  (⟨q.tObs, q.machine, st, deg, st = 4 && (v.fix.any fun r => r.part), long, q.cfg.field,
      min 255 (if st = 0 then 0 else if st = 1 then usable.length else pairs.length),
      if st = 4 then min 0xFFFF (((v.fix.map fun r => r.ratio).getD 0) * 100).floor.toNat else 0,
      min 0xFFFF ((s.now - q.tObs) / 100000), q.cfg.place pos, q.cfg.turn v.vel, q.cfg.covar v.cov⟩,
    { v.filter with status := st })

/-- A solution goes to the solution buffer, or is dropped from it (R215); a buffer that a commit has made smaller than the write
offset goes on at offset 0 (DESIGN CHOICE, log entry 83). -/
def State.writeSol (s : State) (b : List Byte) : State :=
  let size := 65536 * s.act F.FIX_SOL_BUF_SIZE_SIZE
  let wr := if s.fix.wr < size then s.fix.wr else 0
  match bufNext size wr (s.reg F.FIX_SOL_RD_OFFSET) 64 with
  | none => ({ s with fix := { s.fix with drops := min 0xFFFF (s.fix.drops + 1), ovf := true } }).raise Ev.fixSolDrop 0 []
  | some n => { s with fix := { s.fix with wr := n } }.dramWrite (4096 * s.act F.FIX_SOL_BUF_BASE_FRAME + wr) b

/-- Conformance on a central solution: heading from the velocity, or of the latest OWN_SOLUTION below 200 mm/s (R285). -/
def State.conformCentral (s : State) (r : SolRec) : State :=
  if !s.has U.car || !s.confCentral || r.degraded || r.status < 3 then s
  else
    let ve : Rat := r.vel.1
    let vn : Rat := r.vel.2.1
    let v := sqrtR (ve * ve + vn * vn)
    if 40000 ≤ ve * ve + vn * vn then s.conform r.machine r.pos.1 r.pos.2.1 (ve / v) (vn / v) r.tObs
    else match (tget s.sec.machs SecMach.reset r.machine).own.head? with
      | some o =>
        let h : Rat := (o.heading : Rat) / 65536
        s.conform r.machine r.pos.1 r.pos.2.1 (sinTurn h) (cosTurn h) r.tObs
      | none => s

/-- Deviation in mm from a variance in mm². -/
def sdOf (v : Int) : Nat := isqrt v.toNat

/-- A record goes to its consumers (R215). -/
def State.deliverSol (s : State) (r : SolRec) (done : Nat) : State :=
  let c : CenSol := ⟨r.tObs, r.status, r.degraded, r.pos.1, r.pos.2.1, r.pos.2.2, r.vel.1, r.vel.2.1, r.vel.2.2,
    sdOf (r.cov.getD 0 0), sdOf (r.cov.getD 1 0), sdOf (r.cov.getD 2 0), s.now⟩
  let s := { s with
    fix := { s.fix with solved := s.fix.solved + 1 }
    sec := { s.sec with machs := tmod s.sec.machs SecMach.reset r.machine fun m => { m with cen := (c :: m.cen).take 256 } } }
  let s := s.conformCentral r
  let s := s.checkRover r.machine r.tObs r.status r.pos.1 r.pos.2.1
  let s := s.writeSol r.bytes
  let s := s.raise Ev.fixSolReady r.machine (leBytes 1 r.machine)
  if done + 4000000 < s.now then
    ({ s with fix := { s.fix with late := s.fix.late + 1 } }).raise Ev.fixSolLate 0 []
  else s

def execFixSolReady (dt lane : Nat) (input : SolveIn) (s : State) : Result :=
  let s := s.elapse dt
  .next (match tfind s.fix.lanes lane with
    | none => s
    | some q =>
      if !s.fixRuns then s
      else
        let was := (tget s.fix.filters RoverFilter.reset q.machine).status
        let (r, f) := s.solve q input
        let s := { s with
          fix := { s.fix with
            lanes := terase s.fix.lanes lane, filters := tset s.fix.filters RoverFilter.reset q.machine f }
          free := s.free + 6 }
        let s := s.deliverSol r q.done
        if was = 4 && r.status < 4 then s.raise Ev.fixStatusDrop 0 [] else s)

end Sys2Proof.Machine
end

