-- ==== Sys2Proof/Machine/Memory.lean ====
section
/-! DEFINITION. The Memory System's commands and the watchdogs: scrubbing, ECC errors and unit faults, DRAM training (R28, R442,
R448 to R450). -/

namespace Sys2Proof.Machine

/-! ### Faults of units (R28, R448) -/

/-- Every descriptor of a unit's opcodes that waits completes `UNIT_FAULT`. -/
def State.failWaiting (s : State) (u : Nat) : State :=
  (s.hst.taken.filter fun d => d.op / 256 = u && d.phase = .waiting).foldl (fun s d => s.complete d St.unitFault) s

/-- The Monitor's level is forced to 3; in `SAFE_HOLD` it stays frozen (R191). -/
def State.forceLevel (s : State) : State :=
  let was := s.mirLevel
  let s := { s with mir := { s.mir with level := 3, climb := 0, changedAt := s.clk.counter } }
  if was < s.mirLevel then s.raise (Ev.mirLevelUp 3) 0 []
  else if s.mirLevel < was then s.raise Ev.mirLevelDown 0 [] else s

/-- An uncorrectable error in a unit's working state: its FAULT, or a fatal cause. -/
def State.unitFault (s : State) (u : Nat) : State :=
  if u = U.tb then s.fatal Fatal.eccTb
  else if u = U.stp then s.fatal Fatal.eccStp
  else if u = U.hop then
    if s.hop.fault then s else (({ s with hop := { s.hop with fault := true } }).raise Ev.hopFault 0 []).fatal Fatal.eccHop
  else if u = U.gns then
    if s.gns.fault then s
    else (({ s with gns := { s.gns with fault := true, running := [], queue := [], captures := [], latched := none } }).failWaiting u).raise
      Ev.gnsFault 0 []
  else if u = U.mir then
    if s.mir.fault then s else (({ s with mir := { s.mir with fault := true } }).raise Ev.mirFault 0 []).forceLevel
  else if u = U.fix then
    if s.fix.fault then s else (({ s with fix := { s.fix with fault := true } }).failWaiting u).raise Ev.fixFault 0 []
  else if u = U.fld then { s with fld := { s.fld with fault := true } }.failWaiting u
  else if u = U.sec then
    if s.sec.fault then s else ({ s with sec := { s.sec with fault := true } }).raise Ev.secFault 0 []
  else if u = U.car then
    if !s.has u || s.car.fault then s
    else (({ s with car := { s.car with fault := true } }).failWaiting u).raise Ev.carFault 0 []
  else if u = U.hst then
    if s.hst.fault then s else (({ s with hst := { s.hst with fault := true } }).signalErr).raise Ev.hstFault 0 []
  else if u = U.fab then
    if !s.has u || s.fab.fault then s
    else
      let s := ({ s with fab := { s.fab with fault := true } }).failWaiting u
      let s := { s with tb := { s.tb with slavePort := none } }
      (s.loseSource 1).raise Ev.fabFault 0 []
  else if u = U.dis then
    if s.dis.fault then s else ({ s with dis := { s.dis with fault := true } }).raise Ev.disFault 0 []
  else if u = U.key then
    if s.key.fault then s
    else
      let s := { s with key := { s.key with fault := true, cache := [], link := [] } }
      (s.abortJobs St.unitFault).raise Ev.keyFault 0 []
  else if u = U.nvm then { s with nvm := { s.nvm with fault := true } }
  else if u = U.crn then
    if s.crn.fault then s else ({ s with crn := { s.crn with fault := true } }).raise Ev.crnFault 0 []
  else s

/-- Units that keep working state in the scratchpad. -/
def faultUnits : List Nat :=
  [U.tb, U.gns, U.mir, U.fix, U.fld, U.sec, U.car, U.stp, U.hop, U.hst, U.fab, U.dis, U.key, U.nvm, U.crn]

/-- The unit to which a word of banks 0 to 71 belongs; their layout is internal, so it is free (R445, log entry 3). -/
def unitAt (free : Nat) : Nat := faultUnits.getD ((Config.freeBits 11 free 8).toNat % 15) U.gns

/-! ### ECC errors (R448, R449) -/

/-- A correctable error. -/
def State.eccCorrected (s : State) : State :=
  let s := { s with mem := { s.mem with eccCorr := s.mem.eccCorr + 1 } }
  if s.mem.corrAt.any fun t => s.clk.counter < t + tickS then s
  else ({ s with mem := { s.mem with corrAt := some s.clk.counter } }).raise Ev.memEccCorr 0 []

/-- An uncorrectable error at an address whose bits [63:60] give the region: 0 scratchpad, 1 dual-port, 2 DRAM. -/
def State.eccFailed (s : State) (addr : Nat) : State :=
  let s := { s with mem := { s.mem with eccUncorr := s.mem.eccUncorr + 1, eccAddr := BitVec.ofNat 64 addr } }
  let s := s.raise Ev.memEccUncorr 0 []
  let region := addr / 2 ^ 60
  let off := addr % 2 ^ 60
  if region = 0 && off < 72 * 262144 then ({ s with free := s.free + 1 }).unitFault (unitAt s.free)
  else if region = 2 then { s with mem := { s.mem with bad := (off / 8 * 8) :: s.mem.bad.filter fun w => w ≠ off / 8 * 8 } }
  else { s with mem := { s.mem with badWords := (addr / 8 * 8) :: s.mem.badWords.filter fun w => w ≠ addr / 8 * 8 } }

def State.eccHit (s : State) (h : Nat × Bool) : State := if h.2 then s.eccFailed h.1 else s.eccCorrected

/-! ### The dual-port region (R445, R447) -/

/-- The word number `w` of the region as it stands. -/
def State.dualWord (s : State) (w : Nat) : BitVec 64 := BitVec.ofNat 64 (leNat (readMem s.mem.dual memFill (8 * w) 8))

/-- A word after a partial write: the bytes of the mask are taken, the others stand. -/
def mergeWord (old : BitVec 64) (mask : BitVec 8) (data : BitVec 64) : BitVec 64 :=
  (List.range 8).foldl (fun (v : BitVec 64) i =>
    if mask.getLsbD i then (v &&& ~~~(255#64 <<< (8 * i))) ||| (data &&& (255#64 <<< (8 * i))) else v) old

/-- A word after what one port does to it. -/
def mergePort (old : BitVec 64) : Option PortAccess → BitVec 64
  | some (.write mask data) => mergeWord old mask data
  | _ => old

def isWrite : Option PortAccess → Bool
  | some (.write _ _) => true
  | _ => false

/-- A port writes all bytes of a word. -/
def isWhole : Option PortAccess → Bool
  | some (.write mask _) => mask = 255
  | _ => false

/-- The reservations of cores on the word of a core address end, but for that of the core that stores there (R427). -/
def State.breakResv (s : State) (storer : Option Nat) (a : Nat) : State :=
  { s with dis := { s.dis with resv := s.dis.resv.filter fun e => storer = some e.1 || e.2 / 8 ≠ a / 8 } }

/-- A round at one word: port B's bytes merge first and port A's over them, so that A's data stand where both write (DEDUCED for
partial writes, log entry 75); two writes count one collision. A read sees the word as the round leaves it. A word that holds an
uncorrectable error counts it and stays as it is, unless a port writes all of it (R448). -/
def State.dualRound (s : State) (r : DualRound) : State :=
  let w := r.word % 65536
  let addr := 2 ^ 60 + 8 * w
  let s := { s with mem := { s.mem with dpCollide := if isWrite r.a && isWrite r.b then s.mem.dpCollide + 1 else s.mem.dpCollide } }
  if s.mem.badWords.contains addr && !isWhole r.a && !isWhole r.b && (r.a.isSome || r.b.isSome) then s.eccFailed addr
  else
    let v := mergePort (mergePort (s.dualWord w) r.b) r.a
    let s := { s with mem := { s.mem with
      dual := writeMem s.mem.dual memFill (8 * w) (leBytes 8 v.toNat)
      badWords := if isWrite r.a || isWrite r.b then s.mem.badWords.filter fun x => x ≠ addr else s.mem.badWords } }
    let s := if isWrite r.a || isWrite r.b then s.breakResv none (0x18000000 + 8 * w) else s
    let s := if r.a = some .read then s.emit (.portRead true w v) else s
    if r.b = some .read then s.emit (.portRead false w v) else s

/-- The scrubber's pass over the scratchpad and the dual-port region, and its patrol of DRAM, after the rounds of accesses that
the dual-port region served before it (R446, log entry 75); in `SAFE_HOLD` the cores are halted (R452), and in reset there are none. -/
def execMemScrub (dt : Nat) (work : MemWork) (s : State) : Result :=
  let s := s.elapse dt
  let s := if s.pwr.inReset then s
    else (work.rounds.map fun (r : DualRound) => if s.pwr.state = .safeHold then { r with a := none } else r).foldl State.dualRound s
  let dram := fun (h : Nat × Bool) => h.1 / 2 ^ 60 = 2
  let hours := s.reg F.MEM_SCRUB_DRAM_HOURS
  .next (if s.pwr.inReset then s
    else
      let s' := if s.due T.scrub (s.reg F.MEM_SCRUB_PERIOD * tickS) then
          (work.hits.filter fun h => !dram h).foldl State.eccHit (s.mark T.scrub) else s
      if hours ≠ 0 && s.mem.ready && s.due T.dramScrub (hours * 3600 * tickS) then
        (work.hits.filter dram).foldl State.eccHit (s'.mark T.dramScrub) else s')

/-- DRAM training ends (R450): the units' writes that waited are made, or fail. -/
def execMemDramReady (dt : Nat) (ok : Bool) (s : State) : Result :=
  let s := s.elapse dt
  .next (if !s.mem.training || s.pwr.inReset then s
    else
      let s' := { s with mem := { s.mem with training := false, ready := ok, trainFail := !ok, waiting := [] } }
      (s.mem.waiting.foldl (fun s w => s.dramWrite w.1 w.2) s').raise (if ok then Ev.memDramReady else Ev.memDramFail) 0 [])

/-! ### Watchdogs (R442) -/

def execDisWatchdog (dt k : Nat) (s : State) : Result :=
  let s := s.elapse dt
  let w := tget s.dis.wdogs Wdog.reset k
  .next (if k < 16 && s.reg F.DIS_WDOG_EN k = 1 && !w.expired && (s.pwr.state = .waitHost || s.pwr.state = .run) &&
        w.since + s.reg F.DIS_WDOG_PERIOD k * 10 * tickMs ≤ s.clk.counter then
      let s := { s with dis := { s.dis with wdogs := tset s.dis.wdogs Wdog.reset k ⟨w.since, true⟩ } }
      let s := s.raise Ev.disWatchdog k (leBytes 1 k)
      if s.stopSource F.STP_SRC_WATCHDOG then s.stopRequest Src.watchdog (s.act F.STP_SRC_WATCHDOG_CLASS = 1) none true else s
    else s)

end Sys2Proof.Machine
end

