-- ==== Sys2Proof/Machine/RegRead.lean ====
section
/-! DEFINITION. What every BAR0 register reads, without side effects (R43, R48, R505, and the register tables of the chapters). -/

namespace Sys2Proof.Machine

/-- A register word from its fields: lowest bit and value of each. -/
def pack (l : List (Nat × Nat)) : Nat := l.foldl (fun w f => w + f.2 * 2 ^ f.1) 0

/-- Bit `i` of a word is `f i`. -/
def wordOf (n : Nat) (f : Nat → Bool) : Nat := pack ((List.range n).map fun i => (i, b2n (f i)))

/-- 32 bits of a signed value, saturating at ±(2³¹ − 1). -/
def sat32 (v : Int) : Nat := unsigned 32 (clampInt (-(2 ^ 31 - 1)) (2 ^ 31 - 1) v)

/-- The low or high half of a 64-bit value (R34). -/
def half (hi : Bool) (v : Nat) : Nat := bits v (if hi then 32 else 0) 32

/-- Word `w` of a byte string (KEY_MEAS_w and its like). -/
def wordAt (l : List Byte) (w : Nat) : Nat := fieldLE l (4 * w) 4

/-- The identity and configuration pages (R1, R40, R48 to R62). -/
def State.readCfg (s : State) (off : Nat) : Nat :=
  match off with
  | 0x0000 => 0x5B0E + 65536 * s.id.part.code
  | 0x0004 => s.id.revision.toNat
  | 0x0008 => half false s.id.eui.toNat
  | 0x000C => half true s.id.eui.toNat
  | 0x1008 => if s.clk.counter < s.cfg.busyUntil then 1 else pack [(0, s.cfg.result), (8, s.cfg.reason), (16, s.cfg.ruleId)]
  | 0x100C => s.cfg.units.toNat
  | 0x1010 => s.cfg.generation.toNat
  | 0x1014 => pack [(0, s.cfg.clampCount), (31, b2n s.cfg.clamped)]
  | 0x1018 => s.cfg.clampLast
  | _ => 0

/-- A popped stamp: whole seconds, nanoseconds and the fraction in units of 2⁻¹⁶ ns (R35). -/
def Stamp.ns (p : Stamp) : Nat := p.t16 / 65536

/-- The Timebase and Calendar pages (R68 to R105). -/
def State.readTb (s : State) (off : Nat) : Nat :=
  match off with
  | 0x201C => s.clk.rate.toNat
  | 0x2020 => pack [(0, s.tb.quality.code), (2, s.tb.source), (8, wordOf 4 fun i => (s.src i).qualified),
      (12, b2n s.tb.step.isSome), (16, s.timeQuality)]
  | 0x2024 => s.tb.errEst
  | 0x2028 => sat32 s.tb.offset
  | 0x2030 => half false s.now
  | 0x2034 => half true s.now
  | 0x2098 => pack [(0, s.tb.slavePort.getD 7), (8, wordOf 6 fun p => (s.ptpPort p).skew)]
  | 0x20C0 => match s.tb.stampOut with
    | some p => pack [(0, p.id), (16, p.source), (31, 1)]
    | none => 0
  | 0x20C4 => match s.tb.stampOut with
    | some p => p.ns % 1000000000
    | none => 0
  | 0x20C8 => match s.tb.stampOut with
    | some p => bits (p.ns / 1000000000) 0 32
    | none => 0
  | 0x20CC => match s.tb.stampOut with
    | some p => pack [(0, bits (p.ns / 1000000000) 32 16), (16, p.t16 % 65536)]
    | none => 0
  | 0x20D0 => pack [(0, s.tb.stamps.length), (8, s.tb.stampDrops), (31, b2n s.tb.stampOvf)]
  | 0x20E0 => pack [(0, s.tb.launches.length), (8, s.tb.periodic.length), (16, s.tb.highWater)]
  | 0x3000 => bits s.cal.sec 0 32
  | 0x3004 => bits s.cal.sec 32 16
  | 0x3008 => pack [(0, b2n s.cal.valid), (1, b2n s.cal.vbatLow)]
  | 0x3020 => s.cal.tamperCtrl.toNat
  | 0x3024 => pack [(0, s.cal.tamperStatus.toNat), (5, b2n ((List.range 4).any s.tamperActive)), (6, b2n s.cal.epoch.isSome)]
  | 0x3028 => s.cal.tamperTime.toNat
  | 0x302C => s.cal.epochCount.toNat
  | _ => match arrayIdx off 0x2080 4 6 with
    | some p => sat32 (s.ptpPort p).nbrOffset
    | none => 0

/-- STATE of R161. -/
def ChanState.code : ChanState → Nat
  | .idle => 0
  | .pullIn => 1
  | .tracking => 2
  | .lost => 3

/-- STATE of R170. -/
def BaseState.code : BaseState → Nat
  | .none => 0
  | .surveying => 1
  | .surveyed => 2
  | .fixed => 3

/-- Channels that are not `IDLE`. -/
def State.usedChans (s : State) : List Chan := (s.gns.chans.map fun c => c.2).filter fun c => c.state ≠ .idle

/-- A coordinate of the survey mean: `i` counts the words of GNS_SURVEY_X_LO to GNS_SURVEY_Z_HI. -/
def State.meanWord (s : State) (i : Nat) : Nat :=
  let m := s.gns.mean
  half (i % 2 = 1) (unsigned 64 (if i / 2 = 0 then m.1 else if i / 2 = 1 then m.2.1 else m.2.2))

/-- GNS_CHAN_n_STATE. -/
def Chan.word (c : Chan) : Nat :=
  if c.state = .idle then 0
  else pack [(0, c.state.code), (2, b2n (decide (4 / 5 ≤ c.lock))), (3, b2n c.bitSync), (8, c.sig), (16, c.svid),
    (24, clampNat 0 255 (roundRat c.cn0).toNat)]

/-- The GNSS Receiver's page (R172). -/
def State.readGns (s : State) (off : Nat) : Nat :=
  match off with
  | 0x4014 => s.gns.wr
  | 0x401C => pack [(0, s.gns.drops), (31, b2n s.gns.ovf)]
  | 0x4020 => pack [(0, s.gns.start.getD 0), (2, b2n s.gns.leap.isSome), (3, b2n s.gns.timeValid), (4, b2n s.gns.fault),
      (5, b2n s.gns.nosigA), (6, b2n s.gns.nosigB), (8, s.gns.leap.getD 0 % 256),
      (16, (s.usedChans.filter fun c => c.state = .tracking).length)]
  | 0x4094 => pack [(0, s.gns.base.code), (2, s.gns.elapsed), (16, s.gns.sigma)]
  | _ =>
    match arrayIdx off 0x4030 4 6, arrayIdx off 0x4098 4 6, arrayIdx off 0x40B0 4 7, arrayIdx off 0x4800 4 320 with
    | some n, _, _, _ => tget s.gns.gains 0 n
    | _, some n, _, _ => s.meanWord n
    | _, _, some n, _ => match tfind s.gns.sysOfs n with
      | some o => unsigned 32 o
      | none => 0x80000000
    | _, _, _, some n => (s.chan n).word
    | _, _, _, _ => 0

/-- The Mirage Monitor's page (R190). -/
def State.readMir (s : State) (off : Nat) : Nat :=
  let d := s.baseDisp
  match off with
  | 0x5060 => pack [(0, s.mirLevel), (3, bits s.integrity 3 1), (4, b2n s.mir.fault), (8, s.sysFlag),
      (16, wordOf 10 fun k => s.mir.conds.any fun c => c.check = k && c.latched)]
  | 0x5064 => min 320 (((s.usedChans.map fun c => sigKey c.sig c.svid).eraseDups.filter s.sigExcluded).length)
  | 0x5068 => sat32 (roundRat d.1)
  | 0x506C => sat32 (roundRat d.2.1)
  | 0x5070 => sat32 (roundRat d.2.2)
  | 0x5078 => s.mir.disp
  | _ => match arrayIdx off 0x5018 4 6, arrayIdx off 0x5080 4 8 with
    | some n, _ =>
      let r := s.agcRef n
      pack [(0, clampNat 0 255 (roundRat r.1).toNat), (8, clampNat 0 255 (roundRat r.2).toNat),
        (16, b2n (tget s.mir.refs ⟨[], false⟩ n).valid)]
    | _, some n => wordOf 32 fun b => s.disagrees (32 * n + b)
    | _, _ => 0

/-- The Fix Engine's page (R217). -/
def State.readFix (s : State) (off : Nat) : Nat :=
  match off with
  | 0x6038 => s.fix.wr
  | 0x6040 => pack [(0, s.fix.drops), (31, b2n s.fix.ovf)]
  | 0x6050 => pack [(0, b2n s.fix.fault), (1, b2n s.corrAvail), (8, s.fix.lanes.length), (16, s.fix.queue.length)]
  | 0x6054 => s.fix.solved.toNat
  | 0x6058 => s.fix.abandoned.toNat
  | 0x605C => s.fix.late.toNat
  | 0x6060 => s.fix.stale.toNat
  | 0x6064 => s.fix.hostMissed.toNat
  | 0x6068 => s.fix.fragDiscard.toNat
  | _ => 0

/-- The Field Store's and the Section Engine's pages (R131, R329). -/
def State.readField (s : State) (off : Nat) : Nat :=
  match off with
  | 0x7010 => pack [(0, s.fld.eccBlocks), (30, b2n s.fld.fault), (31, b2n s.fld.eccSeen)]
  | 0x7014 => s.fld.hits.toNat
  | 0x7018 => s.fld.misses.toNat
  | 0x7060 => pack [(0, s.fld.deltas.length), (13, s.fld.foreign), (31, b2n s.fld.overflow)]
  | 0x8010 => pack [(0, b2n s.sec.fault), (1, b2n (decide (s.clk.counter < s.sec.runUntil)))]
  | 0x8014 => s.sec.epochs.toNat
  | 0x8018 => s.sec.skip.toNat
  | 0x801C => min 65535 s.sec.maxUs
  | 0x8020 => s.sec.claims.length
  | 0x8024 => s.sec.claimFull.toNat
  | 0x8028 => s.sec.expired.toNat
  | 0x802C => s.sec.fbLate.toNat
  | 0x8030 => s.sec.fbMismatch.toNat
  | _ => match arrayIdx off 0x8C00 4 256 with
    | some m =>
      let x := tget s.sec.machs SecMach.reset m
      pack [(0, x.reason), (3, b2n x.src), (4, b2n x.impl.isSome), (5, x.onCount)]
    | none => 0

/-- STATE of a machine in the Caravan Engine: `FROZEN` before `HELD` before `ACTIVE`. -/
def State.carState (s : State) (m : Nat) : Nat :=
  let c := s.carMach m
  if (c.stopped || c.lost) && c.frozenAt.isSome then 3 else if c.held then 2 else if (s.reservation m).isEmpty then 0 else 1

/-- The Caravan Engine's page (R290). -/
def State.readCar (s : State) (off : Nat) : Nat :=
  match off with
  | 0x9010 => pack [(0, s.carSegs), (15, b2n s.car.fault), (16, (s.car.hostq.filter fun q => !q.read).length)]
  | 0x9014 => s.carHeads.length
  | 0x9020 => s.car.granted.toNat
  | 0x9024 => s.car.deferred.toNat
  | 0x9028 => s.car.refused.toNat
  | 0x902C => s.car.deviations.toNat
  | 0x9030 => s.car.overruns.toNat
  | 0x9034 => min 65535 s.car.answerMax
  | _ => match arrayIdx off 0x9800 4 256 with
    | some m =>
      let c := s.carMach m
      pack [(0, s.carState m), (2, b2n c.deviation), (3, b2n c.overrun), (4, (s.reservation m).length), (11, b2n c.stand),
        (16, c.track.getD 0x1FFF)]
    | none => 0

/-- The Stop Controller's page (R356). -/
def State.readStp (s : State) (off : Nat) : Nat :=
  match off with
  | 0xA020 => pack [(0, b2n s.stp.latched), (1, b2n s.stp.stop), (2, b2n s.stp.armed.isSome), (3, b2n s.stp.pinA),
      (4, b2n s.stp.pinB), (5, b2n s.stp.pinFault), (8, s.stp.source), (16, s.stp.count.toNat)]
  | 0xA024 => s.stp.seen.toNat
  | 0xA028 => pack [(0, b2n (s.outStopped false)), (1, b2n s.stp.readA), (2, b2n (s.outStopped true)), (3, b2n s.stp.readB),
      (16, s.stp.tests.toNat)]
  | 0xA02C => s.stp.precompMiss.toNat
  | 0xA030 => s.stp.fabReject.toNat
  | 0xA034 => s.stp.pendantReject.toNat
  | 0xA038 => s.stp.fabStale.toNat
  | _ => match arrayIdx off 0xA100 4 8 with
    | some w => bits s.stp.enabled.toNat (32 * w) 32
    | none => 0

/-- STATE of HOP_MACHINE_m. -/
def LinkState.code : LinkState → Nat
  | .notJoined => 0
  | .joined => 1
  | .linkLost => 2

/-- The state words of a hop port, by offset within its block; a port that is not fitted reads 0 (R4). -/
def State.readHopPort (s : State) (p r : Nat) : Nat :=
  let h := s.hopPort p
  let pend : Nat := match h.announce with
    | some a => stGen a.table
    | none => 0
  match r with
  | 0x14 => pack [(0, 1), (1, b2n h.storm), (2, b2n (!h.hits.isEmpty)), (8, stGen h.table), (16, pend),
      (24, b2n h.announce.isSome)]
  | 0x18 =>
    let l := s.joinedOn p
    pack [(0, (l.filter fun m => h.announce.isSome && (s.machLink m).heldGen = some pend).length), (16, l.length)]
  | 0x1C => h.withheld.toNat
  | 0x20 => h.micFail.toNat
  | 0x24 => h.secDrop.toNat
  | 0x28 => h.recvDrop.toNat
  | _ => 0

/-- The radio ports' and the Hop Sequencer's pages (R262). SYNTH_LOCK is a free value: the manual gives no rule for it. -/
def State.readHop (s : State) (off : Nat) : Nat :=
  match off with
  | 0xC030 => pack [(0, b2n s.hop.fault), (1, (s.hop.machines.filter fun x => x.2.state = .joined).length),
      (16, (s.hop.nodes.filter fun x => x.2.joined && !s.unsynced x.1).length)]
  | _ =>
    if 0xC100 ≤ off ∧ off < 0xC200 then s.readHopPort ((off - 0xC100) / 64) (off % 64)
    else match arrayIdx off 0xB004 16 4, arrayIdx off 0xC800 4 256, arrayIdx off 0xCC00 4 128 with
    | some p, _, _ => pack [(0, 1), (1, (Config.freeBits 6 (4 * s.clk.counter + p) 1).toNat), (8, (s.hopPort p).rssi.toNat)]
    | _, some m, _ =>
      let l := s.machLink m
      pack [(0, l.state.code), (2, l.missed), (4, l.port), (8, l.heldGen.getD 0)]
    | _, _, some w => wordOf 32 fun b => s.unsynced (32 * w + b)
    | _, _, _ => 0

/-- The Host Interface's page (R386), and the MSI-X table in its window (R360). -/
def State.readHst (s : State) (off : Nat) : Nat :=
  match off with
  | 0xD018 => pack [(0, b2n s.hst.linkUp), (1, s.hst.speed), (4, s.hst.width), (29, b2n s.hst.fault), (30, b2n s.hst.dbFail),
      (31, b2n s.hst.dmaErr)]
  | 0xD01C => s.hst.dmaErrors.toNat
  | 0xD020 => s.hst.cplLost.toNat
  | 0xD028 => wordOf 32 fun n => (s.ring n).state = .halted
  | 0xD02C => wordOf 32 fun n => (s.ring (32 + n)).state = .halted
  | 0xDE00 => half false s.hst.pba.toNat
  | 0xDE04 => half true s.hst.pba.toNat
  | _ => match arrayIdx off 0xD114 32 64, arrayIdx off 0xD118 32 64, arrayIdx off 0xDA00 4 256 with
    | _, _, some i => (tget s.hst.msix (if i % 4 = 3 then 1 else 0) i).toNat
    | some n, _, _ =>
      let r := s.ring n
      r.stateWord + 8 * b2n r.badIndex
    | _, some n, _ => pack [(0, s.inflight n), (16, (s.tb.launches.filter fun l => match l.kind with
        | .commit c => decide (c.ring = n)
        | .desc k => (s.takenOf n).any fun d => d.serial = k).length)]
    | _, _, _ => 0

/-- The state words of a fabric port, by offset within its block. -/
def State.readFabPort (s : State) (p r : Nat) : Nat :=
  let f := s.fabPort p
  match r with
  | 0x04 => pack [(0, 1), (1, b2n f.modPresent), (2, b2n f.blockLock), (3, b2n f.hiBer),
      (4, match f.link with | .down => 0 | .init => 1 | .up => 2), (6, b2n f.modLos), (8, f.nbrAddr)]
  | 0x08 => half false f.nbrEui
  | 0x0C => half true f.nbrEui
  | 0x10 => f.rxFrames.toNat
  | 0x14 => f.txFrames.toNat
  | 0x18 => f.rxErr.toNat
  | 0x1C => f.drop.toNat
  | 0x20 => f.linkDowns.toNat
  | _ => 0

/-- The Fabric Interface's page (R418). -/
def State.readFab (s : State) (off : Nat) : Nat :=
  match off with
  | 0xE010 => pack [(0, s.fab.addr), (14, s.fab.addrState.code), (16, s.fab.attempt), (20, b2n s.fab.fault),
      (21, b2n s.fab.spfDue.isSome)]
  | 0xE014 => s.fab.lsdb.length
  | 0xE018 => pack [(0, s.fab.learn.length), (14, (learnStash.filter fun i => (tfind s.fab.learn i).isSome).length),
      (17, s.fab.filter.length), (31, b2n s.fab.evqOverflow)]
  | 0xE020 => s.fab.noRoute.toNat
  | 0xE024 => s.fab.hopExpired.toNat
  | 0xE028 => s.fab.learnDrop.toNat
  | 0xE02C => s.fab.undelivered.toNat
  | 0xE030 => s.fab.hostDrop.toNat
  | 0xE034 => s.fab.spfRuns.toNat
  | _ => if 0xE100 ≤ off ∧ off < 0xE280 then s.readFabPort ((off - 0xE100) / 64) (off % 64) else 0

/-- STATE of R433. -/
def ThreadState.code : ThreadState → Nat
  | .free => 0
  | .suspended => 1
  | .ready => 2
  | .running => 3
  | .waiting => 4

/-- The Dispatcher's page (R451). -/
def State.readDis (s : State) (off : Nat) : Nat :=
  match off with
  | 0xF018 => s.dis.traceWr
  | 0xF020 => pack [(0, s.dis.traceDrops), (31, b2n s.dis.traceOvf)]
  | 0xF030 => pack [(0, b2n s.dis.fault), (1, (s.dis.threads.filter fun t => t.2.state = .ready).length),
      (12, wordOf 12 fun c => (s.running c).isNone)]
  | 0xF034 => s.dis.lostPosts.toNat
  | 0xF054 => (s.thread (s.reg F.DIS_PEEK_SEL_THREAD)).flags.toNat
  | 0xF058 => (s.thread (s.reg F.DIS_PEEK_SEL_THREAD)).mask.toNat
  | _ => match arrayIdx off 0xF060 4 12, arrayIdx off 0xF100 4 16, arrayIdx off 0xF400 4 512 with
    | some c, _, _ => match s.running c with
      | some t => pack [(0, t), (9, (s.thread t).prio)]
      | none => 0x1FF
    | _, some k, _ => pack [(18, b2n (tget s.dis.wdogs Wdog.reset k).expired)]
    | _, _, some t =>
      let x := s.thread t
      if x.state = .free then 0
      else pack [(0, x.state.code), (3, x.prio), (8, x.affinity.toNat), (20, b2n x.user), (21, x.core), (25, b2n x.waitAll)]
    | _, _, _ => 0

/-- Usable DRAM in MiB: seven-eighths of CAPACITY, once EN is active (R450). -/
def State.dramMib (s : State) : Nat :=
  if s.unitOn U.mem && s.act F.MEM_DRAM_CFG_EN = 1 then 7 * 128 * [4, 6, 8, 12, 16].getD (s.act F.MEM_DRAM_CFG_CAPACITY) 8 else 0

/-- The pages of the Memory System, the Key Store, Boot, the NV die, the recorder and Power and reset. -/
def State.readStore (s : State) (off : Nat) : Nat :=
  match off with
  | 0x10004 => pack [(0, b2n s.mem.ready), (1, b2n s.mem.trainFail), (2, b2n s.mem.training)]
  | 0x10008 => s.dramMib
  | 0x10010 => s.mem.eccCorr.toNat
  | 0x10014 => s.mem.eccUncorr.toNat
  | 0x10018 => half false s.mem.eccAddr.toNat
  | 0x1001C => half true s.mem.eccAddr.toNat
  | 0x10024 => s.mem.dpCollide.toNat
  | 0x11004 => pack [(0, b2n s.key.fault), (1, b2n s.key.tampered), (2, b2n s.key.worn), (3, b2n s.key.rootsReady),
      (4, s.key.cache.length), (12, s.validCount)]
  | 0x11008 => pack [(0, s.key.queue.length), (8, s.key.running.length)]
  | 0x110A0 => s.key.svn.toNat
  | 0x110C0 => s.key.attest.toNat
  | 0x110C4 => s.key.orphaned.toNat
  | 0x110C8 => s.key.authFail.toNat
  | 0x12000 => pack [(0, b2n s.boot.ptr.active), (1, b2n s.boot.ptr.trial), (2, s.boot.ptr.trialLeft), (6, b2n s.boot.booted),
      (7, b2n s.boot.ptr.migrating), (8, s.boot.lastFail)]
  | 0x12004 => s.boot.svnMin.toNat
  | 0x12008 => (s.boot.update.map fun u => u.written).getD 0
  | 0x13004 => pack [(0, s.nvm.sparesKey), (4, s.nvm.sparesCfg), (8, s.settleFlush.nvm.sparesPool), (14, s.nvm.readOnly.toNat),
      (19, s.settleFlush.crn.capacity / 3264), (31, b2n s.nvm.fault)]
  | 0x14004 => pack [(0, s.crn.buf.length), (10, s.settleFlush.unflushed.length), (20, b2n s.crn.flushing),
      (21, b2n s.crn.fault)]
  | 0x14008 => s.settleFlush.crn.capacity
  | 0x1400C => s.settleFlush.nvLog.length
  | 0x14010 => s.crn.seq.toNat
  | 0x14014 => s.crn.boot.toNat
  | 0x14020 => s.settleFlush.crn.evqLost.toNat
  | 0x14024 => s.settleFlush.crn.overwritten.toNat
  | 0x14028 => s.settleFlush.crn.critDropped.toNat
  | 0x15000 => pack [(0, s.pwr.good.toNat), (10, b2n s.pfailLow), (11, b2n s.pwr.onVbat)]
  | 0x15004 => pack [(0, s.pwr.stage), (16, s.pwr.stageMax), (31, b2n s.pwr.slow)]
  | 0x15008 => pack [(0, unsigned 12 s.pwr.tj), (16, unsigned 12 s.pwr.tjMax)]
  | 0x15010 => pack [(0, s.pwr.state.code), (8, s.pwr.fatal)]
  | 0x15018 => s.pwr.resetCause
  | _ => match arrayIdx off 0x11040 4 12, arrayIdx off 0x11070 4 12, arrayIdx off 0x110B0 4 4 with
    | some w, _, _ => wordAt s.key.md w
    | _, some w, _ => wordAt s.key.signer w
    | _, _, some w => bits s.id.deviceId.toNat (32 * w) 32
    | _, _, _ => 0

/-- The status and count fields of a register: what its RO and W1C fields read. -/
def State.statusWord (s : State) (off : Nat) : Nat :=
  match off / 4096 with
  | 0x00 | 0x01 => s.readCfg off
  | 0x02 | 0x03 => s.readTb off
  | 0x04 => s.readGns off
  | 0x05 => s.readMir off
  | 0x06 => s.readFix off
  | 0x07 | 0x08 => s.readField off
  | 0x09 => s.readCar off
  | 0x0A => s.readStp off
  | 0x0B | 0x0C => s.readHop off
  | 0x0D => s.readHst off
  | 0x0E => s.readFab off
  | 0x0F => s.readDis off
  | _ => s.readStore off

/-- The stored fields of a register: its immediate ones, and the staged or active copy of the others as CFG_CTRL.VIEW says.
TB_RATE_ADJ and CAL_TAMPER_CTRL are kept elsewhere. -/
def State.storedWord (s : State) (off : Nat) : Nat :=
  if off = 0x201C ∨ off = 0x3020 then 0
  else match regAt off with
    | some r =>
      let c := if s.reg F.CFG_CTRL_VIEW = 1 then s.cfg.active else s.cfg.staged
      (tget c.regs (BitVec.ofNat 32 (r.resetWord .rws)) off).toNat + (tget s.direct (BitVec.ofNat 32 (r.resetWord .rw)) off).toNat
    | none => 0

/-- What a 32-bit read of a BAR0 offset returns, with no side effect (R43, R505); bits the part does not have read zero, and LOG_SIZE
of ring 2 reads 4 in `RECOVERY` (R498). -/
def State.readReg (s : State) (off : Nat) : Nat :=
  if off % 4 ≠ 0 then 0
  else
    let v := (s.storedWord off + s.statusWord off) % 2 ^ 32 &&& s.id.part.fitMask off
    if off = 0xD150 && s.pwr.state = .recovery then putBits v 1 4 4 else v

/-! ### Reads over the bus (R33, R34, R95)

The opcode table has no row for a read, so no step makes one: these functions say what a read returns and does. -/

/-- An offset is the _LO register of a read-only pair whose value changes: TB_NOW, CAL_SEC, the survey mean, HST_RING_HALTED, a
neighbour's EUI-64, MEM_ECC_ADDR. The identity's EUI-64 is a constant, read whole at any time (R541). -/
def pairLow (off : Nat) : Bool :=
  [0x2030, 0x3000, 0xD028, 0x10018].contains off || (arrayIdx off 0x4098 8 3).isSome || (arrayIdx off 0xE108 64 6).isSome

/-- A read of `size` bytes at a BAR0 offset: its value, and the machine after it. Another size or alignment reads zero (R33); a read
of _LO of a read-only pair captures _HI (R34); a read of TB_STAMP_W0 pops the stamp queue (R95). _HI of such a pair reads 0 until a
first read of its _LO after a reset (DESIGN CHOICE, log entry 55). -/
def State.busRead (s : State) (off size : Nat) : Nat × State :=
  if size ≠ 4 || off % 4 ≠ 0 then (0, s)
  else if off = 0x20C0 then (s.popStamp.readReg off, s.popStamp)
  else if pairLow off then
    (s.readReg off, { s with hst := { s.hst with
      capture := tset s.hst.capture 0 (off + 4) (BitVec.ofNat 32 (s.readReg (off + 4))) } })
  else if 4 ≤ off && pairLow (off - 4) then ((tget s.hst.capture 0 off).toNat, s)
  else (s.readReg off, s)

/-! ### Reads of the custom CSRs (R429, R430) -/

/-- What thread `t` reads on a core from a CSR while dsel holds `sel`: none where it traps as an illegal instruction, or where R429
gives the CSR no value to read. dwany and dwall read the flags and never wait (R430). -/
def State.csrRead (s : State) (core t sel num : Nat) : Option Word :=
  let me := s.thread t
  let th := s.thread (sel % 512)
  if 0x7C0 ≤ num && num ≤ 0x7C6 && me.user then none
  else match num with
    | 0x7C0 => some (BitVec.ofNat 32 (sel % 512))
    | 0x7C1 => some (BitVec.ofNat 32 (th.prio + 32 * b2n th.umode + 64 * th.affinity.toNat))
    | 0x7C2 => some th.entry
    | 0x7C3 => some th.arg
    | 0x7C4 => some th.sp
    | 0x7C5 => some (BitVec.ofNat 32 th.state.code)
    | 0x800 | 0x801 | 0xCC1 => some me.flags
    | 0xCC0 => some (BitVec.ofNat 32 (t + 65536 * core))
    | _ => none

/-! ### The cores' address map (R427, R428) -/

/-- Where a core's access goes. -/
inductive CoreTarget where
  | bank (offset : Nat)
  | dualPort (offset : Nat)
  | register (offset : Nat)
  | dram (address : Nat)
deriving DecidableEq, Repr

/-- The target of a core address; none: an access fault. -/
def State.coreTarget (s : State) (core addr : Nat) : Option CoreTarget :=
  if 0x10000000 ≤ addr && addr < 0x10600000 then some (.bank (addr - 0x10000000))
  else if 0x18000000 ≤ addr && addr < 0x18080000 then some (.dualPort (addr - 0x18000000))
  else if 0x20000000 ≤ addr && addr < 0x20100000 then some (.register (addr - 0x20000000))
  else if 0x40000000 ≤ addr && addr < 0x80000000 then
    let a := 2 ^ 28 * s.reg F.MEM_WIN_BASE core + (addr - 0x40000000)
    if s.mem.ready && a < 2 ^ 20 * s.dramMib then some (.dram a) else none
  else none

/-- LR, SC and AMO instructions work on the core banks and the dual-port region only (R427). -/
def State.amoTarget (s : State) (core addr : Nat) : Option CoreTarget :=
  match s.coreTarget core addr with
  | some (.bank o) => some (.bank o)
  | some (.dualPort o) => some (.dualPort o)
  | _ => none

end Sys2Proof.Machine
end

