-- ==== Sys2Proof/Machine/Recorder.lean ====
section
/-! DEFINITION. The Cairn Recorder's commands: records and their snapshots, flushes, reads, trigger classes, erasure (R504 to
R514, R548). -/

namespace Sys2Proof.Machine

def opCrnFlush : Nat := 0x1201
def opCrnRead : Nat := 0x1202
def opCrnClass : Nat := 0x1203
def opCrnErase : Nat := 0x1204

/-- The bytes of the record of an event, its snapshot taken now (R504, R505). -/
def State.recordBytes (s : State) (e : QEvent) : List Byte :=
  leBytes 4 s.crn.seq.toNat ++ leBytes 2 s.crn.boot.toNat ++ leBytes 2 (32 + 8 * e.list.length) ++ leBytes 8 e.stamp ++
  leBytes 4 (e.source % 2 ^ 22) ++ leBytes 1 e.severity ++ leBytes 1 e.cls ++ leBytes 1 e.list.length ++ leBytes 1 e.tq ++
  padTo 8 e.arg ++ (e.list.map fun o => leBytes 4 o ++ leBytes 4 (s.readReg o)).flatten

/-- The oldest queued event becomes a record in the buffer, and asks for the flush that R510 gives it: by its class at once, by
its severity within 10 ms, in `SAFE_HOLD` as it is written (R513). During a flush it joins it. -/
def State.recordNext (s : State) : State :=
  let s := s.settleFlush
  match s.crn.queue with
  | [] => s
  | e :: rest =>
    let r := Record.make s.crn.seq.toNat e.severity (s.recordBytes e)
    let start := if s.unflushed.isEmpty then s.clk.counter else s.crn.flushAt
    let s := { s with crn := { s.crn with queue := rest, round := none, flushAt := start } }.bufferRecord r
    if e.flush || s.pwr.state = .safeHold then s.startFlush
    else if s.unitOn U.crn && s.act F.CRN_CTRL_FLUSH_SEV ≤ e.severity && s.crn.wantAt.isNone && !s.crn.flushing then
      { s with crn := { s.crn with wantAt := some s.clk.counter } }
    else s

def execCrnRecordWrite (dt : Nat) (s : State) : Result :=
  let s := s.elapse dt
  .next (if s.crn.fault || s.pwr.inReset then s else s.recordNext)

/-- What stops a CRN descriptor: the recorder needs no configuration (R513). -/
def State.crnDesc (s : State) (d : Desc) (f : State → State) : State :=
  if s.crn.fault then s.complete d St.unitFault else f s

/-- CRN_FLUSH starts a flush or joins the one running, and completes when it ends (R510). -/
def execCrnFlush (dt ring index : Nat) (s : State) : Result :=
  .next ((s.elapse dt).withDesc ring index opCrnFlush (fun _ => true) fun s d => s.crnDesc d fun s => (s.wait d).startFlush)

/-- A flush asked for by a record's severity, or the periodic one (R510). -/
def State.autoFlush (s : State) : State :=
  let period := s.act F.CRN_CTRL_FLUSH_PERIOD * tickS
  let tick := s.unitOn U.crn && period ≠ 0 && s.due T.crnPeriod period
  let s := if tick then s.mark T.crnPeriod else s
  if s.crn.wantAt.isSome || (tick && !s.unflushed.isEmpty) then s.startFlush else s

def execCrnFlushAuto (dt : Nat) (s : State) : Result :=
  let s := s.elapse dt
  .next (if s.crn.fault || s.pwr.inReset || s.crn.flushing then s else s.autoFlush)

/-- The flush ends: every unflushed record is in the NV log (R510); `bad` are the blocks of the recorder region whose writes fail their
read-back since the records before. -/
def State.endFlush (s : State) (bad : List Nat) : State :=
  let s := s.settleFlush.flushAll bad
  let s := ({ s with crn := { s.crn with flushing := false, wantAt := none } }).raise Ev.crnFlushDone 0 []
  (s.waiters opCrnFlush).foldl (fun s d => s.complete d St.ok) s

def execCrnFlushDone (now : Timed (List Nat)) (s : State) : Result :=
  let s := s.elapse now.dt
  .next (if s.crn.fault || s.pwr.inReset || !s.crn.flushing then s else s.endFlush now.env)

/-- Records that fit, from the front of a list. -/
def fitRecords : List Record → Nat → List Record
  | [], _ => []
  | r :: rest, room => if r.bytes.length ≤ room then r :: fitRecords rest (room - r.bytes.length) else []

/-- CRN_READ after its checks (R514). -/
def State.crnRead (s : State) (d : Desc) (store : Tbl Record) : State :=
  let from' := d.operand 4 4
  let l := sortBy (fun r => r.seq)
    ((store.map fun e => e.2).filter fun r => decide (from' ≤ r.seq) && decide (d.operand 1 1 ≤ r.severity))
  let fit := fitRecords l d.len
  let next : Nat := match l.drop fit.length with
    | r :: _ => r.seq
    | [] => match fit.getLast? with
      | some r => r.seq + 1
      | none => from'
  let st := if fit.length = l.length then St.ok else if fit.isEmpty then St.length else St.more
  (s.writePayload d 0 (fit.map fun r => r.bytes).flatten).complete d st (leBytes 2 fit.length ++ leBytes 2 0 ++ leBytes 4 next)

def execCrnRead (dt ring index : Nat) (s : State) : Result :=
  .next ((s.elapse dt).withDesc ring index opCrnRead (fun _ => true) fun s d => s.crnDesc d fun s =>
    if 1 < d.operand 0 1 then s.complete d St.badDesc
    else if d.len = 0 then s.complete d St.empty
    else let s := s.settleFlush
      s.crnRead d (if d.operand 0 1 = 0 then s.crn.buf else s.nvLog))

/-! ### CRN_CLASS_XFER (R506, R548) -/

/-- A snapshot offset on its step of 4 (R41). -/
def fixOffset (v : Nat) : Nat := if v % 4 ≤ 2 ∨ 2 ^ 20 ≤ v + 1 then v - v % 4 else v + 1

/-- A class as a write stores it: reserved bits zero, LIST_LEN and offsets clamped; and the clamps made (R44). -/
def fixClass (e : List Byte) : List Byte × Nat :=
  let n := byteAt e 10
  let n' := min 32 n
  let offs := (List.range 32).map fun i => bits (fieldLE e (16 + 4 * i) 4) 0 20
  let offs' := (List.range 32).map fun i => if i < n' then fixOffset (offs.getD i 0) else offs.getD i 0
  (leBytes 4 (bits (fieldLE e 0 4) 0 22) ++ leBytes 4 (bits (fieldLE e 4 4) 0 22) ++ leBytes 1 (byteAt e 8 % 4) ++
    leBytes 1 (byteAt e 9 % 4) ++ leBytes 1 n' ++ List.replicate 5 0 ++ (offs'.map (leBytes 4)).flatten,
    b2n (n ≠ n') + ((List.zip offs offs').filter fun p => p.1 ≠ p.2).length)

def State.classXfer (s : State) (d : Desc) (f : State → Desc → Nat → Nat → State) : State :=
  s.crnDesc d fun s => s.tableXfer d 64 144 (d.operand 2 1) (d.operand 3 1) f

/-- DIR 0 writes classes to staging. -/
def execCrnClassWriteStaging (dt ring index : Nat) (payload : List Byte) (s : State) : Result :=
  .next ((s.elapse dt).withDesc ring index opCrnClass (fun d => d.operand 0 1 = 0) fun s d =>
    s.classXfer d fun s d f c =>
      let b := padTo d.len payload
      let n := ((List.range c).map fun k => (fixClass (slice b (144 * k) 144)).2).sum
      let (s, d) := (s.countClamps n none, d.clampIf (n ≠ 0))
      ({ s with cfg := { s.cfg with staged := { s.cfg.staged with
          classes := putEntries s.cfg.staged.classes 144 f c (fun e => (fixClass e).1) b } } }).complete d St.ok)

/-- DIR 1 reads staged classes; an unassigned DIR completes `BAD_DESC` (R42). -/
def execCrnClassReadStaging (dt ring index : Nat) (s : State) : Result :=
  .next ((s.elapse dt).withDesc ring index opCrnClass (fun d => d.operand 0 1 = 1 || 3 ≤ d.operand 0 1) fun s d =>
    if 3 ≤ d.operand 0 1 then s.complete d St.badDesc
    else s.classXfer d fun s d f c =>
      (s.writePayload d 0 (getEntries s.cfg.staged.classes 144 f c)).complete d St.ok)

/-- DIR 2 reads active classes. -/
def execCrnClassReadActive (dt ring index : Nat) (s : State) : Result :=
  .next ((s.elapse dt).withDesc ring index opCrnClass (fun d => d.operand 0 1 = 2) fun s d =>
    s.classXfer d fun s d f c =>
      (s.writePayload d 0 (getEntries s.cfg.active.classes 144 f c)).complete d St.ok)

/-- CRN_ERASE empties the NV log and sets BOOT to 0. -/
def execCrnErase (dt ring index : Nat) (s : State) : Result :=
  .next ((s.elapse dt).withDesc ring index opCrnErase (fun _ => true) fun s d => s.crnDesc d fun s =>
    if d.operand 0 1 ≠ 0xC7 then s.complete d St.badDesc
    else
      let s := s.settleFlush
      ({ s with crn := { s.crn with nv := [], boot := 0 } }).complete d St.ok)

end Sys2Proof.Machine
end

