-- ==== Sys2Proof/Machine/RegWrite.lean ====
section
/-! DEFINITION. REGISTER_WRITE: a write of BAR0 or of a core's register view to a register without a command of its own (R33, R40
to R44, R48, R76, R360, R378, R442, R469, R539, R547). -/

namespace Sys2Proof.Machine

/-- Registers whose writes are commands of their own. -/
def ownCommand (off : Nat) : Bool :=
  [0x1004, 0x2054, 0x5074, 0x15014].contains off || (arrayIdx off 0x2104 16 32).isSome || (arrayIdx off 0xD110 32 64).isSome

/-- Writes that the Host Interface ignores: base registers of a ring that is not `DISABLED`, and the shared addresses and the
interval unless every ring is (R378). -/
def State.ringLocked (s : State) (off : Nat) : Bool :=
  if 0xD004 ≤ off ∧ off ≤ 0xD014 then s.hst.rings.any fun r => r.2.state ≠ .disabled
  else if 0xD100 ≤ off ∧ off < 0xD900 ∧ (off - 0xD100) % 32 < 16 then (s.ring ((off - 0xD100) / 32)).state ≠ .disabled
  else false

/-- Bits of a W1C register that a write of `v` clears. -/
def State.clearBits (s : State) (off v : Nat) : State :=
  let top := bit v 31
  match off with
  | 0x1014 => if top then { s with cfg := { s.cfg with clamped := false, clampCount := 0 } } else s
  | 0x20D0 => if top then { s with tb := { s.tb with stampOvf := false, stampDrops := 0 } } else s
  | 0x3024 =>
    let keep := fun i => if i = 4 then !bit v 4 else !bit v i || s.tamperActive i
    { s with cal := { s.cal with
      tamperStatus := BitVec.ofNat 5 (wordOf 5 fun i => s.cal.tamperStatus.getLsbD i && keep i) } }
  | 0x401C => if top then { s with gns := { s.gns with ovf := false, drops := 0 } } else s
  | 0x6040 => if top then { s with fix := { s.fix with ovf := false, drops := 0 } } else s
  | 0x7010 => if top then { s with fld := { s.fld with eccSeen := false, eccBlocks := 0 } } else s
  | 0x7060 => if top then { s with fld := { s.fld with overflow := false, foreign := 0 } } else s
  | 0xD018 => { s with hst := { s.hst with dbFail := s.hst.dbFail && !bit v 30, dmaErr := s.hst.dmaErr && !top } }
  | 0xE018 => if top then { s with fab := { s.fab with evqOverflow := false } } else s
  | 0xF020 => if top then { s with dis := { s.dis with traceOvf := false, traceDrops := 0 } } else s
  | 0x15004 => if top then { s with pwr := { s.pwr with slow := false, stageMax := 0 } } else s
  | _ => match arrayIdx off 0xD114 32 64 with
    | some n => if bit v 3 then s.modRing n fun r => { r with badIndex := false } else s
    | none => s

/-- A word of the MSI-X table; a vector that is unmasked with its pending bit set is signalled (R360, log entry 11). -/
def State.writeMsix (s : State) (i v : Nat) : State :=
  let w := if i % 4 = 0 then v / 4 * 4 else if i % 4 = 3 then v % 2 else v
  let s := { s with hst := { s.hst with msix := tset s.hst.msix (if i % 4 = 3 then 1 else 0) i (BitVec.ofNat 32 w) } }
  if i % 4 = 3 && w = 0 && s.hst.pba.getLsbD (i / 4) then
    ({ s with hst := { s.hst with pba := s.hst.pba &&& ~~~((1 : BitVec 64) <<< (i / 4)) } }).signal (i / 4)
  else s

/-- CAL_TAMPER_CTRL, kept on VBAT: once LOCK is 1, nothing of it changes until VBAT is lost (R469). -/
def State.writeTamper (s : State) (r : RegDef) (v : Nat) : State :=
  if s.cal.tamperCtrl.getLsbD 16 then s
  else
    let (w, n) := r.store .rw 0xFFFFFFFF s.cal.tamperCtrl.toNat v
    { s with cal := { s.cal with tamperCtrl := BitVec.ofNat 32 w } }.countClamps n (some 0x3020)

/-- The stored fields of a register are written (R40, R41, R48): the staged ones unless CFG_CTRL.VIEW is 1, then the immediate
ones. -/
def State.writeFields (s : State) (r : RegDef) (off v : Nat) : State :=
  let s := if r.fields.any (fun f => f.acc = .rws) && s.reg F.CFG_CTRL_VIEW = 0 then s.writeStaged r off v else s
  if r.fields.any fun f => f.acc = .rw then s.writeDirect r off v else s

/-- A write of _HI of a pair that addresses host memory puts the pair in force (R34). -/
def State.latchBases (s : State) (off : Nat) : State :=
  if off = F.HST_DB_BASE_HI_ADDR.base then s.latchPair F.HST_DB_BASE_LO_ADDR F.HST_DB_BASE_HI_ADDR 0
  else if off = F.HST_SHADOW_BASE_HI_ADDR.base then s.latchPair F.HST_SHADOW_BASE_LO_ADDR F.HST_SHADOW_BASE_HI_ADDR 0
  else match arrayIdx off F.HST_RING_SQ_BASE_HI_ADDR.base 32 64, arrayIdx off F.HST_RING_CQ_BASE_HI_ADDR.base 32 64 with
    | some n, _ => s.latchPair F.HST_RING_SQ_BASE_LO_ADDR F.HST_RING_SQ_BASE_HI_ADDR n
    | _, some n => s.latchPair F.HST_RING_CQ_BASE_LO_ADDR F.HST_RING_CQ_BASE_HI_ADDR n
    | _, _ => s

/-- What a write of immediate fields brings about at once: PPS_OUT (R87), a watchdog's start (R442), the ladder (R185). -/
def State.afterWrite (s : State) (was : State) (off : Nat) : State :=
  if off = 0x2040 ∨ off = 0x2044 then s.ppsSettle was.ppsOn
  else if off / 4096 = 5 then s.mirSettle
  else match arrayIdx off 0xF100 4 16 with
    | some k => if was.reg F.DIS_WDOG_EN k = 0 && s.reg F.DIS_WDOG_EN k = 1 then
        { s with dis := { s.dis with wdogs := tset s.dis.wdogs Wdog.reset k ⟨s.clk.counter, false⟩ } } else s
    | none => s

/-- A watchdog that is enabled ignores writes until reset (R442). -/
def State.wdogLocked (s : State) (off : Nat) : Bool :=
  match arrayIdx off 0xF100 4 16 with
  | some k => s.reg F.DIS_WDOG_EN k = 1
  | none => false

/-- A 32-bit aligned write to a BAR0 offset. -/
def State.writeReg (s : State) (off v : Nat) : State :=
  if ownCommand off || s.ringLocked off || s.wdogLocked off || s.id.part.fitMask off = 0 then s
  else match arrayIdx off 0xDA00 4 256 with
    | some i => s.writeMsix i v
    | none =>
      match regAt off with
      | none => s.clearBits off v
      | some r =>
        if off = 0x3020 then s.writeTamper r v
        else if off = 0x201C then
          if s.unitOn U.tb && s.act F.TB_CTRL_SERVO_MODE = 1 then { s with clk := { s.clk with rate := BitVec.ofNat 32 v } } else s
        else (((s.writeFields r off v).latchBases off).clearBits off v).afterWrite s off

/-- Accesses of another size or alignment are dropped (R33). -/
def execRegisterWrite (dt offset size value : Nat) (s : State) : Result :=
  let s := s.elapse dt
  .next (if !s.writable || size ≠ 4 || offset % 4 ≠ 0 || 2 ^ 20 ≤ offset then s else s.writeReg offset (value % 2 ^ 32))

end Sys2Proof.Machine
end

