-- ==== Sys2Proof/Machine/Section.lean ====
section
/-! DEFINITION. The Section Engine's epoch: feedback, expiry, positions, footprints, decisions, claims, rates and command blocks
(R299 to R331). -/

namespace Sys2Proof.Machine

/-! ### STATE words (R121) -/

def swOn (w : Word) : Bool := w.getLsbD 0
def swHold (w : Word) : Nat := bits w.toNat 3 5

def State.secWord (s : State) (i : Nat) : Word := tget s.fld.secState 0 i

/-- One field of a section's STATE. -/
def State.putSec (s : State) (i lo width v : Nat) : State :=
  { s with fld := { s.fld with
    secState := tset s.fld.secState 0 i (BitVec.ofNat 32 (putBits (s.secWord i).toNat lo width v)) } }

/-- A section's decision: CMD_ON, HOLD and RATE_IDX (R316, R323). -/
def State.decideSec (s : State) (i : Nat) (on : Bool) (rateIdx : Nat) : State :=
  let w := s.secWord i
  let hold := if swOn w = on then min 31 (swHold w + 1) else 1
  ((s.putSec i 0 1 (b2n on)).putSec i 3 5 hold).putSec i 8 8 rateIdx

/-- Enabled machines with sections, ascending. -/
def State.sectioned (s : State) : List Nat := (List.range s.machines).filter fun m => s.machineOn m && meCount (s.machine m) ≠ 0

def State.secMach (s : State) (m : Nat) : SecMach := tget s.sec.machs SecMach.reset m

def State.modSec (s : State) (m : Nat) (f : SecMach → SecMach) : State :=
  { s with sec := { s.sec with machs := tmod s.sec.machs SecMach.reset m f } }

/-! ### Step 1: feedback and expiry (R319 to R321) -/

/-- The command in force for a section at an instant, from a machine's history: none before its earliest entry. -/
def inForce (hist : List (Nat × List Nat)) (t i : Nat) : Option Bool :=
  if hist.isEmpty then some false else (hist.find? fun e => e.1 ≤ t).map fun e => e.2.contains i

/-- What a report of a section that holds no claim for its instant comes to. -/
inductive Unclaimed where
  | mismatch | late
deriving DecidableEq, Repr

def SecMach.unclaimed (x : SecMach) (apply' delivered i : Nat) : Unclaimed :=
  if delivered < apply' then .mismatch
  else match inForce x.hist apply' i with
    | some false => .mismatch
    | _ => .late

/-- One section reported by a block: the state, and whether the report makes the block a mismatch. -/
def State.report (s : State) (m i : Nat) (x : SecMach) (applied : Bool) (apply' delivered : Nat) : State × Bool :=
  let k := meBase (s.machine m) + i
  let s := s.putSec k 1 1 (b2n applied)
  let s := { s with sec := { s.sec with reported := tset s.sec.reported 0 k delivered } }
  let mine := s.sec.claims.filter fun e => e.2.machine = m && e.2.sect = k && e.2.apply' = apply'
  if !mine.isEmpty then
    (mine.foldl (fun s e => if applied then s.confirmClaim e.1 e.2 else s.dropClaim e.1 e.2) s, false)
  else if !applied then (s, false)
  else match x.unclaimed apply' delivered i with
    | .mismatch => (s, true)
    | .late => ({ s with sec := { s.sec with fbLate := s.sec.fbLate + 1 } }, false)

/-- A delivered feedback block (R320): a mismatch counts once for the block, and names the first section that showed it. -/
def State.applyFeedback (s : State) (f : Feedback) : State :=
  let e := s.machine f.machine
  if !s.machineOn f.machine then s
  else
    let b := f.body
    let apply' := nearest32 (fieldLE b 0 4) (f.at' / 1000000) * 1000000
    let first := fieldLE b 6 2
    let n := clampNat 1 1024 (fieldLE b 8 2)
    let x := s.secMach f.machine
    let r := (List.range n).foldl (fun (acc : State × Option Nat) k =>
      if meCount e ≤ first + k then acc
      else
        let (s, bad) := acc.1.report f.machine (first + k) x (bit (byteAt b (10 + k / 8)) (k % 8)) apply' f.at'
        (s, if bad && acc.2.isNone then some (first + k) else acc.2)) (s, none)
    match r.2 with
    | some i => ({ r.1 with sec := { r.1.sec with fbMismatch := r.1.sec.fbMismatch + 1 } }).raise Ev.secFbMismatch f.machine
        (leBytes 1 f.machine ++ leBytes 2 i)
    | none => r.1

/-- FB_STALE of a machine's sections over the interval that ends now (R320). -/
def State.markStale (s : State) (m : Nat) : State :=
  let e := s.machine m
  let from' := ((s.secMach m).fired.orElse fun _ => s.sec.since).getD 0
  (List.range (meCount e)).foldl (fun s i =>
    let k := meBase e + i
    s.putSec k 2 1 (b2n (tget s.sec.reported 0 k ≤ from'))) s

/-- Claims of superframe k − 2 and before expire (R321). -/
def State.expireClaims (s : State) (k : Nat) : State :=
  let gone := s.sec.claims.filter fun e => e.2.apply' / sfNs + 2 ≤ k
  let s := gone.foldl (fun s e => s.dropClaim e.1 e.2) s
  let s := { s with sec := { s.sec with expired := s.sec.expired + BitVec.ofNat 32 gone.length } }
  let ms := (List.range 256).filter fun m => gone.any fun e => e.2.machine = m
  ms.foldl (fun s _ => s.raise Ev.secClaimExpired 0 []) s

/-- Step 1 of R301 at fire instant `tf` in superframe `k`. -/
def State.epochOne (s : State) (tf k : Nat) : State :=
  let due := s.sec.feedback.filter fun f => f.at' ≤ tf
  let s := { s with sec := { s.sec with feedback := s.sec.feedback.filter fun f => tf < f.at' } }
  let s := due.foldl State.applyFeedback s
  (s.sectioned.foldl State.markStale s).expireClaims k

/-! ### Positions (R304 to R306) -/

/-- The motion state at the position instant: antenna, sine and cosine of the heading, speed in mm/s, ANG_RATE. -/
structure Motion where
  east : Rat
  north : Rat
  sn : Rat
  cs : Rat
  v : Rat
  w : Int
  tp : Nat
deriving DecidableEq, Repr

/-- A place and a heading. -/
structure Pose where
  east : Rat
  north : Rat
  sn : Rat
  cs : Rat
deriving DecidableEq, Repr

/-- A point `fwd` ahead and `right` to the right of a pose. -/
def Pose.off (p : Pose) (fwd right : Rat) : Rat × Rat :=
  (p.east + fwd * p.sn + right * p.cs, p.north + fwd * p.cs - right * p.sn)

/-- The VRP at an instant (R306). -/
def Motion.vrp (x : Motion) (antFwd antRight : Int) (t : Nat) : Pose :=
  let p : Pose := ⟨x.east, x.north, x.sn, x.cs⟩
  let (e0, n0) := p.off (-(antFwd : Rat)) (-(antRight : Rat))
  let dt : Rat := (((t : Int) - x.tp : Int) : Rat) / 1000000000
  if x.w = 0 then ⟨e0 + x.v * dt * x.sn, n0 + x.v * dt * x.cs, x.sn, x.cs⟩
  else
    let th : Rat := (x.w : Rat) * dt / 65536
    let s1 := x.sn * cosTurn th + x.cs * sinTurn th
    let c1 := x.cs * cosTurn th - x.sn * sinTurn th
    let k := x.v / ((x.w : Rat) * twoPi / 65536)
    ⟨e0 + k * (x.cs - c1), n0 + k * (s1 - x.sn), s1, c1⟩

/-- The latest of the solutions by instant. -/
def latestOwn (l : List OwnSol) : Option OwnSol :=
  l.foldl (fun b o => match b with | some p => if p.tag < o.tag then some o else b | none => some o) none
def latestCen (l : List CenSol) : Option CenSol :=
  l.foldl (fun b o => match b with | some p => if p.epoch < o.epoch then some o else b | none => some o) none

/-- Not older than MAX_AGE at the fire instant. -/
def State.young (s : State) (m tf t : Nat) : Bool := tf ≤ t + s.act F.SEC_MACH2_MAX_AGE m * 1000000

/-- A usable source (R304): false for `ROVER`. -/
inductive Pick where
  | rover (o : OwnSol)
  | central (c : CenSol)
deriving DecidableEq, Repr

def State.pickFrom (s : State) (m tf : Nat) (central : Bool) : Option Pick :=
  let x := s.secMach m
  let least := s.act F.SEC_MACH_MIN_STAT m
  if central then
    if s.fix.fault then none
    else (latestCen (x.cen.filter fun c => decide (c.at' ≤ tf) && decide (least ≤ c.status) && !c.degraded &&
      s.young m tf c.epoch)).map .central
  else (latestOwn (x.own.filter fun o => decide (o.at' ≤ tf) && decide (least ≤ o.status) && s.young m tf o.tag)).map .rover

def OwnSol.motion (o : OwnSol) : Motion :=
  let h : Rat := (o.heading : Rat) / 65536
  ⟨o.east, o.north, sinTurn h, cosTurn h, o.speed, o.angRate, o.tag⟩

/-- The motion state of a pick (R305): none for a central solution without any OWN_SOLUTION. -/
def State.motionOf (s : State) (m tf : Nat) : Pick → Option Motion
  | .rover o => some o.motion
  | .central c =>
    let own := (s.secMach m).own.find? fun o => o.at' ≤ tf
    let w : Int := match own with
      | some o => if s.young m tf o.tag then o.angRate else 0
      | none => 0
    let ve : Rat := c.velE
    let vn : Rat := c.velN
    own.map fun (o : OwnSol) =>
      if 40000 ≤ ve * ve + vn * vn then
        let v := sqrtR (ve * ve + vn * vn)
        if o.speed < 0 then ⟨c.east, c.north, -(ve / v), -(vn / v), -v, w, c.epoch⟩ else ⟨c.east, c.north, ve / v, vn / v, v, w, c.epoch⟩
      else
        let h : Rat := (o.heading : Rat) / 65536
        ⟨c.east, c.north, sinTurn h, cosTurn h, 0, w, c.epoch⟩

/-- Position selection (R304): source used, fallback in use, motion. -/
def State.position (s : State) (m tf : Nat) : Bool × Bool × Option Motion :=
  let src := s.act F.SEC_MACH_POS_SRC m = 1
  match s.pickFrom m tf src with
  | some p => (src, false, s.motionOf m tf p)
  | none =>
    if s.act F.SEC_MACH_FALLBACK m = 0 then (src, false, none)
    else match s.pickFrom m tf (!src) with
      | some p => (!src, true, s.motionOf m tf p)
      | none => (src, false, none)

/-! ### Trailed implements (R308) -/

def sub2 (a b : Rat × Rat) : Rat × Rat := (a.1 - b.1, a.2 - b.2)

/-- unit (a), or the forward vector `f` where `a` is zero. -/
def unit2 (a f : Rat × Rat) : Rat × Rat :=
  let q := sqrtR (a.1 * a.1 + a.2 * a.2)
  if q = 0 then f else (a.1 / q, a.2 / q)

/-- One step of the implement behind hitch `h` with the machine's forward vector `f`. -/
def follow (len : Rat) (i h f : Rat × Rat) : Rat × Rat :=
  let u := unit2 (sub2 h i) f
  (h.1 - len * u.1, h.2 - len * u.2)

/-- Instants of an advance from `t0` to `t1`: every 20 ms, and `t1` (R308). -/
def advanceAt (t0 t1 : Nat) : List Nat :=
  if t1 ≤ t0 then []
  else (List.range ((t1 - t0 - 1) / sfNs)).map (fun k => t0 + (k + 1) * sfNs) ++ [t1]

def hitchAt (x : Motion) (e : List Byte) (t : Nat) : (Rat × Rat) × (Rat × Rat) :=
  let p := x.vrp (meAntFwd e) (meAntRight e) t
  (p.off (meHitchFwd e) (meHitchRight e), (p.sn, p.cs))

/-- The implement point at t_p, kept for the next epoch. -/
def implementAt (x : Motion) (e : List Byte) (held : Option Implement) : Implement :=
  let (h, f) := hitchAt x e x.tp
  let len : Rat := meTrailLen e
  let fresh : Implement := ⟨h.1 - len * f.1, h.2 - len * f.2, x.tp, h.1, h.2⟩
  match held with
  | none => fresh
  | some i =>
    if x.tp < i.time || i.time + 1000000000 < x.tp then fresh
    else
      let span : Rat := ((x.tp - i.time : Nat) : Rat)
      let p := (advanceAt i.time x.tp).foldl (fun (p : Rat × Rat) t =>
        let a : Rat := ((t - i.time : Nat) : Rat) / span
        follow len p (i.hitchE + a * (h.1 - i.hitchE), i.hitchN + a * (h.2 - i.hitchN)) (hitchAt x e t).2)
        (i.east, i.north)
      ⟨p.1, p.2, x.tp, h.1, h.2⟩

/-- The pose that a machine's sections hang on at an instant (R307, R308). -/
def carrier (x : Motion) (e : List Byte) (impl : Option Implement) (te : Nat) : Pose :=
  match impl with
  | none => x.vrp (meAntFwd e) (meAntRight e) te
  | some i =>
    let p := (advanceAt x.tp te).foldl (fun (p : Rat × Rat) t =>
      let (h, f) := hitchAt x e t
      follow (meTrailLen e) p h f) (i.east, i.north)
    let (h, f) := hitchAt x e te
    let u := unit2 (sub2 h p) f
    ⟨p.1, p.2, u.1, u.2⟩

/-! ### Footprints and samples (R309 to R312) -/

/-- Points across and along a rectangle of R311. -/
def gridOf (w lg cell : Rat) : Nat × Nat :=
  let na := max 1 (w / cell).ceil.toNat
  let nl := max 1 (lg / cell).ceil.toNat
  if na * nl ≤ 64 then (na, nl) else if 64 ≤ na then (64, 1) else (na, min nl (64 / na))

/-- The points of a rectangle whose rear edge lies `rear` ahead of `centre`'s pose in the direction of travel. -/
def gridPoints (p : Pose) (sgn xFwd yRight rear w lg cell : Rat) : List (Rat × Rat) :=
  let (na, nl) := gridOf w lg cell
  ((List.range nl).map fun j => (List.range na).map fun i =>
    let across : Rat := -w / 2 + ((i : Rat) + 1 / 2) * w / na
    let along : Rat := ((j : Rat) + 1 / 2) * lg / nl
    p.off (xFwd + sgn * (rear + along)) (yRight + across)).flatten

/-- What the samples of a section gave: the coverage samples' cells that do not read excluded, their number and how many read
covered, whether an exclusion sample is excluded, and each product's indices. -/
structure SecEval where
  cells : List Cell
  n : Nat
  cov : Nat
  excluded : Bool
  idx : List (List Nat)
deriving DecidableEq, Repr

def SecEval.none (products : Nat) : SecEval := ⟨[], 0, 0, true, List.replicate products []⟩

/-- A coverage sample reads covered (R312). -/
def State.covered (s : State) (m : Nat) (c : Cell) (code : Nat) : Bool :=
  if code = 3 then
    match tfind s.sec.claims c.key with
    | some k => k.machine ≠ m || k.prior ≠ 0
    | Option.none => false
  else code ≠ 0

/-- One coverage sample: its cell, and whether it reads covered, or none where it reads excluded. -/
def State.coverPoint (s : State) (m f : Nat) (p : Rat × Rat) : State × Option (Cell × Bool) :=
  match s.cellAt f p.1 p.2 with
  | Option.none => (s, Option.none)
  | some c => match s.coverage c with
    | (s, some code) => (s, some (c, s.covered m c code))
    | (s, Option.none) => (s, Option.none)

/-- An exclusion sample is excluded (R314). -/
def State.exclPoint (s : State) (f : Nat) (p : Rat × Rat) : State × Bool :=
  match s.cellAt f p.1 p.2 with
  | Option.none => (s, true)
  | some c =>
    if !lwPresent (s.layerWord f (c.col / 256) (c.row / 256) 0) then (s, true) else s.exclusion c

/-- The indices of a product through the samples, none for a cell whose line is refused (R118, R323). -/
def State.prescPoints (s : State) (f layer : Nat) (pts : List (Rat × Rat)) : State × List (Option Nat) :=
  if layer = 0xFF then (s, pts.map fun _ => some 0)
  else pts.foldl (fun (acc : State × List (Option Nat)) p =>
    match acc.1.cellAt f p.1 p.2 with
    | Option.none => (acc.1, acc.2 ++ [some 0])
    | some c =>
      let (s, v) := acc.1.prescription layer c
      (s, acc.2 ++ [v])) (s, [])

/-- A section is sampled for application instant `A`. -/
def State.sampleSec (s : State) (m : Nat) (x : Motion) (impl : Option Implement) (k A : Nat) : State × SecEval :=
  let e := s.machine m
  let se := s.cfg.active.sectionEntry k
  let f := meField e
  let cell : Rat := s.cellMm f
  let lead := if swOn (s.secWord k) then seLeadOff se else seLeadOn se
  let p := carrier x e impl (A + lead * 1000000)
  let sgn : Rat := if x.v < 0 then -1 else 1
  let d := maxR cell (absR x.v / 50)
  let rear : Rat := (seLength se : Rat) / 2
  let pts := gridPoints p sgn (seXFwd se) (seYRight se) rear (seWidth se) d cell
  let (s, got) := pts.foldl (fun (acc : State × List (Option (Cell × Bool))) q =>
    let (s, r) := acc.1.coverPoint m f q
    (s, acc.2 ++ [r])) (s, [])
  let buf : Rat := s.act F.SEC_MACH2_EXCL_BUFFER m
  let ex := if buf = 0 then pts
    else gridPoints p sgn (seXFwd se) (seYRight se) (rear - buf) ((seWidth se : Rat) + 2 * buf) (d + 2 * buf) cell
  let (s, bad) := ex.foldl (fun (acc : State × Bool) q =>
    let (s, r) := acc.1.exclPoint f q
    (s, acc.2 || r)) (s, false)
  let (s, idx) := (List.range (meProducts e)).foldl (fun (acc : State × List (List (Option Nat))) pr =>
    if bit (seProducts se) pr then
      let (s, l) := acc.1.prescPoints f (meLayer e pr) pts
      (s, acc.2 ++ [l])
    else (acc.1, acc.2 ++ [[]])) (s, [])
  let seen := got.filterMap fun g => g
  (s, ⟨seen.map fun g => g.1, pts.length, (seen.filter fun g => g.2).length,
    bad || got.any (·.isNone) || idx.any fun l => l.contains Option.none, idx.map fun l => l.map fun v => v.getD 0⟩)

/-! ### Decisions (R313 to R316) -/

/-- The first cause of R313 that holds for a machine. -/
def State.secReason (s : State) (m : Nat) (x : Option Motion) : Nat :=
  if s.stp.latched || !s.stp.enabled.getLsbD m then 1
  else if (s.machLink m).state = .linkLost || s.stp.lostSince.getLsbD m then 2
  else if (s.machLink m).state = .notJoined then 3
  else if s.has U.car && (s.carMach m).held then 4
  else if s.act F.SEC_MACH_DISAGREE_OFF m = 1 && s.disagrees m then 5
  else match x with
    | Option.none => 6
    | some y =>
      let least : Rat := s.act F.SEC_MACH2_MIN_SPEED m
      if 0 < least && y.v < least then 7 else 0

/-- The state wanted by coverage (R315). -/
def wanted (on : Bool) (ov hyst cov n : Nat) : Bool := 100 * cov ≤ (if on then min (ov + hyst) 100 else ov) * n

/-- The non-zero index that occurs most often, a tie going to the lower; 0 where there is none (R323). -/
def modeIndex (l : List Nat) : Nat :=
  (sortBy (fun x => x) (l.filter (· ≠ 0)).eraseDups).foldl (fun best x =>
    if best = 0 ∨ l.count best < l.count x then x else best) 0

/-- One section's turn: what its samples gave. -/
def State.turnSec (s : State) (m reason : Nat) (x : Option Motion) (impl : Option Implement) (k A : Nat) : State × SecEval :=
  let e := s.machine m
  let se := s.cfg.active.sectionEntry k
  match x with
  | some y =>
    if reason ≠ 0 || !seEn se then (s.decideSec k false 0, SecEval.none (meProducts e))
    else
      let (s, v) := s.sampleSec m y impl k A
      let w := s.secWord k
      let on := swOn w
      let want := wanted on (s.act F.SEC_MACH_OVERLAP m) (s.act F.SEC_MACH_HYST m) v.cov v.n
      let next := if v.excluded then false
        else if want ≠ on && swHold w < s.act F.SEC_MACH_MIN_HOLD m then on else want
      let low := ((List.range (meProducts e)).find? fun p => bit (seProducts se) p).map fun p => modeIndex (v.idx.getD p [])
      (s.decideSec k next (low.getD 0), v)
  | Option.none => (s.decideSec k false 0, SecEval.none (meProducts e))

/-- Claims of one commanded section (R317): the state, and whether the store was full. -/
def State.claimSec (s : State) (m k A : Nat) (v : SecEval) : State × Bool :=
  v.cells.foldl (fun (acc : State × Bool) c =>
    match acc.1.coverage c false with
    | (s, some code) =>
      if code = 3 then (s, acc.2)
      else if 1048576 ≤ s.sec.claims.length then
        ({ s with sec := { s.sec with claimFull := s.sec.claimFull + 1 } }, true)
      else
        (({ s with sec := { s.sec with claims := tput s.sec.claims c.key ⟨code, m, k, A⟩ } }).setCov c 3 false, acc.2)
    | (s, Option.none) => (s, acc.2)) (s, false)

/-! ### Command blocks (R323 to R327) -/

/-- Sections of a block of at most 255 bytes. -/
def blockSections (mode nprod : Nat) : Nat :=
  let size := fun n => 10 + (n + 7) / 8 + (if mode = 0 then 0 else if mode = 1 then 2 * nprod else 2 * nprod * n)
  ((List.range 1025).filter fun n => size n ≤ 255).length - 1

/-- One block: sections `first` to `first + n - 1`. -/
def cmdBlock (A mode nprod first n : Nat) (forced : Bool) (on : Nat → Bool) (rate : Nat → Nat → Nat) : List Byte :=
  leBytes 4 (A / 1000000) ++ leBytes 1 (b2n (mode ≠ 0) + 2 * b2n forced + 4 * b2n (mode = 2)) ++
  leBytes 1 (if mode = 0 then 0 else nprod) ++ leBytes 2 first ++ leBytes 2 n ++
  (List.range ((n + 7) / 8)).map (fun j => BitVec.ofNat 8 (pack8 fun i => decide (8 * j + i < n) && on (first + 8 * j + i))) ++
  (if mode = 0 then []
   else if mode = 1 then ((List.range nprod).map fun p => leBytes 2 (rate 0 p)).flatten
   else ((List.range n).map fun i => ((List.range nprod).map fun p => leBytes 2 (rate (first + i) p)).flatten).flatten)
where
  pack8 (f : Nat → Bool) : Nat := (List.range 8).foldl (fun w i => w + b2n (f i) * 2 ^ i) 0

/-- Index and value of each product under `MACHINE` (R323); the value sent is remembered. -/
def State.machineRates (s : State) (m : Nat) (evals : List (Nat × SecEval)) : State × List Nat :=
  let e := s.machine m
  (List.range (meProducts e)).foldl (fun (acc : State × List Nat) p =>
    let s := acc.1
    let live := evals.filter fun v => swOn (s.secWord v.1) && bit (seProducts (s.cfg.active.sectionEntry v.1)) p
    let value := if live.isEmpty then tget (s.secMach m).rates (s.rateValue (meTable e p) 0) p
      else s.rateValue (meTable e p) (modeIndex (live.map fun v => v.2.idx.getD p []).flatten)
    (s.modSec m fun x => { x with rates := tput x.rates p value }, acc.2 ++ [value])) (s, [])

/-- The blocks of a machine for instant A in the superframe after `k` (R324 to R326), and its history (R320). -/
def State.sendBlocks (s : State) (m reason k A : Nat) (evals : List (Nat × SecEval)) : State :=
  let e := s.machine m
  let mode := s.act F.SEC_MACH_RATE_MODE m
  let nprod := meProducts e
  let count := meCount e
  let (s, flat) := if mode = 1 then s.machineRates m evals else (s, [])
  let on := fun i => swOn (s.secWord (meBase e + i))
  let rate := fun i p =>
    if mode = 1 then flat.getD p 0
    else s.rateValue (meTable e p) (modeIndex (((evals[i]?).map fun v => v.2.idx.getD p []).getD []))
  let per := max 1 (blockSections mode nprod)
  let early := (k + 1) * sfNs + s.act F.SEC_CTRL_PHASE * 125000
  let s := (List.range ((count + per - 1) / per)).foldl (fun s b =>
    let n := min per (count - b * per)
    s.queueDl ⟨m, (s.machLink m).port, DL.sectionCmd, cmdBlock A mode nprod (b * per) n (reason ≠ 0) on rate, early, (k + 2) * sfNs,
      Option.none, false⟩) s
  let ons := (List.range count).filter on
  s.modSec m fun x => { x with
    hist := ((sortBy (fun h => 2 ^ 64 - h.1) ((A, ons) :: x.hist.filter fun h => h.1 ≠ A)).take 8) }

/-! ### The epoch (R301) -/

/-- What a machine's turn leaves for step 3. -/
structure Turn where
  machine : Nat
  reason : Nat
  evals : List (Nat × SecEval)
deriving DecidableEq, Repr

/-- A machine's turn in step 2: the state, its outcome, and whether a claim was refused. -/
def State.turn (s : State) (m tf A : Nat) : State × Turn × Bool :=
  let e := s.machine m
  let old := s.secMach m
  let (src, fallback, x) := s.position m tf
  let reason := s.secReason m x
  let impl : Option Implement := match x with
    | some y => if meTrailed e then some (implementAt y e old.impl) else Option.none
    | Option.none => if meTrailed e then old.impl else Option.none
  let s := s.modSec m fun r => { r with reason := reason, src := src, fallback := fallback, impl := impl, fired := some tf }
  let s := if fallback && !old.fallback then s.raise Ev.secPosFallback m (leBytes 1 m) else s
  let s := if old.reason = 0 && reason ≠ 0 then s.raise Ev.secForcedOff m (leBytes 1 m ++ leBytes 1 reason) else s
  let (s, evals) := (List.range (meCount e)).foldl (fun (acc : State × List (Nat × SecEval)) i =>
    let (s, v) := acc.1.turnSec m reason x impl (meBase e + i) A
    (s, acc.2 ++ [(meBase e + i, v)])) (s, [])
  let s := s.modSec m fun r => { r with onCount := (evals.filter fun v => swOn (s.secWord v.1)).length }
  let (s, full) := (evals.filter fun v => swOn (s.secWord v.1)).foldl (fun (acc : State × Bool) v =>
    let (s, b) := acc.1.claimSec m v.1 A v.2
    (s, acc.2 || b)) (s, false)
  (s, ⟨m, reason, evals⟩, full)

/-- Steps 2 and 3. Claims of an earlier epoch for the same instant are released first (R327, R322). -/
def State.epochTwo (s : State) (tf k A : Nat) : State :=
  let s := s.releaseClaims fun _ c => c.apply' = A
  let (s, turns, full) := s.sectioned.foldl (fun (acc : State × List Turn × Bool) m =>
    let (s, t, f) := acc.1.turn m tf A
    (s, acc.2.1 ++ [t], acc.2.2 || f)) (s, [], false)
  let s := if full then s.raise Ev.secClaimFull 0 [] else s
  if s.stp.latched then s
  else (turns.filter fun t => t.reason ≠ 2 && t.reason ≠ 3).foldl (fun s t => s.sendBlocks t.machine t.reason k A t.evals) s

/-- The epoch fired at `tf`; its step 2 takes `us` µs. -/
def State.epoch (s : State) (tf us : Nat) : State :=
  let k := tf / sfNs
  let s := s.epochOne tf k
  let s := s.epochTwo tf k ((k + s.act F.SEC_CTRL_APPLY_DELAY) * sfNs)
  let s := { s with sec := { s.sec with
    epochs := s.sec.epochs + 1, maxUs := max s.sec.maxUs us, runUntil := s.clk.counter + tickUs * us } }
  s.raise Ev.secEpochDone 0 []

/-- The periodic entry of the engine re-arms at T + P of the next superframe (R97, R300). -/
def State.rearmEpoch (s : State) (p : Periodic) : State :=
  let next := (p.time / sfNs + 1) * sfNs + s.act F.SEC_CTRL_PHASE * 125000
  { s with tb := { s.tb with
    periodic := s.tb.periodic.map fun (q : Periodic) => if q = p then { q with time := next } else q } }

/-- The entry fires: after the commits due on its tick or before it (R99), the copy of R124 and the training of the DRAM (R450). An epoch that finds the previous one running is
skipped (R303). -/
def execSecEpoch (dt us : Nat) (s : State) : Result :=
  let (us, s) := (s.elapse dt).turnLength us 12000
  .next (match s.tb.periodic.find? fun p => p.unit = U.sec && p.time ≤ s.now with
    | Option.none => s
    | some p =>
      if s.commitWaits p.time || s.fld.copying || (s.unitOn U.fld && s.dramHeld) || s.pwr.state ≠ .run || s.clk.frozen then s
      else
        let s := s.rearmEpoch p
        if s.sec.fault then s
        else if s.clk.counter < s.sec.runUntil then
          ({ s with sec := { s.sec with skip := s.sec.skip + 1 } }).raise Ev.secEpochSkipped 0 []
        else s.epoch p.time us)

end Sys2Proof.Machine
end

