-- ==== Sys2Proof/Machine/Stop.lean ====
section
/-! DEFINITION. The Stop Controller's commands: the pins, the outputs' test, and the descriptors of ring 0
(R336, R337, R347 to R353, R357). -/

namespace Sys2Proof.Machine

/-! ### Pins (R336, R337) -/

/-- The filtered level of a pin is set; the instant at which the pins began to disagree follows. -/
def State.setPin (s : State) (pinB stop : Bool) : State :=
  let a := if pinB then s.stp.pinA else stop
  let b := if pinB then stop else s.stp.pinB
  { s with stp := { s.stp with
    pinA := a, pinB := b, disagreeAt := if a = b then none else some s.clk.counter } }

/-- A pin's filtered level changes; one that comes to show stop requests `STOP`. A device held in reset only sees the level. -/
def execStopInEdge (dt : Nat) (pinB stop : Bool) (s : State) : Result :=
  let s := s.elapse dt
  .next (if (if pinB then s.stp.pinB else s.stp.pinA) = stop then s
    else
      let s := s.setPin pinB stop
      if stop && !s.pwr.inReset then s.stopRequest (if pinB then Src.pinB else Src.pinA) true none true else s)

/-- The pins have disagreed for DISAGREE ms: PIN_FAULT, once for each disagreement. -/
def execStpPinFault (dt : Nat) (s : State) : Result :=
  let s := s.elapse dt
  .next (match s.stp.disagreeAt with
    | some t =>
      if s.pwr.inReset || s.clk.counter < t + s.reg F.STP_PIN_DISAGREE * tickMs then s
      else ({ s with stp := { s.stp with pinFault := true, disagreeAt := none } }).raise Ev.stpPinFault 0 []
    | none => s)

/-! ### The outputs' test (R347, R348) -/

/-- The start of a pulse on an output, and its test instant. -/
def State.pulse (s : State) (outB : Bool) : Option Nat := if outB then s.stp.pulseB else s.stp.pulseA
def State.tested (s : State) (outB : Bool) : Nat := if outB then s.stp.testB else s.stp.testA

def State.setPulse (s : State) (outB : Bool) (p : Option Nat) (t : Nat) : State :=
  { s with stp := if outB then { s.stp with pulseB := p, testB := t } else { s.stp with pulseA := p, testA := t } }

/-- Every PERIOD s a running output is pulsed to its stopped level. -/
def execStpSelftestPulse (dt : Nat) (outB : Bool) (s : State) : Result :=
  let s := s.elapse dt
  .next (if s.reg F.STP_SELFTEST_EN = 0 || s.outStopped outB ||
      s.clk.counter < s.tested outB + s.reg F.STP_SELFTEST_PERIOD * tickS then s
    else (s.setPulse outB (some s.clk.counter) s.clk.counter).settleOuts)

/-- PULSE µs after the pulse began the output returns to the level that R347 gives; a good read-back counts, and one that did not
follow for more than R348 allows is fatal: the pad shows its running level still. -/
def execStpSelftestPulseEnd (dt : Nat) (outB readBack : Bool) (s : State) : Result :=
  let s := s.elapse dt
  .next (match s.pulse outB with
    | some t =>
      if s.clk.counter < t + s.reg F.STP_SELFTEST_PULSE * tickUs then s
      else
        let good := { s with stp := { s.stp with tests := s.stp.tests + 1 } }
        let s := if readBack then good else s
        let s := (s.setPulse outB none t).settleOuts
        let s := s.setPulse outB none t
        -- of a pulse the first 10 µs do not count, and 20 µs more are let pass
        if readBack || s.reg F.STP_SELFTEST_PULSE ≤ 30 then s else (s.stickPad outB false).fatal Fatal.stopSelftest
    | none => s)

/-- An output's read-back has differed from its driven level for more than 20 µs; the pad stays where it is. -/
def execStpOutMismatch (dt : Nat) (outB : Bool) (s : State) : Result :=
  let s := s.elapse dt
  .next ((s.stickPad outB (!s.outStopped outB)).fatal Fatal.stopSelftest)

/-! ### Descriptors (R349 to R353, R357) -/

def opStpStop : Nat := 0x0801
def opStpArm : Nat := 0x0802
def opStpConfirm : Nat := 0x0803
def opStpReEnable : Nat := 0x0804

/-- STP_STOP: a request of source `RING`; a latch that stands at `STOP` holds both classes. -/
def State.stpStop (s : State) (d : Desc) : State :=
  if 1 < d.operand 0 1 then s.complete d St.badDesc
  else
    (s.stopRequest Src.ring (d.operand 0 1 = 1) (some (d.operand 2 2)) (!bit (d.operand 1 1) 0)).complete d St.ok

def execStpStop (dt ring index : Nat) (s : State) : Result :=
  .next ((s.elapse dt).withDesc ring index opStpStop (fun _ => true) State.stpStop)

/-- A check of R349 failed. -/
def State.refuseRelease (s : State) (d : Desc) (status : Nat) : State :=
  (s.raise Ev.stpReleaseRefused 0 []).complete d status

/-- The first check of an ARM that fails. -/
def State.armCheck (s : State) (clear : Bool) : Option Nat :=
  if s.pwr.state ≠ .run then some St.state
  else if !s.stp.latched then some St.notLatched
  else if s.stp.pinA || s.stp.pinB then some St.pins
  else if s.stp.pinFault && !clear then some St.pins
  else none

/-- STP_ARM. -/
def State.stpArm (s : State) (d : Desc) : State :=
  let clear := bit (d.operand 0 1) 0
  match s.armCheck clear with
  | some st => s.refuseRelease d st
  | none =>
    (({ s with stp := { s.stp with
        pinFault := if clear then false else s.stp.pinFault, armed := some s.clk.counter } }).raise Ev.stpArmed 0 []).complete
      d St.ok

def execStpArm (dt ring index : Nat) (s : State) : Result :=
  .next ((s.elapse dt).withDesc ring index opStpArm (fun _ => true) State.stpArm)

/-- The first check of a CONFIRM that fails. -/
def State.confirmCheck (s : State) : Option Nat :=
  if s.pwr.state ≠ .run then some St.state
  else if !s.stp.latched then some St.notLatched
  else match s.stp.armed with
    | none => some St.notArmed
    | some t =>
      if s.clk.counter < t + s.reg F.STP_RELEASE_GAP * tickMs then some St.tooSoon
      else if t + s.reg F.STP_RELEASE_WINDOW * tickS < s.clk.counter then some St.armExpired
      else if s.stp.pinA || s.stp.pinB || s.stp.pinFault then some St.pins
      else none

/-- The latch is released: the outputs may show running; no machine resumes. -/
def State.release (s : State) : State :=
  let was := (s.clk.counter, s.stp.testA, s.stp.testB)
  ((({ s with stp := { s.stp with latched := false, armed := none, released := some was } }).settleOuts).raise
    Ev.stpRelease 0 []).holdFrames

/-- STP_CONFIRM. -/
def State.stpConfirm (s : State) (d : Desc) : State :=
  match s.confirmCheck with
  | some st => ({ s with stp := { s.stp with armed := none } }).refuseRelease d st
  | none => s.release.complete d St.ok

def execStpConfirm (dt ring index : Nat) (s : State) : Result :=
  .next ((s.elapse dt).withDesc ring index opStpConfirm (fun _ => true) State.stpConfirm)

/-- The end of WINDOW. -/
def execStpArmExpired (dt : Nat) (s : State) : Result :=
  let s := s.elapse dt
  .next (match s.stp.armed with
    | some t =>
      if s.clk.counter < t + s.reg F.STP_RELEASE_WINDOW * tickS then s
      else { s with stp := { s.stp with armed := none } }
    | none => s)

/-- One machine is re-enabled: its bit, its block (R351), and the thaw of R287. -/
def State.reEnable (s : State) (m : Nat) : State :=
  let body := leBytes 2 s.stp.count.toNat ++ leBytes 1 (b2n (s.stp.lostSince.getLsbD m)) ++ [0]
  let s := s.queueBlock m DL.reEnable body
  ({ s with stp := { s.stp with
      enabled := s.stp.enabled ||| (1 <<< m), lostSince := s.stp.lostSince &&& ~~~(1 <<< m : BitVec 256) } }).thawEnable m

/-- STP_RE_ENABLE. -/
def State.stpReEnable (s : State) (d : Desc) : State :=
  let m := d.operand 0 1
  let all := bit (d.operand 1 1) 0
  if s.pwr.state ≠ .run then s.complete d St.state
  else if s.stp.latched then s.complete d St.latched
  else if all && s.stp.stop then s.complete d St.classStop
  else if !all && !s.joined m then s.complete d St.notJoined
  else
    let ms := if all then (List.range s.machines).filter s.joined else [m]
    let s := ms.foldl State.reEnable s
    let s := s.raise Ev.stpReEnable (if all then 0 else m) (leBytes 1 m ++ leBytes 1 (b2n all))
    s.complete d St.ok (leBytes 2 ms.length)

def execStpReEnable (dt ring index : Nat) (s : State) : Result :=
  .next ((s.elapse dt).withDesc ring index opStpReEnable (fun _ => true) State.stpReEnable)

end Sys2Proof.Machine
end

