-- ==== Sys2Proof/Machine/Dispatch.lean ====
section
/-! DEFINITION. The meaning of each command, arm by arm. -/

namespace Sys2Proof.Machine

def exec (i : Instr) (s : State) : Host.Outcome State Fault Refusal :=
  match i with
  | .powerOnReset dt good vbat => Sys2Proof.Machine.execPowerOnReset dt good vbat s
  | .porstNFall dt => Sys2Proof.Machine.execPorstNFall dt s
  | .resetRelease dt recoveryLow => Sys2Proof.Machine.execResetRelease dt recoveryLow s
  | .pwrDeviceReset dt value => Sys2Proof.Machine.execPwrDeviceReset dt value s
  | .romSlotSelect now => Sys2Proof.Machine.execRomSlotSelect now s
  | .firmwareStart now levels => Sys2Proof.Machine.execFirmwareStart now levels s
  | .registerWrite dt offset size value => Sys2Proof.Machine.execRegisterWrite dt offset size value s
  | .cfgCommit dt value env => Sys2Proof.Machine.execCfgCommit dt value env s
  | .hstCommit dt ring index payload host run => Sys2Proof.Machine.execHstCommit dt ring index payload host run s
  | .launchCommitApply dt host run => Sys2Proof.Machine.execLaunchCommitApply dt host run s
  | .launchEntryFire dt => Sys2Proof.Machine.execLaunchEntryFire dt s
  | .hstLaunchCancel dt ring index => Sys2Proof.Machine.execHstLaunchCancel dt ring index s
  | .hstNop dt ring index => Sys2Proof.Machine.execHstNop dt ring index s
  | .superframeBoundary dt => Sys2Proof.Machine.execSuperframeBoundary dt s
  | .slotStart dt port => Sys2Proof.Machine.execSlotStart dt port s
  | .slotEnd dt port => Sys2Proof.Machine.execSlotEnd dt port s
  | .secEpoch dt us => Sys2Proof.Machine.execSecEpoch dt us s
  | .stageMonSample dt ps => Sys2Proof.Machine.execStageMonSample dt ps s
  | .stageSlowFatal dt => Sys2Proof.Machine.execStageSlowFatal dt s
  | .dieLinkFail dt => Sys2Proof.Machine.execDieLinkFail dt s
  | .securityCoreFault dt => Sys2Proof.Machine.execSecurityCoreFault dt s
  | .pwrTempSample dt tj => Sys2Proof.Machine.execPwrTempSample dt tj s
  | .pfailFall now => Sys2Proof.Machine.execPfailFall now s
  | .pfailClear dt => Sys2Proof.Machine.execPfailClear dt s
  | .tbHostTime dt value => Sys2Proof.Machine.execTbHostTime dt value s
  | .ppsInEdge dt edge => Sys2Proof.Machine.execPpsInEdge dt edge s
  | .tbSourceQualify dt src => Sys2Proof.Machine.execTbSourceQualify dt src s
  | .tbSourceLost dt src => Sys2Proof.Machine.execTbSourceLost dt src s
  | .tbStepApply dt => Sys2Proof.Machine.execTbStepApply dt s
  | .ppsOutEdge dt => Sys2Proof.Machine.execPpsOutEdge dt s
  | .tbErrEstUpdate dt => Sys2Proof.Machine.execTbErrEstUpdate dt s
  | .tbStampPop dt => Sys2Proof.Machine.execTbStampPop dt s
  | .tbAlarmArm dt n value => Sys2Proof.Machine.execTbAlarmArm dt n value s
  | .tbAlarmFire dt n => Sys2Proof.Machine.execTbAlarmFire dt n s
  | .ptpMessageReceived dt port frame phase => Sys2Proof.Machine.execPtpMessageReceived dt port frame phase s
  | .ptpMessageSend dt port kind => Sys2Proof.Machine.execPtpMessageSend dt port kind s
  | .ptpAnnounceTimeout dt port => Sys2Proof.Machine.execPtpAnnounceTimeout dt port s
  | .fldTileLoad dt ring index payload => Sys2Proof.Machine.execFldTileLoad dt ring index payload s
  | .fldTileSave dt ring index => Sys2Proof.Machine.execFldTileSave dt ring index s
  | .fldTableWriteStaging dt ring index payload => Sys2Proof.Machine.execFldTableWriteStaging dt ring index payload s
  | .fldTableReadStaging dt ring index => Sys2Proof.Machine.execFldTableReadStaging dt ring index s
  | .fldTableReadActive dt ring index => Sys2Proof.Machine.execFldTableReadActive dt ring index s
  | .fldSyncApply dt ring index payload => Sys2Proof.Machine.execFldSyncApply dt ring index payload s
  | .fldSyncSend dt => Sys2Proof.Machine.execFldSyncSend dt s
  | .mapDeltaReceived dt port frame => Sys2Proof.Machine.execMapDeltaReceived dt port frame s
  | .fldCopyDone dt => Sys2Proof.Machine.execFldCopyDone dt s
  | .gnsCapture dt ring index => Sys2Proof.Machine.execGnsCapture dt ring index s
  | .gnsNavLoad dt ring index payload => Sys2Proof.Machine.execGnsNavLoad dt ring index payload s
  | .gnsNavSave dt ring index => Sys2Proof.Machine.execGnsNavSave dt ring index s
  | .gnsAcq dt ring index => Sys2Proof.Machine.execGnsAcq dt ring index s
  | .gnsAcqDone dt search => Sys2Proof.Machine.execGnsAcqDone dt search s
  | .gnsChanStart dt ring index => Sys2Proof.Machine.execGnsChanStart dt ring index s
  | .gnsChanRelease dt ring index => Sys2Proof.Machine.execGnsChanRelease dt ring index s
  | .gnsChanRetune dt ring index => Sys2Proof.Machine.execGnsChanRetune dt ring index s
  | .gnsLoopUpdate dt chan input => Sys2Proof.Machine.execGnsLoopUpdate dt chan input s
  | .gnsChanTracking dt chan => Sys2Proof.Machine.execGnsChanTracking dt chan s
  | .gnsChanLost dt chan => Sys2Proof.Machine.execGnsChanLost dt chan s
  | .gnsNosig dt antB gains => Sys2Proof.Machine.execGnsNosig dt antB gains s
  | .gnsMeasEpoch dt => Sys2Proof.Machine.execGnsMeasEpoch dt s
  | .gnsMeasReady dt input => Sys2Proof.Machine.execGnsMeasReady dt input s
  | .mirEscalate dt => Sys2Proof.Machine.execMirEscalate dt s
  | .mirLevelFall dt => Sys2Proof.Machine.execMirLevelFall dt s
  | .mirConditionClear dt check key => Sys2Proof.Machine.execMirConditionClear dt check key s
  | .mirClear dt value => Sys2Proof.Machine.execMirClear dt value s
  | .mirBaseReset dt value => Sys2Proof.Machine.execMirBaseReset dt value s
  | .mirPeakScan dt chan powers => Sys2Proof.Machine.execMirPeakScan dt chan powers s
  | .fixRtcmStale dt port => Sys2Proof.Machine.execFixRtcmStale dt port s
  | .fixRtcmGet dt ring index => Sys2Proof.Machine.execFixRtcmGet dt ring index s
  | .fabCorrectionReceived dt port frame => Sys2Proof.Machine.execFabCorrectionReceived dt port frame s
  | .fixRoverReset dt ring index => Sys2Proof.Machine.execFixRoverReset dt ring index s
  | .fixStrings dt ring index payload => Sys2Proof.Machine.execFixStrings dt ring index payload s
  | .uplinkReceived dt port time rssi frame => Sys2Proof.Machine.execUplinkReceived dt port time rssi frame s
  | .fixEpochDeadline dt machine => Sys2Proof.Machine.execFixEpochDeadline dt machine s
  | .fixSolveStart dt => Sys2Proof.Machine.execFixSolveStart dt s
  | .fixSolReady dt lane input => Sys2Proof.Machine.execFixSolReady dt lane input s
  | .joinReqReceived dt port time rssi frame => Sys2Proof.Machine.execJoinReqReceived dt port time rssi frame s
  | .nodePollReceived dt port time rssi frame => Sys2Proof.Machine.execNodePollReceived dt port time rssi frame s
  | .pendantStopReceived dt port time rssi frame => Sys2Proof.Machine.execPendantStopReceived dt port time rssi frame s
  | .hopNodeDlDiscard dt node => Sys2Proof.Machine.execHopNodeDlDiscard dt node s
  | .hopSend dt ring index payload => Sys2Proof.Machine.execHopSend dt ring index payload s
  | .hopRecv dt ring index => Sys2Proof.Machine.execHopRecv dt ring index s
  | .carRequestDecide dt us => Sys2Proof.Machine.execCarRequestDecide dt us s
  | .carHostTimeout dt => Sys2Proof.Machine.execCarHostTimeout dt s
  | .carExpiry dt => Sys2Proof.Machine.execCarExpiry dt s
  | .carTrackLoad dt ring index payload => Sys2Proof.Machine.execCarTrackLoad dt ring index payload s
  | .carTrackRead dt ring index => Sys2Proof.Machine.execCarTrackRead dt ring index s
  | .carTaskSet dt ring index payload => Sys2Proof.Machine.execCarTaskSet dt ring index payload s
  | .carReserve dt ring index payload => Sys2Proof.Machine.execCarReserve dt ring index payload s
  | .carReqGet dt ring index => Sys2Proof.Machine.execCarReqGet dt ring index s
  | .carRelease dt ring index => Sys2Proof.Machine.execCarRelease dt ring index s
  | .carResume dt ring index => Sys2Proof.Machine.execCarResume dt ring index s
  | .stopInEdge dt pinB stop => Sys2Proof.Machine.execStopInEdge dt pinB stop s
  | .stpPinFault dt => Sys2Proof.Machine.execStpPinFault dt s
  | .fabricStopReceived dt port frame => Sys2Proof.Machine.execFabricStopReceived dt port frame s
  | .fabStopRepeat dt => Sys2Proof.Machine.execFabStopRepeat dt s
  | .stpSelftestPulse dt outB => Sys2Proof.Machine.execStpSelftestPulse dt outB s
  | .stpOutMismatch dt outB => Sys2Proof.Machine.execStpOutMismatch dt outB s
  | .stpStop dt ring index => Sys2Proof.Machine.execStpStop dt ring index s
  | .stpArm dt ring index => Sys2Proof.Machine.execStpArm dt ring index s
  | .stpConfirm dt ring index => Sys2Proof.Machine.execStpConfirm dt ring index s
  | .stpArmExpired dt => Sys2Proof.Machine.execStpArmExpired dt s
  | .stpReEnable dt ring index => Sys2Proof.Machine.execStpReEnable dt ring index s
  | .doorbellRead dt block => Sys2Proof.Machine.execDoorbellRead dt block s
  | .descriptorTake dt ring bytes => Sys2Proof.Machine.execDescriptorTake dt ring bytes s
  | .ringEnable dt ring value => Sys2Proof.Machine.execRingEnable dt ring value s
  | .ringDisable dt ring value => Sys2Proof.Machine.execRingDisable dt ring value s
  | .ringDrained dt ring => Sys2Proof.Machine.execRingDrained dt ring s
  | .pcieDmaError dt phase kind ring index => Sys2Proof.Machine.execPcieDmaError dt phase kind ring index s
  | .hstFlr dt => Sys2Proof.Machine.execHstFlr dt s
  | .hstLinkDown dt => Sys2Proof.Machine.execHstLinkDown dt s
  | .hstIrqModTimeout dt ring => Sys2Proof.Machine.execHstIrqModTimeout dt ring s
  | .fabHelloSend dt => Sys2Proof.Machine.execFabHelloSend dt s
  | .helloReceived dt port frame => Sys2Proof.Machine.execHelloReceived dt port frame s
  | .fabLinkTimeout dt port => Sys2Proof.Machine.execFabLinkTimeout dt port s
  | .fabPcsLoss dt port hiBer => Sys2Proof.Machine.execFabPcsLoss dt port hiBer s
  | .fabModuleChange dt port present los => Sys2Proof.Machine.execFabModuleChange dt port present los s
  | .fabClaimRepeat dt => Sys2Proof.Machine.execFabClaimRepeat dt s
  | .fabClaimWaitExpired dt => Sys2Proof.Machine.execFabClaimWaitExpired dt s
  | .claimReceived dt port frame => Sys2Proof.Machine.execClaimReceived dt port frame s
  | .lsaReceived dt port frame => Sys2Proof.Machine.execLsaReceived dt port frame s
  | .fabLsaSend dt => Sys2Proof.Machine.execFabLsaSend dt s
  | .fabLsaExpire dt => Sys2Proof.Machine.execFabLsaExpire dt s
  | .fabSpfRun dt => Sys2Proof.Machine.execFabSpfRun dt s
  | .fabFrameReceived dt port frame => Sys2Proof.Machine.execFabFrameReceived dt port frame s
  | .machineMsgReceived dt port frame => Sys2Proof.Machine.execMachineMsgReceived dt port frame s
  | .fabHostFrameReceived dt port frame => Sys2Proof.Machine.execFabHostFrameReceived dt port frame s
  | .fabLearnFilterRetire dt => Sys2Proof.Machine.execFabLearnFilterRetire dt s
  | .fabAgeSweep dt => Sys2Proof.Machine.execFabAgeSweep dt s
  | .fabSend dt ring index payload => Sys2Proof.Machine.execFabSend dt ring index payload s
  | .fabRecv dt ring index => Sys2Proof.Machine.execFabRecv dt ring index s
  | .fabLearnInsert dt ring index => Sys2Proof.Machine.execFabLearnInsert dt ring index s
  | .fabLearnRemove dt ring index => Sys2Proof.Machine.execFabLearnRemove dt ring index s
  | .fabLearnLookup dt ring index => Sys2Proof.Machine.execFabLearnLookup dt ring index s
  | .fabLearnRead dt ring index => Sys2Proof.Machine.execFabLearnRead dt ring index s
  | .fabLearnEvent dt ring index => Sys2Proof.Machine.execFabLearnEvent dt ring index s
  | .fabModuleRead dt ring index data ack => Sys2Proof.Machine.execFabModuleRead dt ring index data ack s
  | .fabModuleWrite dt ring index payload acked => Sys2Proof.Machine.execFabModuleWrite dt ring index payload acked s
  | .dctlStart dt core thread entry arg sp => Sys2Proof.Machine.execDctlStart dt core thread entry arg sp s
  | .dctlSuspend dt core thread => Sys2Proof.Machine.execDctlSuspend dt core thread s
  | .dctlResume dt core thread => Sys2Proof.Machine.execDctlResume dt core thread s
  | .dctlKill dt core thread => Sys2Proof.Machine.execDctlKill dt core thread s
  | .dcfgWrite dt core thread value => Sys2Proof.Machine.execDcfgWrite dt core thread value s
  | .dcinv dt core => Sys2Proof.Machine.execDcinv dt core s
  | .dwany dt core rd mask => Sys2Proof.Machine.execDwany dt core rd mask s
  | .dwall dt core rd mask => Sys2Proof.Machine.execDwall dt core rd mask s
  | .dpost dt core value => Sys2Proof.Machine.execDpost dt core value s
  | .dyield dt core => Sys2Proof.Machine.execDyield dt core s
  | .dkick dt core value => Sys2Proof.Machine.execDkick dt core value s
  | .dclr dt core mask => Sys2Proof.Machine.execDclr dt core mask s
  | .disWatchdog dt k => Sys2Proof.Machine.execDisWatchdog dt k s
  | .disRouteWriteStaging dt ring index payload => Sys2Proof.Machine.execDisRouteWriteStaging dt ring index payload s
  | .disRouteReadStaging dt ring index => Sys2Proof.Machine.execDisRouteReadStaging dt ring index s
  | .disRouteReadActive dt ring index => Sys2Proof.Machine.execDisRouteReadActive dt ring index s
  | .memScrub dt work => Sys2Proof.Machine.execMemScrub dt work s
  | .memDramReady dt ok => Sys2Proof.Machine.execMemDramReady dt ok s
  | .keyCreateDerive dt ring index payload run => Sys2Proof.Machine.execKeyCreateDerive dt ring index payload run s
  | .keyCreateGenerate dt ring index run => Sys2Proof.Machine.execKeyCreateGenerate dt ring index run s
  | .keyCreateImport dt ring index payload run => Sys2Proof.Machine.execKeyCreateImport dt ring index payload run s
  | .keyDestroy dt ring index run => Sys2Proof.Machine.execKeyDestroy dt ring index run s
  | .keyInvalidate dt ring index run => Sys2Proof.Machine.execKeyInvalidate dt ring index run s
  | .keyInfo dt ring index => Sys2Proof.Machine.execKeyInfo dt ring index s
  | .keyCryptGcmEncrypt dt ring index payload => Sys2Proof.Machine.execKeyCryptGcmEncrypt dt ring index payload s
  | .keyCryptGcmDecrypt dt ring index payload => Sys2Proof.Machine.execKeyCryptGcmDecrypt dt ring index payload s
  | .keyCryptCcmEncrypt dt ring index payload => Sys2Proof.Machine.execKeyCryptCcmEncrypt dt ring index payload s
  | .keyCryptCcmDecrypt dt ring index payload => Sys2Proof.Machine.execKeyCryptCcmDecrypt dt ring index payload s
  | .keyCryptCmacGenerate dt ring index payload => Sys2Proof.Machine.execKeyCryptCmacGenerate dt ring index payload s
  | .keyCryptCmacVerify dt ring index payload => Sys2Proof.Machine.execKeyCryptCmacVerify dt ring index payload s
  | .keyCryptHmacGenerate dt ring index payload => Sys2Proof.Machine.execKeyCryptHmacGenerate dt ring index payload s
  | .keyCryptHmacVerify dt ring index payload => Sys2Proof.Machine.execKeyCryptHmacVerify dt ring index payload s
  | .keyJobStart dt => Sys2Proof.Machine.execKeyJobStart dt s
  | .keyJobDone dt engine => Sys2Proof.Machine.execKeyJobDone dt engine s
  | .keyWrapOut dt ring index => Sys2Proof.Machine.execKeyWrapOut dt ring index s
  | .keyAttest dt ring index payload run => Sys2Proof.Machine.execKeyAttest dt ring index payload run s
  | .keyEpochRoll dt ring index => Sys2Proof.Machine.execKeyEpochRoll dt ring index s
  | .keyRemask dt => Sys2Proof.Machine.execKeyRemask dt s
  | .tamperEvent now input levels => Sys2Proof.Machine.execTamperEvent now input levels s
  | .bootUpdateBegin dt ring index payload => Sys2Proof.Machine.execBootUpdateBegin dt ring index payload s
  | .bootUpdateWrite dt ring index payload => Sys2Proof.Machine.execBootUpdateWrite dt ring index payload s
  | .bootUpdateFinish dt ring index run => Sys2Proof.Machine.execBootUpdateFinish dt ring index run s
  | .bootConfirm dt ring index run => Sys2Proof.Machine.execBootConfirm dt ring index run s
  | .bootExtend now ring index payload => Sys2Proof.Machine.execBootExtend now ring index payload s
  | .bootPeerServe dt ring index => Sys2Proof.Machine.execBootPeerServe dt ring index s
  | .bootLogRead dt ring index => Sys2Proof.Machine.execBootLogRead dt ring index s
  | .nvmCfgGet dt ring index => Sys2Proof.Machine.execNvmCfgGet dt ring index s
  | .nvmUserWrite dt ring index payload run => Sys2Proof.Machine.execNvmUserWrite dt ring index payload run s
  | .nvmUserRead dt ring index => Sys2Proof.Machine.execNvmUserRead dt ring index s
  | .recoveryRequestSend dt => Sys2Proof.Machine.execRecoveryRequestSend dt s
  | .recoveryDataReceived now frame => Sys2Proof.Machine.execRecoveryDataReceived now frame s
  | .bootPeerRequest dt port frame => Sys2Proof.Machine.execBootPeerRequest dt port frame s
  | .crnRecordWrite dt => Sys2Proof.Machine.execCrnRecordWrite dt s
  | .crnFlush dt ring index => Sys2Proof.Machine.execCrnFlush dt ring index s
  | .crnFlushAuto dt => Sys2Proof.Machine.execCrnFlushAuto dt s
  | .crnFlushDone now => Sys2Proof.Machine.execCrnFlushDone now s
  | .crnRead dt ring index => Sys2Proof.Machine.execCrnRead dt ring index s
  | .crnClassWriteStaging dt ring index payload => Sys2Proof.Machine.execCrnClassWriteStaging dt ring index payload s
  | .crnClassReadStaging dt ring index => Sys2Proof.Machine.execCrnClassReadStaging dt ring index s
  | .crnClassReadActive dt ring index => Sys2Proof.Machine.execCrnClassReadActive dt ring index s
  | .crnErase dt ring index => Sys2Proof.Machine.execCrnErase dt ring index s
  | .fabEgressDequeue dt port => Sys2Proof.Machine.execFabEgressDequeue dt port s
  | .fabBlockLock dt port => Sys2Proof.Machine.execFabBlockLock dt port s
  | .pcieLinkUp now speed width => Sys2Proof.Machine.execPcieLinkUp now speed width s
  | .gnsNosigClear dt antB gains => Sys2Proof.Machine.execGnsNosigClear dt antB gains s
  | .ppsOutPulseEnd dt => Sys2Proof.Machine.execPpsOutPulseEnd dt s
  | .stpSelftestPulseEnd dt outB readBack => Sys2Proof.Machine.execStpSelftestPulseEnd dt outB readBack s
  | .gnsCaptureDone dt ring index inPhase quadrature => Sys2Proof.Machine.execGnsCaptureDone dt ring index inPhase quadrature s
  | .backupSupplySwitch dt supply levels => Sys2Proof.Machine.execBackupSupplySwitch dt supply levels s

end Sys2Proof.Machine
end

