-- ==== Sys2Proof/Machine/Riscv.lean ====
section
/-! DEFINITION. The published instruction set of the application cores, RV32IMAC with Zicsr and Zifencei (R427; its standard, log entry
60): the instructions, their encodings of 16 and of 32 bits, and what the arithmetic ones compute. -/

namespace Sys2Proof.Machine

/-- Register-register operations of RV32I and RV32M. -/
inductive Alu where
  | add | sub | sll | slt | sltu | xor | srl | sra | or | and
  | mul | mulh | mulhsu | mulhu | div | divu | rem | remu
deriving DecidableEq, Repr

/-- Conditions of the branches. -/
inductive BranchCond where
  | eq | ne | lt | ge | ltu | geu
deriving DecidableEq, Repr

/-- Atomic memory operations. -/
inductive Amo where
  | swap | add | xor | and | or | min | max | minu | maxu
deriving DecidableEq, Repr

/-- How a CSR instruction writes: the value, the bits to set, or the bits to clear. -/
inductive CsrMode where
  | write | set | clear
deriving DecidableEq, Repr

/-- An instruction of a core. A `load` and a `store` move `size` bytes; the source of a `csr` is a register, or a number of 5 bits. -/
inductive Rv where
  | lui (rd : Nat) (imm : Word)
  | auipc (rd : Nat) (imm : Word)
  | jal (rd : Nat) (imm : Word)
  | jalr (rd rs1 : Nat) (imm : Word)
  | branch (cond : BranchCond) (rs1 rs2 : Nat) (imm : Word)
  | load (size : Nat) (signed : Bool) (rd rs1 : Nat) (imm : Word)
  | store (size rs1 rs2 : Nat) (imm : Word)
  | opImm (op : Alu) (rd rs1 : Nat) (imm : Word)
  | op (op : Alu) (rd rs1 rs2 : Nat)
  | fence
  | fenceI
  | ecall
  | ebreak
  | mret
  | wfi
  | csr (mode : CsrMode) (rd : Nat) (src : Nat ⊕ Nat) (num : Nat)
  | lr (rd rs1 : Nat)
  | sc (rd rs1 rs2 : Nat)
  | amo (op : Amo) (rd rs1 rs2 : Nat)
deriving DecidableEq, Repr

/-! ### Fields of an encoding -/

/-- A number of `w` bits, sign-extended. -/
def sext (w v : Nat) : Word := BitVec.ofInt 32 (signed w v)

/-- Bits of `v` moved one by one: from each position of the list, the highest of the result first. -/
def moveBits (v : Nat) (l : List Nat) : Nat := l.foldl (fun a i => 2 * a + b2n (bit v i)) 0

def immI (w : Nat) : Word := sext 12 (bits w 20 12)
def immS (w : Nat) : Word := sext 12 (bits w 25 7 * 32 + bits w 7 5)
def immB (w : Nat) : Word := sext 13 (moveBits w [31, 7, 30, 29, 28, 27, 26, 25, 11, 10, 9, 8] * 2)
def immU (w : Nat) : Word := BitVec.ofNat 32 (bits w 12 20 * 4096)
def immJ (w : Nat) : Word :=
  sext 21 (moveBits w [31, 19, 18, 17, 16, 15, 14, 13, 12, 20, 30, 29, 28, 27, 26, 25, 24, 23, 22, 21] * 2)

/-! ### 32-bit encodings -/

def condOf (f : Nat) : Option BranchCond :=
  match f with
  | 0 => some .eq
  | 1 => some .ne
  | 4 => some .lt
  | 5 => some .ge
  | 6 => some .ltu
  | 7 => some .geu
  | _ => none

/-- Size and sign of a load. -/
def loadOf (f : Nat) : Option (Nat × Bool) :=
  match f with
  | 0 => some (1, true)
  | 1 => some (2, true)
  | 2 => some (4, true)
  | 4 => some (1, false)
  | 5 => some (2, false)
  | _ => none

def storeOf (f : Nat) : Option Nat :=
  match f with
  | 0 => some 1
  | 1 => some 2
  | 2 => some 4
  | _ => none

/-- The operation of funct7 and funct3. -/
def aluOf (f7 f3 : Nat) : Option Alu :=
  match f7, f3 with
  | 0, 0 => some .add
  | 0, 1 => some .sll
  | 0, 2 => some .slt
  | 0, 3 => some .sltu
  | 0, 4 => some .xor
  | 0, 5 => some .srl
  | 0, 6 => some .or
  | 0, 7 => some .and
  | 32, 0 => some .sub
  | 32, 5 => some .sra
  | 1, 0 => some .mul
  | 1, 1 => some .mulh
  | 1, 2 => some .mulhsu
  | 1, 3 => some .mulhu
  | 1, 4 => some .div
  | 1, 5 => some .divu
  | 1, 6 => some .rem
  | 1, 7 => some .remu
  | _, _ => none

/-- An operation with an immediate: the shifts have theirs in 5 bits, beside funct7. -/
def decodeOpImm (w rd rs1 : Nat) : Option Rv :=
  let f3 := bits w 12 3
  if f3 = 1 ∨ f3 = 5 then
    if bits w 25 7 = 0 ∨ (f3 = 5 ∧ bits w 25 7 = 32) then
      (aluOf (bits w 25 7) f3).map fun o => .opImm o rd rs1 (BitVec.ofNat 32 (bits w 20 5))
    else none
  else (aluOf 0 f3).map fun o => .opImm o rd rs1 (immI w)

def amoOf (f5 : Nat) : Option Amo :=
  match f5 with
  | 0 => some .add
  | 1 => some .swap
  | 4 => some .xor
  | 8 => some .or
  | 12 => some .and
  | 16 => some .min
  | 20 => some .max
  | 24 => some .minu
  | 28 => some .maxu
  | _ => none

def decodeAmo (w rd rs1 rs2 : Nat) : Option Rv :=
  if bits w 12 3 ≠ 2 then none
  else match bits w 27 5 with
    | 2 => if rs2 = 0 then some (.lr rd rs1) else none
    | 3 => some (.sc rd rs1 rs2)
    | f => (amoOf f).map fun o => .amo o rd rs1 rs2

def decodeSystem (w rd rs1 : Nat) : Option Rv :=
  let csr := fun (m : CsrMode) (src : Nat ⊕ Nat) => some (Rv.csr m rd src (bits w 20 12))
  match bits w 12 3 with
  | 0 =>
    if w = 0x00000073 then some .ecall
    else if w = 0x00100073 then some .ebreak
    else if w = 0x30200073 then some .mret
    else if w = 0x10500073 then some .wfi
    else none
  | 1 => csr .write (.inl rs1)
  | 2 => csr .set (.inl rs1)
  | 3 => csr .clear (.inl rs1)
  | 5 => csr .write (.inr rs1)
  | 6 => csr .set (.inr rs1)
  | 7 => csr .clear (.inr rs1)
  | _ => none

/-- The instruction of a 32-bit word; none where it is illegal. -/
def decode32 (w : Nat) : Option Rv :=
  let rd := bits w 7 5
  let rs1 := bits w 15 5
  let rs2 := bits w 20 5
  let f3 := bits w 12 3
  match bits w 0 7 with
  | 0x37 => some (.lui rd (immU w))
  | 0x17 => some (.auipc rd (immU w))
  | 0x6F => some (.jal rd (immJ w))
  | 0x67 => if f3 = 0 then some (.jalr rd rs1 (immI w)) else none
  | 0x63 => (condOf f3).map fun c => .branch c rs1 rs2 (immB w)
  | 0x03 => (loadOf f3).map fun l => .load l.1 l.2 rd rs1 (immI w)
  | 0x23 => (storeOf f3).map fun n => .store n rs1 rs2 (immS w)
  | 0x13 => decodeOpImm w rd rs1
  | 0x33 => (aluOf (bits w 25 7) f3).map fun o => .op o rd rs1 rs2
  | 0x0F => if f3 = 0 then some .fence else if f3 = 1 then some .fenceI else none
  | 0x2F => decodeAmo w rd rs1 rs2
  | 0x73 => decodeSystem w rd rs1
  | _ => none

/-! ### 16-bit encodings -/

/-- A register of a field of 3 bits. -/
def creg (h lo : Nat) : Nat := 8 + bits h lo 3

/-- Quadrant 0. -/
def decodeC0 (h : Nat) : Option Rv :=
  match bits h 13 3 with
  | 0 =>
    let n := moveBits h [10, 9, 8, 7, 12, 11, 5, 6] * 4
    if n = 0 then none else some (.opImm .add (creg h 2) 2 (BitVec.ofNat 32 n))
  | 2 => some (.load 4 true (creg h 2) (creg h 7) (BitVec.ofNat 32 (moveBits h [5, 12, 11, 10, 6] * 4)))
  | 6 => some (.store 4 (creg h 7) (creg h 2) (BitVec.ofNat 32 (moveBits h [5, 12, 11, 10, 6] * 4)))
  | _ => none

/-- The immediate of 6 bits of quadrant 1. -/
def immC (h : Nat) : Word := sext 6 (moveBits h [12, 6, 5, 4, 3, 2])

/-- The operations of funct3 100 of quadrant 1. -/
def decodeC1Alu (h : Nat) : Option Rv :=
  let r := creg h 7
  let shift := fun (o : Alu) => if bit h 12 then none else some (Rv.opImm o r r (BitVec.ofNat 32 (bits h 2 5)))
  match bits h 10 2 with
  | 0 => shift .srl
  | 1 => shift .sra
  | 2 => some (.opImm .and r r (immC h))
  | _ =>
    if bit h 12 then none
    else some (.op ([Alu.sub, .xor, .or, .and].getD (bits h 5 2) .sub) r r (creg h 2))

/-- Quadrant 1. -/
def decodeC1 (h : Nat) : Option Rv :=
  let rd := bits h 7 5
  let off := sext 12 (moveBits h [12, 8, 10, 9, 6, 7, 2, 11, 5, 4, 3] * 2)
  let br := sext 9 (moveBits h [12, 6, 5, 2, 11, 10, 4, 3] * 2)
  match bits h 13 3 with
  | 0 => some (.opImm .add rd rd (immC h))
  | 1 => some (.jal 1 off)
  | 2 => some (.opImm .add rd 0 (immC h))
  | 3 =>
    if immC h = 0 then none
    else if rd = 2 then some (.opImm .add 2 2 (sext 10 (moveBits h [12, 4, 3, 5, 2, 6] * 16)))
    else some (.lui rd (immC h <<< 12))
  | 4 => decodeC1Alu h
  | 5 => some (.jal 0 off)
  | 6 => some (.branch .eq (creg h 7) 0 br)
  | _ => some (.branch .ne (creg h 7) 0 br)

/-- Quadrant 2. -/
def decodeC2 (h : Nat) : Option Rv :=
  let rd := bits h 7 5
  let rs2 := bits h 2 5
  match bits h 13 3 with
  | 0 => if bit h 12 then none else some (.opImm .sll rd rd (BitVec.ofNat 32 rs2))
  | 2 => if rd = 0 then none else some (.load 4 true rd 2 (BitVec.ofNat 32 (moveBits h [3, 2, 12, 6, 5, 4] * 4)))
  | 4 =>
    if rs2 ≠ 0 then some (.op .add rd (if bit h 12 then rd else 0) rs2)
    else if rd ≠ 0 then some (.jalr (b2n (bit h 12)) rd 0)
    else if bit h 12 then some .ebreak
    else none
  | 6 => some (.store 4 2 rs2 (BitVec.ofNat 32 (moveBits h [8, 7, 12, 11, 10, 9] * 4)))
  | _ => none

/-- The instruction of a 16-bit half; none where it is illegal. -/
def decode16 (h : Nat) : Option Rv :=
  match bits h 0 2 with
  | 0 => decodeC0 h
  | 1 => decodeC1 h
  | _ => decodeC2 h

/-! ### Arithmetic -/

def b2w (b : Bool) : Word := if b then 1 else 0

/-- The high word of an exact product. -/
def highWord (p : Int) : Word := BitVec.ofInt 32 (p / 2 ^ 32)

/-- What an operation computes: a division by zero has all bits set for its quotient and the dividend for its remainder. -/
def Alu.run (o : Alu) (a b : Word) : Word :=
  let sh := b.toNat % 32
  match o with
  | .add => a + b
  | .sub => a - b
  | .sll => a <<< sh
  | .slt => b2w (a.toInt < b.toInt)
  | .sltu => b2w (a.toNat < b.toNat)
  | .xor => a ^^^ b
  | .srl => a >>> sh
  | .sra => a.sshiftRight sh
  | .or => a ||| b
  | .and => a &&& b
  | .mul => a * b
  | .mulh => highWord (a.toInt * b.toInt)
  | .mulhsu => highWord (a.toInt * b.toNat)
  | .mulhu => highWord ((a.toNat : Int) * b.toNat)
  | .div => if b = 0 then BitVec.allOnes 32 else a.sdiv b
  | .divu => if b = 0 then BitVec.allOnes 32 else a / b
  | .rem => if b = 0 then a else a.srem b
  | .remu => if b = 0 then a else a % b

def BranchCond.holds (c : BranchCond) (a b : Word) : Bool :=
  match c with
  | .eq => a = b
  | .ne => a ≠ b
  | .lt => a.toInt < b.toInt
  | .ge => b.toInt ≤ a.toInt
  | .ltu => a.toNat < b.toNat
  | .geu => b.toNat ≤ a.toNat

/-- What an atomic operation stores, of the word that it found and its operand. -/
def Amo.run (o : Amo) (m v : Word) : Word :=
  match o with
  | .swap => v
  | .add => m + v
  | .xor => m ^^^ v
  | .and => m &&& v
  | .or => m ||| v
  | .min => if m.toInt < v.toInt then m else v
  | .max => if m.toInt < v.toInt then v else m
  | .minu => if m.toNat < v.toNat then m else v
  | .maxu => if m.toNat < v.toNat then v else m

/-- The value that a CSR instruction writes, of the old one and its operand. -/
def CsrMode.run (m : CsrMode) (old v : Word) : Word :=
  match m with
  | .write => v
  | .set => old ||| v
  | .clear => old &&& ~~~v

end Sys2Proof.Machine
end

