-- ==== Sys2Proof/Machine/Cores.lean ====
section
/-! DEFINITION. The application cores: their memory, protection and caches, and the instructions that their threads run (R427 to
R436, R448; the standard's parts, log entry 60). -/

namespace Sys2Proof.Machine

/-! ### Accesses (R427, R428, R448) -/

/-- Kinds of access. `reserve` is that of LR, `atomic` that of SC and of an AMO. -/
inductive Access where
  | fetch | load | store | reserve | atomic
deriving DecidableEq, Repr

/-- mcause of an access fault. -/
def Access.fault : Access → Word
  | .fetch => 1
  | .load => 5
  | .store => 7
  | .reserve => 7
  | .atomic => 7

/-- mcause of a misaligned access. -/
def Access.misaligned : Access → Word
  | .fetch => 0
  | .load => 4
  | .store => 6
  | .reserve => 4
  | .atomic => 6

/-- LR, SC and AMO instructions. -/
def Access.isAtomic : Access → Bool
  | .reserve => true
  | .atomic => true
  | _ => false

/-- Permissions that an access needs, as bits of a PMP entry. -/
def Access.needs : Access → Nat
  | .fetch => 4
  | .load => 1
  | .store => 2
  | .reserve => 1
  | .atomic => 3

/-- Entry `k` of a core's PMP. -/
def State.pmpEntry (s : State) (core k : Nat) : Nat := (tget s.dis.pmpcfg 0 (16 * core + k)).toNat
def State.pmpAt (s : State) (core k : Nat) : Nat := (tget s.dis.pmpaddr 0 (16 * core + k)).toNat

/-- The addresses from and below which entry `k` applies: none (A = 0), top of range, four bytes, or a power of two. -/
def State.pmpRange (s : State) (core k : Nat) : Nat × Nat :=
  let p := s.pmpAt core k
  match bits (s.pmpEntry core k) 3 2 with
  | 0 => (0, 0)
  | 1 => (if k = 0 then 0 else 4 * s.pmpAt core (k - 1), 4 * p)
  | 2 => (4 * p, 4 * p + 4)
  | _ =>
    let ones := ((List.range 33).find? fun j => !bit p j).getD 32
    let size := 2 ^ (ones + 3)
    (4 * p / size * size, 4 * p / size * size + size)

/-- An access is in user mode: a thread's own mode, or for data what MPRV names. -/
def Thread.userAccess (th : Thread) (k : Access) : Bool :=
  if k ≠ .fetch && !th.user && th.mstatus.getLsbD 17 then bits th.mstatus.toNat 11 2 ≠ 3 else th.user

/-- The PMP lets an access of `n` bytes through: the lowest entry that any byte of it meets decides, and must hold all of it; in
machine mode only locked entries bind, and what no entry meets is open to machine mode alone. -/
def State.pmpAllows (s : State) (core t : Nat) (k : Access) (a n : Nat) : Bool :=
  let user := (s.thread t).userAccess k
  match (List.range 16).find? fun e => (s.pmpRange core e).1 < a + n && a < (s.pmpRange core e).2 with
  | none => !user
  | some e =>
    let cfg := s.pmpEntry core e
    decide ((s.pmpRange core e).1 ≤ a) && decide (a + n ≤ (s.pmpRange core e).2) && ((!user && !bit cfg 7) || cfg &&& k.needs = k.needs)

/-- A target of scratchpad or dual-port memory, where LR, SC and AMO instructions work. -/
def CoreTarget.onChip : CoreTarget → Bool
  | .bank _ => true
  | .dualPort _ => true
  | _ => false

/-- A target as MEM_ECC_ADDR gives it; a register has none. -/
def CoreTarget.eccAddr : CoreTarget → Option Nat
  | .bank o => some (72 * 262144 + o)
  | .dualPort o => some (2 ^ 60 + o)
  | .dram a => some (2 * 2 ^ 60 + a)
  | .register _ => none

/-- The word with an uncorrectable error that an access of `n` bytes meets (R448). -/
def State.badWord (s : State) (g : CoreTarget) (n : Nat) : Option Nat :=
  g.eccAddr.bind fun a => (s.mem.badWords ++ s.mem.bad.map fun w => 2 * 2 ^ 60 + w).find? fun w => a < w + 8 && w < a + n

/-- An access to the DRAM window that training has closed for good fails as an uncorrectable error (R450). -/
def State.closedDram (s : State) (core a : Nat) : State :=
  if s.mem.trainFail && 0x40000000 ≤ a && a < 0x80000000 then
    s.eccFailed (2 * 2 ^ 60 + 2 ^ 28 * s.reg F.MEM_WIN_BASE core + (a - 0x40000000))
  else s

/-- An access of `n` bytes by a thread on a core: where it goes, or the cause of its trap. An access whose word holds an uncorrectable
error counts it and faults (R448). -/
def State.access (s : State) (core t : Nat) (k : Access) (a n : Nat) : State × Except Word CoreTarget :=
  if a % n ≠ 0 && (k.isAtomic || Config.misalignedTraps) then (s, .error k.misaligned)
  else if !s.pmpAllows core t k a n then (s, .error k.fault)
  else match s.coreTarget core a, s.coreTarget core (a + n - 1) with
    | some g, some _ =>
      if k.isAtomic && !g.onChip then (s, .error k.fault)
      else match s.badWord g n with
        | some w => (s.eccFailed w, .error k.fault)
        | none => (s, .ok g)
    | _, _ => (s.closedDram core a, .error k.fault)

/-! ### Caches of DRAM (R427) -/

/-- Bytes of DRAM read through a cache: a byte that the cache holds may be older than what DRAM holds, and which of the two a read finds is
free (log entry 60). -/
def State.throughCache (s : State) (held : List (Nat × Byte)) (a n : Nat) : List Byte :=
  let mem := s.dramRead a n
  if (Config.freeBits 28 s.free 1) = 1 then
    (List.range n).map fun i => match held.find? fun e => e.1 = a + i with
      | some e => e.2
      | none => mem.getD i 0
  else mem

/-- A cache holds bytes anew: at most 16 KiB. -/
def holdBytes (held : List (Nat × Byte)) (a : Nat) (b : List Byte) : List (Nat × Byte) :=
  ((b.zipIdx.map fun (p : Byte × Nat) => (a + p.2, p.1)) ++ held.filter fun e => e.1 < a || a + b.length ≤ e.1).take 16384

/-- Bytes read at a target: a fetch through the instruction cache, a load through the data cache, a register as BAR0 reads it. -/
def State.readTarget (s : State) (core : Nat) (g : CoreTarget) (n : Nat) (fetch : Bool) : State × List Byte :=
  match g with
  | .bank o => (s, readMem s.mem.banks memFill o n)
  | .dualPort o => (s, readMem s.mem.dual memFill o n)
  | .register o =>
    let (v, s) := s.busRead o n
    (s, leBytes n v)
  | .dram a =>
    if fetch then
      let b := s.throughCache (tget s.dis.icache [] core) a n
      (({ s with dis := { s.dis with icache := tmod s.dis.icache [] core fun c => holdBytes c a b } }).draw, b)
    else
      let b := s.throughCache (tget s.dis.dcache [] core) a n
      (({ s with dis := { s.dis with dcache := tmod s.dis.dcache [] core fun c => holdBytes c a b } }).draw, b)

/-! ### Stores -/

/-- A part of the staging images replaced. -/
def Conf.putPart (c : Conf) (k : Nat) (t : Tbl (List Byte)) : Conf :=
  match k with
  | 0 => { c with machines := t }
  | 1 => { c with rates := t }
  | _ => { c with sections := t }

/-- A byte that a core stores in DRAM: in the staging images it is one of a staged table (R115, log entry 74). -/
def State.dramByteStore (s : State) (a : Nat) (b : Byte) : State :=
  match s.imageBase with
  | none => s.dramPut a [b]
  | some base =>
    match (if base ≤ a then imageSpot (a - base) else none) with
    | none => s.dramPut a [b]
    | some (k, e, o) =>
      let w := (imageParts.getD k (0, 0, 1)).2.2
      let t := s.cfg.staged.part k
      let entry := (padTo w (tget t [] e)).set o b
      let t := tset t [] e (if entry.all (· = 0) then [] else entry)
      { s with cfg := { s.cfg with staged := s.cfg.staged.putPart k t } }

/-- The command that a 32-bit store to the register view makes: the one of its own that the register has, or a REGISTER_WRITE. -/
def State.viewCommand (s : State) (off v : Nat) : Instr :=
  let w := BitVec.ofNat 32 v
  if off = 0x1004 then .cfgCommit 0 w (Config.coreCommit s.free)
  else if off = 0x2054 then .tbHostTime 0 w
  else if off = 0x5074 then .mirClear 0 w
  else if off = 0x15014 then .pwrDeviceReset 0 w
  else match arrayIdx off 0x2104 16 32, arrayIdx off 0xD110 32 64 with
    | some n, _ => .tbAlarmArm 0 n w
    | none, some n => if w.getLsbD 0 then .ringEnable 0 n w else .ringDisable 0 n w
    | none, none => .registerWrite 0 off 4 v

/-- A store to the register view behaves as the same BAR0 write (R33, R428); another size or alignment is dropped. -/
def State.viewStore (s : State) (off n v : Nat) : State :=
  if n ≠ 4 || off % 4 ≠ 0 then s
  else match exec (s.viewCommand off v) s.draw with
    | .next s' => s'
    | _ => s

/-- Bytes stored at a target that the access has reached. -/
def State.writeTarget (s : State) (core a : Nat) (g : CoreTarget) (b : List Byte) : State :=
  match g with
  | .bank o => ({ s with mem := { s.mem with banks := writeMem s.mem.banks memFill o b } }).breakResv (some core) a
  | .dualPort o => ({ s with mem := { s.mem with dual := writeMem s.mem.dual memFill o b } }).breakResv (some core) a
  | .register o => s.viewStore o b.length (leNat b)
  | .dram d =>
    let s := b.zipIdx.foldl (fun s (p : Byte × Nat) => s.dramByteStore (d + p.2) p.1) s
    { s with dis := { s.dis with dcache := tmod s.dis.dcache [] core fun c => holdBytes c d b } }

/-! ### Instructions -/

/-- A register of the running thread. -/
def State.rx (s : State) (t r : Nat) : Word := tget (s.thread t).x 0 r

/-- An instruction of `len` bytes retires with a result. -/
def State.done (s : State) (t len rd : Nat) (v : Word) : State :=
  s.modThread t fun th => { th.put rd v with pc := th.pc + BitVec.ofNat 32 len }

/-- It retires with a jump, and a link in `rd`. -/
def State.jump (s : State) (t len rd : Nat) (target : Word) : State :=
  s.modThread t fun th => { th.put rd (th.pc + BitVec.ofNat 32 len) with pc := target }

/-- A load. -/
def State.coreLoad (s : State) (core t len size rd a : Nat) (isSigned : Bool) : State :=
  match s.access core t .load a size with
  | (s, .error c) => s.trap core t c
  | (s, .ok g) =>
    let (s, b) := s.readTarget core g size false
    s.done t len rd (if isSigned then sext (8 * size) (leNat b) else BitVec.ofNat 32 (leNat b))

/-- A store: the instruction has retired before what a register write brings about. -/
def State.coreStore (s : State) (core t len size a : Nat) (v : Word) : State :=
  match s.access core t .store a size with
  | (s, .error c) => s.trap core t c
  | (s, .ok g) => (s.done t len 0 0).writeTarget core a g (leBytes size v.toNat)

/-- LR.W: the word is reserved. -/
def State.coreLr (s : State) (core t len rd a : Nat) : State :=
  match s.access core t .reserve a 4 with
  | (s, .error c) => s.trap core t c
  | (s, .ok g) =>
    let (s, b) := s.readTarget core g 4 false
    ({ s with dis := { s.dis with resv := tput s.dis.resv core a } }).done t len rd (BitVec.ofNat 32 (leNat b))

/-- SC.W stores under a reservation of the word; the standard lets it fail without a reason, so with a reservation it is free whether it
does (log entry 60). -/
def State.coreSc (s : State) (core t len rd a : Nat) (v : Word) : State :=
  match s.access core t .atomic a 4 with
  | (s, .error c) => s.trap core t c
  | (s, .ok g) =>
    let holds := tfind s.dis.resv core = some a && Config.freeBits 29 s.free 1 = 1
    let s := ({ s with dis := { s.dis with resv := terase s.dis.resv core } }).draw
    if holds then (s.done t len rd 0).writeTarget core a g (leBytes 4 v.toNat) else s.done t len rd 1

/-- An AMO: `rd` takes what memory held. -/
def State.coreAmo (s : State) (core t len rd a : Nat) (op : Amo) (v : Word) : State :=
  match s.access core t .atomic a 4 with
  | (s, .error c) => s.trap core t c
  | (s, .ok g) =>
    let (s, b) := s.readTarget core g 4 false
    let old := BitVec.ofNat 32 (leNat b)
    (s.done t len rd old).writeTarget core a g (leBytes 4 (op.run old v).toNat)

/-! ### CSRs -/

/-- The CSRs of the standard that read as zero and ignore writes: mie, mcounteren, menvcfg and its high half, mstatush, mcountinhibit,
the event selectors, mip, and the counters of unassigned events. -/
def zeroCsr (num : Nat) : Bool :=
  [0x304, 0x306, 0x30A, 0x310, 0x31A, 0x320, 0x344].contains num || (0x323 ≤ num && num ≤ 0x33F) || (0xB03 ≤ num && num ≤ 0xB1F) ||
    (0xB83 ≤ num && num ≤ 0xB9F)

/-- The CSRs of the standard whose value is open: the identities, and the cycle and instruction counters. -/
def openCsr (num : Nat) : Bool := [0xF11, 0xF12, 0xF13, 0xF15, 0xB00, 0xB02, 0xB80, 0xB82].contains num

/-- What the standard's CSRs read; none: there is no such CSR. -/
def State.stdCsr (s : State) (core t num : Nat) : Option Word :=
  let th := s.thread t
  if zeroCsr num then some 0
  else if openCsr num then some (Config.freeBits 30 s.free 32)
  else if 0x3A0 ≤ num && num ≤ 0x3A3 then
    some (BitVec.ofNat 32 (leNat ((List.range 4).map fun j => tget s.dis.pmpcfg 0 (16 * core + 4 * (num - 0x3A0) + j))))
  else if 0x3B0 ≤ num && num ≤ 0x3BF then some (tget s.dis.pmpaddr 0 (16 * core + (num - 0x3B0)))
  else match num with
    | 0x300 => some th.mstatus
    | 0x301 => some 0x40101105
    | 0x305 => some (tget s.dis.mtvec 0 core)
    | 0x340 => some th.mscratch
    | 0x341 => some th.mepc
    | 0x342 => some th.mcause
    | 0x343 => some th.mtval
    | 0xF14 => some (BitVec.ofNat 32 core)
    | _ => none

/-- A custom CSR of R429. -/
def customCsr (num : Nat) : Bool := (0x7C0 ≤ num && num ≤ 0x7C6) || (0x800 ≤ num && num ≤ 0x805) || num = 0xCC0 || num = 0xCC1

/-- What a CSR reads; a custom one that R429 gives no value to read is free. None: there is no such CSR. -/
def State.csrValue (s : State) (core t num : Nat) : Option Word :=
  if customCsr num then
    some ((s.csrRead core t (tget s.dis.dsel 0 core) num).getD (Config.freeBits 31 s.free 32))
  else s.stdCsr core t num

/-- mstatus as it holds a value written: MIE, MPIE, MPP, MPRV and TW; an MPP other than machine mode is user mode. -/
def mstatusOf (v : Word) : Word := (v &&& 0x220088) ||| (if bits v.toNat 11 2 = 3 then 0x1800 else 0)

/-- A PMP entry takes a byte: a locked one stands, and the reserved bits and the reserved W without R are not taken. -/
def pmpByte (old new : Byte) : Byte :=
  if old.getLsbD 7 then old
  else
    let v := new &&& 0x9F
    if v.getLsbD 1 && !v.getLsbD 0 then v &&& ~~~(2 : Byte) else v

/-- An address register of the PMP is locked with its entry, or with the next one where that reaches from it. -/
def State.pmpAddrLocked (s : State) (core k : Nat) : Bool :=
  bit (s.pmpEntry core k) 7 || (k < 15 && bit (s.pmpEntry core (k + 1)) 7 && bits (s.pmpEntry core (k + 1)) 3 2 = 1)

/-- A write to a CSR of the standard. -/
def State.stdWrite (s : State) (core t num : Nat) (v : Word) : State :=
  if 0x3A0 ≤ num && num ≤ 0x3A3 then
    { s with dis := { s.dis with pmpcfg := (List.range 4).foldl (fun m j =>
      tmod m 0 (16 * core + 4 * (num - 0x3A0) + j) fun old => pmpByte old (BitVec.ofNat 8 (bits v.toNat (8 * j) 8))) s.dis.pmpcfg } }
  else if 0x3B0 ≤ num && num ≤ 0x3BF then
    if s.pmpAddrLocked core (num - 0x3B0) then s
    else { s with dis := { s.dis with pmpaddr := tset s.dis.pmpaddr 0 (16 * core + (num - 0x3B0)) v } }
  else match num with
    | 0x300 => s.modThread t fun th => { th with mstatus := mstatusOf v }
    | 0x305 => { s with dis := { s.dis with mtvec := tset s.dis.mtvec 0 core (v &&& ~~~(2 : Word)) } }
    | 0x340 => s.modThread t fun th => { th with mscratch := v }
    | 0x341 => s.modThread t fun th => { th with mepc := v &&& ~~~(1 : Word) }
    | 0x342 => s.modThread t fun th => { th with mcause := v }
    | 0x343 => s.modThread t fun th => { th with mtval := v }
    | _ => s

/-- dctl: START, SUSPEND, RESUME or KILL of the selected thread; R433 names no other command. -/
def State.dctlWrite (s : State) (sel v : Nat) : State :=
  match v with
  | 1 => s.startThread sel
  | 2 => s.suspendThread sel
  | 3 => s.resumeThread sel
  | 4 => s.killThread sel
  | _ => s

/-- A write to a custom CSR, the instruction having retired (R429); dwany and dwall are not among them. -/
def State.customWrite (s : State) (core t num : Nat) (v : Word) : State :=
  let sel := tget s.dis.dsel 0 core
  match num with
  | 0x7C0 => s.select core v.toNat
  | 0x7C1 => s.dcfgWrite sel v
  | 0x7C2 => s.modThread sel fun th => { th with entry := v }
  | 0x7C3 => s.modThread sel fun th => { th with arg := v }
  | 0x7C4 => s.modThread sel fun th => { th with sp := v }
  | 0x7C5 => s.dctlWrite sel v.toNat
  | 0x7C6 => s.dcacheInv core
  | 0x802 => s.softPost t v
  | 0x803 => s.yieldThread core t
  | 0x804 => s.kick t v.toNat
  | 0x805 => s.clearFlags t v
  | _ => s

/-- A CSR instruction. It is illegal where there is no such CSR, where user mode may not use it, and where it writes a read-only one;
csrrs and csrrc with x0, or with the number 0, write nothing. A write to dwany or dwall waits (R430). -/
def State.coreCsr (s : State) (core t rd num : Nat) (mode : CsrMode) (src : Nat ⊕ Nat) : State :=
  let operand := match src with | .inl r => s.rx t r | .inr n => BitVec.ofNat 32 n
  let writes := mode = .write || src != .inl 0 && src != .inr 0
  match s.csrValue core t num with
  | none => s.trap core t 2
  | some old =>
    if ((s.thread t).user && num / 256 % 4 ≠ 0) || (writes && num / 1024 = 3) then s.trap core t 2
    else
      let v := mode.run old operand
      let s := s.draw
      if !writes then s.done t 4 rd old
      else if num = 0x800 || num = 0x801 then s.waitOn core t rd v (num = 0x801)
      else if customCsr num then (s.done t 4 rd old).customWrite core t num v
      else (s.done t 4 rd old).stdWrite core t num v

/-- MRET: the pc and the mode that the trap saved; in user mode it is illegal. -/
def State.coreMret (s : State) (core t : Nat) : State :=
  if (s.thread t).user then s.trap core t 2
  else s.modThread t fun th =>
    let toUser := decide (bits th.mstatus.toNat 11 2 ≠ 3)
    let m := (th.mstatus &&& ~~~(0x1888 : Word)) ||| 0x80 ||| (if th.mstatus.getLsbD 7 then 8 else 0)
    { th with pc := th.mepc, user := toUser, mstatus := if toUser then m &&& ~~~(0x20000 : Word) else m }

/-- One instruction of `len` bytes by thread `t` on a core. A fence has no effect here: accesses are made in order (log entry 60). -/
def State.runRv (s : State) (core t len : Nat) (c : Rv) : State :=
  let th := s.thread t
  match c with
  | .lui rd v => s.done t len rd v
  | .auipc rd v => s.done t len rd (th.pc + v)
  | .jal rd v => s.jump t len rd (th.pc + v)
  | .jalr rd a v => s.jump t len rd ((s.rx t a + v) &&& ~~~(1 : Word))
  | .branch c a b v => if c.holds (s.rx t a) (s.rx t b) then s.jump t len 0 (th.pc + v) else s.done t len 0 0
  | .load n e rd a v => s.coreLoad core t len n rd (s.rx t a + v).toNat e
  | .store n a b v => s.coreStore core t len n (s.rx t a + v).toNat (s.rx t b)
  | .opImm o rd a v => s.done t len rd (o.run (s.rx t a) v)
  | .op o rd a b => s.done t len rd (o.run (s.rx t a) (s.rx t b))
  | .fence => s.done t len 0 0
  | .fenceI => ({ s with dis := { s.dis with icache := tset s.dis.icache [] core [] } }).done t len 0 0
  | .ecall => s.trap core t (if th.user then 8 else 11)
  | .ebreak => s.trap core t 3
  | .mret => s.coreMret core t
  | .wfi => s.done t len 0 0
  | .csr mode rd src num => s.coreCsr core t rd num mode src
  | .lr rd a => s.coreLr core t len rd (s.rx t a).toNat
  | .sc rd a b => s.coreSc core t len rd (s.rx t a).toNat (s.rx t b)
  | .amo op rd a b => s.coreAmo core t len rd (s.rx t a).toNat op (s.rx t b)

/-- A half of an instruction. -/
def State.fetchHalf (s : State) (core t a : Nat) : State × Except Word Nat :=
  match s.access core t .fetch a 2 with
  | (s, .error c) => (s, .error c)
  | (s, .ok g) =>
    let (s, b) := s.readTarget core g 2 true
    (s, .ok (leNat b))

/-- The next instruction of thread `t` on a core: fetched, decoded and carried out; none decoded is an illegal instruction. -/
def State.runThread (s : State) (core t : Nat) : State :=
  let pc := (s.thread t).pc.toNat
  match s.fetchHalf core t pc with
  | (s, .error c) => s.trap core t c
  | (s, .ok lo) =>
    if lo % 4 ≠ 3 then
      match decode16 lo with
      | none => s.trap core t 2
      | some c => s.runRv core t 2 c
    else match s.fetchHalf core t (pc + 2) with
      | (s, .error c) => s.trap core t c
      | (s, .ok hi) =>
        match decode32 (lo + 65536 * hi) with
        | none => s.trap core t 2
        | some c => s.runRv core t 4 c

/-- One instruction on each core that has a running thread, in ascending order (log entry 36). -/
def State.runCores (s : State) : State := (List.range 12).foldl (fun s core => s.onCore core fun s t => s.runThread core t) s

end Sys2Proof.Machine
end

