-- ==== Sys2Proof/Machine/Step.lean ====
section
/-! DEFINITION. One step: the command at the front of the queue takes effect. -/
namespace Sys2Proof.Machine

/-- The queue with `c` put at its front. -/
def State.push (c : Instr) (s : State) : State := { s with pending := c :: s.pending }

/-- The command a word spells is put at the front of the queue; a word that spells none changes nothing (log entry 35). -/
def State.withFetchWord (s : State) (nbits w : Nat) : State :=
  match decodeTableWord nbits w with
  | some c => s.push c
  | none => s

/-- The command at the front of the queue takes effect on the machine with the rest waiting; with none waiting, each core that has a
running thread runs one instruction, and a block on which none runs idles (log entry 36). -/
def step (s : State) : Host.Outcome State Fault Refusal :=
  match s.pending with
  | [] => .next s.runCores
  | c :: rest => exec c { s with pending := rest }

end Sys2Proof.Machine
end

