-- ==== Sys2Proof/Safety.lean ====
section
/-! DEFINITION. What counts as a safe state and a safe run, in the terms the claims use: the invariants of the state, and what
an answer, an event, a completion and a frame may change. -/

namespace Sys2Proof.Machine

/-! ### Invariants -/

/-- Every byte memory is in canonical form over the byte that an unlisted address reads as (log entry 9), and the words of DRAM that hold
an uncorrectable error are aligned (R448). -/
def State.memoriesCanonical (s : State) : Prop :=
  Memory.wf s.mem.dram memFill ∧ Memory.wf s.mem.banks memFill ∧ Memory.wf s.mem.dual memFill ∧
  Memory.wf s.nvm.user memFill ∧ Memory.wf s.boot.flash flashFill ∧ ∀ w ∈ s.mem.bad, w % 8 = 0

/-- The tables of a configuration have strictly rising numbers. -/
def Conf.tidy (c : Conf) : Prop :=
  tsorted c.regs ∧ tsorted c.machines ∧ tsorted c.sections ∧ tsorted c.rates ∧ tsorted c.routes ∧ tsorted c.classes

/-- The tables of a unit have strictly rising numbers; a cached line of the Field Store has its 1,024 bytes. -/
abbrev Dis.tidy (d : Dis) : Prop :=
  tsorted d.threads ∧ (∀ e ∈ d.threads, tsorted e.2.x) ∧ tsorted d.ready ∧ tsorted d.cores ∧ tsorted d.wdogs ∧ tsorted d.dcinv ∧
  tsorted d.dsel ∧ tsorted d.mtvec ∧ tsorted d.dcache ∧ tsorted d.icache ∧ tsorted d.resv ∧ tsorted d.pmpcfg ∧ tsorted d.pmpaddr
abbrev Fab.tidy (f : Fab) : Prop := tsorted f.ports ∧ (∀ e ∈ f.ports, tsorted e.2.queues) ∧ tsorted f.learn
abbrev Hop.tidy (h : Hop) : Prop := tsorted h.ports ∧ tsorted h.machines ∧ tsorted h.nodes
abbrev Gns.tidy (g : Gns) : Prop := tsorted g.chans ∧ tsorted g.gains
abbrev Fix.tidy (f : Fix) : Prop := tsorted f.radio ∧ tsorted f.filters ∧ tsorted f.asm ∧ tsorted f.lanes
abbrev Sec.tidy (c : Sec) : Prop := tsorted c.claims ∧ tsorted c.machs
abbrev Fld.tidy (f : Fld) : Prop := ∀ e ∈ f.cache, ∀ l ∈ e.2, l.data.length = 1024

/-- So have those that a commit keeps while its check lasts. -/
def Undo.tidy (u : Undo) : Prop :=
  u.active.tidy ∧ u.fld.tidy ∧ u.sec.tidy ∧ u.gns.tidy ∧ u.fix.tidy ∧ u.hop.tidy ∧ u.fab.tidy

/-- The tables of the state that are read by number have strictly rising numbers. -/
def State.tidy (s : State) : Prop :=
  s.fab.tidy ∧ s.dis.tidy ∧ s.hop.tidy ∧ s.gns.tidy ∧ s.fix.tidy ∧ s.sec.tidy ∧ s.fld.tidy ∧
  s.cfg.staged.tidy ∧ s.cfg.active.tidy ∧ tsorted s.direct ∧ tsorted s.hst.rings ∧ tsorted s.hst.bases ∧ tsorted s.tb.srcs ∧
  tsorted s.tb.alarms ∧ tsorted s.tb.ptp ∧ tsorted s.crn.buf ∧ tsorted s.crn.nv ∧ tsorted s.car.res ∧ tsorted s.car.machs ∧
  tsorted s.car.tasks ∧ tsorted s.key.running ∧ tsorted s.key.slots ∧ tsorted s.nvm.wear ∧ tsorted s.nvm.mapping ∧
  tsorted s.boot.meas ∧ (∀ l ∈ s.tb.launches, ∀ c, l.kind = .commit c → c.snap.tidy) ∧ (∀ u, s.undo = some u → u.tidy)

/-- The ready lists hold the `READY` threads of their priority, each once, each core's thread is `RUNNING` there with no wait left to
retire (R430, R435), and no thread is on a core or in a list while the device is in reset or its ROM runs (R24, R432). -/
def State.scheduled (s : State) : Prop :=
  (∀ p, (s.readyList p).Nodup ∧ ∀ k ∈ s.readyList p, (s.thread k).state = .ready ∧ (s.thread k).prio = p) ∧
  (∀ c k, s.running c = some k → (s.thread k).state = .running ∧ (s.thread k).core = c ∧ (s.thread k).met = none) ∧
  (s.pwr.inReset = true → s.pwr.state ≠ .waitHost ∧ s.pwr.state ≠ .run) ∧
  (s.pwr.inReset = true ∨ s.pwr.state = .boot ∨ s.pwr.state = .recovery → s.dis.ready = [] ∧ s.dis.cores = [])

/-! ### Answers -/

/-- A command's answer is a next state that satisfies `P`. -/
def reaches (r : Result) (P : State → Prop) : Prop := ∃ t, r = .next t ∧ P t

/-- What raising events may change (R439, R443, R448, R507): the Dispatcher, the recorder's queue and, while the trace runs, DRAM with
its trace records and the errors that these met; every other part of `t` is that of `s`. Without the trace, errors that were still to be
reported may have been. -/
def State.eventsOnly (s t : State) : Prop :=
  t = { s with
    dis := t.dis, crn := t.crn
    mem := { s.mem with
      dram := t.mem.dram, bad := t.mem.bad, waiting := t.mem.waiting, failed := t.mem.failed, eccUncorr := t.mem.eccUncorr
      eccAddr := t.mem.eccAddr } } ∧
  (s.act F.DIS_CTRL_TRACE_EN = 0 → t.mem = { s.mem with failed := t.mem.failed } ∧ t.mem.failed ≤ s.mem.failed)

/-- The state without the descriptors of the listed serial numbers and without what the units hold of them. -/
def State.forget (s : State) (gone : List Nat) : State :=
  { s with
    hst := { s.hst with taken := s.hst.taken.filter fun d => d.serial ∉ gone }
    gns := { s.gns with
      running := s.gns.running.filter fun q => q.1 ∉ gone
      queue := s.gns.queue.filter fun q => q ∉ gone
      captures := s.gns.captures.filter fun q => q.1 ∉ gone }
    key := { s.key with queue := s.key.queue.filter fun j => j.serial ∉ gone }
    car := { s.car with pend := s.car.pend.filter fun r => ∀ n ∈ gone, r.desc ≠ some n }
    hop := { s.hop with queue := s.hop.queue.filter fun b => ∀ n ∈ gone, b.desc ≠ some n } }

/-- What answering a descriptor may change (R364 to R381): some descriptors leave the device, with what the units held of them,
the rings change, the journal grows, and events change what they may. -/
def State.answerOnly (s t : State) : Prop :=
  ∃ gone : List Nat, State.eventsOnly
    { s.forget gone with hst := { t.hst with taken := (s.forget gone).hst.taken }, out := t.out } t ∧ s.out <+: t.out

/-- A descriptor that a command may execute now (R371, R372), on a ring that was not reset under it, and whose payload write has met no
error (R376). -/
def State.offers (s : State) (ring index op : Nat) (d : Desc) : Prop :=
  s.startable ring index op = some d ∧ d.silent = false ∧ d.unwritten = none

/-- Where the next completion of a ring goes (R366, R367). -/
def State.cqSlot (s : State) (ring : Nat) : Nat :=
  s.pairBase F.HST_RING_CQ_BASE_LO_ADDR ring + 32 * (s.ring ring).cqTail

/-- The completion of `d` with a status, DETAIL and RESULT is written after the outputs `pre`, in the next slot of its queue, with
HALTED on an ordered ring that the error halts, and the descriptor is no longer in the device (R364 to R369, R377). -/
def State.answered (s t : State) (pre : List Out) (d : Desc) (status : Nat) (result : List Byte) (detail : Nat := 0) : Prop :=
  (∃ rest, t.out = s.out ++ pre ++ .hostWrite (s.cqSlot d.ring) (complBytes d (s.ring d.ring).phase
      (ordered d.ring && isError status && (s.ring d.ring).state = .running) status detail (d.execAt.getD s.now) result) :: rest) ∧
  ∀ e ∈ t.hst.taken, e.serial ≠ d.serial

/-- A descriptor is answered after the command's other effects, which left the rings, the taken descriptors, the immediate
registers and the clock as they were. -/
def State.replies (s t : State) (d : Desc) (status : Nat) (result : List Byte) (detail : Nat := 0) : Prop :=
  ∃ u : State, u.hst = s.hst ∧ u.direct = s.direct ∧ u.clk = s.clk ∧ u.answered t [] d status result detail

/-- The latch is set for a request at a counter: a release of that very instant does not stand (R29). -/
def Stp.holds (c : Stp) (now : Nat) : Prop := c.latched = true ∨ ∃ x, c.released = some x ∧ x.1 = now

/-- The latest latch event is of a counter, so that a request then belongs to its stage (R333, log entry 67). -/
def Stp.inStage (c : Stp) (now : Nat) : Prop := ∃ e, c.event = some e ∧ e.1 = now

/-- What a request of a class from a source at a counter makes of the stop latch (R29, R332, R333, R335, R350). -/
def Stp.requested (c c' : Stp) (now src : Nat) (stop : Bool) : Prop :=
  c'.latched = true ∧ c'.armed = none ∧ c'.seen.getLsbD src = true ∧
  (¬ c.holds now → c'.stop = stop ∧ c'.source = src ∧ c'.count = c.count + 1 ∧ c'.enabled = 0) ∧
  (c.holds now → c.inStage now → c'.stop = (c.stop || stop) ∧ c'.count = c.count ∧
    c'.source = if (stop = true ∧ c.stop = false) ∨ (stop = c.stop ∧ src < c.source) then src else c.source) ∧
  (c.holds now → ¬ c.inStage now → c.stop = false → stop = true →
    c'.stop = true ∧ c'.source = src ∧ c'.count = c.count + 1 ∧ c'.enabled = 0) ∧
  (c.holds now → ¬ c.inStage now → (c.stop = true ∨ stop = false) →
    c'.stop = c.stop ∧ c'.source = c.source ∧ c'.count = c.count ∧ (c.latched = true → c'.enabled = c.enabled))

/-- Thread `k` runs on a core in machine mode, and the cores run (R25, R432). -/
def State.machineThread (s : State) (core k : Nat) : Prop :=
  s.coresRun = true ∧ s.running core = some k ∧ (s.thread k).user = false

/-- No event is still to be raised for a trace record that was dropped or a DRAM access that failed, and none of the two posts to a
thread (R444, R448). -/
def State.calm (s : State) : Prop :=
  s.dis.traceEv = 0 ∧ s.mem.failed = 0 ∧ s.routePosts (sourceCode Ev.disTraceDrop 0) = [] ∧
  s.routePosts (sourceCode Ev.memEccUncorr 0) = []

/-- `n` bytes of DRAM at `a` lie apart from the staging images (R115). -/
def State.offImages (s : State) (a n : Nat) : Prop :=
  (s.imageBase.all fun b => decide (a + n ≤ b ∨ b + 5 * 2 ^ 20 ≤ a)) = true

/-- The units' accesses to `n` bytes of DRAM at `a` go on at once and meet no error (R448, R450), and the bytes lie apart from the staging
images. -/
def State.dramSound (s : State) (a n : Nat) : Prop :=
  s.dramHeld = false ∧ s.mem.trainFail = false ∧ s.mem.bad = [] ∧ s.calm ∧ s.offImages a n

/-- A word of 32 bits stands at offset `o` of the dual-port region, with no uncorrectable error. -/
def State.dualHolds (s : State) (o w : Nat) : Prop :=
  o + 4 ≤ 0x80000 ∧ readMem s.mem.dual memFill o 4 = leBytes 4 w ∧ s.badWord (.dualPort o) 4 = none

/-- Thread `k` alone runs, on a core, in machine mode without MPRV and without PMP entries, no command waits, and the next instruction, of
four bytes in the dual-port region, is `c` (R427, R428, log entry 60). -/
def State.executes (s : State) (core k : Nat) (c : Rv) : Prop :=
  s.pending = [] ∧ s.coresRun = true ∧ core < 12 ∧ s.dis.cores = [(core, k)] ∧ (s.thread k).user = false ∧
  (s.thread k).mstatus.getLsbD 17 = false ∧ s.dis.pmpcfg = [] ∧ s.calm ∧ s.act F.DIS_CTRL_TRACE_EN = 0 ∧
  ∃ o w, (s.thread k).pc.toNat = 0x18000000 + o ∧ o % 2 = 0 ∧ s.dualHolds o w ∧ w < 2 ^ 32 ∧ decode32 w = some c

/-- A thread has trapped for a cause at the instruction that it ran (R432, log entry 15). -/
def State.trapped (s t : State) (core k : Nat) (cause : Word) : Prop :=
  (t.thread k).mepc = (s.thread k).pc ∧ (t.thread k).mcause = cause ∧ (t.thread k).user = false ∧
  (t.thread k).pc = tget s.dis.mtvec 0 core &&& ~~~(3 : Word) ∧ (t.thread k).x = (s.thread k).x ∧
  (t.thread k).state = (s.thread k).state ∧ ∀ j, j ≠ k → t.thread j = s.thread j

/-- A thread is `READY` or `RUNNING`. -/
def State.active (s : State) (k : Nat) : Prop := (s.thread k).state = .ready ∨ (s.thread k).state = .running

/-- A descriptor waits in its unit from now on (R371). -/
def State.waits (s t : State) (d : Desc) : Prop :=
  { d with phase := .waiting, execAt := some s.now } ∈ t.hst.taken ∧
  t = { s with hst := { s.hst with taken := t.hst.taken } }

/-- A descriptor is answered after the outputs `pre`, whatever else the command did to the units. -/
def State.delivers (s t : State) (pre : List Out) (d : Desc) (status : Nat) (result : List Byte) : Prop :=
  ∃ u : State, u.hst = s.hst ∧ u.direct = s.direct ∧ u.clk = s.clk ∧ u.out = s.out ∧ u.answered t pre d status result

/-- A descriptor that waits and may still be answered, whose payload write has met no error (R376, R382). -/
def State.awaits (s : State) (d : Desc) : Prop :=
  d.silent = false ∧ d.unwritten = none ∧ (s.ring d.ring).state ≠ .disabled ∧ s.hst.fault = false ∧ s.pwr.state ≠ .safeHold

/-- A cached line belongs to a tile. -/
def CacheLine.ofTile (l : CacheLine) (f te tn : Nat) : Bool := l.field = f && l.tileE = te && l.tileN = tn

/-- The state after a tile's lines are written back and invalidated (R117). -/
def State.tileFlushed (s : State) (f te tn : Nat) : State := s.dropLines fun l => l.ofTile f te tn

/-- A frame passes R394 on a port that takes frames in, and does not loop back (R394, R400, R425). -/
def State.admits (s : State) (p : Nat) (f : List Byte) : Prop :=
  s.portOn p = true ∧ frameOk f = true ∧ (s.claimedAddr = 0 ∨ frSrc f ≠ s.claimedAddr)

/-- A frame other than a HELLO is taken in on an `UP` link in `RUN` (R397). -/
def State.takesFrame (s : State) (p : Nat) (f : List Byte) : Prop :=
  s.admits p f ∧ s.pwr.state = .run ∧ s.linkUp p = true

/-- Such a frame is a unicast one for this device (R405). -/
def State.addressed (s : State) (p : Nat) (f : List Byte) : Prop :=
  s.takesFrame p f ∧ frLocal f = false ∧ frFlood f = false ∧ s.claimedAddr ≠ 0 ∧ frDst f = s.claimedAddr

/-- Frames waiting on a port in a class. -/
def State.egress (s : State) (p cls : Nat) : List (List Byte) := tget (s.fabPort p).queues [] cls

/-- A frame of a class joins the egress queue of every `UP` port but one that has room (R395, R406). -/
def State.flooded (s t : State) (but : Option Nat) (cls : Nat) (is : List Byte → Prop) : Prop :=
  ∀ q ∈ s.upPorts, some q ≠ but → (s.egress q cls).length < queueDepth cls → ∃ f, is f ∧ t.egress q cls = s.egress q cls ++ [f]

/-- A block of a region has room for `n` more writes before it is worn (R484). -/
def State.nvRoom (s : State) (region block n : Nat) : Prop := tget s.nvm.wear 0 (s.nvHome (s.nvBlock region block)) + n < nvEndurance

/-- A record that may be used: `VALID` and not orphaned, under a name that is no root's and not the provisioning key's. -/
def State.serves (s : State) (i : Nat) (c : KeyCopy) : Prop :=
  i < 1024 ∧ s.validRec i = some c ∧ s.orphan i = false

/-- The receiver, the Key Store and the Caravan as they were, but for what they hold of descriptors that left. -/
def Gns.kept (g h : Gns) : Prop := h = { g with running := h.running, queue := h.queue, captures := h.captures }
def Key.kept (g h : Key) : Prop := h = { g with queue := h.queue }
def Car.kept (g h : Car) : Prop := h = { g with pend := h.pend }

end Sys2Proof.Machine
end

