-- ==== Sys2Proof/Certificates/Slice0/Obligations.lean ====
section
/-! DEFINITION. The statements for the provers, family by family: what each command does to the state, what stays as it was, and
what every step keeps. -/

open Sys2Proof Sys2Proof.Machine

/-- Out of reset, a read of TB_STAMP_W0 takes the head entry out of the queue and W0 to W3 then show it: W0 its ID, SOURCE and
VALID 1, W1 the nanoseconds of the second, W2 and W3 the seconds, W3 the fraction. On an empty queue W0 reads with VALID 0
and nothing is popped. No other command changes what W0 to W3 show, but a reset of the device. Nothing else changes in a pop
but the time. (R95) -/
def Obligations.StampPopTakesTheHead : Prop :=
  (∀ (s : State) (dt : Nat), s.pwr.inReset = false →
    (∀ (h : Stamp) (r : List Stamp), s.tb.stamps = h :: r → reaches (exec (.tbStampPop dt) s) fun t =>
      t = { s.elapse dt with tb := { s.tb with stamps := r, stampOut := some h } } ∧
      t.readTb 0x20C0 = pack [(0, h.id), (16, h.source), (31, 1)] ∧ t.readTb 0x20C4 = h.ns % 1000000000 ∧
      t.readTb 0x20C8 = bits (h.ns / 1000000000) 0 32 ∧
      t.readTb 0x20CC = pack [(0, bits (h.ns / 1000000000) 32 16), (16, h.t16 % 65536)]) ∧
    (s.tb.stamps = [] → reaches (exec (.tbStampPop dt) s) fun t =>
      t = { s.elapse dt with tb := { s.tb with stampOut := none } } ∧ t.readTb 0x20C0 = 0)) ∧
  (∀ (c : Instr) (s t : State), exec c s = .next t → t.tb.stampOut = s.tb.stampOut ∨ (∃ dt, c = .tbStampPop dt) ∨
    (t.tb.stampOut = none ∧ t.pwr.state ≠ .run ∧ t.hst = { Hst.reset with pci := t.hst.pci }))

/-- A write of TB_HOST_TIME_HI and an edge of PPS_IN that EDGE selects are samples of sources 3 and 2: the source's last sample
is now and its uncertainty is the register's; the register holds the value written, and the edge is stamped while the queue
has room. The other edge of PPS_IN is no sample and changes nothing but the time. Otherwise only the Timebase, the rate, the
written register, every other immediate register standing as it was, and what events change differ from before. That a
sample counts whether or not its source is enabled, and the PPS_IN stamp with no filter, is the model's reading (log entry
41). (R70, R72, R73, R92, R94, R96) -/
def Obligations.SourceSamplesAreTaken : Prop :=
  (∀ (s : State) (dt : Nat) (v : Word), s.tidy → s.writable = true →
    reaches (exec (.tbHostTime dt v) s) fun t =>
      (t.src 3).lastAt = some (s.clk.counter + dt) ∧ (t.src 3).unc = s.reg F.TB_HOST_UNC_UNC * 1000 ∧
      t.reg F.TB_HOST_TIME_HI_TIME = v.toNat ∧
      (∀ k, k ≠ F.TB_HOST_TIME_HI_TIME.base → tfind t.direct k = tfind s.direct k) ∧
      State.eventsOnly { s.elapse dt with
        tb := t.tb, direct := t.direct, clk := { (s.elapse dt).clk with rate := t.clk.rate } } t) ∧
  (∀ (s : State) (dt phase : Nat) (falling : Bool), (falling = true ↔ s.reg F.TB_PPS_IN_EDGE ≠ 1) →
    exec (.ppsInEdge dt ⟨phase, falling⟩) s = .next (s.elapse dt)) ∧
  (∀ (s : State) (dt phase : Nat) (falling : Bool), phase ≤ 7 → s.clockRuns = true →
    s.tb.stamps.length < 64 → (falling = true ↔ s.reg F.TB_PPS_IN_EDGE = 1) →
    reaches (exec (.ppsInEdge dt ⟨phase, falling⟩) s) fun t =>
      (t.src 2).lastAt = some (s.clk.counter + dt) ∧ (t.src 2).unc = s.reg F.TB_PPS_IN_UNC ∧
      (∃ id, t.tb.stamps = s.tb.stamps ++ [⟨0x31, id, (s.elapse dt).stamp16 phase⟩]) ∧
      State.eventsOnly { s.elapse dt with tb := t.tb, clk := { (s.elapse dt).clk with rate := t.clk.rate } } t)

/-- A source that may qualify is qualified; a source whose timeout has passed is forgotten. On a PTP port whose receipt timeout
has passed, the masters that have been silent so long are forgotten, with what is known of the neighbour, and the best of
those left is the port's; fabric PTP is lost where no port is left to be SLAVE. After a qualification or a loss
TB_STATUS.SOURCE is the highest-ranked source that is enabled and qualified; with none left a locked or relocking clock is
in holdover, at the rate of the servo's frequency. Only the Timebase, the rate and what events change differ. The best
master is that of the standard (PRESUMED, log entry 12), and that the run of fabric PTP goes on where the SLAVE port moves
is the model's choice (log entry 41). (R69, R70, R71, R80) -/
def Obligations.SourceChangesFollowRank : Prop :=
  (∀ (s : State) (dt src : Nat), src ≤ 3 → (s.elapse dt).mayQualify src = true →
    reaches (exec (.tbSourceQualify dt src) s) fun t =>
      (t.src src).qualified = true ∧ t.tb.source = (match t.bestSource with | some i => i + 1 | none => 0) ∧
      State.eventsOnly { s.elapse dt with tb := t.tb, clk := { (s.elapse dt).clk with rate := t.clk.rate } } t) ∧
  (∀ (s : State) (dt src a : Nat), src ≤ 3 → src ≠ 1 → s.tidy → (s.src src).lastAt = some a →
    a + s.srcTimeout src ≤ s.clk.counter + dt →
    reaches (exec (.tbSourceLost dt src) s) fun t =>
      t.src src = SrcState.reset ∧ t.tb.source = (match t.bestSource with | some i => i + 1 | none => 0) ∧
      (s.tb.source = src + 1 → t.bestSource = none → s.tb.quality = .locked ∨ s.tb.quality = .relocking →
        t.tb.quality = .holdover ∧ t.clk.rate = rateWord s.tb.freq) ∧
      State.eventsOnly { s.elapse dt with tb := t.tb, clk := { (s.elapse dt).clk with rate := t.clk.rate } } t) ∧
  (∀ (s : State) (dt port : Nat) (c : Instr), s.tidy → (s.elapse dt).announceLate port = true →
    c = .ptpAnnounceTimeout dt port ∨ (c = .tbSourceLost dt 1 ∧ s.tb.slavePort = some port) →
    reaches (exec c s) fun t =>
      (t.ptpPort port).foreign =
        (s.ptpPort port).foreign.filter (fun f => decide (s.clk.counter + dt < f.lastAt + s.srcTimeout 1)) ∧
      (t.ptpPort port).announce = (t.bestForeign port).map (fun f => f.data) ∧
      (t.ptpPort port).nbrOffset = 0 ∧ (t.ptpPort port).skew = false ∧
      (s.tb.slavePort.isSome = true → t.tb.slavePort = none →
        t.src 1 = SrcState.reset ∧ t.tb.source = (match t.bestSource with | some i => i + 1 | none => 0) ∧
        (s.tb.source = 2 → t.bestSource = none → s.tb.quality = .locked ∨ s.tb.quality = .relocking →
          t.tb.quality = .holdover ∧ t.clk.rate = rateWord s.tb.freq)) ∧
      (t.tb.slavePort.isSome = true → t.tb.source = s.tb.source ∧ t.src 1 = s.src 1) ∧
      State.eventsOnly { s.elapse dt with tb := t.tb, clk := { (s.elapse dt).clk with rate := t.clk.rate } } t)

/-- At the second for which a step waits, the clock is moved by the step's offset, no step waits any more, the error bound is
the source's uncertainty, the servo's frequency is as before, and the queue of commands and the configuration are as before.
(R85) -/
def Obligations.StepMovesTheClock : Prop :=
  ∀ (s : State) (dt : Nat) (p : StepPending), s.tb.step = some p → p.at' ≤ (s.elapse dt).now →
    reaches (exec (.tbStepApply dt) s) fun t =>
      t.clk.t48 = (((s.elapse dt).clk.t48 : Int) + p.e * 2 ^ 48).toNat ∧ t.tb.step = none ∧ t.tb.errEst = p.unc ∧
      t.tb.freq = s.tb.freq ∧ t.clk.rate = s.clk.rate ∧ t.clk.counter = s.clk.counter + dt ∧ t.cfg = s.cfg ∧
      t.pending = s.pending

/-- At the instant of a whole second PPS_OUT goes active, at the level that POL names, the next edge is that of the next second,
and a change of the level is in the journal at the second plus TB_PPS_OUT_COMP, placed at the nearest interpolator phase, in
units of 2^-16 ns; while locked the Calendar takes the time. When WIDTH ms have passed since the edge the output returns to
its inactive level, and nothing else changes. Every millisecond, while locked or relocking, TB_ERR_EST becomes the
uncertainty of the selected source plus the magnitude of the last offset, saturating, and only it and the mark of the action
change. In holdover the bound is that of R81, and when it passes FREE_THRESH the quality is FREE. (R79, R81, R87, R94, R103) -/
def Obligations.PpsOutAndTheErrorBound : Prop :=
  (∀ (s : State) (dt : Nat), s.clockRuns = true → s.ppsOn = true → s.tb.ppsNext ≤ (s.elapse dt).ppsSecond →
    reaches (exec (.ppsOutEdge dt) s) fun t =>
      t.tb.ppsHigh = true ∧ t.tb.ppsNext = (s.elapse dt).ppsSecond + 1 ∧
      t.tb.ppsPin = decide (s.reg F.TB_PPS_OUT_POL ≠ 1) ∧
      t.out = s.out ++ (if t.tb.ppsPin = s.tb.ppsPin then [] else
        [.pps t.tb.ppsPin ((s.elapse dt).ppsStamp (s.elapse dt).ppsSecond + 163840)]) ∧
      (s.tb.quality = .locked → t.cal.lastSync = (s.elapse dt).now / 1000000000) ∧
      State.eventsOnly { s.elapse dt with tb := t.tb, cal := t.cal, out := t.out } t) ∧
  (∀ (s : State) (dt a : Nat), s.tb.ppsAt = some a → a + s.reg F.TB_PPS_OUT_WIDTH * tickMs ≤ s.clk.counter + dt →
    reaches (exec (.ppsOutPulseEnd dt) s) fun t =>
      t.tb.ppsHigh = false ∧ t.tb.ppsPin = decide (s.reg F.TB_PPS_OUT_POL = 1) ∧
      t.out = s.out ++ (if t.tb.ppsPin = s.tb.ppsPin then [] else [.pps t.tb.ppsPin ((s.elapse dt).stamp16 0)]) ∧
      t = { s.elapse dt with tb := { s.tb with ppsHigh := t.tb.ppsHigh, ppsPin := t.tb.ppsPin }, out := t.out }) ∧
  (∀ (s : State) (dt : Nat), s.pwr.inReset = false → (s.elapse dt).due T.errEst tickMs = true →
     ((s.tb.quality = .locked ∨ s.tb.quality = .relocking) →
       exec (.tbErrEstUpdate dt) s = .next { (s.elapse dt).mark T.errEst with
         tb := { s.tb with errEst := min 0xFFFFFFFF ((s.src (s.tb.source - 1)).unc + s.tb.errOff.natAbs) } }) ∧
     (s.tb.quality = .holdover →
       reaches (exec (.tbErrEstUpdate dt) s) fun t =>
         t.tb.errEst = (s.elapse dt).errBound ∧
         (s.reg F.TB_THRESH_FREE_THRESH * 1000 < (s.elapse dt).errBound → t.tb.quality = .free) ∧
         (¬ s.reg F.TB_THRESH_FREE_THRESH * 1000 < (s.elapse dt).errBound → t.tb.quality = .holdover) ∧
         State.eventsOnly { (s.elapse dt).mark T.errEst with tb := t.tb } t))

/-- A write of TB_ALARM_n_HI with a time still ahead arms the alarm at the 64-bit time of the pair, and a time of zero disarms
it. An armed alarm whose time has come, with no launch or periodic entry due on its tick or before it, raises TB_ALARM_n and
stands disarmed without a period, and with one stands armed for a time ahead. (R34, R99) -/
def Obligations.AlarmsArmAndFire : Prop :=
  (∀ (s : State) (dt n : Nat) (v : Word), n ≤ 31 → s.tidy → s.writable = true →
    let time := s.reg F.TB_ALARM_LO_TIME n + 2 ^ 32 * v.toNat
    (s.elapse dt).now < time ∨ time = 0 →
    reaches (exec (.tbAlarmArm dt n v) s) fun t =>
      tget t.tb.alarms Alarm.reset n = (if time = 0 then Alarm.reset else ⟨true, time⟩) ∧
      (∀ k, k ≠ n → tget t.tb.alarms Alarm.reset k = tget s.tb.alarms Alarm.reset k) ∧
      t = { s.elapse dt with direct := t.direct, tb := { s.tb with alarms := t.tb.alarms } }) ∧
  (∀ (s : State) (dt n : Nat), n ≤ 31 → s.tidy → (tget s.tb.alarms Alarm.reset n).armed = true → s.pwr.state ≠ .safeHold →
    (tget s.tb.alarms Alarm.reset n).time ≤ (s.elapse dt).now →
    let tick := (s.elapse dt).tickOf (tget s.tb.alarms Alarm.reset n).time
    (∀ l ∈ s.tb.launches, l.time ≤ (s.elapse dt).now → tick < (s.elapse dt).launchTick l) →
    (∀ p ∈ s.tb.periodic, p.time ≤ (s.elapse dt).now → tick < (s.elapse dt).tickOf p.time) →
    reaches (exec (.tbAlarmFire dt n) s) fun t =>
      (s.reg F.TB_ALARM_PERIOD_PERIOD n = 0 → tget t.tb.alarms Alarm.reset n = ⟨false, 0⟩) ∧
      (s.reg F.TB_ALARM_PERIOD_PERIOD n ≠ 0 →
        (tget t.tb.alarms Alarm.reset n).armed = true ∧ (s.elapse dt).now < (tget t.tb.alarms Alarm.reset n).time) ∧
      State.eventsOnly { s.elapse dt with tb := { s.tb with alarms := t.tb.alarms } } t)

/-- A frame of class TIME that R394 takes in on a live PTP port counts in RX_FRAMES. Its message of another domain or version
changes nothing more. Of the device's domain, an Announce joins the foreign masters of the port, whose best one that
qualifies gives the port's data set, a Sync as its number and receive time, a Follow_Up that matches it gives the offset of
the neighbour, a Pdelay_Req is answered by a Pdelay_Resp in the port's TIME queue while it has room, a Pdelay_Resp that
matches and names this port is kept, and its Follow_Up gives the path delay and the neighbour's offset. A Sync, Announce or
Pdelay_Req whose interval has passed joins the TIME queue with the next number, Sync and Announce on a port that is neither
SLAVE nor PASSIVE. A TIME frame at the head of a free line goes on it; a Sync, a Pdelay_Req and a Pdelay_Resp are stamped,
and while the address is claimed the Follow_Up of a Sync or a Pdelay_Resp with the stamped time joins the queue, otherwise
none does. The places of the messages' fields are the standard's (PRESUMED, log entry 68), and so is the choice of the best
master (PRESUMED, log entry 12). (R89, R90, R91, R93, R393, R395) -/
def Obligations.PtpMessagesTakeEffect : Prop :=
  (∀ (s : State) (dt p ph : Nat) (f : List Byte), s.tidy → p ≤ 5 → ph ≤ 7 → s.ptpLive p = true → s.timeTaken p f = true →
    let m := frBody f
    let u := (s.elapse dt).modPort p fun r => { r with rxFrames := r.rxFrames + 1 }
    (byteAt m 1 % 16 ≠ 2 ∨ byteAt m 4 ≠ s.act F.TB_PTP_CTRL_DOMAIN → exec (.ptpMessageReceived dt p f ph) s = .next u) ∧
    (byteAt m 1 % 16 = 2 → byteAt m 4 = s.act F.TB_PTP_CTRL_DOMAIN → ptpSize (ptpType m) ≤ m.length →
      (ptpType m = Pm.announce →
        reaches (exec (.ptpMessageReceived dt p f ph) s) fun t =>
          (t.ptpPort p).foreign = ((s.ptpPort p).foreign.filter fun x =>
              x.data.sender ≠ (beNat (slice m 20 8), beNat (slice m 28 2))) ++
            [⟨⟨byteAt m 47, byteAt m 48, byteAt m 49, beNat (slice m 50 2), byteAt m 52, beNat (slice m 53 8), beNat (slice m 61 2),
                (beNat (slice m 20 8), beNat (slice m 28 2))⟩, s.clk.counter + dt,
              ((s.ptpPort p).foreign.find? fun x => x.data.sender = (beNat (slice m 20 8), beNat (slice m 28 2))).map
                fun x => x.lastAt⟩] ∧
          (t.ptpPort p).announce = (t.bestForeign p).map (fun x => x.data)) ∧
      (ptpType m = Pm.sync → reaches (exec (.ptpMessageReceived dt p f ph) s) fun t =>
        (t.ptpPort p).sync = some (ptpSeq m, (s.elapse dt).rxTime ph - ptpCorr m) ∧
        t = { u with tb := { s.tb with ptp := t.tb.ptp } }) ∧
      (∀ t2, ptpType m = Pm.followUp → (s.ptpPort p).sync = some (ptpSeq m, t2) →
        reaches (exec (.ptpMessageReceived dt p f ph) s) fun t =>
          (t.ptpPort p).nbrOffset = satOffset (roundRat (ptpTime m 34 + ptpCorr m + (s.ptpPort p).delay - t2)) ∧
          (t.ptpPort p).heard = true) ∧
      (ptpType m = Pm.pdelayReq → (s.egress p FC.time).length < queueDepth FC.time →
        reaches (exec (.ptpMessageReceived dt p f ph) s) fun t =>
          (∃ n, t.egress p FC.time = s.egress p FC.time ++
            [mkFrame fabBroadcast s.claimedAddr FC.time 0 1 2 n ((s.elapse dt).pdelayAnswer p m ph)]) ∧
          t = { u with fab := t.fab }) ∧
      (∀ t1 x, ptpType m = Pm.pdelayResp → (s.ptpPort p).pd = some (ptpSeq m, t1, x) → slice m 44 10 = s.ptpIdentity p →
        reaches (exec (.ptpMessageReceived dt p f ph) s) fun t =>
          (t.ptpPort p).pd = some (ptpSeq m, t1, some ((s.elapse dt).rxTime ph, ptpTime m 34 - ptpCorr m)) ∧
          t = { u with tb := { s.tb with ptp := t.tb.ptp } }) ∧
      (∀ t1 t4 t2, ptpType m = Pm.pdelayRespFollowUp → (s.ptpPort p).pd = some (ptpSeq m, t1, some (t4, t2)) →
        slice m 44 10 = s.ptpIdentity p →
        reaches (exec (.ptpMessageReceived dt p f ph) s) fun t =>
          (t.ptpPort p).delay = ((t4 - t1) - (ptpTime m 34 + ptpCorr m - t2)) / 2 ∧ (t.ptpPort p).pd = none ∧
          (t.ptpPort p).nbrOffset = satOffset (roundRat (((t2 - t1) + (ptpTime m 34 + ptpCorr m - t4)) / 2)) ∧
          (t.ptpPort p).heard = true ∧ State.eventsOnly { u with tb := { s.tb with ptp := t.tb.ptp } } t))) ∧
  (∀ (s : State) (dt p : Nat), s.tidy → p ≤ 5 → s.ptpLive p = true → (s.egress p FC.time).length < queueDepth FC.time →
    let frame := fun (n : Nat) (m : List Byte) => mkFrame fabBroadcast s.claimedAddr FC.time 0 1 2 n m
    (s.ptpPassive p = false → (s.ptpPort p).lastSync + logInterval 4 (s.act F.TB_PTP_CTRL_SYNC_LOG) ≤ s.clk.counter + dt →
      reaches (exec (.ptpMessageSend dt p 0) s) fun t =>
        (∃ n, t.egress p FC.time = s.egress p FC.time ++ [frame n (s.ptpMessage p Pm.sync ptpTwoStep 0
          (((s.ptpPort p).seqSync + 1) % 65536) (logByte (s.act F.TB_PTP_CTRL_SYNC_LOG)) (ptpStamp 0))]) ∧
        (t.ptpPort p).lastSync = s.clk.counter + dt) ∧
    (s.ptpPassive p = false → (s.ptpPort p).lastAnn + tickS * 2 ^ s.act F.TB_PTP_CTRL_ANNOUNCE_LOG ≤ s.clk.counter + dt →
      reaches (exec (.ptpMessageSend dt p 1) s) fun t =>
        (∃ n, t.egress p FC.time = s.egress p FC.time ++ [frame n (s.ptpMessage p Pm.announce ptpScale 0
          (((s.ptpPort p).seqAnn + 1) % 65536) (s.act F.TB_PTP_CTRL_ANNOUNCE_LOG) s.announceBody)]) ∧
        (t.ptpPort p).lastAnn = s.clk.counter + dt) ∧
    ((s.ptpPort p).lastPd + logInterval 4 (s.reg F.TB_PTP_CTRL2_PDELAY_LOG) ≤ s.clk.counter + dt →
      reaches (exec (.ptpMessageSend dt p 2) s) fun t =>
        (∃ n, t.egress p FC.time = s.egress p FC.time ++ [frame n (s.ptpMessage p Pm.pdelayReq 0 0
          (((s.ptpPort p).seqPd + 1) % 65536) (logByte (s.reg F.TB_PTP_CTRL2_PDELAY_LOG)) (ptpStamp 0 ++ ptpStamp 0))]) ∧
        (t.ptpPort p).lastPd = s.clk.counter + dt)) ∧
  (∀ (s : State) (dt p : Nat) (f : List Byte) (r : List (List Byte)), s.tidy → (s.fabPort p).lineFree ≤ s.clk.counter + dt →
    s.portOn p = true → s.egress p FC.stop = [] → s.egress p FC.time = f :: r → r.length < 15 → s.tb.stamps.length < 64 →
    let x := (s.elapse dt).txTime
    reaches (exec (.fabEgressDequeue dt p) s) fun t =>
      (s.fab.addrState = .claimed → ptpType (frBody f) = Pm.sync → ∃ n, t.egress p FC.time = r ++ [mkFrame fabBroadcast s.claimedAddr FC.time 0 1 2 n
        (s.ptpMessage p Pm.followUp 0 (fracNs x) (ptpSeq (frBody f)) (logByte (s.act F.TB_PTP_CTRL_SYNC_LOG))
          (ptpStamp (wholeNs x)))]) ∧
      (s.fab.addrState ≠ .claimed → t.egress p FC.time = r) ∧
      (s.fab.addrState = .claimed → ptpType (frBody f) = Pm.pdelayResp → ∃ n, t.egress p FC.time = r ++ [mkFrame fabBroadcast s.claimedAddr FC.time 0 1 2 n
        (s.ptpMessage p Pm.pdelayRespFollowUp 0 (fracNs x) (ptpSeq (frBody f)) 0x7F
          (ptpStamp (wholeNs x) ++ slice (frBody f) 44 10))]) ∧
      (ptpType (frBody f) = Pm.pdelayReq → (t.ptpPort p).pd = some (ptpSeq (frBody f), x, none)) ∧
      t.out = s.out ++ [.fabric p f] ∧
      (ptpType (frBody f) = Pm.sync ∨ ptpType (frBody f) = Pm.pdelayReq ∨ ptpType (frBody f) = Pm.pdelayResp →
        t.tb.stamps = s.tb.stamps ++ [⟨0x20 + p, ptpSeq (frBody f) % 65536, (s.elapse dt).stamp16 0⟩]))

/-- HST_NOP, of opcode 0x0B03, on a descriptor of any ring that may start, whatever its payload and operands, writes its
completion with status OK in the next slot of the ring's completion queue, and the descriptor leaves the device. On an
ordered ring it was the first of its ring, so that no earlier one was still in the device. Nothing changes but the rings,
the journal and what events change. (R386) -/
def Obligations.NopCompletesOk : Prop :=
  ∀ (s : State) (dt ring index : Nat) (d : Desc), s.offers ring index 0x0B03 d →
    reaches (exec (.hstNop dt ring index) s) fun t =>
      (s.elapse dt).answered t [] d St.ok [] ∧ (s.elapse dt).answerOnly t ∧
      (ordered ring = true → ∃ e rest, s.hst.taken.filter (fun x => x.ring = ring) = e :: rest ∧ e.serial = d.serial)

/-- On a timed ring, a cancel whose RING, INDEX and TAG name a pending descriptor completes OK, then the withdrawn descriptor
completes CANCELLED and its launch entry is gone. On ring 1 a cancel that names a pending commit completes CANCELLED and the
commit is gone. A cancel that names no pending entry completes NOT_PENDING, and one of a ring that it may not name BAD_RING.
When the first due host entry names a descriptor, and no commit or periodic entry is due on its tick or before it, the entry
leaves the launch queue and its descriptor becomes ready to start, behind those that fired before it; nothing else changes.
(R98, R99, R101, R373, R375) -/
def Obligations.LaunchEntriesAreWithdrawnAndFire : Prop :=
  (∀ (s : State) (dt ring index : Nat) (d : Desc), s.offers ring index opLaunchCancel d →
     (∀ e ∈ s.hst.taken, 3 ≤ ring → d.operand 0 1 = e.ring → d.operand 2 2 = e.index → d.operand 4 4 = e.tag →
       e.phase = .launched → e.silent = false → 3 ≤ e.ring → e.ring < 64 → (s.ring e.ring).state ≠ .disabled →
       (∀ x ∈ s.hst.taken, x.is e.ring e.index = true → x.phase = .launched → x.tag = e.tag → x = e) →
       reaches (exec (.hstLaunchCancel dt ring index) s) fun t =>
         (∃ pre, (s.elapse dt).answered t pre d St.ok []) ∧
         (∃ a exec' rest ph, .hostWrite a (complBytes e ph false St.cancelled 0 exec' []) :: rest <:+ t.out) ∧
         (∀ x ∈ t.hst.taken, x.serial ≠ e.serial) ∧ (∀ l ∈ t.tb.launches, l.kind ≠ .desc e.serial)) ∧
     (3 ≤ ring → 3 ≤ d.operand 0 1 → d.operand 0 1 < 64 →
       (∀ e ∈ s.hst.taken, e.is (d.operand 0 1) (d.operand 2 2) = true → e.phase = .launched → e.tag ≠ d.operand 4 4) →
       reaches (exec (.hstLaunchCancel dt ring index) s) fun t =>
         (s.elapse dt).answered t [] d St.notPending [] ∧ (s.elapse dt).answerOnly t) ∧
     ((ring = 1 ∧ d.operand 0 1 ≠ 1) ∨ (3 ≤ ring ∧ (d.operand 0 1 < 3 ∨ 64 ≤ d.operand 0 1)) →
       reaches (exec (.hstLaunchCancel dt ring index) s) fun t =>
         (s.elapse dt).answered t [] d St.badRing [] ∧ (s.elapse dt).answerOnly t) ∧
     (ring = 1 → d.operand 0 1 = 1 →
       ∀ l c, l ∈ s.tb.launches → l.kind = .commit c → c.index = d.operand 2 2 → c.tag.toNat = d.operand 4 4 →
       reaches (exec (.hstLaunchCancel dt ring index) s) fun t =>
         (∃ pre, (s.elapse dt).answered t pre d St.cancelled []) ∧ t.tb.launches.length < s.tb.launches.length) ∧
     (ring = 1 → d.operand 0 1 = 1 →
       (∀ l ∈ s.tb.launches, ∀ c, l.kind = .commit c → c.index ≠ d.operand 2 2 ∨ c.tag.toNat ≠ d.operand 4 4) →
       reaches (exec (.hstLaunchCancel dt ring index) s) fun t =>
         (s.elapse dt).answered t [] d St.notPending [] ∧ (s.elapse dt).answerOnly t)) ∧
  (∀ (s : State) (dt n : Nat) (l : Launch), s.pwr.state ≠ .safeHold →
     (s.elapse dt).dueLaunch (fun k => !k.isCommit) = some l → l.kind = .desc n →
     let tick := (s.elapse dt).launchTick l
     (∀ c ∈ s.tb.launches, c.kind.isCommit = true → c.time ≤ (s.elapse dt).now → tick < (s.elapse dt).launchTick c) →
     (∀ p ∈ s.tb.periodic, p.time ≤ (s.elapse dt).now → tick < (s.elapse dt).tickOf p.time) →
     reaches (exec (.launchEntryFire dt) s) fun t =>
       (∀ x ∈ t.tb.launches, x.kind ≠ .desc n) ∧
       t.hst.taken = (s.hst.taken.filter fun d => d.serial ≠ n) ++ (s.hst.taken.filter fun d => d.serial = n).map (fun d =>
         { d with phase := .ready, late := d.late || l.stepped, firedAt := some (s.clk.counter + dt) }) ∧
       t = { s.elapse dt with tb := { s.tb with launches := t.tb.launches }, hst := { s.hst with taken := t.hst.taken } })

/-- When INTERVAL has passed, every enabled ring whose entry holds indices below the ring's size takes SQ_TAIL and CQ_HEAD from
the block; a disabled ring is as before; nothing changes but the Host Interface, the journal, the mark of the poll and what
events change. While a ring may take, a descriptor of 64 bytes that passes steps 1 to 4 is copied whole and joins the taken
ones, SQ_HEAD advances by one modulo the ring's size, and the ring's shadow entry is written with it. Without a launch time,
or on an ordered ring with one, it is ready to start; on a timed ring one with a launch time that has come is ready and
LATE, one with a launch time ahead is pending, with its entry at the end of the launch queue, and where that queue is full
it completes LAUNCH_FULL. One that a check refuses completes with the check's status, after the shadow entry, on a timed
ring and on an ordered ring that holds no other; behind earlier descriptors of an ordered ring it is taken with its status
as its verdict. That a descriptor's slot in the completion queue is counted from its taking is the model's reading (log
entry 17). (R361, R362, R363, R368, R369, R371, R373) -/
def Obligations.DoorbellsMoveTailsAndDescriptorsAreTaken : Prop :=
  (∀ (s : State) (dt : Nat) (b : List Byte), b.length = 1024 → s.hst.fault = false → s.pwr.state ≠ .safeHold →
     (s.elapse dt).due T.doorbell (s.reg F.HST_DB_POLL_INTERVAL * tickUs) = true →
     reaches (exec (.doorbellRead dt b) s) fun t =>
       (∀ n, n < 64 → (s.ring n).state = .disabled → t.ring n = s.ring n) ∧
       (∀ n, n < 64 → (s.ring n).state ≠ .disabled → fieldLE b (16 * n) 2 < s.ringSize n →
         fieldLE b (16 * n + 2) 2 < s.ringSize n →
         (t.ring n).sqTail = fieldLE b (16 * n) 2 ∧ (t.ring n).cqHead = fieldLE b (16 * n + 2) 2) ∧
       ((s.elapse dt).mark T.doorbell).draw.answerOnly t) ∧
  (∀ (s : State) (dt ring : Nat) (b : List Byte), b.length = 64 → s.mayTake ring = true →
     let d : Desc := ⟨s.hst.serial, ring, (s.ring ring).sqHead, b, false, false, none, false, .ready, none, none, false, none⟩
     let shadow : Out := .hostWrite (s.pairBase F.HST_SHADOW_BASE_LO_ADDR 0 + 16 * ring)
       (leBytes 2 (((s.ring ring).sqHead + 1) % s.ringSize ring) ++ leBytes 2 (s.ring ring).cqTail ++
         leBytes 4 (s.ring ring).stateWord ++ leBytes 8 0)
     (s.takeCheck ring d = none → d.launch = 0 ∨ ordered ring = true →
       reaches (exec (.descriptorTake dt ring b) s) fun t =>
         t.hst.taken = s.hst.taken ++ [d] ∧ (t.ring ring).sqHead = ((s.ring ring).sqHead + 1) % s.ringSize ring ∧
         t.out = s.out ++ [shadow] ∧ t = { (s.elapse dt).draw with hst := t.hst, out := t.out }) ∧
     (s.takeCheck ring d = none → ordered ring = false → d.launch ≠ 0 → d.launch ≤ (s.elapse dt).now →
       reaches (exec (.descriptorTake dt ring b) s) fun t =>
         t.hst.taken = s.hst.taken ++ [{ d with late := true }] ∧ t.out = s.out ++ [shadow] ∧
         t = { (s.elapse dt).draw with hst := t.hst, out := t.out }) ∧
     (s.takeCheck ring d = none → ordered ring = false → (s.elapse dt).now < d.launch → s.launchRoom = true →
       reaches (exec (.descriptorTake dt ring b) s) fun t =>
         t.hst.taken = s.hst.taken ++ [{ d with phase := .launched }] ∧
         t.tb.launches = s.tb.launches ++ [⟨d.launch, .desc d.serial, false⟩] ∧ t.out = s.out ++ [shadow] ∧
         t = { (s.elapse dt).draw with hst := t.hst, tb := t.tb, out := t.out }) ∧
     (s.takeCheck ring d = none → ordered ring = false → (s.elapse dt).now < d.launch → s.launchRoom = false →
       reaches (exec (.descriptorTake dt ring b) s) fun t =>
         (s.elapse dt).answered t [shadow] d St.launchFull [] ∧ t.tb = s.tb) ∧
     (∀ st, s.takeCheck ring d = some st → ordered ring = false ∨ s.takenOf ring = [] →
       reaches (exec (.descriptorTake dt ring b) s) fun t => (s.elapse dt).answered t [shadow] d st [] ∧ t.tb = s.tb) ∧
     (∀ st, s.takeCheck ring d = some st → ordered ring = true → s.takenOf ring ≠ [] →
       (s.takenOf ring).head?.bind Desc.verdict = none →
       reaches (exec (.descriptorTake dt ring b) s) fun t =>
         t.hst.taken = s.hst.taken ++ [{ d with verdict := some (st, 0) }] ∧ t.out = s.out ++ [shadow] ∧
         t = { (s.elapse dt).draw with hst := t.hst, out := t.out }))

/-- EN 1 on a ring that may be enabled, in RECOVERY ring 2 alone, makes it RUNNING with SQ_HEAD and CQ_TAIL 0 and PHASE 1; in
RECOVERY its LOG_SIZE then reads 4. EN 0 on a running or halted ring makes it STOPPING, and no descriptor of the ring that
had not started stays in the device. A STOPPING ring with nothing in flight becomes DISABLED. With MOD_COUNT and MOD_TIME
not zero and MOD_TIME × 8 µs past since the oldest uncounted completion, the count returns to zero and the ring's vector is
signalled: as the message of its MSI-X table entry when the vector is not masked, else as a pending bit. With MOD_COUNT or
MOD_TIME zero, or no completion uncounted, only the time passes. The form of the MSI-X table is PCI Express's (PRESUMED, log
entry 11). (R360, R378, R379, R381, R498) -/
def Obligations.RingsAreEnabledDrainedAndModerated : Prop :=
  (∀ (s : State) (dt n : Nat) (v : Word), s.mayEnable n = true → v.getLsbD 0 = true →
    reaches (exec (.ringEnable dt n v) s) fun t =>
      (t.ring n).state = .running ∧ (t.ring n).sqHead = 0 ∧ (t.ring n).cqTail = 0 ∧ (t.ring n).phase = true ∧
      (∀ k, k ≠ n → t.ring k = s.ring k) ∧ (s.pwr.state = .recovery → n = 2) ∧
      (s.tidy → s.pwr.state = .recovery → t.reg F.HST_RING_CTRL_LOG_SIZE n = 4) ∧
      t = { s.elapse dt with hst := { s.hst with rings := t.hst.rings }, out := t.out, direct := t.direct, cfg := t.cfg }) ∧
  (∀ (s : State) (dt n : Nat) (v : Word), n < 64 → v.getLsbD 0 = false → s.pwr.state ≠ .safeHold → s.hst.fault = false →
    ((s.ring n).state = .running ∨ (s.ring n).state = .halted) →
    reaches (exec (.ringDisable dt n v) s) fun t =>
      (t.ring n).state = .stopping ∧ ∀ d ∈ s.takenOf n, s.notStarted d = true → ∀ e ∈ t.hst.taken, e.serial ≠ d.serial) ∧
  (∀ (s : State) (dt n : Nat), s.tidy → (s.ring n).state = .stopping → s.inflight n = 0 →
    reaches (exec (.ringDrained dt n) s) fun t =>
      (t.ring n).state = .disabled ∧ (∀ k, k ≠ n → t.ring k = s.ring k) ∧
      t = { s.elapse dt with hst := { s.hst with rings := t.hst.rings }, out := t.out }) ∧
  (∀ (s : State) (dt n : Nat), s.tidy → (s.ring n).uncounted ≠ 0 → s.reg F.HST_RING_CTRL_MOD_TIME n ≠ 0 →
     s.reg F.HST_RING_CTRL_MOD_COUNT n ≠ 0 →
     (s.ring n).oldestAt + s.reg F.HST_RING_CTRL_MOD_TIME n * 8 * tickUs ≤ s.clk.counter + dt →
     reaches (exec (.hstIrqModTimeout dt n) s) fun t =>
       (t.ring n).uncounted = 0 ∧
       (let v := s.reg F.HST_RING_CTRL_VECTOR n
        if (tget s.hst.msix 1 (4 * v + 3)).getLsbD 0 then t.hst.pba.getLsbD v = decide (v < 64) ∧ t.out = s.out
        else t.out = s.out ++ [.hostWrite ((tget s.hst.msix 0 (4 * v)).toNat + 2 ^ 32 * (tget s.hst.msix 0 (4 * v + 1)).toNat)
            (leBytes 4 (tget s.hst.msix 0 (4 * v + 2)).toNat)] ∧ t.hst.pba = s.hst.pba) ∧
       t = { s.elapse dt with hst := { s.hst with rings := t.hst.rings, pba := t.hst.pba }, out := t.out }) ∧
  (∀ (s : State) (dt n : Nat),
     (s.ring n).uncounted = 0 ∨ s.reg F.HST_RING_CTRL_MOD_TIME n = 0 ∨ s.reg F.HST_RING_CTRL_MOD_COUNT n = 0 →
     exec (.hstIrqModTimeout dt n) s = .next (s.elapse dt))

/-- Every DMA error counts in HST_DMA_ERRORS and sets DMA_ERR. One in a payload of a timed ring's descriptor, or of one under
way, completes it DMA_ERROR with the kind and phase in DETAIL; one in the payload read ahead of an ordered ring's descriptor
that has not had its turn is its verdict; one in the payload write of KEY_WRAP_OUT or KEY_ATTEST that has not had its turn
waits for it with its DETAIL; one in a completion counts in HST_CPL_LOST and halts a running ordered ring; one in a doorbell
read sets DB_FAIL and moves no ring. (R376) -/
def Obligations.DmaErrorsAreCountedAndAnswered : Prop :=
  ∀ (s : State) (dt phase kind ring index : Nat), phase ≤ 5 → 1 ≤ kind → kind ≤ 4 → ring < 64 → s.hst.fault = false →
    s.pwr.state ≠ .safeHold →
    reaches (exec (.pcieDmaError dt phase kind ring index) s) fun t =>
      t.hst.dmaErrors = s.hst.dmaErrors + 1 ∧ t.hst.dmaErr = true ∧
      (phase = 3 → t.hst.cplLost = s.hst.cplLost + 1 ∧
        (ring < 3 → (s.ring ring).state = .running → (t.ring ring).state = .halted ∧ (t.ring ring).haltIndex = index)) ∧
      (phase = 4 → t.hst.dbFail = true ∧ t.hst.rings = s.hst.rings ∧ t.hst.taken = s.hst.taken) ∧
      (phase = 1 ∨ phase = 2 → ∀ d ∈ s.hst.taken, d.is ring index = true → d.phase ≠ .launched →
        (∀ e ∈ s.hst.taken, e.is ring index = true → e.phase ≠ .launched → e = d) →
        (3 ≤ ring ∨ d.phase = .waiting → d.silent = false → (s.ring ring).state ≠ .disabled →
          (s.elapse dt).answered t [] d St.dmaError [] (kind + 16 * phase)) ∧
        (ring < 3 → phase = 1 → d.phase = .ready → d.verdict = none →
          (∀ h, (s.takenOf ring).head? = some h → h.serial ≠ d.serial ∧ h.verdict = none) →
          { d with verdict := some (St.dmaError, kind + 16) } ∈ t.hst.taken) ∧
        (ring < 3 → phase = 2 → d.phase = .ready → d.op = 0x0F06 ∨ d.op = 0x0F07 →
          { d with unwritten := some (kind + 32) } ∈ t.hst.taken))

/-- After a Function Level Reset or a loss of link every ring is DISABLED, no launch entry of a timed ring is pending and those
of commits stand, descriptors that had not started are gone and no other will write a completion, the configuration
registers of the HST page read their reset values, the error counters and sticky bits keep their values, and no other unit
changes but for what the units held of the descriptors gone and what the event changes. After a loss the link reads down;
when it trains it reads the trained link, and the read request size and the completion timeout are those that the host sets,
by the codes of PCI Express (PRESUMED, log entry 63). (R360, R382) -/
def Obligations.ResetOfTheFunction : Prop :=
  (∀ (s : State) (dt : Nat) (down : Bool) (c : Instr), (c = .hstFlr dt ∧ down = false) ∨ (c = .hstLinkDown dt ∧ down = true) →
    reaches (exec c s) fun t =>
      (∀ n, (t.ring n).state = .disabled) ∧ t.tb.launches = s.tb.launches.filter (fun l => l.kind.isCommit) ∧
      (∀ e ∈ t.hst.taken, e.silent = true) ∧
      (∀ d ∈ s.hst.taken, s.notStarted d = true → ∀ e ∈ t.hst.taken, e.serial ≠ d.serial) ∧
      t.direct = s.direct.filter (fun e => e.1 / 4096 ≠ 0xD) ∧
      t.hst.dmaErrors = s.hst.dmaErrors ∧ t.hst.cplLost = s.hst.cplLost ∧ t.hst.dbFail = s.hst.dbFail ∧
      t.hst.dmaErr = s.hst.dmaErr ∧ t.hst.linkUp = (s.hst.linkUp && !down) ∧
      State.eventsOnly { (s.elapse dt).forget ((s.hst.taken.filter s.notStarted).map (·.serial)) with
        hst := t.hst, direct := t.direct, tb := { s.tb with launches := t.tb.launches } } t) ∧
  (∀ (s : State) (dt speed width readReq timeout : Nat), 1 ≤ speed → speed ≤ s.hst.pci.maxSpeed → width = 1 ∨ width = 2 ∨ width = 4 →
    readReq ≤ 5 → timeout ∈ [0, 1, 2, 5, 6, 9, 10] →
    exec (.pcieLinkUp ⟨dt, readReq, timeout⟩ speed width) s =
      .next { (s.elapse dt).draw with hst := { s.hst with
        linkUp := true, speed := speed, width := width
        pci := { s.hst.pci with maxRead := 128 * 2 ^ readReq, timeoutCode := timeout } } })

/-- A rail below its threshold and a fall of PORST_N hold the device in reset; a write of 0xA5A5 to PWR_DEVICE_RESET resets it
too and releases at once. After each the device is in BOOT, the latch is set at STOP by POWER_ON, no unit has an active
configuration, no ring is enabled, the recorder counts one more boot unless the device was held in reset already, and the
fused identity, the counter, the Key Store's records and the flash are as before, and so are the configuration blocks, but
for one whose write was under way with its commit word reached. Any other key changes nothing but the time. With all rails
good POWER_ON_RESET only shows them and notes when the last of them rose. Before 1 ms has passed since then, or with a rail
low, or out of reset, a release changes nothing but the time. After it a device held in reset is released: with
BOOT_RECOVERY_N low it is in RECOVERY, else as it was; the latch stays set; a valid Calendar sets the clock, and without one
it starts from 0. Only the clock, the Timebase's bound, the power state, the sources seen, the boot flags and what events
change differ. That a write to PWR_DEVICE_RESET releases at once, and that a device held in reset is reset once, is the
model's reading (log entry 28), as are the values at reset that the spec does not state (log entry 38) and the blocks of a
write that a reset cuts (log entry 53). (R24, R26, R27, R49, R103, R332, R518, R519) -/
def Obligations.ResetLeavesBootAndItsReleaseSeedsTheClock : Prop :=
  (∀ (s : State) (dt cause : Nat) (c : Instr),
    (∃ good vbat, c = .powerOnReset dt good vbat ∧ good ≠ 0x3FF ∧ cause = 0) ∨ (c = .porstNFall dt ∧ cause = 1) ∨
      (∃ v : Word, c = .pwrDeviceReset dt v ∧ v.toNat % 65536 = 0xA5A5 ∧ s.pwr.inReset = false ∧ cause = 2) →
    reaches (exec c s) fun t =>
      t.pwr.inReset = decide (cause ≠ 2) ∧ t.pwr.resetCause = (if s.pwr.inReset then min s.pwr.resetCause cause else cause) ∧
      t.crn.boot = (if s.pwr.inReset then s.crn.boot else s.crn.boot + 1) ∧ t.pwr.state = .boot ∧ t.stp.latched = true ∧
      t.stp.stop = true ∧ t.stp.source = 1 ∧ t.stp.count = 1 ∧ t.stp.enabled = 0 ∧ t.cfg = Cfg.reset ∧ t.direct = [] ∧
      t.hst = { Hst.reset with pci := PciConfig.reset s.id.part.code s.id.revision } ∧ t.id = s.id ∧ t.clk.counter = s.clk.counter + dt ∧ t.key.slots = s.key.slots ∧
      t.nvm.store = (s.elapse dt).settledStore ∧ t.boot.flash = s.boot.flash ∧ t.pending = s.pending) ∧
  (∀ (s : State) (dt : Nat) (v : Word), v.toNat % 65536 ≠ 0xA5A5 → exec (.pwrDeviceReset dt v) s = .next (s.elapse dt)) ∧
  (∀ (s : State) (dt : Nat) (vbat : Bool),
    exec (.powerOnReset dt 0x3FF vbat) s =
      .next { s.elapse dt with pwr := { s.pwr with
        good := 0x3FF, goodAt := if s.pwr.good ≠ 0x3FF then s.clk.counter + dt else s.pwr.goodAt } }) ∧
  (∀ (s : State) (dt : Nat) (low : Bool),
    s.pwr.inReset = false ∨ s.pwr.good ≠ 0x3FF ∨ s.clk.counter + dt < s.pwr.goodAt + tickMs →
    exec (.resetRelease dt low) s = .next (s.elapse dt)) ∧
  (∀ (s : State) (dt : Nat) (low : Bool), s.pwr.inReset = true → s.pwr.good = 0x3FF → s.pwr.goodAt + tickMs ≤ s.clk.counter + dt →
     reaches (exec (.resetRelease dt low) s) fun t =>
       t.pwr.inReset = false ∧ t.pwr.recoveryPin = low ∧ t.pwr.state = (if low then .recovery else s.pwr.state) ∧
       t.stp.latched = s.stp.latched ∧
       t.clk.t48 = (if s.cal.valid then (s.elapse dt).cal.count * 3906250 * 2 ^ 41 else 0) ∧
       State.eventsOnly { s.elapse dt with
         pwr := t.pwr, stp := { s.stp with seen := t.stp.seen }, clk := { (s.elapse dt).clk with t48 := t.clk.t48 }
         tb := { s.tb with errEst := t.tb.errEst }
         boot := { s.boot with failA := t.boot.failA, failB := t.boot.failB } } t)

/-- A filtered fall of PFAIL_N outside reset, with the pin high before it, sets PFAIL, stops new NV writes, requests the class
of PFAIL_CLASS from the latch when the source is enabled and leaves the latch's class alone when it is not, and starts a
flush unless the recorder has failed; so does one that comes while PFAIL still stands after a short rise. While the pin is
low already a fall changes nothing but the time. Once PFAIL_N has been high for 100 ms, NV writes resume and only
PWR_PFAIL_CLEAR's effects follow; before that a clear changes nothing but the time. For how long the pin stays low comes
with the fall (log entry 29), and a request of the same tick belongs to the same stage (log entry 67). (R335, R510, R520,
R521) -/
def Obligations.PowerFailStopsAndFlushes : Prop :=
  (∀ (s : State) (dt low : Nat), s.pwr.pfailUntil ≤ s.clk.counter + dt → s.pwr.inReset = false →
    reaches (exec (.pfailFall ⟨dt, low⟩) s) fun t =>
      t.pwr.pfail = true ∧ t.pwr.nvStopped = true ∧ t.pwr.pfailUntil = s.clk.counter + dt + low ∧ (s.crn.fault = false → t.crn.flushing = true) ∧
      (s.stopSource F.STP_SRC_PFAIL = true → Stp.requested s.stp t.stp (s.clk.counter + dt) 9 (s.act F.STP_SRC_PFAIL_CLASS = 1)) ∧
      (s.stopSource F.STP_SRC_PFAIL = false → t.stp = s.stp)) ∧
  (∀ (s : State) (dt low : Nat), s.clk.counter + dt < s.pwr.pfailUntil →
    exec (.pfailFall ⟨dt, low⟩) s = .next (s.elapse dt)) ∧
  (∀ (s : State) (dt : Nat), s.pwr.pfail = true → s.pwr.inReset = false →
    s.pwr.pfailUntil + 100 * tickMs ≤ s.clk.counter + dt →
    reaches (exec (.pfailClear dt) s) fun t =>
      t.pwr = { s.pwr with pfail := false, nvStopped := false } ∧ State.eventsOnly { s.elapse dt with pwr := t.pwr } t) ∧
  (∀ (s : State) (dt : Nat), s.pwr.pfail = false ∨ s.clk.counter + dt < s.pwr.pfailUntil + 100 * tickMs →
    exec (.pfailClear dt) s = .next (s.elapse dt))

/-- A stage sample shows in STAGE and MAX, sets SLOW when it rises above 950 ps, and starts, keeps or ends the time above 1,200
ps. A temperature sample shows in TJ and MAX, and HOT is set above HOT_THRESH, cleared 5 °C below it and kept between. The
backup domain changes its supply, VBAT_LOW follows, and the Calendar keeps its time. (R20, R523, R531) -/
def Obligations.SensorsAndSupplyAreReported : Prop :=
  (∀ (s : State) (dt ps : Nat), s.pwr.inReset = false → (s.elapse dt).due T.stageMon (10 * tickUs) = true → ps ≤ 4095 →
    reaches (exec (.stageMonSample dt ps) s) fun t =>
      t.pwr = { s.pwr with
        stage := ps, stageMax := max s.pwr.stageMax ps, slow := s.pwr.slow || (decide (950 < ps) && decide (s.pwr.stage ≤ 950))
        slowSince := if ps ≤ 1200 then none else some (s.pwr.slowSince.getD (s.clk.counter + dt)) } ∧
      State.eventsOnly { (s.elapse dt).mark T.stageMon with pwr := t.pwr } t) ∧
  (∀ (s : State) (dt : Nat) (tj : Int), s.pwr.inReset = false → -2048 ≤ tj → tj ≤ 2047 →
    reaches (exec (.pwrTempSample dt tj) s) fun t =>
      t.pwr.tj = tj ∧ t.pwr.tjMax = max s.pwr.tjMax tj ∧
      (8 * (s.reg F.PWR_THERM_HOT_THRESH : Int) < tj → t.pwr.hot = true) ∧
      (tj ≤ 8 * (s.reg F.PWR_THERM_HOT_THRESH : Int) - 40 → t.pwr.hot = false) ∧
      (tj ≤ 8 * (s.reg F.PWR_THERM_HOT_THRESH : Int) → 8 * (s.reg F.PWR_THERM_HOT_THRESH : Int) - 40 < tj →
        t.pwr.hot = s.pwr.hot) ∧
      State.eventsOnly { s.elapse dt with pwr := t.pwr } t) ∧
  (∀ (s : State) (dt : Nat) (onVbat low : Bool) (lv : BitVec 4),
    exec (.backupSupplySwitch dt ⟨onVbat, low⟩ lv) s = .next { s.elapse dt with
      pwr := { s.pwr with onVbat := onVbat }, cal := { (s.elapse dt).cal with inputs := lv, vbatLow := low } })

/-- In WAIT_HOST or RUN, with no cause noted, a stage time above 1.20 ns for 1 ms, a failure of the die link, a fault of the
security core and an output whose read-back differs bring the device to SAFE_HOLD with the cause's code; the latch takes a
request of PAUSE from FATAL, no descriptor stays taken, no launch entry and no alarm stays, no release is armed, and the
configuration is as before; where CFG_STATUS still shows a commit as BUSY, the active configuration is again the one before
that commit, which reads ABANDONED. A request of the same tick belongs to the same stage (log entry 67). (R20, R25, R28,
R102, R348) -/
def Obligations.FatalCausesHoldTheDeviceSafe : Prop :=
  ∀ (s : State) (dt cause : Nat) (c : Instr), s.pwr.state = .waitHost ∨ s.pwr.state = .run → s.pwr.inReset = false →
    s.pwr.causes = 0 →
    (c = .stageSlowFatal dt ∧ cause = 4 ∧ (∃ a, s.pwr.slowSince = some a ∧ a + tickMs ≤ s.clk.counter + dt)) ∨
      (c = .dieLinkFail dt ∧ cause = 5) ∨ ((∃ b, c = .stpOutMismatch dt b) ∧ cause = 6) ∨ (c = .securityCoreFault dt ∧ cause = 7) →
    reaches (exec c s) fun t =>
      t.pwr.state = .safeHold ∧ t.pwr.fatal = cause ∧ Stp.requested s.stp t.stp (s.clk.counter + dt) 11 false ∧ t.hst.taken = [] ∧
      t.tb.launches = [] ∧ t.tb.periodic = [] ∧ t.tb.alarms = [] ∧ t.stp.armed = none ∧
      (s.undo = none ∨ s.cfg.busyUntil ≤ s.clk.counter + dt → t.cfg = s.cfg) ∧
      (∀ u, s.undo = some u → s.clk.counter + dt < s.cfg.busyUntil →
        t.cfg = { s.cfg with
          active := u.active, units := u.units, generation := u.generation, busyUntil := s.clk.counter + dt
          result := 3, reason := Rf.abandoned, ruleId := 0 })

/-- Whatever command takes effect in whatever state: a latch that was set and is clear afterwards was cleared by STP_CONFIRM in
RUN; a latch that stays set at STOP stays at STOP; a machine whose re-enable bit comes to be set was re-enabled by
STP_RE_ENABLE with the latch clear. (R332, R333, R350, R351) -/
def Obligations.StopLatchOpensOnlyByConfirm : Prop :=
  ∀ (c : Instr) (s t : State), exec c s = .next t →
    (s.stp.latched = true → t.stp.latched = false → s.pwr.state = .run ∧ ∃ dt r i, c = .stpConfirm dt r i) ∧
    (s.stp.latched = true → s.stp.stop = true → t.stp.latched = true → t.stp.stop = true) ∧
    (∀ w, s.stp.enabled.getLsbD w = false → t.stp.enabled.getLsbD w = true →
      s.stp.latched = false ∧ ∃ dt r i, c = .stpReEnable dt r i)

/-- A filtered pin that comes to show stop outside reset requests STOP from PIN_A or PIN_B, and one that comes to show run
changes only the pins. STP_STOP of a class requests that class from RING and completes OK; every request disarms a release.
That a request of the same tick belongs to the same stage is log entry 67, that a PAUSE under a latch at STOP completes OK
is log entry 47, and that a pin with the level that it has changes nothing but the time is log entry 1. (R332, R333, R335,
R336, R344, R357) -/
def Obligations.StopPinsAndRingLatch : Prop :=
  (∀ (s : State) (dt : Nat) (b : Bool), s.pwr.inReset = false → (if b then s.stp.pinB else s.stp.pinA) = false →
    reaches (exec (.stopInEdge dt b true) s) fun t =>
      (if b then t.stp.pinB else t.stp.pinA) = true ∧ Stp.requested s.stp t.stp (s.clk.counter + dt) (if b then 3 else 2) true) ∧
  (∀ (s : State) (dt : Nat) (b : Bool), (if b then s.stp.pinB else s.stp.pinA) = true →
    reaches (exec (.stopInEdge dt b false) s) fun t =>
      (if b then t.stp.pinB else t.stp.pinA) = false ∧ t = { s.elapse dt with stp :=
        { s.stp with pinA := t.stp.pinA, pinB := t.stp.pinB, disagreeAt := t.stp.disagreeAt } }) ∧
  (∀ (s : State) (dt : Nat) (b level : Bool), (if b then s.stp.pinB else s.stp.pinA) = level →
    exec (.stopInEdge dt b level) s = .next (s.elapse dt)) ∧
  (∀ (s : State) (dt ring index : Nat) (d : Desc), s.offers ring index opStpStop d → d.operand 0 1 ≤ 1 →
    reaches (exec (.stpStop dt ring index) s) fun t =>
      Stp.requested s.stp t.stp (s.clk.counter + dt) 4 (d.operand 0 1 = 1) ∧ (s.elapse dt).replies t d St.ok [])

/-- Pins that have disagreed for DISAGREE ms outside reset set PIN_FAULT. With SELFTEST.EN a running output with a sound pad
whose PERIOD has passed is driven to its stopped level and the test starts its period anew. When PULSE µs have passed the
pulse ends and TESTS counts a good read-back; a read-back that did not follow a pulse longer than 30 µs brings SAFE_HOLD
with STOP_SELFTEST. Otherwise nothing changes but what the event of the pin fault changes. That the period counts from the
start of a pulse and a pin fault is raised once for each disagreement is the model's reading (log entry 47); what the read-
back showed comes with the command (log entry 61). (R337, R347, R348) -/
def Obligations.PinFaultAndOutputTest : Prop :=
  (∀ (s : State) (dt a : Nat), s.stp.disagreeAt = some a → s.pwr.inReset = false →
    a + s.reg F.STP_PIN_DISAGREE * tickMs ≤ s.clk.counter + dt →
    reaches (exec (.stpPinFault dt) s) fun t =>
      t.stp = { s.stp with pinFault := true, disagreeAt := none } ∧ State.eventsOnly { s.elapse dt with stp := t.stp } t) ∧
  (∀ (s : State) (dt : Nat) (b : Bool), s.reg F.STP_SELFTEST_EN ≠ 0 → s.outStopped b = false →
    s.tested b + s.reg F.STP_SELFTEST_PERIOD * tickS ≤ s.clk.counter + dt →
    (if b then s.stp.padB else s.stp.padA) = none →
    reaches (exec (.stpSelftestPulse dt b) s) fun t =>
      t.pulse b = some (s.clk.counter + dt) ∧ t.tested b = s.clk.counter + dt ∧ t.outStopped b = true ∧
      t.outStopped (!b) = s.outStopped (!b) ∧ (if b then t.stp.readB else t.stp.readA) = true ∧
      t = { s.elapse dt with stp := t.stp }) ∧
  (∀ (s : State) (dt a : Nat) (b good : Bool), s.pulse b = some a →
    a + s.reg F.STP_SELFTEST_PULSE * tickUs ≤ s.clk.counter + dt →
    reaches (exec (.stpSelftestPulseEnd dt b good) s) fun t =>
      t.pulse b = none ∧ t.stp.tests = (if good then s.stp.tests + 1 else s.stp.tests) ∧
      (good = true ∨ s.reg F.STP_SELFTEST_PULSE ≤ 30 →
        t.stp.latched = s.stp.latched ∧ t = { s.elapse dt with stp := t.stp }) ∧
      (good = false → 30 < s.reg F.STP_SELFTEST_PULSE → s.pwr.state = .run → s.pwr.causes = 0 →
        t.pwr.state = .safeHold ∧ t.pwr.fatal = 6))

/-- An ARM with the device in RUN, the latch set, both pins at run and no pin fault (or one it clears) arms the release now and
completes OK. A CONFIRM from GAP ms to WINDOW s after it clears the latch and ARMED and completes OK, and the stop frames
held ready follow. One that fails a check completes with the first failing check's status, and the latch stands. At the end
of WINDOW only ARMED is cleared. (R349, R350, R29) -/
def Obligations.ReleaseNeedsArmAndConfirm : Prop :=
  (∀ (s : State) (dt ring index : Nat) (d : Desc), s.offers ring index opStpArm d →
    let clear := bit (d.operand 0 1) 0
    (s.pwr.state = .run → s.stp.latched = true → s.stp.pinA = false → s.stp.pinB = false →
      (s.stp.pinFault = false ∨ clear = true) →
      reaches (exec (.stpArm dt ring index) s) fun t =>
        t.stp = { s.stp with armed := some (s.clk.counter + dt), pinFault := s.stp.pinFault && !clear } ∧
        (s.elapse dt).answered t [] d St.ok [] ∧ State.answerOnly { s.elapse dt with stp := t.stp } t) ∧
    (∀ st, st = (if s.pwr.state ≠ .run then St.state else if s.stp.latched = false then St.notLatched else St.pins) →
      (s.pwr.state ≠ .run ∨ s.stp.latched = false ∨ s.stp.pinA = true ∨ s.stp.pinB = true ∨
        (s.stp.pinFault = true ∧ clear = false)) →
      reaches (exec (.stpArm dt ring index) s) fun t =>
        (s.elapse dt).answered t [] d st [] ∧ (s.elapse dt).answerOnly t)) ∧
  (∀ (s : State) (dt ring index a : Nat) (d : Desc), s.offers ring index opStpConfirm d → s.pwr.state = .run →
    s.stp.latched = true → s.stp.armed = some a →
    let early := s.clk.counter + dt < a + s.reg F.STP_RELEASE_GAP * tickMs
    let late := a + s.reg F.STP_RELEASE_WINDOW * tickS < s.clk.counter + dt
    (¬ early → ¬ late → s.stp.pinA = false → s.stp.pinB = false → s.stp.pinFault = false →
      reaches (exec (.stpConfirm dt ring index) s) fun t =>
        t.stp.latched = false ∧ t.stp.armed = none ∧ t.stp.enabled = s.stp.enabled ∧
        (s.elapse dt).answered t [] d St.ok [] ∧ State.answerOnly { s.elapse dt with
          stp := t.stp, hop := { s.hop with ports := t.hop.ports }, fab := { s.fab with held := t.fab.held } } t) ∧
    (early ∨ late ∨ s.stp.pinA = true ∨ s.stp.pinB = true ∨ s.stp.pinFault = true →
      reaches (exec (.stpConfirm dt ring index) s) fun t =>
        t.stp = { s.stp with armed := none } ∧
        (s.elapse dt).answered t [] d (if early then St.tooSoon else if late then St.armExpired else St.pins) [])) ∧
  (∀ (s : State) (dt a : Nat), s.stp.armed = some a → a + s.reg F.STP_RELEASE_WINDOW * tickS ≤ s.clk.counter + dt →
    exec (.stpArmExpired dt) s = .next { s.elapse dt with stp := { s.stp with armed := none } })

/-- In RUN with the latch clear, STP_RE_ENABLE of one JOINED machine sets its bit, leaves every other machine's, forgets that
its link was lost, and completes OK with COUNT 1; with ALL and a class that is not STOP it sets the bit of every joined
machine and no other's, and COUNT is their number; with ALL and the class at STOP it completes CLASS_STOP, with the latch
set LATCHED, and of a machine that is not joined NOT_JOINED, and no bit changes. (R351, R353, R357) -/
def Obligations.ReEnableSetsTheMachinesBit : Prop :=
  ∀ (s : State) (dt ring index : Nat) (d : Desc), s.offers ring index opStpReEnable d → s.pwr.state = .run →
    (s.stp.latched = false → bit (d.operand 1 1) 0 = false → s.joined (d.operand 0 1) = true →
      reaches (exec (.stpReEnable dt ring index) s) fun t =>
        t.stp.enabled.getLsbD (d.operand 0 1) = true ∧
        (∀ w, w ≠ d.operand 0 1 → t.stp.enabled.getLsbD w = s.stp.enabled.getLsbD w) ∧
        t.stp.lostSince.getLsbD (d.operand 0 1) = false ∧ (s.elapse dt).replies t d St.ok (leBytes 2 1)) ∧
    (s.stp.latched = true ∨ (bit (d.operand 1 1) 0 = false ∧ s.joined (d.operand 0 1) = false) →
      reaches (exec (.stpReEnable dt ring index) s) fun t =>
        t.stp = s.stp ∧ (s.elapse dt).answered t [] d (if s.stp.latched then St.latched else St.notJoined) []) ∧
    (s.stp.latched = false → bit (d.operand 1 1) 0 = true → s.stp.stop = false →
      reaches (exec (.stpReEnable dt ring index) s) fun t =>
        (∀ w, t.stp.enabled.getLsbD w = (s.stp.enabled.getLsbD w || (decide (w < s.machines) && s.joined w))) ∧
        (∀ w, w < s.machines → s.joined w = true → t.stp.lostSince.getLsbD w = false) ∧
        (s.elapse dt).replies t d St.ok (leBytes 2 ((List.range s.machines).filter s.joined).length)) ∧
    (s.stp.latched = false → bit (d.operand 1 1) 0 = true → s.stp.stop = true →
      reaches (exec (.stpReEnable dt ring index) s) fun t =>
        t.stp = s.stp ∧ (s.elapse dt).answered t [] d St.classStop [])

/-- Outside reset and without a recorder fault, CRN_RECORD_WRITE takes the oldest queued event out, and with a free buffer slot
the buffer holds the event's record with the SEQ it was given, its CRC, and not yet flushed, and SEQ counts up by one; an
event that asks for a flush, or SAFE_HOLD, starts one; beside what a flush that runs has written by now, nothing but the
recorder changes. CRN_FLUSH starts the flush, or joins the one running, and waits; a record's severity that asked for a
flush starts one by itself; at its end the flush leaves every record of the buffer flushed, no flush running, and no
CRN_FLUSH waiting. When the flush ends, and which blocks fail their read-back, comes with the command (log entry 44). (R504,
R505, R507, R509, R510) -/
def Obligations.EventsBecomeRecordsAndAreFlushed : Prop :=
  (∀ (s : State) (dt i : Nat) (e : QEvent) (rest : List QEvent), s.crn.fault = false → s.pwr.inReset = false →
     (s.elapse dt).settleFlush.crn.queue = e :: rest → i < 819 → tfind (s.elapse dt).settleFlush.crn.buf i = none →
     let u := (s.elapse dt).settleFlush
     reaches (exec (.crnRecordWrite dt) s) fun t =>
       t.crn.queue = rest ∧ t.crn.seq = u.crn.seq + 1 ∧ t.crn.overwritten = u.crn.overwritten ∧
       (∃ k, k < 819 ∧ tfind u.crn.buf k = none ∧
         tfind t.crn.buf k = some (Record.make u.crn.seq.toNat e.severity (u.recordBytes e)) ∧
         ∀ j, j ≠ k → tfind t.crn.buf j = tfind u.crn.buf j) ∧
       (e.flush = true ∨ s.pwr.state = .safeHold → t.crn.flushing = true) ∧
       t = { u with crn := t.crn } ∧ (s.crn.flushing = false → u = s.elapse dt)) ∧
  (∀ (s : State) (dt ring index : Nat) (d : Desc), s.offers ring index opCrnFlush d → s.crn.fault = false →
    reaches (exec (.crnFlush dt ring index) s) fun t =>
      t.crn.flushing = true ∧ { d with phase := .waiting, execAt := some (s.elapse dt).now } ∈ t.hst.taken ∧
      t = { s.elapse dt with
        hst := { s.hst with taken := t.hst.taken }
        crn := { s.crn with
          flushing := true, wantAt := none, flushAt := if s.crn.flushing then s.crn.flushAt else s.clk.counter + dt } }) ∧
  (∀ (s : State) (dt a : Nat), s.crn.fault = false → s.pwr.inReset = false → s.crn.flushing = false → s.crn.wantAt = some a →
    reaches (exec (.crnFlushAuto dt) s) fun t =>
      t.crn = { s.crn with flushing := true, wantAt := none, flushAt := s.clk.counter + dt } ∧
      t = { s.elapse dt with crn := t.crn, timers := t.timers }) ∧
  (∀ (s : State) (dt : Nat) (bad : List Nat), s.tidy → s.crn.fault = false → s.pwr.inReset = false → s.crn.flushing = true →
    reaches (exec (.crnFlushDone ⟨dt, bad⟩) s) fun t =>
      t.crn.flushing = false ∧ (∀ e ∈ t.crn.buf, e.2.flushed = true) ∧
      ∀ d ∈ t.hst.taken, ¬ (d.op = opCrnFlush ∧ d.phase = .waiting))

/-- CRN_READ copies the records of the chosen store from FROM_SEQ on with the severity asked for, in SEQ order, and when all fit
completes OK with their number and the SEQ after the last; when only some fit it copies those and completes MORE with their
number and the SEQ of the next, and when none fits it completes LENGTH with that SEQ. A flush that runs has first written
what it has by now. CRN_ERASE with its key empties the NV log, sets BOOT to 0 and completes OK; without the key it completes
BAD_DESC and erases nothing. (R504, R514) -/
def Obligations.RecordsAreReadAndErased : Prop :=
  (∀ (s : State) (dt ring index : Nat) (d : Desc) (r : Record) (l : List Record), s.offers ring index opCrnRead d →
    s.crn.fault = false → d.operand 0 1 ≤ 1 →
    let u := (s.elapse dt).settleFlush
    sortBy (fun r => r.seq) (((if d.operand 0 1 = 0 then u.crn.buf else u.nvLog).map fun e => e.2).filter fun r =>
      decide (d.operand 4 4 ≤ r.seq) && decide (d.operand 1 1 ≤ r.severity)) = l ++ [r] →
    ((l ++ [r]).map fun r => r.bytes.length).sum ≤ d.len → d.len ≠ 0 → r.bytes ≠ [] →
    reaches (exec (.crnRead dt ring index) s) fun t =>
      u.answered t [.hostWrite d.addr ((l ++ [r]).map fun r => r.bytes).flatten] d St.ok
        (leBytes 2 (l.length + 1) ++ leBytes 2 0 ++ leBytes 4 (r.seq + 1)) ∧ u.answerOnly t ∧
      (s.crn.flushing = false → u = s.elapse dt)) ∧
  (∀ (s : State) (dt ring index : Nat) (d : Desc) (r : Record) (l rest : List Record), s.offers ring index opCrnRead d →
    s.crn.fault = false → d.operand 0 1 ≤ 1 →
    let u := (s.elapse dt).settleFlush
    sortBy (fun r => r.seq) (((if d.operand 0 1 = 0 then u.crn.buf else u.nvLog).map fun e => e.2).filter fun r =>
      decide (d.operand 4 4 ≤ r.seq) && decide (d.operand 1 1 ≤ r.severity)) = l ++ r :: rest →
    (l.map fun r => r.bytes.length).sum ≤ d.len → d.len < (l.map fun r => r.bytes.length).sum + r.bytes.length → d.len ≠ 0 →
    (∀ e ∈ l, e.bytes ≠ []) →
    reaches (exec (.crnRead dt ring index) s) fun t =>
      u.answered t (if l = [] then [] else [.hostWrite d.addr (l.map fun r => r.bytes).flatten]) d
        (if l = [] then St.length else St.more) (leBytes 2 l.length ++ leBytes 2 0 ++ leBytes 4 r.seq) ∧ u.answerOnly t) ∧
  (∀ (s : State) (dt ring index : Nat) (d : Desc), s.offers ring index opCrnErase d → s.crn.fault = false →
    (d.operand 0 1 = 0xC7 → reaches (exec (.crnErase dt ring index) s) fun t =>
      let u := (s.elapse dt).settleFlush
      t.crn.nv = [] ∧ t.crn.boot = 0 ∧ u.answered t [] d St.ok [] ∧
      State.answerOnly { u with crn := { u.crn with nv := [], boot := 0 } } t) ∧
    (d.operand 0 1 ≠ 0xC7 → reaches (exec (.crnErase dt ring index) s) fun t =>
      t.crn.nv = s.crn.nv ∧ (s.elapse dt).answered t [] d St.badDesc []))

/-- From machine mode, START of another FREE thread with an affinity makes it READY or RUNNING at its entry with its argument
and stack pointer; SUSPEND of another READY, RUNNING or WAITING thread makes it SUSPENDED; RESUME of another SUSPENDED
thread makes it READY or RUNNING; KILL of another thread makes it FREE with its dcfg fields kept. The running thread's pc
moves on by 4, dsel of its core holds the thread that the command names, and nothing changes but the Dispatcher and what
events change. A thread that START or RESUME makes READY runs on the lowest idle core of its affinity; with none idle, on
the core whose thread has the greatest PRIO above its own, the lowest such core, and that thread is READY or RUNNING
elsewhere; else it is the last of the ready list of its PRIO and every core runs what it ran. With the trace on for an idle
core that it takes, the change is a record of 16 bytes at the write offset, with the time, the core, the reason and the
threads, where the buffer has room, and else counts in DROPS and sets OVERFLOW. That dsel and the three start values come
with the command is log entry 16; a trace buffer in DRAM that has failed or waits is log entry 85. (R429, R432, R433, R435,
R443, R444) -/
def Obligations.ThreadControlMovesStates : Prop :=
  ∀ (s : State) (dt core k n : Nat) (entry arg sp : Word), s.tidy → s.scheduled → s.machineThread core k → n < 512 → n ≠ k →
    (∀ (c : Instr) (t : State), (c = .dctlStart dt core n entry arg sp ∨ c = .dctlSuspend dt core n ∨
        c = .dctlResume dt core n ∨ c = .dctlKill dt core n) → exec c s = .next t →
      (t.thread k).pc = (s.thread k).pc + 4 ∧ tget t.dis.dsel 0 core = n ∧
      State.eventsOnly { s.elapse dt with dis := t.dis } t) ∧
    ((s.thread n).state = .free → (s.thread n).affinity ≠ 0 →
      reaches (exec (.dctlStart dt core n entry arg sp) s) fun t =>
        t.active n ∧ (t.thread n).pc = entry ∧ tget (t.thread n).x 0 2 = sp ∧ tget (t.thread n).x 0 10 = arg ∧
        (t.thread n).user = (s.thread n).umode ∧ (t.thread n).prio = (s.thread n).prio ∧
        (t.thread n).entry = entry ∧ (t.thread n).arg = arg ∧ (t.thread n).sp = sp) ∧
    ((s.thread n).state ≠ .free → reaches (exec (.dctlSuspend dt core n) s) fun t => (t.thread n).state = .suspended) ∧
    ((s.thread n).state = .suspended → reaches (exec (.dctlResume dt core n) s) fun t => t.active n) ∧
    (reaches (exec (.dctlKill dt core n) s) fun t =>
      (t.thread n).state = .free ∧ (t.thread n).prio = (s.thread n).prio ∧ (t.thread n).affinity = (s.thread n).affinity) ∧
    (∀ cmd : Instr, s.dis.fault = false → s.calm →
      (cmd = .dctlStart dt core n entry arg sp ∧ (s.thread n).state = .free ∧ (s.thread n).affinity ≠ 0) ∨
        (cmd = .dctlResume dt core n ∧ (s.thread n).state = .suspended) →
      (∀ c ∈ s.coresOf n, s.running c = none → (∀ j ∈ s.coresOf n, j < c → s.running j ≠ none) →
        reaches (exec cmd s) fun t => t.running c = some n ∧ ∀ j, j ≠ c → t.running j = s.running j) ∧
      (∀ c r, c ∈ s.coresOf n → s.running c = some r → (s.thread n).prio < (s.thread r).prio →
        (∀ j ∈ s.coresOf n, ∃ q, s.running j = some q ∧ (s.thread q).prio ≤ (s.thread r).prio ∧
          (j < c → (s.thread q).prio < (s.thread r).prio)) →
        reaches (exec cmd s) fun t => t.running c = some n ∧ t.active r) ∧
      ((∀ j ∈ s.coresOf n, ∃ q, s.running j = some q ∧ (s.thread q).prio ≤ (s.thread n).prio) →
        reaches (exec cmd s) fun t =>
          t.readyList (s.thread n).prio = s.readyList (s.thread n).prio ++ [n] ∧ (t.thread n).state = .ready ∧
          ∀ j, t.running j = s.running j)) ∧
    (s.dis.fault = false → s.calm → (s.thread n).state = .suspended → s.unitOn U.dis = true → s.act F.DIS_CTRL_TRACE_EN = 1 →
      ∀ c ∈ s.coresOf n, s.running c = none → (∀ j ∈ s.coresOf n, j < c → s.running j ≠ none) →
      bit (s.reg F.DIS_TRACE_CTRL_CORES) c = true →
      let size := 65536 * s.act F.DIS_TRACE_SIZE_SIZE
      let room := bufNext size s.dis.traceWr (s.reg F.DIS_TRACE_RD_OFFSET) 16
      s.dis.traceWr < size →
      (∀ w, room = some w → s.memoriesCanonical → s.mem.ready = true → s.mem.trainFail = false → s.mem.bad = [] →
        reaches (exec (.dctlResume dt core n) s) fun t =>
          t.dis.traceWr = w ∧ readMem t.mem.dram memFill (4096 * s.act F.DIS_TRACE_BASE_FRAME + s.dis.traceWr) 16 =
            leBytes 8 (s.elapse dt).now ++ leBytes 4 (c + 16 * 5 + 256 * 0x1FF + 2 ^ 17 * n) ++ leBytes 4 0x3FFFFF) ∧
      (room = none → reaches (exec (.dctlResume dt core n) s) fun t =>
        t.dis.traceDrops = min 0xFFFF (s.dis.traceDrops + 1) ∧ t.dis.traceOvf = true ∧ t.mem.dram = s.mem.dram))

/-- From machine mode, a dcfg write gives another thread that is not READY or RUNNING the PRIO, UMODE and AFFINITY of the value
and leaves its state; a dcinv write empties the core's data cache and counts one invalidation. The running thread's pc moves
on by 4, dsel holds the thread that dcfg names, and nothing else changes. In user mode, each of dctl, dcfg and dcinv traps
on its core: mepc is the instruction's address, mcause 2, the pc the core's mtvec without its low bits, the mode machine,
and no other thread and nothing else changes but the time, the trapped thread's status and the draw of the free value of
mtval. With no command waiting, the core of a thread in machine mode runs its next instruction: an operation writes its
result to rd and moves on by 4; a load from the dual-port region writes what stands there, and a store writes its bytes
there and nothing else; an AMO returns the old word and stores the new one; a store-conditional without a reservation stores
nothing and returns 1; a load or store of an address in no region, an AMO of a register, and an access to a word with an
uncorrectable error trap as access faults, the last counted with its address; ECALL traps with 11; and a fetch in user mode
without a PMP entry traps with 1. That dsel comes with the command is log entry 16; the trap's registers and the free mtval
are log entry 15; the instructions, the PMP and the causes are the published standard's (log entry 60); one instruction for
each empty step is log entry 36. (R427, R428, R429, R432, R433, R435, R448) -/
def Obligations.ThreadSettingsNeedMachineMode : Prop :=
  (∀ (s : State) (dt core k : Nat), s.tidy → s.machineThread core k → s.dis.traceEv = 0 → s.mem.failed = 0 →
     (∀ (n : Nat) (v : Word), n < 512 → n ≠ k → ¬ s.active n →
       reaches (exec (.dcfgWrite dt core n v) s) fun t =>
         t.thread n = { s.thread n with prio := bits v.toNat 0 5, umode := v.getLsbD 5, affinity := BitVec.ofNat 12 (bits v.toNat 6 12) } ∧
         t.thread k = { s.thread k with pc := (s.thread k).pc + 4 } ∧
         (∀ j, j ≠ n → j ≠ k → t.thread j = s.thread j) ∧
         tget t.dis.dsel 0 core = n ∧ t = { s.elapse dt with dis := { s.dis with threads := t.dis.threads, dsel := t.dis.dsel } }) ∧
     reaches (exec (.dcinv dt core) s) fun t =>
       tget t.dis.dcinv 0 core = tget s.dis.dcinv 0 core + 1 ∧ t.thread k = { s.thread k with pc := (s.thread k).pc + 4 } ∧
       tget t.dis.dcache [] core = [] ∧
       t = { s.elapse dt with dis := { s.dis with threads := t.dis.threads, dcinv := t.dis.dcinv, dcache := t.dis.dcache } }) ∧
  (∀ (s : State) (dt core k n : Nat) (a b d : Word) (c : Instr), s.tidy → s.coresRun = true → s.running core = some k →
     (s.thread k).user = true → s.dis.traceEv = 0 → s.mem.failed = 0 →
     (c = .dctlStart dt core n a b d ∨ c = .dctlSuspend dt core n ∨ c = .dctlResume dt core n ∨ c = .dctlKill dt core n ∨
       c = .dcfgWrite dt core n a ∨ c = .dcinv dt core) →
     reaches (exec c s) fun t =>
       s.trapped t core k 2 ∧
       (t.thread k).mstatus = ((s.thread k).mstatus &&& ~~~(0x1888 : Word)) ||| (if (s.thread k).mstatus.getLsbD 3 then 0x80 else 0) ∧
       t = { s.elapse dt with dis := { s.dis with threads := t.dis.threads }, free := t.free }) ∧
  (∀ (s : State) (core k : Nat), s.tidy → s.memoriesCanonical →
    let only := fun (t : State) => t = { s with dis := { s.dis with threads := t.dis.threads } }
    let at' := fun (r : Nat) (v : Word) (n : Nat) (o : Nat) => (s.rx k r + v).toNat = 0x18000000 + o ∧ o % n = 0 ∧ o + n ≤ 0x80000
    (∀ o rd a b, s.executes core k (.op o rd a b) → reaches (step s) fun t =>
      t.thread k = { (s.thread k).put rd (o.run (s.rx k a) (s.rx k b)) with pc := (s.thread k).pc + 4 } ∧ only t) ∧
    (∀ o rd a v, s.executes core k (.opImm o rd a v) → reaches (step s) fun t =>
      t.thread k = { (s.thread k).put rd (o.run (s.rx k a) v) with pc := (s.thread k).pc + 4 } ∧ only t) ∧
    (∀ n e rd a v o, s.executes core k (.load n e rd a v) → at' a v n o → s.badWord (.dualPort o) n = none →
      reaches (step s) fun t =>
        let v := leNat (readMem s.mem.dual memFill o n)
        t.thread k = { (s.thread k).put rd (if e then sext (8 * n) v else BitVec.ofNat 32 v) with
          pc := (s.thread k).pc + 4 } ∧ only t) ∧
    (∀ n a b v o, s.executes core k (.store n a b v) → at' a v n o → s.badWord (.dualPort o) n = none →
      reaches (step s) fun t =>
        (t.thread k).pc = (s.thread k).pc + 4 ∧ (t.thread k).x = (s.thread k).x ∧
        readMem t.mem.dual memFill o n = leBytes n (s.rx k b).toNat ∧
        (∀ i, i < o ∨ o + n ≤ i → tget t.mem.dual memFill i = tget s.mem.dual memFill i) ∧
        t = { s with
          mem := { s.mem with dual := t.mem.dual }, dis := { s.dis with threads := t.dis.threads, resv := t.dis.resv } }) ∧
    (∀ op rd a b o, s.executes core k (.amo op rd a b) → at' a 0 4 o → s.badWord (.dualPort o) 4 = none →
      let old := BitVec.ofNat 32 (leNat (readMem s.mem.dual memFill o 4))
      reaches (step s) fun t =>
        t.thread k = { (s.thread k).put rd old with pc := (s.thread k).pc + 4 } ∧
        readMem t.mem.dual memFill o 4 = leBytes 4 (op.run old (s.rx k b)).toNat) ∧
    (∀ rd a b o, s.executes core k (.sc rd a b) → at' a 0 4 o → s.badWord (.dualPort o) 4 = none →
      tfind s.dis.resv core = none → reaches (step s) fun t =>
        t.thread k = { (s.thread k).put rd 1 with pc := (s.thread k).pc + 4 } ∧ t.mem = s.mem) ∧
    (∀ c a v n cause, (∃ e rd, c = .load n e rd a v ∧ cause = 5) ∨ (∃ b, c = .store n a b v ∧ cause = 7) → s.executes core k c →
      (s.rx k a + v).toNat % n = 0 →
      (s.coreTarget core (s.rx k a + v).toNat = none → s.mem.trainFail = false → reaches (step s) fun t =>
        s.trapped t core k cause ∧ t.mem = s.mem) ∧
      (∀ o w, at' a v n o → s.badWord (.dualPort o) n = some w → reaches (step s) fun t =>
        s.trapped t core k cause ∧ t.mem.dual = s.mem.dual ∧
        t.mem.eccUncorr = s.mem.eccUncorr + 1 ∧ t.mem.eccAddr = BitVec.ofNat 64 w)) ∧
    (∀ op rd a b, s.executes core k (.amo op rd a b) → (s.rx k a).toNat % 4 = 0 → 0x20000000 ≤ (s.rx k a).toNat →
      (s.rx k a).toNat < 0x20100000 → reaches (step s) fun t => s.trapped t core k 7 ∧ t.mem = s.mem) ∧
    (s.executes core k .ecall → reaches (step s) fun t => s.trapped t core k 11 ∧ t.mem = s.mem)) ∧
  (∀ (s : State) (core k : Nat), s.tidy → s.pending = [] → s.coresRun = true → core < 12 → s.dis.cores = [(core, k)] → s.calm →
    (s.thread k).user = true → s.dis.pmpcfg = [] → (s.thread k).pc.toNat % 2 = 0 →
    reaches (step s) fun t => s.trapped t core k 1 ∧
      t = { s with dis := { s.dis with threads := t.dis.threads }, free := t.free })

/-- A wait whose condition the flags meet retires at once with those flags of the mask in rd and clears them; with a mask of
zero it retires with 0; a wait not met leaves the thread WAITING with its mask and mode, and another thread or none on its
core. dclr clears the flags of its mask. dyield with nothing else READY goes on, and with a thread of equal or higher
priority READY for its core gives way to it. That a thread which yields is placed as any other is log entry 81. (R429, R430,
R431, R435) -/
def Obligations.WaitsAndYields : Prop :=
  ∀ (s : State) (dt core k : Nat), s.tidy → s.scheduled → s.coresRun = true → s.running core = some k → s.calm →
    (∀ (rd : Nat) (m : Word) (all : Bool) (c : Instr), rd < 32 →
      (c = .dwany dt core rd m ∧ all = false) ∨ (c = .dwall dt core rd m ∧ all = true) →
      (m = 0 → reaches (exec c s) fun t =>
        (t.thread k).flags = (s.thread k).flags ∧ (rd ≠ 0 → tget (t.thread k).x 0 rd = 0) ∧ t.running core = some k) ∧
      (m ≠ 0 → waitMet all (s.thread k).flags m = true → reaches (exec c s) fun t =>
        (t.thread k).flags = (s.thread k).flags &&& ~~~m ∧ (t.thread k).pc = (s.thread k).pc + 4 ∧
        (rd ≠ 0 → tget (t.thread k).x 0 rd = (s.thread k).flags &&& m) ∧ (t.thread k).state = .running ∧
        t = { s.elapse dt with dis := { s.dis with threads := t.dis.threads } }) ∧
      (m ≠ 0 → waitMet all (s.thread k).flags m = false → reaches (exec c s) fun t =>
        (t.thread k).state = .waiting ∧ (t.thread k).mask = m ∧ (t.thread k).waitAll = all ∧
        (t.thread k).pc = (s.thread k).pc ∧ (t.thread k).flags = (s.thread k).flags ∧ t.running core ≠ some k ∧
        State.eventsOnly { s.elapse dt with dis := t.dis } t)) ∧
    (∀ (m : Word), reaches (exec (.dclr dt core m) s) fun t =>
      t.thread k = { s.thread k with flags := (s.thread k).flags &&& ~~~m, pc := (s.thread k).pc + 4 } ∧
      t = { s.elapse dt with dis := { s.dis with threads := t.dis.threads } }) ∧
    ((∀ p, s.readyList p = []) → s.dis.fault = false → reaches (exec (.dyield dt core) s) fun t =>
      t.thread k = { s.thread k with pc := (s.thread k).pc + 4 } ∧ t.running core = some k) ∧
    (∀ n, s.nextFor core = some n → (s.thread n).prio ≤ (s.thread k).prio → s.dis.fault = false →
      reaches (exec (.dyield dt core) s) fun t => t.running core = some n ∧ t.active k)

/-- A dpost to a thread, itself or another, that is not FREE and whose wait the flag does not meet sets the flag there and
changes nothing else; one that meets the wait of a WAITING thread wakes it: the flags of the mask are cleared, and the
thread runs with its rd holding them, or is READY and will; one to a FREE thread is lost and counts in DIS_LOST_POSTS. A
dkick of an enabled watchdog by its bound thread starts its period anew. An enabled watchdog not kicked for PERIOD × 10 ms
expires and, where its source is enabled, requests its class from the latch; that a request of the same tick belongs to the
same stage is log entry 67, and where a woken thread that is preempted waits is log entry 81. (R429, R431, R439, R442) -/
def Obligations.PostsAndWatchdogKicks : Prop :=
  (∀ (s : State) (dt core k n flag : Nat) (v : Word), s.tidy → s.coresRun = true → s.running core = some k →
    bits v.toNat 0 9 = n → bits v.toNat 16 5 = flag → (s.thread n).state ≠ .free → (s.thread k).state ≠ .free →
    ((s.thread n).state ≠ .waiting ∨ (s.thread n).met ≠ none ∨
      waitMet (s.thread n).waitAll ((s.thread n).flags ||| (1 <<< flag)) (s.thread n).mask = false) →
    s.dis.traceEv = 0 → s.mem.failed = 0 →
    reaches (exec (.dpost dt core v) s) fun t =>
      (n ≠ k → t.thread n = { s.thread n with flags := (s.thread n).flags ||| (1 <<< flag) } ∧
        t.thread k = { s.thread k with pc := (s.thread k).pc + 4 }) ∧
      (n = k → t.thread k = { s.thread k with flags := (s.thread k).flags ||| (1 <<< flag), pc := (s.thread k).pc + 4 }) ∧
      t = { s.elapse dt with dis := { s.dis with threads := t.dis.threads } }) ∧
  (∀ (s : State) (dt core k n flag : Nat) (v : Word), s.tidy → s.scheduled → s.coresRun = true → s.running core = some k →
    bits v.toNat 0 9 = n → bits v.toNat 16 5 = flag → (s.thread n).state = .waiting → (s.thread n).met = none → s.calm →
    let all := (s.thread n).flags ||| (1 <<< flag)
    waitMet (s.thread n).waitAll all (s.thread n).mask = true →
    reaches (exec (.dpost dt core v) s) fun t =>
      (t.thread n).flags = all &&& ~~~(s.thread n).mask ∧ (t.thread k).pc = (s.thread k).pc + 4 ∧
      (((t.thread n).state = .running ∧ (t.thread n).pc = (s.thread n).pc + 4 ∧
          ((s.thread n).rd ≠ 0 → tget (t.thread n).x 0 (s.thread n).rd = all &&& (s.thread n).mask)) ∨
        ((t.thread n).state = .ready ∧ (t.thread n).met = some (all &&& (s.thread n).mask)))) ∧
  (∀ (s : State) (dt core k n : Nat) (v : Word), s.tidy → s.coresRun = true → s.running core = some k → n ≠ k →
    bits v.toNat 0 9 = n → (s.thread n).state = .free → s.calm → s.routePosts (sourceCode Ev.disLostPost n) = [] →
    reaches (exec (.dpost dt core v) s) fun t =>
      t.dis.lostPosts = s.dis.lostPosts + 1 ∧ t.thread k = { s.thread k with pc := (s.thread k).pc + 4 } ∧
      t = { s.elapse dt with
        dis := { s.dis with threads := t.dis.threads, lostPosts := t.dis.lostPosts }, crn := t.crn }) ∧
  (∀ (s : State) (dt core k n : Nat) (v : Word), s.coresRun = true → s.running core = some k → v.toNat = n → n < 16 →
    s.reg F.DIS_WDOG_EN n = 1 → s.reg F.DIS_WDOG_THREAD n = k → s.dis.traceEv = 0 → s.mem.failed = 0 → s.tidy →
    reaches (exec (.dkick dt core v) s) fun t =>
      tget t.dis.wdogs Wdog.reset n = ⟨s.clk.counter + dt, false⟩ ∧
      t.thread k = { s.thread k with pc := (s.thread k).pc + 4 } ∧
      t = { s.elapse dt with dis := { s.dis with threads := t.dis.threads, wdogs := t.dis.wdogs } }) ∧
  (∀ (s : State) (dt n : Nat), n < 16 → s.reg F.DIS_WDOG_EN n = 1 → (tget s.dis.wdogs Wdog.reset n).expired = false →
    s.pwr.state = .waitHost ∨ s.pwr.state = .run →
    (tget s.dis.wdogs Wdog.reset n).since + s.reg F.DIS_WDOG_PERIOD n * 10 * tickMs ≤ s.clk.counter + dt →
    reaches (exec (.disWatchdog dt n) s) fun t =>
      (tget t.dis.wdogs Wdog.reset n).expired = true ∧
      (s.stopSource F.STP_SRC_WATCHDOG = true → Stp.requested s.stp t.stp (s.clk.counter + dt) 8 (s.act F.STP_SRC_WATCHDOG_CLASS = 1)) ∧
      (s.stopSource F.STP_SRC_WATCHDOG = false → t.stp = s.stp))

/-- In a round at one word each byte takes port A's byte where A writes it, else port B's where B writes it, else stays, and
every other word stays; two writes count one in MEM_DP_COLLIDE; a read returns the word as the round leaves it. A
reservation of a core on a word that a port writes ends. A scrub that is due and finds only correctable errors in the
scratchpad and dual-port region counts each in ECC_CORR; nothing else but the marks and what events change differs. Training
that ends well sets READY, and else TRAIN_FAIL; a write that waited for it is then made, or fails and counts as an
uncorrectable error. The accesses of a round and the words that a scrub meets come with the command (log entries 56 and 75),
and the writes that wait and fail are log entry 85. (R445, R447, R449, R450) -/
def Obligations.ScrubAndTraining : Prop :=
  (∀ (s : State) (dt w : Nat) (a b : Option PortAccess), s.tidy → s.memoriesCanonical → w < 65536 → s.mem.badWords = [] →
    s.pwr.inReset = false → s.pwr.state ≠ .safeHold → s.reg F.MEM_SCRUB_DRAM_HOURS = 0 →
    (s.elapse dt).due T.scrub (s.reg F.MEM_SCRUB_PERIOD * tickS) = false →
    let wrote := fun (x : Option PortAccess) (i : Nat) (v : BitVec 8) =>
      ∃ m d, x = some (.write m d) ∧ m.getLsbD i = true ∧ v = (d >>> (8 * i)).setWidth 8
    reaches (exec (.memScrub dt ⟨[⟨w, a, b⟩], []⟩) s) fun t =>
      (∀ i, i < 8 → ∀ v,
        (wrote a i v → tget t.mem.dual memFill (8 * w + i) = v) ∧
        ((∀ x, ¬ wrote a i x) → wrote b i v → tget t.mem.dual memFill (8 * w + i) = v) ∧
        ((∀ x, ¬ wrote a i x) → (∀ x, ¬ wrote b i x) →
          tget t.mem.dual memFill (8 * w + i) = tget s.mem.dual memFill (8 * w + i))) ∧
      (∀ x, x < 8 * w ∨ 8 * w + 8 ≤ x → tget t.mem.dual memFill x = tget s.mem.dual memFill x) ∧
      t.mem.dpCollide = (if (∃ m d, a = some (.write m d)) ∧ (∃ m d, b = some (.write m d)) then s.mem.dpCollide + 1
        else s.mem.dpCollide) ∧
      t.out = s.out ++ (if a = some .read then [.portRead true w (t.dualWord w)] else []) ++
        (if b = some .read then [.portRead false w (t.dualWord w)] else []) ∧
      (∀ core r, tfind s.dis.resv core = some r → tfind t.dis.resv core =
        if (isWrite a || isWrite b) = true ∧ r / 8 = (0x18000000 + 8 * w) / 8 then none else some r) ∧
      t = { s.elapse dt with
        out := t.out, mem := { s.mem with dual := t.mem.dual, dpCollide := t.mem.dpCollide }, dis := { s.dis with resv := t.dis.resv } }) ∧
  (∀ (s : State) (dt : Nat) (hits : List (Nat × Bool)), s.pwr.inReset = false →
    (s.elapse dt).due T.scrub (s.reg F.MEM_SCRUB_PERIOD * tickS) = true → s.reg F.MEM_SCRUB_DRAM_HOURS = 0 →
    (∀ h ∈ hits, h.2 = false ∧ h.1 / 2 ^ 60 ≠ 2) →
    reaches (exec (.memScrub dt ⟨[], hits⟩) s) fun t =>
      State.eventsOnly { (s.elapse dt).mark T.scrub with mem := { s.mem with
        eccCorr := s.mem.eccCorr + BitVec.ofNat 32 hits.length, corrAt := t.mem.corrAt } } t) ∧
  (∀ (s : State) (dt : Nat) (ok : Bool), s.mem.training = true → s.pwr.inReset = false → s.mem.waiting = [] →
    reaches (exec (.memDramReady dt ok) s) fun t =>
      State.eventsOnly { s.elapse dt with
        mem := { s.mem with training := false, ready := ok, trainFail := !ok, waiting := [] } } t) ∧
  (∀ (s : State) (dt a : Nat) (b : List Byte), s.memoriesCanonical → s.mem.training = true → s.pwr.inReset = false →
    s.mem.waiting = [(a, b)] → s.mem.bad = [] → s.act F.DIS_CTRL_TRACE_EN = 0 →
    (reaches (exec (.memDramReady dt true) s) fun t => readMem t.mem.dram memFill a b.length = b) ∧
    reaches (exec (.memDramReady dt false) s) fun t =>
      t.mem.dram = s.mem.dram ∧ t.mem.eccUncorr = s.mem.eccUncorr + 1 ∧ t.mem.eccAddr = BitVec.ofNat 64 (2 * 2 ^ 60 + a))

/-- A transfer whose payload has the length its COUNT asks for completes OK (NO_UNIT where a Field Store span passes the part's
size). A write stores each entry as the table's stored form at FIRST + k, keeps every other staged entry and the active
configuration; a read writes the entries of the configuration it names, in order, at ADDR, and changes no configuration.
This holds for DIS_ROUTE_XFER, CRN_CLASS_XFER and FLD_TABLE_XFER. (R132, R133, R438, R440, R506, R548) -/
def Obligations.TableTransfersMoveEntries : Prop :=
  (∀ (s : State) (dt ring index : Nat) (payload : List Byte) (d : Desc) (f c : Nat),
    s.offers ring index opRouteXfer d → s.tidy → s.dis.fault = false → d.operand 2 2 = f → d.operand 4 2 = c → 1 ≤ c →
    f + c ≤ 1024 → d.len = 8 * c →
    (d.operand 0 1 = 0 → reaches (exec (.disRouteWriteStaging dt ring index payload) s) fun t =>
      (∀ k, k < c → padTo 8 (tget t.cfg.staged.routes [] (f + k)) = fixRoute (slice (padTo d.len payload) (8 * k) 8)) ∧
      (∀ i, i < f ∨ f + c ≤ i → tget t.cfg.staged.routes [] i = tget s.cfg.staged.routes [] i) ∧
      t.cfg = { s.cfg with staged := { s.cfg.staged with routes := t.cfg.staged.routes } } ∧
      (s.elapse dt).replies t d St.ok [] ∧ State.answerOnly { s.elapse dt with cfg := t.cfg } t) ∧
    (∀ cmd conf, (cmd = Instr.disRouteReadStaging dt ring index ∧ d.operand 0 1 = 1 ∧ conf = s.cfg.staged) ∨
        (cmd = .disRouteReadActive dt ring index ∧ d.operand 0 1 = 2 ∧ conf = s.cfg.active) →
      reaches (exec cmd s) fun t =>
        (s.elapse dt).answered t [.hostWrite d.addr (getEntries conf.routes 8 f c)] d St.ok [] ∧
        (s.elapse dt).answerOnly t)) ∧
  (∀ (s : State) (dt ring index : Nat) (payload : List Byte) (d : Desc) (f c : Nat),
    s.offers ring index opCrnClass d → s.tidy → s.crn.fault = false → d.operand 2 1 = f → d.operand 3 1 = c → 1 ≤ c →
    f + c ≤ 64 → d.len = 144 * c →
    (d.operand 0 1 = 0 → reaches (exec (.crnClassWriteStaging dt ring index payload) s) fun t =>
      let e := fun k => fixClass (slice (padTo d.len payload) (144 * k) 144)
      let n := ((List.range c).map fun k => (e k).2).sum
      (∀ k, k < c → padTo 144 (tget t.cfg.staged.classes [] (f + k)) = (e k).1) ∧
      (∀ i, i < f ∨ f + c ≤ i → tget t.cfg.staged.classes [] i = tget s.cfg.staged.classes [] i) ∧
      t.cfg = { s.cfg with staged := { s.cfg.staged with classes := t.cfg.staged.classes },
                           clampCount := if n = 0 then s.cfg.clampCount else min 0xFFFF (s.cfg.clampCount + n),
                           clamped := s.cfg.clamped || decide (n ≠ 0) } ∧
      (s.elapse dt).replies t (d.clampIf (n ≠ 0)) St.ok [] ∧ State.answerOnly { s.elapse dt with cfg := t.cfg } t) ∧
    (∀ cmd conf, (cmd = Instr.crnClassReadStaging dt ring index ∧ d.operand 0 1 = 1 ∧ conf = s.cfg.staged) ∨
        (cmd = .crnClassReadActive dt ring index ∧ d.operand 0 1 = 2 ∧ conf = s.cfg.active) →
      reaches (exec cmd s) fun t =>
        (s.elapse dt).answered t [.hostWrite d.addr (getEntries conf.classes 144 f c)] d St.ok [] ∧
        (s.elapse dt).answerOnly t)) ∧
  (∀ (s : State) (dt ring index : Nat) (payload : List Byte) (d : Desc) (b f c : Nat),
    s.offers ring index opFldTable d → s.tidy → s.fldStop (decide (d.operand 1 1 ≠ 2)) = none →
    (d.operand 1 1 ≠ 2 → s.dramHeld = false) → d.operand 0 1 = b → b ≤ 2 → d.operand 4 4 = f →
    d.operand 8 4 = c → 1 ≤ c → d.len = c * tblSize b →
    (d.operand 1 1 = 0 → reaches (exec (.fldTableWriteStaging dt ring index payload) s) fun t =>
      let e := fun k => tblFix b (slice (padTo d.len payload) (tblSize b * k) (tblSize b))
      let n := ((List.range c).map fun k => if s.tblLimit b ≤ f + k then 0 else (e k).2).sum
      (∀ k, k < c → f + k < s.tblLimit b → padTo (tblSize b) (tget (t.cfg.staged.table b) [] (f + k)) = (e k).1) ∧
      (∀ i, i < f ∨ f + c ≤ i ∨ s.tblLimit b ≤ i → tget (t.cfg.staged.table b) [] i = tget (s.cfg.staged.table b) [] i) ∧
      t.cfg.staged = s.cfg.staged.setTable b (t.cfg.staged.table b) ∧ t.cfg.active = s.cfg.active ∧
      (s.elapse dt).replies t (d.clampIf (n ≠ 0)) (if s.tblLimit b < f + c then St.noUnit else St.ok) [] ∧
      State.answerOnly { s.elapse dt with cfg := t.cfg } t) ∧
    (∀ cmd conf live, (cmd = Instr.fldTableReadStaging dt ring index ∧ d.operand 1 1 = 1 ∧ conf = s.cfg.staged ∧ live = false) ∨
        (cmd = .fldTableReadActive dt ring index ∧ d.operand 1 1 = 2 ∧ conf = s.cfg.active ∧ live = true) →
      reaches (exec cmd s) fun t =>
        (s.elapse dt).answered t [.hostWrite d.addr (s.readTable conf b f c live)] d
          (if s.tblLimit b < f + c then St.noUnit else St.ok) [] ∧
        (s.elapse dt).answerOnly t))

/-- Both first write the tile's dirty cache lines back and drop its lines; no byte outside those lines changes by it. A load of
one record then writes its layer word (FLAGS and FRAME) and, for a present tile, its bytes to the frame, a coverage cell of
code 3 as code 2, and no other byte of DRAM; RESULT counts one record. A save of one tile writes its record (place, flags,
frame, bytes, each claimed cell at its prior value) to host memory, clears DIRTY of a dirty coverage tile and changes no
other byte. That a load writes DIRTY 0 is log entry 74, and that a tile transfer waits for DRAM is log entry 22. (R113,
R117, R128, R129, R130, R131) -/
def Obligations.TilesAreLoadedAndSaved : Prop :=
  (∀ (s : State) (f te tn : Nat) (x : Nat), s.memoriesCanonical → s.tidy → s.calm →
    (∀ e ∈ s.fld.cache, ∀ l ∈ e.2, l.ofTile f te tn = true → l.dirty = true → x < l.base ∨ l.base + 1024 ≤ x) →
    tget (s.tileFlushed f te tn).mem.dram memFill x = tget s.mem.dram memFill x) ∧
  (∀ (s : State) (dt ring index : Nat) (payload : List Byte) (d : Desc) (f : Nat),
    s.offers ring index opFldTile d → s.memoriesCanonical → s.fldStop true = none → s.dramHeld = false → s.calm → s.mem.bad = [] →
    d.operand 1 1 = 0 →
    d.operand 0 1 = f → f ≤ 15 → s.fieldOn f = true →
    let p := padTo d.len payload
    let layer := byteAt p 2
    let present := bit (byteAt p 3) 0
    let size := if present then tileBytes layer else 0
    let a := 4096 * bits (fieldLE p 4 4) 0 22
    let wa := s.layerWordAt f (byteAt p 0) (byteAt p 1) layer
    let v := (s.elapse dt).tileFlushed f (byteAt p 0) (byteAt p 1)
    layer ≤ 5 → byteAt p 0 < s.tilesE f → byteAt p 1 < s.tilesN f → d.len = 8 + size →
    (present = true → s.inMapArea (bits (fieldLE p 4 4) 0 22) size = true) →
    (layer = 0 → s.tileClaimed f (byteAt p 0) (byteAt p 1) = false) →
    reaches (exec (.fldTileLoad dt ring index payload) s) fun t => ∃ u : State,
      readMem u.mem.dram memFill wa 8 = leBytes 8 (byteAt p 3 % 4 + a) ∧
      (∀ i, i < size → (a + i < wa ∨ wa + 8 ≤ a + i) → tget u.mem.dram memFill (a + i) =
        (let b := p.getD (8 + i) 0; if layer = 0 then noClaims b else b)) ∧
      (∀ x, (x < a ∨ a + size ≤ x) → (x < wa ∨ wa + 8 ≤ x) → tget u.mem.dram memFill x = tget v.mem.dram memFill x) ∧
      u.fld.cache = v.fld.cache ∧
      u = { s.elapse dt with mem := { s.mem with dram := u.mem.dram, bad := u.mem.bad },
                             fld := { s.fld with cache := u.fld.cache } } ∧
      u.answered t [] d St.ok (leBytes 4 1) ∧ u.answerOnly t) ∧
  (∀ (s : State) (dt ring index : Nat) (d : Desc) (f layer : Nat),
    s.offers ring index opFldTile d → s.memoriesCanonical → s.fldStop true = none → s.dramHeld = false → s.calm → s.mem.bad = [] →
    d.operand 1 1 = 1 →
    d.operand 0 1 = f → f ≤ 15 → s.fieldOn f = true → d.operand 3 1 = layer → layer ≤ 5 →
    d.operand 6 2 = 1 → d.operand 8 2 = 1 →
    let te := d.operand 4 1
    let tn := d.operand 5 1
    let w := s.layerWord f te tn layer
    let size := if lwPresent w then tileBytes layer else 0
    let v := (s.elapse dt).tileFlushed f te tn
    let tile := v.dramRead (4096 * lwFrame w) size
    te < s.tilesE f → tn < s.tilesN f → 8 + size ≤ d.len → (bit (d.operand 2 1) 0 = true → layer = 0 → lwDirty w = true) →
    reaches (exec (.fldTileSave dt ring index) s) fun t => ∃ u : State,
      (∀ x, (layer = 0 ∧ lwDirty w = true ∧ s.layerWordAt f te tn 0 ≤ x ∧ x < s.layerWordAt f te tn 0 + 8) ∨
        tget u.mem.dram memFill x = tget v.mem.dram memFill x) ∧
      (layer = 0 → lwDirty w = true → readMem u.mem.dram memFill (s.layerWordAt f te tn 0) 8 = leBytes 8 (w - 4)) ∧ u.fld.cache = v.fld.cache ∧
      u = { s.elapse dt with mem := { s.mem with dram := u.mem.dram, bad := u.mem.bad },
                             fld := { s.fld with cache := u.fld.cache } } ∧
      u.answered t [.hostWrite d.addr (leBytes 1 te ++ leBytes 1 tn ++ leBytes 1 layer ++ leBytes 1 (w % 4) ++
        leBytes 4 (lwFrame w) ++ (if layer = 0 then s.withPriors f te tn tile else tile))] d St.ok (leBytes 4 1) ∧
      u.answerOnly t)

/-- FLD_SYNC_APPLY of one cell completes OK: an unclaimed cell that reads code 0 or 1 through the cache reads the next code and
its tile is DIRTY, one of code 2 or 3 reads as before, a cell that cannot be read stays, a claimed cell's prior value rises
to at most 2. Of DRAM only the layer word and the dirty lines that the cache writes back change. An uncorrectable error that
a read of the cell meets counts. Every PERIOD the delta buffer is emptied, but not before a commit that is due by then. The
end of the copy ends its flag. That a claimed cell's DIRTY stays as it is, and the lower of two fields with one FIELD_ID
counts, is log entry 74; that a descriptor waits for DRAM is log entry 22; which lines share a set is open (log entry 20).
(R116, R118, R124, R134, R135, R136, R137) -/
def Obligations.CellsAreCountedAndSynchronised : Prop :=
  (∀ (s : State) (dt ring index : Nat) (payload : List Byte) (d : Desc) (f : Nat) (c : Cell),
    s.offers ring index opFldSync d → s.memoriesCanonical → s.tidy → s.calm → s.fldStop true = none → s.dramHeld = false →
    d.len = 18 → fieldLE (padTo 18 payload) 8 2 = 1 → s.fieldById (fieldLE (padTo 18 payload) 0 4) = some f →
    deltaCells f (padTo 18 payload) = [c] →
    let wa := s.layerWordAt c.field (c.col / 256) (c.row / 256) 0
    let code := (s.coverage c false).2
    let clear := fun (x : Nat) => ∀ e ∈ s.fld.cache, ∀ l ∈ e.2, l.dirty = true → x < l.base ∨ l.base + 1024 ≤ x
    (∀ x, wa ≤ x → x < wa + 8 → clear x) → s.offImages wa 8 →
    reaches (exec (.fldSyncApply dt ring index payload) s) fun t => ∃ u : State,
      (∀ k, tfind s.sec.claims c.key = some k →
        tfind u.sec.claims c.key = some { k with prior := min (k.prior + 1) 2 } ∧ u.mem = s.mem ∧ u.fld = s.fld) ∧
      (tfind s.sec.claims c.key = none → u.sec = s.sec ∧
        (∀ n, code = some n → n ≤ 1 → (u.coverage c false).2 = some (n + 1) ∧
          lwDirty (leNat (readMem u.mem.dram memFill wa 8)) = true) ∧
        (∀ n, code = some n → 2 ≤ n → (u.coverage c false).2 = some n) ∧
        (code = none → s.act F.DIS_CTRL_TRACE_EN = 0 → u.mem.dram = s.mem.dram ∧ (s.mem.bad = [] → u.mem = s.mem)) ∧
        (code ≠ none → ∀ x, (x < wa ∨ wa + 8 ≤ x) → clear x → tget u.mem.dram memFill x = tget s.mem.dram memFill x)) ∧
      (∀ x, x ≠ c.key → tfind u.sec.claims x = tfind s.sec.claims x) ∧
      State.eventsOnly { s.elapse dt with
        mem := { s.mem with dram := u.mem.dram, bad := u.mem.bad, eccUncorr := u.mem.eccUncorr, eccAddr := u.mem.eccAddr }
        fld := { s.fld with
          cache := u.fld.cache, hits := u.fld.hits, misses := u.fld.misses, eccBlocks := u.fld.eccBlocks, eccSeen := u.fld.eccSeen }
        sec := { s.sec with claims := u.sec.claims }, cfg := u.cfg } u ∧
      u.cfg.staged = s.cfg.staged ∧ u.cfg.active = s.cfg.active ∧
      (∃ b, u.answered t [] (d.clampIf b) St.ok []) ∧ u.answerOnly t) ∧
  (∀ (s : State) (dt : Nat), s.pwr.state = .run → s.unitOn U.fld = true → s.fld.fault = false →
    let sf := (s.elapse dt).now / 20000000
    let due := if s.fld.sentAt ≤ sf then s.fld.sentAt + s.reg F.FLD_SYNC_CTRL_PERIOD else sf
    (sf < due ∨ (s.elapse dt).commitWaits (due * 20000000) = true → exec (.fldSyncSend dt) s = .next (s.elapse dt)) ∧
    (due ≤ sf → (s.elapse dt).commitWaits (due * 20000000) = false → reaches (exec (.fldSyncSend dt) s) fun t =>
      t.fld.deltas = [] ∧ t.fld.sentAt = (s.elapse dt).now / 20000000 ∧
      t = { s.elapse dt with fld := { s.fld with deltas := [], sentAt := t.fld.sentAt, sendSeq := t.fld.sendSeq },
                             fab := t.fab, out := t.out })) ∧
  (∀ (s : State) (dt : Nat), s.fld.copying = true →
    reaches (exec (.fldCopyDone dt) s) fun t =>
      t.fld = { s.fld with copying := false } ∧ State.eventsOnly { s.elapse dt with fld := t.fld } t)

/-- A frame that fails R394 counts in RX_FRAMES and RX_ERR and changes nothing else. A unicast frame for another device joins
the egress queue of its route with HOP_LIMIT one less. A HELLO on a DOWN link with block lock makes it INIT, or UP where it
lists this device, and notes the neighbour; one from another EUI-64 on an UP link counts a link loss. A CLAIM of another
address is noted as seen and relayed; one of the device's own address by a higher EUI-64 lets the address stand, by a lower
one, with a fixed address, it leads to CONFLICT. A fresh LSA replaces the source's entry; one that is not fresh changes no
entry. That one HELLO takes a link to UP, that a frame is counted and ignored where the link is not UP, and what a returning
HELLO or LSA meets, is log entry 45. (R394, R397, R399, R400, R401, R404, R405, R406) -/
def Obligations.FramesAreForwardedAndFlooded : Prop :=
  (∀ (s : State) (dt p : Nat) (f : List Byte), s.tidy → s.portOn p = true → frameOk f = false →
    reaches (exec (.fabFrameReceived dt p f) s) fun t =>
      t.fabPort p = { s.fabPort p with rxFrames := (s.fabPort p).rxFrames + 1, rxErr := (s.fabPort p).rxErr + 1 } ∧
      (∀ q, q ≠ p → t.fabPort q = s.fabPort q) ∧ t = { s.elapse dt with fab := { s.fab with ports := t.fab.ports } }) ∧
  (∀ (s : State) (dt p q : Nat) (f : List Byte), s.tidy → s.takesFrame p f → ¬ (frClass f = FC.control ∧ frType f = 0) →
    (frClass f = FC.relay → s.act F.FAB_PORT_CTRL_LEARN_EN p = 0) → frLocal f = false → frFlood f = false →
    s.fab.addrState = .claimed → frDst f ≠ s.claimedAddr → 1 < frHops f → s.routePort (frDst f) = some q → q ≠ p →
    (s.egress q (frClass f)).length < queueDepth (frClass f) →
    reaches (exec (.fabFrameReceived dt p f) s) fun t =>
      t.egress q (frClass f) = s.egress q (frClass f) ++ [withHops f (frHops f - 1)] ∧
      (∀ k c, k ≠ q ∨ c ≠ frClass f → t.egress k c = s.egress k c) ∧
      t = { s.elapse dt with fab := { s.fab with ports := t.fab.ports } }) ∧
  (∀ (s : State) (dt p : Nat) (f : List Byte), s.tidy → s.admits p f → frClass f = FC.control → frType f = 0 →
    (frBody f).length = 24 →
    let eui := beNat (slice (frBody f) 0 8)
    reaches (exec (.helloReceived dt p f) s) fun t =>
      (t.fabPort p).nbrEui = eui ∧ (t.fabPort p).nbrAddr = fieldLE (frBody f) 16 2 % 2 ^ 14 ∧
      (t.fabPort p).helloAt = some (s.clk.counter + dt) ∧
      ((s.fabPort p).link = .down → (s.fabPort p).blockLock = true → (s.fabPort p).hiBer = false →
        (t.fabPort p).link = if beNat (slice (frBody f) 8 8) = s.id.eui.toNat then .up else .init) ∧
      ((s.fabPort p).link = .up → (s.fabPort p).nbrEui = eui → (t.fabPort p).link = .up) ∧
      ((s.fabPort p).link = .up → (s.fabPort p).nbrEui ≠ eui → (t.fabPort p).linkDowns = (s.fabPort p).linkDowns + 1)) ∧
  (∀ (s : State) (dt p : Nat) (f : List Byte), s.tidy → s.takesFrame p f → frClass f = FC.control → frType f = 1 →
    frLocal f = false → frFlood f = true → (frBody f).length = 16 → s.fab.addrState ≠ .none →
    let b := frBody f
    let eui := beNat (slice b 0 8)
    let key := [1, eui, byteAt b 10, byteAt b 11 % 2]
    (s.elapse dt).dupSeen key = false →
    reaches (exec (.claimReceived dt p f) s) fun t =>
      t.dupSeen key = true ∧
      (fieldLE b 8 2 ≠ s.fab.addr ∨ fieldLE b 8 2 = 0 ∨ eui = s.id.eui.toNat →
        t.fab.addrState = s.fab.addrState ∧ t.fab.addr = s.fab.addr ∧
        (s.fab.addrState ≠ .conflict → 1 < frHops f → s.flooded t (some p) 2 fun g => g = withHops f (frHops f - 1))) ∧
      (fieldLE b 8 2 = s.fab.addr → s.fab.addr ≠ 0 → s.fab.addrState ≠ .conflict →
        (s.id.eui.toNat < eui → t.fab.addrState = s.fab.addrState ∧ t.fab.addr = s.fab.addr) ∧
        (eui < s.id.eui.toNat → s.addrFixed = true → t.fab.addrState = .conflict))) ∧
  (∀ (s : State) (dt p : Nat) (f : List Byte), s.takesFrame p f → frClass f = FC.control → frType f = 2 →
    frLocal f = false → frFlood f = true → s.fab.addrState ≠ .none →
    let b := frBody f
    let eui := beNat (slice b 0 8)
    let seq : Word := BitVec.ofNat 32 (fieldLE b 8 4)
    byteAt b 12 ≤ 6 → b.length = 16 + 4 * byteAt b 12 →
    reaches (exec (.lsaReceived dt p f) s) fun t =>
      ((∀ e, tfind s.fab.lsdb (frSrc f) = some e → e.eui ≠ eui ∨ (1 ≤ (seq - e.seq).toNat ∧ (seq - e.seq).toNat < 2 ^ 31)) →
        tfind t.fab.lsdb (frSrc f) = some ⟨eui, seq, lsaLinks b, s.clk.counter + dt⟩ ∧
        (∀ k, k ≠ frSrc f → tfind t.fab.lsdb k = tfind s.fab.lsdb k) ∧
        (tfind s.fab.lsdb (frSrc f) = none → t.fab.spfDue.isSome = true)) ∧
      (∀ e, tfind s.fab.lsdb (frSrc f) = some e → e.eui = eui →
        ¬ (1 ≤ (seq - e.seq).toNat ∧ (seq - e.seq).toNat < 2 ^ 31) → t.fab.lsdb = s.fab.lsdb))

/-- A map delta of an unknown FIELD_ID counts as FOREIGN, one of an enabled field leaves its SEQ in the sender's record. A
correction frame goes to the first FIX_RTCM_GET of SOURCE 1, or counts as missed. A machine message is queued for its joined
machine where its port can carry it, or counts as undelivered, and with LEARN_EN an unknown sender is noted beside the
sightings of the present WINDOW. A host frame goes to the first waiting FAB_RECV, or is dropped and counted. An authentic
fabric stop of the present windows requests its class from FABRIC where the source is enabled; one whose CMAC fails is
counted and leaves the latch as it is. A recovery request is noted for its port. The functions of the CMAC and of AES are
log entry 4; that a request of the same tick belongs to the same stage is log entry 67; which receiver takes what when
several wait is log entry 46. (R137, R201, R219, R343, R408, R409, R414, R420, R499) -/
def Obligations.FramesReachTheirUnits : Prop :=
  (∀ (s : State) (dt p : Nat) (f : List Byte), s.addressed p f → frClass f = FC.control → frType f = 3 →
    s.fld.fault = false → s.unitOn U.fld = true →
    let b := frBody f
    1 ≤ fieldLE b 8 2 → fieldLE b 8 2 ≤ 339 → b.length = 12 + 6 * fieldLE b 8 2 →
    reaches (exec (.mapDeltaReceived dt p f) s) fun t =>
      (s.fieldById (fieldLE b 0 4) = none → t.fld = { s.fld with foreign := min 255 (s.fld.foreign + 1) } ∧
        t = { s.elapse dt with fld := t.fld, fab := { s.fab with ports := t.fab.ports } }) ∧
      ((s.fieldById (fieldLE b 0 4)).isSome = true → s.fld.senders.length < 64 →
        ⟨frSrc f, fieldLE b 0 4, BitVec.ofNat 32 (fieldLE b 4 4)⟩ ∈ t.fld.senders)) ∧
  (∀ (s : State) (dt p : Nat) (f : List Byte), s.addressed p f → frClass f = FC.correction → s.fix.fault = false →
    let sets := splitRtcm 2048 (frBody f)
    reaches (exec (.fabCorrectionReceived dt p f) s) fun t =>
      ((∀ d ∈ s.waiters opFixRtcmGet, d.operand 0 1 ≠ 1) → t.fix = { s.fix with hostMissed := s.fix.hostMissed + 1 } ∧
        t = { s.elapse dt with fix := t.fix, fab := { s.fab with ports := t.fab.ports } }) ∧
      (∀ d, (s.waiters opFixRtcmGet).find? (fun d => d.operand 0 1 = 1) = some d → s.awaits d → sets ≠ [] →
        sets.flatten.length ≤ d.len → t.fix = s.fix ∧
        (s.elapse dt).delivers t [.hostWrite d.addr sets.flatten] d St.ok
          (leBytes 8 0 ++ leBytes 4 sets.flatten.length ++ leBytes 2 sets.length ++ leBytes 2 (frSrc f)))) ∧
  (∀ (s : State) (dt p : Nat) (f : List Byte), s.addressed p f → frClass f = FC.relay → 21 ≤ (frBody f).length →
    let b := frBody f
    let dest := beNat (slice b 0 8)
    let src := beNat (slice b 8 8)
    dest ≠ 0 →
    reaches (exec (.machineMsgReceived dt p f) s) fun t =>
      (∀ m, s.machineByEui dest = some m → s.joined m = true → s.messagesOn (s.machLink m).port < 256 →
        (b.drop 20).length ≤ s.messageCap (s.machLink m).port m →
        t.hop.queue = s.hop.queue ++ [⟨m, (s.machLink m).port, DL.message, b.drop 20, 0, 0, none, false⟩] ∧
        t.fab.undelivered = s.fab.undelivered) ∧
      ((∀ m, s.machineByEui dest = some m → s.joined m = false ∨ s.messageCap (s.machLink m).port m < (b.drop 20).length) →
        t.hop = s.hop ∧
        t.fab.undelivered = s.fab.undelivered + 1) ∧
      (∀ old, old = s.fab.filter.filter (fun g => decide (s.clk.counter + dt < g.seen + s.reg F.FAB_LEARN_CTRL_WINDOW * tickMs)) →
        s.act F.FAB_PORT_CTRL_LEARN_EN p = 1 → src ≠ 0 → learnFind s.fab.learn src = none → old.length < 64 →
        (∀ g ∈ old, g.eui ≠ src) → t.fab.filter = old ++
          [⟨src, frSrc f, p, (s.elapse dt).now, s.clk.counter + dt, fieldLE b 16 2, false⟩])) ∧
  (∀ (s : State) (dt p : Nat) (f : List Byte), s.addressed p f →
    (frClass f = FC.control ∧ frType f = 4) ∨ (frClass f = FC.bulk ∧ frType f = 0) →
    reaches (exec (.fabHostFrameReceived dt p f) s) fun t =>
      (s.waiters opFabRecv = [] → t.fab.hostDrop = s.fab.hostDrop + 1 ∧ t.hst = s.hst) ∧
      (∀ d rest, s.waiters opFabRecv = d :: rest → s.awaits d → frBody f ≠ [] → d.len ≠ 0 → t.fab.hostDrop = s.fab.hostDrop ∧
        (s.elapse dt).delivers t [.hostWrite d.addr ((frBody f).take d.len)] d
          (if d.len < (frBody f).length then St.more else St.ok)
          (leBytes 2 (frSrc f) ++ leBytes 1 (frClass f) ++ leBytes 1 (frType f) ++ leBytes 1 p ++ [0] ++
            leBytes 2 (frBody f).length ++ leBytes 8 0))) ∧
  (∀ (s : State) (dt p : Nat) (f k : List Byte), s.takesFrame p f → frClass f = FC.stop →
    (frLocal f = true ∨ frFlood f = true ∨ (s.claimedAddr ≠ 0 ∧ frDst f = s.claimedAddr)) →
    s.readyKey (s.act F.STP_KEYS_FAB_RX) = some k →
    let b := frBody f
    let stop := bit (byteAt b 2) 0
    reaches (exec (.fabricStopReceived dt p f) s) fun t =>
      (b.length = 24 → cmac8 k (b.take 16) = b.drop 16 →
        (s.elapse dt).dupSeen [0, fieldLE b 0 2, fieldLE b 8 2, b2n stop] = false →
        (fieldLE b 4 4 + 2 ^ 32 - (s.elapse dt).stopWindow % 2 ^ 32 + 1) % 2 ^ 32 ≤ 2 →
        if s.stopSource F.STP_SRC_FABRIC then Stp.requested s.stp t.stp (s.clk.counter + dt) 5 stop else t.stp = s.stp) ∧
      (b.length = 24 → cmac8 k (b.take 16) ≠ b.drop 16 → t.stp = { s.stp with fabReject := s.stp.fabReject + 1 })) ∧
  (∀ (s : State) (dt p : Nat) (f : List Byte), s.addressed p f → frClass f = FC.bulk → frType f = 1 →
    16 ≤ (frBody f).length → byteAt (frBody f) 0 = 1 →
    reaches (exec (.bootPeerRequest dt p f) s) fun t =>
      tfind t.boot.peers p = some (beNat (slice (frBody f) 1 8), fieldLE (frBody f) 9 2, byteAt (frBody f) 11,
        fieldLE (frBody f) 12 4) ∧
      t.boot = { s.boot with peers := t.boot.peers })

/-- Every 10 ms each port that may transmit queues a HELLO with the body of R396, and the stop bodies of the next eight windows
are held under the fabric key. A link without a valid HELLO for 30 ms, or whose block lock is lost or error rate is high,
goes DOWN with its queues emptied and counted as dropped, and the port hears no PTP neighbour. Block lock clears the error
flag. A module's change is noted. A free line takes the first waiting frame of the highest class; but for a PTP event
message, nothing follows it. (R345, R389, R390, R391, R395, R396, R397) -/
def Obligations.LinksAreHeldAndFramesLeave : Prop :=
  (∀ (s : State) (dt : Nat), (s.elapse dt).due T.hello (10 * tickMs) = true →
    reaches (exec (.fabHelloSend dt) s) fun t =>
      (∀ p, s.portOn p = true → (s.egress p 2).length < queueDepth 2 → ∃ f, frClass f = 2 ∧ frType f = 0 ∧
        frBody f = (s.elapse dt).helloBody p ∧ t.egress p 2 = s.egress p 2 ++ [f]) ∧
      (∀ p, s.portOn p = false → t.fabPort p = s.fabPort p) ∧
      (∀ k, s.fabTxKey = some k → s.unitOn U.stp = true → s.has U.fab = true → s.fab.held = [] → ∀ h ∈ t.fab.held,
        h.bytes = s.stopBody h.stop h.count h.scope h.window ++ cmac8 k (s.stopBody h.stop h.count h.scope h.window) ∧
        (s.elapse dt).stopWindow ≤ h.window ∧ h.window < (s.elapse dt).stopWindow + 8) ∧
      t = { (s.elapse dt).mark T.hello with
        fab := { s.fab with ports := t.fab.ports, seqs := t.fab.seqs, held := t.fab.held } }) ∧
  (∀ (s : State) (dt p : Nat) (c : Instr), s.tidy → (s.fabPort p).link = .up →
    (c = .fabLinkTimeout dt p ∧ ∃ a, (s.fabPort p).helloAt = some a ∧ a + 30 * tickMs ≤ s.clk.counter + dt) ∨
      (p < s.id.part.fabs ∧ ∃ b, c = .fabPcsLoss dt p b) →
    reaches (exec c s) fun t =>
      t.fabPort p = { s.fabPort p with
        link := .down, queues := [], drop := (s.fabPort p).drop + BitVec.ofNat 32 (s.fabPort p).queued,
        linkDowns := (s.fabPort p).linkDowns + 1, blockLock := (t.fabPort p).blockLock, hiBer := (t.fabPort p).hiBer } ∧
      (t.ptpPort p).nbrOffset = 0 ∧ (t.ptpPort p).skew = false ∧
      (∀ b, c = .fabPcsLoss dt p b → if b then (t.fabPort p).hiBer = true else (t.fabPort p).blockLock = false) ∧
      (∀ q, q ≠ p → t.fabPort q = s.fabPort q) ∧ t.fab.lsaDirty = true ∧
      State.eventsOnly { s.elapse dt with
        fab := { s.fab with ports := t.fab.ports, lsaDirty := true }, tb := { s.tb with ptp := t.tb.ptp } } t) ∧
  (∀ (s : State) (dt p : Nat), s.tidy → p < s.id.part.fabs →
    reaches (exec (.fabBlockLock dt p) s) fun t =>
      t.fabPort p = { s.fabPort p with blockLock := true, hiBer := false } ∧ (∀ q, q ≠ p → t.fabPort q = s.fabPort q) ∧
      t = { s.elapse dt with fab := { s.fab with ports := t.fab.ports } }) ∧
  (∀ (s : State) (dt p : Nat) (present los : Bool), s.tidy → p < s.id.part.fabs →
    reaches (exec (.fabModuleChange dt p present los) s) fun t =>
      t.fabPort p = { s.fabPort p with modPresent := present, modLos := los } ∧
      (∀ q, q ≠ p → t.fabPort q = s.fabPort q) ∧
      State.eventsOnly { s.elapse dt with fab := { s.fab with ports := t.fab.ports } } t) ∧
  (∀ (s : State) (dt p c : Nat) (f : List Byte), s.tidy → (s.fabPort p).lineFree ≤ s.clk.counter + dt → s.portOn p = true →
    c < 6 → (s.egress p c).head? = some f → (∀ k, k < c → s.egress p k = []) →
    (c = FC.time → ptpType (frBody f) ≠ Pm.sync ∧ ptpType (frBody f) ≠ Pm.pdelayReq ∧ ptpType (frBody f) ≠ Pm.pdelayResp) →
    reaches (exec (.fabEgressDequeue dt p) s) fun t =>
      t.out = s.out ++ [.fabric p f] ∧ t.egress p c = (s.egress p c).tail ∧ (∀ k, k ≠ c → t.egress p k = s.egress p k) ∧
      (t.fabPort p).txFrames = (s.fabPort p).txFrames + 1 ∧
      (t.fabPort p).lineFree = s.clk.counter + dt + (frLength f + 44 + 4) / 5 ∧ (∀ q, q ≠ p → t.fabPort q = s.fabPort q) ∧
      t = { s.elapse dt with fab := { s.fab with ports := t.fab.ports }, out := t.out })

/-- A tentative address is claimed again every 20 ms and is claimed when CLAIM_WAIT has passed. A due LSA floods with a new SEQ
and enters the own database; entries not refreshed within four periods are removed; after SPF_HOLD the next-hop table is
written, with the own address as SELF. Sightings whose WINDOW has passed retire; the sweep clears HIT, sets STALE, and
removes a STALE entry, a FIXED one never. A repeat of a fabric stop goes out when its window has come. The first SEQ of 1,
the own LSA in the own database and the own entry of the next-hop table are log entries 45 and 19; a body that is held ready
is sent as held (log entry 46). (R399, R401, R402, R403, R407, R414, R416) -/
def Obligations.AddressesRoutesAndLearningRun : Prop :=
  (∀ (s : State) (dt : Nat), s.claiming = true → s.fab.claimSent + 20 * tickMs ≤ s.clk.counter + dt →
    s.clk.counter + dt < s.fab.claimAt + s.claimWait →
    reaches (exec (.fabClaimRepeat dt) s) fun t =>
      s.flooded t none 2 (fun f => frType f = 1 ∧ frBody f = euiBytes s.id.eui.toNat ++ leBytes 2 s.fab.addr ++
        leBytes 1 s.fab.attempt ++ leBytes 1 0 ++ leBytes 4 0) ∧
      t = { s.elapse dt with fab := { s.fab with ports := t.fab.ports, seqs := t.fab.seqs, claimSent := s.clk.counter + dt } }) ∧
  (∀ (s : State) (dt : Nat), s.claiming = true → s.fab.claimAt + s.claimWait ≤ s.clk.counter + dt →
    reaches (exec (.fabClaimWaitExpired dt) s) fun t =>
      t.fab = { s.fab with addrState := .claimed } ∧ State.eventsOnly { s.elapse dt with fab := t.fab } t) ∧
  (∀ (s : State) (dt : Nat), (s.elapse dt).lsaIsDue = true →
    reaches (exec (.fabLsaSend dt) s) fun t =>
      t.fab.lsaAt = some (s.clk.counter + dt) ∧ t.fab.lsaDirty = false ∧
      (∀ q, s.fab.lsaSeq = some q → t.fab.lsaSeq = some (q + 1)) ∧
      (∃ e, tfind t.fab.lsdb s.fab.addr = some e ∧ some e.seq = t.fab.lsaSeq ∧ e.eui = s.id.eui.toNat ∧
        e.links = s.ownLinks ∧ e.seen = s.clk.counter + dt) ∧
      (∀ k, k ≠ s.fab.addr → tfind t.fab.lsdb k = tfind s.fab.lsdb k) ∧
      s.flooded t none 2 (fun f => frType f = 2 ∧ frSrc f = s.fab.addr % 65536 ∧
        (frBody f).take 8 = euiBytes s.id.eui.toNat) ∧
      t = { s.elapse dt with fab := t.fab }) ∧
  (∀ (s : State) (dt : Nat),
    reaches (exec (.fabLsaExpire dt) s) fun t =>
      t.fab.lsdb = s.fab.lsdb.filter (fun e =>
        s.clk.counter + dt < e.2.seen + 4 * s.reg F.FAB_ROUTE_LSA_PERIOD * tickS) ∧
      (t.fab.lsdb ≠ s.fab.lsdb → t.fab.spfDue.isSome = true) ∧
      t = { s.elapse dt with fab := { s.fab with lsdb := t.fab.lsdb, spfDue := t.fab.spfDue } }) ∧
  (∀ (s : State) (dt a : Nat), s.fab.spfDue = some a → s.pwr.state = .run → s.fab.fault = false →
    a + s.reg F.FAB_ROUTE_SPF_HOLD * 10 * tickMs ≤ s.clk.counter + dt →
    reaches (exec (.fabSpfRun dt) s) fun t =>
      t.fab.spfDue = none ∧ t.fab.spfRuns = s.fab.spfRuns + 1 ∧ (s.fab.addrState ≠ .claimed → t.fab.nextHop = []) ∧
      (s.fab.addrState = .claimed → s.fab.addr ≠ fabBroadcast →
        tget t.fab.nextHop hopNone s.fab.addr = hopWord 7 7 true true 0 0) ∧
      State.eventsOnly { s.elapse dt with fab := { s.fab with
        nextHop := t.fab.nextHop, spfDue := none, spfRuns := s.fab.spfRuns + 1 } } t) ∧
  (∀ (s : State) (dt : Nat),
    exec (.fabLearnFilterRetire dt) s = .next { s.elapse dt with fab := { s.fab with
      filter := s.fab.filter.filter fun g => s.clk.counter + dt < g.seen + s.reg F.FAB_LEARN_CTRL_WINDOW * tickMs } }) ∧
  (∀ (s : State) (dt : Nat), s.tidy → s.pwr.state = .run → s.unitOn U.fab = true → s.fab.fault = false →
    (s.elapse dt).due T.ageSweep (s.reg F.FAB_LEARN_CTRL_AGE_PERIOD * tickS) = true →
    reaches (exec (.fabAgeSweep dt) s) fun t =>
      ∀ i, tfind t.fab.learn i = (tfind s.fab.learn i).bind fun e =>
        if e.fixed then some e else if e.hit then some { e with hit := false, stale := false }
        else if e.stale then none else some { e with stale := true }) ∧
  (∀ (s : State) (dt w : Nat) (r : StopRepeat) (rest : List Nat) (k : List Byte), s.pwr.state = .run → s.fab.fault = false →
    s.fab.repeats = [r] → r.windows = w :: rest → w ≤ (s.elapse dt).stopWindow → s.fabTxKey = some k →
    (∀ h ∈ s.fab.held, h.bytes.take 16 = s.stopBody r.stop r.count r.scope w →
      h.bytes = s.stopBody r.stop r.count r.scope w ++ cmac8 k (s.stopBody r.stop r.count r.scope w)) →
    reaches (exec (.fabStopRepeat dt) s) fun t =>
      t.fab.repeats = (if rest = [] then [] else [{ r with windows := rest }]) ∧
      s.flooded t none 0 (fun f => let b := s.stopBody r.stop r.count r.scope w
        frBody f = b ++ cmac8 k b ∧ frHops f = s.scopeHops r.scope % 256) ∧
      t = { s.elapse dt with fab := { s.fab with ports := t.fab.ports, seqs := t.fab.seqs, repeats := t.fab.repeats } })

/-- FAB_SEND of a unicast frame with a route and room queues the frame with the payload as its data and its HOP_LIMIT, 32 for a
machine message, and completes OK, and without a route completes NO_ROUTE; a flood joins the queue of every UP port with
room and completes OK where there is one, and else, as log entry 79 chooses, NO_ROUTE with no port UP and BUSY with every
queue full. FAB_RECV waits while fewer than 16 wait, else completes BUSY. FAB_LEARN inserts an entry that its key then
finds, removes one, looks one up with HIT set, and reads a slot; a key not in the table completes NOT_FOUND. FAB_LEARN_EVENT
with records waiting moves as many as its payload holds, and otherwise waits. FAB_MODULE moves bytes to and from an
acknowledging module. (R411, R412, R419, R420, R421, R422, R423) -/
def Obligations.FabricDescriptorsAct : Prop :=
  (∀ (s : State) (dt ring index cls dst : Nat) (payload : List Byte) (d : Desc), s.offers ring index opFabSend d →
    s.fabStop = none → s.fab.addrState = .claimed → d.operand 2 1 = cls → (cls = 2 ∨ cls = 4 ∨ cls = 5) →
    1 ≤ d.len → d.len ≤ (if cls = 4 then 255 else 2048) → 1 ≤ d.operand 3 1 → d.operand 3 1 ≤ 32 →
    d.operand 0 2 % 2 ^ 14 = dst → (cls = 4 → dst ≠ 0) → dst ≠ s.claimedAddr →
    reaches (exec (.fabSend dt ring index payload) s) fun t =>
      (dst = fabBroadcast → cls ≠ 4 →
        s.flooded t none cls (fun f => frDst f = dst ∧ frHops f = d.operand 3 1 ∧ frFlood f = true ∧
          frBody f = padTo d.len payload) ∧
        (s.elapse dt).replies t d (if ∃ q ∈ s.upPorts, (s.egress q cls).length < queueDepth cls then St.ok
          else if s.upPorts = [] then St.noRoute else St.busy) []) ∧
      (∀ p, cls = 4 ∨ dst ≠ fabBroadcast → s.routePort dst = some p → (s.egress p cls).length < queueDepth cls →
        (∃ f, t.egress p cls = s.egress p cls ++ [f] ∧ frDst f = dst ∧ frHops f = (if cls = 4 then 32 else d.operand 3 1) ∧
          (frBody f).drop (if cls = 4 then 20 else 0) = padTo d.len payload) ∧
        (s.elapse dt).replies t d St.ok []) ∧
      (cls = 4 ∨ dst ≠ fabBroadcast → s.routePort dst = none → t.fab = { s.fab with noRoute := s.fab.noRoute + 1 } ∧
        (s.elapse dt).replies t d St.noRoute [])) ∧
  (∀ (s : State) (dt ring index : Nat) (d : Desc), s.offers ring index opFabRecv d → s.fabStop = none →
    reaches (exec (.fabRecv dt ring index) s) fun t =>
      ((s.waiters opFabRecv).length < 16 → (s.elapse dt).waits t d) ∧
      (16 ≤ (s.waiters opFabRecv).length → (s.elapse dt).replies t d St.busy [] ∧ (s.elapse dt).answerOnly t)) ∧
  (∀ (s : State) (dt ring index : Nat) (d : Desc), s.offers ring index opFabLearn d → s.fabStop = none → learnOp d = 0 →
    (learnFind s.fab.learn (d.operand 8 8)).isSome = true ∨
      (learnFree s.fab.learn (learnSlots 0 (d.operand 8 8) ++ learnSlots 1 (d.operand 8 8))).isSome = true →
    reaches (exec (.fabLearnInsert dt ring index) s) fun t =>
      ∃ i e, learnFind t.fab.learn (d.operand 8 8) = some i ∧ tfind t.fab.learn i = some e ∧ e.key = d.operand 8 8 ∧
        e.home = d.operand 4 2 % 2 ^ 14 ∧ e.port = d.operand 2 1 ∧ e.hit = true ∧ e.stale = false ∧
        e.fixed = bit (d.operand 1 1) 0 ∧ (∀ k, k ≠ i → tfind t.fab.learn k = tfind s.fab.learn k) ∧
        (s.elapse dt).replies t d St.ok e.bytes) ∧
  (∀ (s : State) (dt ring index : Nat) (d : Desc), s.offers ring index opFabLearn d → s.tidy → s.fabStop = none →
    (learnOp d = 1 → reaches (exec (.fabLearnRemove dt ring index) s) fun t =>
      (∀ i e, learnFind s.fab.learn (d.operand 8 8) = some i → tfind s.fab.learn i = some e →
        tfind t.fab.learn i = none ∧ (∀ k, k ≠ i → tfind t.fab.learn k = tfind s.fab.learn k) ∧
        (s.elapse dt).replies t d St.ok e.bytes) ∧
      (learnFind s.fab.learn (d.operand 8 8) = none → t.fab = s.fab ∧ (s.elapse dt).replies t d St.notFound [])) ∧
    (learnOp d = 2 → reaches (exec (.fabLearnLookup dt ring index) s) fun t =>
      (∀ i e, learnFind s.fab.learn (d.operand 8 8) = some i → tfind s.fab.learn i = some e →
        tfind t.fab.learn i = some { e with hit := true } ∧ (∀ k, k ≠ i → tfind t.fab.learn k = tfind s.fab.learn k) ∧
        (s.elapse dt).replies t (d.clampIf (3 < d.operand 0 1)) St.ok ({ e with hit := true } : LearnEntry).bytes) ∧
      (learnFind s.fab.learn (d.operand 8 8) = none → t.fab = s.fab ∧
        (s.elapse dt).replies t (d.clampIf (3 < d.operand 0 1)) St.notFound [])) ∧
    (learnOp d = 3 → d.operand 6 2 ≤ 8195 → reaches (exec (.fabLearnRead dt ring index) s) fun t =>
      (s.elapse dt).answered t [] d St.ok (LearnEntry.result (tfind s.fab.learn (d.operand 6 2))) ∧
      (s.elapse dt).answerOnly t)) ∧
  (∀ (s : State) (dt ring index : Nat) (d : Desc), s.offers ring index opFabLearnEvent d → s.fabStop = none → 32 ≤ d.len →
    s.waiters opFabLearnEvent = [] →
    reaches (exec (.fabLearnEvent dt ring index) s) fun t =>
      (s.fab.events = [] → (s.elapse dt).waits t d) ∧
      (s.fab.events ≠ [] → (∀ e ∈ s.fab.events, e ≠ []) →
        let n := min (d.len / 32) s.fab.events.length
        t.fab = { s.fab with events := s.fab.events.drop n } ∧
        (s.elapse dt).delivers t [.hostWrite d.addr (s.fab.events.take n).flatten]
          { d with phase := .waiting, execAt := some (s.elapse dt).now } St.ok (leBytes 2 n))) ∧
  (∀ (s : State) (dt ring index p cnt : Nat) (d : Desc), s.offers ring index opFabModule d → s.fabStop = none →
    d.operand 0 1 = p → p < s.id.part.fabs → (s.fabPort p).modPresent = true → d.operand 1 1 ≤ 1 → d.operand 4 1 = cnt →
    1 ≤ cnt → cnt ≤ 128 → d.operand 2 1 + cnt ≤ 256 → d.len = cnt →
    (∀ data, d.operand 3 1 = 0 →
      (reaches (exec (.fabModuleRead dt ring index data true) s) fun t =>
        (s.elapse dt).answered t [.hostWrite d.addr (padTo cnt data)] d St.ok [] ∧ (s.elapse dt).answerOnly t) ∧
      (reaches (exec (.fabModuleRead dt ring index data false) s) fun t =>
        (s.elapse dt).answered t [] d St.moduleNack [] ∧ (s.elapse dt).answerOnly t)) ∧
    (∀ payload acked, d.operand 3 1 = 1 →
      let pieces := modulePieces 32 (d.operand 2 1) (padTo cnt payload)
      let sent := (pieces.take acked).map fun e => Out.module p (0xA0 + 2 * d.operand 1 1) (leBytes 1 e.1 ++ e.2)
      reaches (exec (.fabModuleWrite dt ring index payload acked) s) fun t =>
        (s.elapse dt).answered t sent d (if acked < pieces.length then St.moduleNack else St.ok) [] ∧
        (s.elapse dt).answerOnly t))

/-- A boundary before which no commit falls due numbers the superframe, puts a waiting slot table in force, ends silence, keeps
the Sandstorm exactly while the latch is set, and discards section commands whose time has passed; where the radios do not
run outside SAFE_HOLD the table takes effect too. A slot that begins after the commits due by then is entered once: an
owner's slot listens around the TX point and a shared slot with no answer due for four fifths of it, with the front-end
lines at the RX pattern; a beacon slot with a key puts a beacon on the air between the TX pattern and the idle pattern. The
Key Store then holds stop frames of the next eight slots only. A machine slot that ends without a good frame counts as
missed, the third in a row loses the link; with one it counts none; a frame that the slot has received is delivered first.
Neither begins before a commit that is due. The widths of the windows and the answers of a shared slot are the spec's; that
a table takes effect whether or not the radios run is log entry 46, the Sandstorm of ports that were silent log entry 65,
and frames held ready log entry 46. (R10, R231, R232, R236, R242, R245, R249, R253, R264) -/
def Obligations.SuperframesAndSlotsRun : Prop :=
  (∀ (s : State) (dt : Nat), s.tidy → s.radiosRun = true → s.pwr.inReset = false → s.unitOn U.hop = true → s.hop.sf ≠ (s.elapse dt).now / sfNs →
    (s.elapse dt).commitWaits ((s.elapse dt).now / sfNs * sfNs) = false →
    reaches (exec (.superframeBoundary dt) s) fun t =>
      t.hop.sf = (s.elapse dt).now / sfNs ∧
      (∀ p, s.hopEnabled p = true → (t.hopPort p).table = ((s.hopPort p).next.getD (s.hopPort p).table) ∧
        (t.hopPort p).next = none ∧ (t.hopPort p).silent = false ∧
        (s.stp.latched = true → (t.hopPort p).storm = true) ∧ (t.stp.latched = false → (t.hopPort p).storm = false)) ∧
      (∀ b ∈ t.hop.queue, b.late = 0 ∨ (s.elapse dt).now < b.late)) ∧
  (∀ (s : State) (dt : Nat), s.tidy → s.radiosRun = false → s.pwr.state ≠ .safeHold → s.pwr.inReset = false →
    s.unitOn U.hop = true → s.hop.sf ≠ (s.elapse dt).now / sfNs →
    (s.elapse dt).commitWaits ((s.elapse dt).now / sfNs * sfNs) = false →
    reaches (exec (.superframeBoundary dt) s) fun t =>
      t.hop.sf = (s.elapse dt).now / sfNs ∧
      (∀ p, t.hopPort p = if s.hopEnabled p then
        { s.hopPort p with table := (s.hopPort p).next.getD (s.hopPort p).table, next := none } else s.hopPort p) ∧
      State.eventsOnly { s.elapse dt with hop := t.hop } t) ∧
  (∀ (s : State) (dt p : Nat), s.tidy → s.hopLive p = true → (s.hopPort p).cur = none → (s.hopPort p).storm = false →
    let now := (s.elapse dt).now
    let asn := now / s.slotNs p
    let i := now % sfNs / s.slotNs p
    let tab := (s.hopPort p).table
    let tx := s.slotAt p asn + s.txPoint p
    s.hop.sf = now / sfNs → (s.hopPort p).served ≠ some asn → s.anchorHere p i (now / sfNs) = false →
    (s.elapse dt).commitWaits (s.slotAt p asn) = false →
    let free := fun a : Nat => if (s.hopPort p).busy = 0 then a else max a ((s.hopPort p).busy + 2000 - s.slotAt p asn)
    let opens := fun a : Nat => Out.frontEnd p (s.slotAt p asn + free a) (s.act F.RAD_PORT_CTRL_FEM_RX p)
    reaches (exec (.slotStart dt p) s) fun t =>
      (t.hopPort p).served = some asn ∧ (t.hopPort p).table = tab ∧
      (∀ f ∈ (t.hopPort p).held, asn ≤ f.asn ∧ f.asn < asn + 8) ∧
      ((stType tab i = 4 ∨ stType tab i = 5) → s.joined (stOwner tab i) = true → (s.machLink (stOwner tab i)).port = p →
        (t.hopPort p).cur = some ⟨asn, s.slotAt p asn / sfNs, i, some (.machine (stOwner tab i) (stType tab i = 4)),
          free (s.txPoint p - s.machGuard p), s.txPoint p + s.machGuard p, false, false, none⟩ ∧
        t.out = s.out ++ [opens (s.txPoint p - s.machGuard p)]) ∧
      (stType tab i = 6 → s.answerDue p i (now / sfNs) false = none →
        (t.hopPort p).cur = some ⟨asn, s.slotAt p asn / sfNs, i, some .shared, free 0, s.slotNs p * 4 / 5, false, false, none⟩ ∧
        t.out = s.out ++ [opens 0]) ∧
      (stType tab i = 1 → (s.formKey p asn (s.hopPort p).beaconKey).isSome = true →
        let fin := s.txStart p tx + s.air p 0 26
        (∃ f, rfType f = 0 ∧ rfNet f = s.act F.HOP_CTRL_NET_ID % 65536 ∧ f.length = 26 ∧
          t.out = s.out ++ [.frontEnd p (max now (s.txStart p tx - 2000)) (s.act F.RAD_PORT_CTRL_FEM_TX p),
            .radio p (s.txStart p tx) (stChannel tab i asn) f, .frontEnd p (fin + 2000) (s.act F.RAD_PORT_CTRL_FEM_IDLE p)]) ∧
        (t.hopPort p).busy = fin)) ∧
  (∀ (s : State) (dt p m : Nat) (c : CurSlot), s.tidy → s.radiosRun = true → (s.hopPort p).cur = some c →
    s.spanEnd p c ≤ (s.elapse dt).now → (s.elapse dt).commitWaits (s.spanEnd p c) = false → c.got = none →
    c.listen = some (.machine m true) → s.stp.latched = false →
    (s.hopPort p).storm = false → s.joined m = true →
    reaches (exec (.slotEnd dt p) s) fun t =>
      (t.hopPort p).cur = none ∧
      (c.good = true → t.machLink m = { s.machLink m with missed := 0 }) ∧
      (c.good = false → (s.machLink m).missed < 2 →
        t.machLink m = { s.machLink m with missed := (s.machLink m).missed + 1 }) ∧
      (c.good = false → 2 ≤ (s.machLink m).missed → (t.machLink m).state = .linkLost ∧ t.stp.lostSince.getLsbD m = decide (m < 256))) ∧
  (∀ (s : State) (dt p m time rssi : Nat) (c : CurSlot) (k : LinkKeys) (f : List Byte), s.tidy → s.radiosRun = true →
    (s.hopPort p).cur = some c → s.spanEnd p c ≤ (s.elapse dt).now → s.slotAt p c.asn + s.slotNs p ≤ (s.elapse dt).now →
    (s.elapse dt).commitWaits (s.spanEnd p c) = false → c.got = some (time, rssi, f) → c.listen = some (.machine m true) →
    s.stp.latched = false → (s.hopPort p).storm = false → s.joined m = true → rfNet f = s.act F.HOP_CTRL_NET_ID → rfType f = 5 →
    rfAddr f = m → rfEnc f = true → s.sessionOf m = some k →
    reaches (exec (.slotEnd dt p) s) fun t =>
      (t.hopPort p).cur = none ∧
      ∀ g, ccmOpen k.up.value (hopNonce (meEui (s.machine m)) c.asn) f true = some [g] →
        (t.machLink m).missed = 0 ∧ (t.machLink m).heldGen = g.toNat) ∧
  (∀ (s : State) (dt p : Nat) (c : CurSlot), (s.hopPort p).cur = some c → (s.elapse dt).commitWaits (s.spanEnd p c) = true →
    exec (.slotEnd dt p) s = .next (s.elapse dt))

/-- An authentic uplink of the slot's owner is the slot's good frame and leaves its schedule generation; one that fails its MIC
counts in MIC_FAIL. An authentic join request joins the answers of its slot. An authentic poll of the node of its slot
counts as the poll of its superframe and, outside the latch, is to be acknowledged in the next slot unless that has begun.
An authentic pendant stop of an enabled pendant, in whatever slot the port listens, requests its class from PENDANT where
the source is enabled; one of another slot's ASN or that fails its CMAC counts as rejected and leaves the latch as it is,
and the latter counts in MIC_FAIL. A frame other than a pendant stop whose slot still runs is kept, and one whose preamble
came later than that of the frame kept changes nothing. When a frame is taken, and that a pendant's stop once taken stands,
is log entry 46; the functions of the ciphers are log entry 4; that a request of the same tick belongs to the same stage is
log entry 67. (R232, R238, R247, R250, R256, R338, R339, R550) -/
def Obligations.RadioFramesAreTaken : Prop :=
  (∀ (s : State) (dt p time rssi m : Nat) (up : Bool) (c : CurSlot) (k : LinkKeys) (f : List Byte), s.tidy →
    (s.elapse dt).rxSlot p time f.length = some c →
    s.slotAt p c.asn + s.slotNs p ≤ (s.elapse dt).now → rfNet f = s.act F.HOP_CTRL_NET_ID → rfType f = 5 →
    c.listen = some (.machine m up) → rfAddr f = m → rfEnc f = true → s.sessionOf m = some k →
    reaches (exec (.uplinkReceived dt p time rssi f) s) fun t =>
      (∀ body, ccmOpen k.up.value (hopNonce (meEui (s.machine m)) c.asn) f true = some body →
        (t.machLink m).heldGen = byteAt body 0 ∧ (t.hopPort p).rssi = BitVec.ofNat 8 rssi ∧
        ∃ c', (t.hopPort p).cur = some c' ∧ c'.heard = true ∧ c'.good = true ∧ c'.index = c.index) ∧
      (ccmOpen k.up.value (hopNonce (meEui (s.machine m)) c.asn) f true = none →
        t.hopPort p = { s.hopPort p with
          micFail := (s.hopPort p).micFail + 1, cur := some { c with heard := true, good := false, got := none } } ∧
        t = { s.elapse dt with hop := { s.hop with ports := t.hop.ports } })) ∧
  (∀ (s : State) (dt p time rssi : Nat) (c : CurSlot) (j f : List Byte), s.tidy →
    (s.elapse dt).rxSlot p time f.length = some c →
    s.slotAt p c.asn + s.slotNs p ≤ (s.elapse dt).now → rfNet f = s.act F.HOP_CTRL_NET_ID → rfType f = 6 →
    c.listen = some .shared → rfEnc f = false → 28 ≤ f.length → s.joinKey (beNat (slice f 6 8)) = some j →
    reaches (exec (.joinReqReceived dt p time rssi f) s) fun t =>
      ∀ b, ccmOpen (kdf j false Label.mgJoinUp [] 16) (hopNonce (beNat (slice f 6 8)) c.asn) f false = some b →
      (t.hopPort p).answers = (s.hopPort p).answers ++
        [.join c.index (beNat (slice f 6 8)) (slice b 8 4) (byteAt b 12 + 256 * b2n s.stp.latched) c.asn c.sf 0 none] ∧
      t = { s.elapse dt with hop := { s.hop with ports := t.hop.ports } }) ∧
  (∀ (s : State) (dt p time rssi n : Nat) (c : CurSlot) (k : LinkKeys) (f : List Byte), s.tidy →
    (s.elapse dt).rxSlot p time f.length = some c →
    s.slotAt p c.asn + s.slotNs p ≤ (s.elapse dt).now → rfNet f = s.act F.HOP_CTRL_NET_ID → rfType f = 8 →
    c.listen = some (.node n) → rfAddr f = ntShort s.hop.nodeTable n → rfEnc f = true → s.sessionOf (rfAddr f) = some k →
    reaches (exec (.nodePollReceived dt p time rssi f) s) fun t =>
      ∀ body, ccmOpen k.up.value (hopNonce (ntEui s.hop.nodeTable n) c.asn) f true = some body →
      (t.nodeLink n).missed = 0 ∧ (t.nodeLink n).polled = some c.sf ∧
      ((s.hopPort p).served ≠ some (c.asn + 1) → t.nodeLink n = { s.nodeLink n with missed := 0, polled := some c.sf } ∧
        (s.stp.latched = false → (s.hopPort p).storm = false → (t.hopPort p).ackDue = some (n, c.asn + 1))) ∧
      (s.stp.latched = true → t.nodeLink n = { s.nodeLink n with missed := 0, polled := some c.sf } ∧
        (t.hopPort p).ackDue = (s.hopPort p).ackDue)) ∧
  (∀ (s : State) (dt p time rssi n : Nat) (c : CurSlot) (k f : List Byte), s.tidy →
    (s.elapse dt).rxSlot p time f.length = some c → rfNet f = s.act F.HOP_CTRL_NET_ID → rfType f = 10 →
    let is := fun x => s.act F.STP_PENDANT_EN x = 1 ∧ ntEn s.hop.nodeTable (s.act F.STP_PENDANT_NODE x) = true ∧
      ntShort s.hop.nodeTable (s.act F.STP_PENDANT_NODE x) = rfAddr f
    s.unitOn U.stp = true → n < 16 → is n → (∀ x, x < n → ¬ is x) → s.readyKey (s.act F.STP_PENDANT_KEY_RECORD) = some k →
    f.length = 24 →
    let ofSlot := fieldLE f 6 5 = c.asn % 2 ^ 40 ∨ fieldLE f 6 5 = (c.asn - 1) % 2 ^ 40
    let mac := cmac8 k (euiBytes (ntEui s.hop.nodeTable (s.act F.STP_PENDANT_NODE n)) ++ f.take 16)
    reaches (exec (.pendantStopReceived dt p time rssi f) s) fun t =>
      (mac = f.drop 16 → ofSlot →
        if s.stopSource F.STP_SRC_PENDANT then
          Stp.requested s.stp t.stp (s.clk.counter + dt) 6 (bit (byteAt f 11) 0 && s.act F.STP_PENDANT_STOP_OK n = 1)
        else t.stp = s.stp) ∧
      (mac ≠ f.drop 16 ∨ ¬ ofSlot → t.stp = { s.stp with pendantReject := s.stp.pendantReject + 1 } ∧
        (t.hopPort p).micFail = if ofSlot then (s.hopPort p).micFail + 1 else (s.hopPort p).micFail)) ∧
  (∀ (s : State) (dt p time rssi : Nat) (c : CurSlot) (f : List Byte) (cmd : Instr), s.tidy →
    (cmd = .uplinkReceived dt p time rssi f ∧ rfType f ≠ 6 ∧ rfType f ≠ 8 ∧ rfType f ≠ 10) ∨
      (cmd = .joinReqReceived dt p time rssi f ∧ rfType f = 6) ∨ (cmd = .nodePollReceived dt p time rssi f ∧ rfType f = 8) →
    (s.hopPort p).cur = some c → (s.elapse dt).now < s.slotAt p c.asn + s.slotNs p →
    ((s.elapse dt).rxSlot p time f.length = some c → reaches (exec cmd s) fun t =>
      t.hopPort p = { s.hopPort p with cur := some { c with got := some (time, rssi, f) } } ∧
      t = { s.elapse dt with hop := { s.hop with ports := t.hop.ports } }) ∧
    (∀ g, c.got = some g → g.1 ≤ time → exec cmd s = .next (s.elapse dt)))

/-- HOP_SEND to a joined machine whose port's queue has room and a slot that holds the message (with the PORT operand in range)
queues it as the last block and waits until it is sent; to an address that is not joined it completes NOT_JOINED. HOP_RECV
waits while fewer than 8 wait, else completes BUSY. When UNSYNC_HOLD has passed, no block of an unsynced node stays queued,
and every other node's block without a descriptor does. (R261, R266, R267) -/
def Obligations.DownlinksAreQueuedAndDiscarded : Prop :=
  (∀ (s : State) (dt ring index a : Nat) (payload : List Byte) (d : Desc), s.offers ring index opHopSend d →
    s.unitOn U.hop = true → d.operand 0 2 = a → a < 256 → d.operand 2 1 ≤ 3 → 1 ≤ d.len →
    reaches (exec (.hopSend dt ring index payload) s) fun t =>
      (s.joined a = true → d.len ≤ s.messageCap (s.machLink a).port a → s.messagesOn (s.machLink a).port < 256 →
        let b : DlBlock := ⟨a, (s.machLink a).port, DL.message, padTo d.len payload, 0, 0, some d.serial, false⟩
        State.waits { s.elapse dt with hop := { s.hop with queue := s.hop.queue ++ [b] } } t d) ∧
      (s.joined a = false → (s.elapse dt).replies t d St.notJoined [] ∧ (s.elapse dt).answerOnly t)) ∧
  (∀ (s : State) (dt ring index : Nat) (d : Desc), s.offers ring index opHopRecv d → s.unitOn U.hop = true →
    reaches (exec (.hopRecv dt ring index) s) fun t =>
      ((s.waiters opHopRecv).length < 8 → (s.elapse dt).waits t d) ∧
      (8 ≤ (s.waiters opHopRecv).length → (s.elapse dt).replies t d St.busy [] ∧ (s.elapse dt).answerOnly t)) ∧
  (∀ (s : State) (dt k : Nat), s.radiosRun = true → k < ntCount s.hop.nodeTable → (s.nodeLink k).unsynced = true →
    (s.nodeLink k).unsyncAt + s.reg F.HOP_NODE_CTRL_UNSYNC_HOLD * tickS ≤ s.clk.counter + dt →
    (∃ b ∈ s.hop.queue, b.addr = ntShort s.hop.nodeTable k) →
    reaches (exec (.hopNodeDlDiscard dt k) s) fun t =>
      (∀ b ∈ t.hop.queue, b ∈ s.hop.queue ∧ b.addr ≠ ntShort s.hop.nodeTable k) ∧
      (∀ b ∈ s.hop.queue, b.addr ≠ ntShort s.hop.nodeTable k → b.desc = none → b ∈ t.hop.queue) ∧
      t.hop = { s.hop with queue := t.hop.queue } ∧
      (s.hop.queue.all (fun b => b.addr ≠ ntShort s.hop.nodeTable k || b.desc.isNone) = true →
        t.hop.queue = s.hop.queue.filter (fun b => b.addr ≠ ntShort s.hop.nodeTable k) ∧
        State.eventsOnly { s.elapse dt with hop := t.hop } t))

/-- A 32-bit aligned write to a register with staged fields, with VIEW 0, changes that register in staging to the old word with
each staged field of the part replaced by the clamped value, and no other staged register; without staged fields or with
VIEW 1 staging stays. Of a register with immediate fields it changes these in the same way in the immediate register, and no
other immediate register; a register of mixed access gets both. The active configuration stays. In a register whose bits are
cleared by writing 1, a write with the bit set clears the bit and the count beside it, and one without it changes nothing; a
tamper input's bit stays while the input is active (log entry 14). A submission ring's base address is put in force by the
write of its _HI register, with the value of _LO written last, and not by that of _LO. An access of another size or
alignment does nothing. (R33, R34, R40, R41, R43, R48, R380, R547) -/
def Obligations.RegistersAreWrittenAndStaged : Prop :=
  (∀ (s : State) (dt off v : Nat) (r : RegDef), s.tidy → s.writable = true → off % 4 = 0 → off < 2 ^ 20 → v < 2 ^ 32 →
    ownCommand off = false → s.ringLocked off = false → s.wdogLocked off = false → s.id.part.fitMask off ≠ 0 →
    arrayIdx off 0xDA00 4 256 = none → off ≠ 0x3020 → off ≠ 0x201C → regAt off = some r →
    reaches (exec (.registerWrite dt off 4 v) s) fun t =>
      let word := fun (a : Acc) (w : Word) => BitVec.ofNat 32 (r.store a (s.id.part.fitMask off) w.toNat v).1
      let d := fun (a : Acc) => BitVec.ofNat 32 (r.resetWord a)
      t.cfg.active = s.cfg.active ∧ t.cfg.units = s.cfg.units ∧ t.cfg.generation = s.cfg.generation ∧
      (r.fields.any (fun f => f.acc = .rws) = true → s.reg F.CFG_CTRL_VIEW = 0 →
        tget t.cfg.staged.regs (d .rws) off = word .rws (tget s.cfg.staged.regs (d .rws) off) ∧
        (∀ k, k ≠ off → tfind t.cfg.staged.regs k = tfind s.cfg.staged.regs k) ∧
        t.cfg.staged = { s.cfg.staged with regs := t.cfg.staged.regs }) ∧
      (r.fields.any (fun f => f.acc = .rws) = false ∨ s.reg F.CFG_CTRL_VIEW ≠ 0 → t.cfg.staged = s.cfg.staged) ∧
      (r.fields.any (fun f => f.acc = .rw) = false → t.direct = s.direct) ∧
      (r.fields.any (fun f => f.acc = .rw) = true →
        tget t.direct (d .rw) off = word .rw (tget s.direct (d .rw) off) ∧
        (∀ k, k ≠ off → tfind t.direct k = tfind s.direct k))) ∧
  (∀ (s : State) (dt n v : Nat), s.tidy → s.writable = true → n < 64 → v < 2 ^ 32 → (s.ring n).state = .disabled →
    (reaches (exec (.registerWrite dt (0xD104 + 32 * n) 4 v) s) fun t =>
      t.pairBase F.HST_RING_SQ_BASE_LO_ADDR n = s.reg F.HST_RING_SQ_BASE_LO_ADDR n + 2 ^ 32 * v) ∧
    (reaches (exec (.registerWrite dt (0xD100 + 32 * n) 4 v) s) fun t => t.hst = s.hst)) ∧
  (∀ (s : State) (dt off size v : Nat), size ≠ 4 ∨ off % 4 ≠ 0 → exec (.registerWrite dt off size v) s = .next (s.elapse dt)) ∧
  (∀ (s u : State) (dt off v : Nat), s.writable = true → v < 2 ^ 32 → s.id.part.fitMask off ≠ 0 →
    let e := s.elapse dt
    (off = 0x1014 ∧ u = { e with cfg := { e.cfg with clamped := false, clampCount := 0 } }) ∨
      (off = 0x20D0 ∧ u = { e with tb := { e.tb with stampOvf := false, stampDrops := 0 } }) ∨
      (off = 0x401C ∧ u = { e with gns := { e.gns with ovf := false, drops := 0 } }) ∨
      (off = 0x6040 ∧ u = { e with fix := { e.fix with ovf := false, drops := 0 } }) ∨
      (off = 0x7010 ∧ u = { e with fld := { e.fld with eccSeen := false, eccBlocks := 0 } }) ∨
      (off = 0x7060 ∧ u = { e with fld := { e.fld with overflow := false, foreign := 0 } }) ∨
      (off = 0xE018 ∧ u = { e with fab := { e.fab with evqOverflow := false } }) ∨
      (off = 0xF020 ∧ u = { e with dis := { e.dis with traceOvf := false, traceDrops := 0 } }) ∨
      (off = 0x15004 ∧ u = { e with pwr := { e.pwr with slow := false, stageMax := 0 } }) →
    exec (.registerWrite dt off 4 v) s = .next (if bit v 31 then u else e)) ∧
  (∀ (s : State) (dt v n : Nat), s.tidy → s.writable = true → v < 2 ^ 32 →
    exec (.registerWrite dt 0xD018 4 v) s = .next { s.elapse dt with
      hst := { s.hst with dbFail := s.hst.dbFail && !bit v 30, dmaErr := s.hst.dmaErr && !bit v 31 } } ∧
    (n < 64 → reaches (exec (.registerWrite dt (0xD114 + 32 * n) 4 v) s) fun t =>
      t.ring n = (if bit v 3 then { s.ring n with badIndex := false } else s.ring n) ∧ (∀ k, k ≠ n → t.ring k = s.ring k) ∧
      t = { s.elapse dt with hst := { s.hst with rings := t.hst.rings } }) ∧
    reaches (exec (.registerWrite dt 0x3024 4 v) s) fun t =>
      (∀ i, i < 4 → t.cal.tamperStatus.getLsbD i = (s.cal.tamperStatus.getLsbD i && (!bit v i || s.tamperActive i))) ∧
      t.cal.tamperStatus.getLsbD 4 = (s.cal.tamperStatus.getLsbD 4 && !bit v 4) ∧
      t = { s.elapse dt with cal := { (s.elapse dt).cal with tamperStatus := t.cal.tamperStatus } })

/-- CFG_COMMIT with every ring disabled, HST_COMMIT without a launch time in the future, and a queued commit at its instant,
make the units they name active as the snapshot has them, count GENERATION and show ACCEPTED where the checks pass and no
fatal cause arises during them; where a check fails the active configuration, its units and GENERATION stay and CFG_STATUS
shows the refusal. A refused HST_COMMIT restores staging. One with a launch time ahead and room in the queue waits there and
changes no active configuration. A CFG_COMMIT written while CFG_STATUS shows BUSY is ignored. A fatal cause that the
commit's own operand brings during the checks abandons the commit: the active configuration stays, CFG_STATUS shows
ABANDONED, and the device is in SAFE_HOLD. That the effect stands from the beginning of the checks, and that a later commit
by ring or launch ends the check of a register commit, is the model's choice (log entry 52), as are what a commit reads of
the host (log entry 7), and the block of a commit while NV writes are stopped (log entry 53). (R29, R49, R50, R55, R56, R58,
R61, R62, R63, R64, R65, R385) -/
def Obligations.CommitsReplaceTheNamedUnits : Prop :=
  let taken := fun (s t : State) (snap : Conf) (mask : BitVec 20) =>
    t.cfg.active = s.cfg.active.withUnits snap mask ∧ t.cfg.units = s.cfg.units ||| mask ∧
    t.cfg.generation = s.cfg.generation + 1 ∧ t.cfg.result = 2 ∧ t.cfg.reason = 0 ∧ t.cfg.ruleId = 0
  let refused := fun (s t : State) (reason rule : Nat) =>
    t.cfg.active = s.cfg.active ∧ t.cfg.units = s.cfg.units ∧ t.cfg.generation = s.cfg.generation ∧ t.cfg.result = 3 ∧
    t.cfg.reason = reason ∧ t.cfg.ruleId = rule
  (∀ (s : State) (dt : Nat) (v : Word) (env : CommitIn), s.pwr.inReset = false → s.hst.fault = false →
    s.pwr.state ≠ .safeHold → bits v.toNat 24 8 = 0x5C → s.cfg.busyUntil ≤ s.clk.counter + dt →
    let mask : BitVec 20 := BitVec.ofNat 20 v.toNat
    let x := ((s.elapse dt).beginCheck env).candidate' (s.cfg.staged.only mask) mask env.host false
    reaches (exec (.cfgCommit dt v env) s) fun t =>
      t.cfg.staged = s.cfg.staged ∧
      (mask = 0 → refused s t 0xA 0) ∧
      (mask ≠ 0 → (∃ r ∈ s.hst.rings, r.2.state ≠ .disabled) → refused s t 7 0) ∧
      (∀ c, mask ≠ 0 → (∀ r ∈ s.hst.rings, r.2.state = .disabled) → fatalCause env = some c →
        (s.pwr.state = .run ∨ s.pwr.state = .waitHost) → s.pwr.causes = 0 → refused s t 9 0 ∧ t.pwr.state = .safeHold ∧ t.pwr.fatal = c) ∧
      (mask ≠ 0 → (∀ r ∈ s.hst.rings, r.2.state = .disabled) → fatalCause env = none →
        match x.1.checkCommit x.2 [] (v.getLsbD 20) with
        | none => taken s t (s.cfg.staged.only mask) mask
        | some (reason, rule) => refused s t reason rule)) ∧
  (∀ (s : State) (dt : Nat) (v : Word) (env : CommitIn), s.clk.counter + dt < s.cfg.busyUntil →
    exec (.cfgCommit dt v env) s = .next (s.elapse dt)) ∧
  (∀ (s : State) (dt ring index : Nat) (payload : List Byte) (env : CommitIn) (d : Desc) (b : Block),
    s.offers ring index opCommit d → d.len ≤ 131072 → fatalCause env = none →
    b = ⟨BitVec.ofNat 20 (d.operand 0 4), bit (d.operand 4 1) 0, []⟩ ∧ b.mask ≠ 0 ∧ d.len = 0 ∨
      d.len ≠ 0 ∧ parseBlock (padTo d.len payload) = some b →
    let staged := ((s.elapse dt).stageEntries b.entries)
    let snap := staged.cfg.staged.only b.mask
    let x := staged.endCheck.candidate' snap b.mask env.host false
    reaches (exec (.hstCommit dt ring index payload env.host env.toCommitRun) s) fun t =>
      match x.1.checkCommit x.2 b.entries b.persist with
      | none =>
        if (s.elapse dt).now < d.launch then
          (x.1.launchRoom = true → t.cfg.active = s.cfg.active ∧ t.cfg.units = s.cfg.units ∧
            t.cfg.generation = s.cfg.generation ∧ t.cfg.staged = staged.cfg.staged ∧
            ∃ l ∈ t.tb.launches, l.time = d.launch ∧ ∃ c, l.kind = .commit c ∧ c.snap = snap ∧ c.mask = b.mask ∧
              c.persist = b.persist) ∧
          (x.1.launchRoom = false → refused s t 6 0 ∧ t.cfg.staged = s.cfg.staged)
        else taken s t snap b.mask ∧ t.cfg.staged = staged.cfg.staged ∧
          ∃ a late ph h ex, .hostWrite a (complBytes { d with late := late } ph h St.ok 0 ex
            (commitResult 0 0 (s.cfg.generation + 1).toNat)) ∈ t.out
      | some (reason, rule) => refused s t reason rule ∧ t.cfg.staged = s.cfg.staged ∧
          ∃ a ph h ex, .hostWrite a (complBytes d ph h St.refused reason ex (commitResult rule 0 0)) ∈ t.out) ∧
  (∀ (s : State) (dt : Nat) (env : CommitIn) (l : Launch) (p : PendingCommit), fatalCause env = none →
    s.pwr.inReset = false → s.clk.frozen = false → (s.elapse dt).dueLaunch LaunchKind.isCommit = some l → l.kind = .commit p →
    let u := { s.elapse dt with tb := { s.tb with launches := s.tb.launches.erase l } }
    let x := u.endCheck.candidate' p.snap p.mask env.host true
    reaches (exec (.launchCommitApply dt env.host env.toCommitRun) s) fun t =>
      t.tb.launches = s.tb.launches.erase l ∧ t.cfg.staged = s.cfg.staged ∧
      match x.1.checkRules x.2 p.persist with
      | none => taken s t p.snap p.mask
      | some (reason, rule) => refused s t reason rule)

/-- In RUN, with no commit due on its tick or before it, no copy under way and no Field Store that waits for DRAM, the Section
Engine's due entry re-arms at T + P of the next superframe. With the previous step 2 over, the epoch counts, keeps the
longest time and when it ends (within 12 ms; that an operand above stands for some time within it is the model's choice, log
entry 78), no claim of superframe k − 2 or before stays, and while the stop latch is set no block is queued. With it still
running the epoch is skipped and only SKIP counts. With the FAULT set nothing but the re-arming happens. Whether the
previous step 2 is over is told by the 250 MHz counter, which no step of the time moves (log entry 39). (R97, R300, R301,
R303, R321, R17) -/
def Obligations.SectionEpochsRun : Prop :=
  ∀ (s : State) (dt us : Nat) (p : Periodic), s.tidy → s.pwr.state = .run → s.clk.frozen = false → s.fld.copying = false →
    (s.unitOn U.fld = false ∨ s.dramHeld = false) →
    s.tb.periodic.find? (fun q => q.unit = U.sec && q.time ≤ (s.elapse dt).now) = some p →
    (s.elapse dt).commitWaits p.time = false →
    reaches (exec (.secEpoch dt us) s) fun t =>
      (∃ q ∈ t.tb.periodic, q.unit = U.sec ∧ q.time = (p.time / sfNs + 1) * sfNs + s.act F.SEC_CTRL_PHASE * 125000) ∧
      (s.sec.fault = false → s.sec.runUntil ≤ s.clk.counter + dt →
        t.sec.epochs = s.sec.epochs + 1 ∧
        (∃ v, v ≤ 12000 ∧ (us ≤ 12000 → v = us) ∧ t.sec.maxUs = max s.sec.maxUs v ∧
          t.sec.runUntil = s.clk.counter + dt + tickUs * v) ∧ t.sec.skip = s.sec.skip ∧
        (∀ f ∈ t.sec.feedback, p.time < f.at') ∧
        (∀ e ∈ t.sec.claims, p.time / sfNs < e.2.apply' / sfNs + 2) ∧
        (s.stp.latched = true → t.hop.queue = s.hop.queue)) ∧
      (s.sec.fault = false → s.clk.counter + dt < s.sec.runUntil → t.sec = { s.sec with skip := s.sec.skip + 1 } ∧
        State.eventsOnly { s.elapse dt with tb := { s.tb with periodic := t.tb.periodic }, sec := t.sec, free := t.free } t ∧
        (us ≤ 12000 → t.free = s.free)) ∧
      (s.sec.fault = true → t = { s.elapse dt with tb := { s.tb with periodic := t.tb.periodic }, free := t.free } ∧
        (us ≤ 12000 → t.free = s.free))

/-- GNS_ACQ of an enabled signal on an enabled antenna takes a free unit, or one of 64 places in the queue, and waits; with
neither free it completes BUSY, and one of a disabled signal completes SIG_OFF. Its end answers OK with the peak that R155
finds in the powers of its windows, or NOT_FOUND; an AUTO search starts the channel that R157 picks, at the Doppler found
from the prediction, or within 5,000 Hz of zero where nothing is predicted. GNS_CHAN_CFG starts a channel in PULL_IN with
its signal and loop settings, releases it to IDLE, or replaces its settings (CHAN_IDLE when idle). A coherent interval moves
the channel to now and stores a decoded page. A channel locked for 100 ms tracks; a weak or unlocked one is LOST, or IDLE
under MANUAL. The order of the checks is log entry 43, SIG_OFF of an antenna that is not enabled and the COH above its limit
are log entry 82, RESULT of a search that found nothing is open (log entry 3), and the prediction of a search is log entry
70. (R154, R156, R157, R158, R159, R160, R161, R163) -/
def Obligations.ChannelsAndSearches : Prop :=
  (∀ (s : State) (dt ring index : Nat) (d : Desc), s.offers ring index opGnsAcq d → s.gnsStop = none → d.operand 0 1 ≤ 1 →
    (d.operand 0 1 = 1 → s.id.part ≠ .mg7716) →
    let r := (acqOperand d).1
    let d' := d.clampIf ((acqOperand d).2 ≠ 0)
    reaches (exec (.gnsAcq dt ring index) s) fun t =>
      (s.sigOn r.code = true → s.antOn r.antB = true → s.gns.running.length < s.acqUnits →
        State.waits { s.elapse dt with
          gns := { s.gns with running := s.gns.running ++ [(d.serial, s.clk.counter + dt)] }, cfg := t.cfg } t d' ∧
        t.cfg.active = s.cfg.active ∧ t.cfg.staged = s.cfg.staged) ∧
      (s.sigOn r.code = true → s.antOn r.antB = true → s.acqUnits ≤ s.gns.running.length →
        (s.gns.queue.length < 64 → State.waits { s.elapse dt with
          gns := { s.gns with queue := s.gns.queue ++ [d.serial] }, cfg := t.cfg } t d') ∧
        (64 ≤ s.gns.queue.length → s.gns.kept t.gns ∧ (s.elapse dt).replies t d' St.busy [])) ∧
      (s.sigOn r.code = false ∨ s.antOn r.antB = false → s.gns.kept t.gns ∧ (s.elapse dt).replies t d' St.sigOff [])) ∧
  (∀ (s : State) (dt ring index at' : Nat) (dwells : List (List Nat)) (d : Desc), s.tidy → s.gnsRuns = true →
    s.waitingAt ring index opGnsAcq = some d → s.awaits d →
    s.gns.running.find? (fun q => q.1 = d.serial) = some (d.serial, at') →
    let r := (acqOperand d).1
    let best := (r.search r.steps dwells none 0).1
    let used := (r.search r.steps dwells none 0).2
    at' + used * r.dwellMs * tickMs ≤ s.clk.counter + dt →
    reaches (exec (.gnsAcqDone dt (.host ring index dwells)) s) fun t =>
      (best = none → ∃ res, res.take 4 = leBytes 4 0xFFFFFFFF ∧ (s.elapse dt).replies t d St.notFound res) ∧
      (∀ c f x, best = some (c, f, x) →
        let res := leBytes 4 c ++ leBytes 4 (unsigned 32 f) ++ leBytes 2 (roundRat (4 * x)).toNat ++ leBytes 2 used
        (r.track = false → t.gns.chans = s.gns.chans ∧ (s.elapse dt).replies t d St.ok res) ∧
        (r.track = true → (s.chan r.chan).state = .idle → s.chanB r.chan = r.antB → s.antOn r.antB = true →
          (t.chan r.chan).state = .pullIn ∧ (t.chan r.chan).sig = r.code ∧ (t.chan r.chan).svid = r.svid ∧
          (t.chan r.chan).doppler = f ∧ (s.elapse dt).replies t d St.ok res) ∧
        (r.track = true → (s.chan r.chan).state ≠ .idle →
          t.gns.chans = s.gns.chans ∧ (s.elapse dt).replies t d St.chanBusy res))) ∧
  (∀ (s : State) (dt antenna code svid cell k : Nat) (slot offset : Int), s.tidy → s.gnsRuns = true →
    s.act F.GNS_CTRL_MODE ≠ 1 → s.antOn (decide (antenna = 1)) = true → (sigFind code).isSome = true → s.sigOn code = true →
    (svidRange (code / 16)).1 ≤ svid → svid ≤ (svidRange (code / 16)).2 → s.autoChan (decide (antenna = 1)) code svid = some k →
    let p := s.autoPlan (decide ((s.chan k).state = .lost))
    reaches (exec (.gnsAcqDone dt (.auto antenna code svid slot cell offset)) s) fun t =>
      (p.doppler ≠ none ∨ offset.natAbs ≤ 5000 →
        (t.chan k).state = .pullIn ∧ (t.chan k).sig = code ∧ (t.chan k).svid = svid ∧
        (t.chan k).doppler = ((p.doppler.getD 0 + offset : Int) : Rat) ∧ (∀ j, j ≠ k → t.chan j = s.chan j) ∧
        t = { s.elapse dt with gns := { s.gns with chans := t.gns.chans }, free := t.free }) ∧
      (p.doppler = none → 5000 < offset.natAbs → t = { s.elapse dt with free := t.free })) ∧
  (∀ (s : State) (dt ring index c : Nat) (d : Desc), s.tidy → s.offers ring index opGnsChan d → s.gnsStop = none →
    d.operand 0 2 = c → c ≤ 319 → s.antOn (s.chanB c) = true →
    (d.operand 2 1 = 0 → reaches (exec (.gnsChanStart dt ring index) s) fun t =>
      let g := sigOperand d 3
      let l := loopOperand d (sigOf g.1)
      (t.chan c).state = .pullIn ∧ (t.chan c).sig = g.1 ∧ (t.chan c).svid = g.2.1 ∧ (t.chan c).slot = g.2.2.1 ∧
      (t.chan c).cfg = l.1 ∧ (t.chan c).code = (d.operand 16 4 : Rat) / 256 ∧
      (t.chan c).doppler = (signed 32 (d.operand 20 4) : Rat) / 4096 ∧ (∀ j, j ≠ c → t.chan j = s.chan j) ∧
      (s.elapse dt).replies t (d.clampIf (g.2.2.2 + l.2 ≠ 0)) St.ok []) ∧
    (d.operand 2 1 = 1 → reaches (exec (.gnsChanRelease dt ring index) s) fun t =>
      t.chan c = Chan.reset ∧ (∀ j, j ≠ c → t.chan j = s.chan j) ∧ (s.elapse dt).replies t d St.ok []) ∧
    (d.operand 2 1 = 2 → reaches (exec (.gnsChanRetune dt ring index) s) fun t =>
      ((s.chan c).state = .idle → s.gns.kept t.gns ∧ (s.elapse dt).replies t d St.chanIdle []) ∧
      ((s.chan c).state ≠ .idle →
        let l := loopOperand d (sigOf (s.chan c).sig)
        t.chan c = { s.chan c with cfg := l.1 } ∧ (∀ j, j ≠ c → t.chan j = s.chan j) ∧
        (s.elapse dt).replies t (d.clampIf (l.2 ≠ 0)) St.ok []))) ∧
  (∀ (s : State) (dt k : Nat) (x : LoopIn), s.tidy → s.gnsRuns = true →
    ((s.chan k).state = .pullIn ∨ (s.chan k).state = .tracking) → (s.chan k).upd + (s.chan k).cohMs * tickMs ≤ s.clk.counter + dt →
    reaches (exec (.gnsLoopUpdate dt k x) s) fun t =>
      (t.chan k).upd = s.clk.counter + dt ∧ (t.chan k).bitSync = x.bitSync ∧ (t.chan k).secSync = x.secSync ∧
      (t.chan k).state = (s.chan k).state ∧ (t.chan k).sig = (s.chan k).sig ∧ (t.chan k).cfg = (s.chan k).cfg ∧
      (∀ j, j ≠ k → t.chan j = s.chan j) ∧
      (∀ kind n rx b, x.page = some (kind, n, rx, b) → t.gns.nav =
        navPut ⟨(s.chan k).sig, (s.chan k).svid, BitVec.ofInt 8 (s.chan k).slot, kind, n, rx, b⟩ s.gns.nav) ∧
      (x.page = none → t.gns.nav = s.gns.nav)) ∧
  (∀ (s : State) (dt k a : Nat), s.gnsRuns = true → (s.chan k).state = .pullIn → (s.chan k).lockAt = some a →
    a + 100 * tickMs ≤ s.clk.counter + dt → (s.chan k).pilot = true ∨ (s.chan k).bitSync = true →
    reaches (exec (.gnsChanTracking dt k) s) fun t =>
      t.chan k = { s.chan k with state := .tracking } ∧ (∀ j, j ≠ k → t.chan j = s.chan j) ∧
      t = { s.elapse dt with gns := { s.gns with chans := t.gns.chans } }) ∧
  (∀ (s : State) (dt k : Nat), s.tidy → s.gnsRuns = true → ((s.chan k).state = .pullIn ∨ (s.chan k).state = .tracking) →
    (∃ a, ((s.chan k).weakAt = some a ∧ a + tickS ≤ s.clk.counter + dt) ∨
      ((s.chan k).lowAt = some a ∧ a + 500 * tickMs ≤ s.clk.counter + dt)) →
    reaches (exec (.gnsChanLost dt k) s) fun t =>
      t.chan k = (if s.act F.GNS_CTRL_MODE = 1 then Chan.reset else { s.chan k with state := .lost }) ∧
      (∀ j, j ≠ k → t.chan j = s.chan j) ∧
      State.eventsOnly { s.elapse dt with gns := { s.gns with chans := t.gns.chans } } t)

/-- A capture waits for its samples from the first at or after its instant, and once COUNT samples of two ticks each have been
taken (that they fall on even ticks is the model's choice, log entry 69) it is answered with them and their start. A loaded
page enters the navigation store unless the store holds a younger one for its key; a save writes the chosen systems' pages
that fit. NOSIG is set when all three gains of an antenna have held their limit for a second, and cleared when one is
reported below 59 dB. At each whole multiple of the period, after the commits due by then, every reporting channel is
latched; when the records are complete the latch ends, SEQ counts for each record, and the write offset moves past a record
that the buffer has room for. What the antenna gives comes with the commands (log entries 51 and 61). (R143, R144, R150,
R152, R153, R162, R165, R166, R167) -/
def Obligations.SamplesPagesAndEpochs : Prop :=
  (∀ (s : State) (dt ring index : Nat) (d : Desc), s.offers ring index opGnsCapture d → s.gnsStop = none →
    d.operand 0 1 ≤ (if s.id.part = .mg7716 then 2 else 5) → 1 ≤ d.len → d.len ≤ 16777216 → d.operand 4 4 = d.len →
    let first := (s.elapse dt).firstSample
    reaches (exec (.gnsCapture dt ring index) s) fun t =>
      s.clk.counter + dt ≤ first ∧ first ≤ s.clk.counter + dt + 1 ∧
      State.waits { s.elapse dt with
        gns := { s.gns with captures := s.gns.captures ++ [(d.serial, first, (s.elapse dt).timeAt first)] } } t d) ∧
  (∀ (s : State) (dt ring index c0 t0 : Nat) (i q : List (BitVec 4)) (d : Desc), s.gnsRuns = true →
    s.waitingAt ring index opGnsCapture = some d → s.awaits d → d.len ≠ 0 →
    s.gns.captures.find? (fun e => e.1 = d.serial) = some (d.serial, c0, t0) →
    reaches (exec (.gnsCaptureDone dt ring index i q) s) fun t =>
      (c0 + 2 * d.len ≤ s.clk.counter + dt →
        (s.elapse dt).answered t
          [.hostWrite d.addr (padTo d.len (List.zipWith (fun i q => BitVec.ofNat 8 (i.toNat + 16 * q.toNat)) i q))] d St.ok
          (leBytes 8 t0) ∧ (s.elapse dt).answerOnly t) ∧
      (s.clk.counter + dt < c0 + 2 * d.len → t = s.elapse dt)) ∧
  (∀ (s : State) (dt ring index n : Nat) (payload : List Byte) (d : Desc) (q : NavPage), s.offers ring index opGnsNav d →
    s.gns.fault = false → d.operand 0 1 = 0 → parsePage (padTo d.len payload) = some (some q, d.len, n) →
    reaches (exec (.gnsNavLoad dt ring index payload) s) fun t =>
      t.gns.nav = (if s.gns.nav.any (fun x => pageKey x = pageKey q && decide (q.rx < x.rx)) then s.gns.nav
        else navPut q s.gns.nav) ∧ Gns.kept { s.gns with nav := t.gns.nav } t.gns ∧
      (s.elapse dt).replies t (d.clampIf (n ≠ 0)) St.ok []) ∧
  (∀ (s : State) (dt ring index : Nat) (d : Desc), s.offers ring index opGnsNav d → s.gns.fault = false → d.operand 0 1 = 1 →
    d.len ≠ 0 →
    let l := (s.gns.nav.filter fun p => bit (d.operand 1 1) (p.sig / 16)).drop (d.operand 4 4)
    let fit := fitPages l d.len
    reaches (exec (.gnsNavSave dt ring index) s) fun t =>
      (s.elapse dt).answered t (if fit = [] then [] else [.hostWrite d.addr (fit.map NavPage.bytes).flatten]) d
        (if fit.length = l.length then St.ok else St.more)
        (if fit.length = l.length then [] else leBytes 4 (d.operand 4 4 + fit.length)) ∧
      (s.elapse dt).answerOnly t) ∧
  (∀ (s : State) (dt : Nat) (b : Bool) (x y z : Nat), s.tidy → s.gnsRuns = true → s.antOn b = true →
    (b = true → s.id.part ≠ .mg7716) →
    reaches (exec (.gnsNosig dt b [x, y, z]) s) fun t =>
      (240 ≤ x → 240 ≤ y → 240 ≤ z →
        (∀ a, (if b then s.gns.railB else s.gns.railA) = some a → a + tickS ≤ s.clk.counter + dt →
          (if b then t.gns.nosigB else t.gns.nosigA) = true) ∧
        ((if b then s.gns.railB else s.gns.railA) = none →
          (if b then t.gns.railB else t.gns.railA) = some (s.clk.counter + dt))) ∧
      (x < 240 ∨ y < 240 ∨ z < 240 → (if b then t.gns.railB else t.gns.railA) = none ∧
        (if b then t.gns.nosigB else t.gns.nosigA) =
          ((if b then s.gns.nosigB else s.gns.nosigA) && decide (236 ≤ x ∧ 236 ≤ y ∧ 236 ≤ z)))) ∧
  (∀ (s : State) (dt : Nat) (b : Bool) (x y z : Nat), s.tidy → s.gnsRuns = true → x < 236 ∨ y < 236 ∨ z < 236 →
    (b = true → s.id.part ≠ .mg7716) →
    reaches (exec (.gnsNosigClear dt b [x, y, z]) s) fun t =>
      (if b then t.gns.nosigB else t.gns.nosigA) = false ∧ t.gns.chans = s.gns.chans ∧ t = { s.elapse dt with gns := t.gns }) ∧
  (∀ (s : State) (dt : Nat), (s.elapse dt).epochDue = true → (s.elapse dt).commitWaits (s.elapse dt).epochAt = false →
    reaches (exec (.gnsMeasEpoch dt) s) fun t =>
      (∃ l, t.gns = { s.gns with latched := some l } ∧ l.tr = (s.elapse dt).epochAt ∧ l.old = false ∧
        l.quality = s.timeQuality ∧ l.a.map (fun e => e.chan) = s.reporting false ∧
        l.b.map (fun e => e.chan) = if s.antOn true then s.reporting true else []) ∧
      t = { s.elapse dt with gns := t.gns, free := t.free, timers := t.timers }) ∧
  (∀ (s : State) (dt : Nat) (x : MeasIn) (l : Latch), s.gnsRuns = true → s.gns.latched = some l →
    reaches (exec (.gnsMeasReady dt x) s) fun t =>
      t.gns.latched = none ∧ t.gns.seqA = s.gns.seqA + 1 ∧
      t.gns.seqB = (if s.antOn true then s.gns.seqB + 1 else s.gns.seqB) ∧ t.gns.stepFlag = (s.gns.stepFlag && l.old) ∧
      (s.antOn true = false ∨ s.act F.GNS_MEAS_CTRL_REC_B = 0 →
        let len := (32 + 40 * l.a.length + 63) / 64 * 64
        let size := 65536 * s.act F.GNS_MEAS_BUF_SIZE_SIZE
        let rd := s.reg F.GNS_MEAS_RD_OFFSET
        s.gns.wr + len ≤ size → len < (if s.gns.wr < rd then rd - s.gns.wr else size + rd - s.gns.wr) →
        t.gns.wr = (s.gns.wr + len) % size ∧ t.gns.drops = s.gns.drops))

/-- After ESC_DELAY at level 3 or above with level 3 justified, the level climbs by one; on entry to 5 an enabled MIRAGE source
requests PAUSE. After CLEAR_HOLD the level falls by one towards what is justified. A latched condition that has been false
for CLEAR_HOLD leaves the list. MIR_CLEAR with its key takes every latched condition and the climb away and the level to 0,
and with BASE_RESET the sum of R179 starts again. A peak scan of the channel whose turn it is, on an idle unit and a scan's
length after the last one, notes its time and counts the condition where a secondary peak stands far enough from the tracked
cell and is strong enough; where none does, the run starts again. That a request of the same tick belongs to the same stage
is log entry 67, the units that AUTO leaves to scans are log entry 72, and the powers of the cells come with the command
(log entry 51). (R176, R182, R184, R185, R186, R188) -/
def Obligations.TheLadderClimbsFallsAndClears : Prop :=
  (∀ (s : State) (dt : Nat), s.mirRuns = true → s.act F.MIR_CTRL_ESC_DELAY ≠ 0 → 3 ≤ s.mir.level → 3 ≤ s.mir.base →
    s.mir.level < s.act F.MIR_CTRL_MAX_LEVEL → s.mir.highAt + s.act F.MIR_CTRL_ESC_DELAY * tickS ≤ s.clk.counter + dt →
    reaches (exec (.mirEscalate dt) s) fun t =>
      t.mir = { s.mir with
        level := s.mir.level + 1, climb := s.mir.level + 1, highAt := s.clk.counter + dt, changedAt := s.clk.counter + dt } ∧
      (s.mir.level = 4 → s.stopSource F.STP_SRC_MIRAGE = true → Stp.requested s.stp t.stp (s.clk.counter + dt) 7 false) ∧
      (s.mir.level ≠ 4 ∨ s.stopSource F.STP_SRC_MIRAGE = false → State.eventsOnly { s.elapse dt with mir := t.mir } t)) ∧
  (∀ (s : State) (dt : Nat), s.mirRuns = true → s.mir.base < s.mir.level → s.mir.climb < s.mir.level →
    s.mir.changedAt + s.act F.MIR_CTRL_CLEAR_HOLD * tickS ≤ s.clk.counter + dt →
    reaches (exec (.mirLevelFall dt) s) fun t =>
      t.mir = { s.mir with level := s.mir.level - 1, changedAt := s.clk.counter + dt } ∧
      State.eventsOnly { s.elapse dt with mir := t.mir } t) ∧
  (∀ (s : State) (dt check key : Nat) (c : Cond), s.mirRuns = true →
    s.mir.conds.find? (fun c => c.is check key) = some c → c.latched = true →
    c.trueAt + s.act F.MIR_CTRL_CLEAR_HOLD * tickS ≤ s.clk.counter + dt →
    reaches (exec (.mirConditionClear dt check key) s) fun t =>
      t.mir.conds = s.mir.conds.filter (fun c => !c.is check key) ∧ s.mir.level ≤ t.mir.level) ∧
  (∀ (s : State) (dt : Nat) (v : Word) (c : Instr), s.mirKey v = true →
    (c = .mirClear dt v ∨ (c = .mirBaseReset dt v ∧ v.getLsbD 8 = true)) →
    reaches (exec c s) fun t =>
      t.mir.level = 0 ∧ t.mir.climb = 0 ∧ t.mir.base = 0 ∧ t.mir.conds = s.mir.conds.filter (fun c => !c.latched) ∧
      t.mir.moves = (if v.getLsbD 8 then [] else s.mir.moves) ∧ State.eventsOnly { s.elapse dt with mir := t.mir } t) ∧
  (∀ (s : State) (dt k : Nat) (powers : List Nat), s.checkOn Ck.secPeak = true → s.gnsRuns = true → s.scanUnit = true →
    (s.elapse dt).nextScan = some k →
    let c := s.chan k
    let g := sigOf c.sig
    let tracked := (2 * c.code).floor.toNat % (2 * g.chips)
    let key := k * 65536 + sigKey c.sig c.svid
    let run := ((s.mir.conds.find? fun c => c.is Ck.secPeak key).map fun c => c.run).getD 0
    (∀ x, s.mir.scanned = some x → x.2 + scanTicks g ≤ s.clk.counter + dt) → scanTicks g ≤ s.clk.counter + dt →
    reaches (exec (.mirPeakScan dt k powers) s) fun t =>
      tfind t.mir.scans k = some (s.clk.counter + dt) ∧ t.mir.scanned = some (k, s.clk.counter + dt) ∧
      (secondPeak (2 * g.chips) tracked (s.reg F.MIR_PEAK_RATIO) powers = true →
        ∃ c ∈ t.mir.conds, c.is Ck.secPeak key = true ∧ c.run = run + 1 ∧ c.trueAt = s.clk.counter + dt ∧
          (s.act F.MIR_CTRL_PERSIST ≤ run + 1 → c.latched = true)) ∧
      (secondPeak (2 * g.chips) tracked (s.reg F.MIR_PEAK_RATIO) powers = false →
        ∀ c ∈ t.mir.conds, c.is Ck.secPeak key = true → c.run = 0))

/-- Frames not begun AGE_LIMIT after their epoch leave a radio queue and are counted. FIX_RTCM_GET waits, four of each SOURCE at
most. FIX_STRINGS stores the set-up number and strings. FIX_ROVER_RESET marks the filters of the machines it names. An epoch
whose deadline has passed, with no commit due by then, is abandoned and counted; with one due it waits for it. The oldest
complete epoch takes a free lane with the configuration of now, field origin and base coordinates among it, and waits while
a commit is due; its end frees the lane, leaves the filter that the solve leaves, counts it solved and hands its solution to
the Section Engine. (R64, R200, R206, R209, R212, R213, R215, R218, R219, R220, R221) -/
def Obligations.FixCommandsAct : Prop :=
  (∀ (s : State) (dt p : Nat), s.tidy → s.pwr.inReset = false → s.fix.fault = false →
    let q := tget s.fix.radio RadioQueue.reset p
    let keep := q.frames.filter fun f =>
      f.begun || decide ((s.elapse dt).now < f.tr + s.reg F.FIX_RTCM_AGE_AGE_LIMIT * 1000000)
    reaches (exec (.fixRtcmStale dt p) s) fun t =>
      tget t.fix.radio RadioQueue.reset p = { q with frames := keep } ∧
      (∀ k, k ≠ p → tget t.fix.radio RadioQueue.reset k = tget s.fix.radio RadioQueue.reset k) ∧
      t.fix.stale = s.fix.stale + BitVec.ofNat 32 (q.frames.length - keep.length) ∧
      State.eventsOnly { s.elapse dt with fix := { s.fix with radio := t.fix.radio, stale := t.fix.stale } } t) ∧
  (∀ (s : State) (dt ring index : Nat) (d : Desc), s.offers ring index opFixRtcmGet d → s.fixStop = none → d.operand 0 1 ≤ 1 →
    let n := ((s.waiters opFixRtcmGet).filter fun w => w.operand 0 1 = d.operand 0 1).length
    reaches (exec (.fixRtcmGet dt ring index) s) fun t =>
      (n < 4 → (s.elapse dt).waits t d) ∧
      (4 ≤ n → (s.elapse dt).replies t d St.busy [] ∧ (s.elapse dt).answerOnly t)) ∧
  (∀ (s : State) (dt ring index n : Nat) (payload : List Byte) (d : Desc) (l : List (List Byte)),
    s.offers ring index opFixStrings d → s.fixStop = none → d.len ≠ 0 → parseStrings 6 (padTo d.len payload) = some (l, n) →
    reaches (exec (.fixStrings dt ring index payload) s) fun t =>
      t.fix = { s.fix with setupId := d.operand 0 1, strings := l.take 5 } ∧
      (s.elapse dt).replies t (d.clampIf (n ≠ 0)) St.ok []) ∧
  (∀ (s : State) (dt ring index : Nat) (d : Desc), s.tidy → s.offers ring index opFixRoverReset d → s.id.part = .mg7740 →
    s.fixStop = none →
    reaches (exec (.fixRoverReset dt ring index) s) fun t =>
      (∀ m, let f := tget s.fix.filters RoverFilter.reset m
        tget t.fix.filters RoverFilter.reset m =
          if s.roverOn m && (bit (d.operand 1 1) 0 || decide (m = d.operand 0 1)) then { f with fresh := true } else f) ∧
      t.fix = { s.fix with filters := t.fix.filters } ∧ (s.elapse dt).replies t d St.ok []) ∧
  (∀ (s : State) (dt m : Nat) (a : Assembly), s.tidy → s.fixRuns = true → tfind s.fix.asm m = some a →
    let due := a.tObs + s.act F.FIX_SOLVER_ASM_LIMIT * 10000000
    due ≤ (s.elapse dt).now →
    ((s.elapse dt).commitWaits due = true → exec (.fixEpochDeadline dt m) s = .next (s.elapse dt)) ∧
    ((s.elapse dt).commitWaits due = false → reaches (exec (.fixEpochDeadline dt m) s) fun t =>
      tfind t.fix.asm m = none ∧ (∀ k, k ≠ m → tfind t.fix.asm k = tfind s.fix.asm k) ∧ tfind t.fix.ended m = some a.n ∧
      t.fix.abandoned = s.fix.abandoned + 1 ∧ State.eventsOnly { s.elapse dt with fix := t.fix } t)) ∧
  (∀ (s : State) (dt l : Nat) (q : Solve) (rest : List Solve), s.tidy → s.fixRuns = true → s.fix.queue = q :: rest → l < 64 →
    tfind s.fix.lanes l = none → (∀ k, k < l → tfind s.fix.lanes k ≠ none) →
    ((s.elapse dt).commitFirst (s.clk.counter + dt) = true → exec (.fixSolveStart dt) s = .next (s.elapse dt)) ∧
    ((s.elapse dt).commitFirst (s.clk.counter + dt) = false → reaches (exec (.fixSolveStart dt) s) fun t =>
      t.fix.queue = rest ∧
      (∃ cfg, tfind t.fix.lanes l = some { q with
          cfg := cfg, fresh := (tget s.fix.filters RoverFilter.reset q.machine).fresh } ∧
        cfg.field = meField (s.machine q.machine) ∧ cfg.period = s.roverPeriod q.machine ∧
        cfg.ratioMin = s.act F.FIX_SOLVER_RATIO_MIN ∧ cfg.elevMask = s.act F.FIX_SOLVER_ELEV_MASK ∧ cfg.accel = s.act F.FIX_ROVER_ACCEL q.machine ∧
        cfg.known = s.baseKnown ∧ cfg.base = s.basePos ∧ cfg.origin = s.fieldOrigin (meField (s.machine q.machine))) ∧
      (∀ k, k ≠ l → tfind t.fix.lanes k = tfind s.fix.lanes k) ∧
      (tget t.fix.filters RoverFilter.reset q.machine).fresh = false ∧ t = { s.elapse dt with fix := t.fix })) ∧
  (∀ (s : State) (dt l : Nat) (q : Solve) (x : SolveIn), s.tidy → s.fixRuns = true → tfind s.fix.lanes l = some q →
    let r := (s.elapse dt).solve q x
    reaches (exec (.fixSolReady dt l x) s) fun t =>
      tfind t.fix.lanes l = none ∧ t.fix.solved = s.fix.solved + 1 ∧
      tget t.fix.filters RoverFilter.reset q.machine = r.2 ∧ r.2.status = r.1.status ∧
      ∃ c rest, (tget t.sec.machs SecMach.reset q.machine).cen = c :: rest ∧ c.epoch = q.tObs ∧ c.status = r.1.status ∧
        c.east = r.1.pos.1 ∧ c.north = r.1.pos.2.1)

/-- The first request whose COLLECT has passed leaves the pending set and is answered once or joins the host queue; while the
stop latch is set a machine's is refused and no reservation changes, but a RELEASE, which empties its owner's whatever
stands, and a DONE; a reservation that a grant sets has no candidate of another owner that it conflicts with. No turn is
longer than 200 µs (that an operand above stands for some length within it is the model's choice, log entry 78). A host-
queue request past HOST_TIMEOUT is refused. Each 10 ms the segments whose end has passed go, and a machine's last one leaves
a stand where it ended. CAR_RELEASE empties the owner's reservation and sets the track's state; CAR_RESUME lifts a hold and
tells the machine. That the decisions wait for DRAM is log entry 22, their order of checks is log entry 23, and what goes
with an old grant is log entry 76. (R276, R277, R279, R281, R282, R283, R284, R286, R287, R295, R296) -/
def Obligations.CaravanDecidesAndReleases : Prop :=
  (∀ (s : State) (dt us : Nat) (r : Req), s.tidy → us ≤ 200 → s.car.fault = false → s.unitOn U.car = true →
    s.dramHeld = false → (s.elapse dt).firstReq = some r →
    let u := { s.elapse dt with car := { s.car with pend := s.car.pend.erase r, answerMax := max s.car.answerMax us } }
    reaches (exec (.carRequestDecide dt us) s) fun t =>
      List.Sublist t.car.pend (s.car.pend.erase r) ∧ (∀ x ∈ s.car.pend.erase r, x.desc = none → x ∈ t.car.pend) ∧
      t.car.answerMax = max s.car.answerMax us ∧
      (r.owner < 256 → r.kind ≠ 3 → r.kind ≠ 4 → s.stp.latched = true →
        t.car.res = s.car.res ∧ t.car.refused = s.car.refused + 1) ∧
      (r.owner < 256 → r.kind = 3 → t.reservation r.owner = [] ∧ t.car.granted = s.car.granted + 1) ∧
      (∀ a, (u.carDecide r).2 = .answer a →
        t.car.granted = s.car.granted + (if a.code = 0 then 1 else 0) ∧
        t.car.deferred = s.car.deferred + (if a.code = 1 then 1 else 0) ∧
        t.car.refused = s.car.refused + (if a.code = 0 ∨ a.code = 1 then 0 else 1) ∧
        (a.code = 0 → r.kind ≠ 4 → ∀ g ∈ t.reservation r.owner, ∀ e ∈ t.car.res, e.1 ≠ r.owner → ∀ x ∈ e.2,
          s.clash g x = false)) ∧
      ((u.carDecide r).2 = .toHost → t.car.hostq.length = s.car.hostq.length + 1)) ∧
  (∀ (s : State) (dt us : Nat) (r : Req), 200 < us → s.car.fault = false → s.unitOn U.car = true → s.dramHeld = false →
    (s.elapse dt).firstReq = some r →
    reaches (exec (.carRequestDecide dt us) s) fun t => ∃ v, v ≤ 200 ∧ t.car.answerMax = max s.car.answerMax v) ∧
  (∀ (s : State) (dt : Nat) (h : HostReq), s.car.fault = false → s.unitOn U.car = true →
    s.car.hostq.find? (fun h => h.since + s.reg F.CAR_CONF_HOST_TIMEOUT * 10 * tickMs ≤ s.clk.counter + dt) = some h →
    reaches (exec (.carHostTimeout dt) s) fun t =>
      Car.kept { s.car with hostq := s.car.hostq.filter (fun x => x.token ≠ h.token), refused := s.car.refused + 1 } t.car) ∧
  (∀ (s : State) (dt : Nat), s.tidy → s.unitOn U.car = true → s.pwr.state ≠ .safeHold →
    (s.elapse dt).due T.carExpiry (10 * tickMs) = true →
    reaches (exec (.carExpiry dt) s) fun t =>
      (∀ o, let l := s.reservation o
        let keep := l.filter fun g => !g.past s.carMargin (s.elapse dt).now
        (keep ≠ [] ∨ 256 ≤ o ∨ l = [] → t.reservation o = keep) ∧
        (∀ g, keep = [] → o < 256 → l.getLast? = some g → ∃ st, t.reservation o = [st] ∧ st.p0 = g.p1 ∧ st.p1 = g.p1 ∧
          st.e = none ∧ (t.carMach o).stand = true)) ∧
      t = { (s.elapse dt).mark T.carExpiry with car := { s.car with res := t.car.res, machs := t.car.machs } }) ∧
  (∀ (s : State) (dt ring index owner k op : Nat) (d : Desc), s.tidy → s.memoriesCanonical →
    s.offers ring index opCarRelease d → s.carStop = none → s.dramHeld = false → s.mem.trainFail = false →
    d.operand 0 2 = owner → d.operand 2 2 = k → d.operand 4 1 = op → op ≤ 3 →
    (k < 4096 → op ≠ 0 → s.dramSound (s.trackAddr k) 528) →
    reaches (exec (.carRelease dt ring index) s) fun t => ∃ u : State,
      (owner ≠ 0xFFFF → u.reservation owner = []) ∧ (∀ o, o ≠ owner → u.reservation o = s.reservation o) ∧
      (k < 4096 → op ≠ 0 → trState (u.trackRec k) = if op = 1 then 0 else if op = 2 then 2 else 3) ∧
      (4096 ≤ k ∨ op = 0 → u.mem = s.mem) ∧ u.hst = s.hst ∧ u.clk = (s.elapse dt).clk ∧
      u.answered t [] d St.ok [] ∧ u.answerOnly t) ∧
  (∀ (s : State) (dt ring index m : Nat) (d : Desc), s.tidy → s.offers ring index opCarResume d → s.carStop = none →
    d.operand 0 1 = m →
    reaches (exec (.carResume dt ring index) s) fun t =>
      ((s.carMach m).held = true → (t.carMach m).held = false ∧ (∃ b ∈ t.hop.queue, b.addr = m ∧ b.btype = DL.trackAnswer) ∧
        (s.elapse dt).replies t d St.ok []) ∧
      ((s.carMach m).held = false → s.car.kept t.car ∧ (s.elapse dt).replies t d St.notPending []))

/-- A track record replaces the record of a track that is not ALLOTTED and completes OK; for an ALLOTTED one nothing is written
and it completes TRACK_BUSY. Records read are those in DRAM. Task records are stored as R270 has them and no other is.
CAR_RESERVE joins the pending requests as its last with the descriptor's segments, and waits. CAR_REQ_GET moves the first
request not yet read, or waits. That the descriptors wait for DRAM is log entry 22. (R268, R270, R291, R292, R293, R294) -/
def Obligations.CaravanTablesAndRequests : Prop :=
  (∀ (s : State) (dt ring index f : Nat) (payload : List Byte) (d : Desc), s.memoriesCanonical → s.offers ring index opCarTrack d →
    s.carStop = none → s.dramSound (s.trackAddr f) 528 → d.operand 2 2 = f → f < 4096 →
    (d.operand 0 1 = 0 → d.operand 4 2 = 1 → d.len = 528 →
      reaches (exec (.carTrackLoad dt ring index payload) s) fun t => ∃ u : State,
        (trState (s.trackRec f) ≠ 1 → u.trackRec f = (fixTrack (slice payload 0 528)).1 ∧
          (∀ x, x < s.trackAddr f ∨ s.trackAddr f + 528 ≤ x → tget u.mem.dram memFill x = tget s.mem.dram memFill x) ∧
          u.answered t [] (d.clampIf ((fixTrack (slice payload 0 528)).2 ≠ 0)) St.ok []) ∧
        (trState (s.trackRec f) = 1 → u.mem = s.mem ∧ u.answered t [] d St.trackBusy []) ∧
        u = { s.elapse dt with mem := { s.mem with dram := u.mem.dram, bad := u.mem.bad }, cfg := u.cfg } ∧
        u.cfg.active = s.cfg.active ∧ u.cfg.staged = s.cfg.staged ∧ u.answerOnly t) ∧
    (∀ c, d.operand 0 1 = 1 → d.operand 4 2 = c → 1 ≤ c → f + c ≤ 4096 → d.len = 528 * c →
      reaches (exec (.carTrackRead dt ring index) s) fun t =>
        (s.elapse dt).answered t [.hostWrite d.addr ((List.range c).map fun i => s.trackRec (f + i)).flatten] d St.ok [] ∧
        (s.elapse dt).answerOnly t)) ∧
  (∀ (s : State) (dt ring index f c : Nat) (payload : List Byte) (d : Desc), s.tidy → s.offers ring index opCarTask d →
    s.carStop = none → d.operand 0 1 = f → d.operand 1 2 = c → 1 ≤ c → f + c ≤ 256 → d.len = 48 * c →
    reaches (exec (.carTaskSet dt ring index payload) s) fun t =>
      (∀ k, k < c → t.task (f + k) = (fixTask (slice (padTo d.len payload) (48 * k) 48)).1) ∧
      (∀ i, i < f ∨ f + c ≤ i → t.task i = s.task i) ∧ Car.kept { s.car with tasks := t.car.tasks } t.car ∧
      (s.elapse dt).replies t
        (d.clampIf (((List.range c).map fun i => (fixTask (slice payload (48 * i) 48)).2).sum ≠ 0)) St.ok []) ∧
  (∀ (s : State) (dt ring index owner : Nat) (payload : List Byte) (d : Desc), s.offers ring index opCarReserve d →
    s.carStop = none → d.operand 0 2 = owner → owner < 0x200 → d.len % 32 = 0 → 1 ≤ d.len / 32 → d.len / 32 ≤ 64 →
    let recs := (List.range (d.len / 32)).map fun i =>
      reserveSeg (d.operand 8 8) owner (s.machineField owner) (slice payload (32 * i) 32)
    reaches (exec (.carReserve dt ring index payload) s) fun t =>
      (∃ r, t.car.pend = s.car.pend ++ [r] ∧ r.owner = owner ∧ r.segs = recs.map (·.1) ∧ r.desc = some d.serial ∧
        r.at' = (s.elapse dt).now ∧ r.track = if d.operand 4 2 = 0xFFFF then none else some (d.operand 4 2)) ∧
      State.waits { s.elapse dt with car := t.car, cfg := t.cfg } t (d.clampIf ((recs.map (·.2)).sum ≠ 0)) ∧
      t.cfg.active = s.cfg.active ∧ t.car.res = s.car.res) ∧
  (∀ (s : State) (dt ring index : Nat) (d : Desc), s.offers ring index opCarReqGet d → s.carStop = none → 60 ≤ d.len →
    s.waiters opCarReqGet = [] →
    reaches (exec (.carReqGet dt ring index) s) fun t =>
      (s.car.hostq.find? (fun h => !h.read) = none → (s.elapse dt).waits t d) ∧
      (∀ h, s.car.hostq.find? (fun h => !h.read) = some h →
        Car.kept { s.car with hostq := s.car.hostq.map fun x => if x.token = h.token then { x with read := true } else x } t.car ∧
        (s.elapse dt).delivers t (if h.req.body = [] then [] else [.hostWrite d.addr h.req.body])
          { d with phase := .waiting, execAt := some (s.elapse dt).now } St.ok
          (leBytes 2 h.token ++ leBytes 1 h.req.owner ++ [0] ++ leBytes 8 h.req.at')))

/-- KEY_CREATE of an empty slot under a usable parent, with every check passed, stores a VALID record of the operands with its
CRC and GEN unchanged and completes OK with GEN and KCV (for an import, AUTH_FAIL where the wrapping does not open); the
parent enters the key cache. KEY_DESTROY and KEY_INVALIDATE raise GEN by one, the first clears VALID, no descendant stays
cached, and a record that the active configuration names then serves no frame. While PFAIL_N stops NV writes neither starts,
and one that PFAIL_N cuts off before its commit word leaves the old record; both complete PFAIL. KEY_INFO shows a record.
KEY_WRAP_OUT writes an exportable record's wrapping. KEY_ATTEST counts and writes its response. No other slot changes. That
such a record serves none until a commit names it again, and where the attestation counter lies, are log entry 84; the order
of the checks is log entry 43; the cryptographic functions are free (log entry 4). (R56, R458, R459, R460, R461, R463, R465,
R468, R472, R474, R477, R478) -/
def Obligations.RecordsAreMadeRetiredAndShown : Prop :=
  (∀ (s : State) (dt ring index : Nat) (payload : List Byte) (d : Desc) (c : Instr) (method i pdepth : Nat) (pm : List Byte)
      (p384 : Bool) (gen : Word) (tk : List Byte),
    s.offers ring index opKeyCreate d → createMethod d = method → d.operand 4 1 = method → s.updateStop = none → s.nvHeld = false →
    d.operand 0 2 = i → i < 1024 → d.operand 5 1 < 4 → d.operand 6 1 < 4 → typeUsageOk (d.operand 5 1) (d.operand 6 1) (bit (d.operand 7 1) 1) = true →
    s.validRec i = none → s.parentOf (d.operand 2 2) (decide (method = 0)) = .inl (pm, p384, gen, pdepth) → pdepth < 4 →
    s.nvRoom Region.key (i / 128) 1 →
    let size := typeSize (d.operand 5 1)
    let label := (padTo d.len payload).take (d.operand 10 1)
    let ctx := ((padTo d.len payload).drop (d.operand 10 1)).take (d.operand 11 1)
    let old := (s.keyRec i).getD (KeyCopy.blank i)
    let stored := fun (t : State) (mat : List Byte) => ∃ u : State,
      (let r := { old with
        seq := old.seq + 1, index := i, type := d.operand 5 1, usage := d.operand 6 1, valid := true
        exportable := bit (d.operand 7 1) 0, attest := bit (d.operand 7 1) 1, derived := decide (method = 0)
        parent := d.operand 2 2, depth := pdepth + 1, parentGen := gen, label := if method = 0 then label else []
        context := if method = 0 then ctx else [], wrapped := if method = 0 then [] else kwWrap pm mat, kcv := kcvOf mat }
       u.keyRec i = some { r with crc := r.sum }) ∧
      (∀ k, k ≠ i → u.keyRec k = s.keyRec k) ∧
      (method ≠ 2 → d.operand 2 2 < 1024 → ∃ sh rest, u.key.cache = (d.operand 2 2, sh) :: rest ∧ sh.value = pm) ∧
      u = { s.elapse dt with
        key := { s.key with slots := u.key.slots, cache := u.key.cache }, nvm := { s.nvm with wear := u.nvm.wear }, free := u.free } ∧
      u.answered t [] d St.ok (leBytes 4 old.gen.toNat ++ kcvOf mat) ∧ u.answerOnly t
    (c = .keyCreateDerive dt ring index payload .plain ∧ method = 0 ∧ 1 ≤ d.operand 10 1 ∧ d.operand 10 1 ≤ 16 ∧
      d.operand 11 1 ≤ 32 ∧ d.len = d.operand 10 1 + d.operand 11 1 →
      reaches (exec c s) fun t => stored t (kdf pm p384 label ctx size)) ∧
    (c = .keyCreateGenerate dt ring index .plain ∧ method = 1 ∧ d.len = 0 →
      reaches (exec c s) fun t => ∃ n, stored t ({ s with free := n }.randomBytes size)) ∧
    (c = .keyCreateImport dt ring index payload .plain ∧ method = 2 ∧ d.len = size + 8 ∧
        (if d.operand 8 2 = 0xFFFF then tk = pm else (s.cacheUse (d.operand 2 2)).transportKey (d.operand 8 2) = .inl tk) →
      reaches (exec c s) fun t =>
        match (Config.kwUnwrap tk (padTo d.len payload)).filter fun m => m.length = size with
        | some mat => stored t mat
        | none => Key.kept { s.key with authFail := s.key.authFail + 1, cache := t.key.cache } t.key ∧ (s.elapse dt).replies t d St.authFail [])) ∧
  (∀ (s : State) (dt ring index i : Nat) (d : Desc) (k : KeyCopy) (c : Instr) (destroy mapped : Bool) (run : NvRun),
    (c = .keyDestroy dt ring index run ∧ destroy = true ∧ s.offers ring index opKeyDestroy d) ∨
      (c = .keyInvalidate dt ring index run ∧ destroy = false ∧ s.offers ring index opKeyInvalidate d) →
    d.operand 0 2 = i → i < 1024 → s.updateStop = none → s.validRec i = some k →
    (s.inService i = false ∨ bit (d.operand 2 1) 0 = true → s.nvRoom Region.key (i / 128) 1 → s.nvHeld = false → run = .plain →
     reaches (exec c s) fun t =>
      (let r := { k with seq := k.seq + 1, index := i, gen := k.gen + 1, valid := !destroy }
       t.keyRec i = some { r with crc := r.sum }) ∧
      (s.unitOn U.hop = true → s.descends (s.act F.HOP_KEYS_JOIN_ROOT) i = true → t.key.link = []) ∧
      (∀ e ∈ t.key.cache, s.descends e.1 i = false) ∧ (s.pinned.contains i = true → t.unusable i = true) ∧
      (s.pinned.contains (s.act F.STP_KEYS_FAB_TX) = true → s.descends (s.act F.STP_KEYS_FAB_TX) i = true → t.fab.held = []) ∧
      (∀ j, j ≠ i → t.keyRec j = s.keyRec j) ∧
      (s.elapse dt).replies t d St.ok []) ∧
    (s.inService i = false ∨ bit (d.operand 2 1) 0 = true →
     (s.nvHeld = true ∨ (s.nvRoom Region.key (i / 128) 1 ∧ run = ⟨0, false, some ⟨false, mapped⟩⟩)) → reaches (exec c s) fun t =>
      (∀ j, t.keyRec j = s.keyRec j) ∧ t.key.cache = s.key.cache ∧ (s.elapse dt).replies t d St.pfail []) ∧
    (s.inService i = true → bit (d.operand 2 1) 0 = false → reaches (exec c s) fun t =>
      s.key.kept t.key ∧ (s.elapse dt).answered t [] d St.inService [] ∧ (s.elapse dt).answerOnly t)) ∧
  (∀ (s : State) (dt ring index i : Nat) (d : Desc), s.offers ring index opKeyInfo d → s.key.fault = false → d.operand 0 2 = i →
    let k := (s.keyRec i).getD (KeyCopy.blank i)
    reaches (exec (.keyInfo dt ring index) s) fun t =>
      (s.elapse dt).answered t [] d St.ok (if k.valid then
        leBytes 1 (if s.orphan i then 2 else 1) ++ leBytes 1 k.type ++ leBytes 1 k.usage ++
          leBytes 1 (b2n k.valid + 2 * b2n k.exportable + 4 * b2n k.attest + 8 * b2n k.derived) ++ leBytes 1 k.depth ++ [0] ++
          leBytes 2 k.parent ++ leBytes 4 k.gen.toNat ++ k.kcv.take 4
        else leBytes 8 0 ++ leBytes 4 k.gen.toNat) ∧
      (s.elapse dt).answerOnly t) ∧
  (∀ (s : State) (dt ring index i w : Nat) (d : Desc) (k : KeyCopy) (m tk : List Byte), s.offers ring index opKeyWrapOut d →
    s.keyStop = none → d.operand 0 2 = i → s.serves i k → k.exportable = true → s.material i = some m → d.operand 2 2 = w →
    w ≠ provisionName → s.transportKey w = .inl tk → m.length + 8 ≤ d.len →
    reaches (exec (.keyWrapOut dt ring index) s) fun t => ∃ u : State,
      (let v := (s.cachePut i m).cacheUse w
       u = { s.elapse dt with key := { s.key with cache := v.key.cache }, free := v.free }) ∧
      u.answered t [.hostWrite d.addr (kwWrap tk m)] d St.ok [] ∧ u.answerOnly t) ∧
  (∀ (s : State) (dt ring index i : Nat) (payload : List Byte) (d : Desc) (k : KeyCopy) (m : List Byte),
    s.offers ring index opKeyAttest d → s.updateStop = none → s.nvHeld = false → d.operand 0 2 = i → s.serves i k → k.usage = Usage.deriveOnly →
    k.attest = true → d.len = 136 → s.material i = some m → s.nvRoom Region.key 8 1 →
    let ctr := beBytes 4 (s.key.attest + 1).toNat
    let dev := leBytes 16 s.id.deviceId.toNat
    reaches (exec (.keyAttest dt ring index payload .plain) s) fun t => ∃ u : State,
      u.key.attest = s.key.attest + 1 ∧ (∃ sh rest, u.key.cache = (i, sh) :: rest ∧ sh.value = m) ∧
      u = { s.elapse dt with key := { s.key with cache := u.key.cache, attests := u.key.attests }, free := u.free
                             nvm := { s.nvm with wear := u.nvm.wear } } ∧
      u.answered t [.hostWrite (d.addr + 32) (s.key.md ++ dev ++ ctr ++
        kdf m (k.type = 3) Label.mgAttest ((padTo 136 payload).take 32 ++ s.key.md ++ dev ++ ctr) 32 ++ leBytes 4 0)] d St.ok [] ∧
      u.answerOnly t)

/-- KEY_CRYPT whose record, usage, type and length fit joins the job queue as its last, with the record's GEN, and waits. The
job at the head takes the lowest free engine with the record's material; one whose record has changed its GEN since
completes ORPHANED and takes none. A job that ends leaves its engine and writes its data and tag with OK and GEN, or counts
an AUTH_FAIL. Re-masking changes no key's value. KEY_EPOCH_ROLL makes a new EPOCH, empties cache, link bank and engines, and
orphans every record under a root. With the keys goes what the precompute engine holds. A tamper input that has shown its
active level for FILTER samples clears EPOCH and does the same to the keys; in reset it is kept for the firmware's start.
The levels and the samples come with the command (log entry 14), what the precompute engine holds is log entry 84, the
values of the cipher and hash functions are free (log entry 4). (R464, R466, R467, R468, R469, R470, R471, R479) -/
def Obligations.JobsRunAndKeysAreDestroyed : Prop :=
  (∀ (s : State) (dt ring index i op : Nat) (payload : List Byte) (d : Desc) (k : KeyCopy) (c : Instr),
    (c = .keyCryptGcmEncrypt dt ring index payload ∧ op = 0) ∨ (c = .keyCryptGcmDecrypt dt ring index payload ∧ op = 1) ∨
      (c = .keyCryptCcmEncrypt dt ring index payload ∧ op = 2) ∨ (c = .keyCryptCcmDecrypt dt ring index payload ∧ op = 3) ∨
      (c = .keyCryptCmacGenerate dt ring index payload ∧ op = 4) ∨ (c = .keyCryptCmacVerify dt ring index payload ∧ op = 5) ∨
      (c = .keyCryptHmacGenerate dt ring index payload ∧ op = 6) ∨ (c = .keyCryptHmacVerify dt ring index payload ∧ op = 7) →
    s.offers ring index opKeyCrypt d → cryptOp d = op → d.operand 2 1 = op → s.keyStop = none → d.operand 0 2 = i → s.serves i k →
    k.usage = (if op % 2 = 0 then Usage.encryptOnly else Usage.decryptOnly) → isAes k.type = decide (op ≤ 5) →
    let l := cryptLens d op k.type
    d.len = 64 + l.aad + l.data → s.key.queue.length < 64 →
    reaches (exec c s) fun t =>
      t.key = { s.key with queue := s.key.queue ++ [⟨d.serial, i, op, padTo d.len payload, [], k.gen⟩] } ∧
      State.waits { s.elapse dt with key := t.key, cfg := t.cfg } t (d.clampIf (l.clamps ≠ 0)) ∧
      t.cfg.active = s.cfg.active ∧ t.cfg.staged = s.cfg.staged) ∧
  (∀ (s : State) (dt e : Nat) (j : Job) (rest : List Job) (k : KeyCopy) (m : List Byte), s.keyStop = none →
    s.pwr.state ≠ .safeHold → e < 4 → tfind s.key.running e = none → (∀ x, x < e → tfind s.key.running x ≠ none) →
    s.key.queue = j :: rest → s.serves j.record k → s.material j.record = some m →
    reaches (exec (.keyJobStart dt) s) fun t =>
      (k.gen = j.gen →
        t.key.queue = rest ∧ tfind t.key.running e = some { j with key := m } ∧
        (∀ x, x ≠ e → tfind t.key.running x = tfind s.key.running x) ∧
        (∃ sh r, t.key.cache = (j.record, sh) :: r ∧ sh.value = m) ∧
        t = { s.elapse dt with key := { s.key with queue := rest, running := t.key.running, cache := t.key.cache }, free := t.free }) ∧
      (∀ d, k.gen ≠ j.gen → s.waitingDesc j.serial = some d → s.awaits d →
        t.key.running = s.key.running ∧ t.key.orphaned = s.key.orphaned + 1 ∧ (s.elapse dt).replies t d St.orphaned [])) ∧
  (∀ (s : State) (dt e : Nat) (j : Job) (d : Desc), s.tidy → s.key.fault = false → s.pwr.state ≠ .safeHold →
    tfind s.key.running e = some j → s.waitingDesc j.serial = some d → s.awaits d →
    let type := if 5 < j.op then (if j.key.length = 48 then 3 else 2) else 0
    let l := cryptLens d j.op type
    reaches (exec (.keyJobDone dt e) s) fun t =>
      tfind t.key.running e = none ∧ (∀ x, x ≠ e → tfind t.key.running x = tfind s.key.running x) ∧
      match j.result l type with
      | some (data, tag) => t.key.authFail = s.key.authFail ∧ (s.elapse dt).delivers t
          ((if j.op ≤ 3 ∧ data ≠ [] then [.hostWrite (d.addr + (16 + l.aad)) data] else []) ++
            (if j.op % 2 = 0 ∧ tag ≠ [] then [.hostWrite (d.addr + (16 + l.aad + l.data)) tag] else []))
          d St.ok (leBytes 4 j.gen.toNat)
      | none => t.key.authFail = s.key.authFail + 1 ∧ (s.elapse dt).delivers t [] d St.authFail (leBytes 4 j.gen.toNat)) ∧
  (∀ (s : State) (dt : Nat),
    (∀ e ∈ s.key.cache, e.2.s0.length = e.2.s1.length) →
    (∀ e ∈ s.key.link, ∀ h ∈ [e.2.up, e.2.dn, e.2.kw], h.s0.length = h.s1.length) →
    reaches (exec (.keyRemask dt) s) fun t =>
      t.key.cache.map (fun e => (e.1, e.2.value)) = s.key.cache.map (fun e => (e.1, e.2.value)) ∧
      t.key.link.map (fun e => (e.1, e.2.up.value, e.2.dn.value, e.2.kw.value)) =
        s.key.link.map (fun e => (e.1, e.2.up.value, e.2.dn.value, e.2.kw.value)) ∧
      t.epochBytes = s.epochBytes ∧
      (s.key.fault = false → (s.elapse dt).due T.remask (s.reg F.KEY_CTRL_REMASK * (tickMs / 10)) = true →
        s.free + s.key.cache.length + 3 * s.key.link.length ≤ t.free) ∧
      t = { s.elapse dt with
        key := { s.key with cache := t.key.cache, link := t.key.link }
        cal := { (s.elapse dt).cal with epoch := t.cal.epoch }
        free := t.free
        timers := t.timers }) ∧
  (∀ (s : State) (dt ring index : Nat) (d : Desc), s.offers ring index opKeyEpochRoll d → s.updateStop = none →
    d.operand 0 1 = 0xE7 →
    reaches (exec (.keyEpochRoll dt ring index) s) fun t =>
      t.cal.epochCount = s.cal.epochCount + 1 ∧ t.cal.epoch.isSome = true ∧ t.key.cache = [] ∧ t.key.link = [] ∧
      t.key.queue = [] ∧ t.key.running = [] ∧ t.boot.migration = [] ∧ t.key.slots = s.key.slots ∧ t.fab.held = [] ∧
      (∀ e ∈ t.hop.ports, e.2.held = []) ∧
      (∀ e, t.epochBytes = some e → t.key.rootExact = some (rootExactOf e s.key.md) ∧
        t.key.rootLineage = some (rootLineageOf e s.key.signer s.key.svn)) ∧
      (∀ i c, s.validRec i = some c → isRoot c.parent = true → c.parentGen = s.cal.epochCount → t.orphan i = true) ∧
      (s.key.running = [] → s.key.queue = [] → (s.elapse dt).replies t d St.ok [])) ∧
  (∀ (s : State) (dt n k : Nat) (lv : BitVec 4),
    let u := { s.elapse dt with cal := { (s.elapse dt).cal with inputs := lv } }
    let filter := bits s.cal.tamperCtrl.toNat 8 8
    (n < 4 → u.tamperActive n = true → filter ≤ k → reaches (exec (.tamperEvent ⟨dt, k⟩ n lv) s) fun t =>
      t.cal.epoch = none ∧ t.cal.tamperStatus = (s.cal.tamperStatus ||| (1 <<< n)) ∧ t.key.slots = s.key.slots ∧
      (s.pwr.inReset = false → t.key.tampered = true ∧ t.key.cache = [] ∧ t.key.link = [] ∧ t.key.rootExact = none ∧
        t.key.rootLineage = none ∧ t.key.queue = [] ∧ t.key.running = [] ∧ t.boot.migration = [] ∧ t.fab.held = [] ∧
        ∀ e ∈ t.hop.ports, e.2.held = []) ∧
      (s.pwr.inReset = true → t.key = { s.key with tamperLate := true })) ∧
    (4 ≤ n ∨ u.tamperActive n = false ∨ k < filter → exec (.tamperEvent ⟨dt, k⟩ n lv) s = .next u))

/-- The ROM boots ACTIVE when its image passes, else the other slot, which becomes ACTIVE, and with neither it enters RECOVERY;
a trial that is left boots on trial and counts down, else TRIAL is cleared. It waits until PFAIL_N has been high for 10 ms,
and a pointer update that is cut off changes nothing. At the firmware's start the device waits for its host, thread 0 is
READY or RUNNING at the entry point, SIGNER and SVN are the image's, and a missing EPOCH is made unless a tamper input is
active. In RECOVERY a REQUEST joins FAB_0's queue, and a DATA frame at the offset wanted adds its bytes. How the NV writes
go comes with the command (log entry 84), the values of the hash and signature functions are free (log entry 4), the levels
of the tamper inputs come with the command (log entry 14). (R397, R433, R455, R471, R493, R494, R497, R498, R501, R521) -/
def Obligations.TheRomAndTheFirmwareStart : Prop :=
  (∀ (s : State) (dt : Nat), s.pwr.inReset = false → s.pwr.state = .boot → s.boot.loaded = false →
   ((s.elapse dt).pfailHighFor (10 * tickMs) = false → ∀ run, exec (.romSlotSelect ⟨dt, run⟩) s = .next (s.elapse dt)) ∧
   ((s.elapse dt).pfailHighFor (10 * tickMs) = true → s.nvHeld = false →
    s.readOnly Region.boot = false → s.nvRoom Region.boot 0 3 →
    let a := s.boot.ptr.active
    let boots := fun (t : State) (b : Bool) => t.boot.booted = b ∧ t.boot.loaded = true ∧ t.boot.header = s.slotHeader b ∧
      t.pwr.state = .boot ∧ t.boot.flash = s.boot.flash
    (s.boot.ptr.trial = false → reaches (exec (.romSlotSelect ⟨dt, .plain⟩) s) fun t =>
      match s.slotFail a, s.slotFail (!a) with
      | none, _ => boots t a ∧ t.boot.ptr = s.boot.ptr
      | some n, none => boots t (!a) ∧ t.boot.ptr = { s.boot.ptr with active := !a } ∧ t.boot.lastFail = n
      | some _, some n => t.pwr.state = .recovery ∧ t.boot.loaded = false ∧ t.boot.lastFail = n ∧ t.boot.ptr = s.boot.ptr) ∧
    (s.boot.ptr.trial = true → s.boot.ptr.trialLeft ≠ 0 → reaches (exec (.romSlotSelect ⟨dt, .plain⟩) s) fun t =>
      match s.slotFail (!a) with
      | none => boots t (!a) ∧ t.boot.ptr = { s.boot.ptr with trialLeft := s.boot.ptr.trialLeft - 1 }
      | some _ => t.boot.ptr.trial = false ∧ t.boot.migration = [] ∧
          (s.slotFail a = none → boots t a ∧ t.boot.ptr.active = a)) ∧
    (s.boot.ptr.trial = true → s.boot.ptr.trialLeft = 0 → reaches (exec (.romSlotSelect ⟨dt, .plain⟩) s) fun t =>
      t.boot.ptr.trial = false ∧ t.boot.migration = [] ∧ (s.slotFail a = none → boots t a ∧ t.boot.ptr.active = a)) ∧
    (∀ power mapped, s.boot.ptr.trial = true → reaches (exec (.romSlotSelect ⟨dt, ⟨0, false, some ⟨power, mapped⟩⟩⟩) s) fun t =>
      t.boot.ptr = s.boot.ptr ∧ t.boot.loaded = false ∧ t.pwr = s.pwr))) ∧
  (∀ (s : State) (dt : Nat) (lv : BitVec 4), s.tidy → s.pwr.inReset = false → s.pwr.state = .boot → s.boot.loaded = true →
    let u := { s with cal := { s.cal with inputs := lv } }
    let active := (List.range 4).any u.tamperActive
    let n := s.boot.migration.length + 1
    (s.boot.ptr.migrating = true → s.nvHeld = false ∧ s.readOnly Region.boot = false ∧ s.nvRoom Region.boot 0 n ∧
      ∀ e ∈ s.boot.migration, s.nvRoom Region.key (e.1 / 128) n) →
    reaches (exec (.firmwareStart ⟨dt, .plain⟩ lv) s) fun t =>
      t.pwr = { s.pwr with state := .waitHost } ∧ t.active 0 ∧ (t.thread 0).pc = hdEntry s.boot.header ∧
      (t.thread 0).affinity = 1 ∧ (t.thread 0).prio = 0 ∧ (t.thread 0).user = false ∧
      t.key.signer = hdSignerHash s.boot.header ∧ t.key.svn = hdSvn s.boot.header ∧
      (s.boot.ptr.migrating = true → t.boot.migration = [] ∧ t.boot.ptr = { s.boot.ptr with migrating := false }) ∧
      (∀ e, s.cal.epoch = some e → t.cal.epoch = some e ∧ t.cal.epochCount = s.cal.epochCount ∧ t.key.tampered = false) ∧
      (s.cal.epoch = none → active = true → t.cal.epoch = none ∧ t.key.tampered = true) ∧
      (s.cal.epoch = none → active = false → t.cal.epoch.isSome = true ∧ t.cal.epochCount = s.cal.epochCount + 1 ∧
        t.key.tampered = false) ∧
      (∀ e, t.epochBytes = some e → t.key.rootExact = some (rootExactOf e t.key.md) ∧
        t.key.rootLineage = some (rootLineageOf e t.key.signer t.key.svn))) ∧
  (∀ (s : State) (dt : Nat), s.tidy → s.pwr.inReset = false → s.pwr.state = .recovery → s.has U.fab = true → s.linkUp 0 = true →
    (s.elapse dt).due T.recoveryReq (100 * tickMs) = true → (s.egress 0 FC.bulk).length < queueDepth FC.bulk →
    reaches (exec (.recoveryRequestSend dt) s) fun t =>
      (∃ f, t.egress 0 FC.bulk = s.egress 0 FC.bulk ++ [f] ∧ frClass f = FC.bulk ∧ frType f = 1 ∧
        frBody f = leBytes 1 1 ++ euiBytes s.id.eui.toNat ++ leBytes 2 s.id.part.code ++
          leBytes 1 s.id.revision.toNat ++ leBytes 4 s.nextWanted) ∧
      (∀ q c, q ≠ 0 ∨ c ≠ FC.bulk → t.egress q c = s.egress q c) ∧
      t = { (s.elapse dt).mark T.recoveryReq with fab := { s.fab with ports := t.fab.ports, seqs := t.fab.seqs } }) ∧
  (∀ (s : State) (dt : Nat) (frame b : List Byte) (run : NvRun), s.tidy → s.memoriesCanonical → s.pwr.inReset = false →
    s.pwr.state = .recovery → s.portOn 0 = true → frameOk frame = true → s.linkUp 0 = true → frClass frame = FC.bulk →
    frType frame = 1 → byteAt (frBody frame) 0 = 2 → 6 ≤ (frBody frame).length →
    fieldLE (frBody frame) 1 4 = s.nextWanted → (frBody frame).drop 5 = b →
    let h := ((s.boot.update.map (·.header)).getD []) ++ b
    (s.updateNow = none → h.length < 1024 → reaches (exec (.recoveryDataReceived ⟨dt, run⟩ frame) s) fun t =>
      t.boot = { s.boot with update := some ⟨h, s.updateSlotB, 0⟩ } ∧
      t = { s.elapse dt with boot := t.boot, fab := { s.fab with ports := t.fab.ports } }) ∧
    (∀ u, s.updateNow = some u → u.written + b.length < hdPayloadLen u.header →
      reaches (exec (.recoveryDataReceived ⟨dt, run⟩ frame) s) fun t =>
        t.boot.update = some { u with written := u.written + b.length } ∧
        t.flashRead (slotBase u.slotB + 1024 + u.written) b.length = b ∧
        (∀ x, x < slotBase u.slotB + 1024 + u.written ∨ slotBase u.slotB + 1024 + u.written + b.length ≤ x →
          tget t.boot.flash flashFill x = tget s.boot.flash flashFill x) ∧
        t = { s.elapse dt with boot := { s.boot with update := t.boot.update, flash := t.boot.flash }
                               fab := { s.fab with ports := t.fab.ports } }))

/-- BOOT_UPDATE_BEGIN refuses a header with HEADER and the check in DETAIL, or writes it to the erased slot. WRITE adds its
bytes, FINISH of a whole payload commits the trial pointers (in RECOVERY a reset follows) or answers PAYLOAD, CONFIRM
commits the running slot. EXTEND extends register 7 and logs it. PEER_SERVE waits. The log, a stored block and the user
region are read; a user write stores its bytes and no other. While PFAIL_N stops NV writes the boot unit's descriptors
complete PFAIL and change nothing, and a FINISH that PFAIL_N cuts off leaves the pointers as they were. That TRIAL_BOOTS is
held to 1 to 15 and how the NV writes go are log entry 84; the order of the checks is log entry 43. (R485, R487, R490, R492,
R495, R496, R497, R498, R499, R500, R501) -/
def Obligations.UpdatesAndTheNvDieAct : Prop :=
  (∀ (s : State) (dt ring index : Nat) (payload : List Byte) (d : Desc), s.memoriesCanonical → s.offers ring index opBootBegin d →
    s.nvHeld = false → d.len = 1024 → (s.boot.ptr.trial = false ∨ s.pwr.state = .recovery) →
    let h := padTo 1024 payload
    let b := s.updateSlotB
    reaches (exec (.bootUpdateBegin dt ring index payload) s) fun t =>
      match s.headerCheck h with
      | some n => t.boot = { s.boot with update := none, lastFail := n } ∧ (s.elapse dt).replies t d St.header [] n
      | none => t.boot = { s.boot with update := some ⟨h, b, 0⟩, flash := t.boot.flash } ∧ t.slotHeader b = h ∧
          t.slotHeader (!b) = s.slotHeader (!b) ∧
          (∀ x, slotBase b + 1024 ≤ x → x < slotBase b + slotSize → tget t.boot.flash flashFill x = flashFill) ∧
          (s.elapse dt).replies t d St.ok []) ∧
  (∀ (s : State) (dt ring index : Nat) (payload : List Byte) (d : Desc) (u : Update), s.memoriesCanonical →
    s.offers ring index opBootWrite d → s.nvHeld = false → d.len ≠ 0 → s.updateNow = some u → d.operand 0 4 = u.written →
    u.written + d.len ≤ hdPayloadLen u.header →
    let a := slotBase u.slotB + 1024 + u.written
    reaches (exec (.bootUpdateWrite dt ring index payload) s) fun t =>
      t.boot = { s.boot with update := some { u with written := u.written + d.len }, flash := t.boot.flash } ∧
      t.flashRead a d.len = padTo d.len payload ∧
      (∀ x, x < a ∨ a + d.len ≤ x → tget t.boot.flash flashFill x = tget s.boot.flash flashFill x) ∧
      (s.elapse dt).replies t d St.ok []) ∧
  (∀ (s : State) (dt ring index : Nat) (d : Desc) (u : Update), s.offers ring index opBootFinish d → s.updateNow = some u →
    u.written = hdPayloadLen u.header → s.nvHeld = false → s.readOnly Region.boot = false → s.nvRoom Region.boot 0 2 →
    s.nvRoom Region.boot 3 2 →
    (∀ mapped, reaches (exec (.bootUpdateFinish dt ring index ⟨0, false, some ⟨false, mapped⟩⟩) s) fun t =>
      t.boot.ptr = s.boot.ptr ∧ t.boot.flash = s.boot.flash ∧ t.pwr = s.pwr ∧
      (s.elapse dt).replies t d (if payloadOk u.header (s.slotPayload u.slotB) then St.pfail else St.payload) []) ∧
    reaches (exec (.bootUpdateFinish dt ring index .plain) s) fun t =>
      if payloadOk u.header (s.slotPayload u.slotB) then
        t.boot.ptr = s.finishPtr u ∧ t.boot.update = none ∧ t.boot.flash = s.boot.flash ∧
        (s.pwr.state = .recovery → t.pwr.resetCause = 3 ∧ t.pwr.inReset = false ∧ t.pwr.state = .boot) ∧
        (s.pwr.state ≠ .recovery → t.pwr = s.pwr ∧ (s.elapse dt).replies t d St.ok [])
      else t.boot = { s.boot with lastFail := 8 } ∧ (s.elapse dt).replies t d St.payload []) ∧
  (∀ (s : State) (dt ring index : Nat) (d : Desc), s.offers ring index opBootConfirm d → s.onTrial = true → s.nvHeld = false →
    s.readOnly Region.boot = false → (s.key.worn = false ∨ s.boot.migration = []) →
    (∀ e ∈ s.boot.migration, s.nvRoom Region.key (e.1 / 128) (s.boot.migration.length + 3)) →
    s.nvRoom Region.boot 0 (s.boot.migration.length + 3) →
    reaches (exec (.bootConfirm dt ring index .plain) s) fun t =>
      t.boot.ptr = { s.boot.ptr with
        active := s.boot.booted, trial := false, migrating := s.boot.ptr.migrating && s.boot.migration.isEmpty } ∧ t.boot.migration = [] ∧
      t.boot.svnMin = (if bit (d.operand 0 1) 0 then hdSvn s.boot.header else s.boot.svnMin) ∧
      (s.elapse dt).replies t d St.ok []) ∧
  (∀ (s : State) (dt ring index : Nat) (payload : List Byte) (d : Desc), s.tidy → s.offers ring index opBootExtend d →
    d.len = 48 → s.nvHeld = false →
    let x : BitVec 384 := BitVec.ofNat 384 (beNat (padTo 48 payload))
    s.nvRoom Region.boot 2 1 →
    reaches (exec (.bootExtend ⟨dt, .plain⟩ ring index payload) s) fun t =>
      tget t.boot.meas 0 7 = Config.sha384 (bvBytes (tget s.boot.meas 0 7) ++ bvBytes x) ∧
      (∀ k, k ≠ 7 → tget t.boot.meas 0 k = tget s.boot.meas 0 k) ∧ 
      t.boot.log = (if s.readOnly Region.boot then s.boot.log else s.boot.log ++ [(7, d.operand 0 1, x)]) ∧
      t.boot = { s.boot with meas := t.boot.meas, log := t.boot.log } ∧ (s.elapse dt).replies t d St.ok []) ∧
  (∀ (s : State) (dt ring index : Nat) (d : Desc), s.offers ring index opBootPeerServe d → s.nvHeld = false →
    tfind s.boot.peers (d.operand 0 1) = none →
    reaches (exec (.bootPeerServe dt ring index) s) fun t => (s.elapse dt).waits t d) ∧
  (∀ (s : State) (dt ring index : Nat) (d : Desc), s.offers ring index opBootLogRead d → s.nvHeld = false → 64 ≤ d.len →
    d.operand 0 2 < s.boot.log.length →
    let rest := s.boot.log.drop (d.operand 0 2)
    reaches (exec (.bootLogRead dt ring index) s) fun t =>
      (s.elapse dt).answered t [.hostWrite d.addr ((rest.take (d.len / 64)).map logEntry).flatten] d
        (if d.len / 64 < rest.length then St.more else St.ok) [] ∧
      (s.elapse dt).answerOnly t) ∧
  (∀ (s : State) (dt ring index : Nat) (d : Desc) (b : StoredBlock), s.offers ring index opNvmCfgGet d → s.nvm.fault = false → s.nvHeld = false →
    (s.elapse dt).settledStore[d.operand 0 1]? = some b → b.bytes.length ≤ d.len → b.bytes ≠ [] →
    reaches (exec (.nvmCfgGet dt ring index) s) fun t =>
      (s.elapse dt).answered t [.hostWrite d.addr b.bytes] d St.ok [] ∧ (s.elapse dt).answerOnly t) ∧
  (∀ (s : State) (dt ring index : Nat) (payload : List Byte) (d : Desc), s.memoriesCanonical → s.offers ring index opNvmUser d →
    s.nvm.fault = false → s.nvHeld = false → 1 ≤ d.len → d.len ≤ 1048576 → d.operand 1 4 + d.len ≤ s.userSize →
    let o := d.operand 1 4
    (d.operand 0 1 = 0 →
      (∀ k, o / 65536 ≤ k → k ≤ (o + d.len - 1) / 65536 → s.userWorn k = false ∧ s.nvRoom Region.user k 17) →
      reaches (exec (.nvmUserWrite dt ring index payload .plain) s) fun t =>
        readMem t.nvm.user memFill o d.len = padTo d.len payload ∧
        (∀ x, x < o ∨ o + d.len ≤ x → tget t.nvm.user memFill x = tget s.nvm.user memFill x) ∧
        t.nvm = { s.nvm with user := t.nvm.user, wear := t.nvm.wear } ∧ (s.elapse dt).replies t d St.ok []) ∧
    (d.operand 0 1 = 1 → (∀ k, o / 65536 ≤ k → k ≤ (o + d.len - 1) / 65536 → s.userWorn k = false) →
      reaches (exec (.nvmUserRead dt ring index) s) fun t =>
        (s.elapse dt).answered t [.hostWrite d.addr (readMem s.nvm.user memFill o d.len)] d St.ok [] ∧
        (s.elapse dt).answerOnly t)) ∧
  (∀ (s : State) (dt ring index : Nat) (payload : List Byte) (run : NvRun) (d : Desc) (c : Instr),
    (c = .bootUpdateBegin dt ring index payload ∧ s.offers ring index opBootBegin d) ∨
      (c = .bootUpdateWrite dt ring index payload ∧ s.offers ring index opBootWrite d) ∨
      (c = .bootUpdateFinish dt ring index run ∧ s.offers ring index opBootFinish d) ∨
      (c = .bootConfirm dt ring index run ∧ s.offers ring index opBootConfirm d) ∨
      (c = .bootExtend ⟨dt, run⟩ ring index payload ∧ s.offers ring index opBootExtend d) ∨
      (c = .bootPeerServe dt ring index ∧ s.offers ring index opBootPeerServe d) ∨
      (c = .bootLogRead dt ring index ∧ s.offers ring index opBootLogRead d) →
    s.nvHeld = true → reaches (exec c s) fun t => t.boot = s.boot ∧ t.nvm = s.nvm ∧ (s.elapse dt).replies t d St.pfail [])

/-- With a command at the front of its queue, step answers what exec answers of that command on the machine with the rest of the
queue. With an empty queue each core that has a running thread runs one instruction; where no thread is on a core, or the
cores do not run, step answers the same state. That the cores run then is the model's choice (log entry 36).
(01_architecture.md) -/
def Obligations.StepRunsTheFrontCommand : Prop :=
  (∀ (c : Instr) (s : State), step (s.push c) = exec c s) ∧ (∀ s : State, s.pending = [] → step s = .next s.runCores) ∧
  (∀ s : State, s.pending = [] → s.coresRun = false ∨ s.dis.cores = [] → step s = .next s)

/-- For every state and every command, with whatever operands, exec answers a next state, neither a fault nor a refusal, and its
queue and fused identity are those of before. What each command does in it the other statements say. (R2, R33, R35, R69,
R99, R276, R301, R360, R361, R362, R376) -/
def Obligations.EveryCommandCompletes : Prop :=
  ∀ (c : Instr) (s : State), reaches (exec c s) fun t => t.pending = s.pending ∧ t.id = s.id

/-- From any state whose DRAM, core banks, dual-port region, user region and flash are in canonical form, a step that answers a
next state leaves all five in canonical form, and the words of DRAM that hold an uncorrectable error stay at addresses of
whole words. What an unlisted byte reads as is the model's choice (log entry 9). (R428, R445, R483, R488) -/
def Obligations.MemoriesStayCanonical : Prop :=
  ∀ s t : State, s.memoriesCanonical → step s = .next t → t.memoriesCanonical

/-- From any state whose tables (registers, table entries, rings, sources, alarms, threads, cores, frames, machines, nodes,
reservations and the others that State.tidy names) list strictly rising numbers, a step that answers a next state leaves
them so. The tables are the model's form of the units' numbered registers and entries. (R361, R432, R435, R459) -/
def Obligations.TablesStayTidy : Prop :=
  ∀ s t : State, s.tidy → step s = .next t → t.tidy

/-- From any state with tidy tables in which the ready lists hold READY threads of their priority without repeats, every core's
thread is RUNNING there, and no thread is on a core or in a list in reset, in BOOT or in RECOVERY, a step that answers a
next state leaves a state of which all this holds. (R24, R430, R432, R433, R435) -/
def Obligations.ThreadsStayScheduled : Prop :=
  ∀ s t : State, s.tidy → s.scheduled → step s = .next t → t.scheduled

/-- State.reset is in BOOT with the latch set at STOP by POWER_ON, with no unit configured, no ring enabled, no command waiting,
its memories in canonical form, its tables tidy and its threads scheduled. That it is an MG-7740 with all rails good is the
model's choice. (R24, R26, R49, R332, R361) -/
def Obligations.ResetMeetsTheInvariants : Prop :=
  State.reset.pwr.state = .boot ∧ State.reset.stp.latched = true ∧ State.reset.stp.stop = true ∧ State.reset.stp.source = 1 ∧
  State.reset.cfg.units = 0 ∧ (∀ n, (State.reset.ring n).state = .disabled) ∧ State.reset.pending = [] ∧
  State.reset.memoriesCanonical ∧ State.reset.tidy ∧ State.reset.scheduled

/-- CFG_COMMIT, HST_COMMIT and the launch instant of a queued commit leave the latch with its class, source and count as they
were. They do so unless a fatal cause arises during the checks, which is itself a request (R29). With the latch set, a
CFG_COMMIT is checked as without it: it takes effect where the checks pass and is refused with their reason where one fails.
(R59) -/
def Obligations.CommitsLeaveTheStopLatch : Prop :=
  (∀ (s : State) (dt ring index : Nat) (v : Word) (payload : List Byte) (env : CommitIn) (c : Instr), fatalCause env = none →
    c = .cfgCommit dt v env ∨ c = .hstCommit dt ring index payload env.host env.toCommitRun ∨
      c = .launchCommitApply dt env.host env.toCommitRun →
    reaches (exec c s) fun t => t.stp.latched = s.stp.latched ∧ t.stp.stop = s.stp.stop ∧ t.stp.source = s.stp.source ∧
      t.stp.count = s.stp.count) ∧
  (∀ (s : State) (dt : Nat) (v : Word) (env : CommitIn), fatalCause env = none → s.cfg.busyUntil ≤ s.clk.counter + dt →
    s.stp.latched = true → s.pwr.inReset = false → s.hst.fault = false → s.pwr.state ≠ .safeHold → bits v.toNat 24 8 = 0x5C → BitVec.ofNat 20 v.toNat ≠ 0 →
    (∀ r ∈ s.hst.rings, r.2.state = .disabled) →
    let mask : BitVec 20 := BitVec.ofNat 20 v.toNat
    let snap := s.cfg.staged.only mask
    let x := ((s.elapse dt).beginCheck env).candidate' snap mask env.host false
    reaches (exec (.cfgCommit dt v env) s) fun t =>
      match x.1.checkCommit x.2 [] (v.getLsbD 20) with
      | none => t.cfg.active = s.cfg.active.withUnits snap mask ∧ t.cfg.units = s.cfg.units ||| mask ∧ t.cfg.result = 2
      | some (reason, rule) => t.cfg.active = s.cfg.active ∧ t.cfg.units = s.cfg.units ∧ t.cfg.result = 3 ∧
          t.cfg.reason = reason ∧ t.cfg.ruleId = rule)
end

