-- ==== Sys2Proof/Laws/Table.lean ====
section
/-! SUPPORT. Laws of sparse tables and of byte memories: reading after writing, and the canonical form that every operation
keeps. -/

namespace Sys2Proof.Machine

variable {α : Type}

/-! ### Reading a table -/

@[simp] theorem tfind_nil (i : Nat) : tfind ([] : Tbl α) i = none := rfl

@[simp] theorem tget_nil (d : α) (i : Nat) : tget [] d i = d := rfl

theorem tfind_cons (k i : Nat) (v : α) (r : Tbl α) : tfind ((k, v) :: r) i = if k = i then some v else tfind r i := rfl

/-- What is found under a number is listed with it. -/
theorem mem_of_tfind {t : Tbl α} {i : Nat} {v : α} (h : tfind t i = some v) : (i, v) ∈ t := by
  induction t with
  | nil => simp at h
  | cons p r ih =>
    obtain ⟨k, w⟩ := p
    rw [tfind_cons] at h
    split at h
    · simp_all
    · exact List.mem_cons_of_mem _ (ih h)

/-- Nothing is found under a number that is not listed. -/
theorem tfind_none_of_forall_ne {t : Tbl α} {i : Nat} (h : ∀ p ∈ t, p.1 ≠ i) : tfind t i = none := by
  cases hf : tfind t i with
  | none => rfl
  | some v => exact absurd rfl (h _ (mem_of_tfind hf))

/-- In a sorted table every entry is found under its number. -/
theorem tfind_of_mem {t : Tbl α} {i : Nat} {v : α} (hs : tsorted t) (h : (i, v) ∈ t) : tfind t i = some v := by
  induction t with
  | nil => simp at h
  | cons p r ih =>
    obtain ⟨k, w⟩ := p
    rw [tsorted, List.pairwise_cons] at hs
    rw [tfind_cons]
    rcases List.mem_cons.1 h with h | h
    · simp_all
    · have := hs.1 _ h
      rw [if_neg (by simp at this; omega), ih hs.2 h]

/-! ### Writing a table -/

@[simp] theorem tfind_tput_self (t : Tbl α) (i : Nat) (v : α) : tfind (tput t i v) i = some v := by
  induction t with
  | nil => simp [tput, tfind]
  | cons p r ih =>
    simp only [tput]
    split
    · simp [tfind]
    · split
      · simp [tfind]
      · next h => simp [tfind, h, ih]

theorem tfind_tput_ne (t : Tbl α) {i j : Nat} (v : α) (h : j ≠ i) : tfind (tput t i v) j = tfind t j := by
  induction t with
  | nil => simp [tput, tfind, h.symm]
  | cons p r ih =>
    simp only [tput]
    split
    · simp [tfind, h.symm]
    · split
      · next hk => simp [tfind, h.symm, hk]
      · simp [tfind, ih]

theorem mem_tput {t : Tbl α} {i : Nat} {v : α} {p : Nat × α} (h : p ∈ tput t i v) : p = (i, v) ∨ p ∈ t := by
  induction t with
  | nil => simp [tput] at h; exact .inl h
  | cons q r ih =>
    simp only [tput] at h
    split at h
    · rcases List.mem_cons.1 h with h | h
      · exact .inl h
      · exact .inr h
    · split at h
      · rcases List.mem_cons.1 h with h | h
        · exact .inl h
        · exact .inr (List.mem_cons_of_mem _ h)
      · rcases List.mem_cons.1 h with h | h
        · exact .inr (h ▸ List.mem_cons_self)
        · exact (ih h).imp id (List.mem_cons_of_mem _)

theorem mem_terase {t : Tbl α} {i : Nat} {p : Nat × α} (h : p ∈ terase t i) : p ∈ t := by
  induction t with
  | nil => simp [terase] at h
  | cons q r ih =>
    simp only [terase] at h
    split at h
    · exact List.mem_cons_of_mem _ h
    · rcases List.mem_cons.1 h with h | h
      · exact h ▸ List.mem_cons_self
      · exact List.mem_cons_of_mem _ (ih h)

theorem tsorted_tput {t : Tbl α} (h : tsorted t) (i : Nat) (v : α) : tsorted (tput t i v) := by
  induction t with
  | nil => simp [tput, tsorted]
  | cons p r ih =>
    obtain ⟨k, w⟩ := p
    have hp := List.pairwise_cons.1 h
    simp only [tput]
    split
    · next hlt => exact List.pairwise_cons.2 ⟨fun q hq => by
        rcases List.mem_cons.1 hq with rfl | hq
        · exact hlt
        · exact Nat.lt_trans hlt (hp.1 q hq), h⟩
    · split
      · next he => subst he; exact List.pairwise_cons.2 ⟨hp.1, hp.2⟩
      · exact List.pairwise_cons.2 ⟨fun q hq => by
          rcases mem_tput hq with rfl | hq
          · simp; omega
          · exact hp.1 q hq, ih hp.2⟩

theorem tsorted_terase {t : Tbl α} (h : tsorted t) (i : Nat) : tsorted (terase t i) := by
  induction t with
  | nil => simp [terase, tsorted]
  | cons p r ih =>
    have hp := List.pairwise_cons.1 h
    simp only [terase]
    split
    · exact hp.2
    · exact List.pairwise_cons.2 ⟨fun q hq => hp.1 q (mem_terase hq), ih hp.2⟩

theorem tfind_terase_ne (t : Tbl α) {i j : Nat} (h : j ≠ i) : tfind (terase t i) j = tfind t j := by
  induction t with
  | nil => rfl
  | cons p r ih =>
    simp only [terase]
    split
    · next hk => simp [tfind, hk, h.symm]
    · simp [tfind, ih]

theorem tfind_terase_self {t : Tbl α} (h : tsorted t) (i : Nat) : tfind (terase t i) i = none := by
  induction t with
  | nil => rfl
  | cons p r ih =>
    have hp := List.pairwise_cons.1 h
    simp only [terase]
    split
    · next hk => exact tfind_none_of_forall_ne fun q hq => by have := hp.1 q hq; omega
    · next hk => simp [tfind, hk, ih hp.2]

/-! ### Tables with a default -/

variable [DecidableEq α]

theorem tsorted_tset {t : Tbl α} (h : tsorted t) (d : α) (i : Nat) (v : α) : tsorted (tset t d i v) := by
  unfold tset
  split
  · exact tsorted_terase h i
  · exact tsorted_tput h i v

theorem tsorted_tmod {t : Tbl α} (h : tsorted t) (d : α) (i : Nat) (f : α → α) : tsorted (tmod t d i f) :=
  tsorted_tset h d i _

/-- Reading what was written, in a sorted table. -/
theorem tget_tset_self {t : Tbl α} (h : tsorted t) (d : α) (i : Nat) (v : α) : tget (tset t d i v) d i = v := by
  unfold tset tget
  split
  · next hv => simp [tfind_terase_self h, hv]
  · simp

/-- A value other than the default is read back whatever the table. -/
theorem tget_tset_self_of_ne (t : Tbl α) {d v : α} (h : v ≠ d) (i : Nat) : tget (tset t d i v) d i = v := by
  simp [tset, tget, h]

/-- Writing leaves every other number. -/
theorem tget_tset_ne (t : Tbl α) (d : α) {i j : Nat} (v : α) (h : j ≠ i) : tget (tset t d i v) d j = tget t d j := by
  unfold tset tget
  split
  · rw [tfind_terase_ne t h]
  · rw [tfind_tput_ne t v h]

theorem tget_tmod_self {t : Tbl α} (h : tsorted t) (d : α) (i : Nat) (f : α → α) : tget (tmod t d i f) d i = f (tget t d i) :=
  tget_tset_self h d i _

theorem tget_tmod_ne (t : Tbl α) (d : α) {i j : Nat} (f : α → α) (h : j ≠ i) : tget (tmod t d i f) d j = tget t d j :=
  tget_tset_ne t d _ h

theorem mem_tset {t : Tbl α} {d v : α} {i : Nat} {p : Nat × α} (h : p ∈ tset t d i v) : (p = (i, v) ∧ v ≠ d) ∨ p ∈ t := by
  unfold tset at h
  split at h
  · exact .inr (mem_terase h)
  · next hv => exact (mem_tput h).imp (fun e => ⟨e, hv⟩) id

/-- Writing keeps the canonical form. -/
theorem tcanon_tset {t : Tbl α} {d : α} (h : tcanon t d) (i : Nat) (v : α) : tcanon (tset t d i v) d :=
  ⟨tsorted_tset h.1 d i v, fun p hp => by
    rcases mem_tset hp with ⟨rfl, hv⟩ | hp
    · exact hv
    · exact h.2 p hp⟩

/-! ### Byte memories -/

/-- A store of bytes keeps the canonical form. -/
theorem writeMem_wf {m : Memory} {d : Byte} (h : Memory.wf m d) (a : Nat) (b : List Byte) : Memory.wf (writeMem m d a b) d := by
  induction b generalizing m a with
  | nil => exact h
  | cons x r ih => exact ih (tcanon_tset h a x) (a + 1)

/-- Leaving out entries keeps the canonical form. -/
theorem Memory.wf_filter {m : Memory} {d : Byte} (h : Memory.wf m d) (p : Nat × Byte → Bool) : Memory.wf (m.filter p) d :=
  ⟨h.1.filter p, fun q hq => h.2 q (List.mem_of_mem_filter hq)⟩

/-- Moving addresses in their order keeps the canonical form. -/
theorem Memory.wf_shift {m : Memory} {d : Byte} (h : Memory.wf m d) (f : Nat → Option Nat)
    (mono : ∀ a b x y, a < b → f a = some x → f b = some y → x < y) :
    Memory.wf (m.filterMap fun e => (f e.1).map fun a => (a, e.2)) d := by
  refine ⟨?_, fun q hq => ?_⟩
  · refine List.Pairwise.filterMap _ ?_ h.1
    intro p q hpq u hu v hv
    simp only [Option.map_eq_some_iff] at hu hv
    obtain ⟨x, hx, rfl⟩ := hu
    obtain ⟨y, hy, rfl⟩ := hv
    exact mono _ _ _ _ hpq hx hy
  · rw [List.mem_filterMap] at hq
    obtain ⟨p, hp, hq⟩ := hq
    simp only [Option.map_eq_some_iff] at hq
    obtain ⟨x, _, rfl⟩ := hq
    exact h.2 p hp

/-- A store leaves every byte outside it. -/
theorem tget_writeMem_outside (m : Memory) (d : Byte) (a x : Nat) (b : List Byte) (h : x < a ∨ a + b.length ≤ x) :
    tget (writeMem m d a b) d x = tget m d x := by
  induction b generalizing m a with
  | nil => rfl
  | cons y r ih =>
    simp only [List.length_cons] at h
    rw [writeMem, ih _ _ (by omega), tget_tset_ne _ _ _ (by omega)]

/-- A byte of a store is read back. -/
theorem tget_writeMem_inside {m : Memory} {d : Byte} (hm : Memory.wf m d) (a i : Nat) (b : List Byte) (h : i < b.length) :
    tget (writeMem m d a b) d (a + i) = b[i] := by
  induction b generalizing m a i with
  | nil => simp at h
  | cons y r ih =>
    rw [writeMem]
    cases i with
    | zero =>
      rw [tget_writeMem_outside _ _ _ _ _ (by omega)]
      simpa using tget_tset_self hm.1 d a y
    | succ j =>
      have := ih (tcanon_tset hm a y) (a + 1) j (by simpa using h)
      simpa [Nat.add_assoc, Nat.add_comm 1 j] using this

/-- A store is read back. -/
theorem readMem_writeMem {m : Memory} {d : Byte} (hm : Memory.wf m d) (a : Nat) (b : List Byte) :
    readMem (writeMem m d a b) d a b.length = b := by
  refine List.ext_getElem (by simp [readMem]) fun i h1 h2 => ?_
  simp only [readMem, List.getElem_map, List.getElem_range]
  exact tget_writeMem_inside hm a i b h2

/-! ### The memories of the machine -/

/-- The boundary of the user region moves as a whole (R486). -/
theorem shift_down_mono (d a b x y : Nat) (hab : a < b) (hx : (if a < d then none else some (a - d)) = some x)
    (hy : (if b < d then none else some (b - d)) = some y) : x < y := by
  split at hx <;> split at hy <;> simp_all
  omega

/-- A write to flash keeps the memories canonical. -/
theorem State.flashWrite_canonical {s : State} (h : s.memoriesCanonical) (a : Nat) (b : List Byte) :
    (s.flashWrite a b).memoriesCanonical :=
  ⟨h.1, h.2.1, h.2.2.1, h.2.2.2.1, writeMem_wf h.2.2.2.2.1 a b, h.2.2.2.2.2⟩

/-- The erase of a slot keeps the memories canonical. -/
theorem State.eraseSlot_canonical {s : State} (h : s.memoriesCanonical) (b : Bool) : (s.eraseSlot b).memoriesCanonical :=
  ⟨h.1, h.2.1, h.2.2.1, h.2.2.2.1, Memory.wf_filter h.2.2.2.2.1 _, h.2.2.2.2.2⟩

end Sys2Proof.Machine
end

