-- ==== Sys2Proof/Laws/Events.lean ====
section
/-! SUPPORT. What raising an event can do: the Dispatcher, the recorder's queue and the trace in DRAM, which keeps its canonical
form (R439, R443, R507). -/

namespace Sys2Proof.Machine

/-- DRAM is in canonical form, and its words with an uncorrectable error are aligned. -/
def Mem.sound (m : Mem) : Prop := Memory.wf m.dram memFill ∧ ∀ w ∈ m.bad, w % 8 = 0

/-- Only what an event may change has changed, and DRAM has kept its form. -/
def State.quiet (s t : State) : Prop := State.eventsOnly s t ∧ (s.mem.sound → t.mem.sound)

/-- What an event may change of memory. -/
def Mem.traced (m n : Mem) : Prop :=
  n = { m with dram := n.dram, bad := n.bad, waiting := n.waiting, failed := n.failed, eccUncorr := n.eccUncorr, eccAddr := n.eccAddr }

/-- The parts that an event may change, named. -/
theorem State.quiet_iff {s t : State} : State.quiet s t ↔ ∃ (d : Dis) (c : Crn) (m : Mem),
    t = { s with dis := d, crn := c, mem := m } ∧ Mem.traced s.mem m ∧
    (s.act F.DIS_CTRL_TRACE_EN = 0 → m = { s.mem with failed := m.failed } ∧ m.failed ≤ s.mem.failed) ∧
    (s.mem.sound → m.sound) := by
  constructor
  · rintro ⟨⟨h1, h2⟩, h3⟩
    exact ⟨t.dis, t.crn, t.mem, by rw [h1], by rw [Mem.traced, h1], h2, h3⟩
  · rintro ⟨d, c, m, rfl, h1, h2, h3⟩
    exact ⟨⟨by rw [← h1], h2⟩, h3⟩

theorem State.quiet_refl (s : State) : State.quiet s s := ⟨⟨rfl, fun _ => ⟨rfl, le_rfl⟩⟩, fun h => h⟩

theorem State.quiet_trans {a b c : State} (h1 : State.quiet a b) (h2 : State.quiet b c) : State.quiet a c := by
  obtain ⟨d, k, m, rfl, t1, e1, w1⟩ := State.quiet_iff.1 h1
  obtain ⟨d', k', m', rfl, t2, e2, w2⟩ := State.quiet_iff.1 h2
  refine State.quiet_iff.2 ⟨d', k', m', rfl, ?_, fun h => ?_, fun h => w2 (w1 h)⟩
  · rw [Mem.traced] at t1 t2 ⊢
    rw [t2, t1]
  · obtain ⟨p1, l1⟩ := e1 h
    obtain ⟨p2, l2⟩ := e2 h
    exact ⟨by rw [p2, p1], l2.trans l1⟩

/-- A change of the Dispatcher alone. -/
theorem State.quiet_dis (s : State) (d : Dis) : State.quiet s { s with dis := d } :=
  State.quiet_iff.2 ⟨d, s.crn, s.mem, rfl, rfl, fun _ => ⟨rfl, le_rfl⟩, fun h => h⟩

/-- A change of the recorder alone. -/
theorem State.quiet_crn (s : State) (c : Crn) : State.quiet s { s with crn := c } :=
  State.quiet_iff.2 ⟨s.dis, c, s.mem, rfl, rfl, fun _ => ⟨rfl, le_rfl⟩, fun h => h⟩

/-- A fold of quiet changes is quiet. -/
theorem State.quiet_foldl {α : Type} (f : State → α → State) (hf : ∀ s x, State.quiet s (f s x)) (l : List α) (s : State) :
    State.quiet s (l.foldl f s) := by
  induction l generalizing s with
  | nil => exact State.quiet_refl s
  | cons x r ih => exact State.quiet_trans (hf s x) (ih (f s x))

/-! ### Threads and cores -/

theorem State.modThread_quiet (s : State) (t : Nat) (f : Thread → Thread) : State.quiet s (s.modThread t f) := State.quiet_dis s _

theorem State.setReady_quiet (s : State) (p : Nat) (l : List Nat) : State.quiet s (s.setReady p l) := State.quiet_dis s _

/-- What counting errors of DRAM accesses may change. -/
theorem State.dramErrors_traced (s : State) (l : List Nat) :
    s.dramErrors l = { s with mem := (s.dramErrors l).mem } ∧ Mem.traced s.mem (s.dramErrors l).mem ∧
    (s.dramErrors l).mem.dram = s.mem.dram ∧ (s.dramErrors l).mem.bad = s.mem.bad := by
  unfold State.dramErrors
  cases l.getLast? with
  | none => exact ⟨rfl, rfl, rfl, rfl⟩
  | some a => exact ⟨rfl, rfl, rfl, rfl⟩

/-- What a store in DRAM may change, and that DRAM keeps its form. -/
theorem State.dramPut_traced (s : State) (a : Nat) (b : List Byte) :
    s.dramPut a b = { s with mem := (s.dramPut a b).mem } ∧ Mem.traced s.mem (s.dramPut a b).mem ∧
    (s.mem.sound → (s.dramPut a b).mem.sound) := by
  unfold State.dramPut
  dsimp only
  obtain ⟨h1, h2, h3, h4⟩ := State.dramErrors_traced { s with mem := { s.mem with
    dram := if (List.filter (fun w => !(decide (a ≤ w) && decide (w + 8 ≤ a + b.length))) (s.dramFaults a b.length)).isEmpty = true then
        writeMem s.mem.dram memFill a b
      else List.foldl (fun m (p : Byte × Nat) =>
        if ((List.filter (fun w => !(decide (a ≤ w) && decide (w + 8 ≤ a + b.length))) (s.dramFaults a b.length)).any fun w =>
          decide (w ≤ a + p.2) && decide (a + p.2 < w + 8)) = true then m else tset m memFill (a + p.2) p.1) s.mem.dram b.zipIdx
    bad := s.mem.bad.filter fun w => !(decide (a ≤ w) && decide (w + 8 ≤ a + b.length)) } }
    ((s.dramFaults a b.length).filter fun w => !(decide (a ≤ w) && decide (w + 8 ≤ a + b.length)))
  refine ⟨by rw [h1], ?_, fun hw => ?_⟩
  · rw [Mem.traced] at h2 ⊢
    rw [h2]
  · refine ⟨?_, by rw [h4]; exact fun w h => hw.2 w (List.mem_of_mem_filter h)⟩
    rw [h3]
    dsimp only
    split
    · exact writeMem_wf hw.1 _ _
    · generalize b.zipIdx = l
      induction l using List.reverseRecOn with
      | nil => exact hw.1
      | append_singleton l x ih =>
        rw [List.foldl_append]
        dsimp only [List.foldl_cons, List.foldl_nil]
        split
        · exact ih
        · exact tcanon_tset ih _ _

/-- What a unit's store in DRAM may change. -/
theorem State.dramStore_traced (s : State) (a : Nat) (b : List Byte) :
    s.dramStore a b = { s with mem := (s.dramStore a b).mem } ∧ Mem.traced s.mem (s.dramStore a b).mem ∧
    (s.mem.sound → (s.dramStore a b).mem.sound) := by
  unfold State.dramStore
  split
  · obtain ⟨h1, h2, h3, h4⟩ := State.dramErrors_traced s [a]
    exact ⟨h1, h2, fun hw => ⟨by rw [h3]; exact hw.1, by rw [h4]; exact hw.2⟩⟩
  · split
    · exact State.dramPut_traced s a b
    · exact ⟨rfl, rfl, fun hw => hw⟩

/-- While the trace runs, a record's store changes what an event may change. -/
theorem State.dramStore_quiet {s : State} (h : s.act F.DIS_CTRL_TRACE_EN ≠ 0) (a : Nat) (b : List Byte) :
    State.quiet s (s.dramStore a b) := by
  obtain ⟨h1, h2, h3⟩ := State.dramStore_traced s a b
  exact State.quiet_iff.2 ⟨s.dis, s.crn, _, h1, h2, fun h0 => absurd h0 h, h3⟩

theorem State.traceChange_quiet (s : State) (core : Nat) (why : TraceReason) (o i : Option Nat) :
    State.quiet s (s.traceChange core why o i) := by
  unfold State.traceChange
  split
  · exact State.quiet_refl s
  · next h =>
    dsimp only
    split
    · exact State.quiet_dis s _
    · next n _ =>
      refine State.quiet_trans (State.quiet_dis s { s.dis with traceWr := n }) (State.dramStore_quiet ?_ _ _)
      intro h0
      have h0 : s.act F.DIS_CTRL_TRACE_EN = 0 := h0
      simp [h0] at h

theorem State.dispatchOn_quiet (s : State) (core t : Nat) : State.quiet s (s.dispatchOn core t) :=
  State.quiet_trans (State.quiet_dis s _) (State.modThread_quiet _ _ _)

theorem State.refill_quiet (s : State) (core : Nat) (why : TraceReason) (left : Nat) : State.quiet s (s.refill core why left) := by
  unfold State.refill
  dsimp only
  refine State.quiet_trans (State.quiet_dis s { s.dis with cores := terase s.dis.cores core }) ?_
  split
  · exact State.traceChange_quiet _ _ _ _ _
  · split
    · exact State.traceChange_quiet _ _ _ _ _
    · exact State.quiet_trans (State.setReady_quiet _ _ _)
        (State.quiet_trans (State.traceChange_quiet _ _ _ _ _) (State.dispatchOn_quiet _ _ _))

theorem State.toHead_quiet (s : State) (t : Nat) : State.quiet s (State.toHead t s) := State.setReady_quiet _ _ _

theorem State.toTail_quiet (s : State) (t : Nat) : State.quiet s (State.toTail t s) := State.setReady_quiet _ _ _

theorem State.placeAux_quiet (fuel : Nat) (s : State) (t : Nat) (waits : State → State) (hw : ∀ s, State.quiet s (waits s)) :
    State.quiet s (State.placeAux fuel s t waits) := by
  induction fuel generalizing s t waits with
  | zero => exact hw s
  | succ fuel ih =>
    unfold State.placeAux
    split
    · exact State.quiet_trans (State.traceChange_quiet _ _ _ _ _) (State.dispatchOn_quiet _ _ _)
    · split
      · exact hw s
      · split
        · exact hw s
        · exact State.quiet_trans (State.modThread_quiet _ _ _) (State.quiet_trans (State.traceChange_quiet _ _ _ _ _)
            (State.quiet_trans (State.dispatchOn_quiet _ _ _) (ih _ _ _ fun s => State.toHead_quiet s _)))

theorem State.placeBy_quiet (s : State) (t : Nat) (waits : State → State) (hw : ∀ s, State.quiet s (waits s)) :
    State.quiet s (s.placeBy t waits) := by
  unfold State.placeBy
  dsimp only
  refine State.quiet_trans (State.modThread_quiet s t fun th => { th with state := .ready }) ?_
  split
  · exact hw _
  · exact State.placeAux_quiet _ _ _ _ hw

theorem State.place_quiet (s : State) (t : Nat) : State.quiet s (s.place t) :=
  State.placeBy_quiet s t _ fun s => State.toTail_quiet s t

theorem State.placeAll_quiet (s : State) (l : List Nat) : State.quiet s (s.placeAll l) :=
  State.quiet_foldl _ State.place_quiet _ s

theorem State.setFlag_quiet (s : State) (t flag src : Nat) : State.quiet s (s.setFlag t flag src).1 := by
  unfold State.setFlag
  dsimp only
  split
  · exact State.quiet_trans (State.modThread_quiet _ _ _) (State.modThread_quiet _ _ _)
  · exact State.modThread_quiet _ _ _

/-! ### Events -/

theorem State.post_quiet (s : State) (posts : List (Nat × Nat)) (src : Nat) : State.quiet s (s.post posts src).1 := by
  unfold State.post
  refine State.quiet_trans ?_ (State.placeAll_quiet _ _)
  suffices h : ∀ (l : List (Nat × Nat)) (acc : State × List Nat × List Nat), State.quiet acc.1 (l.foldl (fun acc p =>
      let (s, woken, lost) := acc
      if (s.thread p.1).state = .free then
        ({ s with dis := { s.dis with lostPosts := s.dis.lostPosts + 1 } }, woken, lost ++ [p.1])
      else
        let (s', w) := s.setFlag p.1 p.2 src
        (s', woken ++ w.toList, lost)) acc).1 from h posts (s, [], [])
  intro l
  induction l with
  | nil => exact fun acc => State.quiet_refl _
  | cons p r ih =>
    intro acc
    refine State.quiet_trans ?_ (ih _)
    obtain ⟨s, w, l⟩ := acc
    dsimp only
    split
    · exact State.quiet_dis s _
    · exact State.setFlag_quiet s _ _ _

theorem State.enqueueEvent_quiet (s : State) (e : QEvent) : State.quiet s (s.enqueueEvent e) := State.quiet_crn s _

theorem State.recordEvent_quiet (s : State) (src : Nat) (sev : Option Nat) (arg : List Byte) :
    State.quiet s (s.recordEvent src sev arg) := by
  unfold State.recordEvent
  split
  · exact State.quiet_refl s
  · dsimp only
    split
    · exact State.quiet_refl s
    · exact State.enqueueEvent_quiet _ _
    · exact State.enqueueEvent_quiet _ _

theorem State.raiseOnce_quiet (s : State) (e : Ev) (inst : Nat) (arg : List Byte) : State.quiet s (s.raiseOnce e inst arg).1 :=
  State.quiet_trans (State.post_quiet s _ _) (State.recordEvent_quiet _ _ _ _)

theorem State.lostPosts_quiet (s : State) (lost : List Nat) : State.quiet s (s.lostPosts lost) :=
  State.quiet_foldl _ (fun _ _ => State.raiseOnce_quiet _ _ _ _) lost s

theorem State.noteTrace_quiet (turns : Nat) (s : State) : State.quiet s (s.noteTrace turns) := by
  induction turns generalizing s with
  | zero => exact State.quiet_refl s
  | succ turns ih =>
    unfold State.noteTrace
    split
    · exact State.quiet_trans (State.quiet_dis s _) (State.quiet_trans (State.raiseOnce_quiet _ _ _ _)
        (State.quiet_trans (State.lostPosts_quiet _ _) (ih _)))
    · split
      · refine State.quiet_trans ?_ (State.quiet_trans (State.raiseOnce_quiet _ _ _ _)
          (State.quiet_trans (State.lostPosts_quiet _ _) (ih _)))
        exact State.quiet_iff.2 ⟨s.dis, s.crn, _, rfl, rfl, fun _ => ⟨rfl, Nat.sub_le _ _⟩, fun h => h⟩
      · exact State.quiet_refl s

theorem State.noteTraceDrop_quiet (s : State) : State.quiet s s.noteTraceDrop := State.noteTrace_quiet 2048 s

/-- Raising an event changes nothing but what events may change. -/
theorem State.raise_quiet (s : State) (e : Ev) (inst : Nat) (arg : List Byte) : State.quiet s (s.raise e inst arg) := by
  unfold State.raise
  split
  · exact State.quiet_refl s
  · exact State.quiet_trans (State.raiseOnce_quiet s _ _ _) (State.quiet_trans (State.lostPosts_quiet _ _) (State.noteTraceDrop_quiet _))

theorem State.raise_eventsOnly (s : State) (e : Ev) (inst : Nat) (arg : List Byte) : State.eventsOnly s (s.raise e inst arg) :=
  (State.raise_quiet s e inst arg).1

/-- An event keeps the memories canonical. -/
theorem State.raise_canonical {s : State} (h : s.memoriesCanonical) (e : Ev) (inst : Nat) (arg : List Byte) :
    (s.raise e inst arg).memoriesCanonical := by
  obtain ⟨d, c, m, hm, ht, _, w⟩ := State.quiet_iff.1 (State.raise_quiet s e inst arg)
  have hd := w ⟨h.1, h.2.2.2.2.2⟩
  rw [hm]
  exact ⟨hd.1, by rw [ht]; exact h.2.1, by rw [ht]; exact h.2.2.1, h.2.2.2.1, h.2.2.2.2.1, hd.2⟩

/-- What an absent unit raises is nothing (R545). -/
theorem State.raise_of_absent {s : State} {e : Ev} (h : s.has e.unit = false) (inst : Nat) (arg : List Byte) :
    s.raise e inst arg = s := by
  simp [State.raise, h]

/-! ### The fields that an event leaves -/

@[simp] theorem State.raise_id (s : State) (e : Ev) (i : Nat) (a : List Byte) : (s.raise e i a).id = s.id := by
  rw [(State.raise_eventsOnly s e i a).1]

@[simp] theorem State.raise_clk (s : State) (e : Ev) (i : Nat) (a : List Byte) : (s.raise e i a).clk = s.clk := by
  rw [(State.raise_eventsOnly s e i a).1]

@[simp] theorem State.raise_cfg (s : State) (e : Ev) (i : Nat) (a : List Byte) : (s.raise e i a).cfg = s.cfg := by
  rw [(State.raise_eventsOnly s e i a).1]

@[simp] theorem State.raise_undo (s : State) (e : Ev) (i : Nat) (a : List Byte) : (s.raise e i a).undo = s.undo := by
  rw [(State.raise_eventsOnly s e i a).1]

@[simp] theorem State.raise_direct (s : State) (e : Ev) (i : Nat) (a : List Byte) : (s.raise e i a).direct = s.direct := by
  rw [(State.raise_eventsOnly s e i a).1]

@[simp] theorem State.raise_hst (s : State) (e : Ev) (i : Nat) (a : List Byte) : (s.raise e i a).hst = s.hst := by
  rw [(State.raise_eventsOnly s e i a).1]

@[simp] theorem State.raise_tb (s : State) (e : Ev) (i : Nat) (a : List Byte) : (s.raise e i a).tb = s.tb := by
  rw [(State.raise_eventsOnly s e i a).1]

@[simp] theorem State.raise_cal (s : State) (e : Ev) (i : Nat) (a : List Byte) : (s.raise e i a).cal = s.cal := by
  rw [(State.raise_eventsOnly s e i a).1]

@[simp] theorem State.raise_pwr (s : State) (e : Ev) (i : Nat) (a : List Byte) : (s.raise e i a).pwr = s.pwr := by
  rw [(State.raise_eventsOnly s e i a).1]

@[simp] theorem State.raise_stp (s : State) (e : Ev) (i : Nat) (a : List Byte) : (s.raise e i a).stp = s.stp := by
  rw [(State.raise_eventsOnly s e i a).1]

@[simp] theorem State.raise_key (s : State) (e : Ev) (i : Nat) (a : List Byte) : (s.raise e i a).key = s.key := by
  rw [(State.raise_eventsOnly s e i a).1]

@[simp] theorem State.raise_boot (s : State) (e : Ev) (i : Nat) (a : List Byte) : (s.raise e i a).boot = s.boot := by
  rw [(State.raise_eventsOnly s e i a).1]

@[simp] theorem State.raise_nvm (s : State) (e : Ev) (i : Nat) (a : List Byte) : (s.raise e i a).nvm = s.nvm := by
  rw [(State.raise_eventsOnly s e i a).1]

@[simp] theorem State.raise_fab (s : State) (e : Ev) (i : Nat) (a : List Byte) : (s.raise e i a).fab = s.fab := by
  rw [(State.raise_eventsOnly s e i a).1]

@[simp] theorem State.raise_hop (s : State) (e : Ev) (i : Nat) (a : List Byte) : (s.raise e i a).hop = s.hop := by
  rw [(State.raise_eventsOnly s e i a).1]

@[simp] theorem State.raise_fld (s : State) (e : Ev) (i : Nat) (a : List Byte) : (s.raise e i a).fld = s.fld := by
  rw [(State.raise_eventsOnly s e i a).1]

@[simp] theorem State.raise_sec (s : State) (e : Ev) (i : Nat) (a : List Byte) : (s.raise e i a).sec = s.sec := by
  rw [(State.raise_eventsOnly s e i a).1]

@[simp] theorem State.raise_gns (s : State) (e : Ev) (i : Nat) (a : List Byte) : (s.raise e i a).gns = s.gns := by
  rw [(State.raise_eventsOnly s e i a).1]

@[simp] theorem State.raise_mir (s : State) (e : Ev) (i : Nat) (a : List Byte) : (s.raise e i a).mir = s.mir := by
  rw [(State.raise_eventsOnly s e i a).1]

@[simp] theorem State.raise_fix (s : State) (e : Ev) (i : Nat) (a : List Byte) : (s.raise e i a).fix = s.fix := by
  rw [(State.raise_eventsOnly s e i a).1]

@[simp] theorem State.raise_car (s : State) (e : Ev) (i : Nat) (a : List Byte) : (s.raise e i a).car = s.car := by
  rw [(State.raise_eventsOnly s e i a).1]

@[simp] theorem State.raise_timers (s : State) (e : Ev) (i : Nat) (a : List Byte) : (s.raise e i a).timers = s.timers := by
  rw [(State.raise_eventsOnly s e i a).1]

@[simp] theorem State.raise_free (s : State) (e : Ev) (i : Nat) (a : List Byte) : (s.raise e i a).free = s.free := by
  rw [(State.raise_eventsOnly s e i a).1]

@[simp] theorem State.raise_out (s : State) (e : Ev) (i : Nat) (a : List Byte) : (s.raise e i a).out = s.out := by
  rw [(State.raise_eventsOnly s e i a).1]

@[simp] theorem State.raise_pending (s : State) (e : Ev) (i : Nat) (a : List Byte) : (s.raise e i a).pending = s.pending := by
  rw [(State.raise_eventsOnly s e i a).1]

end Sys2Proof.Machine
end

