-- ==== Sys2Proof/Laws/State.lean ====
section
/-! SUPPORT. What each plain update of the state leaves, field by field, and what it writes. -/

namespace Sys2Proof.Machine

/-! ### State.elapse -/

@[simp] theorem State.elapse_id (s : State) (n : Nat) : (s.elapse n).id = s.id := rfl
@[simp] theorem State.elapse_cfg (s : State) (n : Nat) : (s.elapse n).cfg = s.cfg := rfl
@[simp] theorem State.elapse_undo (s : State) (n : Nat) : (s.elapse n).undo = s.undo := rfl
@[simp] theorem State.elapse_direct (s : State) (n : Nat) : (s.elapse n).direct = s.direct := rfl
@[simp] theorem State.elapse_hst (s : State) (n : Nat) : (s.elapse n).hst = s.hst := rfl
@[simp] theorem State.elapse_tb (s : State) (n : Nat) : (s.elapse n).tb = s.tb := rfl
@[simp] theorem State.elapse_pwr (s : State) (n : Nat) : (s.elapse n).pwr = s.pwr := rfl
@[simp] theorem State.elapse_stp (s : State) (n : Nat) : (s.elapse n).stp = s.stp := rfl
@[simp] theorem State.elapse_dis (s : State) (n : Nat) : (s.elapse n).dis = s.dis := rfl
@[simp] theorem State.elapse_mem (s : State) (n : Nat) : (s.elapse n).mem = s.mem := rfl
@[simp] theorem State.elapse_key (s : State) (n : Nat) : (s.elapse n).key = s.key := rfl
@[simp] theorem State.elapse_boot (s : State) (n : Nat) : (s.elapse n).boot = s.boot := rfl
@[simp] theorem State.elapse_nvm (s : State) (n : Nat) : (s.elapse n).nvm = s.nvm := rfl
@[simp] theorem State.elapse_crn (s : State) (n : Nat) : (s.elapse n).crn = s.crn := rfl
@[simp] theorem State.elapse_fab (s : State) (n : Nat) : (s.elapse n).fab = s.fab := rfl
@[simp] theorem State.elapse_hop (s : State) (n : Nat) : (s.elapse n).hop = s.hop := rfl
@[simp] theorem State.elapse_fld (s : State) (n : Nat) : (s.elapse n).fld = s.fld := rfl
@[simp] theorem State.elapse_sec (s : State) (n : Nat) : (s.elapse n).sec = s.sec := rfl
@[simp] theorem State.elapse_gns (s : State) (n : Nat) : (s.elapse n).gns = s.gns := rfl
@[simp] theorem State.elapse_mir (s : State) (n : Nat) : (s.elapse n).mir = s.mir := rfl
@[simp] theorem State.elapse_fix (s : State) (n : Nat) : (s.elapse n).fix = s.fix := rfl
@[simp] theorem State.elapse_car (s : State) (n : Nat) : (s.elapse n).car = s.car := rfl
@[simp] theorem State.elapse_timers (s : State) (n : Nat) : (s.elapse n).timers = s.timers := rfl
@[simp] theorem State.elapse_free (s : State) (n : Nat) : (s.elapse n).free = s.free := rfl
@[simp] theorem State.elapse_out (s : State) (n : Nat) : (s.elapse n).out = s.out := rfl
@[simp] theorem State.elapse_pending (s : State) (n : Nat) : (s.elapse n).pending = s.pending := rfl

/-! ### State.mark -/

@[simp] theorem State.mark_id (s : State) (n : Nat) : (s.mark n).id = s.id := rfl
@[simp] theorem State.mark_clk (s : State) (n : Nat) : (s.mark n).clk = s.clk := rfl
@[simp] theorem State.mark_cfg (s : State) (n : Nat) : (s.mark n).cfg = s.cfg := rfl
@[simp] theorem State.mark_undo (s : State) (n : Nat) : (s.mark n).undo = s.undo := rfl
@[simp] theorem State.mark_direct (s : State) (n : Nat) : (s.mark n).direct = s.direct := rfl
@[simp] theorem State.mark_hst (s : State) (n : Nat) : (s.mark n).hst = s.hst := rfl
@[simp] theorem State.mark_tb (s : State) (n : Nat) : (s.mark n).tb = s.tb := rfl
@[simp] theorem State.mark_cal (s : State) (n : Nat) : (s.mark n).cal = s.cal := rfl
@[simp] theorem State.mark_pwr (s : State) (n : Nat) : (s.mark n).pwr = s.pwr := rfl
@[simp] theorem State.mark_stp (s : State) (n : Nat) : (s.mark n).stp = s.stp := rfl
@[simp] theorem State.mark_dis (s : State) (n : Nat) : (s.mark n).dis = s.dis := rfl
@[simp] theorem State.mark_mem (s : State) (n : Nat) : (s.mark n).mem = s.mem := rfl
@[simp] theorem State.mark_key (s : State) (n : Nat) : (s.mark n).key = s.key := rfl
@[simp] theorem State.mark_boot (s : State) (n : Nat) : (s.mark n).boot = s.boot := rfl
@[simp] theorem State.mark_nvm (s : State) (n : Nat) : (s.mark n).nvm = s.nvm := rfl
@[simp] theorem State.mark_crn (s : State) (n : Nat) : (s.mark n).crn = s.crn := rfl
@[simp] theorem State.mark_fab (s : State) (n : Nat) : (s.mark n).fab = s.fab := rfl
@[simp] theorem State.mark_hop (s : State) (n : Nat) : (s.mark n).hop = s.hop := rfl
@[simp] theorem State.mark_fld (s : State) (n : Nat) : (s.mark n).fld = s.fld := rfl
@[simp] theorem State.mark_sec (s : State) (n : Nat) : (s.mark n).sec = s.sec := rfl
@[simp] theorem State.mark_gns (s : State) (n : Nat) : (s.mark n).gns = s.gns := rfl
@[simp] theorem State.mark_mir (s : State) (n : Nat) : (s.mark n).mir = s.mir := rfl
@[simp] theorem State.mark_fix (s : State) (n : Nat) : (s.mark n).fix = s.fix := rfl
@[simp] theorem State.mark_car (s : State) (n : Nat) : (s.mark n).car = s.car := rfl
@[simp] theorem State.mark_free (s : State) (n : Nat) : (s.mark n).free = s.free := rfl
@[simp] theorem State.mark_out (s : State) (n : Nat) : (s.mark n).out = s.out := rfl
@[simp] theorem State.mark_pending (s : State) (n : Nat) : (s.mark n).pending = s.pending := rfl

/-! ### State.emit -/

@[simp] theorem State.emit_id (s : State) (o : Out) : (s.emit o).id = s.id := rfl
@[simp] theorem State.emit_clk (s : State) (o : Out) : (s.emit o).clk = s.clk := rfl
@[simp] theorem State.emit_cfg (s : State) (o : Out) : (s.emit o).cfg = s.cfg := rfl
@[simp] theorem State.emit_undo (s : State) (o : Out) : (s.emit o).undo = s.undo := rfl
@[simp] theorem State.emit_direct (s : State) (o : Out) : (s.emit o).direct = s.direct := rfl
@[simp] theorem State.emit_hst (s : State) (o : Out) : (s.emit o).hst = s.hst := rfl
@[simp] theorem State.emit_tb (s : State) (o : Out) : (s.emit o).tb = s.tb := rfl
@[simp] theorem State.emit_cal (s : State) (o : Out) : (s.emit o).cal = s.cal := rfl
@[simp] theorem State.emit_pwr (s : State) (o : Out) : (s.emit o).pwr = s.pwr := rfl
@[simp] theorem State.emit_stp (s : State) (o : Out) : (s.emit o).stp = s.stp := rfl
@[simp] theorem State.emit_dis (s : State) (o : Out) : (s.emit o).dis = s.dis := rfl
@[simp] theorem State.emit_mem (s : State) (o : Out) : (s.emit o).mem = s.mem := rfl
@[simp] theorem State.emit_key (s : State) (o : Out) : (s.emit o).key = s.key := rfl
@[simp] theorem State.emit_boot (s : State) (o : Out) : (s.emit o).boot = s.boot := rfl
@[simp] theorem State.emit_nvm (s : State) (o : Out) : (s.emit o).nvm = s.nvm := rfl
@[simp] theorem State.emit_crn (s : State) (o : Out) : (s.emit o).crn = s.crn := rfl
@[simp] theorem State.emit_fab (s : State) (o : Out) : (s.emit o).fab = s.fab := rfl
@[simp] theorem State.emit_hop (s : State) (o : Out) : (s.emit o).hop = s.hop := rfl
@[simp] theorem State.emit_fld (s : State) (o : Out) : (s.emit o).fld = s.fld := rfl
@[simp] theorem State.emit_sec (s : State) (o : Out) : (s.emit o).sec = s.sec := rfl
@[simp] theorem State.emit_gns (s : State) (o : Out) : (s.emit o).gns = s.gns := rfl
@[simp] theorem State.emit_mir (s : State) (o : Out) : (s.emit o).mir = s.mir := rfl
@[simp] theorem State.emit_fix (s : State) (o : Out) : (s.emit o).fix = s.fix := rfl
@[simp] theorem State.emit_car (s : State) (o : Out) : (s.emit o).car = s.car := rfl
@[simp] theorem State.emit_timers (s : State) (o : Out) : (s.emit o).timers = s.timers := rfl
@[simp] theorem State.emit_free (s : State) (o : Out) : (s.emit o).free = s.free := rfl
@[simp] theorem State.emit_pending (s : State) (o : Out) : (s.emit o).pending = s.pending := rfl

/-! ### State.draw -/

@[simp] theorem State.draw_id (s : State) : (s.draw).id = s.id := rfl
@[simp] theorem State.draw_clk (s : State) : (s.draw).clk = s.clk := rfl
@[simp] theorem State.draw_cfg (s : State) : (s.draw).cfg = s.cfg := rfl
@[simp] theorem State.draw_undo (s : State) : (s.draw).undo = s.undo := rfl
@[simp] theorem State.draw_direct (s : State) : (s.draw).direct = s.direct := rfl
@[simp] theorem State.draw_hst (s : State) : (s.draw).hst = s.hst := rfl
@[simp] theorem State.draw_tb (s : State) : (s.draw).tb = s.tb := rfl
@[simp] theorem State.draw_cal (s : State) : (s.draw).cal = s.cal := rfl
@[simp] theorem State.draw_pwr (s : State) : (s.draw).pwr = s.pwr := rfl
@[simp] theorem State.draw_stp (s : State) : (s.draw).stp = s.stp := rfl
@[simp] theorem State.draw_dis (s : State) : (s.draw).dis = s.dis := rfl
@[simp] theorem State.draw_mem (s : State) : (s.draw).mem = s.mem := rfl
@[simp] theorem State.draw_key (s : State) : (s.draw).key = s.key := rfl
@[simp] theorem State.draw_boot (s : State) : (s.draw).boot = s.boot := rfl
@[simp] theorem State.draw_nvm (s : State) : (s.draw).nvm = s.nvm := rfl
@[simp] theorem State.draw_crn (s : State) : (s.draw).crn = s.crn := rfl
@[simp] theorem State.draw_fab (s : State) : (s.draw).fab = s.fab := rfl
@[simp] theorem State.draw_hop (s : State) : (s.draw).hop = s.hop := rfl
@[simp] theorem State.draw_fld (s : State) : (s.draw).fld = s.fld := rfl
@[simp] theorem State.draw_sec (s : State) : (s.draw).sec = s.sec := rfl
@[simp] theorem State.draw_gns (s : State) : (s.draw).gns = s.gns := rfl
@[simp] theorem State.draw_mir (s : State) : (s.draw).mir = s.mir := rfl
@[simp] theorem State.draw_fix (s : State) : (s.draw).fix = s.fix := rfl
@[simp] theorem State.draw_car (s : State) : (s.draw).car = s.car := rfl
@[simp] theorem State.draw_timers (s : State) : (s.draw).timers = s.timers := rfl
@[simp] theorem State.draw_out (s : State) : (s.draw).out = s.out := rfl
@[simp] theorem State.draw_pending (s : State) : (s.draw).pending = s.pending := rfl

/-! ### State.setReg -/

@[simp] theorem State.setReg_id (s : State) (f : Sel) (i v : Nat) : (s.setReg f i v).id = s.id := rfl
@[simp] theorem State.setReg_clk (s : State) (f : Sel) (i v : Nat) : (s.setReg f i v).clk = s.clk := rfl
@[simp] theorem State.setReg_cfg (s : State) (f : Sel) (i v : Nat) : (s.setReg f i v).cfg = s.cfg := rfl
@[simp] theorem State.setReg_undo (s : State) (f : Sel) (i v : Nat) : (s.setReg f i v).undo = s.undo := rfl
@[simp] theorem State.setReg_hst (s : State) (f : Sel) (i v : Nat) : (s.setReg f i v).hst = s.hst := rfl
@[simp] theorem State.setReg_tb (s : State) (f : Sel) (i v : Nat) : (s.setReg f i v).tb = s.tb := rfl
@[simp] theorem State.setReg_cal (s : State) (f : Sel) (i v : Nat) : (s.setReg f i v).cal = s.cal := rfl
@[simp] theorem State.setReg_pwr (s : State) (f : Sel) (i v : Nat) : (s.setReg f i v).pwr = s.pwr := rfl
@[simp] theorem State.setReg_stp (s : State) (f : Sel) (i v : Nat) : (s.setReg f i v).stp = s.stp := rfl
@[simp] theorem State.setReg_dis (s : State) (f : Sel) (i v : Nat) : (s.setReg f i v).dis = s.dis := rfl
@[simp] theorem State.setReg_mem (s : State) (f : Sel) (i v : Nat) : (s.setReg f i v).mem = s.mem := rfl
@[simp] theorem State.setReg_key (s : State) (f : Sel) (i v : Nat) : (s.setReg f i v).key = s.key := rfl
@[simp] theorem State.setReg_boot (s : State) (f : Sel) (i v : Nat) : (s.setReg f i v).boot = s.boot := rfl
@[simp] theorem State.setReg_nvm (s : State) (f : Sel) (i v : Nat) : (s.setReg f i v).nvm = s.nvm := rfl
@[simp] theorem State.setReg_crn (s : State) (f : Sel) (i v : Nat) : (s.setReg f i v).crn = s.crn := rfl
@[simp] theorem State.setReg_fab (s : State) (f : Sel) (i v : Nat) : (s.setReg f i v).fab = s.fab := rfl
@[simp] theorem State.setReg_hop (s : State) (f : Sel) (i v : Nat) : (s.setReg f i v).hop = s.hop := rfl
@[simp] theorem State.setReg_fld (s : State) (f : Sel) (i v : Nat) : (s.setReg f i v).fld = s.fld := rfl
@[simp] theorem State.setReg_sec (s : State) (f : Sel) (i v : Nat) : (s.setReg f i v).sec = s.sec := rfl
@[simp] theorem State.setReg_gns (s : State) (f : Sel) (i v : Nat) : (s.setReg f i v).gns = s.gns := rfl
@[simp] theorem State.setReg_mir (s : State) (f : Sel) (i v : Nat) : (s.setReg f i v).mir = s.mir := rfl
@[simp] theorem State.setReg_fix (s : State) (f : Sel) (i v : Nat) : (s.setReg f i v).fix = s.fix := rfl
@[simp] theorem State.setReg_car (s : State) (f : Sel) (i v : Nat) : (s.setReg f i v).car = s.car := rfl
@[simp] theorem State.setReg_timers (s : State) (f : Sel) (i v : Nat) : (s.setReg f i v).timers = s.timers := rfl
@[simp] theorem State.setReg_free (s : State) (f : Sel) (i v : Nat) : (s.setReg f i v).free = s.free := rfl
@[simp] theorem State.setReg_out (s : State) (f : Sel) (i v : Nat) : (s.setReg f i v).out = s.out := rfl
@[simp] theorem State.setReg_pending (s : State) (f : Sel) (i v : Nat) : (s.setReg f i v).pending = s.pending := rfl

/-! ### State.setSrc -/

@[simp] theorem State.setSrc_id (s : State) (i : Nat) (v : SrcState) : (s.setSrc i v).id = s.id := rfl
@[simp] theorem State.setSrc_clk (s : State) (i : Nat) (v : SrcState) : (s.setSrc i v).clk = s.clk := rfl
@[simp] theorem State.setSrc_cfg (s : State) (i : Nat) (v : SrcState) : (s.setSrc i v).cfg = s.cfg := rfl
@[simp] theorem State.setSrc_undo (s : State) (i : Nat) (v : SrcState) : (s.setSrc i v).undo = s.undo := rfl
@[simp] theorem State.setSrc_direct (s : State) (i : Nat) (v : SrcState) : (s.setSrc i v).direct = s.direct := rfl
@[simp] theorem State.setSrc_hst (s : State) (i : Nat) (v : SrcState) : (s.setSrc i v).hst = s.hst := rfl
@[simp] theorem State.setSrc_cal (s : State) (i : Nat) (v : SrcState) : (s.setSrc i v).cal = s.cal := rfl
@[simp] theorem State.setSrc_pwr (s : State) (i : Nat) (v : SrcState) : (s.setSrc i v).pwr = s.pwr := rfl
@[simp] theorem State.setSrc_stp (s : State) (i : Nat) (v : SrcState) : (s.setSrc i v).stp = s.stp := rfl
@[simp] theorem State.setSrc_dis (s : State) (i : Nat) (v : SrcState) : (s.setSrc i v).dis = s.dis := rfl
@[simp] theorem State.setSrc_mem (s : State) (i : Nat) (v : SrcState) : (s.setSrc i v).mem = s.mem := rfl
@[simp] theorem State.setSrc_key (s : State) (i : Nat) (v : SrcState) : (s.setSrc i v).key = s.key := rfl
@[simp] theorem State.setSrc_boot (s : State) (i : Nat) (v : SrcState) : (s.setSrc i v).boot = s.boot := rfl
@[simp] theorem State.setSrc_nvm (s : State) (i : Nat) (v : SrcState) : (s.setSrc i v).nvm = s.nvm := rfl
@[simp] theorem State.setSrc_crn (s : State) (i : Nat) (v : SrcState) : (s.setSrc i v).crn = s.crn := rfl
@[simp] theorem State.setSrc_fab (s : State) (i : Nat) (v : SrcState) : (s.setSrc i v).fab = s.fab := rfl
@[simp] theorem State.setSrc_hop (s : State) (i : Nat) (v : SrcState) : (s.setSrc i v).hop = s.hop := rfl
@[simp] theorem State.setSrc_fld (s : State) (i : Nat) (v : SrcState) : (s.setSrc i v).fld = s.fld := rfl
@[simp] theorem State.setSrc_sec (s : State) (i : Nat) (v : SrcState) : (s.setSrc i v).sec = s.sec := rfl
@[simp] theorem State.setSrc_gns (s : State) (i : Nat) (v : SrcState) : (s.setSrc i v).gns = s.gns := rfl
@[simp] theorem State.setSrc_mir (s : State) (i : Nat) (v : SrcState) : (s.setSrc i v).mir = s.mir := rfl
@[simp] theorem State.setSrc_fix (s : State) (i : Nat) (v : SrcState) : (s.setSrc i v).fix = s.fix := rfl
@[simp] theorem State.setSrc_car (s : State) (i : Nat) (v : SrcState) : (s.setSrc i v).car = s.car := rfl
@[simp] theorem State.setSrc_timers (s : State) (i : Nat) (v : SrcState) : (s.setSrc i v).timers = s.timers := rfl
@[simp] theorem State.setSrc_free (s : State) (i : Nat) (v : SrcState) : (s.setSrc i v).free = s.free := rfl
@[simp] theorem State.setSrc_out (s : State) (i : Nat) (v : SrcState) : (s.setSrc i v).out = s.out := rfl
@[simp] theorem State.setSrc_pending (s : State) (i : Nat) (v : SrcState) : (s.setSrc i v).pending = s.pending := rfl

/-! ### State.modRing -/

@[simp] theorem State.modRing_id (s : State) (n : Nat) (f : Ring → Ring) : (s.modRing n f).id = s.id := rfl
@[simp] theorem State.modRing_clk (s : State) (n : Nat) (f : Ring → Ring) : (s.modRing n f).clk = s.clk := rfl
@[simp] theorem State.modRing_cfg (s : State) (n : Nat) (f : Ring → Ring) : (s.modRing n f).cfg = s.cfg := rfl
@[simp] theorem State.modRing_undo (s : State) (n : Nat) (f : Ring → Ring) : (s.modRing n f).undo = s.undo := rfl
@[simp] theorem State.modRing_direct (s : State) (n : Nat) (f : Ring → Ring) : (s.modRing n f).direct = s.direct := rfl
@[simp] theorem State.modRing_tb (s : State) (n : Nat) (f : Ring → Ring) : (s.modRing n f).tb = s.tb := rfl
@[simp] theorem State.modRing_cal (s : State) (n : Nat) (f : Ring → Ring) : (s.modRing n f).cal = s.cal := rfl
@[simp] theorem State.modRing_pwr (s : State) (n : Nat) (f : Ring → Ring) : (s.modRing n f).pwr = s.pwr := rfl
@[simp] theorem State.modRing_stp (s : State) (n : Nat) (f : Ring → Ring) : (s.modRing n f).stp = s.stp := rfl
@[simp] theorem State.modRing_dis (s : State) (n : Nat) (f : Ring → Ring) : (s.modRing n f).dis = s.dis := rfl
@[simp] theorem State.modRing_mem (s : State) (n : Nat) (f : Ring → Ring) : (s.modRing n f).mem = s.mem := rfl
@[simp] theorem State.modRing_key (s : State) (n : Nat) (f : Ring → Ring) : (s.modRing n f).key = s.key := rfl
@[simp] theorem State.modRing_boot (s : State) (n : Nat) (f : Ring → Ring) : (s.modRing n f).boot = s.boot := rfl
@[simp] theorem State.modRing_nvm (s : State) (n : Nat) (f : Ring → Ring) : (s.modRing n f).nvm = s.nvm := rfl
@[simp] theorem State.modRing_crn (s : State) (n : Nat) (f : Ring → Ring) : (s.modRing n f).crn = s.crn := rfl
@[simp] theorem State.modRing_fab (s : State) (n : Nat) (f : Ring → Ring) : (s.modRing n f).fab = s.fab := rfl
@[simp] theorem State.modRing_hop (s : State) (n : Nat) (f : Ring → Ring) : (s.modRing n f).hop = s.hop := rfl
@[simp] theorem State.modRing_fld (s : State) (n : Nat) (f : Ring → Ring) : (s.modRing n f).fld = s.fld := rfl
@[simp] theorem State.modRing_sec (s : State) (n : Nat) (f : Ring → Ring) : (s.modRing n f).sec = s.sec := rfl
@[simp] theorem State.modRing_gns (s : State) (n : Nat) (f : Ring → Ring) : (s.modRing n f).gns = s.gns := rfl
@[simp] theorem State.modRing_mir (s : State) (n : Nat) (f : Ring → Ring) : (s.modRing n f).mir = s.mir := rfl
@[simp] theorem State.modRing_fix (s : State) (n : Nat) (f : Ring → Ring) : (s.modRing n f).fix = s.fix := rfl
@[simp] theorem State.modRing_car (s : State) (n : Nat) (f : Ring → Ring) : (s.modRing n f).car = s.car := rfl
@[simp] theorem State.modRing_timers (s : State) (n : Nat) (f : Ring → Ring) : (s.modRing n f).timers = s.timers := rfl
@[simp] theorem State.modRing_free (s : State) (n : Nat) (f : Ring → Ring) : (s.modRing n f).free = s.free := rfl
@[simp] theorem State.modRing_out (s : State) (n : Nat) (f : Ring → Ring) : (s.modRing n f).out = s.out := rfl
@[simp] theorem State.modRing_pending (s : State) (n : Nat) (f : Ring → Ring) : (s.modRing n f).pending = s.pending := rfl

/-! ### State.modDesc -/

@[simp] theorem State.modDesc_id (s : State) (n : Nat) (f : Desc → Desc) : (s.modDesc n f).id = s.id := rfl
@[simp] theorem State.modDesc_clk (s : State) (n : Nat) (f : Desc → Desc) : (s.modDesc n f).clk = s.clk := rfl
@[simp] theorem State.modDesc_cfg (s : State) (n : Nat) (f : Desc → Desc) : (s.modDesc n f).cfg = s.cfg := rfl
@[simp] theorem State.modDesc_undo (s : State) (n : Nat) (f : Desc → Desc) : (s.modDesc n f).undo = s.undo := rfl
@[simp] theorem State.modDesc_direct (s : State) (n : Nat) (f : Desc → Desc) : (s.modDesc n f).direct = s.direct := rfl
@[simp] theorem State.modDesc_tb (s : State) (n : Nat) (f : Desc → Desc) : (s.modDesc n f).tb = s.tb := rfl
@[simp] theorem State.modDesc_cal (s : State) (n : Nat) (f : Desc → Desc) : (s.modDesc n f).cal = s.cal := rfl
@[simp] theorem State.modDesc_pwr (s : State) (n : Nat) (f : Desc → Desc) : (s.modDesc n f).pwr = s.pwr := rfl
@[simp] theorem State.modDesc_stp (s : State) (n : Nat) (f : Desc → Desc) : (s.modDesc n f).stp = s.stp := rfl
@[simp] theorem State.modDesc_dis (s : State) (n : Nat) (f : Desc → Desc) : (s.modDesc n f).dis = s.dis := rfl
@[simp] theorem State.modDesc_mem (s : State) (n : Nat) (f : Desc → Desc) : (s.modDesc n f).mem = s.mem := rfl
@[simp] theorem State.modDesc_key (s : State) (n : Nat) (f : Desc → Desc) : (s.modDesc n f).key = s.key := rfl
@[simp] theorem State.modDesc_boot (s : State) (n : Nat) (f : Desc → Desc) : (s.modDesc n f).boot = s.boot := rfl
@[simp] theorem State.modDesc_nvm (s : State) (n : Nat) (f : Desc → Desc) : (s.modDesc n f).nvm = s.nvm := rfl
@[simp] theorem State.modDesc_crn (s : State) (n : Nat) (f : Desc → Desc) : (s.modDesc n f).crn = s.crn := rfl
@[simp] theorem State.modDesc_fab (s : State) (n : Nat) (f : Desc → Desc) : (s.modDesc n f).fab = s.fab := rfl
@[simp] theorem State.modDesc_hop (s : State) (n : Nat) (f : Desc → Desc) : (s.modDesc n f).hop = s.hop := rfl
@[simp] theorem State.modDesc_fld (s : State) (n : Nat) (f : Desc → Desc) : (s.modDesc n f).fld = s.fld := rfl
@[simp] theorem State.modDesc_sec (s : State) (n : Nat) (f : Desc → Desc) : (s.modDesc n f).sec = s.sec := rfl
@[simp] theorem State.modDesc_gns (s : State) (n : Nat) (f : Desc → Desc) : (s.modDesc n f).gns = s.gns := rfl
@[simp] theorem State.modDesc_mir (s : State) (n : Nat) (f : Desc → Desc) : (s.modDesc n f).mir = s.mir := rfl
@[simp] theorem State.modDesc_fix (s : State) (n : Nat) (f : Desc → Desc) : (s.modDesc n f).fix = s.fix := rfl
@[simp] theorem State.modDesc_car (s : State) (n : Nat) (f : Desc → Desc) : (s.modDesc n f).car = s.car := rfl
@[simp] theorem State.modDesc_timers (s : State) (n : Nat) (f : Desc → Desc) : (s.modDesc n f).timers = s.timers := rfl
@[simp] theorem State.modDesc_free (s : State) (n : Nat) (f : Desc → Desc) : (s.modDesc n f).free = s.free := rfl
@[simp] theorem State.modDesc_out (s : State) (n : Nat) (f : Desc → Desc) : (s.modDesc n f).out = s.out := rfl
@[simp] theorem State.modDesc_pending (s : State) (n : Nat) (f : Desc → Desc) : (s.modDesc n f).pending = s.pending := rfl

/-! ### State.dropDesc -/

@[simp] theorem State.dropDesc_id (s : State) (n : Nat) : (s.dropDesc n).id = s.id := rfl
@[simp] theorem State.dropDesc_clk (s : State) (n : Nat) : (s.dropDesc n).clk = s.clk := rfl
@[simp] theorem State.dropDesc_cfg (s : State) (n : Nat) : (s.dropDesc n).cfg = s.cfg := rfl
@[simp] theorem State.dropDesc_undo (s : State) (n : Nat) : (s.dropDesc n).undo = s.undo := rfl
@[simp] theorem State.dropDesc_direct (s : State) (n : Nat) : (s.dropDesc n).direct = s.direct := rfl
@[simp] theorem State.dropDesc_tb (s : State) (n : Nat) : (s.dropDesc n).tb = s.tb := rfl
@[simp] theorem State.dropDesc_cal (s : State) (n : Nat) : (s.dropDesc n).cal = s.cal := rfl
@[simp] theorem State.dropDesc_pwr (s : State) (n : Nat) : (s.dropDesc n).pwr = s.pwr := rfl
@[simp] theorem State.dropDesc_stp (s : State) (n : Nat) : (s.dropDesc n).stp = s.stp := rfl
@[simp] theorem State.dropDesc_dis (s : State) (n : Nat) : (s.dropDesc n).dis = s.dis := rfl
@[simp] theorem State.dropDesc_mem (s : State) (n : Nat) : (s.dropDesc n).mem = s.mem := rfl
@[simp] theorem State.dropDesc_boot (s : State) (n : Nat) : (s.dropDesc n).boot = s.boot := rfl
@[simp] theorem State.dropDesc_nvm (s : State) (n : Nat) : (s.dropDesc n).nvm = s.nvm := rfl
@[simp] theorem State.dropDesc_crn (s : State) (n : Nat) : (s.dropDesc n).crn = s.crn := rfl
@[simp] theorem State.dropDesc_fab (s : State) (n : Nat) : (s.dropDesc n).fab = s.fab := rfl
@[simp] theorem State.dropDesc_fld (s : State) (n : Nat) : (s.dropDesc n).fld = s.fld := rfl
@[simp] theorem State.dropDesc_sec (s : State) (n : Nat) : (s.dropDesc n).sec = s.sec := rfl
@[simp] theorem State.dropDesc_mir (s : State) (n : Nat) : (s.dropDesc n).mir = s.mir := rfl
@[simp] theorem State.dropDesc_fix (s : State) (n : Nat) : (s.dropDesc n).fix = s.fix := rfl
@[simp] theorem State.dropDesc_timers (s : State) (n : Nat) : (s.dropDesc n).timers = s.timers := rfl
@[simp] theorem State.dropDesc_free (s : State) (n : Nat) : (s.dropDesc n).free = s.free := rfl
@[simp] theorem State.dropDesc_out (s : State) (n : Nat) : (s.dropDesc n).out = s.out := rfl
@[simp] theorem State.dropDesc_pending (s : State) (n : Nat) : (s.dropDesc n).pending = s.pending := rfl

/-! ### State.modThread -/

@[simp] theorem State.modThread_id (s : State) (n : Nat) (f : Thread → Thread) : (s.modThread n f).id = s.id := rfl
@[simp] theorem State.modThread_clk (s : State) (n : Nat) (f : Thread → Thread) : (s.modThread n f).clk = s.clk := rfl
@[simp] theorem State.modThread_cfg (s : State) (n : Nat) (f : Thread → Thread) : (s.modThread n f).cfg = s.cfg := rfl
@[simp] theorem State.modThread_undo (s : State) (n : Nat) (f : Thread → Thread) : (s.modThread n f).undo = s.undo := rfl
@[simp] theorem State.modThread_direct (s : State) (n : Nat) (f : Thread → Thread) : (s.modThread n f).direct = s.direct := rfl
@[simp] theorem State.modThread_hst (s : State) (n : Nat) (f : Thread → Thread) : (s.modThread n f).hst = s.hst := rfl
@[simp] theorem State.modThread_tb (s : State) (n : Nat) (f : Thread → Thread) : (s.modThread n f).tb = s.tb := rfl
@[simp] theorem State.modThread_cal (s : State) (n : Nat) (f : Thread → Thread) : (s.modThread n f).cal = s.cal := rfl
@[simp] theorem State.modThread_pwr (s : State) (n : Nat) (f : Thread → Thread) : (s.modThread n f).pwr = s.pwr := rfl
@[simp] theorem State.modThread_stp (s : State) (n : Nat) (f : Thread → Thread) : (s.modThread n f).stp = s.stp := rfl
@[simp] theorem State.modThread_mem (s : State) (n : Nat) (f : Thread → Thread) : (s.modThread n f).mem = s.mem := rfl
@[simp] theorem State.modThread_key (s : State) (n : Nat) (f : Thread → Thread) : (s.modThread n f).key = s.key := rfl
@[simp] theorem State.modThread_boot (s : State) (n : Nat) (f : Thread → Thread) : (s.modThread n f).boot = s.boot := rfl
@[simp] theorem State.modThread_nvm (s : State) (n : Nat) (f : Thread → Thread) : (s.modThread n f).nvm = s.nvm := rfl
@[simp] theorem State.modThread_crn (s : State) (n : Nat) (f : Thread → Thread) : (s.modThread n f).crn = s.crn := rfl
@[simp] theorem State.modThread_fab (s : State) (n : Nat) (f : Thread → Thread) : (s.modThread n f).fab = s.fab := rfl
@[simp] theorem State.modThread_hop (s : State) (n : Nat) (f : Thread → Thread) : (s.modThread n f).hop = s.hop := rfl
@[simp] theorem State.modThread_fld (s : State) (n : Nat) (f : Thread → Thread) : (s.modThread n f).fld = s.fld := rfl
@[simp] theorem State.modThread_sec (s : State) (n : Nat) (f : Thread → Thread) : (s.modThread n f).sec = s.sec := rfl
@[simp] theorem State.modThread_gns (s : State) (n : Nat) (f : Thread → Thread) : (s.modThread n f).gns = s.gns := rfl
@[simp] theorem State.modThread_mir (s : State) (n : Nat) (f : Thread → Thread) : (s.modThread n f).mir = s.mir := rfl
@[simp] theorem State.modThread_fix (s : State) (n : Nat) (f : Thread → Thread) : (s.modThread n f).fix = s.fix := rfl
@[simp] theorem State.modThread_car (s : State) (n : Nat) (f : Thread → Thread) : (s.modThread n f).car = s.car := rfl
@[simp] theorem State.modThread_timers (s : State) (n : Nat) (f : Thread → Thread) : (s.modThread n f).timers = s.timers := rfl
@[simp] theorem State.modThread_free (s : State) (n : Nat) (f : Thread → Thread) : (s.modThread n f).free = s.free := rfl
@[simp] theorem State.modThread_out (s : State) (n : Nat) (f : Thread → Thread) : (s.modThread n f).out = s.out := rfl
@[simp] theorem State.modThread_pending (s : State) (n : Nat) (f : Thread → Thread) : (s.modThread n f).pending = s.pending := rfl

/-! ### State.setReady -/

@[simp] theorem State.setReady_id (s : State) (p : Nat) (l : List Nat) : (s.setReady p l).id = s.id := rfl
@[simp] theorem State.setReady_clk (s : State) (p : Nat) (l : List Nat) : (s.setReady p l).clk = s.clk := rfl
@[simp] theorem State.setReady_cfg (s : State) (p : Nat) (l : List Nat) : (s.setReady p l).cfg = s.cfg := rfl
@[simp] theorem State.setReady_undo (s : State) (p : Nat) (l : List Nat) : (s.setReady p l).undo = s.undo := rfl
@[simp] theorem State.setReady_direct (s : State) (p : Nat) (l : List Nat) : (s.setReady p l).direct = s.direct := rfl
@[simp] theorem State.setReady_hst (s : State) (p : Nat) (l : List Nat) : (s.setReady p l).hst = s.hst := rfl
@[simp] theorem State.setReady_tb (s : State) (p : Nat) (l : List Nat) : (s.setReady p l).tb = s.tb := rfl
@[simp] theorem State.setReady_cal (s : State) (p : Nat) (l : List Nat) : (s.setReady p l).cal = s.cal := rfl
@[simp] theorem State.setReady_pwr (s : State) (p : Nat) (l : List Nat) : (s.setReady p l).pwr = s.pwr := rfl
@[simp] theorem State.setReady_stp (s : State) (p : Nat) (l : List Nat) : (s.setReady p l).stp = s.stp := rfl
@[simp] theorem State.setReady_mem (s : State) (p : Nat) (l : List Nat) : (s.setReady p l).mem = s.mem := rfl
@[simp] theorem State.setReady_key (s : State) (p : Nat) (l : List Nat) : (s.setReady p l).key = s.key := rfl
@[simp] theorem State.setReady_boot (s : State) (p : Nat) (l : List Nat) : (s.setReady p l).boot = s.boot := rfl
@[simp] theorem State.setReady_nvm (s : State) (p : Nat) (l : List Nat) : (s.setReady p l).nvm = s.nvm := rfl
@[simp] theorem State.setReady_crn (s : State) (p : Nat) (l : List Nat) : (s.setReady p l).crn = s.crn := rfl
@[simp] theorem State.setReady_fab (s : State) (p : Nat) (l : List Nat) : (s.setReady p l).fab = s.fab := rfl
@[simp] theorem State.setReady_hop (s : State) (p : Nat) (l : List Nat) : (s.setReady p l).hop = s.hop := rfl
@[simp] theorem State.setReady_fld (s : State) (p : Nat) (l : List Nat) : (s.setReady p l).fld = s.fld := rfl
@[simp] theorem State.setReady_sec (s : State) (p : Nat) (l : List Nat) : (s.setReady p l).sec = s.sec := rfl
@[simp] theorem State.setReady_gns (s : State) (p : Nat) (l : List Nat) : (s.setReady p l).gns = s.gns := rfl
@[simp] theorem State.setReady_mir (s : State) (p : Nat) (l : List Nat) : (s.setReady p l).mir = s.mir := rfl
@[simp] theorem State.setReady_fix (s : State) (p : Nat) (l : List Nat) : (s.setReady p l).fix = s.fix := rfl
@[simp] theorem State.setReady_car (s : State) (p : Nat) (l : List Nat) : (s.setReady p l).car = s.car := rfl
@[simp] theorem State.setReady_timers (s : State) (p : Nat) (l : List Nat) : (s.setReady p l).timers = s.timers := rfl
@[simp] theorem State.setReady_free (s : State) (p : Nat) (l : List Nat) : (s.setReady p l).free = s.free := rfl
@[simp] theorem State.setReady_out (s : State) (p : Nat) (l : List Nat) : (s.setReady p l).out = s.out := rfl
@[simp] theorem State.setReady_pending (s : State) (p : Nat) (l : List Nat) : (s.setReady p l).pending = s.pending := rfl

/-! ### State.modPort -/

@[simp] theorem State.modPort_id (s : State) (p : Nat) (f : FabPort → FabPort) : (s.modPort p f).id = s.id := rfl
@[simp] theorem State.modPort_clk (s : State) (p : Nat) (f : FabPort → FabPort) : (s.modPort p f).clk = s.clk := rfl
@[simp] theorem State.modPort_cfg (s : State) (p : Nat) (f : FabPort → FabPort) : (s.modPort p f).cfg = s.cfg := rfl
@[simp] theorem State.modPort_undo (s : State) (p : Nat) (f : FabPort → FabPort) : (s.modPort p f).undo = s.undo := rfl
@[simp] theorem State.modPort_direct (s : State) (p : Nat) (f : FabPort → FabPort) : (s.modPort p f).direct = s.direct := rfl
@[simp] theorem State.modPort_hst (s : State) (p : Nat) (f : FabPort → FabPort) : (s.modPort p f).hst = s.hst := rfl
@[simp] theorem State.modPort_tb (s : State) (p : Nat) (f : FabPort → FabPort) : (s.modPort p f).tb = s.tb := rfl
@[simp] theorem State.modPort_cal (s : State) (p : Nat) (f : FabPort → FabPort) : (s.modPort p f).cal = s.cal := rfl
@[simp] theorem State.modPort_pwr (s : State) (p : Nat) (f : FabPort → FabPort) : (s.modPort p f).pwr = s.pwr := rfl
@[simp] theorem State.modPort_stp (s : State) (p : Nat) (f : FabPort → FabPort) : (s.modPort p f).stp = s.stp := rfl
@[simp] theorem State.modPort_dis (s : State) (p : Nat) (f : FabPort → FabPort) : (s.modPort p f).dis = s.dis := rfl
@[simp] theorem State.modPort_mem (s : State) (p : Nat) (f : FabPort → FabPort) : (s.modPort p f).mem = s.mem := rfl
@[simp] theorem State.modPort_key (s : State) (p : Nat) (f : FabPort → FabPort) : (s.modPort p f).key = s.key := rfl
@[simp] theorem State.modPort_boot (s : State) (p : Nat) (f : FabPort → FabPort) : (s.modPort p f).boot = s.boot := rfl
@[simp] theorem State.modPort_nvm (s : State) (p : Nat) (f : FabPort → FabPort) : (s.modPort p f).nvm = s.nvm := rfl
@[simp] theorem State.modPort_crn (s : State) (p : Nat) (f : FabPort → FabPort) : (s.modPort p f).crn = s.crn := rfl
@[simp] theorem State.modPort_hop (s : State) (p : Nat) (f : FabPort → FabPort) : (s.modPort p f).hop = s.hop := rfl
@[simp] theorem State.modPort_fld (s : State) (p : Nat) (f : FabPort → FabPort) : (s.modPort p f).fld = s.fld := rfl
@[simp] theorem State.modPort_sec (s : State) (p : Nat) (f : FabPort → FabPort) : (s.modPort p f).sec = s.sec := rfl
@[simp] theorem State.modPort_gns (s : State) (p : Nat) (f : FabPort → FabPort) : (s.modPort p f).gns = s.gns := rfl
@[simp] theorem State.modPort_mir (s : State) (p : Nat) (f : FabPort → FabPort) : (s.modPort p f).mir = s.mir := rfl
@[simp] theorem State.modPort_fix (s : State) (p : Nat) (f : FabPort → FabPort) : (s.modPort p f).fix = s.fix := rfl
@[simp] theorem State.modPort_car (s : State) (p : Nat) (f : FabPort → FabPort) : (s.modPort p f).car = s.car := rfl
@[simp] theorem State.modPort_timers (s : State) (p : Nat) (f : FabPort → FabPort) : (s.modPort p f).timers = s.timers := rfl
@[simp] theorem State.modPort_free (s : State) (p : Nat) (f : FabPort → FabPort) : (s.modPort p f).free = s.free := rfl
@[simp] theorem State.modPort_out (s : State) (p : Nat) (f : FabPort → FabPort) : (s.modPort p f).out = s.out := rfl
@[simp] theorem State.modPort_pending (s : State) (p : Nat) (f : FabPort → FabPort) : (s.modPort p f).pending = s.pending := rfl

/-! ### State.modHop -/

@[simp] theorem State.modHop_id (s : State) (p : Nat) (f : HopPort → HopPort) : (s.modHop p f).id = s.id := rfl
@[simp] theorem State.modHop_clk (s : State) (p : Nat) (f : HopPort → HopPort) : (s.modHop p f).clk = s.clk := rfl
@[simp] theorem State.modHop_cfg (s : State) (p : Nat) (f : HopPort → HopPort) : (s.modHop p f).cfg = s.cfg := rfl
@[simp] theorem State.modHop_undo (s : State) (p : Nat) (f : HopPort → HopPort) : (s.modHop p f).undo = s.undo := rfl
@[simp] theorem State.modHop_direct (s : State) (p : Nat) (f : HopPort → HopPort) : (s.modHop p f).direct = s.direct := rfl
@[simp] theorem State.modHop_hst (s : State) (p : Nat) (f : HopPort → HopPort) : (s.modHop p f).hst = s.hst := rfl
@[simp] theorem State.modHop_tb (s : State) (p : Nat) (f : HopPort → HopPort) : (s.modHop p f).tb = s.tb := rfl
@[simp] theorem State.modHop_cal (s : State) (p : Nat) (f : HopPort → HopPort) : (s.modHop p f).cal = s.cal := rfl
@[simp] theorem State.modHop_pwr (s : State) (p : Nat) (f : HopPort → HopPort) : (s.modHop p f).pwr = s.pwr := rfl
@[simp] theorem State.modHop_stp (s : State) (p : Nat) (f : HopPort → HopPort) : (s.modHop p f).stp = s.stp := rfl
@[simp] theorem State.modHop_dis (s : State) (p : Nat) (f : HopPort → HopPort) : (s.modHop p f).dis = s.dis := rfl
@[simp] theorem State.modHop_mem (s : State) (p : Nat) (f : HopPort → HopPort) : (s.modHop p f).mem = s.mem := rfl
@[simp] theorem State.modHop_key (s : State) (p : Nat) (f : HopPort → HopPort) : (s.modHop p f).key = s.key := rfl
@[simp] theorem State.modHop_boot (s : State) (p : Nat) (f : HopPort → HopPort) : (s.modHop p f).boot = s.boot := rfl
@[simp] theorem State.modHop_nvm (s : State) (p : Nat) (f : HopPort → HopPort) : (s.modHop p f).nvm = s.nvm := rfl
@[simp] theorem State.modHop_crn (s : State) (p : Nat) (f : HopPort → HopPort) : (s.modHop p f).crn = s.crn := rfl
@[simp] theorem State.modHop_fab (s : State) (p : Nat) (f : HopPort → HopPort) : (s.modHop p f).fab = s.fab := rfl
@[simp] theorem State.modHop_fld (s : State) (p : Nat) (f : HopPort → HopPort) : (s.modHop p f).fld = s.fld := rfl
@[simp] theorem State.modHop_sec (s : State) (p : Nat) (f : HopPort → HopPort) : (s.modHop p f).sec = s.sec := rfl
@[simp] theorem State.modHop_gns (s : State) (p : Nat) (f : HopPort → HopPort) : (s.modHop p f).gns = s.gns := rfl
@[simp] theorem State.modHop_mir (s : State) (p : Nat) (f : HopPort → HopPort) : (s.modHop p f).mir = s.mir := rfl
@[simp] theorem State.modHop_fix (s : State) (p : Nat) (f : HopPort → HopPort) : (s.modHop p f).fix = s.fix := rfl
@[simp] theorem State.modHop_car (s : State) (p : Nat) (f : HopPort → HopPort) : (s.modHop p f).car = s.car := rfl
@[simp] theorem State.modHop_timers (s : State) (p : Nat) (f : HopPort → HopPort) : (s.modHop p f).timers = s.timers := rfl
@[simp] theorem State.modHop_free (s : State) (p : Nat) (f : HopPort → HopPort) : (s.modHop p f).free = s.free := rfl
@[simp] theorem State.modHop_out (s : State) (p : Nat) (f : HopPort → HopPort) : (s.modHop p f).out = s.out := rfl
@[simp] theorem State.modHop_pending (s : State) (p : Nat) (f : HopPort → HopPort) : (s.modHop p f).pending = s.pending := rfl

/-! ### State.updateSlot -/

@[simp] theorem State.updateSlot_id (s : State) (i : Nat) (f : KeyCopy → KeyCopy) : (s.updateSlot i f).id = s.id := rfl
@[simp] theorem State.updateSlot_clk (s : State) (i : Nat) (f : KeyCopy → KeyCopy) : (s.updateSlot i f).clk = s.clk := rfl
@[simp] theorem State.updateSlot_cfg (s : State) (i : Nat) (f : KeyCopy → KeyCopy) : (s.updateSlot i f).cfg = s.cfg := rfl
@[simp] theorem State.updateSlot_undo (s : State) (i : Nat) (f : KeyCopy → KeyCopy) : (s.updateSlot i f).undo = s.undo := rfl
@[simp] theorem State.updateSlot_direct (s : State) (i : Nat) (f : KeyCopy → KeyCopy) : (s.updateSlot i f).direct = s.direct := rfl
@[simp] theorem State.updateSlot_hst (s : State) (i : Nat) (f : KeyCopy → KeyCopy) : (s.updateSlot i f).hst = s.hst := rfl
@[simp] theorem State.updateSlot_tb (s : State) (i : Nat) (f : KeyCopy → KeyCopy) : (s.updateSlot i f).tb = s.tb := rfl
@[simp] theorem State.updateSlot_cal (s : State) (i : Nat) (f : KeyCopy → KeyCopy) : (s.updateSlot i f).cal = s.cal := rfl
@[simp] theorem State.updateSlot_pwr (s : State) (i : Nat) (f : KeyCopy → KeyCopy) : (s.updateSlot i f).pwr = s.pwr := rfl
@[simp] theorem State.updateSlot_stp (s : State) (i : Nat) (f : KeyCopy → KeyCopy) : (s.updateSlot i f).stp = s.stp := rfl
@[simp] theorem State.updateSlot_dis (s : State) (i : Nat) (f : KeyCopy → KeyCopy) : (s.updateSlot i f).dis = s.dis := rfl
@[simp] theorem State.updateSlot_mem (s : State) (i : Nat) (f : KeyCopy → KeyCopy) : (s.updateSlot i f).mem = s.mem := rfl
@[simp] theorem State.updateSlot_boot (s : State) (i : Nat) (f : KeyCopy → KeyCopy) : (s.updateSlot i f).boot = s.boot := rfl
@[simp] theorem State.updateSlot_nvm (s : State) (i : Nat) (f : KeyCopy → KeyCopy) : (s.updateSlot i f).nvm = s.nvm := rfl
@[simp] theorem State.updateSlot_crn (s : State) (i : Nat) (f : KeyCopy → KeyCopy) : (s.updateSlot i f).crn = s.crn := rfl
@[simp] theorem State.updateSlot_fab (s : State) (i : Nat) (f : KeyCopy → KeyCopy) : (s.updateSlot i f).fab = s.fab := rfl
@[simp] theorem State.updateSlot_hop (s : State) (i : Nat) (f : KeyCopy → KeyCopy) : (s.updateSlot i f).hop = s.hop := rfl
@[simp] theorem State.updateSlot_fld (s : State) (i : Nat) (f : KeyCopy → KeyCopy) : (s.updateSlot i f).fld = s.fld := rfl
@[simp] theorem State.updateSlot_sec (s : State) (i : Nat) (f : KeyCopy → KeyCopy) : (s.updateSlot i f).sec = s.sec := rfl
@[simp] theorem State.updateSlot_gns (s : State) (i : Nat) (f : KeyCopy → KeyCopy) : (s.updateSlot i f).gns = s.gns := rfl
@[simp] theorem State.updateSlot_mir (s : State) (i : Nat) (f : KeyCopy → KeyCopy) : (s.updateSlot i f).mir = s.mir := rfl
@[simp] theorem State.updateSlot_fix (s : State) (i : Nat) (f : KeyCopy → KeyCopy) : (s.updateSlot i f).fix = s.fix := rfl
@[simp] theorem State.updateSlot_car (s : State) (i : Nat) (f : KeyCopy → KeyCopy) : (s.updateSlot i f).car = s.car := rfl
@[simp] theorem State.updateSlot_timers (s : State) (i : Nat) (f : KeyCopy → KeyCopy) : (s.updateSlot i f).timers = s.timers := rfl
@[simp] theorem State.updateSlot_free (s : State) (i : Nat) (f : KeyCopy → KeyCopy) : (s.updateSlot i f).free = s.free := rfl
@[simp] theorem State.updateSlot_out (s : State) (i : Nat) (f : KeyCopy → KeyCopy) : (s.updateSlot i f).out = s.out := rfl
@[simp] theorem State.updateSlot_pending (s : State) (i : Nat) (f : KeyCopy → KeyCopy) : (s.updateSlot i f).pending = s.pending := rfl

/-! ### State.flashWrite -/

@[simp] theorem State.flashWrite_id (s : State) (a : Nat) (b : List Byte) : (s.flashWrite a b).id = s.id := rfl
@[simp] theorem State.flashWrite_clk (s : State) (a : Nat) (b : List Byte) : (s.flashWrite a b).clk = s.clk := rfl
@[simp] theorem State.flashWrite_cfg (s : State) (a : Nat) (b : List Byte) : (s.flashWrite a b).cfg = s.cfg := rfl
@[simp] theorem State.flashWrite_undo (s : State) (a : Nat) (b : List Byte) : (s.flashWrite a b).undo = s.undo := rfl
@[simp] theorem State.flashWrite_direct (s : State) (a : Nat) (b : List Byte) : (s.flashWrite a b).direct = s.direct := rfl
@[simp] theorem State.flashWrite_hst (s : State) (a : Nat) (b : List Byte) : (s.flashWrite a b).hst = s.hst := rfl
@[simp] theorem State.flashWrite_tb (s : State) (a : Nat) (b : List Byte) : (s.flashWrite a b).tb = s.tb := rfl
@[simp] theorem State.flashWrite_cal (s : State) (a : Nat) (b : List Byte) : (s.flashWrite a b).cal = s.cal := rfl
@[simp] theorem State.flashWrite_pwr (s : State) (a : Nat) (b : List Byte) : (s.flashWrite a b).pwr = s.pwr := rfl
@[simp] theorem State.flashWrite_stp (s : State) (a : Nat) (b : List Byte) : (s.flashWrite a b).stp = s.stp := rfl
@[simp] theorem State.flashWrite_dis (s : State) (a : Nat) (b : List Byte) : (s.flashWrite a b).dis = s.dis := rfl
@[simp] theorem State.flashWrite_mem (s : State) (a : Nat) (b : List Byte) : (s.flashWrite a b).mem = s.mem := rfl
@[simp] theorem State.flashWrite_key (s : State) (a : Nat) (b : List Byte) : (s.flashWrite a b).key = s.key := rfl
@[simp] theorem State.flashWrite_nvm (s : State) (a : Nat) (b : List Byte) : (s.flashWrite a b).nvm = s.nvm := rfl
@[simp] theorem State.flashWrite_crn (s : State) (a : Nat) (b : List Byte) : (s.flashWrite a b).crn = s.crn := rfl
@[simp] theorem State.flashWrite_fab (s : State) (a : Nat) (b : List Byte) : (s.flashWrite a b).fab = s.fab := rfl
@[simp] theorem State.flashWrite_hop (s : State) (a : Nat) (b : List Byte) : (s.flashWrite a b).hop = s.hop := rfl
@[simp] theorem State.flashWrite_fld (s : State) (a : Nat) (b : List Byte) : (s.flashWrite a b).fld = s.fld := rfl
@[simp] theorem State.flashWrite_sec (s : State) (a : Nat) (b : List Byte) : (s.flashWrite a b).sec = s.sec := rfl
@[simp] theorem State.flashWrite_gns (s : State) (a : Nat) (b : List Byte) : (s.flashWrite a b).gns = s.gns := rfl
@[simp] theorem State.flashWrite_mir (s : State) (a : Nat) (b : List Byte) : (s.flashWrite a b).mir = s.mir := rfl
@[simp] theorem State.flashWrite_fix (s : State) (a : Nat) (b : List Byte) : (s.flashWrite a b).fix = s.fix := rfl
@[simp] theorem State.flashWrite_car (s : State) (a : Nat) (b : List Byte) : (s.flashWrite a b).car = s.car := rfl
@[simp] theorem State.flashWrite_timers (s : State) (a : Nat) (b : List Byte) : (s.flashWrite a b).timers = s.timers := rfl
@[simp] theorem State.flashWrite_free (s : State) (a : Nat) (b : List Byte) : (s.flashWrite a b).free = s.free := rfl
@[simp] theorem State.flashWrite_out (s : State) (a : Nat) (b : List Byte) : (s.flashWrite a b).out = s.out := rfl
@[simp] theorem State.flashWrite_pending (s : State) (a : Nat) (b : List Byte) : (s.flashWrite a b).pending = s.pending := rfl

/-! ### State.push -/

@[simp] theorem State.push_id (s : State) (c : Instr) : (s.push c).id = s.id := rfl
@[simp] theorem State.push_clk (s : State) (c : Instr) : (s.push c).clk = s.clk := rfl
@[simp] theorem State.push_cfg (s : State) (c : Instr) : (s.push c).cfg = s.cfg := rfl
@[simp] theorem State.push_undo (s : State) (c : Instr) : (s.push c).undo = s.undo := rfl
@[simp] theorem State.push_direct (s : State) (c : Instr) : (s.push c).direct = s.direct := rfl
@[simp] theorem State.push_hst (s : State) (c : Instr) : (s.push c).hst = s.hst := rfl
@[simp] theorem State.push_tb (s : State) (c : Instr) : (s.push c).tb = s.tb := rfl
@[simp] theorem State.push_cal (s : State) (c : Instr) : (s.push c).cal = s.cal := rfl
@[simp] theorem State.push_pwr (s : State) (c : Instr) : (s.push c).pwr = s.pwr := rfl
@[simp] theorem State.push_stp (s : State) (c : Instr) : (s.push c).stp = s.stp := rfl
@[simp] theorem State.push_dis (s : State) (c : Instr) : (s.push c).dis = s.dis := rfl
@[simp] theorem State.push_mem (s : State) (c : Instr) : (s.push c).mem = s.mem := rfl
@[simp] theorem State.push_key (s : State) (c : Instr) : (s.push c).key = s.key := rfl
@[simp] theorem State.push_boot (s : State) (c : Instr) : (s.push c).boot = s.boot := rfl
@[simp] theorem State.push_nvm (s : State) (c : Instr) : (s.push c).nvm = s.nvm := rfl
@[simp] theorem State.push_crn (s : State) (c : Instr) : (s.push c).crn = s.crn := rfl
@[simp] theorem State.push_fab (s : State) (c : Instr) : (s.push c).fab = s.fab := rfl
@[simp] theorem State.push_hop (s : State) (c : Instr) : (s.push c).hop = s.hop := rfl
@[simp] theorem State.push_fld (s : State) (c : Instr) : (s.push c).fld = s.fld := rfl
@[simp] theorem State.push_sec (s : State) (c : Instr) : (s.push c).sec = s.sec := rfl
@[simp] theorem State.push_gns (s : State) (c : Instr) : (s.push c).gns = s.gns := rfl
@[simp] theorem State.push_mir (s : State) (c : Instr) : (s.push c).mir = s.mir := rfl
@[simp] theorem State.push_fix (s : State) (c : Instr) : (s.push c).fix = s.fix := rfl
@[simp] theorem State.push_car (s : State) (c : Instr) : (s.push c).car = s.car := rfl
@[simp] theorem State.push_timers (s : State) (c : Instr) : (s.push c).timers = s.timers := rfl
@[simp] theorem State.push_free (s : State) (c : Instr) : (s.push c).free = s.free := rfl
@[simp] theorem State.push_out (s : State) (c : Instr) : (s.push c).out = s.out := rfl
@[simp] theorem State.push_pending (s : State) (c : Instr) : (s.push c).pending = c :: s.pending := rfl

/-! ### What they write -/

@[simp] theorem State.elapse_counter (s : State) (dt : Nat) : (s.elapse dt).clk.counter = s.clk.counter + dt := rfl

@[simp] theorem State.elapse_rate (s : State) (dt : Nat) : (s.elapse dt).clk.rate = s.clk.rate := rfl

@[simp] theorem State.elapse_frozen (s : State) (dt : Nat) : (s.elapse dt).clk.frozen = s.clk.frozen := rfl

@[simp] theorem State.elapse_epoch (s : State) (dt : Nat) : (s.elapse dt).cal.epoch = s.cal.epoch := rfl

@[simp] theorem State.elapse_epochCount (s : State) (dt : Nat) : (s.elapse dt).cal.epochCount = s.cal.epochCount := rfl

@[simp] theorem State.emit_out (s : State) (o : Out) : (s.emit o).out = s.out ++ [o] := rfl

@[simp] theorem State.draw_free (s : State) : s.draw.free = s.free + 1 := rfl

@[simp] theorem State.modDesc_taken (s : State) (n : Nat) (f : Desc → Desc) :
    (s.modDesc n f).hst.taken = s.hst.taken.map fun d => if d.serial = n then f d else d := rfl

@[simp] theorem State.dropDesc_taken (s : State) (n : Nat) :
    (s.dropDesc n).hst.taken = s.hst.taken.filter fun d => d.serial ≠ n := rfl

@[simp] theorem State.modRing_taken (s : State) (n : Nat) (f : Ring → Ring) : (s.modRing n f).hst.taken = s.hst.taken := rfl

@[simp] theorem State.modDesc_rings (s : State) (n : Nat) (f : Desc → Desc) : (s.modDesc n f).hst.rings = s.hst.rings := rfl

@[simp] theorem State.dropDesc_bases (s : State) (n : Nat) : (s.dropDesc n).hst.bases = s.hst.bases := rfl

@[simp] theorem State.dropDesc_fault (s : State) (n : Nat) : (s.dropDesc n).hst.fault = s.hst.fault := rfl

@[simp] theorem State.dropDesc_rings (s : State) (n : Nat) : (s.dropDesc n).hst.rings = s.hst.rings := rfl

/-- A ring reads back what was made of it, where the rings are listed in order. -/
theorem State.ring_modRing_self {s : State} (h : tsorted s.hst.rings) (n : Nat) (f : Ring → Ring) :
    (s.modRing n f).ring n = f (s.ring n) := tget_tmod_self h _ _ _

theorem State.ring_modRing_ne (s : State) {n k : Nat} (f : Ring → Ring) (h : k ≠ n) : (s.modRing n f).ring k = s.ring k :=
  tget_tmod_ne _ _ _ h

theorem State.thread_modThread_self {s : State} (h : tsorted s.dis.threads) (n : Nat) (f : Thread → Thread) :
    (s.modThread n f).thread n = f (s.thread n) := tget_tmod_self h _ _ _

theorem State.thread_modThread_ne (s : State) {n k : Nat} (f : Thread → Thread) (h : k ≠ n) :
    (s.modThread n f).thread k = s.thread k := tget_tmod_ne _ _ _ h

theorem State.fabPort_modPort_self {s : State} (h : tsorted s.fab.ports) (p : Nat) (f : FabPort → FabPort) :
    (s.modPort p f).fabPort p = f (s.fabPort p) := tget_tmod_self h _ _ _

theorem State.fabPort_modPort_ne (s : State) {p k : Nat} (f : FabPort → FabPort) (h : k ≠ p) :
    (s.modPort p f).fabPort k = s.fabPort k := tget_tmod_ne _ _ _ h

theorem State.hopPort_modHop_self {s : State} (h : tsorted s.hop.ports) (p : Nat) (f : HopPort → HopPort) :
    (s.modHop p f).hopPort p = f (s.hopPort p) := tget_tmod_self h _ _ _

theorem State.hopPort_modHop_ne (s : State) {p k : Nat} (f : HopPort → HopPort) (h : k ≠ p) :
    (s.modHop p f).hopPort k = s.hopPort k := tget_tmod_ne _ _ _ h

/-- A commit word shows its sequence number. -/
theorem commitWord_low (w : Word) : (commitWord w).setWidth 32 = w := by
  ext i hi
  have := BitVec.getLsbD_append (x := ~~~w) (y := w) (i := i)
  simp_all [commitWord]

/-- The copy that a slot's commit word names, when it stands in the first place or else in the second. -/
theorem KeySlot.committed_of_word (a b : Option KeyCopy) (w : Word) : (⟨a, b, commitWord w⟩ : KeySlot).committed =
    (a.filter fun c => c.seq = w && c.crc = c.sum).or (b.filter fun c => c.seq = w && c.crc = c.sum) := by
  simp only [KeySlot.committed, commitWord_low, ne_eq, not_true_eq_false, if_false]
  cases a.filter fun c => c.seq = w && decide (c.crc = c.sum) <;> rfl

/-- The copy that an update writes has the CRC of its bytes. -/
@[simp] theorem KeySlot.next_crc (k : KeySlot) (i : Nat) (f : KeyCopy → KeyCopy) : (k.next i f).crc = (k.next i f).sum := rfl

/-- Its sequence number is one higher. -/
@[simp] theorem KeySlot.next_seq (k : KeySlot) (i : Nat) (f : KeyCopy → KeyCopy) :
    (k.next i f).seq = (k.committed.map KeyCopy.seq).getD 0 + 1 := rfl

/-- The copy committed before an update had a lower sequence number than the new one. -/
theorem KeySlot.next_seq_ne {k : KeySlot} {c : KeyCopy} (h : k.committed = some c) (i : Nat) (f : KeyCopy → KeyCopy) :
    c.seq ≠ (k.next i f).seq := by
  simp [h]

/-- The slot written by an update holds the new copy: the old one changed by `f`, with its SEQ one higher (R460). -/
theorem KeySlot.committed_update (k : KeySlot) (i : Nat) (f : KeyCopy → KeyCopy) : (k.update i f).committed =
    some (k.next i f) := by
  unfold KeySlot.update KeySlot.put
  split
  · next h =>
    obtain ⟨c, hc⟩ := Option.isSome_iff_exists.1 (by simp_all : k.committed.isSome = true)
    have ha : k.a = some c := by simp_all
    rw [KeySlot.committed_of_word]
    simp [hc, ha, Option.filter]
  · rw [KeySlot.committed_of_word]
    simp [Option.filter]

end Sys2Proof.Machine
end

