-- ==== Sys2Proof/Laws/Ring.lean ====
section
/-! SUPPORT. What answering a descriptor can do, and that it does it (R364 to R381). -/

namespace Sys2Proof.Machine

/-- Only what an answer may change has changed, the journal has only grown, and DRAM has kept its form. -/
def State.hostQuiet (s t : State) : Prop :=
  State.answerOnly s t ∧ (s.mem.sound → t.mem.sound)

theorem State.forget_nil (s : State) : s.forget [] = s := by simp [State.forget]

theorem State.forget_forget (s : State) (a b : List Nat) : (s.forget a).forget b = s.forget (b ++ a) := by
  simp [State.forget, List.filter_filter, not_or, or_imp, forall_and]

theorem State.dropDesc_eq_forget (s : State) (n : Nat) : s.dropDesc n = s.forget [n] := by
  simp [State.dropDesc, State.forget]

/-- The parts that an answer may change, named. -/
theorem State.hostQuiet_iff {s t : State} : State.hostQuiet s t ↔
    ∃ (g : List Nat) (h : Hst) (o : List Out) (d : Dis) (c : Crn) (m : Mem),
      t = { s.forget g with
        hst := { h with taken := (s.forget g).hst.taken }, out := s.out ++ o, dis := d, crn := c, mem := m } ∧
      Mem.traced s.mem m ∧
      (s.act F.DIS_CTRL_TRACE_EN = 0 → m = { s.mem with failed := m.failed } ∧ m.failed ≤ s.mem.failed) ∧
      (s.mem.sound → m.sound) := by
  constructor
  · rintro ⟨⟨g, hq, o, ho⟩, h3⟩
    obtain ⟨d, c, m, h1, h2, h4, h5⟩ := State.quiet_iff.1 ⟨hq, h3⟩
    refine ⟨g, t.hst, o, d, c, m, ?_, h2, h4, h5⟩
    rw [ho]
    exact h1
  · rintro ⟨g, h, o, d, c, m, rfl, h1, h2, h3⟩
    have := (State.quiet_iff (s := { s.forget g with
      hst := { h with taken := (s.forget g).hst.taken }, out := s.out ++ o })).2 ⟨d, c, m, rfl, h1, h2, h3⟩
    exact ⟨⟨g, this.1, o, rfl⟩, h3⟩

theorem State.hostQuiet_refl (s : State) : State.hostQuiet s s :=
  State.hostQuiet_iff.2 ⟨[], s.hst, [], s.dis, s.crn, s.mem, by simp [State.forget_nil], rfl, fun _ => ⟨rfl, le_rfl⟩, fun h => h⟩

theorem State.hostQuiet_trans {a b c : State} (h1 : State.hostQuiet a b) (h2 : State.hostQuiet b c) : State.hostQuiet a c := by
  obtain ⟨g, h, o, d, k, m, rfl, t1, e1, w1⟩ := State.hostQuiet_iff.1 h1
  obtain ⟨g', h', o', d', k', m', rfl, t2, e2, w2⟩ := State.hostQuiet_iff.1 h2
  refine State.hostQuiet_iff.2 ⟨g' ++ g, h', o ++ o', d', k', m', ?_, ?_, fun h => ?_, fun h => w2 (w1 h)⟩
  · rw [← State.forget_forget]
    simp [State.forget]
  · rw [Mem.traced] at t1 t2 ⊢
    rw [t2, t1]
  · obtain ⟨p1, l1⟩ := e1 h
    obtain ⟨p2, l2⟩ := e2 h
    exact ⟨by rw [p2, p1], l2.trans l1⟩

theorem State.hostQuiet_of_quiet {s t : State} (h : State.quiet s t) : State.hostQuiet s t := by
  obtain ⟨d, c, m, rfl, e⟩ := State.quiet_iff.1 h
  exact State.hostQuiet_iff.2 ⟨[], s.hst, [], d, c, m, by simp [State.forget_nil], e⟩

/-- A change of the rings alone, which leaves the taken descriptors. -/
theorem State.hostQuiet_hst (s : State) (h : Hst) (ht : h.taken = s.hst.taken) : State.hostQuiet s { s with hst := h } :=
  State.hostQuiet_iff.2 ⟨[], h, [], s.dis, s.crn, s.mem, by simp [State.forget_nil, ← ht], rfl, fun _ => ⟨rfl, le_rfl⟩, fun h => h⟩

theorem State.dropDesc_hostQuiet (s : State) (n : Nat) : State.hostQuiet s (s.dropDesc n) :=
  State.hostQuiet_iff.2 ⟨[n], s.hst, [], s.dis, s.crn, s.mem,
    by rw [State.dropDesc_eq_forget]; simp [State.forget], rfl, fun _ => ⟨rfl, le_rfl⟩, fun h => h⟩

theorem State.emit_hostQuiet (s : State) (o : Out) : State.hostQuiet s (s.emit o) :=
  State.hostQuiet_iff.2 ⟨[], s.hst, [o], s.dis, s.crn, s.mem, by simp [State.forget_nil, State.emit], rfl, fun _ => ⟨rfl, le_rfl⟩,
    fun h => h⟩

/-! ### The operations -/

theorem State.modRing_hostQuiet (s : State) (n : Nat) (f : Ring → Ring) : State.hostQuiet s (s.modRing n f) :=
  State.hostQuiet_hst s _ rfl

theorem State.signal_hostQuiet (s : State) (v : Nat) : State.hostQuiet s (s.signal v) := by
  unfold State.signal
  simp only [↓reduceIte]
  split
  · exact State.hostQuiet_hst s _ rfl
  · exact State.emit_hostQuiet s _

theorem State.shadow_hostQuiet (s : State) (n : Nat) : State.hostQuiet s (s.shadow n) := State.emit_hostQuiet s _

theorem State.setRing_hostQuiet (s : State) (n : Nat) (r : RingState) : State.hostQuiet s (s.setRing n r) :=
  State.hostQuiet_trans (State.modRing_hostQuiet _ _ _) (State.shadow_hostQuiet _ _)

theorem State.moderate_hostQuiet (s : State) (n : Nat) (irq : Bool) : State.hostQuiet s (s.moderate n irq) := by
  unfold State.moderate
  dsimp only
  split
  · exact State.hostQuiet_trans (State.modRing_hostQuiet _ _ _) (State.signal_hostQuiet _ _)
  · exact State.modRing_hostQuiet _ _ _

/-- A change that a condition guards is quiet where the change is. -/
theorem State.quietIf {c : Bool} {s t : State} (h : State.hostQuiet s t) : State.hostQuiet s (if c then t else s) := by
  cases c
  · exact State.hostQuiet_refl s
  · exact h

/-- What follows the completion's own write. -/
theorem State.writeCompletion_after (s : State) (d : Desc) (status detail : Nat) (result : List Byte) :
    State.hostQuiet (s.emit (.hostWrite (s.cqSlot d.ring) (complBytes d (s.ring d.ring).phase
      (ordered d.ring && isError status && (s.ring d.ring).state = .running) status detail (d.execAt.getD s.now) result)))
      (s.writeCompletion d status detail result) := by
  unfold State.writeCompletion
  dsimp only
  refine State.hostQuiet_trans ?_ (State.quietIf (State.hostQuiet_of_quiet (State.raise_quiet _ _ _ _)))
  refine State.hostQuiet_trans (State.hostQuiet_trans (State.hostQuiet_trans (State.modRing_hostQuiet _ _ _)
    (State.shadow_hostQuiet _ _)) (State.moderate_hostQuiet _ _ _)) (State.quietIf ?_)
  exact State.hostQuiet_trans (State.signal_hostQuiet _ _) (State.hostQuiet_of_quiet (State.raise_quiet _ _ _ _))

theorem State.writeCompletion_hostQuiet (s : State) (d : Desc) (status detail : Nat) (result : List Byte) :
    State.hostQuiet s (s.writeCompletion d status detail result) :=
  State.hostQuiet_trans (State.emit_hostQuiet _ _) (State.writeCompletion_after s d status detail result)

theorem State.leave_hostQuiet (s : State) (d : Desc) : State.hostQuiet s (s.leave d) := by
  unfold State.leave
  split
  · exact State.hostQuiet_trans (State.dropDesc_hostQuiet _ _) (State.hostQuiet_of_quiet (State.raise_quiet _ _ _ _))
  · exact State.dropDesc_hostQuiet _ _

theorem State.complete1_hostQuiet (s : State) (d : Desc) (status detail : Nat) (result : List Byte) :
    State.hostQuiet s (s.complete1 d status detail result) := by
  unfold State.complete1
  dsimp only
  refine State.hostQuiet_trans (State.leave_hostQuiet s d) ?_
  split
  · exact State.hostQuiet_refl _
  · exact State.writeCompletion_hostQuiet _ _ _ _ _

theorem State.flushVerdict_hostQuiet (s : State) (ring : Nat) : State.hostQuiet s (s.flushVerdict ring) := by
  unfold State.flushVerdict
  repeat' split
  all_goals first
    | exact State.hostQuiet_refl _
    | exact State.complete1_hostQuiet _ _ _ _ _

/-- Completing a descriptor changes nothing but what an answer may change. -/
theorem State.complete_hostQuiet (s : State) (d : Desc) (status : Nat) (result : List Byte) (detail : Nat) :
    State.hostQuiet s (s.complete d status result detail) := by
  unfold State.complete
  dsimp only
  split
  · exact State.hostQuiet_trans (State.complete1_hostQuiet _ _ _ _ _) (State.flushVerdict_hostQuiet _ _)
  · exact State.complete1_hostQuiet _ _ _ _ _

theorem State.complete_answerOnly (s : State) (d : Desc) (status : Nat) (result : List Byte) (detail : Nat) :
    State.answerOnly s (s.complete d status result detail) := (State.complete_hostQuiet s d status result detail).1

/-- An answer keeps the memories canonical. -/
theorem State.complete_canonical {s : State} (h : s.memoriesCanonical) (d : Desc) (status : Nat) (result : List Byte)
    (detail : Nat) : (s.complete d status result detail).memoriesCanonical := by
  obtain ⟨_, _, _, _, _, m, hm, ht, _, w⟩ := State.hostQuiet_iff.1 (State.complete_hostQuiet s d status result detail)
  have hd := w ⟨h.1, h.2.2.2.2.2⟩
  rw [hm]
  exact ⟨hd.1, by rw [ht]; exact h.2.1, by rw [ht]; exact h.2.2.1, h.2.2.2.1, h.2.2.2.2.1, hd.2⟩

/-! ### The descriptor leaves the device -/

@[simp] theorem State.signal_taken (s : State) (v : Nat) : (s.signal v).hst.taken = s.hst.taken := by
  unfold State.signal
  simp only [↓reduceIte]
  split <;> rfl

@[simp] theorem State.moderate_taken (s : State) (n : Nat) (irq : Bool) : (s.moderate n irq).hst.taken = s.hst.taken := by
  unfold State.moderate
  dsimp only
  split
  · simp
  · rfl

@[simp] theorem State.writeCompletion_taken (s : State) (d : Desc) (status detail : Nat) (result : List Byte) :
    (s.writeCompletion d status detail result).hst.taken = s.hst.taken := by
  unfold State.writeCompletion
  dsimp only
  split <;> (try rw [State.raise_hst]) <;> split <;> simp [State.signalErr, State.shadow]

/-- A descriptor that leaves changes the taken descriptors of the Host Interface, and nothing else of it. -/
@[simp] theorem State.leave_hst (s : State) (d : Desc) : (s.leave d).hst = (s.dropDesc d.serial).hst := by
  unfold State.leave
  split <;> simp

@[simp] theorem State.leave_out (s : State) (d : Desc) : (s.leave d).out = s.out := by
  unfold State.leave
  split <;> simp

@[simp] theorem State.leave_clk (s : State) (d : Desc) : (s.leave d).clk = s.clk := by
  unfold State.leave
  split <;> simp

@[simp] theorem State.leave_pwr (s : State) (d : Desc) : (s.leave d).pwr = s.pwr := by
  unfold State.leave
  split <;> simp

@[simp] theorem State.complete1_taken (s : State) (d : Desc) (status detail : Nat) (result : List Byte) :
    (s.complete1 d status detail result).hst.taken = s.hst.taken.filter fun e => e.serial ≠ d.serial := by
  unfold State.complete1
  dsimp only
  split <;> simp

theorem State.flushVerdict_taken (s : State) (ring : Nat) : ∀ e ∈ (s.flushVerdict ring).hst.taken, e ∈ s.hst.taken := by
  unfold State.flushVerdict
  intro e
  repeat' split
  all_goals simp
  all_goals exact fun h _ => h

theorem State.complete_taken (s : State) (d : Desc) (status : Nat) (result : List Byte) (detail : Nat) :
    ∀ e ∈ (s.complete d status result detail).hst.taken, e ∈ s.hst.taken ∧ e.serial ≠ d.serial := by
  intro e he
  have h1 : e ∈ (s.complete1 d status detail result).hst.taken := by
    unfold State.complete at he
    dsimp only at he
    split at he
    · exact State.flushVerdict_taken _ _ e he
    · exact he
  simpa using h1

/-- A descriptor whose payload write has met no error completes with the status that its command gives it (R376). -/
theorem Desc.outcome_of_written {d : Desc} (h : d.unwritten = none) (status detail : Nat) :
    d.outcome status detail = (status, detail) := by
  simp [Desc.outcome, h]

/-- A descriptor that may be answered is answered: its completion is written, and it leaves the device. -/
theorem State.complete_answered {s : State} {d : Desc} (h1 : d.silent = false) (h0 : d.unwritten = none) (h2 : (s.ring d.ring).state ≠ .disabled)
    (h3 : s.hst.fault = false) (h4 : s.pwr.state ≠ .safeHold) (status : Nat) (result : List Byte) (detail : Nat) :
    s.answered (s.complete d status result detail) [] d status result detail := by
  refine ⟨?_, fun e he => (State.complete_taken s d status result detail e he).2⟩
  have hr : (s.leave d).ring d.ring = s.ring d.ring := by simp [State.ring]
  have hc : (s.leave d).cqSlot d.ring = s.cqSlot d.ring := by simp [State.cqSlot, State.pairBase, State.ring]
  have hn : (s.leave d).now = s.now := by simp [State.now]
  have hw : s.complete1 d status detail result = (s.leave d).writeCompletion d status detail result := by
    simp [State.complete1, Desc.outcome, h0, h1, h2, h3, h4, hr]
  have h := State.writeCompletion_after (s.leave d) d status detail result
  rw [← hw, hr, hc, hn] at h
  have hq : State.hostQuiet ((s.leave d).emit (.hostWrite (s.cqSlot d.ring) (complBytes d (s.ring d.ring).phase
      (ordered d.ring && isError status && (s.ring d.ring).state = .running) status detail (d.execAt.getD s.now) result)))
      (s.complete d status result detail) := by
    unfold State.complete
    dsimp only
    split
    · exact State.hostQuiet_trans h (State.flushVerdict_hostQuiet _ _)
    · exact h
  obtain ⟨_, _, o, _, _, _, ht, _⟩ := State.hostQuiet_iff.1 hq
  exact ⟨o, by rw [ht]; simp⟩

/-- A descriptor that a command may execute is answered. -/
theorem State.offers_answered {s : State} {ring index op : Nat} {d : Desc} (h : s.offers ring index op d) (status : Nat)
    (result : List Byte) (detail : Nat) : s.answered (s.complete d status result detail) [] d status result detail := by
  obtain ⟨h, hs, hu⟩ := h
  have hm : s.mayStart d = true := by
    unfold State.startable at h
    exact (Option.filter_eq_some_iff.1 h).2
  unfold State.mayStart at hm
  simp only [Bool.and_eq_true] at hm
  refine State.complete_answered hs hu ?_ (by simpa using hm.1.1.2) (by simpa using hm.1.2) status result detail
  intro hd
  have := hm.2
  split at this <;> simp_all

/-- The descriptor that a command executes lies at its slot and has its opcode. -/
theorem State.offers_at {s : State} {ring index op : Nat} {d : Desc} (h : s.offers ring index op d) :
    d ∈ s.hst.taken ∧ d.ring = ring ∧ d.index = index ∧ d.op = op := by
  have h1 := (Option.filter_eq_some_iff.1 h.1).1
  have h2 := List.find?_some h1
  simp [Desc.is] at h2
  exact ⟨List.mem_of_find?_eq_some h1, h2.1.1.1, h2.1.1.2, h2.1.2⟩

/-- Time alone does not keep a descriptor from starting. -/
theorem State.offers_elapse {s : State} {ring index op : Nat} {d : Desc} (dt : Nat) (h : s.offers ring index op d) :
    (s.elapse dt).offers ring index op d := h

/-- A descriptor command does its effect on the descriptor that is offered. -/
theorem State.withDesc_of_offers {s : State} {ring index op : Nat} {d : Desc} (h : s.offers ring index op d)
    {variant : Desc → Bool} (hv : variant d = true) (f : State → Desc → State) : s.withDesc ring index op variant f = f s d := by
  simp [State.withDesc, h.1, hv]

end Sys2Proof.Machine
end

