-- ==== Sys2Proof/Laws/Units.lean ====
section
/-! SUPPORT. What the shared operations of the units do when they have room: clamps, payloads, waits, NV writes, frames, launch
entries. -/

namespace Sys2Proof.Machine

@[simp] theorem State.countClamps_zero (s : State) (o : Option Nat) : s.countClamps 0 o = s := rfl

@[simp] theorem State.countClamps_active (s : State) (n : Nat) (o : Option Nat) :
    (s.countClamps n o).cfg.active = s.cfg.active := by
  unfold State.countClamps
  split <;> rfl

@[simp] theorem State.countClamps_staged (s : State) (n : Nat) (o : Option Nat) :
    (s.countClamps n o).cfg.staged = s.cfg.staged := by
  unfold State.countClamps
  split <;> rfl

/-- Counting clamps changes nothing but the counters of CFG. -/
theorem State.countClamps_eq (s : State) (n : Nat) (o : Option Nat) :
    s.countClamps n o = { s with cfg := (s.countClamps n o).cfg } := by
  unfold State.countClamps
  split <;> rfl

@[simp] theorem Desc.clampIf_false (d : Desc) : d.clampIf false = d := by simp [Desc.clampIf]

/-- A payload that is not empty is one write to host memory, where it meets no error. -/
theorem State.writePayload_of_ne (s : State) {d : Desc} (o : Nat) {b : List Byte} (h : b ≠ []) (hu : d.unwritten = none) :
    s.writePayload d o b = s.emit (.hostWrite (d.addr + o) b) := by
  cases b with
  | nil => exact absurd rfl h
  | cons x r => simp [State.writePayload, hu]

@[simp] theorem State.writePayload_nil (s : State) (d : Desc) (o : Nat) : s.writePayload d o [] = s := rfl

/-- A descriptor that may start waits from now on. -/
theorem State.wait_waits {s : State} {d : Desc} (h : d ∈ s.hst.taken) : State.waits s (s.wait d) d := by
  unfold State.wait State.waits
  dsimp only
  split
  · exact ⟨List.mem_map.2 ⟨d, h, by simp⟩, rfl⟩
  · exact ⟨by simp, rfl⟩

/-- A block with room takes a write, which only counts (R483). -/
theorem State.nvWrite_of_room {s : State} {region block : Nat} (h : s.nvRoom region block 1) :
    s.nvWrite region block NvRun.plain =
      (s.countWrite (s.nvHome (s.nvBlock region block)) (tget s.nvm.wear 0 (s.nvHome (s.nvBlock region block)) + 1), .done) := by
  have h' : tget s.nvm.wear 0 (s.nvHome (s.nvBlock region block)) + 1 < nvEndurance := h
  simp [State.nvWrite, h', NvRun.plain, runNow, runEnded]

/-- A frame joins the queue of its class on a port that has room (R395). -/
theorem State.enqueueFrame_of_room {s : State} {p : Nat} {f : List Byte}
    (h : (s.egress p (frClass f)).length < queueDepth (frClass f)) :
    s.enqueueFrame p f =
      (s.modPort p fun r => { r with queues := tset r.queues [] (frClass f) (s.egress p (frClass f) ++ [f]) }, true) := by
  simp only [State.egress] at h
  simp [State.enqueueFrame, State.egress, h]

/-- A frame that finds no room is dropped and counted (R395). -/
theorem State.enqueueFrame_of_full {s : State} {p : Nat} {f : List Byte}
    (h : ¬ (s.egress p (frClass f)).length < queueDepth (frClass f)) :
    s.enqueueFrame p f = (s.modPort p fun r => { r with drop := r.drop + 1 }, false) := by
  simp only [State.egress] at h
  simp [State.enqueueFrame, h]

/-- What a queue holds after a frame has joined it: the frame at its end, and every other queue as it was. -/
theorem State.egress_enqueueFrame {s : State} (ht : s.tidy) {p : Nat} {f : List Byte}
    (h : (s.egress p (frClass f)).length < queueDepth (frClass f)) (q c : Nat) :
    (s.enqueueFrame p f).1.egress q c =
      if q = p ∧ c = frClass f then s.egress p (frClass f) ++ [f] else s.egress q c := by
  have hs : tsorted s.fab.ports := ht.1.1
  rw [State.enqueueFrame_of_room h]
  by_cases hq : q = p
  · subst hq
    simp only [State.egress]
    rw [State.fabPort_modPort_self hs]
    by_cases hc : c = frClass f
    · subst hc
      simpa using tget_tset_self_of_ne _ (by simp) _
    · simp [hc, tget_tset_ne _ _ _ hc]
  · simp [State.egress, State.fabPort_modPort_ne _ _ hq, hq]

@[simp] theorem State.insertLaunch_launches (s : State) (time : Nat) (k : LaunchKind) :
    (s.insertLaunch time k).tb.launches = s.tb.launches ++ [⟨time, k, false⟩] := rfl

/-- An update of a record slot leaves every other slot. -/
theorem State.keyRec_updateSlot_ne (s : State) {i j : Nat} (f : KeyCopy → KeyCopy) (h : j ≠ i) :
    (s.updateSlot i f).keyRec j = s.keyRec j := by
  simp [State.keyRec, State.updateSlot, tget_tmod_ne _ _ _ h]

/-- The record in the slot updated. -/
theorem State.keyRec_updateSlot_self (s : State) (i : Nat) (f : KeyCopy → KeyCopy) :
    (s.updateSlot i f).keyRec i = some ((tget s.key.slots KeySlot.empty i).next i f) := by
  have hne : (tget s.key.slots KeySlot.empty i).update i f ≠ KeySlot.empty := by
    intro h
    have := congrArg KeySlot.committed h
    rw [KeySlot.committed_update] at this
    simp [KeySlot.empty, KeySlot.committed] at this
  have : tget (s.updateSlot i f).key.slots KeySlot.empty i = (tget s.key.slots KeySlot.empty i).update i f :=
    tget_tset_self_of_ne _ hne i
  simp [State.keyRec, this, KeySlot.committed_update]

/-! ### The memories stay canonical -/

/-- A write to the user region keeps the memories canonical. -/
theorem State.putUser_canonical {s : State} (h : s.memoriesCanonical) (a : Nat) (b : List Byte) :
    (s.putUser a b).memoriesCanonical :=
  ⟨h.1, h.2.1, h.2.2.1, writeMem_wf h.2.2.2.1 a b, h.2.2.2.2⟩

/-- The bytes that the staging images leave behind keep the memories canonical. -/
theorem State.leaveImages_canonical {s : State} (h : s.memoriesCanonical) : s.leaveImages.memoriesCanonical := by
  have step : ∀ (l : List (Nat × List Byte)) (f : Nat → Nat) (w : Nat) (m : Memory), Memory.wf m memFill →
      Memory.wf (l.foldl (fun m e => writeMem m memFill (f e.1) (e.2.take w)) m) memFill := by
    intro l f w
    induction l with
    | nil => exact fun m hm => hm
    | cons e l ih => exact fun m hm => ih _ (writeMem_wf hm _ _)
  unfold State.leaveImages
  split
  · exact h
  · rename_i base _
    refine ⟨?_, h.2⟩
    dsimp only
    generalize List.range 3 = ks
    revert ks
    have outer : ∀ (ks : List Nat) (g : Nat → Nat → Nat) (w : Nat → Nat) (m : Memory), Memory.wf m memFill →
        Memory.wf (ks.foldl (fun m k =>
          (s.cfg.staged.part k).foldl (fun m e => writeMem m memFill (g k e.1) (e.2.take (w k))) m) m) memFill := by
      intro ks g w
      induction ks with
      | nil => exact fun m hm => hm
      | cons k ks ih => exact fun m hm => ih _ (step _ _ _ _ hm)
    exact fun ks => outer ks (fun k x => base + (imageParts.getD k (0, 0, 1)).1 + (imageParts.getD k (0, 0, 1)).2.2 * x)
      (fun k => (imageParts.getD k (0, 0, 1)).2.2) _ (Memory.wf_filter h.1 _)

/-- A store in DRAM, also of a byte of the staging images, keeps the memories canonical. -/
theorem State.dramPut_canonical {s : State} (h : s.memoriesCanonical) (a : Nat) (b : List Byte) :
    (s.dramPut a b).memoriesCanonical := by
  obtain ⟨h1, h2, h3⟩ := State.dramPut_traced s a b
  have hs := h3 ⟨h.1, h.2.2.2.2.2⟩
  rw [h1, h2]
  exact ⟨hs.1, h.2.1, h.2.2.1, h.2.2.2.1, h.2.2.2.2.1, hs.2⟩

theorem State.dramByteStore_canonical {s : State} (h : s.memoriesCanonical) (a : Nat) (b : Byte) :
    (s.dramByteStore a b).memoriesCanonical := by
  unfold State.dramByteStore
  split
  · exact State.dramPut_canonical h a [b]
  · split
    · exact State.dramPut_canonical h a [b]
    · exact h

/-- What a core stores in memory keeps it canonical (R428). -/
theorem State.writeTarget_canonical {s : State} (h : s.memoriesCanonical) (core a : Nat) (g : CoreTarget) (b : List Byte)
    (hr : ∀ o, g ≠ .register o) : (s.writeTarget core a g b).memoriesCanonical := by
  cases g with
  | bank o => exact ⟨h.1, writeMem_wf h.2.1 o b, h.2.2⟩
  | dualPort o => exact ⟨h.1, h.2.1, writeMem_wf h.2.2.1 o b, h.2.2.2⟩
  | register o => exact absurd rfl (hr o)
  | dram d =>
    have fold : ∀ (l : List (Byte × Nat)) (s : State), s.memoriesCanonical →
        (l.foldl (fun s (p : Byte × Nat) => s.dramByteStore (d + p.2) p.1) s).memoriesCanonical := by
      intro l
      induction l with
      | nil => exact fun s hs => hs
      | cons p l ih => exact fun s hs => ih _ (State.dramByteStore_canonical hs _ _)
    exact fold _ _ h

end Sys2Proof.Machine
end

