-- ==== Sys2Proof/Tests/Slice0.lean ====
section
/-! SUPPORT. The model's own tests: one ill-formed term for each check of WellFormed, a few single steps whose results the manual
gives, and for every clause of every obligation that has hypotheses a state and operands that meet them together. -/

namespace Sys2Proof.Tests

open Machine

-- One theorem at a time: many kernel evaluations at once would each take a thread.
set_option Elab.async false

/-! ### States that the witnesses start from -/

/-- An active register field set to a value. -/
def withAct (f : Sel) (i v : Nat) (s : State) : State :=
  let off := f.base + f.stride * i
  let d := BitVec.ofNat 32 f.reset
  { s with cfg := { s.cfg with active := { s.cfg.active with
      regs := tset s.cfg.active.regs d off (BitVec.ofNat 32 (putBits (tget s.cfg.active.regs d off).toNat f.lo f.width v)) } } }

/-- An immediate register field set to a value. -/
def withReg (f : Sel) (i v : Nat) (s : State) : State := s.setReg f i v

/-- The device in RUN with every unit configured and the stop latch clear. -/
def live : State :=
  { State.reset with
    pwr := { Pwr.reset with state := .run }
    cfg := { Cfg.reset with units := 0xFFFFF }
    stp := { Stp.reset with latched := false } }

/-- A descriptor of ring 3 (or another), slot 0, whose serial number is its ring's, with its opcode, operands and length, free to
start. -/
def descOf (op : Nat) (ops : List Byte := []) (len : Nat := 0) (ring : Nat := 3) : Desc :=
  ⟨ring, ring, 0, leBytes 2 op ++ leBytes 2 0 ++ leBytes 4 7 ++ leBytes 8 0 ++ leBytes 8 4096 ++ leBytes 4 len ++ leBytes 4 0 ++
    padTo 32 ops, false, false, none, false, .ready, none, none, false, none⟩

/-- A state whose ring of the descriptor runs and holds it alone. -/
def offer (d : Desc) (s : State := live) : State :=
  { s with hst := { s.hst with rings := [(d.ring, { Ring.reset with state := .running })], taken := [d] } }

/-! ### Invariants, checked -/

/-- The tables of a configuration are tidy. -/
def confTidy (c : Conf) : Bool :=
  decide (tsorted c.regs ∧ tsorted c.machines ∧ tsorted c.sections ∧ tsorted c.rates ∧ tsorted c.routes ∧ tsorted c.classes)

/-- The tables of a state are tidy. -/
def tidyB (s : State) : Bool :=
  (decide s.fab.tidy && decide s.dis.tidy && decide s.hop.tidy && decide s.gns.tidy && decide s.fix.tidy && decide s.sec.tidy &&
    decide s.fld.tidy) &&
  confTidy s.cfg.staged && confTidy s.cfg.active &&
  decide (tsorted s.direct ∧ tsorted s.hst.rings ∧ tsorted s.hst.bases ∧ tsorted s.tb.srcs ∧ tsorted s.tb.alarms ∧ tsorted s.tb.ptp ∧
    tsorted s.crn.buf ∧ tsorted s.crn.nv ∧ tsorted s.car.res ∧ tsorted s.car.machs ∧ tsorted s.car.tasks ∧ tsorted s.key.running ∧
    tsorted s.key.slots ∧ tsorted s.nvm.wear ∧ tsorted s.nvm.mapping ∧ tsorted s.boot.meas) &&
  s.tb.launches.all (fun l => match l.kind with
    | .commit c => confTidy c.snap
    | .desc .. => true) &&
  s.undo.all fun u => confTidy u.active && decide u.fld.tidy && decide u.sec.tidy && decide u.gns.tidy && decide u.fix.tidy &&
    decide u.hop.tidy && decide u.fab.tidy

theorem conf_of_check {c : Conf} (h : confTidy c = true) : c.tidy := of_decide_eq_true (p := _ ∧ _) h

theorem tidy_of_check {s : State} (h : tidyB s = true) : s.tidy := by
  unfold tidyB at h
  simp only [Bool.and_eq_true, List.all_eq_true, Option.all_eq_true, decide_eq_true_eq] at h
  obtain ⟨⟨⟨⟨⟨⟨⟨⟨⟨⟨⟨h1, h2⟩, h3⟩, h4⟩, h5⟩, h6⟩, h7⟩, h8⟩, h9⟩, h10⟩, h11⟩, h12⟩ := h
  obtain ⟨b1, b2, b3, b4, b5, b6, b7, b8, b9, b10, b11, b12, b13, b14, b15, b16⟩ := h10
  refine ⟨h1, h2, h3, h4, h5, h6, h7, conf_of_check h8, conf_of_check h9, b1, b2, b3, b4, b5, b6, b7, b8, b9, b10, b11, b12, b13,
    b14, b15, b16, fun l hl c hc => ?_, fun u hu => ?_⟩
  · have h := h11 l hl
    rw [hc] at h
    exact conf_of_check h
  · obtain ⟨⟨⟨⟨⟨⟨a1, a2⟩, a3⟩, a4⟩, a5⟩, a6⟩, a7⟩ := h12 u hu
    exact ⟨conf_of_check a1, a2, a3, a4, a5, a6, a7⟩

/-- The byte memories of a state are in canonical form. -/
def canonicalB (s : State) : Bool :=
  decide (Memory.wf s.mem.dram memFill ∧ Memory.wf s.mem.banks memFill ∧ Memory.wf s.mem.dual memFill ∧
    Memory.wf s.nvm.user memFill ∧ Memory.wf s.boot.flash flashFill ∧ ∀ w ∈ s.mem.bad, w % 8 = 0)

theorem canonical_of_check {s : State} (h : canonicalB s = true) : s.memoriesCanonical :=
  of_decide_eq_true (p := _ ∧ _) h

/-- Ready lists and cores agree with the threads' states. -/
def scheduledB (s : State) : Bool :=
  decide ((∀ e ∈ s.dis.ready, e.2.Nodup ∧ ∀ k ∈ e.2, (s.thread k).state = .ready ∧ (s.thread k).prio = e.1) ∧
    (∀ e ∈ s.dis.cores, (s.thread e.2).state = .running ∧ (s.thread e.2).core = e.1 ∧ (s.thread e.2).met = none) ∧
    (s.pwr.inReset = true → s.pwr.state ≠ .waitHost ∧ s.pwr.state ≠ .run) ∧
    (s.pwr.inReset = true ∨ s.pwr.state = .boot ∨ s.pwr.state = .recovery → s.dis.ready = [] ∧ s.dis.cores = []))

theorem scheduled_of_check {s : State} (h : scheduledB s = true) : s.scheduled := by
  obtain ⟨h1, h2, h3, h4⟩ := of_decide_eq_true (p := _ ∧ _) h
  refine ⟨fun p => ?_, fun c k hk => h2 _ (mem_of_tfind hk), h3, h4⟩
  unfold State.readyList tget
  cases e : tfind s.dis.ready p with
  | none => simp
  | some l => exact h1 _ (mem_of_tfind e)

theorem wit_StampPopTakesTheHead_1 : ∃ (s : State), s.pwr.inReset = false ∧ ∃ (h : Stamp) (r : List Stamp), s.tb.stamps = h :: r :=
  ⟨{ live with tb := { live.tb with stamps := [⟨0x31, 5, 2 ^ 80⟩] } }, by decide +kernel, ⟨0x31, 5, 2 ^ 80⟩, [],
   by decide +kernel⟩

theorem wit_StampPopTakesTheHead_2 : ∃ (s : State), s.pwr.inReset = false ∧ s.tb.stamps = [] :=
  ⟨live, by decide +kernel⟩

/-- The running device with time sources 2 and 3 enabled. -/
def sources : State := withAct F.TB_CTRL_SRC_EN 0 0xF live

theorem wit_SourceSamplesAreTaken_1 : ∃ (s : State), s.tidy ∧ s.writable = true :=
  ⟨sources, tidy_of_check (by decide +kernel), by decide +kernel⟩

theorem wit_SourceSamplesAreTaken_2 : ∃ (s : State) (falling : Bool), (falling = true ↔ s.reg F.TB_PPS_IN_EDGE ≠ 1) :=
  ⟨live, true, by decide +kernel⟩

theorem wit_SourceSamplesAreTaken_3 : ∃ (s : State) (phase : Nat) (falling : Bool), phase ≤ 7 ∧ s.clockRuns = true ∧
    s.tb.stamps.length < 64 ∧ (falling = true ↔ s.reg F.TB_PPS_IN_EDGE = 1) :=
  ⟨sources, 7, false, by decide +kernel⟩

/-- Source 3 has been heard for 100 s, and port 5 heard a master announce itself at the start. -/
def heard : State :=
  { sources with
    clk := { sources.clk with counter := 100 * tickS }
    tb := { sources.tb with
      srcs := [(3, ⟨some (100 * tickS - 1), some 0, 10, false⟩)]
      ptp := [(5, { PtpPort.reset with announce := some ⟨1, 6, 0x20, 0, 1, 7, 0, (7, 1)⟩ })] } }

theorem wit_SourceChangesFollowRank_1 : ∃ (s : State) (dt : Nat) (src : Nat), src ≤ 3 ∧ (s.elapse dt).mayQualify src = true :=
  ⟨heard, 0, 3, by decide +kernel⟩

theorem wit_SourceChangesFollowRank_2 : ∃ (s : State) (dt : Nat) (src : Nat) (a : Nat), src ≤ 3 ∧ src ≠ 1 ∧ s.tidy ∧
    (s.src src).lastAt = some a ∧ a + s.srcTimeout src ≤ s.clk.counter + dt :=
  ⟨heard, 100 * tickS, 3, 100 * tickS - 1, by decide +kernel, by decide +kernel, tidy_of_check (by decide +kernel),
   by decide +kernel⟩

theorem wit_SourceChangesFollowRank_3 : ∃ (s : State) (dt : Nat) (port : Nat) (c : Instr), s.tidy ∧
    (s.elapse dt).announceLate port = true ∧ (c = .ptpAnnounceTimeout dt port ∨ (c = .tbSourceLost dt 1 ∧
    s.tb.slavePort = some port)) :=
  ⟨heard, 0, 5, .ptpAnnounceTimeout 0 5, tidy_of_check (by decide +kernel), by decide +kernel, .inl rfl⟩

theorem wit_SourceChangesFollowRank_3b : ∃ (s : State) (dt : Nat) (port : Nat) (c : Instr), s.tidy ∧
    (s.elapse dt).announceLate port = true ∧ (c = .ptpAnnounceTimeout dt port ∨ (c = .tbSourceLost dt 1 ∧
    s.tb.slavePort = some port)) :=
  ⟨{ heard with tb := { heard.tb with slavePort := some 5 } }, 0, 5, .tbSourceLost 0 1, tidy_of_check (by decide +kernel),
   by decide +kernel, .inr ⟨rfl, by decide +kernel⟩⟩

theorem wit_StepMovesTheClock_1 : ∃ (s : State) (dt : Nat) (p : StepPending), s.tb.step = some p ∧ p.at' ≤ (s.elapse dt).now :=
  ⟨{ live with tb := { live.tb with step := some ⟨-5, 10, 0⟩ } }, 0, ⟨-5, 10, 0⟩, by decide +kernel⟩

/-- PPS_OUT is on, its pulse runs, and the clock is locked. -/
def pulsing : State :=
  { withReg F.TB_PPS_OUT_EN 0 1 live with tb := { live.tb with ppsHigh := true, ppsAt := some 0, quality := .locked } }

theorem wit_PpsOutAndTheErrorBound_1 : ∃ (s : State) (dt : Nat), s.clockRuns = true ∧ s.ppsOn = true ∧
    s.tb.ppsNext ≤ (s.elapse dt).ppsSecond :=
  ⟨pulsing, 0, by decide +kernel⟩

theorem wit_PpsOutAndTheErrorBound_2 : ∃ (s : State) (dt : Nat) (a : Nat), s.tb.ppsAt = some a ∧
    a + s.reg F.TB_PPS_OUT_WIDTH * tickMs ≤ s.clk.counter + dt :=
  ⟨pulsing, 10 * tickS, 0, by decide +kernel⟩

theorem wit_PpsOutAndTheErrorBound_3 : ∃ (s : State) (dt : Nat), s.pwr.inReset = false ∧
    (s.elapse dt).due T.errEst tickMs = true ∧ (s.tb.quality = .locked ∨ s.tb.quality = .relocking) :=
  ⟨pulsing, tickMs, by decide +kernel⟩

theorem wit_PpsOutAndTheErrorBound_4 : ∃ (s : State) (dt : Nat), s.pwr.inReset = false ∧
    (s.elapse dt).due T.errEst tickMs = true ∧ s.tb.quality = .holdover :=
  ⟨{ pulsing with tb := { pulsing.tb with quality := .holdover } }, tickMs, by decide +kernel⟩

theorem wit_AlarmsArmAndFire_1 : ∃ (s : State) (dt : Nat) (n : Nat) (v : Word), n ≤ 31 ∧ s.tidy ∧ s.writable = true ∧
    (let time := s.reg F.TB_ALARM_LO_TIME n + 2 ^ 32 * v.toNat; ((s.elapse dt).now < time ∨ time = 0)) :=
  ⟨live, 0, 31, 7, by decide +kernel, tidy_of_check (by decide +kernel), by decide +kernel, by decide +kernel⟩

theorem wit_AlarmsArmAndFire_2 : ∃ (s : State) (dt : Nat) (n : Nat), n ≤ 31 ∧ s.tidy ∧
    (tget s.tb.alarms Alarm.reset n).armed = true ∧ s.pwr.state ≠ .safeHold ∧
    (tget s.tb.alarms Alarm.reset n).time ≤ (s.elapse dt).now ∧
    (let tick := (s.elapse dt).tickOf (tget s.tb.alarms Alarm.reset n).time; (∀ l ∈ s.tb.launches, l.time ≤ (s.elapse dt).now →
    tick < (s.elapse dt).launchTick l) ∧ (∀ p ∈ s.tb.periodic, p.time ≤ (s.elapse dt).now → tick < (s.elapse dt).tickOf p.time)) := by
  refine ⟨{ live with tb := { live.tb with alarms := [(31, ⟨true, 0⟩)] } }, 0, 31, ?_, tidy_of_check (by decide +kernel), ?_, ?_,
     ?_, ?_⟩ <;>
  decide +kernel

/-- PTP port 5 is live: the link is UP and the address is held; a Sync has arrived and a Pdelay_Req was sent. -/
def ptpLive : State :=
  withAct F.TB_PTP_CTRL_PORTS 0 0x3F <| withAct F.FAB_PORT_CTRL_EN 5 1 <|
    { live with
      id := { live.id with eui := 1 }
      clk := { live.clk with counter := 100 * tickS }
      fab := { live.fab with ports := [(5, { FabPort.reset with blockLock := true, link := .up })], addr := 9, addrState := .claimed }
      tb := { live.tb with ptp := [(5, { PtpPort.reset with sync := some (4, 1000), pd := some (6, 1, some (2, 3)) })] } }

/-- A frame of class `TIME` from device 30. -/
def timeFrame (m : List Byte) : List Byte := mkFrame fabBroadcast 30 FC.time 0 1 2 0 m

/-- A message from the device with EUI-64 7. -/
def message (type seq : Nat) (body : List Byte) : List Byte :=
  { live with id := { live.id with eui := 7 } : State }.ptpMessage 5 type 0 0 seq 0 body

/-- The body of a response to `ptpLive`. -/
def toPort : List Byte := List.replicate 10 0 ++ ptpLive.ptpIdentity 5

/-- A message waits in the `TIME` queue of port 5. -/
def ptpQueued (m : List Byte) : State :=
  { ptpLive with fab := { ptpLive.fab with
      ports := [(5, { FabPort.reset with blockLock := true, link := .up, queues := [(FC.time, [timeFrame m])] })] } }

theorem wit_PtpMessagesTakeEffect_1 : ∃ (s : State) (p : Nat) (ph : Nat) (f : List Byte), s.tidy ∧ p ≤ 5 ∧ ph ≤ 7 ∧
    s.ptpLive p = true ∧ s.timeTaken p f = true ∧ (let m := frBody f; (byteAt m 1 % 16 ≠ 2 ∨
    byteAt m 4 ≠ s.act F.TB_PTP_CTRL_DOMAIN)) := by
  refine ⟨ptpLive, 5, 7, timeFrame [], tidy_of_check (by decide +kernel), ?_, ?_, ?_, ?_, ?_⟩ <;>
  decide +kernel

theorem wit_PtpMessagesTakeEffect_2 : ∃ (s : State) (p : Nat) (ph : Nat) (f : List Byte), s.tidy ∧ p ≤ 5 ∧ ph ≤ 7 ∧
    s.ptpLive p = true ∧ s.timeTaken p f = true ∧ (let m := frBody f; byteAt m 1 % 16 = 2 ∧
    byteAt m 4 = s.act F.TB_PTP_CTRL_DOMAIN ∧ ptpSize (ptpType m) ≤ m.length ∧ ptpType m = Pm.announce) := by
  refine ⟨ptpLive, 5, 7, timeFrame (message Pm.announce 1 (List.replicate 30 0)), tidy_of_check (by decide +kernel), ?_, ?_, ?_, ?_,
     ?_⟩ <;>
  decide +kernel

theorem wit_PtpMessagesTakeEffect_3 : ∃ (s : State) (p : Nat) (ph : Nat) (f : List Byte), s.tidy ∧ p ≤ 5 ∧ ph ≤ 7 ∧
    s.ptpLive p = true ∧ s.timeTaken p f = true ∧ (let m := frBody f; byteAt m 1 % 16 = 2 ∧
    byteAt m 4 = s.act F.TB_PTP_CTRL_DOMAIN ∧ ptpSize (ptpType m) ≤ m.length ∧ ptpType m = Pm.sync) := by
  refine ⟨ptpLive, 5, 7, timeFrame (message Pm.sync 4 (List.replicate 10 0)), tidy_of_check (by decide +kernel), ?_, ?_, ?_, ?_, ?_⟩ <;>
  decide +kernel

theorem wit_PtpMessagesTakeEffect_4 : ∃ (s : State) (p : Nat) (ph : Nat) (f : List Byte), s.tidy ∧ p ≤ 5 ∧ ph ≤ 7 ∧
    s.ptpLive p = true ∧ s.timeTaken p f = true ∧ (let m := frBody f; byteAt m 1 % 16 = 2 ∧
    byteAt m 4 = s.act F.TB_PTP_CTRL_DOMAIN ∧ ptpSize (ptpType m) ≤ m.length ∧ ∃ t2, ptpType m = Pm.followUp ∧
    (s.ptpPort p).sync = some (ptpSeq m, t2)) := by
  refine ⟨ptpLive, 5, 7, timeFrame (message Pm.followUp 4 (List.replicate 10 0)), tidy_of_check (by decide +kernel), ?_, ?_, ?_, ?_,
     ?_, ?_, ?_, 1000, ?_⟩ <;>
  decide +kernel

theorem wit_PtpMessagesTakeEffect_5 : ∃ (s : State) (p : Nat) (ph : Nat) (f : List Byte), s.tidy ∧ p ≤ 5 ∧ ph ≤ 7 ∧
    s.ptpLive p = true ∧ s.timeTaken p f = true ∧ (let m := frBody f; byteAt m 1 % 16 = 2 ∧
    byteAt m 4 = s.act F.TB_PTP_CTRL_DOMAIN ∧ ptpSize (ptpType m) ≤ m.length ∧ ptpType m = Pm.pdelayReq ∧
    (s.egress p FC.time).length < queueDepth FC.time) := by
  refine ⟨ptpLive, 5, 7, timeFrame (message Pm.pdelayReq 4 (List.replicate 20 0)), tidy_of_check (by decide +kernel), ?_, ?_, ?_,
     ?_, ?_⟩ <;>
  decide +kernel

theorem wit_PtpMessagesTakeEffect_6 : ∃ (s : State) (p : Nat) (ph : Nat) (f : List Byte), s.tidy ∧ p ≤ 5 ∧ ph ≤ 7 ∧
    s.ptpLive p = true ∧ s.timeTaken p f = true ∧ (let m := frBody f; byteAt m 1 % 16 = 2 ∧
    byteAt m 4 = s.act F.TB_PTP_CTRL_DOMAIN ∧ ptpSize (ptpType m) ≤ m.length ∧ ∃ t1 x, ptpType m = Pm.pdelayResp ∧
    (s.ptpPort p).pd = some (ptpSeq m, t1, x) ∧ slice m 44 10 = s.ptpIdentity p) := by
  refine ⟨ptpLive, 5, 7, timeFrame (message Pm.pdelayResp 6 toPort), tidy_of_check (by decide +kernel), ?_, ?_, ?_, ?_, ?_, ?_, ?_,
     1, some (2, 3), ?_⟩ <;>
  decide +kernel

theorem wit_PtpMessagesTakeEffect_7 : ∃ (s : State) (p : Nat) (ph : Nat) (f : List Byte), s.tidy ∧ p ≤ 5 ∧ ph ≤ 7 ∧
    s.ptpLive p = true ∧ s.timeTaken p f = true ∧ (let m := frBody f; byteAt m 1 % 16 = 2 ∧
    byteAt m 4 = s.act F.TB_PTP_CTRL_DOMAIN ∧ ptpSize (ptpType m) ≤ m.length ∧ ∃ t1 t4 t2, ptpType m = Pm.pdelayRespFollowUp ∧
    (s.ptpPort p).pd = some (ptpSeq m, t1, some (t4, t2)) ∧ slice m 44 10 = s.ptpIdentity p) := by
  refine ⟨ptpLive, 5, 7, timeFrame (message Pm.pdelayRespFollowUp 6 toPort), tidy_of_check (by decide +kernel), ?_, ?_, ?_, ?_, ?_,
     ?_, ?_, 1, 2, 3, ?_⟩ <;>
  decide +kernel

theorem wit_PtpMessagesTakeEffect_8 : ∃ (s : State) (dt : Nat) (p : Nat), s.tidy ∧ p ≤ 5 ∧ s.ptpLive p = true ∧
    (s.egress p FC.time).length < queueDepth FC.time ∧ s.ptpPassive p = false ∧
    (s.ptpPort p).lastSync + logInterval 4 (s.act F.TB_PTP_CTRL_SYNC_LOG) ≤ s.clk.counter + dt :=
  ⟨ptpLive, 0, 5, tidy_of_check (by decide +kernel), by decide +kernel⟩

theorem wit_PtpMessagesTakeEffect_9 : ∃ (s : State) (dt : Nat) (p : Nat), s.tidy ∧ p ≤ 5 ∧ s.ptpLive p = true ∧
    (s.egress p FC.time).length < queueDepth FC.time ∧ s.ptpPassive p = false ∧
    (s.ptpPort p).lastAnn + tickS * 2 ^ s.act F.TB_PTP_CTRL_ANNOUNCE_LOG ≤ s.clk.counter + dt :=
  ⟨ptpLive, 0, 5, tidy_of_check (by decide +kernel), by decide +kernel⟩

theorem wit_PtpMessagesTakeEffect_10 : ∃ (s : State) (dt : Nat) (p : Nat), s.tidy ∧ p ≤ 5 ∧ s.ptpLive p = true ∧
    (s.egress p FC.time).length < queueDepth FC.time ∧
    (s.ptpPort p).lastPd + logInterval 4 (s.reg F.TB_PTP_CTRL2_PDELAY_LOG) ≤ s.clk.counter + dt :=
  ⟨ptpLive, 0, 5, tidy_of_check (by decide +kernel), by decide +kernel⟩

theorem wit_PtpMessagesTakeEffect_11_1 : ∃ (s : State) (dt : Nat) (p : Nat) (f : List Byte) (r : List (List Byte)), s.tidy ∧
    (s.fabPort p).lineFree ≤ s.clk.counter + dt ∧ s.portOn p = true ∧ s.egress p FC.stop = [] ∧ s.egress p FC.time = f :: r ∧
    r.length < 15 ∧ s.tb.stamps.length < 64 ∧ s.fab.addrState = .claimed ∧ ptpType (frBody f) = Pm.sync :=
  ⟨ptpQueued (message Pm.sync 4 (List.replicate 10 0)), 0, 5, timeFrame (message Pm.sync 4 (List.replicate 10 0)), [],
   tidy_of_check (by decide +kernel), by decide +kernel⟩

theorem wit_PtpMessagesTakeEffect_11_3 : ∃ (s : State) (dt : Nat) (p : Nat) (f : List Byte) (r : List (List Byte)), s.tidy ∧
    (s.fabPort p).lineFree ≤ s.clk.counter + dt ∧ s.portOn p = true ∧ s.egress p FC.stop = [] ∧ s.egress p FC.time = f :: r ∧
    r.length < 15 ∧ s.tb.stamps.length < 64 ∧ s.fab.addrState = .claimed ∧ ptpType (frBody f) = Pm.pdelayResp :=
  ⟨ptpQueued (message Pm.pdelayResp 4 (List.replicate 20 0)), 0, 5, timeFrame (message Pm.pdelayResp 4 (List.replicate 20 0)),
   [], tidy_of_check (by decide +kernel), by decide +kernel⟩

theorem wit_PtpMessagesTakeEffect_11_4 : ∃ (s : State) (dt : Nat) (p : Nat) (f : List Byte) (r : List (List Byte)), s.tidy ∧
    (s.fabPort p).lineFree ≤ s.clk.counter + dt ∧ s.portOn p = true ∧ s.egress p FC.stop = [] ∧ s.egress p FC.time = f :: r ∧
    r.length < 15 ∧ s.tb.stamps.length < 64 ∧ ptpType (frBody f) = Pm.pdelayReq :=
  ⟨ptpQueued (message Pm.pdelayReq 4 (List.replicate 20 0)), 0, 5, timeFrame (message Pm.pdelayReq 4 (List.replicate 20 0)), [],
   tidy_of_check (by decide +kernel), by decide +kernel⟩

theorem wit_SourceChangesFollowRank_2_1 : ∃ (s : State) (dt : Nat) (src : Nat) (a : Nat), src ≤ 3 ∧ src ≠ 1 ∧ s.tidy ∧
    (s.src src).lastAt = some a ∧ a + s.srcTimeout src ≤ s.clk.counter + dt ∧ s.tb.source = src + 1 ∧ (s.tb.quality = .locked ∨
    s.tb.quality = .relocking) :=
  ⟨{ heard with tb := { heard.tb with source := 4, quality := .locked } }, 100 * tickS, 3, 100 * tickS - 1, by decide +kernel,
   by decide +kernel, tidy_of_check (by decide +kernel), by decide +kernel⟩

theorem wit_PpsOutAndTheErrorBound_4_1 : ∃ (s : State) (dt : Nat), s.pwr.inReset = false ∧
    (s.elapse dt).due T.errEst tickMs = true ∧ s.tb.quality = .holdover ∧
    s.reg F.TB_THRESH_FREE_THRESH * 1000 < (s.elapse dt).errBound :=
  ⟨{ pulsing with tb := { pulsing.tb with quality := .holdover, err0 := 10000000 } }, tickMs, by decide +kernel⟩

theorem wit_PpsOutAndTheErrorBound_4_2 : ∃ (s : State) (dt : Nat), s.pwr.inReset = false ∧
    (s.elapse dt).due T.errEst tickMs = true ∧ s.tb.quality = .holdover ∧
    ¬ s.reg F.TB_THRESH_FREE_THRESH * 1000 < (s.elapse dt).errBound :=
  ⟨{ pulsing with tb := { pulsing.tb with quality := .holdover, err0 := 0 } }, tickMs, by decide +kernel⟩

theorem wit_AlarmsArmAndFire_2_1 : ∃ (s : State) (dt : Nat) (n : Nat), n ≤ 31 ∧ s.tidy ∧
    (tget s.tb.alarms Alarm.reset n).armed = true ∧ s.pwr.state ≠ .safeHold ∧
    (tget s.tb.alarms Alarm.reset n).time ≤ (s.elapse dt).now ∧
    (let tick := (s.elapse dt).tickOf (tget s.tb.alarms Alarm.reset n).time; (∀ l ∈ s.tb.launches, l.time ≤ (s.elapse dt).now →
    tick < (s.elapse dt).launchTick l) ∧ (∀ p ∈ s.tb.periodic, p.time ≤ (s.elapse dt).now →
    tick < (s.elapse dt).tickOf p.time) ∧ s.reg F.TB_ALARM_PERIOD_PERIOD n = 0) := by
  refine ⟨{ live with tb := { live.tb with alarms := [(31, ⟨true, 0⟩)] } }, 0, 31, ?_, tidy_of_check (by decide +kernel), ?_, ?_,
     ?_, ?_⟩ <;>
  decide +kernel

theorem wit_AlarmsArmAndFire_2_2 : ∃ (s : State) (dt : Nat) (n : Nat), n ≤ 31 ∧ s.tidy ∧
    (tget s.tb.alarms Alarm.reset n).armed = true ∧ s.pwr.state ≠ .safeHold ∧
    (tget s.tb.alarms Alarm.reset n).time ≤ (s.elapse dt).now ∧
    (let tick := (s.elapse dt).tickOf (tget s.tb.alarms Alarm.reset n).time; (∀ l ∈ s.tb.launches, l.time ≤ (s.elapse dt).now →
    tick < (s.elapse dt).launchTick l) ∧ (∀ p ∈ s.tb.periodic, p.time ≤ (s.elapse dt).now →
    tick < (s.elapse dt).tickOf p.time) ∧ s.reg F.TB_ALARM_PERIOD_PERIOD n ≠ 0) := by
  refine ⟨withReg F.TB_ALARM_PERIOD_PERIOD 31 1 { live with tb := { live.tb with alarms := [(31, ⟨true, 0⟩)] } }, 0, 31, ?_,
     tidy_of_check (by decide +kernel), ?_, ?_, ?_, ?_⟩ <;>
  decide +kernel

theorem wit_NopCompletesOk_1 : ∃ (s : State) (ring : Nat) (index : Nat) (d : Desc), s.offers ring index 0x0B03 d :=
  ⟨offer (descOf 0x0B03), 3, 0, descOf 0x0B03, ⟨by decide +kernel, by decide +kernel, by decide +kernel⟩⟩

theorem wit_NopCompletesOk_1_1 : ∃ (s : State) (ring : Nat) (index : Nat) (d : Desc), s.offers ring index 0x0B03 d ∧
    ordered ring = true :=
  ⟨offer (descOf 0x0B03 [] 0 0), 0, 0, descOf 0x0B03 [] 0 0, ⟨by decide +kernel, by decide +kernel, by decide +kernel⟩,
   by decide +kernel⟩

/-- A descriptor of ring 63, slot 7, that waits for its launch time, and a cancel of it. -/
def launched : Desc := { descOf 0x0B03 [] 0 63 with index := 7, phase := .launched }
def cancel : Desc := descOf opLaunchCancel [63, 0, 7, 0, 7, 0, 0, 0]
def cancelling : State :=
  { live with hst := { live.hst with
      rings := [(3, { Ring.reset with state := .running }), (63, { Ring.reset with state := .running })]
      taken := [cancel, launched] } }

/-- A commit of ring 1 that waits for its launch time, and a cancel of slot 0, tag 7. -/
def pendingCommit : PendingCommit := ⟨1, 0, 7, 1, Conf.empty, false, []⟩
def withCommit : State := { live with tb := { live.tb with launches := [⟨0, .commit pendingCommit, false⟩] } }
def cancelCommit : Desc := descOf opLaunchCancel [1, 0, 0, 0, 7, 0, 0, 0] 0 1

theorem wit_LaunchEntriesAreWithdrawnAndFire_1 : ∃ (s : State) (ring : Nat) (index : Nat) (d : Desc),
    s.offers ring index opLaunchCancel d ∧ ∃ e, e ∈ s.hst.taken ∧ 3 ≤ ring ∧ d.operand 0 1 = e.ring ∧ d.operand 2 2 = e.index ∧
    d.operand 4 4 = e.tag ∧ e.phase = .launched ∧ e.silent = false ∧ 3 ≤ e.ring ∧ e.ring < 64 ∧
    (s.ring e.ring).state ≠ .disabled ∧ (∀ x ∈ s.hst.taken, x.is e.ring e.index = true → x.phase = .launched → x.tag = e.tag →
    x = e) :=
  ⟨cancelling, 3, 0, cancel, ⟨by decide +kernel, by decide +kernel, by decide +kernel⟩, launched, by decide +kernel⟩

theorem wit_LaunchEntriesAreWithdrawnAndFire_2 : ∃ (s : State) (ring : Nat) (index : Nat) (d : Desc),
    s.offers ring index opLaunchCancel d ∧ 3 ≤ ring ∧ 3 ≤ d.operand 0 1 ∧ d.operand 0 1 < 64 ∧ (∀ e ∈ s.hst.taken,
    e.is (d.operand 0 1) (d.operand 2 2) = true → e.phase = .launched → e.tag ≠ d.operand 4 4) :=
  ⟨offer (descOf opLaunchCancel [63, 0, 7, 0, 7, 0, 0, 0]), 3, 0, descOf opLaunchCancel [63, 0, 7, 0, 7, 0, 0, 0],
   ⟨by decide +kernel, by decide +kernel, by decide +kernel⟩, by decide +kernel⟩

theorem wit_LaunchEntriesAreWithdrawnAndFire_3 : ∃ (s : State) (ring : Nat) (index : Nat) (d : Desc),
    s.offers ring index opLaunchCancel d ∧ ((ring = 1 ∧ d.operand 0 1 ≠ 1) ∨ (3 ≤ ring ∧ (d.operand 0 1 < 3 ∨
    64 ≤ d.operand 0 1))) :=
  ⟨offer (descOf opLaunchCancel [2] 0 1), 1, 0, descOf opLaunchCancel [2] 0 1, ⟨by decide +kernel, by decide +kernel,
   by decide +kernel⟩, by decide +kernel⟩

theorem wit_LaunchEntriesAreWithdrawnAndFire_3b : ∃ (s : State) (ring : Nat) (index : Nat) (d : Desc),
    s.offers ring index opLaunchCancel d ∧ ((ring = 1 ∧ d.operand 0 1 ≠ 1) ∨ (3 ≤ ring ∧ (d.operand 0 1 < 3 ∨
    64 ≤ d.operand 0 1))) :=
  ⟨offer (descOf opLaunchCancel [64]), 3, 0, descOf opLaunchCancel [64], ⟨by decide +kernel, by decide +kernel,
   by decide +kernel⟩, by decide +kernel⟩

theorem wit_LaunchEntriesAreWithdrawnAndFire_4 : ∃ (s : State) (ring : Nat) (index : Nat) (d : Desc),
    s.offers ring index opLaunchCancel d ∧ ring = 1 ∧ d.operand 0 1 = 1 ∧ ∃ l c, l ∈ s.tb.launches ∧ l.kind = .commit c ∧
    c.index = d.operand 2 2 ∧ c.tag.toNat = d.operand 4 4 :=
  ⟨offer (cancelCommit) (withCommit), 1, 0, cancelCommit, ⟨by decide +kernel, by decide +kernel, by decide +kernel⟩,
   by decide +kernel, by decide +kernel, (⟨0, .commit pendingCommit, false⟩ : Launch), pendingCommit, by decide +kernel⟩

theorem wit_LaunchEntriesAreWithdrawnAndFire_5 : ∃ (s : State) (ring : Nat) (index : Nat) (d : Desc),
    s.offers ring index opLaunchCancel d ∧ ring = 1 ∧ d.operand 0 1 = 1 ∧ (∀ l ∈ s.tb.launches, ∀ c, l.kind = .commit c →
    c.index ≠ d.operand 2 2 ∨ c.tag.toNat ≠ d.operand 4 4) :=
  ⟨offer (cancelCommit), 1, 0, cancelCommit, ⟨by decide +kernel, by decide +kernel, by decide +kernel⟩, by decide +kernel,
   by decide +kernel, (by intro l hl; cases hl)⟩

theorem wit_LaunchEntriesAreWithdrawnAndFire_6 : ∃ (s : State) (dt : Nat) (n : Nat) (l : Launch), s.pwr.state ≠ .safeHold ∧
    (s.elapse dt).dueLaunch (fun k => !k.isCommit) = some l ∧ l.kind = .desc n ∧ (let tick := (s.elapse dt).launchTick l;
    (∀ c ∈ s.tb.launches, c.kind.isCommit = true → c.time ≤ (s.elapse dt).now → tick < (s.elapse dt).launchTick c) ∧
    (∀ p ∈ s.tb.periodic, p.time ≤ (s.elapse dt).now → tick < (s.elapse dt).tickOf p.time)) := by
  refine ⟨{ live with tb := { live.tb with launches := [⟨0, .desc 3, true⟩] } }, 0, 3, ⟨0, .desc 3, true⟩, ?_, ?_, ?_, ?_⟩ <;>
  decide +kernel

/-- Ring `n` runs and its queue holds one descriptor; others of it may be in the device. -/
def queued (n : Nat) (l : List Desc) : State :=
  { live with hst := { live.hst with rings := [(n, { Ring.reset with state := .running, sqTail := 1 })], taken := l } }

/-- A NOP with its launch time far ahead. -/
def laterBytes : List Byte := leBytes 2 0x0B03 ++ leBytes 2 0 ++ leBytes 4 7 ++ leBytes 8 (2 ^ 60) ++ List.replicate 48 0

theorem wit_DoorbellsMoveTailsAndDescriptorsAreTaken_1 : ∃ (s : State) (dt : Nat) (b : List Byte), b.length = 1024 ∧
    s.hst.fault = false ∧ s.pwr.state ≠ .safeHold ∧ (s.elapse dt).due T.doorbell (s.reg F.HST_DB_POLL_INTERVAL * tickUs) = true :=
  ⟨live, 10 * tickS, List.replicate 1024 1, by decide +kernel⟩

theorem wit_DoorbellsMoveTailsAndDescriptorsAreTaken_2 : ∃ (s : State) (ring : Nat) (b : List Byte), b.length = 64 ∧
    s.mayTake ring = true ∧
    (let d : Desc := ⟨s.hst.serial, ring, (s.ring ring).sqHead, b, false, false, none, false, .ready, none, none, false, none⟩;
    s.takeCheck ring d = none ∧ (d.launch = 0 ∨ ordered ring = true)) :=
  ⟨queued 63 [], 63, (descOf 0x0B03).bytes, by decide +kernel, by decide +kernel, by decide +kernel⟩

theorem wit_DoorbellsMoveTailsAndDescriptorsAreTaken_4 : ∃ (s : State) (dt : Nat) (ring : Nat) (b : List Byte), b.length = 64 ∧
    s.mayTake ring = true ∧
    (let d : Desc := ⟨s.hst.serial, ring, (s.ring ring).sqHead, b, false, false, none, false, .ready, none, none, false, none⟩;
    s.takeCheck ring d = none ∧ ordered ring = false ∧ (s.elapse dt).now < d.launch ∧ s.launchRoom = true) :=
  ⟨queued 63 [], 0, 63, laterBytes, by decide +kernel, by decide +kernel, by decide +kernel⟩

theorem wit_DoorbellsMoveTailsAndDescriptorsAreTaken_3 : ∃ (s : State) (dt : Nat) (ring : Nat) (b : List Byte), b.length = 64 ∧
    s.mayTake ring = true ∧
    (let d : Desc := ⟨s.hst.serial, ring, (s.ring ring).sqHead, b, false, false, none, false, .ready, none, none, false, none⟩;
    s.takeCheck ring d = none ∧ ordered ring = false ∧ d.launch ≠ 0 ∧ d.launch ≤ (s.elapse dt).now) :=
  ⟨queued 63 [], tickS, 63, leBytes 2 0x0B03 ++ leBytes 2 0 ++ leBytes 4 7 ++ leBytes 8 1 ++ List.replicate 48 0,
   by decide +kernel, by decide +kernel, by decide +kernel⟩

theorem wit_DoorbellsMoveTailsAndDescriptorsAreTaken_5 : ∃ (s : State) (dt : Nat) (ring : Nat) (b : List Byte), b.length = 64 ∧
    s.mayTake ring = true ∧
    (let d : Desc := ⟨s.hst.serial, ring, (s.ring ring).sqHead, b, false, false, none, false, .ready, none, none, false, none⟩;
    s.takeCheck ring d = none ∧ ordered ring = false ∧ (s.elapse dt).now < d.launch ∧ s.launchRoom = false) :=
  ⟨{ queued 63 [] with tb := { live.tb with launches := List.replicate 248 ⟨0, .desc 0, false⟩ } }, 0, 63, laterBytes,
   by decide +kernel, by decide +kernel, by decide +kernel⟩

theorem wit_DoorbellsMoveTailsAndDescriptorsAreTaken_6 : ∃ (s : State) (ring : Nat) (b : List Byte), b.length = 64 ∧
    s.mayTake ring = true ∧
    (let d : Desc := ⟨s.hst.serial, ring, (s.ring ring).sqHead, b, false, false, none, false, .ready, none, none, false, none⟩;
    ∃ st, s.takeCheck ring d = some st ∧ (ordered ring = false ∨ s.takenOf ring = [])) :=
  ⟨queued 63 [], 63, (descOf 0xFFFF).bytes, by decide +kernel, by decide +kernel, St.badDesc, by decide +kernel⟩

theorem wit_DoorbellsMoveTailsAndDescriptorsAreTaken_1_1 : ∃ (s : State) (dt : Nat) (b : List Byte), b.length = 1024 ∧
    s.hst.fault = false ∧ s.pwr.state ≠ .safeHold ∧
    (s.elapse dt).due T.doorbell (s.reg F.HST_DB_POLL_INTERVAL * tickUs) = true ∧ ∃ n, n < 64 ∧ (s.ring n).state = .disabled := by
  refine ⟨live, 10 * tickS, List.replicate 1024 1, ?_, ?_, ?_, ?_, 63, ?_⟩ <;>
  decide +kernel

theorem wit_DoorbellsMoveTailsAndDescriptorsAreTaken_7 : ∃ (s : State) (ring : Nat) (b : List Byte), b.length = 64 ∧
    s.mayTake ring = true ∧
    (let d : Desc := ⟨s.hst.serial, ring, (s.ring ring).sqHead, b, false, false, none, false, .ready, none, none, false, none⟩;
    ∃ st, s.takeCheck ring d = some st ∧ ordered ring = true ∧ s.takenOf ring ≠ [] ∧
    (s.takenOf ring).head?.bind Desc.verdict = none) :=
  ⟨queued 2 [descOf 0x0B03 [] 0 2], 2, (descOf 0x0805).bytes, by decide +kernel, by decide +kernel, St.badDesc,
   by decide +kernel⟩

/-- The host has set the bases of the doorbell and the shadow block. -/
def based : State :=
  { live with hst := { live.hst with bases := [(F.HST_DB_BASE_LO_ADDR.base, 64), (F.HST_SHADOW_BASE_LO_ADDR.base, 64)] } }

theorem wit_RingsAreEnabledDrainedAndModerated_1 : ∃ (s : State) (n : Nat) (v : Word), s.mayEnable n = true ∧ v.getLsbD 0 = true :=
  ⟨based, 63, 1, by decide +kernel⟩

theorem wit_RingsAreEnabledDrainedAndModerated_1_2 : ∃ (s : State) (n : Nat) (v : Word), s.mayEnable n = true ∧
    v.getLsbD 0 = true ∧ s.pwr.state = .recovery :=
  ⟨{ based with pwr := { based.pwr with state := .recovery } }, 2, 1, by decide +kernel⟩

theorem wit_RingsAreEnabledDrainedAndModerated_1_3 : ∃ (s : State) (n : Nat) (v : Word), s.mayEnable n = true ∧
    v.getLsbD 0 = true ∧ s.tidy ∧ s.pwr.state = .recovery :=
  ⟨{ based with pwr := { based.pwr with state := .recovery } }, 2, 1, by decide +kernel, by decide +kernel,
   tidy_of_check (by decide +kernel), by decide +kernel⟩

theorem wit_RingsAreEnabledDrainedAndModerated_5 : ∃ (s : State) (n : Nat), ((s.ring n).uncounted = 0 ∨
    s.reg F.HST_RING_CTRL_MOD_TIME n = 0 ∨ s.reg F.HST_RING_CTRL_MOD_COUNT n = 0) :=
  ⟨live, 63, .inl (by decide +kernel)⟩

theorem wit_RingsAreEnabledDrainedAndModerated_2_1 : ∃ (s : State) (n : Nat) (v : Word), n < 64 ∧ v.getLsbD 0 = false ∧
    s.pwr.state ≠ .safeHold ∧ s.hst.fault = false ∧ ((s.ring n).state = .running ∨ (s.ring n).state = .halted) :=
  ⟨queued 63 [], 63, 0, by decide +kernel⟩

theorem wit_RingsAreEnabledDrainedAndModerated_2 : ∃ (s : State) (n : Nat) (v : Word), n < 64 ∧ v.getLsbD 0 = false ∧
    s.pwr.state ≠ .safeHold ∧ s.hst.fault = false ∧ ((s.ring n).state = .running ∨ (s.ring n).state = .halted) :=
  ⟨queued 63 [], 63, 0, by decide +kernel⟩

theorem wit_RingsAreEnabledDrainedAndModerated_3 : ∃ (s : State) (n : Nat), s.tidy ∧ (s.ring n).state = .stopping ∧
    s.inflight n = 0 :=
  ⟨{ live with hst := { live.hst with rings := [(63, { Ring.reset with state := .stopping })] } }, 63,
   tidy_of_check (by decide +kernel), by decide +kernel⟩

theorem wit_RingsAreEnabledDrainedAndModerated_4 : ∃ (s : State) (dt : Nat) (n : Nat), s.tidy ∧ (s.ring n).uncounted ≠ 0 ∧
    s.reg F.HST_RING_CTRL_MOD_TIME n ≠ 0 ∧ s.reg F.HST_RING_CTRL_MOD_COUNT n ≠ 0 ∧
    (s.ring n).oldestAt + s.reg F.HST_RING_CTRL_MOD_TIME n * 8 * tickUs ≤ s.clk.counter + dt :=
  ⟨withReg F.HST_RING_CTRL_MOD_TIME 63 1 <| withReg F.HST_RING_CTRL_MOD_COUNT 63 2
    { live with hst := { live.hst with rings := [(63, { Ring.reset with uncounted := 1 })] } },
   tickS, 63, tidy_of_check (by decide +kernel), by decide +kernel⟩

theorem wit_DmaErrorsAreCountedAndAnswered_1 : ∃ (s : State) (phase : Nat) (kind : Nat) (ring : Nat), phase ≤ 5 ∧ 1 ≤ kind ∧
    kind ≤ 4 ∧ ring < 64 ∧ s.hst.fault = false ∧ s.pwr.state ≠ .safeHold :=
  ⟨live, 5, 4, 63, by decide +kernel⟩

theorem wit_DmaErrorsAreCountedAndAnswered_1_8 : ∃ (s : State) (phase : Nat) (kind : Nat) (ring : Nat) (index : Nat),
    phase ≤ 5 ∧ 1 ≤ kind ∧ kind ≤ 4 ∧ ring < 64 ∧ s.hst.fault = false ∧ s.pwr.state ≠ .safeHold ∧ (phase = 1 ∨ phase = 2) ∧ ∃ d,
    d ∈ s.hst.taken ∧ d.is ring index = true ∧ d.phase ≠ .launched ∧ (∀ e ∈ s.hst.taken, e.is ring index = true →
    e.phase ≠ .launched → e = d) ∧ ring < 3 ∧ phase = 1 ∧ d.phase = .ready ∧ d.verdict = none ∧ (∀ h,
    (s.takenOf ring).head? = some h → h.serial ≠ d.serial ∧ h.verdict = none) := by
  refine ⟨queued 2 [{ descOf 0x0B03 [] 0 2 with index := 1, serial := 0 }, descOf 0x0B03 [] 0 2], 1, 4, 2, 0, ?_, ?_, ?_, ?_, ?_, ?_,
     ?_, descOf 0x0B03 [] 0 2, ?_, ?_, ?_, ?_, ?_, ?_, ?_, ?_, (by rintro _ ⟨⟩; decide +kernel)⟩ <;>
  decide +kernel

theorem wit_ResetOfTheFunction_1 : ∃ (dt : Nat) (down : Bool) (c : Instr), ((c = .hstFlr dt ∧ down = false) ∨
    (c = .hstLinkDown dt ∧ down = true)) :=
  ⟨0, false, .hstFlr 0, .inl ⟨rfl, rfl⟩⟩

theorem wit_ResetOfTheFunction_1b : ∃ (dt : Nat) (down : Bool) (c : Instr), ((c = .hstFlr dt ∧ down = false) ∨
    (c = .hstLinkDown dt ∧ down = true)) :=
  ⟨0, true, .hstLinkDown 0, .inr ⟨rfl, rfl⟩⟩

theorem wit_ResetOfTheFunction_2 : ∃ (s : State) (speed : Nat) (width : Nat) (readReq : Nat) (timeout : Nat), 1 ≤ speed ∧
    speed ≤ s.hst.pci.maxSpeed ∧ (width = 1 ∨ width = 2 ∨ width = 4) ∧ readReq ≤ 5 ∧ timeout ∈ [0, 1, 2, 5, 6, 9, 10] :=
  ⟨live, 1, 4, 5, 10, by decide +kernel⟩

theorem wit_ResetOfTheFunction_1_1 : ∃ (s : State) (dt : Nat) (down : Bool) (c : Instr), ((c = .hstFlr dt ∧ down = false) ∨
    (c = .hstLinkDown dt ∧ down = true)) ∧ ∃ d, d ∈ s.hst.taken ∧ s.notStarted d = true :=
  ⟨offer launched, 0, false, .hstFlr 0, .inl ⟨rfl, rfl⟩, launched, by decide +kernel⟩

theorem wit_DoorbellsMoveTailsAndDescriptorsAreTaken_1_2 : ∃ (s : State) (dt : Nat) (b : List Byte), b.length = 1024 ∧
    s.hst.fault = false ∧ s.pwr.state ≠ .safeHold ∧
    (s.elapse dt).due T.doorbell (s.reg F.HST_DB_POLL_INTERVAL * tickUs) = true ∧ ∃ n, n < 64 ∧ (s.ring n).state ≠ .disabled ∧
    fieldLE b (16 * n) 2 < s.ringSize n ∧ fieldLE b (16 * n + 2) 2 < s.ringSize n := by
  refine ⟨queued 63 [], 10 * tickS, List.replicate 1024 0, ?_, ?_, ?_, ?_, 63, ?_⟩ <;>
  decide +kernel

theorem wit_DmaErrorsAreCountedAndAnswered_1_7 : ∃ (s : State) (phase : Nat) (kind : Nat) (ring : Nat) (index : Nat),
    phase ≤ 5 ∧ 1 ≤ kind ∧ kind ≤ 4 ∧ ring < 64 ∧ s.hst.fault = false ∧ s.pwr.state ≠ .safeHold ∧ (phase = 1 ∨ phase = 2) ∧ ∃ d,
    d ∈ s.hst.taken ∧ d.is ring index = true ∧ d.phase ≠ .launched ∧ (∀ e ∈ s.hst.taken, e.is ring index = true →
    e.phase ≠ .launched → e = d) ∧ (3 ≤ ring ∨ d.phase = .waiting) ∧ d.silent = false ∧ (s.ring ring).state ≠ .disabled := by
  refine ⟨offer { descOf 0x0B03 with ring := 63 }, 1, 4, 63, 0, ?_, ?_, ?_, ?_, ?_, ?_, ?_, { descOf 0x0B03 with ring := 63 }, ?_⟩ <;>
  decide +kernel

theorem wit_DmaErrorsAreCountedAndAnswered_1_1 : ∃ (s : State) (phase : Nat) (kind : Nat) (ring : Nat), phase ≤ 5 ∧ 1 ≤ kind ∧
    kind ≤ 4 ∧ ring < 64 ∧ s.hst.fault = false ∧ s.pwr.state ≠ .safeHold ∧ phase = 3 :=
  ⟨live, 3, 1, 0, by decide +kernel⟩

theorem wit_DmaErrorsAreCountedAndAnswered_1_4 : ∃ (s : State) (phase : Nat) (kind : Nat) (ring : Nat), phase ≤ 5 ∧ 1 ≤ kind ∧
    kind ≤ 4 ∧ ring < 64 ∧ s.hst.fault = false ∧ s.pwr.state ≠ .safeHold ∧ phase = 4 :=
  ⟨live, 4, 1, 0, by decide +kernel⟩

theorem wit_ResetLeavesBootAndItsReleaseSeedsTheClock_1 : ∃ (s : State) (dt : Nat) (cause : Nat) (c : Instr), ((∃ good vbat,
    c = .powerOnReset dt good vbat ∧ good ≠ 0x3FF ∧ cause = 0) ∨ (c = .porstNFall dt ∧ cause = 1) ∨ (∃ v : Word,
    c = .pwrDeviceReset dt v ∧ v.toNat % 65536 = 0xA5A5 ∧ s.pwr.inReset = false ∧ cause = 2)) :=
  ⟨live, 0, 0, .powerOnReset 0 0x3FE true, .inl ⟨0x3FE, true, rfl, by decide +kernel, rfl⟩⟩

theorem wit_ResetLeavesBootAndItsReleaseSeedsTheClock_1b : ∃ (s : State) (dt : Nat) (cause : Nat) (c : Instr), ((∃ good vbat,
    c = .powerOnReset dt good vbat ∧ good ≠ 0x3FF ∧ cause = 0) ∨ (c = .porstNFall dt ∧ cause = 1) ∨ (∃ v : Word,
    c = .pwrDeviceReset dt v ∧ v.toNat % 65536 = 0xA5A5 ∧ s.pwr.inReset = false ∧ cause = 2)) :=
  ⟨live, 0, 1, .porstNFall 0, .inr (.inl ⟨rfl, rfl⟩)⟩

theorem wit_ResetLeavesBootAndItsReleaseSeedsTheClock_1c : ∃ (s : State) (dt : Nat) (cause : Nat) (c : Instr), ((∃ good vbat,
    c = .powerOnReset dt good vbat ∧ good ≠ 0x3FF ∧ cause = 0) ∨ (c = .porstNFall dt ∧ cause = 1) ∨ (∃ v : Word,
    c = .pwrDeviceReset dt v ∧ v.toNat % 65536 = 0xA5A5 ∧ s.pwr.inReset = false ∧ cause = 2)) :=
  ⟨live, 0, 2, .pwrDeviceReset 0 0xA5A5, .inr (.inr ⟨0xA5A5, rfl, by decide +kernel, by decide +kernel, rfl⟩)⟩

theorem wit_ResetLeavesBootAndItsReleaseSeedsTheClock_2 : ∃ (v : Word), v.toNat % 65536 ≠ 0xA5A5 :=
  ⟨0xA5A6, by decide +kernel⟩

theorem wit_ResetLeavesBootAndItsReleaseSeedsTheClock_4 : ∃ (s : State) (dt : Nat), (s.pwr.inReset = false ∨
    s.pwr.good ≠ 0x3FF ∨ s.clk.counter + dt < s.pwr.goodAt + tickMs) :=
  ⟨live, 0, .inl (by decide +kernel)⟩

theorem wit_ResetLeavesBootAndItsReleaseSeedsTheClock_5 : ∃ (s : State) (dt : Nat), s.pwr.inReset = true ∧ s.pwr.good = 0x3FF ∧
    s.pwr.goodAt + tickMs ≤ s.clk.counter + dt :=
  ⟨{ State.reset with pwr := { Pwr.reset with inReset := true } }, tickMs, by decide +kernel⟩

theorem wit_PowerFailStopsAndFlushes_1 : ∃ (s : State) (dt : Nat), s.pwr.pfailUntil ≤ s.clk.counter + dt ∧ s.pwr.inReset = false :=
  ⟨live, 0, by decide +kernel⟩

theorem wit_PowerFailStopsAndFlushes_2 : ∃ (s : State) (dt : Nat), s.clk.counter + dt < s.pwr.pfailUntil :=
  ⟨{ live with pwr := { live.pwr with pfail := true, pfailUntil := tickMs } }, 0, by decide +kernel⟩

theorem wit_PowerFailStopsAndFlushes_3 : ∃ (s : State) (dt : Nat), s.pwr.pfail = true ∧ s.pwr.inReset = false ∧
    s.pwr.pfailUntil + 100 * tickMs ≤ s.clk.counter + dt :=
  ⟨{ live with pwr := { live.pwr with pfail := true } }, 100 * tickMs, by decide +kernel⟩

theorem wit_PowerFailStopsAndFlushes_4 : ∃ (s : State) (dt : Nat), (s.pwr.pfail = false ∨
    s.clk.counter + dt < s.pwr.pfailUntil + 100 * tickMs) :=
  ⟨live, 0, .inl (by decide +kernel)⟩

theorem wit_SensorsAndSupplyAreReported_1 : ∃ (s : State) (dt : Nat) (ps : Nat), s.pwr.inReset = false ∧
    (s.elapse dt).due T.stageMon (10 * tickUs) = true ∧ ps ≤ 4095 :=
  ⟨live, 10 * tickUs, 4095, by decide +kernel⟩

theorem wit_SensorsAndSupplyAreReported_2 : ∃ (s : State) (tj : Int), s.pwr.inReset = false ∧ -2048 ≤ tj ∧ tj ≤ 2047 :=
  ⟨live, -2048, by decide +kernel⟩

/-- A commit of the running device under check, and what it keeps. -/
def undone : Undo :=
  { state := .waitHost, named := 1, active := Conf.empty, units := 0, generation := 0, fld := live.fld, sec := live.sec, gns := live.gns
    mir := live.mir, fix := live.fix, hop := live.hop, fab := live.fab, link := [], training := false, recorderNext := 1, store := []
    storing := [] }
def checking : State := { live with undo := some undone, cfg := { live.cfg with busyUntil := 1 } }

theorem wit_FatalCausesHoldTheDeviceSafe_1 : ∃ (s : State) (dt : Nat) (cause : Nat) (c : Instr), (s.pwr.state = .waitHost ∨
    s.pwr.state = .run) ∧ s.pwr.inReset = false ∧ s.pwr.causes = 0 ∧ ((c = .stageSlowFatal dt ∧ cause = 4 ∧ (∃ a,
    s.pwr.slowSince = some a ∧ a + tickMs ≤ s.clk.counter + dt)) ∨ (c = .dieLinkFail dt ∧ cause = 5) ∨ ((∃ b,
    c = .stpOutMismatch dt b) ∧ cause = 6) ∨ (c = .securityCoreFault dt ∧ cause = 7)) :=
  ⟨{ live with pwr := { live.pwr with slowSince := some 0 } }, tickMs, 4, .stageSlowFatal tickMs, by decide +kernel,
   by decide +kernel, by decide +kernel, .inl ⟨rfl, rfl, 0, by decide +kernel, by decide +kernel⟩⟩

theorem wit_FatalCausesHoldTheDeviceSafe_1b : ∃ (s : State) (dt : Nat) (cause : Nat) (c : Instr), (s.pwr.state = .waitHost ∨
    s.pwr.state = .run) ∧ s.pwr.inReset = false ∧ s.pwr.causes = 0 ∧ ((c = .stageSlowFatal dt ∧ cause = 4 ∧ (∃ a,
    s.pwr.slowSince = some a ∧ a + tickMs ≤ s.clk.counter + dt)) ∨ (c = .dieLinkFail dt ∧ cause = 5) ∨ ((∃ b,
    c = .stpOutMismatch dt b) ∧ cause = 6) ∨ (c = .securityCoreFault dt ∧ cause = 7)) :=
  ⟨live, 0, 5, .dieLinkFail 0, by decide +kernel, by decide +kernel, by decide +kernel, .inr (.inl ⟨rfl, rfl⟩)⟩

theorem wit_FatalCausesHoldTheDeviceSafe_1c : ∃ (s : State) (dt : Nat) (cause : Nat) (c : Instr), (s.pwr.state = .waitHost ∨
    s.pwr.state = .run) ∧ s.pwr.inReset = false ∧ s.pwr.causes = 0 ∧ ((c = .stageSlowFatal dt ∧ cause = 4 ∧ (∃ a,
    s.pwr.slowSince = some a ∧ a + tickMs ≤ s.clk.counter + dt)) ∨ (c = .dieLinkFail dt ∧ cause = 5) ∨ ((∃ b,
    c = .stpOutMismatch dt b) ∧ cause = 6) ∨ (c = .securityCoreFault dt ∧ cause = 7)) :=
  ⟨live, 0, 6, .stpOutMismatch 0 true, by decide +kernel, by decide +kernel, by decide +kernel,
   .inr (.inr (.inl ⟨⟨true, rfl⟩, rfl⟩))⟩

theorem wit_FatalCausesHoldTheDeviceSafe_1_1 : ∃ (s : State) (dt : Nat) (cause : Nat) (c : Instr), (s.pwr.state = .waitHost ∨
    s.pwr.state = .run) ∧ s.pwr.inReset = false ∧ s.pwr.causes = 0 ∧ ((c = .stageSlowFatal dt ∧ cause = 4 ∧ (∃ a,
    s.pwr.slowSince = some a ∧ a + tickMs ≤ s.clk.counter + dt)) ∨ (c = .dieLinkFail dt ∧ cause = 5) ∨ ((∃ b,
    c = .stpOutMismatch dt b) ∧ cause = 6) ∨ (c = .securityCoreFault dt ∧ cause = 7)) ∧ (s.undo = none ∨
    s.cfg.busyUntil ≤ s.clk.counter + dt) :=
  ⟨live, 0, 5, .dieLinkFail 0, by decide +kernel, by decide +kernel, by decide +kernel, .inr (.inl ⟨rfl, rfl⟩),
   .inl (by decide +kernel)⟩

theorem wit_FatalCausesHoldTheDeviceSafe_1_2 : ∃ (s : State) (dt : Nat) (cause : Nat) (c : Instr), (s.pwr.state = .waitHost ∨
    s.pwr.state = .run) ∧ s.pwr.inReset = false ∧ s.pwr.causes = 0 ∧ ((c = .stageSlowFatal dt ∧ cause = 4 ∧ (∃ a,
    s.pwr.slowSince = some a ∧ a + tickMs ≤ s.clk.counter + dt)) ∨ (c = .dieLinkFail dt ∧ cause = 5) ∨ ((∃ b,
    c = .stpOutMismatch dt b) ∧ cause = 6) ∨ (c = .securityCoreFault dt ∧ cause = 7)) ∧ ∃ u, s.undo = some u ∧
    s.clk.counter + dt < s.cfg.busyUntil := by
  refine ⟨checking, 0, 5, .dieLinkFail 0, ?_, ?_, ?_, .inr (.inl ⟨rfl, rfl⟩), undone, ?_⟩ <;>
  decide +kernel

theorem wit_FatalCausesHoldTheDeviceSafe_1d : ∃ (s : State) (dt : Nat) (cause : Nat) (c : Instr), (s.pwr.state = .waitHost ∨
    s.pwr.state = .run) ∧ s.pwr.inReset = false ∧ s.pwr.causes = 0 ∧ ((c = .stageSlowFatal dt ∧ cause = 4 ∧ (∃ a,
    s.pwr.slowSince = some a ∧ a + tickMs ≤ s.clk.counter + dt)) ∨ (c = .dieLinkFail dt ∧ cause = 5) ∨ ((∃ b,
    c = .stpOutMismatch dt b) ∧ cause = 6) ∨ (c = .securityCoreFault dt ∧ cause = 7)) :=
  ⟨live, 0, 7, .securityCoreFault 0, by decide +kernel, by decide +kernel, by decide +kernel, .inr (.inr (.inr ⟨rfl, rfl⟩))⟩

theorem wit_StopPinsAndRingLatch_1 : ∃ (s : State) (b : Bool), s.pwr.inReset = false ∧
    (if b then s.stp.pinB else s.stp.pinA) = false :=
  ⟨live, true, by decide +kernel⟩

theorem wit_StopPinsAndRingLatch_2 : ∃ (s : State) (b : Bool), (if b then s.stp.pinB else s.stp.pinA) = true :=
  ⟨{ live with stp := { live.stp with pinA := true } }, false, by decide +kernel⟩

theorem wit_StopPinsAndRingLatch_3 : ∃ (s : State) (b : Bool) (level : Bool), (if b then s.stp.pinB else s.stp.pinA) = level :=
  ⟨live, true, false, by decide +kernel⟩

theorem wit_StopPinsAndRingLatch_4 : ∃ (s : State) (ring : Nat) (index : Nat) (d : Desc), s.offers ring index opStpStop d ∧
    d.operand 0 1 ≤ 1 :=
  ⟨offer (descOf opStpStop [1]), 3, 0, descOf opStpStop [1], ⟨by decide +kernel, by decide +kernel, by decide +kernel⟩,
   by decide +kernel⟩

theorem wit_PinFaultAndOutputTest_1 : ∃ (s : State) (dt : Nat) (a : Nat), s.stp.disagreeAt = some a ∧ s.pwr.inReset = false ∧
    a + s.reg F.STP_PIN_DISAGREE * tickMs ≤ s.clk.counter + dt :=
  ⟨{ live with stp := { live.stp with disagreeAt := some 0 } }, tickS, 0, by decide +kernel⟩

theorem wit_PinFaultAndOutputTest_2 : ∃ (s : State) (dt : Nat) (b : Bool), s.reg F.STP_SELFTEST_EN ≠ 0 ∧
    s.outStopped b = false ∧ s.tested b + s.reg F.STP_SELFTEST_PERIOD * tickS ≤ s.clk.counter + dt ∧
    (if b then s.stp.padB else s.stp.padA) = none :=
  ⟨withReg F.STP_SELFTEST_EN 0 1 live, 10000 * tickS, true, by decide +kernel⟩

theorem wit_PinFaultAndOutputTest_3 : ∃ (s : State) (dt : Nat) (a : Nat) (b : Bool), s.pulse b = some a ∧
    a + s.reg F.STP_SELFTEST_PULSE * tickUs ≤ s.clk.counter + dt :=
  ⟨{ live with stp := { live.stp with pulseB := some 0 } }, tickS, 0, true, by decide +kernel⟩

theorem wit_PinFaultAndOutputTest_3_1 : ∃ (s : State) (dt : Nat) (a : Nat) (b : Bool) (good : Bool), s.pulse b = some a ∧
    a + s.reg F.STP_SELFTEST_PULSE * tickUs ≤ s.clk.counter + dt ∧ (good = true ∨ s.reg F.STP_SELFTEST_PULSE ≤ 30) :=
  ⟨withReg F.STP_SELFTEST_PULSE 0 30 { live with stp := { live.stp with pulseB := some 0 } }, tickS, 0, true, false,
   by decide +kernel⟩

theorem wit_PinFaultAndOutputTest_3_3 : ∃ (s : State) (dt : Nat) (a : Nat) (b : Bool) (good : Bool), s.pulse b = some a ∧
    a + s.reg F.STP_SELFTEST_PULSE * tickUs ≤ s.clk.counter + dt ∧ good = false ∧ 30 < s.reg F.STP_SELFTEST_PULSE ∧
    s.pwr.state = .run ∧ s.pwr.causes = 0 :=
  ⟨withReg F.STP_SELFTEST_PULSE 0 31 { live with stp := { live.stp with pulseB := some 0 } }, tickS, 0, true, false,
   by decide +kernel⟩

/-- In RUN, with the latch set and both pins at run; and with the release armed at the start. -/
def stopped : State := { live with stp := Stp.reset }
def armed : State := { stopped with stp := { Stp.reset with armed := some 0 } }

theorem wit_ReleaseNeedsArmAndConfirm_1 : ∃ (s : State) (ring : Nat) (index : Nat) (d : Desc), s.offers ring index opStpArm d ∧
    (let clear := bit (d.operand 0 1) 0; s.pwr.state = .run ∧ s.stp.latched = true ∧ s.stp.pinA = false ∧ s.stp.pinB = false ∧
    (s.stp.pinFault = false ∨ clear = true)) :=
  ⟨offer (descOf opStpArm) (stopped), 3, 0, descOf opStpArm, ⟨by decide +kernel, by decide +kernel, by decide +kernel⟩,
   by decide +kernel⟩

theorem wit_ReleaseNeedsArmAndConfirm_2 : ∃ (s : State) (ring : Nat) (index : Nat) (d : Desc), s.offers ring index opStpArm d ∧
    (let clear := bit (d.operand 0 1) 0; ∃ st,
    st = (if s.pwr.state ≠ .run then St.state else if s.stp.latched = false then St.notLatched else St.pins) ∧
    (s.pwr.state ≠ .run ∨ s.stp.latched = false ∨ s.stp.pinA = true ∨ s.stp.pinB = true ∨ (s.stp.pinFault = true ∧
    clear = false))) :=
  ⟨offer (descOf opStpArm) (live), 3, 0, descOf opStpArm, ⟨by decide +kernel, by decide +kernel, by decide +kernel⟩,
   St.notLatched, by decide +kernel⟩

theorem wit_ReleaseNeedsArmAndConfirm_3 : ∃ (s : State) (dt : Nat) (ring : Nat) (index : Nat) (a : Nat) (d : Desc),
    s.offers ring index opStpConfirm d ∧ s.pwr.state = .run ∧ s.stp.latched = true ∧ s.stp.armed = some a ∧
    (let early := s.clk.counter + dt < a + s.reg F.STP_RELEASE_GAP * tickMs;
    (let late := a + s.reg F.STP_RELEASE_WINDOW * tickS < s.clk.counter + dt; ¬ early ∧ ¬ late ∧ s.stp.pinA = false ∧
    s.stp.pinB = false ∧ s.stp.pinFault = false)) := by
  refine ⟨offer (descOf opStpConfirm) armed, 2 * tickS, 3, 0, 0, descOf opStpConfirm, ⟨by decide +kernel, by decide +kernel,
     by decide +kernel⟩, ?_, ?_, ?_, ?_⟩ <;>
  decide +kernel

theorem wit_ReleaseNeedsArmAndConfirm_4 : ∃ (s : State) (dt : Nat) (ring : Nat) (index : Nat) (a : Nat) (d : Desc),
    s.offers ring index opStpConfirm d ∧ s.pwr.state = .run ∧ s.stp.latched = true ∧ s.stp.armed = some a ∧
    (let early := s.clk.counter + dt < a + s.reg F.STP_RELEASE_GAP * tickMs;
    (let late := a + s.reg F.STP_RELEASE_WINDOW * tickS < s.clk.counter + dt; (early ∨ late ∨ s.stp.pinA = true ∨
    s.stp.pinB = true ∨ s.stp.pinFault = true))) := by
  refine ⟨offer (descOf opStpConfirm) armed, 0, 3, 0, 0, descOf opStpConfirm, ⟨by decide +kernel, by decide +kernel,
     by decide +kernel⟩, ?_, ?_, ?_, ?_⟩ <;>
  decide +kernel

theorem wit_ReleaseNeedsArmAndConfirm_4b : ∃ (s : State) (dt : Nat) (ring : Nat) (index : Nat) (a : Nat) (d : Desc),
    s.offers ring index opStpConfirm d ∧ s.pwr.state = .run ∧ s.stp.latched = true ∧ s.stp.armed = some a ∧
    (let early := s.clk.counter + dt < a + s.reg F.STP_RELEASE_GAP * tickMs;
    (let late := a + s.reg F.STP_RELEASE_WINDOW * tickS < s.clk.counter + dt; (early ∨ late ∨ s.stp.pinA = true ∨
    s.stp.pinB = true ∨ s.stp.pinFault = true))) := by
  refine ⟨offer (descOf opStpConfirm) armed, 1000 * tickS, 3, 0, 0, descOf opStpConfirm, ⟨by decide +kernel, by decide +kernel,
     by decide +kernel⟩, ?_, ?_, ?_, ?_⟩ <;>
  decide +kernel

theorem wit_ReleaseNeedsArmAndConfirm_5 : ∃ (s : State) (dt : Nat) (a : Nat), s.stp.armed = some a ∧
    a + s.reg F.STP_RELEASE_WINDOW * tickS ≤ s.clk.counter + dt :=
  ⟨armed, 1000 * tickS, 0, by decide +kernel⟩

/-- Machine 255 is joined on radio port 3. -/
def joinedHop : Hop := { live.hop with machines := [(255, ⟨.joined, 0, 3, none⟩)] }

theorem wit_ReEnableSetsTheMachinesBit_1 : ∃ (s : State) (ring : Nat) (index : Nat) (d : Desc),
    s.offers ring index opStpReEnable d ∧ s.pwr.state = .run ∧ s.stp.latched = false ∧ bit (d.operand 1 1) 0 = false ∧
    s.joined (d.operand 0 1) = true :=
  ⟨offer (descOf opStpReEnable [255]) ({ live with hop := joinedHop }), 3, 0, descOf opStpReEnable [255], ⟨by decide +kernel,
   by decide +kernel, by decide +kernel⟩, by decide +kernel⟩

theorem wit_ReEnableSetsTheMachinesBit_2 : ∃ (s : State) (ring : Nat) (index : Nat) (d : Desc),
    s.offers ring index opStpReEnable d ∧ s.pwr.state = .run ∧ (s.stp.latched = true ∨ (bit (d.operand 1 1) 0 = false ∧
    s.joined (d.operand 0 1) = false)) :=
  ⟨offer (descOf opStpReEnable [255]) (stopped), 3, 0, descOf opStpReEnable [255], ⟨by decide +kernel, by decide +kernel,
   by decide +kernel⟩, by decide +kernel, .inl (by decide +kernel)⟩

theorem wit_ReEnableSetsTheMachinesBit_3 : ∃ (s : State) (ring : Nat) (index : Nat) (d : Desc),
    s.offers ring index opStpReEnable d ∧ s.pwr.state = .run ∧ s.stp.latched = false ∧ bit (d.operand 1 1) 0 = true ∧
    s.stp.stop = false :=
  ⟨offer (descOf opStpReEnable [0, 1]) ({ live with stp := { live.stp with stop := false } }), 3, 0, descOf opStpReEnable [0,
   1], ⟨by decide +kernel, by decide +kernel, by decide +kernel⟩, by decide +kernel⟩

theorem wit_ReEnableSetsTheMachinesBit_4 : ∃ (s : State) (ring : Nat) (index : Nat) (d : Desc),
    s.offers ring index opStpReEnable d ∧ s.pwr.state = .run ∧ s.stp.latched = false ∧ bit (d.operand 1 1) 0 = true ∧
    s.stp.stop = true :=
  ⟨offer (descOf opStpReEnable [0, 1]) ({ live with stp := { live.stp with stop := true } }), 3, 0, descOf opStpReEnable [0, 1],
   ⟨by decide +kernel, by decide +kernel, by decide +kernel⟩, by decide +kernel⟩

theorem wit_ReEnableSetsTheMachinesBit_3_1 : ∃ (s : State) (ring : Nat) (index : Nat) (d : Desc),
    s.offers ring index opStpReEnable d ∧ s.pwr.state = .run ∧ s.stp.latched = false ∧ bit (d.operand 1 1) 0 = true ∧
    s.stp.stop = false ∧ ∃ w, w < s.machines ∧ s.joined w = true := by
  refine ⟨offer (descOf opStpReEnable [0, 1]) ({ live with hop := joinedHop, stp := { live.stp with stop := false } }), 3, 0,
     descOf opStpReEnable [0, 1], ⟨by decide +kernel, by decide +kernel, by decide +kernel⟩, ?_, ?_, ?_, ?_, 255, ?_⟩ <;>
  decide +kernel

theorem wit_EventsBecomeRecordsAndAreFlushed_1 : ∃ (s : State) (dt : Nat) (i : Nat) (e : QEvent) (rest : List QEvent),
    s.crn.fault = false ∧ s.pwr.inReset = false ∧ (s.elapse dt).settleFlush.crn.queue = e :: rest ∧ i < 819 ∧
    tfind (s.elapse dt).settleFlush.crn.buf i = none :=
  ⟨{ live with crn := { live.crn with queue := [⟨8, 3, 0xFF, [], false, 0, 0x80, [1, 1, 1, 0, 0, 0, 0, 0], 0⟩, ⟨384, 2, 0xFF, [], false, 0, 0x80, List.replicate 8 0, 0⟩] } },
   0, 818, ⟨8, 3, 0xFF, [], false, 0, 0x80, [1, 1, 1, 0, 0, 0, 0, 0], 0⟩, [⟨384, 2, 0xFF, [], false, 0, 0x80,
   List.replicate 8 0, 0⟩], by decide +kernel⟩

theorem wit_EventsBecomeRecordsAndAreFlushed_1_1 : ∃ (s : State) (dt : Nat) (i : Nat) (e : QEvent) (rest : List QEvent),
    s.crn.fault = false ∧ s.pwr.inReset = false ∧ (s.elapse dt).settleFlush.crn.queue = e :: rest ∧ i < 819 ∧
    tfind (s.elapse dt).settleFlush.crn.buf i = none :=
  ⟨{ live with crn := { live.crn with queue := [⟨8, 3, 0xFF, [], false, 0, 0x80, [1, 1, 1, 0, 0, 0, 0, 0], 0⟩, ⟨384, 2, 0xFF, [], false, 0, 0x80, List.replicate 8 0, 0⟩] } },
   0, 818, ⟨8, 3, 0xFF, [], false, 0, 0x80, [1, 1, 1, 0, 0, 0, 0, 0], 0⟩, [⟨384, 2, 0xFF, [], false, 0, 0x80,
   List.replicate 8 0, 0⟩], by decide +kernel⟩

theorem wit_EventsBecomeRecordsAndAreFlushed_1_2 : ∃ (s : State) (dt : Nat) (i : Nat) (e : QEvent) (rest : List QEvent),
    s.crn.fault = false ∧ s.pwr.inReset = false ∧ (s.elapse dt).settleFlush.crn.queue = e :: rest ∧ i < 819 ∧
    tfind (s.elapse dt).settleFlush.crn.buf i = none ∧ (e.flush = true ∨ s.pwr.state = .safeHold) :=
  ⟨{ { live with pwr := { live.pwr with state := .safeHold } } with crn := { live.crn with queue := [⟨8, 3, 0xFF, [], false, 0, 0x80, [1, 1, 1, 0, 0, 0, 0, 0], 0⟩, ⟨384, 2, 0xFF, [], false, 0, 0x80, List.replicate 8 0, 0⟩] } },
   0, 818, ⟨8, 3, 0xFF, [], false, 0, 0x80, [1, 1, 1, 0, 0, 0, 0, 0], 0⟩, [⟨384, 2, 0xFF, [], false, 0, 0x80,
   List.replicate 8 0, 0⟩], by decide +kernel⟩

theorem wit_EventsBecomeRecordsAndAreFlushed_2 : ∃ (s : State) (ring : Nat) (index : Nat) (d : Desc),
    s.offers ring index opCrnFlush d ∧ s.crn.fault = false :=
  ⟨offer (descOf opCrnFlush), 3, 0, descOf opCrnFlush, ⟨by decide +kernel, by decide +kernel, by decide +kernel⟩,
   by decide +kernel⟩

theorem wit_EventsBecomeRecordsAndAreFlushed_3 : ∃ (s : State) (a : Nat), s.crn.fault = false ∧ s.pwr.inReset = false ∧
    s.crn.flushing = false ∧ s.crn.wantAt = some a :=
  ⟨{ live with crn := { live.crn with wantAt := some 0 } }, 0, by decide +kernel⟩

theorem wit_EventsBecomeRecordsAndAreFlushed_4 : ∃ (s : State), s.tidy ∧ s.crn.fault = false ∧ s.pwr.inReset = false ∧
    s.crn.flushing = true :=
  ⟨{ live with crn := { live.crn with flushing := true } }, tidy_of_check (by decide +kernel), by decide +kernel⟩

theorem wit_RecordsAreReadAndErased_1 : ∃ (s : State) (dt : Nat) (ring : Nat) (index : Nat) (d : Desc) (r : Record) (l : List Record),
    s.offers ring index opCrnRead d ∧ s.crn.fault = false ∧ d.operand 0 1 ≤ 1 ∧ (let u := (s.elapse dt).settleFlush;
    sortBy (fun r => r.seq) (((if d.operand 0 1 = 0 then u.crn.buf else u.nvLog).map fun e => e.2).filter fun r => decide (d.operand 4 4 ≤ r.seq) && decide (d.operand 1 1 ≤ r.severity)) = l ++ [r] ∧
    ((l ++ [r]).map fun r => r.bytes.length).sum ≤ d.len ∧ d.len ≠ 0 ∧ r.bytes ≠ []) :=
  ⟨offer (descOf opCrnRead [0, 0] 64) ({ live with crn := { live.crn with buf := [(0, ⟨4, 1, [1, 2], false, 0⟩), (1, ⟨5, 1, [3, 4], false, 0⟩)] } }),
   0, 3, 0, descOf opCrnRead [0, 0] 64, ⟨5, 1, [3, 4], false, 0⟩, [⟨4, 1, [1, 2], false, 0⟩], ⟨by decide +kernel,
   by decide +kernel, by decide +kernel⟩, by decide +kernel, by decide +kernel, by decide +kernel⟩

theorem wit_RecordsAreReadAndErased_2 : ∃ (s : State) (dt : Nat) (ring : Nat) (index : Nat) (d : Desc) (r : Record) (l : List Record) (rest : List Record),
    s.offers ring index opCrnRead d ∧ s.crn.fault = false ∧ d.operand 0 1 ≤ 1 ∧ (let u := (s.elapse dt).settleFlush;
    sortBy (fun r => r.seq) (((if d.operand 0 1 = 0 then u.crn.buf else u.nvLog).map fun e => e.2).filter fun r => decide (d.operand 4 4 ≤ r.seq) && decide (d.operand 1 1 ≤ r.severity)) = l ++ r :: rest ∧
    (l.map fun r => r.bytes.length).sum ≤ d.len ∧ d.len < (l.map fun r => r.bytes.length).sum + r.bytes.length ∧ d.len ≠ 0 ∧
    (∀ e ∈ l, e.bytes ≠ [])) :=
  ⟨offer (descOf opCrnRead [0, 0] 2) ({ live with crn := { live.crn with buf := [(0, ⟨4, 1, [1, 2], false, 0⟩), (1, ⟨5, 1, [3, 4], false, 0⟩)] } }),
   0, 3, 0, descOf opCrnRead [0, 0] 2, ⟨5, 1, [3, 4], false, 0⟩, [⟨4, 1, [1, 2], false, 0⟩], [], ⟨by decide +kernel,
   by decide +kernel, by decide +kernel⟩, by decide +kernel, by decide +kernel, by decide +kernel⟩

theorem wit_RecordsAreReadAndErased_3 : ∃ (s : State) (ring : Nat) (index : Nat) (d : Desc), s.offers ring index opCrnErase d ∧
    s.crn.fault = false ∧ d.operand 0 1 = 0xC7 :=
  ⟨offer (descOf opCrnErase [0xC7]), 3, 0, descOf opCrnErase [0xC7], ⟨by decide +kernel, by decide +kernel,
   by decide +kernel⟩, by decide +kernel⟩

theorem wit_RecordsAreReadAndErased_4 : ∃ (s : State) (ring : Nat) (index : Nat) (d : Desc), s.offers ring index opCrnErase d ∧
    s.crn.fault = false ∧ d.operand 0 1 ≠ 0xC7 :=
  ⟨offer (descOf opCrnErase [0xC6]), 3, 0, descOf opCrnErase [0xC6], ⟨by decide +kernel, by decide +kernel,
   by decide +kernel⟩, by decide +kernel⟩

theorem wit_PowerFailStopsAndFlushes_1_2 : ∃ (s : State) (dt : Nat), s.pwr.pfailUntil ≤ s.clk.counter + dt ∧
    s.pwr.inReset = false ∧ s.stopSource F.STP_SRC_PFAIL = true :=
  ⟨withAct F.STP_SRC_PFAIL 0 1 live, 0, by decide +kernel⟩

theorem wit_PowerFailStopsAndFlushes_1_3 : ∃ (s : State) (dt : Nat), s.pwr.pfailUntil ≤ s.clk.counter + dt ∧
    s.pwr.inReset = false ∧ s.stopSource F.STP_SRC_PFAIL = false :=
  ⟨withAct F.STP_SRC_PFAIL 0 0 live, 0, by decide +kernel⟩

theorem wit_SensorsAndSupplyAreReported_2_1 : ∃ (s : State) (tj : Int), s.pwr.inReset = false ∧ -2048 ≤ tj ∧ tj ≤ 2047 ∧
    8 * (s.reg F.PWR_THERM_HOT_THRESH : Int) < tj :=
  ⟨live, 841, by decide +kernel⟩

theorem wit_SensorsAndSupplyAreReported_2_2 : ∃ (s : State) (tj : Int), s.pwr.inReset = false ∧ -2048 ≤ tj ∧ tj ≤ 2047 ∧
    tj ≤ 8 * (s.reg F.PWR_THERM_HOT_THRESH : Int) - 40 :=
  ⟨live, 800, by decide +kernel⟩

theorem wit_SensorsAndSupplyAreReported_2_3 : ∃ (s : State) (tj : Int), s.pwr.inReset = false ∧ -2048 ≤ tj ∧ tj ≤ 2047 ∧
    tj ≤ 8 * (s.reg F.PWR_THERM_HOT_THRESH : Int) ∧ 8 * (s.reg F.PWR_THERM_HOT_THRESH : Int) - 40 < tj :=
  ⟨live, 801, by decide +kernel⟩

theorem wit_DmaErrorsAreCountedAndAnswered_1_2 : ∃ (s : State) (phase : Nat) (kind : Nat) (ring : Nat), phase ≤ 5 ∧ 1 ≤ kind ∧
    kind ≤ 4 ∧ ring < 64 ∧ s.hst.fault = false ∧ s.pwr.state ≠ .safeHold ∧ phase = 3 ∧ ring < 3 ∧ (s.ring ring).state = .running :=
  ⟨queued 2 [], 3, 1, 2, by decide +kernel⟩

theorem wit_DmaErrorsAreCountedAndAnswered_1_9 : ∃ (s : State) (phase : Nat) (kind : Nat) (ring : Nat) (index : Nat),
    phase ≤ 5 ∧ 1 ≤ kind ∧ kind ≤ 4 ∧ ring < 64 ∧ s.hst.fault = false ∧ s.pwr.state ≠ .safeHold ∧ (phase = 1 ∨ phase = 2) ∧ ∃ d,
    d ∈ s.hst.taken ∧ d.is ring index = true ∧ d.phase ≠ .launched ∧ (∀ e ∈ s.hst.taken, e.is ring index = true →
    e.phase ≠ .launched → e = d) ∧ ring < 3 ∧ phase = 2 ∧ d.phase = .ready ∧ (d.op = 0x0F06 ∨ d.op = 0x0F07) := by
  refine ⟨queued 2 [descOf 0x0F06 [] 0 2], 2, 4, 2, 0, ?_, ?_, ?_, ?_, ?_, ?_, ?_, descOf 0x0F06 [] 0 2, ?_⟩ <;>
  decide +kernel

/-- Thread 0 runs on core 0 in machine mode; thread 511 has the state and affinity given. -/
def threads (st : ThreadState) (aff : BitVec 12) : State :=
  { live with dis := { live.dis with
      threads := [(0, { Thread.reset with state := .running, core := 0, affinity := 1, flags := 6 }),
        (511, { Thread.reset with state := st, affinity := aff })]
      ready := if st = .ready then [(0, [511])] else []
      cores := [(0, 0)] } }

theorem wit_ThreadControlMovesStates_1 : ∃ (s : State) (dt : Nat) (core : Nat) (k : Nat) (n : Nat) (entry : Word) (arg : Word) (sp : Word),
    s.tidy ∧ s.scheduled ∧ s.machineThread core k ∧ n < 512 ∧ n ≠ k ∧ ∃ (c : Instr), (c = .dctlStart dt core n entry arg sp ∨
    c = .dctlSuspend dt core n ∨ c = .dctlResume dt core n ∨ c = .dctlKill dt core n) :=
  ⟨threads .ready 1, 0, 0, 0, 511, 0, 0, 0, tidy_of_check (by decide +kernel), scheduled_of_check (by decide +kernel),
   ⟨by decide +kernel, by decide +kernel, by decide +kernel⟩, by decide +kernel, by decide +kernel, .dctlSuspend 0 0 511,
   .inr (.inl rfl)⟩

theorem wit_ThreadControlMovesStates_2 : ∃ (s : State) (core : Nat) (k : Nat) (n : Nat), s.tidy ∧ s.scheduled ∧
    s.machineThread core k ∧ n < 512 ∧ n ≠ k ∧ (s.thread n).state = .free ∧ (s.thread n).affinity ≠ 0 :=
  ⟨threads .free 1, 0, 0, 511, tidy_of_check (by decide +kernel), scheduled_of_check (by decide +kernel), ⟨by decide +kernel,
   by decide +kernel, by decide +kernel⟩, by decide +kernel⟩

theorem wit_ThreadControlMovesStates_3 : ∃ (s : State) (core : Nat) (k : Nat) (n : Nat), s.tidy ∧ s.scheduled ∧
    s.machineThread core k ∧ n < 512 ∧ n ≠ k ∧ (s.thread n).state ≠ .free :=
  ⟨threads .waiting 1, 0, 0, 511, tidy_of_check (by decide +kernel), scheduled_of_check (by decide +kernel),
   ⟨by decide +kernel, by decide +kernel, by decide +kernel⟩, by decide +kernel⟩

theorem wit_ThreadControlMovesStates_4 : ∃ (s : State) (core : Nat) (k : Nat) (n : Nat), s.tidy ∧ s.scheduled ∧
    s.machineThread core k ∧ n < 512 ∧ n ≠ k ∧ (s.thread n).state = .suspended :=
  ⟨threads .suspended 1, 0, 0, 511, tidy_of_check (by decide +kernel), scheduled_of_check (by decide +kernel),
   ⟨by decide +kernel, by decide +kernel, by decide +kernel⟩, by decide +kernel⟩

theorem wit_ThreadControlMovesStates_5 : ∃ (s : State) (core : Nat) (k : Nat) (n : Nat), s.tidy ∧ s.scheduled ∧
    s.machineThread core k ∧ n < 512 ∧ n ≠ k :=
  ⟨threads .ready 1, 0, 0, 511, tidy_of_check (by decide +kernel), scheduled_of_check (by decide +kernel),
   ⟨by decide +kernel, by decide +kernel, by decide +kernel⟩, by decide +kernel⟩

/-- The same with thread 0 in user mode. -/
def userThread : State :=
  { threads .ready 1 with dis := { (threads .ready 1).dis with
      threads := [(0, { Thread.reset with state := .running, core := 0, user := true })], ready := [] } }

theorem wit_ThreadSettingsNeedMachineMode_1 : ∃ (s : State) (core : Nat) (k : Nat), s.tidy ∧ s.machineThread core k ∧
    s.dis.traceEv = 0 ∧ s.mem.failed = 0 ∧ ∃ (n : Nat), n < 512 ∧ n ≠ k ∧ ¬ s.active n := by
  refine ⟨threads .waiting 1, 0, 0, tidy_of_check (by decide +kernel), ⟨by decide +kernel, by decide +kernel, by decide +kernel⟩,
     ?_, ?_, 511, ?_, ?_, (by unfold State.active; decide +kernel)⟩ <;>
  decide +kernel

theorem wit_ThreadSettingsNeedMachineMode_2 : ∃ (s : State) (core : Nat) (k : Nat), s.tidy ∧ s.machineThread core k ∧
    s.dis.traceEv = 0 ∧ s.mem.failed = 0 :=
  ⟨threads .waiting 1, 0, 0, tidy_of_check (by decide +kernel), ⟨by decide +kernel, by decide +kernel, by decide +kernel⟩,
   by decide +kernel⟩

theorem wit_ThreadSettingsNeedMachineMode_3 : ∃ (s : State) (dt : Nat) (core : Nat) (k : Nat) (n : Nat) (a : Word) (b : Word) (d : Word) (c : Instr),
    s.tidy ∧ s.coresRun = true ∧ s.running core = some k ∧ (s.thread k).user = true ∧ s.dis.traceEv = 0 ∧ s.mem.failed = 0 ∧
    (c = .dctlStart dt core n a b d ∨ c = .dctlSuspend dt core n ∨ c = .dctlResume dt core n ∨ c = .dctlKill dt core n ∨
    c = .dcfgWrite dt core n a ∨ c = .dcinv dt core) := by
  refine ⟨userThread, 0, 0, 0, 511, 0, 0, 0, .dcinv 0 0, tidy_of_check (by decide +kernel), ?_, ?_, ?_, ?_, ?_,
     .inr (.inr (.inr (.inr (.inr rfl))))⟩ <;>
  decide +kernel

theorem wit_WaitsAndYields_1 : ∃ (s : State) (dt : Nat) (core : Nat) (k : Nat), s.tidy ∧ s.scheduled ∧ s.coresRun = true ∧
    s.running core = some k ∧ s.calm ∧ ∃ (rd : Nat) (m : Word) (all : Bool) (c : Instr), rd < 32 ∧ ((c = .dwany dt core rd m ∧
    all = false) ∨ (c = .dwall dt core rd m ∧ all = true)) ∧ m = 0 := by
  refine ⟨threads .waiting 1, 0, 0, 0, tidy_of_check (by decide +kernel), scheduled_of_check (by decide +kernel), ?_, ?_,
     (by unfold State.calm; decide +kernel), 31, 0, true, .dwall 0 0 31 0, ?_, .inr ⟨rfl, rfl⟩, ?_⟩ <;>
  decide +kernel

theorem wit_WaitsAndYields_2 : ∃ (s : State) (dt : Nat) (core : Nat) (k : Nat), s.tidy ∧ s.scheduled ∧ s.coresRun = true ∧
    s.running core = some k ∧ s.calm ∧ ∃ (rd : Nat) (m : Word) (all : Bool) (c : Instr), rd < 32 ∧ ((c = .dwany dt core rd m ∧
    all = false) ∨ (c = .dwall dt core rd m ∧ all = true)) ∧ m ≠ 0 ∧ waitMet all (s.thread k).flags m = true := by
  refine ⟨threads .waiting 1, 0, 0, 0, tidy_of_check (by decide +kernel), scheduled_of_check (by decide +kernel), ?_, ?_,
     (by unfold State.calm; decide +kernel), 31, 6, true, .dwall 0 0 31 6, ?_, .inr ⟨rfl, rfl⟩, ?_⟩ <;>
  decide +kernel

theorem wit_WaitsAndYields_2b : ∃ (s : State) (dt : Nat) (core : Nat) (k : Nat), s.tidy ∧ s.scheduled ∧ s.coresRun = true ∧
    s.running core = some k ∧ s.calm ∧ ∃ (rd : Nat) (m : Word) (all : Bool) (c : Instr), rd < 32 ∧ ((c = .dwany dt core rd m ∧
    all = false) ∨ (c = .dwall dt core rd m ∧ all = true)) ∧ m ≠ 0 ∧ waitMet all (s.thread k).flags m = true := by
  refine ⟨threads .waiting 1, 0, 0, 0, tidy_of_check (by decide +kernel), scheduled_of_check (by decide +kernel), ?_, ?_,
     (by unfold State.calm; decide +kernel), 31, 12, false, .dwany 0 0 31 12, ?_, .inl ⟨rfl, rfl⟩, ?_⟩ <;>
  decide +kernel

theorem wit_WaitsAndYields_3 : ∃ (s : State) (dt : Nat) (core : Nat) (k : Nat), s.tidy ∧ s.scheduled ∧ s.coresRun = true ∧
    s.running core = some k ∧ s.calm ∧ ∃ (rd : Nat) (m : Word) (all : Bool) (c : Instr), rd < 32 ∧ ((c = .dwany dt core rd m ∧
    all = false) ∨ (c = .dwall dt core rd m ∧ all = true)) ∧ m ≠ 0 ∧ waitMet all (s.thread k).flags m = false := by
  refine ⟨threads .waiting 1, 0, 0, 0, tidy_of_check (by decide +kernel), scheduled_of_check (by decide +kernel), ?_, ?_,
     (by unfold State.calm; decide +kernel), 31, 7, true, .dwall 0 0 31 7, ?_, .inr ⟨rfl, rfl⟩, ?_⟩ <;>
  decide +kernel

theorem wit_WaitsAndYields_3b : ∃ (s : State) (dt : Nat) (core : Nat) (k : Nat), s.tidy ∧ s.scheduled ∧ s.coresRun = true ∧
    s.running core = some k ∧ s.calm ∧ ∃ (rd : Nat) (m : Word) (all : Bool) (c : Instr), rd < 32 ∧ ((c = .dwany dt core rd m ∧
    all = false) ∨ (c = .dwall dt core rd m ∧ all = true)) ∧ m ≠ 0 ∧ waitMet all (s.thread k).flags m = false := by
  refine ⟨threads .waiting 1, 0, 0, 0, tidy_of_check (by decide +kernel), scheduled_of_check (by decide +kernel), ?_, ?_,
     (by unfold State.calm; decide +kernel), 31, 1, false, .dwany 0 0 31 1, ?_, .inl ⟨rfl, rfl⟩, ?_⟩ <;>
  decide +kernel

theorem wit_WaitsAndYields_4 : ∃ (s : State) (core : Nat) (k : Nat), s.tidy ∧ s.scheduled ∧ s.coresRun = true ∧
    s.running core = some k ∧ s.calm :=
  ⟨threads .waiting 1, 0, 0, tidy_of_check (by decide +kernel), scheduled_of_check (by decide +kernel), by decide +kernel,
   by decide +kernel, (by unfold State.calm; decide +kernel)⟩

theorem wit_WaitsAndYields_5 : ∃ (s : State) (core : Nat) (k : Nat), s.tidy ∧ s.scheduled ∧ s.coresRun = true ∧
    s.running core = some k ∧ s.calm ∧ (∀ p, s.readyList p = []) ∧ s.dis.fault = false :=
  ⟨threads .waiting 1, 0, 0, tidy_of_check (by decide +kernel), scheduled_of_check (by decide +kernel), by decide +kernel,
   by decide +kernel, (by unfold State.calm; decide +kernel), (fun p => by simp [State.readyList, threads, tget]),
   by decide +kernel⟩

theorem wit_WaitsAndYields_6 : ∃ (s : State) (core : Nat) (k : Nat), s.tidy ∧ s.scheduled ∧ s.coresRun = true ∧
    s.running core = some k ∧ s.calm ∧ ∃ n, s.nextFor core = some n ∧ (s.thread n).prio ≤ (s.thread k).prio ∧
    s.dis.fault = false :=
  ⟨threads .ready 1, 0, 0, tidy_of_check (by decide +kernel), scheduled_of_check (by decide +kernel), by decide +kernel,
   by decide +kernel, (by unfold State.calm; decide +kernel), 511, by decide +kernel⟩

theorem wit_PostsAndWatchdogKicks_1 : ∃ (s : State) (core : Nat) (k : Nat) (n : Nat) (flag : Nat) (v : Word), s.tidy ∧
    s.coresRun = true ∧ s.running core = some k ∧ bits v.toNat 0 9 = n ∧ bits v.toNat 16 5 = flag ∧ (s.thread n).state ≠ .free ∧
    (s.thread k).state ≠ .free ∧ ((s.thread n).state ≠ .waiting ∨ (s.thread n).met ≠ none ∨
    waitMet (s.thread n).waitAll ((s.thread n).flags ||| (1 <<< flag)) (s.thread n).mask = false) ∧ s.dis.traceEv = 0 ∧
    s.mem.failed = 0 :=
  ⟨threads .suspended 1, 0, 0, 511, 31, 0x1F01FF, tidy_of_check (by decide +kernel), by decide +kernel⟩

theorem wit_PostsAndWatchdogKicks_4 : ∃ (s : State) (core : Nat) (k : Nat) (n : Nat) (v : Word), s.coresRun = true ∧
    s.running core = some k ∧ v.toNat = n ∧ n < 16 ∧ s.reg F.DIS_WDOG_EN n = 1 ∧ s.reg F.DIS_WDOG_THREAD n = k ∧
    s.dis.traceEv = 0 ∧ s.mem.failed = 0 ∧ s.tidy := by
  refine ⟨withReg F.DIS_WDOG_EN 15 1 (threads .ready 1), 0, 0, 15, 15, ?_, ?_, ?_, ?_, ?_, ?_, ?_, ?_,
     tidy_of_check (by decide +kernel)⟩ <;>
  decide +kernel

theorem wit_PostsAndWatchdogKicks_5 : ∃ (s : State) (dt : Nat) (n : Nat), n < 16 ∧ s.reg F.DIS_WDOG_EN n = 1 ∧
    (tget s.dis.wdogs Wdog.reset n).expired = false ∧ (s.pwr.state = .waitHost ∨ s.pwr.state = .run) ∧
    (tget s.dis.wdogs Wdog.reset n).since + s.reg F.DIS_WDOG_PERIOD n * 10 * tickMs ≤ s.clk.counter + dt :=
  ⟨withReg F.DIS_WDOG_EN 15 1 live, 10000 * tickS, 15, by decide +kernel⟩

theorem wit_PostsAndWatchdogKicks_5_1 : ∃ (s : State) (dt : Nat) (n : Nat), n < 16 ∧ s.reg F.DIS_WDOG_EN n = 1 ∧
    (tget s.dis.wdogs Wdog.reset n).expired = false ∧ (s.pwr.state = .waitHost ∨ s.pwr.state = .run) ∧
    (tget s.dis.wdogs Wdog.reset n).since + s.reg F.DIS_WDOG_PERIOD n * 10 * tickMs ≤ s.clk.counter + dt ∧
    s.stopSource F.STP_SRC_WATCHDOG = true :=
  ⟨withReg F.DIS_WDOG_EN 15 1 <| withAct F.STP_SRC_WATCHDOG 0 1 live, 10000 * tickS, 15, by decide +kernel⟩

theorem wit_PostsAndWatchdogKicks_5_2 : ∃ (s : State) (dt : Nat) (n : Nat), n < 16 ∧ s.reg F.DIS_WDOG_EN n = 1 ∧
    (tget s.dis.wdogs Wdog.reset n).expired = false ∧ (s.pwr.state = .waitHost ∨ s.pwr.state = .run) ∧
    (tget s.dis.wdogs Wdog.reset n).since + s.reg F.DIS_WDOG_PERIOD n * 10 * tickMs ≤ s.clk.counter + dt ∧
    s.stopSource F.STP_SRC_WATCHDOG = false :=
  ⟨withReg F.DIS_WDOG_EN 15 1 <| withAct F.STP_SRC_WATCHDOG 0 0 live, 10000 * tickS, 15, by decide +kernel⟩

theorem wit_ScrubAndTraining_1 : ∃ (s : State) (dt : Nat) (w : Nat), s.tidy ∧ s.memoriesCanonical ∧ w < 65536 ∧
    s.mem.badWords = [] ∧ s.pwr.inReset = false ∧ s.pwr.state ≠ .safeHold ∧ s.reg F.MEM_SCRUB_DRAM_HOURS = 0 ∧
    (s.elapse dt).due T.scrub (s.reg F.MEM_SCRUB_PERIOD * tickS) = false :=
  ⟨withReg F.MEM_SCRUB_DRAM_HOURS 0 0 live, 0, 65535, tidy_of_check (by decide +kernel),
   canonical_of_check (by decide +kernel), by decide +kernel⟩

theorem wit_ScrubAndTraining_1_1 : ∃ (s : State) (dt : Nat) (w : Nat) (a : Option PortAccess), s.tidy ∧ s.memoriesCanonical ∧
    w < 65536 ∧ s.mem.badWords = [] ∧ s.pwr.inReset = false ∧ s.pwr.state ≠ .safeHold ∧ s.reg F.MEM_SCRUB_DRAM_HOURS = 0 ∧
    (s.elapse dt).due T.scrub (s.reg F.MEM_SCRUB_PERIOD * tickS) = false ∧
    (let wrote := fun (x : Option PortAccess) (i : Nat) (v : BitVec 8) => ∃ m d, x = some (.write m d) ∧ m.getLsbD i = true ∧ v = (d >>> (8 * i)).setWidth 8;
    ∃ i, i < 8 ∧ ∃ v, wrote a i v) := by
  refine ⟨withReg F.MEM_SCRUB_DRAM_HOURS 0 0 live, 0, 65535, some (.write 0x80 (2 ^ 56)), tidy_of_check (by decide +kernel),
     canonical_of_check (by decide +kernel), ?_, ?_, ?_, ?_, ?_, ?_, 7, ?_, 1, ⟨0x80, 2 ^ 56, rfl, by decide, by decide⟩⟩ <;>
  decide +kernel

theorem wit_ScrubAndTraining_1_2 : ∃ (s : State) (dt : Nat) (w : Nat) (a : Option PortAccess) (b : Option PortAccess), s.tidy ∧
    s.memoriesCanonical ∧ w < 65536 ∧ s.mem.badWords = [] ∧ s.pwr.inReset = false ∧ s.pwr.state ≠ .safeHold ∧
    s.reg F.MEM_SCRUB_DRAM_HOURS = 0 ∧ (s.elapse dt).due T.scrub (s.reg F.MEM_SCRUB_PERIOD * tickS) = false ∧
    (let wrote := fun (x : Option PortAccess) (i : Nat) (v : BitVec 8) => ∃ m d, x = some (.write m d) ∧ m.getLsbD i = true ∧ v = (d >>> (8 * i)).setWidth 8;
    ∃ i, i < 8 ∧ ∃ v, (∀ x, ¬ wrote a i x) ∧ wrote b i v) := by
  refine ⟨withReg F.MEM_SCRUB_DRAM_HOURS 0 0 live, 0, 65535, none, some (.write 1 5), tidy_of_check (by decide +kernel),
     canonical_of_check (by decide +kernel), ?_, ?_, ?_, ?_, ?_, ?_, 0, ?_, 5, (by simp), ⟨1, 5, rfl, by decide, by decide⟩⟩ <;>
  decide +kernel

theorem wit_ScrubAndTraining_1_3 : ∃ (s : State) (dt : Nat) (w : Nat) (a : Option PortAccess) (b : Option PortAccess), s.tidy ∧
    s.memoriesCanonical ∧ w < 65536 ∧ s.mem.badWords = [] ∧ s.pwr.inReset = false ∧ s.pwr.state ≠ .safeHold ∧
    s.reg F.MEM_SCRUB_DRAM_HOURS = 0 ∧ (s.elapse dt).due T.scrub (s.reg F.MEM_SCRUB_PERIOD * tickS) = false ∧
    (let wrote := fun (x : Option PortAccess) (i : Nat) (v : BitVec 8) => ∃ m d, x = some (.write m d) ∧ m.getLsbD i = true ∧ v = (d >>> (8 * i)).setWidth 8;
    ∃ i, i < 8 ∧ (∀ x, ¬ wrote a i x) ∧ (∀ x, ¬ wrote b i x)) := by
  refine ⟨withReg F.MEM_SCRUB_DRAM_HOURS 0 0 live, 0, 0, some .read, some .read, tidy_of_check (by decide +kernel),
     canonical_of_check (by decide +kernel), ?_, ?_, ?_, ?_, ?_, ?_, 7, ?_, (by simp), (by simp)⟩ <;>
  decide +kernel

theorem wit_ScrubAndTraining_1_4 : ∃ (s : State) (dt : Nat) (w : Nat), s.tidy ∧ s.memoriesCanonical ∧ w < 65536 ∧
    s.mem.badWords = [] ∧ s.pwr.inReset = false ∧ s.pwr.state ≠ .safeHold ∧ s.reg F.MEM_SCRUB_DRAM_HOURS = 0 ∧
    (s.elapse dt).due T.scrub (s.reg F.MEM_SCRUB_PERIOD * tickS) = false ∧ ∃ x, (x < 8 * w ∨ 8 * w + 8 ≤ x) := by
  refine ⟨withReg F.MEM_SCRUB_DRAM_HOURS 0 0 live, 0, 65535, tidy_of_check (by decide +kernel),
     canonical_of_check (by decide +kernel), ?_, ?_, ?_, ?_, ?_, ?_, 524279, ?_⟩ <;>
  decide +kernel

theorem wit_ScrubAndTraining_1_5 : ∃ (s : State) (dt : Nat) (w : Nat), s.tidy ∧ s.memoriesCanonical ∧ w < 65536 ∧
    s.mem.badWords = [] ∧ s.pwr.inReset = false ∧ s.pwr.state ≠ .safeHold ∧ s.reg F.MEM_SCRUB_DRAM_HOURS = 0 ∧
    (s.elapse dt).due T.scrub (s.reg F.MEM_SCRUB_PERIOD * tickS) = false ∧ ∃ core r, tfind s.dis.resv core = some r := by
  refine ⟨{ withReg F.MEM_SCRUB_DRAM_HOURS 0 0 live with dis := { live.dis with resv := [(3, 0x18000000)] } }, 0, 0,
     tidy_of_check (by decide +kernel), canonical_of_check (by decide +kernel), ?_, ?_, ?_, ?_, ?_, ?_, 3, 0x18000000, ?_⟩ <;>
  decide +kernel

theorem wit_ScrubAndTraining_2 : ∃ (s : State) (dt : Nat) (hits : List (Nat × Bool)), s.pwr.inReset = false ∧
    (s.elapse dt).due T.scrub (s.reg F.MEM_SCRUB_PERIOD * tickS) = true ∧ s.reg F.MEM_SCRUB_DRAM_HOURS = 0 ∧ (∀ h ∈ hits,
    h.2 = false ∧ h.1 / 2 ^ 60 ≠ 2) :=
  ⟨withReg F.MEM_SCRUB_DRAM_HOURS 0 0 live, 10000 * tickS, [(2 ^ 60, false)], by decide +kernel⟩

theorem wit_ScrubAndTraining_3 : ∃ (s : State), s.mem.training = true ∧ s.pwr.inReset = false ∧ s.mem.waiting = [] :=
  ⟨{ live with mem := { live.mem with training := true } }, by decide +kernel⟩

theorem wit_ScrubAndTraining_4 : ∃ (s : State) (a : Nat) (b : List Byte), s.memoriesCanonical ∧ s.mem.training = true ∧
    s.pwr.inReset = false ∧ s.mem.waiting = [(a, b)] ∧ s.mem.bad = [] ∧ s.act F.DIS_CTRL_TRACE_EN = 0 :=
  ⟨{ live with mem := { live.mem with training := true, waiting := [(7, [1, 2])] } }, 7, [1, 2],
   canonical_of_check (by decide +kernel), by decide +kernel⟩

theorem wit_ThreadControlMovesStates_6 : ∃ (s : State) (dt : Nat) (core : Nat) (k : Nat) (n : Nat) (entry : Word) (arg : Word) (sp : Word),
    s.tidy ∧ s.scheduled ∧ s.machineThread core k ∧ n < 512 ∧ n ≠ k ∧ ∃ (cmd : Instr), s.dis.fault = false ∧ s.calm ∧
    ((cmd = .dctlStart dt core n entry arg sp ∧ (s.thread n).state = .free ∧ (s.thread n).affinity ≠ 0) ∨
    (cmd = .dctlResume dt core n ∧ (s.thread n).state = .suspended)) ∧ ∃ c, c ∈ s.coresOf n ∧ s.running c = none ∧
    (∀ j ∈ s.coresOf n, j < c → s.running j ≠ none) := by
  refine ⟨threads .suspended 2, 0, 0, 0, 511, 0, 0, 0, tidy_of_check (by decide +kernel), scheduled_of_check (by decide +kernel),
     ⟨by decide +kernel, by decide +kernel, by decide +kernel⟩, ?_, ?_, Instr.dctlResume 0 0 511, ?_,
     (by unfold State.calm; decide +kernel), .inr ⟨rfl, rfl⟩, 1, ?_⟩ <;>
  decide +kernel

/-- The thread that runs has a low priority. -/
def lowThread : State :=
  { threads .suspended 1 with dis := { (threads .suspended 1).dis with
      threads := [(0, { Thread.reset with state := .running, core := 0, affinity := 1, prio := 31 }),
        (511, { Thread.reset with state := .suspended, affinity := 1, prio := 30 })] } }

/-- The cores of thread 511 in `lowThread` and in `threads .suspended 1`. -/
theorem only_core {s : State} (h : s.coresOf 511 = [0]) {j : Nat} (hj : j ∈ s.coresOf 511) : j = 0 := by
  rw [h] at hj
  simpa using hj

/-- The trace is on for every core, with its read offset given, and core 1 idles. -/
def tracing (rd : Nat) : State :=
  let s := withReg F.DIS_TRACE_CTRL_CORES 0 0xFFF <| withReg F.DIS_TRACE_RD_OFFSET 0 rd <| withAct F.DIS_CTRL_TRACE_EN 0 1 <|
    withAct F.DIS_TRACE_SIZE_SIZE 0 1 (threads .suspended 2)
  { s with mem := { s.mem with ready := true } }

theorem wit_ThreadControlMovesStates_7 : ∃ (s : State) (dt : Nat) (core : Nat) (k : Nat) (n : Nat) (entry : Word) (arg : Word) (sp : Word),
    s.tidy ∧ s.scheduled ∧ s.machineThread core k ∧ n < 512 ∧ n ≠ k ∧ ∃ (cmd : Instr), s.dis.fault = false ∧ s.calm ∧
    ((cmd = .dctlStart dt core n entry arg sp ∧ (s.thread n).state = .free ∧ (s.thread n).affinity ≠ 0) ∨
    (cmd = .dctlResume dt core n ∧ (s.thread n).state = .suspended)) ∧ ∃ c r, c ∈ s.coresOf n ∧ s.running c = some r ∧
    (s.thread n).prio < (s.thread r).prio ∧ (∀ j ∈ s.coresOf n, ∃ q, s.running j = some q ∧
    (s.thread q).prio ≤ (s.thread r).prio ∧ (j < c → (s.thread q).prio < (s.thread r).prio)) := by
  refine ⟨lowThread, 0, 0, 0, 511, 0, 0, 0, tidy_of_check (by decide +kernel), scheduled_of_check (by decide +kernel),
     ⟨by decide +kernel, by decide +kernel, by decide +kernel⟩, ?_, ?_, Instr.dctlResume 0 0 511, ?_,
     (by unfold State.calm; decide +kernel), .inr ⟨rfl, rfl⟩, 0, 0, ?_, ?_, ?_,
     (fun j hj => by have e := only_core (by decide +kernel) hj; subst e; exact ⟨0, by decide +kernel, by decide +kernel, by decide⟩)⟩ <;>
  decide +kernel

theorem wit_ThreadControlMovesStates_8 : ∃ (s : State) (dt : Nat) (core : Nat) (k : Nat) (n : Nat) (entry : Word) (arg : Word) (sp : Word),
    s.tidy ∧ s.scheduled ∧ s.machineThread core k ∧ n < 512 ∧ n ≠ k ∧ ∃ (cmd : Instr), s.dis.fault = false ∧ s.calm ∧
    ((cmd = .dctlStart dt core n entry arg sp ∧ (s.thread n).state = .free ∧ (s.thread n).affinity ≠ 0) ∨
    (cmd = .dctlResume dt core n ∧ (s.thread n).state = .suspended)) ∧ (∀ j ∈ s.coresOf n, ∃ q, s.running j = some q ∧
    (s.thread q).prio ≤ (s.thread n).prio) :=
  ⟨threads .suspended 1, 0, 0, 0, 511, 0, 0, 0, tidy_of_check (by decide +kernel), scheduled_of_check (by decide +kernel),
   ⟨by decide +kernel, by decide +kernel, by decide +kernel⟩, by decide +kernel, by decide +kernel,
   Instr.dctlResume 0 0 511, by decide +kernel, (by unfold State.calm; decide +kernel), .inr ⟨rfl, rfl⟩,
   (fun j hj => by have e := only_core (by decide +kernel) hj; subst e; exact ⟨0, by decide +kernel, by decide +kernel⟩)⟩

theorem wit_ThreadControlMovesStates_9 : ∃ (s : State) (core : Nat) (k : Nat) (n : Nat), s.tidy ∧ s.scheduled ∧
    s.machineThread core k ∧ n < 512 ∧ n ≠ k ∧ s.dis.fault = false ∧ s.calm ∧ (s.thread n).state = .suspended ∧
    s.unitOn U.dis = true ∧ s.act F.DIS_CTRL_TRACE_EN = 1 ∧ ∃ c, c ∈ s.coresOf n ∧ s.running c = none ∧ (∀ j ∈ s.coresOf n,
    j < c → s.running j ≠ none) ∧ bit (s.reg F.DIS_TRACE_CTRL_CORES) c = true ∧
    (let size := 65536 * s.act F.DIS_TRACE_SIZE_SIZE; (let room := bufNext size s.dis.traceWr (s.reg F.DIS_TRACE_RD_OFFSET) 16;
    s.dis.traceWr < size ∧ ∃ w, room = some w ∧ s.memoriesCanonical ∧ s.mem.ready = true ∧ s.mem.trainFail = false ∧
    s.mem.bad = [])) := by
  refine ⟨tracing 0, 0, 0, 511, tidy_of_check (by decide +kernel), scheduled_of_check (by decide +kernel), ⟨by decide +kernel,
     by decide +kernel, by decide +kernel⟩, ?_, ?_, ?_, (by unfold State.calm; decide +kernel), ?_, ?_, ?_, 1, ?_, ?_, ?_, ?_,
     ?_, 16, ?_, canonical_of_check (by decide +kernel), ?_⟩ <;>
  decide +kernel

theorem wit_ThreadControlMovesStates_10 : ∃ (s : State) (core : Nat) (k : Nat) (n : Nat), s.tidy ∧ s.scheduled ∧
    s.machineThread core k ∧ n < 512 ∧ n ≠ k ∧ s.dis.fault = false ∧ s.calm ∧ (s.thread n).state = .suspended ∧
    s.unitOn U.dis = true ∧ s.act F.DIS_CTRL_TRACE_EN = 1 ∧ ∃ c, c ∈ s.coresOf n ∧ s.running c = none ∧ (∀ j ∈ s.coresOf n,
    j < c → s.running j ≠ none) ∧ bit (s.reg F.DIS_TRACE_CTRL_CORES) c = true ∧
    (let size := 65536 * s.act F.DIS_TRACE_SIZE_SIZE; (let room := bufNext size s.dis.traceWr (s.reg F.DIS_TRACE_RD_OFFSET) 16;
    s.dis.traceWr < size ∧ room = none)) := by
  refine ⟨tracing 16, 0, 0, 511, tidy_of_check (by decide +kernel), scheduled_of_check (by decide +kernel), ⟨by decide +kernel,
     by decide +kernel, by decide +kernel⟩, ?_, ?_, ?_, (by unfold State.calm; decide +kernel), ?_, ?_, ?_, 1, ?_, ?_, ?_, ?_,
     ?_⟩ <;>
  decide +kernel

theorem wit_WaitsAndYields_2_1 : ∃ (s : State) (dt : Nat) (core : Nat) (k : Nat), s.tidy ∧ s.scheduled ∧ s.coresRun = true ∧
    s.running core = some k ∧ s.calm ∧ ∃ (rd : Nat) (m : Word) (all : Bool) (c : Instr), rd < 32 ∧ ((c = .dwany dt core rd m ∧
    all = false) ∨ (c = .dwall dt core rd m ∧ all = true)) ∧ m ≠ 0 ∧ waitMet all (s.thread k).flags m = true ∧ rd ≠ 0 := by
  refine ⟨threads .waiting 1, 0, 0, 0, tidy_of_check (by decide +kernel), scheduled_of_check (by decide +kernel), ?_, ?_,
     (by unfold State.calm; decide +kernel), 31, 6, true, .dwall 0 0 31 6, ?_, .inr ⟨rfl, rfl⟩, ?_⟩ <;>
  decide +kernel

theorem wit_PostsAndWatchdogKicks_1_3 : ∃ (s : State) (core : Nat) (k : Nat) (n : Nat) (flag : Nat) (v : Word), s.tidy ∧
    s.coresRun = true ∧ s.running core = some k ∧ bits v.toNat 0 9 = n ∧ bits v.toNat 16 5 = flag ∧ (s.thread n).state ≠ .free ∧
    (s.thread k).state ≠ .free ∧ ((s.thread n).state ≠ .waiting ∨ (s.thread n).met ≠ none ∨
    waitMet (s.thread n).waitAll ((s.thread n).flags ||| (1 <<< flag)) (s.thread n).mask = false) ∧ s.dis.traceEv = 0 ∧
    s.mem.failed = 0 ∧ n = k :=
  ⟨threads .suspended 1, 0, 0, 0, 0, 0, tidy_of_check (by decide +kernel), by decide +kernel⟩

/-- Thread 511 waits for flag 1. -/
def waiter : State :=
  { threads .waiting 1 with dis := { (threads .waiting 1).dis with
      threads := [(0, { Thread.reset with state := .running, core := 0, affinity := 1 }),
        (511, { Thread.reset with state := .waiting, affinity := 1, mask := 2 })] } }

theorem wit_PostsAndWatchdogKicks_2 : ∃ (s : State) (core : Nat) (k : Nat) (n : Nat) (flag : Nat) (v : Word), s.tidy ∧
    s.scheduled ∧ s.coresRun = true ∧ s.running core = some k ∧ bits v.toNat 0 9 = n ∧ bits v.toNat 16 5 = flag ∧
    (s.thread n).state = .waiting ∧ (s.thread n).met = none ∧ s.calm ∧ (let all := (s.thread n).flags ||| (1 <<< flag);
    waitMet (s.thread n).waitAll all (s.thread n).mask = true) := by
  refine ⟨waiter, 0, 0, 511, 1, 0x101FF, tidy_of_check (by decide +kernel), scheduled_of_check (by decide +kernel), ?_, ?_, ?_, ?_,
     ?_, ?_, (by unfold State.calm; decide +kernel), ?_⟩ <;>
  decide +kernel

theorem wit_PostsAndWatchdogKicks_3 : ∃ (s : State) (core : Nat) (k : Nat) (n : Nat) (v : Word), s.tidy ∧ s.coresRun = true ∧
    s.running core = some k ∧ n ≠ k ∧ bits v.toNat 0 9 = n ∧ (s.thread n).state = .free ∧ s.calm ∧
    s.routePosts (sourceCode Ev.disLostPost n) = [] := by
  refine ⟨threads .free 1, 0, 0, 511, 511, tidy_of_check (by decide +kernel), ?_, ?_, ?_, ?_, ?_,
     (by unfold State.calm; decide +kernel), ?_⟩ <;>
  decide +kernel

/-- Thread 0 runs alone on core 0 in machine mode, with x1 and x2, and the word stands at its pc in the dual-port region. -/
def coreState (w : Nat) (x1 x2 : Word) : State :=
  { live with
    dis := { live.dis with
      threads := [(0, { Thread.reset with state := .running, pc := 0x18000000, x := [(1, x1), (2, x2)] })]
      cores := [(0, 0)] }
    mem := { live.mem with dual := writeMem [] memFill 0 (leBytes 4 w) } }

theorem executes_of_check {w : Nat} {c : Rv} (s : State) (e : s.pending = [] ∧ s.coresRun = true ∧
    s.dis.cores = [(0, 0)] ∧ (s.thread 0).user = false ∧ (s.thread 0).mstatus.getLsbD 17 = false ∧ s.dis.pmpcfg = [] ∧
    s.dis.traceEv = 0 ∧ s.mem.failed = 0 ∧ s.routePosts (sourceCode Ev.disTraceDrop 0) = [] ∧
    s.routePosts (sourceCode Ev.memEccUncorr 0) = [] ∧ s.act F.DIS_CTRL_TRACE_EN = 0 ∧ (s.thread 0).pc.toNat = 0x18000000 ∧
    readMem s.mem.dual memFill 0 4 = leBytes 4 w ∧ s.badWord (.dualPort 0) 4 = none ∧ w < 2 ^ 32 ∧ decode32 w = some c) :
    s.executes 0 0 c := by
  obtain ⟨e1, e2, e3, e4, e5, e6, e7, e8, e9, e10, e11, e12, e13, e14, e15, e16⟩ := e
  exact ⟨e1, e2, by decide, e3, e4, e5, e6, ⟨e7, e8, e9, e10⟩, e11, 0, w, by simpa using e12, by decide, ⟨by decide, e13, e14⟩,
    e15, e16⟩

theorem wit_ThreadSettingsNeedMachineMode_4 : ∃ (s : State) (core : Nat) (k : Nat), s.tidy ∧ s.memoriesCanonical ∧ ∃ o rd a b,
    s.executes core k (.op o rd a b) :=
  ⟨coreState 0x002081B3 7 5, 0, 0, tidy_of_check (by decide +kernel), canonical_of_check (by decide +kernel), Alu.add, 3, 1,
   2, (executes_of_check (w := 0x002081B3) _ (by decide +kernel))⟩

theorem wit_ThreadSettingsNeedMachineMode_5 : ∃ (s : State) (core : Nat) (k : Nat), s.tidy ∧ s.memoriesCanonical ∧ ∃ o rd a v,
    s.executes core k (.opImm o rd a v) :=
  ⟨coreState 0xFFF08193 7 5, 0, 0, tidy_of_check (by decide +kernel), canonical_of_check (by decide +kernel), Alu.add, 3, 1,
   0xFFFFFFFF, (executes_of_check (w := 0xFFF08193) _ (by decide +kernel))⟩

theorem wit_ThreadSettingsNeedMachineMode_6 : ∃ (s : State) (core : Nat) (k : Nat), s.tidy ∧ s.memoriesCanonical ∧
    (let at' := fun (r : Nat) (v : Word) (n : Nat) (o : Nat) => (s.rx k r + v).toNat = 0x18000000 + o ∧ o % n = 0 ∧ o + n ≤ 0x80000;
    ∃ n e rd a v o, s.executes core k (.load n e rd a v) ∧ at' a v n o ∧ s.badWord (.dualPort o) n = none) :=
  ⟨coreState 0xFFF08183 0x18080000 5, 0, 0, tidy_of_check (by decide +kernel), canonical_of_check (by decide +kernel), 1,
   true, 3, 1, 0xFFFFFFFF, 0x7FFFF, (executes_of_check (w := 0xFFF08183) _ (by decide +kernel)), by decide +kernel⟩

theorem wit_ThreadSettingsNeedMachineMode_7 : ∃ (s : State) (core : Nat) (k : Nat), s.tidy ∧ s.memoriesCanonical ∧
    (let at' := fun (r : Nat) (v : Word) (n : Nat) (o : Nat) => (s.rx k r + v).toNat = 0x18000000 + o ∧ o % n = 0 ∧ o + n ≤ 0x80000;
    ∃ n a b v o, s.executes core k (.store n a b v) ∧ at' a v n o ∧ s.badWord (.dualPort o) n = none) :=
  ⟨coreState 0x0020A023 0x18000010 5, 0, 0, tidy_of_check (by decide +kernel), canonical_of_check (by decide +kernel), 4, 1,
   2, 0, 0x10, (executes_of_check (w := 0x0020A023) _ (by decide +kernel)), by decide +kernel⟩

theorem wit_ThreadSettingsNeedMachineMode_7_1 : ∃ (s : State) (core : Nat) (k : Nat), s.tidy ∧ s.memoriesCanonical ∧
    (let at' := fun (r : Nat) (v : Word) (n : Nat) (o : Nat) => (s.rx k r + v).toNat = 0x18000000 + o ∧ o % n = 0 ∧ o + n ≤ 0x80000;
    ∃ n a b v o, s.executes core k (.store n a b v) ∧ at' a v n o ∧ s.badWord (.dualPort o) n = none ∧ ∃ i, (i < o ∨ o + n ≤ i)) :=
  ⟨coreState 0x0020A023 0x18000010 5, 0, 0, tidy_of_check (by decide +kernel), canonical_of_check (by decide +kernel), 4, 1,
   2, 0, 0x10, (executes_of_check (w := 0x0020A023) _ (by decide +kernel)), by decide +kernel, by decide +kernel, 0x14,
   by decide +kernel⟩

theorem wit_ThreadSettingsNeedMachineMode_8 : ∃ (s : State) (core : Nat) (k : Nat), s.tidy ∧ s.memoriesCanonical ∧
    (let at' := fun (r : Nat) (v : Word) (n : Nat) (o : Nat) => (s.rx k r + v).toNat = 0x18000000 + o ∧ o % n = 0 ∧ o + n ≤ 0x80000;
    ∃ op rd a b o, s.executes core k (.amo op rd a b) ∧ at' a 0 4 o ∧ s.badWord (.dualPort o) 4 = none) :=
  ⟨coreState 0x0020A1AF 0x18000010 5, 0, 0, tidy_of_check (by decide +kernel), canonical_of_check (by decide +kernel),
   Amo.add, 3, 1, 2, 0x10, (executes_of_check (w := 0x0020A1AF) _ (by decide +kernel)), by decide +kernel⟩

theorem wit_ThreadSettingsNeedMachineMode_9 : ∃ (s : State) (core : Nat) (k : Nat), s.tidy ∧ s.memoriesCanonical ∧
    (let at' := fun (r : Nat) (v : Word) (n : Nat) (o : Nat) => (s.rx k r + v).toNat = 0x18000000 + o ∧ o % n = 0 ∧ o + n ≤ 0x80000;
    ∃ rd a b o, s.executes core k (.sc rd a b) ∧ at' a 0 4 o ∧ s.badWord (.dualPort o) 4 = none ∧ tfind s.dis.resv core = none) :=
  ⟨coreState 0x1820A1AF 0x18000010 5, 0, 0, tidy_of_check (by decide +kernel), canonical_of_check (by decide +kernel), 3, 1,
   2, 0x10, (executes_of_check (w := 0x1820A1AF) _ (by decide +kernel)), by decide +kernel⟩

theorem wit_ThreadSettingsNeedMachineMode_10 : ∃ (s : State) (core : Nat) (k : Nat), s.tidy ∧ s.memoriesCanonical ∧
    ∃ c a v n cause, ((∃ e rd, c = .load n e rd a v ∧ cause = 5) ∨ (∃ b, c = .store n a b v ∧ cause = 7)) ∧
    s.executes core k c ∧ (s.rx k a + v).toNat % n = 0 ∧ s.coreTarget core (s.rx k a + v).toNat = none ∧ s.mem.trainFail = false :=
  ⟨coreState 0x0000A183 0xF0000000 5, 0, 0, tidy_of_check (by decide +kernel), canonical_of_check (by decide +kernel),
   Rv.load 4 true 3 1 0, 1, 0, 4, 5, .inl ⟨true, 3, rfl, rfl⟩, (executes_of_check (w := 0x0000A183) _ (by decide +kernel)),
   by decide +kernel⟩

theorem wit_ThreadSettingsNeedMachineMode_10b : ∃ (s : State) (core : Nat) (k : Nat), s.tidy ∧ s.memoriesCanonical ∧
    ∃ c a v n cause, ((∃ e rd, c = .load n e rd a v ∧ cause = 5) ∨ (∃ b, c = .store n a b v ∧ cause = 7)) ∧
    s.executes core k c ∧ (s.rx k a + v).toNat % n = 0 ∧ s.coreTarget core (s.rx k a + v).toNat = none ∧ s.mem.trainFail = false :=
  ⟨coreState 0x0020A023 0xF0000000 5, 0, 0, tidy_of_check (by decide +kernel), canonical_of_check (by decide +kernel),
   Rv.store 4 1 2 0, 1, 0, 4, 7, .inr ⟨2, rfl, rfl⟩, (executes_of_check (w := 0x0020A023) _ (by decide +kernel)),
   by decide +kernel⟩

theorem wit_ThreadSettingsNeedMachineMode_11 : ∃ (s : State) (core : Nat) (k : Nat), s.tidy ∧ s.memoriesCanonical ∧
    (let at' := fun (r : Nat) (v : Word) (n : Nat) (o : Nat) => (s.rx k r + v).toNat = 0x18000000 + o ∧ o % n = 0 ∧ o + n ≤ 0x80000;
    ∃ c a v n cause, ((∃ e rd, c = .load n e rd a v ∧ cause = 5) ∨ (∃ b, c = .store n a b v ∧ cause = 7)) ∧
    s.executes core k c ∧ (s.rx k a + v).toNat % n = 0 ∧ ∃ o w, at' a v n o ∧ s.badWord (.dualPort o) n = some w) :=
  ⟨{ coreState 0x0000A183 0x18000010 5 with mem := { (coreState 0x0000A183 0 0).mem with badWords := [2 ^ 60 + 16] } }, 0, 0,
   tidy_of_check (by decide +kernel), canonical_of_check (by decide +kernel), Rv.load 4 true 3 1 0, 1, 0, 4, 5,
   .inl ⟨true, 3, rfl, rfl⟩, (executes_of_check (w := 0x0000A183) _ (by decide +kernel)), by decide +kernel, 16, 2 ^ 60 + 16,
   by decide +kernel⟩

theorem wit_ThreadSettingsNeedMachineMode_11b : ∃ (s : State) (core : Nat) (k : Nat), s.tidy ∧ s.memoriesCanonical ∧
    (let at' := fun (r : Nat) (v : Word) (n : Nat) (o : Nat) => (s.rx k r + v).toNat = 0x18000000 + o ∧ o % n = 0 ∧ o + n ≤ 0x80000;
    ∃ c a v n cause, ((∃ e rd, c = .load n e rd a v ∧ cause = 5) ∨ (∃ b, c = .store n a b v ∧ cause = 7)) ∧
    s.executes core k c ∧ (s.rx k a + v).toNat % n = 0 ∧ ∃ o w, at' a v n o ∧ s.badWord (.dualPort o) n = some w) :=
  ⟨{ coreState 0x0020A023 0x18000010 5 with mem := { (coreState 0x0020A023 0 0).mem with badWords := [2 ^ 60 + 16] } }, 0, 0,
   tidy_of_check (by decide +kernel), canonical_of_check (by decide +kernel), Rv.store 4 1 2 0, 1, 0, 4, 7,
   .inr ⟨2, rfl, rfl⟩, (executes_of_check (w := 0x0020A023) _ (by decide +kernel)), by decide +kernel, 16, 2 ^ 60 + 16,
   by decide +kernel⟩

theorem wit_ThreadSettingsNeedMachineMode_12 : ∃ (s : State) (core : Nat) (k : Nat), s.tidy ∧ s.memoriesCanonical ∧ ∃ op rd a b,
    s.executes core k (.amo op rd a b) ∧ (s.rx k a).toNat % 4 = 0 ∧ 0x20000000 ≤ (s.rx k a).toNat ∧
    (s.rx k a).toNat < 0x20100000 :=
  ⟨coreState 0x0020A1AF 0x20000000 5, 0, 0, tidy_of_check (by decide +kernel), canonical_of_check (by decide +kernel),
   Amo.add, 3, 1, 2, (executes_of_check (w := 0x0020A1AF) _ (by decide +kernel)), by decide +kernel⟩

theorem wit_ThreadSettingsNeedMachineMode_13 : ∃ (s : State) (core : Nat) (k : Nat), s.tidy ∧ s.memoriesCanonical ∧
    s.executes core k .ecall :=
  ⟨coreState 0x00000073 0 0, 0, 0, tidy_of_check (by decide +kernel), canonical_of_check (by decide +kernel),
   (executes_of_check (w := 0x00000073) _ (by decide +kernel))⟩

theorem wit_ThreadSettingsNeedMachineMode_14 : ∃ (s : State) (core : Nat) (k : Nat), s.tidy ∧ s.pending = [] ∧
    s.coresRun = true ∧ core < 12 ∧ s.dis.cores = [(core, k)] ∧ s.calm ∧ (s.thread k).user = true ∧ s.dis.pmpcfg = [] ∧
    (s.thread k).pc.toNat % 2 = 0 := by
  refine ⟨userThread, 0, 0, tidy_of_check (by decide +kernel), ?_, ?_, ?_, ?_, (by unfold State.calm; decide +kernel), ?_⟩ <;>
  decide +kernel

theorem wit_ScrubAndTraining_5 : ∃ (s : State) (a : Nat) (b : List Byte), s.memoriesCanonical ∧ s.mem.training = true ∧
    s.pwr.inReset = false ∧ s.mem.waiting = [(a, b)] ∧ s.mem.bad = [] ∧ s.act F.DIS_CTRL_TRACE_EN = 0 :=
  ⟨{ live with mem := { live.mem with training := true, waiting := [(7, [1, 2])] } }, 7, [1, 2],
   canonical_of_check (by decide +kernel), by decide +kernel⟩

theorem wit_TableTransfersMoveEntries_1 : ∃ (s : State) (ring : Nat) (index : Nat) (d : Desc) (f : Nat) (c : Nat),
    s.offers ring index opRouteXfer d ∧ s.tidy ∧ s.dis.fault = false ∧ d.operand 2 2 = f ∧ d.operand 4 2 = c ∧ 1 ≤ c ∧
    f + c ≤ 1024 ∧ d.len = 8 * c ∧ d.operand 0 1 = 0 :=
  ⟨offer (descOf opRouteXfer [0, 0, 255, 3, 1, 0] 8), 3, 0, descOf opRouteXfer [0, 0, 255, 3, 1, 0] 8, 1023, 1,
   ⟨by decide +kernel, by decide +kernel, by decide +kernel⟩, tidy_of_check (by decide +kernel), by decide +kernel⟩

theorem wit_TableTransfersMoveEntries_2 : ∃ (s : State) (dt : Nat) (ring : Nat) (index : Nat) (d : Desc) (f : Nat) (c : Nat),
    s.offers ring index opRouteXfer d ∧ s.tidy ∧ s.dis.fault = false ∧ d.operand 2 2 = f ∧ d.operand 4 2 = c ∧ 1 ≤ c ∧
    f + c ≤ 1024 ∧ d.len = 8 * c ∧ ∃ cmd conf, ((cmd = Instr.disRouteReadStaging dt ring index ∧ d.operand 0 1 = 1 ∧
    conf = s.cfg.staged) ∨ (cmd = .disRouteReadActive dt ring index ∧ d.operand 0 1 = 2 ∧ conf = s.cfg.active)) := by
  refine ⟨offer (descOf opRouteXfer [1, 0, 255, 3, 1, 0] 8), 0, 3, 0, descOf opRouteXfer [1, 0, 255, 3, 1, 0] 8, 1023, 1,
     ⟨by decide +kernel, by decide +kernel, by decide +kernel⟩, tidy_of_check (by decide +kernel), ?_, ?_, ?_, ?_, ?_, ?_,
     .disRouteReadStaging 0 3 0, live.cfg.staged, .inl ⟨rfl, by decide +kernel, rfl⟩⟩ <;>
  decide +kernel

theorem wit_TableTransfersMoveEntries_2b : ∃ (s : State) (dt : Nat) (ring : Nat) (index : Nat) (d : Desc) (f : Nat) (c : Nat),
    s.offers ring index opRouteXfer d ∧ s.tidy ∧ s.dis.fault = false ∧ d.operand 2 2 = f ∧ d.operand 4 2 = c ∧ 1 ≤ c ∧
    f + c ≤ 1024 ∧ d.len = 8 * c ∧ ∃ cmd conf, ((cmd = Instr.disRouteReadStaging dt ring index ∧ d.operand 0 1 = 1 ∧
    conf = s.cfg.staged) ∨ (cmd = .disRouteReadActive dt ring index ∧ d.operand 0 1 = 2 ∧ conf = s.cfg.active)) := by
  refine ⟨offer (descOf opRouteXfer [2, 0, 255, 3, 1, 0] 8), 0, 3, 0, descOf opRouteXfer [2, 0, 255, 3, 1, 0] 8, 1023, 1,
     ⟨by decide +kernel, by decide +kernel, by decide +kernel⟩, tidy_of_check (by decide +kernel), ?_, ?_, ?_, ?_, ?_, ?_,
     .disRouteReadActive 0 3 0, live.cfg.active, .inr ⟨rfl, by decide +kernel, rfl⟩⟩ <;>
  decide +kernel

theorem wit_TableTransfersMoveEntries_3 : ∃ (s : State) (ring : Nat) (index : Nat) (d : Desc) (f : Nat) (c : Nat),
    s.offers ring index opCrnClass d ∧ s.tidy ∧ s.crn.fault = false ∧ d.operand 2 1 = f ∧ d.operand 3 1 = c ∧ 1 ≤ c ∧
    f + c ≤ 64 ∧ d.len = 144 * c ∧ d.operand 0 1 = 0 :=
  ⟨offer (descOf opCrnClass [0, 0, 63, 1] 144), 3, 0, descOf opCrnClass [0, 0, 63, 1] 144, 63, 1, ⟨by decide +kernel,
   by decide +kernel, by decide +kernel⟩, tidy_of_check (by decide +kernel), by decide +kernel⟩

theorem wit_TableTransfersMoveEntries_4 : ∃ (s : State) (dt : Nat) (ring : Nat) (index : Nat) (d : Desc) (f : Nat) (c : Nat),
    s.offers ring index opCrnClass d ∧ s.tidy ∧ s.crn.fault = false ∧ d.operand 2 1 = f ∧ d.operand 3 1 = c ∧ 1 ≤ c ∧
    f + c ≤ 64 ∧ d.len = 144 * c ∧ ∃ cmd conf, ((cmd = Instr.crnClassReadStaging dt ring index ∧ d.operand 0 1 = 1 ∧
    conf = s.cfg.staged) ∨ (cmd = .crnClassReadActive dt ring index ∧ d.operand 0 1 = 2 ∧ conf = s.cfg.active)) := by
  refine ⟨offer (descOf opCrnClass [1, 0, 63, 1] 144), 0, 3, 0, descOf opCrnClass [1, 0, 63, 1] 144, 63, 1, ⟨by decide +kernel,
     by decide +kernel, by decide +kernel⟩, tidy_of_check (by decide +kernel), ?_, ?_, ?_, ?_, ?_, ?_,
     .crnClassReadStaging 0 3 0, live.cfg.staged, .inl ⟨rfl, by decide +kernel, rfl⟩⟩ <;>
  decide +kernel

theorem wit_TableTransfersMoveEntries_4b : ∃ (s : State) (dt : Nat) (ring : Nat) (index : Nat) (d : Desc) (f : Nat) (c : Nat),
    s.offers ring index opCrnClass d ∧ s.tidy ∧ s.crn.fault = false ∧ d.operand 2 1 = f ∧ d.operand 3 1 = c ∧ 1 ≤ c ∧
    f + c ≤ 64 ∧ d.len = 144 * c ∧ ∃ cmd conf, ((cmd = Instr.crnClassReadStaging dt ring index ∧ d.operand 0 1 = 1 ∧
    conf = s.cfg.staged) ∨ (cmd = .crnClassReadActive dt ring index ∧ d.operand 0 1 = 2 ∧ conf = s.cfg.active)) := by
  refine ⟨offer (descOf opCrnClass [2, 0, 63, 1] 144), 0, 3, 0, descOf opCrnClass [2, 0, 63, 1] 144, 63, 1, ⟨by decide +kernel,
     by decide +kernel, by decide +kernel⟩, tidy_of_check (by decide +kernel), ?_, ?_, ?_, ?_, ?_, ?_,
     .crnClassReadActive 0 3 0, live.cfg.active, .inr ⟨rfl, by decide +kernel, rfl⟩⟩ <;>
  decide +kernel

/-- The running device with its DRAM trained. -/
def trained : State := { live with mem := { live.mem with ready := true } }

theorem wit_TableTransfersMoveEntries_5 : ∃ (s : State) (ring : Nat) (index : Nat) (d : Desc) (b : Nat) (f : Nat) (c : Nat),
    s.offers ring index opFldTable d ∧ s.tidy ∧ s.fldStop (decide (d.operand 1 1 ≠ 2)) = none ∧ (d.operand 1 1 ≠ 2 →
    s.dramHeld = false) ∧ d.operand 0 1 = b ∧ b ≤ 2 ∧ d.operand 4 4 = f ∧ d.operand 8 4 = c ∧ 1 ≤ c ∧ d.len = c * tblSize b ∧
    d.operand 1 1 = 0 :=
  ⟨offer (descOf opFldTable [2, 0, 0, 0, 63, 0, 0, 0, 1, 0, 0, 0] 512) (trained), 3, 0, descOf opFldTable [2, 0, 0, 0, 63, 0, 0,
   0, 1, 0, 0, 0] 512, 2, 63, 1, ⟨by decide +kernel, by decide +kernel, by decide +kernel⟩,
   tidy_of_check (by decide +kernel), by decide +kernel⟩

theorem wit_TableTransfersMoveEntries_6 : ∃ (s : State) (dt : Nat) (ring : Nat) (index : Nat) (d : Desc) (b : Nat) (f : Nat) (c : Nat),
    s.offers ring index opFldTable d ∧ s.tidy ∧ s.fldStop (decide (d.operand 1 1 ≠ 2)) = none ∧ (d.operand 1 1 ≠ 2 →
    s.dramHeld = false) ∧ d.operand 0 1 = b ∧ b ≤ 2 ∧ d.operand 4 4 = f ∧ d.operand 8 4 = c ∧ 1 ≤ c ∧ d.len = c * tblSize b ∧
    ∃ cmd conf live, ((cmd = Instr.fldTableReadStaging dt ring index ∧ d.operand 1 1 = 1 ∧ conf = s.cfg.staged ∧ live = false) ∨
    (cmd = .fldTableReadActive dt ring index ∧ d.operand 1 1 = 2 ∧ conf = s.cfg.active ∧ live = true)) := by
  refine ⟨offer (descOf opFldTable [2, 1, 0, 0, 63, 0, 0, 0, 1, 0, 0, 0] 512) trained, 0, 3, 0, descOf opFldTable [2, 1, 0, 0, 63, 0,
     0, 0, 1, 0, 0, 0] 512, 2, 63, 1, ⟨by decide +kernel, by decide +kernel, by decide +kernel⟩,
     tidy_of_check (by decide +kernel), ?_, ?_, ?_, ?_, ?_, ?_, ?_, ?_, .fldTableReadStaging 0 3 0, trained.cfg.staged, false,
     .inl ⟨rfl, by decide +kernel, rfl, rfl⟩⟩ <;>
  decide +kernel

theorem wit_TableTransfersMoveEntries_6b : ∃ (s : State) (dt : Nat) (ring : Nat) (index : Nat) (d : Desc) (b : Nat) (f : Nat) (c : Nat),
    s.offers ring index opFldTable d ∧ s.tidy ∧ s.fldStop (decide (d.operand 1 1 ≠ 2)) = none ∧ (d.operand 1 1 ≠ 2 →
    s.dramHeld = false) ∧ d.operand 0 1 = b ∧ b ≤ 2 ∧ d.operand 4 4 = f ∧ d.operand 8 4 = c ∧ 1 ≤ c ∧ d.len = c * tblSize b ∧
    ∃ cmd conf live, ((cmd = Instr.fldTableReadStaging dt ring index ∧ d.operand 1 1 = 1 ∧ conf = s.cfg.staged ∧ live = false) ∨
    (cmd = .fldTableReadActive dt ring index ∧ d.operand 1 1 = 2 ∧ conf = s.cfg.active ∧ live = true)) := by
  refine ⟨offer (descOf opFldTable [2, 2, 0, 0, 63, 0, 0, 0, 1, 0, 0, 0] 512) live, 0, 3, 0, descOf opFldTable [2, 2, 0, 0, 63, 0, 0,
     0, 1, 0, 0, 0] 512, 2, 63, 1, ⟨by decide +kernel, by decide +kernel, by decide +kernel⟩,
     tidy_of_check (by decide +kernel), ?_, ?_, ?_, ?_, ?_, ?_, ?_, ?_, .fldTableReadActive 0 3 0, live.cfg.active, true,
     .inr ⟨rfl, by decide +kernel, rfl, rfl⟩⟩ <;>
  decide +kernel

/-- Field 15 is enabled with one tile of each layer, its identifier 9 and its directory at frame 2048. -/
def field : State :=
  withAct F.FLD_FIELD_CTRL_EN 15 1 <| withAct F.FLD_FIELD_SIZE_TILES_E 15 1 <| withAct F.FLD_FIELD_SIZE_TILES_N 15 1 <|
    withAct F.FLD_FIELD_DIR_FRAME 15 2048 <| withAct F.FLD_FIELD_ID_FIELD_ID 15 9 trained

/-- The layer word of the field's tile is dirty; or present at frame 3000. -/
def dirtyField : State := { field with mem := { field.mem with dram := [(8388608, 4)] } }
def presentField : State := { field with mem := { field.mem with dram := [(8388608, 0x01), (8388609, 0x80), (8388610, 0xBB)] } }

/-- A line of the field's tile is cached and holds a change. -/
def cachedField : State :=
  { field with fld := { field.fld with cache := [(0, [⟨15, 0, 0, 0, 0, 12288000, List.replicate 1024 5, true⟩])] } }

theorem wit_TilesAreLoadedAndSaved_1 : ∃ (s : State) (f : Nat) (te : Nat) (tn : Nat) (x : Nat), s.memoriesCanonical ∧ s.tidy ∧
    s.calm ∧ (∀ e ∈ s.fld.cache, ∀ l ∈ e.2, l.ofTile f te tn = true → l.dirty = true → x < l.base ∨ l.base + 1024 ≤ x) :=
  ⟨cachedField, 15, 0, 0, 12289024, canonical_of_check (by decide +kernel), tidy_of_check (by decide +kernel),
   (by unfold State.calm; decide +kernel), by decide +kernel⟩

theorem wit_TilesAreLoadedAndSaved_2 : ∃ (s : State) (ring : Nat) (index : Nat) (payload : List Byte) (d : Desc) (f : Nat),
    s.offers ring index opFldTile d ∧ s.memoriesCanonical ∧ s.fldStop true = none ∧ s.dramHeld = false ∧ s.calm ∧
    s.mem.bad = [] ∧ d.operand 1 1 = 0 ∧ d.operand 0 1 = f ∧ f ≤ 15 ∧ s.fieldOn f = true ∧ (let p := padTo d.len payload;
    (let layer := byteAt p 2; (let present := bit (byteAt p 3) 0; (let size := if present then tileBytes layer else 0;
    layer ≤ 5 ∧ byteAt p 0 < s.tilesE f ∧ byteAt p 1 < s.tilesN f ∧ d.len = 8 + size ∧ (present = true →
    s.inMapArea (bits (fieldLE p 4 4) 0 22) size = true) ∧ (layer = 0 → s.tileClaimed f (byteAt p 0) (byteAt p 1) = false))))) := by
  refine ⟨offer (descOf opFldTile [15, 0] 8) field, 3, 0, [0, 0, 5, 2, 0, 0, 0, 0], descOf opFldTile [15, 0] 8, 15,
     ⟨by decide +kernel, by decide +kernel, by decide +kernel⟩, canonical_of_check (by decide +kernel), ?_, ?_,
     (by unfold State.calm; decide +kernel), ?_, ?_, ?_, ?_, ?_, ?_⟩ <;>
  decide +kernel

theorem wit_TilesAreLoadedAndSaved_2b : ∃ (s : State) (ring : Nat) (index : Nat) (payload : List Byte) (d : Desc) (f : Nat),
    s.offers ring index opFldTile d ∧ s.memoriesCanonical ∧ s.fldStop true = none ∧ s.dramHeld = false ∧ s.calm ∧
    s.mem.bad = [] ∧ d.operand 1 1 = 0 ∧ d.operand 0 1 = f ∧ f ≤ 15 ∧ s.fieldOn f = true ∧ (let p := padTo d.len payload;
    (let layer := byteAt p 2; (let present := bit (byteAt p 3) 0; (let size := if present then tileBytes layer else 0;
    layer ≤ 5 ∧ byteAt p 0 < s.tilesE f ∧ byteAt p 1 < s.tilesN f ∧ d.len = 8 + size ∧ (present = true →
    s.inMapArea (bits (fieldLE p 4 4) 0 22) size = true) ∧ (layer = 0 → s.tileClaimed f (byteAt p 0) (byteAt p 1) = false))))) := by
  refine ⟨offer (descOf opFldTile [15, 0] (8 + tileBytes 5)) (withAct F.FLD_MAP_SIZE_SIZE 0 64 field), 3, 0, [0, 0, 5, 1, 0, 16, 0,
     0], descOf opFldTile [15, 0] (8 + tileBytes 5), 15, ⟨by decide +kernel, by decide +kernel, by decide +kernel⟩,
     canonical_of_check (by decide +kernel), ?_, ?_, (by unfold State.calm; decide +kernel), ?_, ?_, ?_, ?_, ?_, ?_⟩ <;>
  decide +kernel

theorem wit_TilesAreLoadedAndSaved_3 : ∃ (s : State) (ring : Nat) (index : Nat) (d : Desc) (f : Nat) (layer : Nat),
    s.offers ring index opFldTile d ∧ s.memoriesCanonical ∧ s.fldStop true = none ∧ s.dramHeld = false ∧ s.calm ∧
    s.mem.bad = [] ∧ d.operand 1 1 = 1 ∧ d.operand 0 1 = f ∧ f ≤ 15 ∧ s.fieldOn f = true ∧ d.operand 3 1 = layer ∧ layer ≤ 5 ∧
    d.operand 6 2 = 1 ∧ d.operand 8 2 = 1 ∧ (let te := d.operand 4 1; (let tn := d.operand 5 1;
    (let w := s.layerWord f te tn layer; (let size := if lwPresent w then tileBytes layer else 0; te < s.tilesE f ∧
    tn < s.tilesN f ∧ 8 + size ≤ d.len ∧ (bit (d.operand 2 1) 0 = true → layer = 0 → lwDirty w = true))))) := by
  refine ⟨offer (descOf opFldTile [15, 1, 0, 5, 0, 0, 1, 0, 1, 0] 8) (field), 3, 0, descOf opFldTile [15, 1, 0, 5, 0, 0, 1, 0, 1,
     0] 8, 15, 5, ⟨by decide +kernel, by decide +kernel, by decide +kernel⟩, canonical_of_check (by decide +kernel), ?_, ?_,
     (by unfold State.calm; decide +kernel), ?_, ?_, ?_, ?_, ?_, ?_, ?_, ?_, ?_, ?_⟩ <;>
  decide +kernel

theorem wit_TilesAreLoadedAndSaved_3_1 : ∃ (s : State) (ring : Nat) (index : Nat) (d : Desc) (f : Nat) (layer : Nat),
    s.offers ring index opFldTile d ∧ s.memoriesCanonical ∧ s.fldStop true = none ∧ s.dramHeld = false ∧ s.calm ∧
    s.mem.bad = [] ∧ d.operand 1 1 = 1 ∧ d.operand 0 1 = f ∧ f ≤ 15 ∧ s.fieldOn f = true ∧ d.operand 3 1 = layer ∧ layer ≤ 5 ∧
    d.operand 6 2 = 1 ∧ d.operand 8 2 = 1 ∧ (let te := d.operand 4 1; (let tn := d.operand 5 1;
    (let w := s.layerWord f te tn layer; (let size := if lwPresent w then tileBytes layer else 0; te < s.tilesE f ∧
    tn < s.tilesN f ∧ 8 + size ≤ d.len ∧ (bit (d.operand 2 1) 0 = true → layer = 0 → lwDirty w = true) ∧ layer = 0 ∧
    lwDirty w = true)))) := by
  refine ⟨offer (descOf opFldTile [15, 1, 1, 0, 0, 0, 1, 0, 1, 0] 8) (dirtyField), 3, 0, descOf opFldTile [15, 1, 1, 0, 0, 0, 1, 0,
     1, 0] 8, 15, 0, ⟨by decide +kernel, by decide +kernel, by decide +kernel⟩, canonical_of_check (by decide +kernel), ?_,
     ?_, (by unfold State.calm; decide +kernel), ?_, ?_, ?_, ?_, ?_, ?_, ?_, ?_, ?_, ?_⟩ <;>
  decide +kernel

theorem wit_CellsAreCountedAndSynchronised_1 : ∃ (s : State) (ring : Nat) (index : Nat) (payload : List Byte) (d : Desc) (f : Nat) (c : Cell),
    s.offers ring index opFldSync d ∧ s.memoriesCanonical ∧ s.tidy ∧ s.calm ∧ s.fldStop true = none ∧ s.dramHeld = false ∧
    d.len = 18 ∧ fieldLE (padTo 18 payload) 8 2 = 1 ∧ s.fieldById (fieldLE (padTo 18 payload) 0 4) = some f ∧
    deltaCells f (padTo 18 payload) = [c] ∧ (let wa := s.layerWordAt c.field (c.col / 256) (c.row / 256) 0;
    (let clear := fun (x : Nat) => ∀ e ∈ s.fld.cache, ∀ l ∈ e.2, l.dirty = true → x < l.base ∨ l.base + 1024 ≤ x; (∀ x, wa ≤ x →
    x < wa + 8 → clear x) ∧ s.offImages wa 8)) := by
  refine ⟨offer (descOf opFldSync [] 18) field, 3, 0, [9, 0, 0, 0, 1, 0, 0, 0, 1, 0, 0, 0, 0, 0, 255, 255, 0, 0],
     descOf opFldSync [] 18, 15, ⟨15, 255, 255⟩, ⟨by decide +kernel, by decide +kernel, by decide +kernel⟩,
     canonical_of_check (by decide +kernel), tidy_of_check (by decide +kernel), (by unfold State.calm; decide +kernel), ?_,
     ?_, ?_, ?_, ?_, ?_, (fun _ _ _ _ h => nomatch h), (by unfold State.offImages; decide +kernel)⟩ <;>
  decide +kernel

theorem wit_CellsAreCountedAndSynchronised_1_2 : ∃ (s : State) (ring : Nat) (index : Nat) (payload : List Byte) (d : Desc) (f : Nat) (c : Cell),
    s.offers ring index opFldSync d ∧ s.memoriesCanonical ∧ s.tidy ∧ s.calm ∧ s.fldStop true = none ∧ s.dramHeld = false ∧
    d.len = 18 ∧ fieldLE (padTo 18 payload) 8 2 = 1 ∧ s.fieldById (fieldLE (padTo 18 payload) 0 4) = some f ∧
    deltaCells f (padTo 18 payload) = [c] ∧ (let wa := s.layerWordAt c.field (c.col / 256) (c.row / 256) 0;
    (let code := (s.coverage c false).2;
    (let clear := fun (x : Nat) => ∀ e ∈ s.fld.cache, ∀ l ∈ e.2, l.dirty = true → x < l.base ∨ l.base + 1024 ≤ x; (∀ x, wa ≤ x →
    x < wa + 8 → clear x) ∧ s.offImages wa 8 ∧ tfind s.sec.claims c.key = none ∧ ∃ n, code = some n ∧ n ≤ 1))) := by
  refine ⟨offer (descOf opFldSync [] 18) presentField, 3, 0, [9, 0, 0, 0, 1, 0, 0, 0, 1, 0, 0, 0, 0, 0, 255, 255, 0, 0],
     descOf opFldSync [] 18, 15, ⟨15, 255, 255⟩, ⟨by decide +kernel, by decide +kernel, by decide +kernel⟩,
     canonical_of_check (by decide +kernel), tidy_of_check (by decide +kernel), (by unfold State.calm; decide +kernel), ?_,
     ?_, ?_, ?_, ?_, ?_, (fun _ _ _ _ h => nomatch h), (by unfold State.offImages; decide +kernel), ?_, 0, ?_⟩ <;>
  decide +kernel

theorem wit_CellsAreCountedAndSynchronised_1_5 : ∃ (s : State) (ring : Nat) (index : Nat) (payload : List Byte) (d : Desc) (f : Nat) (c : Cell),
    s.offers ring index opFldSync d ∧ s.memoriesCanonical ∧ s.tidy ∧ s.calm ∧ s.fldStop true = none ∧ s.dramHeld = false ∧
    d.len = 18 ∧ fieldLE (padTo 18 payload) 8 2 = 1 ∧ s.fieldById (fieldLE (padTo 18 payload) 0 4) = some f ∧
    deltaCells f (padTo 18 payload) = [c] ∧ (let wa := s.layerWordAt c.field (c.col / 256) (c.row / 256) 0;
    (let code := (s.coverage c false).2;
    (let clear := fun (x : Nat) => ∀ e ∈ s.fld.cache, ∀ l ∈ e.2, l.dirty = true → x < l.base ∨ l.base + 1024 ≤ x; (∀ x, wa ≤ x →
    x < wa + 8 → clear x) ∧ s.offImages wa 8 ∧ tfind s.sec.claims c.key = none ∧ code = none ∧ s.act F.DIS_CTRL_TRACE_EN = 0))) := by
  refine ⟨offer (descOf opFldSync [] 18) field, 3, 0, [9, 0, 0, 0, 1, 0, 0, 0, 1, 0, 0, 0, 0, 0, 255, 255, 0, 0],
     descOf opFldSync [] 18, 15, ⟨15, 255, 255⟩, ⟨by decide +kernel, by decide +kernel, by decide +kernel⟩,
     canonical_of_check (by decide +kernel), tidy_of_check (by decide +kernel), (by unfold State.calm; decide +kernel), ?_,
     ?_, ?_, ?_, ?_, ?_, (fun _ _ _ _ h => nomatch h), (by unfold State.offImages; decide +kernel), ?_⟩ <;>
  decide +kernel

theorem wit_CellsAreCountedAndSynchronised_3 : ∃ (s : State) (dt : Nat), s.pwr.state = .run ∧ s.unitOn U.fld = true ∧
    s.fld.fault = false ∧ (let sf := (s.elapse dt).now / 20000000;
    (let due := if s.fld.sentAt ≤ sf then s.fld.sentAt + s.reg F.FLD_SYNC_CTRL_PERIOD else sf; due ≤ sf ∧
    (s.elapse dt).commitWaits (due * 20000000) = false)) := by
  refine ⟨field, tickS, ?_, ?_, ?_, ?_⟩ <;>
  decide +kernel

theorem wit_CellsAreCountedAndSynchronised_4 : ∃ (s : State), s.fld.copying = true :=
  ⟨{ field with fld := { field.fld with copying := true } }, by decide +kernel⟩

/-- The tile is present, and its last cell is covered twice. -/
def coveredField : State :=
  { field with mem := { field.mem with dram := [(8388608, 0x01), (8388609, 0x80), (8388610, 0xBB), (12304383, 0x80)] } }

theorem wit_CellsAreCountedAndSynchronised_1_4 : ∃ (s : State) (ring : Nat) (index : Nat) (payload : List Byte) (d : Desc) (f : Nat) (c : Cell),
    s.offers ring index opFldSync d ∧ s.memoriesCanonical ∧ s.tidy ∧ s.calm ∧ s.fldStop true = none ∧ s.dramHeld = false ∧
    d.len = 18 ∧ fieldLE (padTo 18 payload) 8 2 = 1 ∧ s.fieldById (fieldLE (padTo 18 payload) 0 4) = some f ∧
    deltaCells f (padTo 18 payload) = [c] ∧ (let wa := s.layerWordAt c.field (c.col / 256) (c.row / 256) 0;
    (let code := (s.coverage c false).2;
    (let clear := fun (x : Nat) => ∀ e ∈ s.fld.cache, ∀ l ∈ e.2, l.dirty = true → x < l.base ∨ l.base + 1024 ≤ x; (∀ x, wa ≤ x →
    x < wa + 8 → clear x) ∧ s.offImages wa 8 ∧ tfind s.sec.claims c.key = none ∧ ∃ n, code = some n ∧ 2 ≤ n))) := by
  refine ⟨offer (descOf opFldSync [] 18) coveredField, 3, 0, [9, 0, 0, 0, 1, 0, 0, 0, 1, 0, 0, 0, 0, 0, 255, 255, 0, 0],
     descOf opFldSync [] 18, 15, ⟨15, 255, 255⟩, ⟨by decide +kernel, by decide +kernel, by decide +kernel⟩,
     canonical_of_check (by decide +kernel), tidy_of_check (by decide +kernel), (by unfold State.calm; decide +kernel), ?_,
     ?_, ?_, ?_, ?_, ?_, (fun _ _ _ _ h => nomatch h), (by unfold State.offImages; decide +kernel), ?_, 2, ?_⟩ <;>
  decide +kernel

theorem wit_CellsAreCountedAndSynchronised_1_6 : ∃ (s : State) (ring : Nat) (index : Nat) (payload : List Byte) (d : Desc) (f : Nat) (c : Cell),
    s.offers ring index opFldSync d ∧ s.memoriesCanonical ∧ s.tidy ∧ s.calm ∧ s.fldStop true = none ∧ s.dramHeld = false ∧
    d.len = 18 ∧ fieldLE (padTo 18 payload) 8 2 = 1 ∧ s.fieldById (fieldLE (padTo 18 payload) 0 4) = some f ∧
    deltaCells f (padTo 18 payload) = [c] ∧ (let wa := s.layerWordAt c.field (c.col / 256) (c.row / 256) 0;
    (let code := (s.coverage c false).2;
    (let clear := fun (x : Nat) => ∀ e ∈ s.fld.cache, ∀ l ∈ e.2, l.dirty = true → x < l.base ∨ l.base + 1024 ≤ x; (∀ x, wa ≤ x →
    x < wa + 8 → clear x) ∧ s.offImages wa 8 ∧ tfind s.sec.claims c.key = none ∧ code = none ∧ s.act F.DIS_CTRL_TRACE_EN = 0 ∧
    s.mem.bad = []))) := by
  refine ⟨offer (descOf opFldSync [] 18) field, 3, 0, [9, 0, 0, 0, 1, 0, 0, 0, 1, 0, 0, 0, 0, 0, 255, 255, 0, 0],
     descOf opFldSync [] 18, 15, ⟨15, 255, 255⟩, ⟨by decide +kernel, by decide +kernel, by decide +kernel⟩,
     canonical_of_check (by decide +kernel), tidy_of_check (by decide +kernel), (by unfold State.calm; decide +kernel), ?_,
     ?_, ?_, ?_, ?_, ?_, (fun _ _ _ _ h => nomatch h), (by unfold State.offImages; decide +kernel), ?_⟩ <;>
  decide +kernel

theorem wit_CellsAreCountedAndSynchronised_1_7 : ∃ (s : State) (ring : Nat) (index : Nat) (payload : List Byte) (d : Desc) (f : Nat) (c : Cell),
    s.offers ring index opFldSync d ∧ s.memoriesCanonical ∧ s.tidy ∧ s.calm ∧ s.fldStop true = none ∧ s.dramHeld = false ∧
    d.len = 18 ∧ fieldLE (padTo 18 payload) 8 2 = 1 ∧ s.fieldById (fieldLE (padTo 18 payload) 0 4) = some f ∧
    deltaCells f (padTo 18 payload) = [c] ∧ (let wa := s.layerWordAt c.field (c.col / 256) (c.row / 256) 0;
    (let code := (s.coverage c false).2;
    (let clear := fun (x : Nat) => ∀ e ∈ s.fld.cache, ∀ l ∈ e.2, l.dirty = true → x < l.base ∨ l.base + 1024 ≤ x; (∀ x, wa ≤ x →
    x < wa + 8 → clear x) ∧ s.offImages wa 8 ∧ tfind s.sec.claims c.key = none ∧ code ≠ none ∧ ∃ x, (x < wa ∨ wa + 8 ≤ x) ∧
    clear x))) := by
  refine ⟨offer (descOf opFldSync [] 18) presentField, 3, 0, [9, 0, 0, 0, 1, 0, 0, 0, 1, 0, 0, 0, 0, 0, 255, 255, 0, 0],
     descOf opFldSync [] 18, 15, ⟨15, 255, 255⟩, ⟨by decide +kernel, by decide +kernel, by decide +kernel⟩,
     canonical_of_check (by decide +kernel), tidy_of_check (by decide +kernel), (by unfold State.calm; decide +kernel), ?_,
     ?_, ?_, ?_, ?_, ?_, (fun _ _ _ _ h => nomatch h), (by unfold State.offImages; decide +kernel), ?_, ?_, 0, ?_,
     (fun _ h => nomatch h)⟩ <;>
  decide +kernel

theorem wit_CellsAreCountedAndSynchronised_2 : ∃ (s : State) (dt : Nat), s.pwr.state = .run ∧ s.unitOn U.fld = true ∧
    s.fld.fault = false ∧ (let sf := (s.elapse dt).now / 20000000;
    (let due := if s.fld.sentAt ≤ sf then s.fld.sentAt + s.reg F.FLD_SYNC_CTRL_PERIOD else sf; (sf < due ∨
    (s.elapse dt).commitWaits (due * 20000000) = true))) :=
  ⟨field, 0, by decide +kernel, by decide +kernel, by decide +kernel, .inl (by decide +kernel)⟩

/-- Fabric ports 4 and 5 are `UP`, the device holds address 9, and device 20 is reached through port 4. -/
def fabric : State :=
  withAct F.FAB_PORT_CTRL_EN 4 1 <| withAct F.FAB_PORT_CTRL_EN 5 1
    { live with fab := { live.fab with
        ports := [(4, { FabPort.reset with blockLock := true, link := .up }),
          (5, { FabPort.reset with blockLock := true, link := .up, modPresent := true, helloAt := some 0 })]
        addr := 9, addrState := .claimed, nextHop := [(20, hopWord 4 7 true false 1 1)] } }

/-- A frame from device 30, and a flooded one. -/
def frame (dst cls type : Nat) (body : List Byte) : List Byte := mkFrame dst 30 cls type 2 0 0 body
def flood (cls type : Nat) (body : List Byte) : List Byte := mkFrame fabBroadcast 30 cls type 2 1 0 body

theorem wit_FramesAreForwardedAndFlooded_1 : ∃ (s : State) (p : Nat) (f : List Byte), s.tidy ∧ s.portOn p = true ∧
    frameOk f = false :=
  ⟨fabric, 5, [], tidy_of_check (by decide +kernel), by decide +kernel⟩

theorem wit_FramesAreForwardedAndFlooded_2 : ∃ (s : State) (p : Nat) (q : Nat) (f : List Byte), s.tidy ∧ s.takesFrame p f ∧
    ¬ (frClass f = FC.control ∧ frType f = 0) ∧ (frClass f = FC.relay → s.act F.FAB_PORT_CTRL_LEARN_EN p = 0) ∧
    frLocal f = false ∧ frFlood f = false ∧ s.fab.addrState = .claimed ∧ frDst f ≠ s.claimedAddr ∧ 1 < frHops f ∧
    s.routePort (frDst f) = some q ∧ q ≠ p ∧ (s.egress q (frClass f)).length < queueDepth (frClass f) :=
  ⟨fabric, 5, 4, frame 20 5 0 [1], tidy_of_check (by decide +kernel),
   (by unfold State.takesFrame State.admits; decide +kernel), by decide +kernel⟩

theorem wit_FramesAreForwardedAndFlooded_3 : ∃ (s : State) (p : Nat) (f : List Byte), s.tidy ∧ s.admits p f ∧
    frClass f = FC.control ∧ frType f = 0 ∧ (frBody f).length = 24 :=
  ⟨fabric, 5, frame 9 2 0 (List.replicate 24 0), tidy_of_check (by decide +kernel), (by unfold State.admits; decide +kernel),
   by decide +kernel⟩

theorem wit_FramesAreForwardedAndFlooded_4 : ∃ (s : State) (dt : Nat) (p : Nat) (f : List Byte), s.tidy ∧ s.takesFrame p f ∧
    frClass f = FC.control ∧ frType f = 1 ∧ frLocal f = false ∧ frFlood f = true ∧ (frBody f).length = 16 ∧
    s.fab.addrState ≠ .none ∧ (let b := frBody f; (let eui := beNat (slice b 0 8);
    (let key := [1, eui, byteAt b 10, byteAt b 11 % 2]; (s.elapse dt).dupSeen key = false))) := by
  refine ⟨fabric, 0, 5, flood 2 1 (List.replicate 16 0), tidy_of_check (by decide +kernel),
     (by unfold State.takesFrame State.admits; decide +kernel), ?_, ?_, ?_, ?_, ?_, ?_, ?_⟩ <;>
  decide +kernel

theorem wit_FramesAreForwardedAndFlooded_5 : ∃ (s : State) (p : Nat) (f : List Byte), s.takesFrame p f ∧
    frClass f = FC.control ∧ frType f = 2 ∧ frLocal f = false ∧ frFlood f = true ∧ s.fab.addrState ≠ .none ∧ (let b := frBody f;
    byteAt b 12 ≤ 6 ∧ b.length = 16 + 4 * byteAt b 12) := by
  refine ⟨fabric, 5, flood 2 2 (List.replicate 16 0), (by unfold State.takesFrame State.admits; decide +kernel), ?_, ?_, ?_, ?_, ?_,
     ?_⟩ <;>
  decide +kernel

theorem wit_FramesAreForwardedAndFlooded_5b : ∃ (s : State) (p : Nat) (f : List Byte), s.takesFrame p f ∧
    frClass f = FC.control ∧ frType f = 2 ∧ frLocal f = false ∧ frFlood f = true ∧ s.fab.addrState ≠ .none ∧ (let b := frBody f;
    byteAt b 12 ≤ 6 ∧ b.length = 16 + 4 * byteAt b 12) := by
  refine ⟨fabric, 5, flood 2 2 (List.replicate 12 0 ++ [6] ++ List.replicate 27 0),
     (by unfold State.takesFrame State.admits; decide +kernel), ?_, ?_, ?_, ?_, ?_, ?_⟩ <;>
  decide +kernel

theorem wit_FramesReachTheirUnits_1 : ∃ (s : State) (p : Nat) (f : List Byte), s.addressed p f ∧ frClass f = FC.control ∧
    frType f = 3 ∧ s.fld.fault = false ∧ s.unitOn U.fld = true ∧ (let b := frBody f; 1 ≤ fieldLE b 8 2 ∧ fieldLE b 8 2 ≤ 339 ∧
    b.length = 12 + 6 * fieldLE b 8 2) := by
  refine ⟨fabric, 5, frame 9 2 3 (List.replicate 8 0 ++ [1, 0] ++ List.replicate 8 0),
     (by unfold State.addressed State.takesFrame State.admits; decide +kernel), ?_, ?_, ?_, ?_, ?_⟩ <;>
  decide +kernel

theorem wit_FramesReachTheirUnits_2 : ∃ (s : State) (p : Nat) (f : List Byte), s.addressed p f ∧ frClass f = FC.correction ∧
    s.fix.fault = false :=
  ⟨fabric, 5, frame 9 FC.correction 0 [1], (by unfold State.addressed State.takesFrame State.admits; decide +kernel),
   by decide +kernel⟩

theorem wit_FramesReachTheirUnits_3 : ∃ (s : State) (p : Nat) (f : List Byte), s.addressed p f ∧ frClass f = FC.relay ∧
    21 ≤ (frBody f).length ∧ (let b := frBody f; (let dest := beNat (slice b 0 8); dest ≠ 0)) :=
  ⟨fabric, 5, frame 9 FC.relay 0 (List.replicate 7 0 ++ [1] ++ List.replicate 13 0),
   (by unfold State.addressed State.takesFrame State.admits; decide +kernel), by decide +kernel, by decide +kernel,
   by decide +kernel⟩

theorem wit_FramesReachTheirUnits_4 : ∃ (s : State) (p : Nat) (f : List Byte), s.addressed p f ∧ ((frClass f = FC.control ∧
    frType f = 4) ∨ (frClass f = FC.bulk ∧ frType f = 0)) :=
  ⟨fabric, 5, frame 9 FC.control 4 [1], (by unfold State.addressed State.takesFrame State.admits; decide +kernel),
   by decide +kernel⟩

theorem wit_FramesReachTheirUnits_4b : ∃ (s : State) (p : Nat) (f : List Byte), s.addressed p f ∧ ((frClass f = FC.control ∧
    frType f = 4) ∨ (frClass f = FC.bulk ∧ frType f = 0)) :=
  ⟨fabric, 5, frame 9 FC.bulk 0 [1], (by unfold State.addressed State.takesFrame State.admits; decide +kernel),
   by decide +kernel⟩

/-- Record 1023 of a type and usage, derived from the exact root, and a running device that holds it alone. -/
def record (type usage : Nat) : KeyCopy :=
  let c : KeyCopy := ⟨1, 1023, type, usage, true, true, decide (usage = Usage.deriveOnly), true, rootExactName, 1, 1, 0, [], [], [],
    kcvOf (kdf [] false [] [] (typeSize type)), 0⟩
  { c with crc := c.sum }
def keyed (type usage : Nat) (s : State := live) : State :=
  { s with
    cal := { s.cal with epochCount := 0 }
    key := { s.key with
      rootExact := some [], rootsReady := true, tampered := false, slots := [(1023, ⟨some (record type usage), none, commitWord 1⟩)]
      cache := [], retired := [] }
    boot := { s.boot with migration := [] } }

theorem record_crc (t u : Nat) : (record t u).crc = (record t u).sum := rfl

theorem keyed_valid (t u : Nat) (s : State) : (keyed t u s).validRec 1023 = some (record t u) := by
  have h : BitVec.setWidth 32 (commitWord 1#32) = 1#32 := by decide
  have h1 : (record t u).seq = 1 := rfl
  have h2 : (record t u).valid = true := rfl
  simp [State.validRec, State.keyRec, keyed, tget, tfind, KeySlot.committed, h, h1, h2, record_crc, Option.filter]

theorem keyed_material (t u : Nat) (s : State) :
    (keyed t u s).material 1023 = some (kdf [] false [] [] (typeSize t)) := by
  have h : tfind (keyed t u s).key.cache 1023 = none := rfl
  simp only [State.material, State.materialAux, keyed_valid, h]
  simp [record, isRoot, State.rootMaterial, State.ownMaterial, State.migrationOf, keyed]

theorem keyed_orphan (t u : Nat) (s : State) : (keyed t u s).orphan 1023 = false := by
  simp only [State.orphan, State.orphanAux, keyed_valid, keyed_material]
  simp [record, isRoot, keyed]

theorem keyed_serves (t u : Nat) (s : State) : (keyed t u s).serves 1023 (record t u) :=
  ⟨by decide, keyed_valid t u s, keyed_orphan t u s⟩

theorem keyed_ready (t u : Nat) (s : State) (h : s.key.fault = false) :
    (keyed t u s).readyKey 1023 = some (kdf [] false [] [] (typeSize t)) := by
  simp only [State.readyKey, State.unusable, keyed_orphan, keyed_material]
  simp [State.keyStop, keyed, h]

theorem wit_FramesReachTheirUnits_5 : ∃ (s : State) (p : Nat) (f : List Byte) (k : List Byte), s.takesFrame p f ∧
    frClass f = FC.stop ∧ (frLocal f = true ∨ frFlood f = true ∨ (s.claimedAddr ≠ 0 ∧ frDst f = s.claimedAddr)) ∧
    s.readyKey (s.act F.STP_KEYS_FAB_RX) = some k :=
  ⟨keyed 0 0 (withAct F.STP_KEYS_FAB_RX 0 1023 fabric), 5, flood FC.stop 0 (List.replicate 24 0),
   kdf [] false [] [] (typeSize 0), (by unfold State.takesFrame State.admits; decide +kernel), by decide +kernel,
   by decide +kernel, (by rw [show State.act _ F.STP_KEYS_FAB_RX = 1023 by decide +kernel]; exact keyed_ready _ _ _ rfl)⟩

theorem wit_FramesReachTheirUnits_6 : ∃ (s : State) (p : Nat) (f : List Byte), s.addressed p f ∧ frClass f = FC.bulk ∧
    frType f = 1 ∧ 16 ≤ (frBody f).length ∧ byteAt (frBody f) 0 = 1 :=
  ⟨fabric, 5, frame 9 FC.bulk 1 ([1] ++ List.replicate 15 0),
   (by unfold State.addressed State.takesFrame State.admits; decide +kernel), by decide +kernel⟩

theorem wit_LinksAreHeldAndFramesLeave_1 : ∃ (s : State) (dt : Nat), (s.elapse dt).due T.hello (10 * tickMs) = true :=
  ⟨fabric, 10 * tickMs, by decide +kernel⟩

theorem wit_LinksAreHeldAndFramesLeave_2 : ∃ (s : State) (dt : Nat) (p : Nat) (c : Instr), s.tidy ∧ (s.fabPort p).link = .up ∧
    ((c = .fabLinkTimeout dt p ∧ ∃ a, (s.fabPort p).helloAt = some a ∧ a + 30 * tickMs ≤ s.clk.counter + dt) ∨
    (p < s.id.part.fabs ∧ ∃ b, c = .fabPcsLoss dt p b)) :=
  ⟨fabric, 30 * tickMs, 5, .fabLinkTimeout (30 * tickMs) 5, tidy_of_check (by decide +kernel), by decide +kernel,
   .inl ⟨rfl, 0, by decide +kernel, by decide +kernel⟩⟩

theorem wit_LinksAreHeldAndFramesLeave_2b : ∃ (s : State) (dt : Nat) (p : Nat) (c : Instr), s.tidy ∧ (s.fabPort p).link = .up ∧
    ((c = .fabLinkTimeout dt p ∧ ∃ a, (s.fabPort p).helloAt = some a ∧ a + 30 * tickMs ≤ s.clk.counter + dt) ∨
    (p < s.id.part.fabs ∧ ∃ b, c = .fabPcsLoss dt p b)) :=
  ⟨fabric, 0, 5, .fabPcsLoss 0 5 true, tidy_of_check (by decide +kernel), by decide +kernel,
   .inr ⟨by decide +kernel, true, rfl⟩⟩

theorem wit_LinksAreHeldAndFramesLeave_3 : ∃ (s : State) (p : Nat), s.tidy ∧ p < s.id.part.fabs :=
  ⟨fabric, 5, tidy_of_check (by decide +kernel), by decide +kernel⟩

theorem wit_LinksAreHeldAndFramesLeave_4 : ∃ (s : State) (p : Nat), s.tidy ∧ p < s.id.part.fabs :=
  ⟨fabric, 5, tidy_of_check (by decide +kernel), by decide +kernel⟩

theorem wit_LinksAreHeldAndFramesLeave_5 : ∃ (s : State) (dt : Nat) (p : Nat) (c : Nat) (f : List Byte), s.tidy ∧
    (s.fabPort p).lineFree ≤ s.clk.counter + dt ∧ s.portOn p = true ∧ c < 6 ∧ (s.egress p c).head? = some f ∧ (∀ k, k < c →
    s.egress p k = []) ∧ (c = FC.time → ptpType (frBody f) ≠ Pm.sync ∧ ptpType (frBody f) ≠ Pm.pdelayReq ∧
    ptpType (frBody f) ≠ Pm.pdelayResp) :=
  ⟨{ fabric with fab := { fabric.fab with ports := [(5, { FabPort.reset with blockLock := true, link := .up, queues := [(5, [[1]])] })] } },
   0, 5, 5, [1], tidy_of_check (by decide +kernel), by decide +kernel⟩

/-- The device claims address 9. -/
def claiming : State := { fabric with fab := { fabric.fab with addrState := .tentative } }

theorem wit_AddressesRoutesAndLearningRun_1 : ∃ (s : State) (dt : Nat), s.claiming = true ∧
    s.fab.claimSent + 20 * tickMs ≤ s.clk.counter + dt ∧ s.clk.counter + dt < s.fab.claimAt + s.claimWait :=
  ⟨claiming, 20 * tickMs, by decide +kernel⟩

theorem wit_AddressesRoutesAndLearningRun_2 : ∃ (s : State) (dt : Nat), s.claiming = true ∧
    s.fab.claimAt + s.claimWait ≤ s.clk.counter + dt :=
  ⟨claiming, 1000 * tickS, by decide +kernel⟩

theorem wit_AddressesRoutesAndLearningRun_3 : ∃ (s : State) (dt : Nat), (s.elapse dt).lsaIsDue = true :=
  ⟨fabric, 0, by decide +kernel⟩

theorem wit_AddressesRoutesAndLearningRun_5 : ∃ (s : State) (dt : Nat) (a : Nat), s.fab.spfDue = some a ∧ s.pwr.state = .run ∧
    s.fab.fault = false ∧ a + s.reg F.FAB_ROUTE_SPF_HOLD * 10 * tickMs ≤ s.clk.counter + dt :=
  ⟨{ fabric with fab := { fabric.fab with spfDue := some 0 } }, 1000 * tickS, 0, by decide +kernel⟩

theorem wit_AddressesRoutesAndLearningRun_7 : ∃ (s : State) (dt : Nat), s.tidy ∧ s.pwr.state = .run ∧ s.unitOn U.fab = true ∧
    s.fab.fault = false ∧ (s.elapse dt).due T.ageSweep (s.reg F.FAB_LEARN_CTRL_AGE_PERIOD * tickS) = true :=
  ⟨fabric, 100000 * tickS, tidy_of_check (by decide +kernel), by decide +kernel⟩

theorem wit_AddressesRoutesAndLearningRun_8 : ∃ (s : State) (dt : Nat) (w : Nat) (r : StopRepeat) (rest : List Nat) (k : List Byte),
    s.pwr.state = .run ∧ s.fab.fault = false ∧ s.fab.repeats = [r] ∧ r.windows = w :: rest ∧ w ≤ (s.elapse dt).stopWindow ∧
    s.fabTxKey = some k ∧ (∀ h ∈ s.fab.held, h.bytes.take 16 = s.stopBody r.stop r.count r.scope w →
    h.bytes = s.stopBody r.stop r.count r.scope w ++ cmac8 k (s.stopBody r.stop r.count r.scope w)) := by
  refine ⟨keyed 0 0 (withAct F.STP_KEYS_FAB_TX 0 1023
    { fabric with fab := { fabric.fab with repeats := [⟨true, 1, 0, [0, 1]⟩] } }),
     0, 0, ⟨true, 1, 0, [0, 1]⟩, [1], kdf [] false [] [] (typeSize 0), ?_, ?_, ?_, ?_, ?_,
     (by unfold State.fabTxKey; rw [show State.act _ F.STP_KEYS_FAB_TX = 1023 by decide +kernel]; exact keyed_ready _ _ _ rfl),
     ?_⟩ <;>
  decide +kernel

/-- An entry of EUI-64 7 in the stash. -/
def entry : LearnEntry := ⟨7, 30, 5, false, false, false, 0⟩
def learned : State := { fabric with fab := { fabric.fab with learn := [(8192, entry)] } }

theorem wit_FabricDescriptorsAct_1 : ∃ (s : State) (ring : Nat) (index : Nat) (cls : Nat) (dst : Nat) (d : Desc),
    s.offers ring index opFabSend d ∧ s.fabStop = none ∧ s.fab.addrState = .claimed ∧ d.operand 2 1 = cls ∧ (cls = 2 ∨ cls = 4 ∨
    cls = 5) ∧ 1 ≤ d.len ∧ d.len ≤ (if cls = 4 then 255 else 2048) ∧ 1 ≤ d.operand 3 1 ∧ d.operand 3 1 ≤ 32 ∧
    d.operand 0 2 % 2 ^ 14 = dst ∧ (cls = 4 → dst ≠ 0) ∧ dst ≠ s.claimedAddr :=
  ⟨offer (descOf opFabSend [20, 0, 5, 32] 2048) fabric, 3, 0, 5, 20, descOf opFabSend [20, 0, 5, 32] 2048, ⟨by decide +kernel,
   by decide +kernel, by decide +kernel⟩, by decide +kernel⟩

theorem wit_FabricDescriptorsAct_1_1 : ∃ (s : State) (ring : Nat) (index : Nat) (cls : Nat) (dst : Nat) (d : Desc),
    s.offers ring index opFabSend d ∧ s.fabStop = none ∧ s.fab.addrState = .claimed ∧ d.operand 2 1 = cls ∧ (cls = 2 ∨ cls = 4 ∨
    cls = 5) ∧ 1 ≤ d.len ∧ d.len ≤ (if cls = 4 then 255 else 2048) ∧ 1 ≤ d.operand 3 1 ∧ d.operand 3 1 ≤ 32 ∧
    d.operand 0 2 % 2 ^ 14 = dst ∧ (cls = 4 → dst ≠ 0) ∧ dst ≠ s.claimedAddr ∧ dst = fabBroadcast ∧ cls ≠ 4 :=
  ⟨offer (descOf opFabSend [255, 63, 5, 32] 2048) fabric, 3, 0, 5, fabBroadcast, descOf opFabSend [255, 63, 5, 32] 2048,
   ⟨by decide +kernel, by decide +kernel, by decide +kernel⟩, by decide +kernel⟩

theorem wit_FabricDescriptorsAct_1_3 : ∃ (s : State) (ring : Nat) (index : Nat) (cls : Nat) (dst : Nat) (d : Desc),
    s.offers ring index opFabSend d ∧ s.fabStop = none ∧ s.fab.addrState = .claimed ∧ d.operand 2 1 = cls ∧ (cls = 2 ∨ cls = 4 ∨
    cls = 5) ∧ 1 ≤ d.len ∧ d.len ≤ (if cls = 4 then 255 else 2048) ∧ 1 ≤ d.operand 3 1 ∧ d.operand 3 1 ≤ 32 ∧
    d.operand 0 2 % 2 ^ 14 = dst ∧ (cls = 4 → dst ≠ 0) ∧ dst ≠ s.claimedAddr ∧ ∃ p, (cls = 4 ∨ dst ≠ fabBroadcast) ∧
    s.routePort dst = some p ∧ (s.egress p cls).length < queueDepth cls := by
  refine ⟨offer (descOf opFabSend [20, 0, 4, 1] 255) fabric, 3, 0, 4, 20, descOf opFabSend [20, 0, 4, 1] 255, ⟨by decide +kernel,
     by decide +kernel, by decide +kernel⟩, ?_, ?_, ?_, ?_, ?_, ?_, ?_, ?_, ?_, ?_, ?_, 4, ?_⟩ <;>
  decide +kernel

theorem wit_FabricDescriptorsAct_1_8 : ∃ (s : State) (ring : Nat) (index : Nat) (cls : Nat) (dst : Nat) (d : Desc),
    s.offers ring index opFabSend d ∧ s.fabStop = none ∧ s.fab.addrState = .claimed ∧ d.operand 2 1 = cls ∧ (cls = 2 ∨ cls = 4 ∨
    cls = 5) ∧ 1 ≤ d.len ∧ d.len ≤ (if cls = 4 then 255 else 2048) ∧ 1 ≤ d.operand 3 1 ∧ d.operand 3 1 ≤ 32 ∧
    d.operand 0 2 % 2 ^ 14 = dst ∧ (cls = 4 → dst ≠ 0) ∧ dst ≠ s.claimedAddr ∧ (cls = 4 ∨ dst ≠ fabBroadcast) ∧
    s.routePort dst = none :=
  ⟨offer (descOf opFabSend [21, 0, 2, 32] 2048) fabric, 3, 0, 2, 21, descOf opFabSend [21, 0, 2, 32] 2048, ⟨by decide +kernel,
   by decide +kernel, by decide +kernel⟩, by decide +kernel⟩

theorem wit_FabricDescriptorsAct_2 : ∃ (s : State) (ring : Nat) (index : Nat) (d : Desc), s.offers ring index opFabRecv d ∧
    s.fabStop = none :=
  ⟨offer (descOf opFabRecv) (fabric), 3, 0, descOf opFabRecv, ⟨by decide +kernel, by decide +kernel, by decide +kernel⟩,
   by decide +kernel⟩

theorem wit_FabricDescriptorsAct_2_2 : ∃ (s : State) (ring : Nat) (index : Nat) (d : Desc), s.offers ring index opFabRecv d ∧
    s.fabStop = none ∧ 16 ≤ (s.waiters opFabRecv).length :=
  ⟨{ offer (descOf opFabRecv) fabric with hst := { (offer (descOf opFabRecv) fabric).hst with
      taken := descOf opFabRecv :: (List.range 16).map fun i => { descOf opFabRecv with serial := i + 4, index := i + 1, phase := .waiting } } },
   3, 0, descOf opFabRecv, ⟨by decide +kernel, by decide +kernel, by decide +kernel⟩, by decide +kernel⟩

theorem wit_FabricDescriptorsAct_3 : ∃ (s : State) (ring : Nat) (index : Nat) (d : Desc), s.offers ring index opFabLearn d ∧
    s.fabStop = none ∧ learnOp d = 0 ∧ ((learnFind s.fab.learn (d.operand 8 8)).isSome = true ∨
    (learnFree s.fab.learn (learnSlots 0 (d.operand 8 8) ++ learnSlots 1 (d.operand 8 8))).isSome = true) :=
  ⟨offer (descOf opFabLearn [0, 0, 2, 0, 9, 0, 0, 0, 7]) (fabric), 3, 0, descOf opFabLearn [0, 0, 2, 0, 9, 0, 0, 0, 7],
   ⟨by decide +kernel, by decide +kernel, by decide +kernel⟩, by decide +kernel⟩

theorem wit_FabricDescriptorsAct_3b : ∃ (s : State) (ring : Nat) (index : Nat) (d : Desc), s.offers ring index opFabLearn d ∧
    s.fabStop = none ∧ learnOp d = 0 ∧ ((learnFind s.fab.learn (d.operand 8 8)).isSome = true ∨
    (learnFree s.fab.learn (learnSlots 0 (d.operand 8 8) ++ learnSlots 1 (d.operand 8 8))).isSome = true) :=
  ⟨offer (descOf opFabLearn [0, 0, 2, 0, 9, 0, 0, 0, 7]) (learned), 3, 0, descOf opFabLearn [0, 0, 2, 0, 9, 0, 0, 0, 7],
   ⟨by decide +kernel, by decide +kernel, by decide +kernel⟩, by decide +kernel⟩

theorem wit_FabricDescriptorsAct_4_1 : ∃ (s : State) (ring : Nat) (index : Nat) (d : Desc), s.offers ring index opFabLearn d ∧
    s.tidy ∧ s.fabStop = none ∧ learnOp d = 1 ∧ ∃ i e, learnFind s.fab.learn (d.operand 8 8) = some i ∧
    tfind s.fab.learn i = some e :=
  ⟨offer (descOf opFabLearn [1, 0, 2, 0, 9, 0, 0, 0, 7]) (learned), 3, 0, descOf opFabLearn [1, 0, 2, 0, 9, 0, 0, 0, 7],
   ⟨by decide +kernel, by decide +kernel, by decide +kernel⟩, tidy_of_check (by decide +kernel), by decide +kernel,
   by decide +kernel, 8192, entry, by decide +kernel⟩

theorem wit_FabricDescriptorsAct_4_4 : ∃ (s : State) (ring : Nat) (index : Nat) (d : Desc), s.offers ring index opFabLearn d ∧
    s.tidy ∧ s.fabStop = none ∧ learnOp d = 1 ∧ learnFind s.fab.learn (d.operand 8 8) = none :=
  ⟨offer (descOf opFabLearn [1, 0, 2, 0, 9, 0, 0, 0, 7]) (fabric), 3, 0, descOf opFabLearn [1, 0, 2, 0, 9, 0, 0, 0, 7],
   ⟨by decide +kernel, by decide +kernel, by decide +kernel⟩, tidy_of_check (by decide +kernel), by decide +kernel⟩

theorem wit_FabricDescriptorsAct_5_1 : ∃ (s : State) (ring : Nat) (index : Nat) (d : Desc), s.offers ring index opFabLearn d ∧
    s.tidy ∧ s.fabStop = none ∧ learnOp d = 2 ∧ ∃ i e, learnFind s.fab.learn (d.operand 8 8) = some i ∧
    tfind s.fab.learn i = some e :=
  ⟨offer (descOf opFabLearn [2, 0, 2, 0, 9, 0, 0, 0, 7]) (learned), 3, 0, descOf opFabLearn [2, 0, 2, 0, 9, 0, 0, 0, 7],
   ⟨by decide +kernel, by decide +kernel, by decide +kernel⟩, tidy_of_check (by decide +kernel), by decide +kernel,
   by decide +kernel, 8192, entry, by decide +kernel⟩

theorem wit_FabricDescriptorsAct_5_4 : ∃ (s : State) (ring : Nat) (index : Nat) (d : Desc), s.offers ring index opFabLearn d ∧
    s.tidy ∧ s.fabStop = none ∧ learnOp d = 2 ∧ learnFind s.fab.learn (d.operand 8 8) = none :=
  ⟨offer (descOf opFabLearn [2, 0, 2, 0, 9, 0, 0, 0, 7]) (fabric), 3, 0, descOf opFabLearn [2, 0, 2, 0, 9, 0, 0, 0, 7],
   ⟨by decide +kernel, by decide +kernel, by decide +kernel⟩, tidy_of_check (by decide +kernel), by decide +kernel⟩

theorem wit_FabricDescriptorsAct_6 : ∃ (s : State) (ring : Nat) (index : Nat) (d : Desc), s.offers ring index opFabLearn d ∧
    s.tidy ∧ s.fabStop = none ∧ learnOp d = 3 ∧ d.operand 6 2 ≤ 8195 :=
  ⟨offer (descOf opFabLearn [3, 0, 2, 0, 9, 0, 3, 32]) (fabric), 3, 0, descOf opFabLearn [3, 0, 2, 0, 9, 0, 3, 32],
   ⟨by decide +kernel, by decide +kernel, by decide +kernel⟩, tidy_of_check (by decide +kernel), by decide +kernel⟩

theorem wit_FabricDescriptorsAct_7_1 : ∃ (s : State) (ring : Nat) (index : Nat) (d : Desc),
    s.offers ring index opFabLearnEvent d ∧ s.fabStop = none ∧ 32 ≤ d.len ∧ s.waiters opFabLearnEvent = [] ∧ s.fab.events = [] :=
  ⟨offer (descOf opFabLearnEvent [] 32) (fabric), 3, 0, descOf opFabLearnEvent [] 32, ⟨by decide +kernel, by decide +kernel,
   by decide +kernel⟩, by decide +kernel⟩

theorem wit_FabricDescriptorsAct_7_2 : ∃ (s : State) (ring : Nat) (index : Nat) (d : Desc),
    s.offers ring index opFabLearnEvent d ∧ s.fabStop = none ∧ 32 ≤ d.len ∧ s.waiters opFabLearnEvent = [] ∧ s.fab.events ≠ [] ∧
    (∀ e ∈ s.fab.events, e ≠ []) :=
  ⟨offer (descOf opFabLearnEvent [] 32) ({ fabric with fab := { fabric.fab with events := [List.replicate 32 1] } }), 3, 0,
   descOf opFabLearnEvent [] 32, ⟨by decide +kernel, by decide +kernel, by decide +kernel⟩, by decide +kernel⟩

theorem wit_FabricDescriptorsAct_8 : ∃ (s : State) (ring : Nat) (index : Nat) (p : Nat) (cnt : Nat) (d : Desc),
    s.offers ring index opFabModule d ∧ s.fabStop = none ∧ d.operand 0 1 = p ∧ p < s.id.part.fabs ∧
    (s.fabPort p).modPresent = true ∧ d.operand 1 1 ≤ 1 ∧ d.operand 4 1 = cnt ∧ 1 ≤ cnt ∧ cnt ≤ 128 ∧
    d.operand 2 1 + cnt ≤ 256 ∧ d.len = cnt ∧ d.operand 3 1 = 0 :=
  ⟨offer (descOf opFabModule [5, 1, 128, 0, 128] 128) (fabric), 3, 0, 5, 128, descOf opFabModule [5, 1, 128, 0, 128] 128,
   ⟨by decide +kernel, by decide +kernel, by decide +kernel⟩, by decide +kernel⟩

theorem wit_FabricDescriptorsAct_9 : ∃ (s : State) (ring : Nat) (index : Nat) (p : Nat) (cnt : Nat) (d : Desc),
    s.offers ring index opFabModule d ∧ s.fabStop = none ∧ d.operand 0 1 = p ∧ p < s.id.part.fabs ∧
    (s.fabPort p).modPresent = true ∧ d.operand 1 1 ≤ 1 ∧ d.operand 4 1 = cnt ∧ 1 ≤ cnt ∧ cnt ≤ 128 ∧
    d.operand 2 1 + cnt ≤ 256 ∧ d.len = cnt ∧ d.operand 3 1 = 0 :=
  ⟨offer (descOf opFabModule [5, 1, 128, 0, 128] 128) (fabric), 3, 0, 5, 128, descOf opFabModule [5, 1, 128, 0, 128] 128,
   ⟨by decide +kernel, by decide +kernel, by decide +kernel⟩, by decide +kernel⟩

theorem wit_FabricDescriptorsAct_10 : ∃ (s : State) (ring : Nat) (index : Nat) (p : Nat) (cnt : Nat) (d : Desc),
    s.offers ring index opFabModule d ∧ s.fabStop = none ∧ d.operand 0 1 = p ∧ p < s.id.part.fabs ∧
    (s.fabPort p).modPresent = true ∧ d.operand 1 1 ≤ 1 ∧ d.operand 4 1 = cnt ∧ 1 ≤ cnt ∧ cnt ≤ 128 ∧
    d.operand 2 1 + cnt ≤ 256 ∧ d.len = cnt ∧ d.operand 3 1 = 1 :=
  ⟨offer (descOf opFabModule [5, 1, 255, 1, 1] 1) (fabric), 3, 0, 5, 1, descOf opFabModule [5, 1, 255, 1, 1] 1,
   ⟨by decide +kernel, by decide +kernel, by decide +kernel⟩, by decide +kernel⟩

theorem wit_FramesAreForwardedAndFlooded_3_1 : ∃ (s : State) (p : Nat) (f : List Byte), s.tidy ∧ s.admits p f ∧
    frClass f = FC.control ∧ frType f = 0 ∧ (frBody f).length = 24 ∧ (s.fabPort p).link = .down ∧
    (s.fabPort p).blockLock = true ∧ (s.fabPort p).hiBer = false :=
  ⟨{ fabric with fab := { fabric.fab with ports := [(5, { FabPort.reset with blockLock := true })] } }, 5,
   frame 9 2 0 (List.replicate 24 0), tidy_of_check (by decide +kernel), (by unfold State.admits; decide +kernel),
   by decide +kernel⟩

theorem wit_FramesAreForwardedAndFlooded_3_2 : ∃ (s : State) (p : Nat) (f : List Byte), s.tidy ∧ s.admits p f ∧
    frClass f = FC.control ∧ frType f = 0 ∧ (frBody f).length = 24 ∧ (let eui := beNat (slice (frBody f) 0 8);
    (s.fabPort p).link = .up ∧ (s.fabPort p).nbrEui = eui) := by
  refine ⟨fabric, 5, frame 9 2 0 (List.replicate 24 0), tidy_of_check (by decide +kernel), (by unfold State.admits; decide +kernel),
     ?_, ?_, ?_, ?_⟩ <;>
  decide +kernel

theorem wit_FramesAreForwardedAndFlooded_3_3 : ∃ (s : State) (p : Nat) (f : List Byte), s.tidy ∧ s.admits p f ∧
    frClass f = FC.control ∧ frType f = 0 ∧ (frBody f).length = 24 ∧ (let eui := beNat (slice (frBody f) 0 8);
    (s.fabPort p).link = .up ∧ (s.fabPort p).nbrEui ≠ eui) := by
  refine ⟨{ fabric with fab := { fabric.fab with ports := [(5, { FabPort.reset with blockLock := true, link := .up, nbrEui := 1 })] } },
     5, frame 9 2 0 (List.replicate 24 0), tidy_of_check (by decide +kernel), (by unfold State.admits; decide +kernel), ?_, ?_,
     ?_, ?_⟩ <;>
  decide +kernel

theorem wit_FramesAreForwardedAndFlooded_4_3 : ∃ (s : State) (dt : Nat) (p : Nat) (f : List Byte), s.tidy ∧ s.takesFrame p f ∧
    frClass f = FC.control ∧ frType f = 1 ∧ frLocal f = false ∧ frFlood f = true ∧ (frBody f).length = 16 ∧
    s.fab.addrState ≠ .none ∧ (let b := frBody f; (let eui := beNat (slice b 0 8);
    (let key := [1, eui, byteAt b 10, byteAt b 11 % 2]; (s.elapse dt).dupSeen key = false ∧ (fieldLE b 8 2 ≠ s.fab.addr ∨
    fieldLE b 8 2 = 0 ∨ eui = s.id.eui.toNat) ∧ s.fab.addrState ≠ .conflict ∧ 1 < frHops f))) := by
  refine ⟨fabric, 0, 5, flood 2 1 (List.replicate 16 0), tidy_of_check (by decide +kernel),
     (by unfold State.takesFrame State.admits; decide +kernel), ?_, ?_, ?_, ?_, ?_, ?_, ?_⟩ <;>
  decide +kernel

theorem wit_FramesAreForwardedAndFlooded_4_4 : ∃ (s : State) (dt : Nat) (p : Nat) (f : List Byte), s.tidy ∧ s.takesFrame p f ∧
    frClass f = FC.control ∧ frType f = 1 ∧ frLocal f = false ∧ frFlood f = true ∧ (frBody f).length = 16 ∧
    s.fab.addrState ≠ .none ∧ (let b := frBody f; (let eui := beNat (slice b 0 8);
    (let key := [1, eui, byteAt b 10, byteAt b 11 % 2]; (s.elapse dt).dupSeen key = false ∧ fieldLE b 8 2 = s.fab.addr ∧
    s.fab.addr ≠ 0 ∧ s.fab.addrState ≠ .conflict ∧ s.id.eui.toNat < eui))) := by
  refine ⟨{ fabric with id := { fabric.id with eui := 5 } }, 0, 5, flood 2 1 (List.replicate 7 0 ++ [6] ++ [9, 0, 1, 0, 0, 0, 0, 0]),
     tidy_of_check (by decide +kernel), (by unfold State.takesFrame State.admits; decide +kernel), ?_, ?_, ?_, ?_, ?_, ?_, ?_⟩ <;>
  decide +kernel

theorem wit_FramesAreForwardedAndFlooded_4_6 : ∃ (s : State) (dt : Nat) (p : Nat) (f : List Byte), s.tidy ∧ s.takesFrame p f ∧
    frClass f = FC.control ∧ frType f = 1 ∧ frLocal f = false ∧ frFlood f = true ∧ (frBody f).length = 16 ∧
    s.fab.addrState ≠ .none ∧ (let b := frBody f; (let eui := beNat (slice b 0 8);
    (let key := [1, eui, byteAt b 10, byteAt b 11 % 2]; (s.elapse dt).dupSeen key = false ∧ fieldLE b 8 2 = s.fab.addr ∧
    s.fab.addr ≠ 0 ∧ s.fab.addrState ≠ .conflict ∧ eui < s.id.eui.toNat ∧ s.addrFixed = true))) := by
  refine ⟨withAct F.FAB_CTRL_ADDR_MODE 0 1 { fabric with id := { fabric.id with eui := 5 } }, 0, 5,
     flood 2 1 (List.replicate 7 0 ++ [4] ++ [9, 0, 1, 0, 0, 0, 0, 0]), tidy_of_check (by decide +kernel),
     (by unfold State.takesFrame State.admits; decide +kernel), ?_, ?_, ?_, ?_, ?_, ?_, ?_⟩ <;>
  decide +kernel

theorem wit_FramesAreForwardedAndFlooded_5_3 : ∃ (s : State) (p : Nat) (f : List Byte), s.takesFrame p f ∧
    frClass f = FC.control ∧ frType f = 2 ∧ frLocal f = false ∧ frFlood f = true ∧ s.fab.addrState ≠ .none ∧ (let b := frBody f;
    (let eui := beNat (slice b 0 8); (let seq : Word := BitVec.ofNat 32 (fieldLE b 8 4); byteAt b 12 ≤ 6 ∧
    b.length = 16 + 4 * byteAt b 12 ∧ (∀ e, tfind s.fab.lsdb (frSrc f) = some e → e.eui ≠ eui ∨ (1 ≤ (seq - e.seq).toNat ∧
    (seq - e.seq).toNat < 2 ^ 31)) ∧ tfind s.fab.lsdb (frSrc f) = none))) := by
  refine ⟨fabric, 5, flood 2 2 (List.replicate 16 0), (by unfold State.takesFrame State.admits; decide +kernel), ?_, ?_, ?_, ?_, ?_,
     ?_, ?_, (by intro e h; cases h), ?_⟩ <;>
  decide +kernel

theorem wit_FramesAreForwardedAndFlooded_5_4 : ∃ (s : State) (p : Nat) (f : List Byte), s.takesFrame p f ∧
    frClass f = FC.control ∧ frType f = 2 ∧ frLocal f = false ∧ frFlood f = true ∧ s.fab.addrState ≠ .none ∧ (let b := frBody f;
    (let eui := beNat (slice b 0 8); (let seq : Word := BitVec.ofNat 32 (fieldLE b 8 4); byteAt b 12 ≤ 6 ∧
    b.length = 16 + 4 * byteAt b 12 ∧ ∃ e, tfind s.fab.lsdb (frSrc f) = some e ∧ e.eui = eui ∧ ¬ (1 ≤ (seq - e.seq).toNat ∧
    (seq - e.seq).toNat < 2 ^ 31)))) := by
  refine ⟨{ fabric with fab := { fabric.fab with lsdb := [(30, ⟨0, 1, [], 0⟩)] } }, 5,
     flood 2 2 (List.replicate 8 0 ++ [1] ++ List.replicate 7 0), (by unfold State.takesFrame State.admits; decide +kernel), ?_,
     ?_, ?_, ?_, ?_, ?_, ?_, (⟨0, 1, [], 0⟩ : Lsa), ?_⟩ <;>
  decide +kernel

theorem wit_FramesReachTheirUnits_1_1 : ∃ (s : State) (p : Nat) (f : List Byte), s.addressed p f ∧ frClass f = FC.control ∧
    frType f = 3 ∧ s.fld.fault = false ∧ s.unitOn U.fld = true ∧ (let b := frBody f; 1 ≤ fieldLE b 8 2 ∧ fieldLE b 8 2 ≤ 339 ∧
    b.length = 12 + 6 * fieldLE b 8 2 ∧ s.fieldById (fieldLE b 0 4) = none) := by
  refine ⟨fabric, 5, frame 9 2 3 ([8, 0, 0, 0] ++ List.replicate 4 0 ++ [1, 0] ++ List.replicate 8 0),
     (by unfold State.addressed State.takesFrame State.admits; decide +kernel), ?_, ?_, ?_, ?_, ?_⟩ <;>
  decide +kernel

theorem wit_FramesReachTheirUnits_1_3 : ∃ (s : State) (p : Nat) (f : List Byte), s.addressed p f ∧ frClass f = FC.control ∧
    frType f = 3 ∧ s.fld.fault = false ∧ s.unitOn U.fld = true ∧ (let b := frBody f; 1 ≤ fieldLE b 8 2 ∧ fieldLE b 8 2 ≤ 339 ∧
    b.length = 12 + 6 * fieldLE b 8 2 ∧ (s.fieldById (fieldLE b 0 4)).isSome = true ∧ s.fld.senders.length < 64) := by
  refine ⟨{ field with fab := fabric.fab, cfg := (withAct F.FAB_PORT_CTRL_EN 5 1 field).cfg }, 5, frame 9 2 3 ([9, 0, 0,
     0] ++ List.replicate 4 0 ++ [1, 0] ++ List.replicate 8 0),
     (by unfold State.addressed State.takesFrame State.admits; decide +kernel), ?_, ?_, ?_, ?_, ?_⟩ <;>
  decide +kernel

theorem wit_FramesReachTheirUnits_2_1 : ∃ (s : State) (p : Nat) (f : List Byte), s.addressed p f ∧ frClass f = FC.correction ∧
    s.fix.fault = false ∧ (∀ d ∈ s.waiters opFixRtcmGet, d.operand 0 1 ≠ 1) :=
  ⟨fabric, 5, frame 9 FC.correction 0 [1], (by unfold State.addressed State.takesFrame State.admits; decide +kernel),
   by decide +kernel⟩

theorem wit_FramesReachTheirUnits_2_3 : ∃ (s : State) (p : Nat) (f : List Byte), s.addressed p f ∧ frClass f = FC.correction ∧
    s.fix.fault = false ∧ (let sets := splitRtcm 2048 (frBody f); ∃ d,
    (s.waiters opFixRtcmGet).find? (fun d => d.operand 0 1 = 1) = some d ∧ s.awaits d ∧ sets ≠ [] ∧ sets.flatten.length ≤ d.len) := by
  refine ⟨offer { descOf opFixRtcmGet [1] 64 with phase := .waiting } fabric, 5, frame 9 FC.correction 0 [0xD3, 0, 0, 0, 0, 0],
     (by unfold State.addressed State.takesFrame State.admits; decide +kernel), ?_, ?_,
     { descOf opFixRtcmGet [1] 64 with phase := .waiting }, ?_, (by unfold State.awaits; decide +kernel), ?_⟩ <;>
  decide +kernel

/-- A slot table of three slots: the first of a type and owned by machine 255, then a beacon slot and an idle one. -/
def slotTable (type : Nat) : List Byte :=
  List.replicate 6 0 ++ leBytes 2 3 ++ [1] ++ List.replicate 71 0 ++ ([type, 0, 0, 0, 255, 0, 0, 0].map fun b => BitVec.ofNat 8 b) ++
    [1, 0, 0, 0, 0, 0, 0, 0] ++ List.replicate 8 0

/-- Machine 255 has EUI-64 1 and is joined on radio port 3, which has a `DOWNLINK` slot. -/
def machine : State :=
  { fabric with
    cfg := { fabric.cfg with active := { fabric.cfg.active with machines := [(255, [1, 0, 0, 0, 0, 0, 0, 0, 1])] } }
    hop := { joinedHop with ports := [(3, { HopPort.reset with table := slotTable 3 })] } }

theorem wit_FramesReachTheirUnits_3_1 : ∃ (s : State) (p : Nat) (f : List Byte), s.addressed p f ∧ frClass f = FC.relay ∧
    21 ≤ (frBody f).length ∧ (let b := frBody f; (let dest := beNat (slice b 0 8); dest ≠ 0 ∧ ∃ m,
    s.machineByEui dest = some m ∧ s.joined m = true ∧ s.messagesOn (s.machLink m).port < 256 ∧
    (b.drop 20).length ≤ s.messageCap (s.machLink m).port m)) := by
  refine ⟨machine, 5, frame 9 FC.relay 0 (List.replicate 7 0 ++ [1] ++ List.replicate 7 0 ++ [2] ++ List.replicate 5 0),
     (by unfold State.addressed State.takesFrame State.admits; decide +kernel), ?_, ?_, ?_, 255, ?_⟩ <;>
  decide +kernel

theorem wit_FramesReachTheirUnits_3_3 : ∃ (s : State) (p : Nat) (f : List Byte), s.addressed p f ∧ frClass f = FC.relay ∧
    21 ≤ (frBody f).length ∧ (let b := frBody f; (let dest := beNat (slice b 0 8); dest ≠ 0 ∧ (∀ m,
    s.machineByEui dest = some m → s.joined m = false ∨ s.messageCap (s.machLink m).port m < (b.drop 20).length))) :=
  ⟨fabric, 5, frame 9 FC.relay 0 (List.replicate 7 0 ++ [1] ++ List.replicate 7 0 ++ [2] ++ List.replicate 5 0),
   (by unfold State.addressed State.takesFrame State.admits; decide +kernel), by decide +kernel, by decide +kernel,
   by decide +kernel⟩

theorem wit_FramesReachTheirUnits_3_5 : ∃ (s : State) (dt : Nat) (p : Nat) (f : List Byte), s.addressed p f ∧
    frClass f = FC.relay ∧ 21 ≤ (frBody f).length ∧ (let b := frBody f; (let dest := beNat (slice b 0 8);
    (let src := beNat (slice b 8 8); dest ≠ 0 ∧ ∃ old,
    old = s.fab.filter.filter (fun g => decide (s.clk.counter + dt < g.seen + s.reg F.FAB_LEARN_CTRL_WINDOW * tickMs)) ∧
    s.act F.FAB_PORT_CTRL_LEARN_EN p = 1 ∧ src ≠ 0 ∧ learnFind s.fab.learn src = none ∧ old.length < 64 ∧ (∀ g ∈ old,
    g.eui ≠ src)))) := by
  refine ⟨withAct F.FAB_PORT_CTRL_LEARN_EN 5 1 fabric, 0, 5,
     frame 9 FC.relay 0 (List.replicate 7 0 ++ [1] ++ List.replicate 7 0 ++ [2] ++ List.replicate 5 0),
     (by unfold State.addressed State.takesFrame State.admits; decide +kernel), ?_, ?_, ?_, [], ?_⟩ <;>
  decide +kernel

theorem wit_FramesReachTheirUnits_4_1 : ∃ (s : State) (p : Nat) (f : List Byte), s.addressed p f ∧ ((frClass f = FC.control ∧
    frType f = 4) ∨ (frClass f = FC.bulk ∧ frType f = 0)) ∧ s.waiters opFabRecv = [] :=
  ⟨fabric, 5, frame 9 FC.bulk 0 [1], (by unfold State.addressed State.takesFrame State.admits; decide +kernel),
   by decide +kernel⟩

theorem wit_FramesReachTheirUnits_4_3 : ∃ (s : State) (p : Nat) (f : List Byte), s.addressed p f ∧ ((frClass f = FC.control ∧
    frType f = 4) ∨ (frClass f = FC.bulk ∧ frType f = 0)) ∧ ∃ d rest, s.waiters opFabRecv = d :: rest ∧ s.awaits d ∧
    frBody f ≠ [] ∧ d.len ≠ 0 :=
  ⟨offer { descOf opFabRecv [] 64 with phase := .waiting } fabric, 5, frame 9 FC.bulk 0 [1],
   (by unfold State.addressed State.takesFrame State.admits; decide +kernel), by decide +kernel,
   { descOf opFabRecv [] 64 with phase := .waiting }, ([] : List Desc), by decide +kernel,
   (by unfold State.awaits; decide +kernel), by decide +kernel⟩

theorem wit_AddressesRoutesAndLearningRun_3_1 : ∃ (s : State) (dt : Nat), (s.elapse dt).lsaIsDue = true ∧ ∃ q,
    s.fab.lsaSeq = some q :=
  ⟨{ fabric with fab := { fabric.fab with lsaSeq := some 4 } }, 0, by decide +kernel, 4, by decide +kernel⟩

theorem wit_AddressesRoutesAndLearningRun_5_1 : ∃ (s : State) (dt : Nat) (a : Nat), s.fab.spfDue = some a ∧ s.pwr.state = .run ∧
    s.fab.fault = false ∧ a + s.reg F.FAB_ROUTE_SPF_HOLD * 10 * tickMs ≤ s.clk.counter + dt ∧ s.fab.addrState ≠ .claimed :=
  ⟨{ fabric with fab := { fabric.fab with spfDue := some 0, addrState := .conflict } }, 1000 * tickS, 0, by decide +kernel⟩

theorem wit_AddressesRoutesAndLearningRun_5_2 : ∃ (s : State) (dt : Nat) (a : Nat), s.fab.spfDue = some a ∧ s.pwr.state = .run ∧
    s.fab.fault = false ∧ a + s.reg F.FAB_ROUTE_SPF_HOLD * 10 * tickMs ≤ s.clk.counter + dt ∧ s.fab.addrState = .claimed ∧
    s.fab.addr ≠ fabBroadcast :=
  ⟨{ fabric with fab := { fabric.fab with spfDue := some 0 } }, 1000 * tickS, 0, by decide +kernel⟩

theorem wit_LinksAreHeldAndFramesLeave_1_1 : ∃ (s : State) (dt : Nat), (s.elapse dt).due T.hello (10 * tickMs) = true ∧ ∃ p,
    s.portOn p = true ∧ (s.egress p 2).length < queueDepth 2 :=
  ⟨fabric, 10 * tickMs, by decide +kernel, 5, by decide +kernel⟩

theorem wit_LinksAreHeldAndFramesLeave_1_5 : ∃ (s : State) (dt : Nat), (s.elapse dt).due T.hello (10 * tickMs) = true ∧ ∃ p,
    s.portOn p = false :=
  ⟨fabric, 10 * tickMs, by decide +kernel, 3, by decide +kernel⟩

theorem wit_LinksAreHeldAndFramesLeave_2_1 : ∃ (s : State) (dt : Nat) (p : Nat) (c : Instr), s.tidy ∧ (s.fabPort p).link = .up ∧
    ((c = .fabLinkTimeout dt p ∧ ∃ a, (s.fabPort p).helloAt = some a ∧ a + 30 * tickMs ≤ s.clk.counter + dt) ∨
    (p < s.id.part.fabs ∧ ∃ b, c = .fabPcsLoss dt p b)) ∧ ∃ b, c = .fabPcsLoss dt p b :=
  ⟨fabric, 0, 5, .fabPcsLoss 0 5 true, tidy_of_check (by decide +kernel), by decide +kernel,
   .inr ⟨by decide +kernel, true, rfl⟩, true, by decide +kernel⟩

theorem wit_FabricDescriptorsAct_2_1 : ∃ (s : State) (ring : Nat) (index : Nat) (d : Desc), s.offers ring index opFabRecv d ∧
    s.fabStop = none ∧ (s.waiters opFabRecv).length < 16 :=
  ⟨offer (descOf opFabRecv) (fabric), 3, 0, descOf opFabRecv, ⟨by decide +kernel, by decide +kernel, by decide +kernel⟩,
   by decide +kernel⟩

/-- Radio port 3 follows the table; machine 255 is joined there, and so is the node of short address 0x100. -/
def radio (type : Nat) (cur : Option CurSlot) (s : State := live) : State :=
  withAct F.HOP_PORT_CTRL_EN 3 1
    { s with hop := { live.hop with
        ports := [(3, { HopPort.reset with table := slotTable type, cur := cur })]
        machines := [(255, ⟨.joined, 0, 3, none⟩)]
        nodeTable := List.replicate 8 1 ++ [0, 1, 3, 0, 1, 0, 0, 0]
        nodes := [(0, { NodeLink.reset with joined := true, unsynced := true })]
        queue := [⟨0x100, 3, 0, [], 0, 0, none, false⟩] } }

/-- The port is in slot 0 and listens throughout it. -/
def slot (l : Listen) : CurSlot := ⟨0, 0, 0, some l, 0, 100000, false, false, none⟩

theorem wit_SuperframesAndSlotsRun_1 : ∃ (s : State) (dt : Nat), s.tidy ∧ s.radiosRun = true ∧ s.pwr.inReset = false ∧
    s.unitOn U.hop = true ∧ s.hop.sf ≠ (s.elapse dt).now / sfNs ∧
    (s.elapse dt).commitWaits ((s.elapse dt).now / sfNs * sfNs) = false :=
  ⟨radio 4 none, 5000000, tidy_of_check (by decide +kernel), by decide +kernel⟩

theorem wit_SuperframesAndSlotsRun_1_1 : ∃ (s : State) (dt : Nat), s.tidy ∧ s.radiosRun = true ∧ s.pwr.inReset = false ∧
    s.unitOn U.hop = true ∧ s.hop.sf ≠ (s.elapse dt).now / sfNs ∧
    (s.elapse dt).commitWaits ((s.elapse dt).now / sfNs * sfNs) = false ∧ ∃ p, s.hopEnabled p = true := by
  refine ⟨radio 4 none, 5000000, tidy_of_check (by decide +kernel), ?_, ?_, ?_, ?_, ?_, 3, ?_⟩ <;>
  decide +kernel

theorem wit_SuperframesAndSlotsRun_1_4 : ∃ (s : State) (dt : Nat), s.tidy ∧ s.radiosRun = true ∧ s.pwr.inReset = false ∧
    s.unitOn U.hop = true ∧ s.hop.sf ≠ (s.elapse dt).now / sfNs ∧
    (s.elapse dt).commitWaits ((s.elapse dt).now / sfNs * sfNs) = false ∧ ∃ p, s.hopEnabled p = true ∧ s.stp.latched = true := by
  refine ⟨radio 4 none stopped, 5000000, tidy_of_check (by decide +kernel), ?_, ?_, ?_, ?_, ?_, 3, ?_⟩ <;>
  decide +kernel

theorem wit_SuperframesAndSlotsRun_2 : ∃ (s : State) (dt : Nat), s.tidy ∧ s.radiosRun = false ∧ s.pwr.state ≠ .safeHold ∧
    s.pwr.inReset = false ∧ s.unitOn U.hop = true ∧ s.hop.sf ≠ (s.elapse dt).now / sfNs ∧
    (s.elapse dt).commitWaits ((s.elapse dt).now / sfNs * sfNs) = false :=
  ⟨radio 4 none { live with pwr := { live.pwr with state := .waitHost } }, 5000000, tidy_of_check (by decide +kernel),
   by decide +kernel⟩

theorem wit_SuperframesAndSlotsRun_3_1 : ∃ (s : State) (dt : Nat) (p : Nat), s.tidy ∧ s.hopLive p = true ∧
    (s.hopPort p).cur = none ∧ (s.hopPort p).storm = false ∧ (let now := (s.elapse dt).now; (let asn := now / s.slotNs p;
    (let i := now % sfNs / s.slotNs p; (let tab := (s.hopPort p).table; s.hop.sf = now / sfNs ∧
    (s.hopPort p).served ≠ some asn ∧ s.anchorHere p i (now / sfNs) = false ∧
    (s.elapse dt).commitWaits (s.slotAt p asn) = false ∧ (stType tab i = 4 ∨ stType tab i = 5) ∧
    s.joined (stOwner tab i) = true ∧ (s.machLink (stOwner tab i)).port = p)))) := by
  refine ⟨radio 4 none, 0, 3, tidy_of_check (by decide +kernel), ?_, ?_, ?_, ?_⟩ <;>
  decide +kernel

theorem wit_SuperframesAndSlotsRun_3_3 : ∃ (s : State) (dt : Nat) (p : Nat), s.tidy ∧ s.hopLive p = true ∧
    (s.hopPort p).cur = none ∧ (s.hopPort p).storm = false ∧ (let now := (s.elapse dt).now; (let asn := now / s.slotNs p;
    (let i := now % sfNs / s.slotNs p; (let tab := (s.hopPort p).table; s.hop.sf = now / sfNs ∧
    (s.hopPort p).served ≠ some asn ∧ s.anchorHere p i (now / sfNs) = false ∧
    (s.elapse dt).commitWaits (s.slotAt p asn) = false ∧ stType tab i = 6 ∧ s.answerDue p i (now / sfNs) false = none)))) := by
  refine ⟨radio 6 none, 0, 3, tidy_of_check (by decide +kernel), ?_, ?_, ?_, ?_⟩ <;>
  decide +kernel

theorem wit_SuperframesAndSlotsRun_3_5 : ∃ (s : State) (dt : Nat) (p : Nat), s.tidy ∧ s.hopLive p = true ∧
    (s.hopPort p).cur = none ∧ (s.hopPort p).storm = false ∧ (let now := (s.elapse dt).now; (let asn := now / s.slotNs p;
    (let i := now % sfNs / s.slotNs p; (let tab := (s.hopPort p).table; s.hop.sf = now / sfNs ∧
    (s.hopPort p).served ≠ some asn ∧ s.anchorHere p i (now / sfNs) = false ∧
    (s.elapse dt).commitWaits (s.slotAt p asn) = false ∧ stType tab i = 1 ∧
    (s.formKey p asn (s.hopPort p).beaconKey).isSome = true)))) := by
  refine ⟨{ radio 1 none with hop := { (radio 1 none).hop with
      ports := [(3, { HopPort.reset with table := slotTable 1, beaconKey := some (0, [7]) })] } },
     0, 3, tidy_of_check (by decide +kernel), ?_, ?_, ?_, ?_⟩ <;>
  decide +kernel

theorem wit_SuperframesAndSlotsRun_4_1 : ∃ (s : State) (dt : Nat) (p : Nat) (m : Nat) (c : CurSlot), s.tidy ∧
    s.radiosRun = true ∧ (s.hopPort p).cur = some c ∧ s.spanEnd p c ≤ (s.elapse dt).now ∧
    (s.elapse dt).commitWaits (s.spanEnd p c) = false ∧ c.got = none ∧ c.listen = some (.machine m true) ∧
    s.stp.latched = false ∧ (s.hopPort p).storm = false ∧ s.joined m = true ∧ c.good = true :=
  ⟨{ radio 4 (some { slot (.machine 255 true) with good := true }) with hop :=
      { (radio 4 (some { slot (.machine 255 true) with good := true })).hop with machines := [(255, ⟨.joined, 2, 3, none⟩)] } },
   10 * tickMs, 3, 255, { slot (.machine 255 true) with good := true }, tidy_of_check (by decide +kernel), by decide +kernel⟩

theorem wit_SuperframesAndSlotsRun_4_2 : ∃ (s : State) (dt : Nat) (p : Nat) (m : Nat) (c : CurSlot), s.tidy ∧
    s.radiosRun = true ∧ (s.hopPort p).cur = some c ∧ s.spanEnd p c ≤ (s.elapse dt).now ∧
    (s.elapse dt).commitWaits (s.spanEnd p c) = false ∧ c.got = none ∧ c.listen = some (.machine m true) ∧
    s.stp.latched = false ∧ (s.hopPort p).storm = false ∧ s.joined m = true ∧ c.good = false ∧ (s.machLink m).missed < 2 :=
  ⟨{ radio 4 (some { slot (.machine 255 true) with good := false }) with hop :=
      { (radio 4 (some { slot (.machine 255 true) with good := false })).hop with machines := [(255, ⟨.joined, 1, 3, none⟩)] } },
   10 * tickMs, 3, 255, { slot (.machine 255 true) with good := false }, tidy_of_check (by decide +kernel), by decide +kernel⟩

theorem wit_SuperframesAndSlotsRun_4_3 : ∃ (s : State) (dt : Nat) (p : Nat) (m : Nat) (c : CurSlot), s.tidy ∧
    s.radiosRun = true ∧ (s.hopPort p).cur = some c ∧ s.spanEnd p c ≤ (s.elapse dt).now ∧
    (s.elapse dt).commitWaits (s.spanEnd p c) = false ∧ c.got = none ∧ c.listen = some (.machine m true) ∧
    s.stp.latched = false ∧ (s.hopPort p).storm = false ∧ s.joined m = true ∧ c.good = false ∧ 2 ≤ (s.machLink m).missed :=
  ⟨{ radio 4 (some { slot (.machine 255 true) with good := false }) with hop :=
      { (radio 4 (some { slot (.machine 255 true) with good := false })).hop with machines := [(255, ⟨.joined, 2, 3, none⟩)] } },
   10 * tickMs, 3, 255, { slot (.machine 255 true) with good := false }, tidy_of_check (by decide +kernel), by decide +kernel⟩

/-- The session of an address of the link bank. -/
def session : LinkKeys := ⟨⟨[1], [2]⟩, ⟨[3], [4]⟩, ⟨[5], [6]⟩⟩
def linked (a : Nat) (s : State) : State := { s with key := { s.key with link := [(a, session)] } }

/-- A radio frame of a type, with its first bytes after the network identifier. -/
def rframe (ctl : Byte) (rest : List Byte) : List Byte := [ctl, 0, 0, 0] ++ rest

theorem wit_RadioFramesAreTaken_1 : ∃ (s : State) (dt : Nat) (p : Nat) (time : Nat) (m : Nat) (up : Bool) (c : CurSlot) (k : LinkKeys) (f : List Byte),
    s.tidy ∧ (s.elapse dt).rxSlot p time f.length = some c ∧ s.slotAt p c.asn + s.slotNs p ≤ (s.elapse dt).now ∧
    rfNet f = s.act F.HOP_CTRL_NET_ID ∧ rfType f = 5 ∧ c.listen = some (.machine m up) ∧ rfAddr f = m ∧ rfEnc f = true ∧
    s.sessionOf m = some k :=
  ⟨linked 255 (radio 4 (some (slot (.machine 255 true)))), 10 * tickMs, 3, 0, 255, true, slot (.machine 255 true), session,
   rframe 0x15 ([255, 0] ++ List.replicate 10 0), tidy_of_check (by decide +kernel), by decide +kernel⟩

theorem wit_RadioFramesAreTaken_2 : ∃ (s : State) (dt : Nat) (p : Nat) (time : Nat) (c : CurSlot) (j : List Byte) (f : List Byte),
    s.tidy ∧ (s.elapse dt).rxSlot p time f.length = some c ∧ s.slotAt p c.asn + s.slotNs p ≤ (s.elapse dt).now ∧
    rfNet f = s.act F.HOP_CTRL_NET_ID ∧ rfType f = 6 ∧ c.listen = some .shared ∧ rfEnc f = false ∧ 28 ≤ f.length ∧
    s.joinKey (beNat (slice f 6 8)) = some j := by
  refine ⟨keyed 2 0 (withAct F.HOP_KEYS_JOIN_ROOT 0 1023 (radio 6 (some (slot .shared)))), 10 * tickMs, 3, 0, slot .shared,
     kdf (kdf [] false [] [] (typeSize 2)) false Label.mgJoin (beBytes 8 0 ++ beBytes 2 0) 32, rframe 6 (List.replicate 24 0),
     tidy_of_check (by decide +kernel), ?_, ?_, ?_, ?_, ?_, ?_, ?_,
     (by rw [State.joinKey, State.joinSecret, show State.act _ F.HOP_KEYS_JOIN_ROOT = 1023 by decide +kernel, keyed_ready _ _ _ rfl, keyed_material, keyed_valid]; rfl)⟩ <;>
  decide +kernel

theorem wit_RadioFramesAreTaken_3 : ∃ (s : State) (dt : Nat) (p : Nat) (time : Nat) (n : Nat) (c : CurSlot) (k : LinkKeys) (f : List Byte),
    s.tidy ∧ (s.elapse dt).rxSlot p time f.length = some c ∧ s.slotAt p c.asn + s.slotNs p ≤ (s.elapse dt).now ∧
    rfNet f = s.act F.HOP_CTRL_NET_ID ∧ rfType f = 8 ∧ c.listen = some (.node n) ∧ rfAddr f = ntShort s.hop.nodeTable n ∧
    rfEnc f = true ∧ s.sessionOf (rfAddr f) = some k :=
  ⟨linked 0x100 (radio 7 (some (slot (.node 0)))), 10 * tickMs, 3, 0, 0, slot (.node 0), session, rframe 0x18 ([0,
   1] ++ List.replicate 10 0), tidy_of_check (by decide +kernel), by decide +kernel⟩

theorem wit_RadioFramesAreTaken_4 : ∃ (s : State) (dt : Nat) (p : Nat) (time : Nat) (n : Nat) (c : CurSlot) (k : List Byte) (f : List Byte),
    s.tidy ∧ (s.elapse dt).rxSlot p time f.length = some c ∧ rfNet f = s.act F.HOP_CTRL_NET_ID ∧ rfType f = 10 ∧
    (let is := fun x => s.act F.STP_PENDANT_EN x = 1 ∧ ntEn s.hop.nodeTable (s.act F.STP_PENDANT_NODE x) = true ∧ ntShort s.hop.nodeTable (s.act F.STP_PENDANT_NODE x) = rfAddr f;
    s.unitOn U.stp = true ∧ n < 16 ∧ is n ∧ (∀ x, x < n → ¬ is x) ∧ s.readyKey (s.act F.STP_PENDANT_KEY_RECORD) = some k ∧
    f.length = 24) := by
  refine ⟨keyed 0 0 (withAct F.STP_PENDANT_KEY_RECORD 0 1023 <| withAct F.STP_PENDANT_EN 15 1 <|
    withAct F.STP_PENDANT_NODE 15 0 (radio 6 (some (slot .shared)))),
     10 * tickMs, 3, 0, 15, slot .shared, kdf [] false [] [] (typeSize 0), rframe 0x0A ([0, 1] ++ List.replicate 18 0),
     tidy_of_check (by decide +kernel), ?_, ?_, ?_, ?_, ?_, ?_, ?_,
     (by rw [show State.act _ F.STP_PENDANT_KEY_RECORD = 1023 by decide +kernel]; exact keyed_ready _ _ _ rfl), ?_⟩ <;>
  decide +kernel

theorem wit_DownlinksAreQueuedAndDiscarded_1 : ∃ (s : State) (ring : Nat) (index : Nat) (a : Nat) (d : Desc),
    s.offers ring index opHopSend d ∧ s.unitOn U.hop = true ∧ d.operand 0 2 = a ∧ a < 256 ∧ d.operand 2 1 ≤ 3 ∧ 1 ≤ d.len :=
  ⟨offer (descOf opHopSend [255, 0, 3] 4) (radio 4 none), 3, 0, 255, descOf opHopSend [255, 0, 3] 4, ⟨by decide +kernel,
   by decide +kernel, by decide +kernel⟩, by decide +kernel⟩

theorem wit_DownlinksAreQueuedAndDiscarded_1_1 : ∃ (s : State) (ring : Nat) (index : Nat) (a : Nat) (d : Desc),
    s.offers ring index opHopSend d ∧ s.unitOn U.hop = true ∧ d.operand 0 2 = a ∧ a < 256 ∧ d.operand 2 1 ≤ 3 ∧ 1 ≤ d.len ∧
    s.joined a = true ∧ d.len ≤ s.messageCap (s.machLink a).port a ∧ s.messagesOn (s.machLink a).port < 256 :=
  ⟨offer (descOf opHopSend [255, 0, 3] 4) (radio 3 none), 3, 0, 255, descOf opHopSend [255, 0, 3] 4, ⟨by decide +kernel,
   by decide +kernel, by decide +kernel⟩, by decide +kernel⟩

theorem wit_DownlinksAreQueuedAndDiscarded_1_2 : ∃ (s : State) (ring : Nat) (index : Nat) (a : Nat) (d : Desc),
    s.offers ring index opHopSend d ∧ s.unitOn U.hop = true ∧ d.operand 0 2 = a ∧ a < 256 ∧ d.operand 2 1 ≤ 3 ∧ 1 ≤ d.len ∧
    s.joined a = false :=
  ⟨offer (descOf opHopSend [255, 0, 3] 4) (live), 3, 0, 255, descOf opHopSend [255, 0, 3] 4, ⟨by decide +kernel,
   by decide +kernel, by decide +kernel⟩, by decide +kernel⟩

theorem wit_DownlinksAreQueuedAndDiscarded_2 : ∃ (s : State) (ring : Nat) (index : Nat) (d : Desc),
    s.offers ring index opHopRecv d ∧ s.unitOn U.hop = true :=
  ⟨offer (descOf opHopRecv) (radio 4 none), 3, 0, descOf opHopRecv, ⟨by decide +kernel, by decide +kernel,
   by decide +kernel⟩, by decide +kernel⟩

theorem wit_DownlinksAreQueuedAndDiscarded_2_2 : ∃ (s : State) (ring : Nat) (index : Nat) (d : Desc),
    s.offers ring index opHopRecv d ∧ s.unitOn U.hop = true ∧ 8 ≤ (s.waiters opHopRecv).length :=
  ⟨{ offer (descOf opHopRecv) with hst := { (offer (descOf opHopRecv)).hst with
      taken := descOf opHopRecv :: (List.range 8).map fun i => { descOf opHopRecv with serial := i + 4, index := i + 1, phase := .waiting } } },
   3, 0, descOf opHopRecv, ⟨by decide +kernel, by decide +kernel, by decide +kernel⟩, by decide +kernel⟩

theorem wit_DownlinksAreQueuedAndDiscarded_3 : ∃ (s : State) (dt : Nat) (k : Nat), s.radiosRun = true ∧
    k < ntCount s.hop.nodeTable ∧ (s.nodeLink k).unsynced = true ∧
    (s.nodeLink k).unsyncAt + s.reg F.HOP_NODE_CTRL_UNSYNC_HOLD * tickS ≤ s.clk.counter + dt ∧ (∃ b ∈ s.hop.queue,
    b.addr = ntShort s.hop.nodeTable k) := by
  refine ⟨radio 4 none, 100 * tickS, 0, ?_, ?_, ?_, ?_, ⟨_, List.mem_singleton.mpr rfl, by decide +kernel⟩⟩ <;>
  decide +kernel

theorem wit_DownlinksAreQueuedAndDiscarded_2_1 : ∃ (s : State) (ring : Nat) (index : Nat) (d : Desc),
    s.offers ring index opHopRecv d ∧ s.unitOn U.hop = true ∧ (s.waiters opHopRecv).length < 8 :=
  ⟨offer (descOf opHopRecv), 3, 0, descOf opHopRecv, ⟨by decide +kernel, by decide +kernel, by decide +kernel⟩,
   by decide +kernel⟩

/-- The slot in which a frame of machine 255 was received. -/
def gotSlot : CurSlot := { slot (.machine 255 true) with got := some (0, 7, rframe 0x15 ([255, 0] ++ List.replicate 9 0)) }

theorem wit_SuperframesAndSlotsRun_5 : ∃ (s : State) (dt : Nat) (p : Nat) (m : Nat) (time : Nat) (rssi : Nat) (c : CurSlot) (k : LinkKeys) (f : List Byte),
    s.tidy ∧ s.radiosRun = true ∧ (s.hopPort p).cur = some c ∧ s.spanEnd p c ≤ (s.elapse dt).now ∧
    s.slotAt p c.asn + s.slotNs p ≤ (s.elapse dt).now ∧ (s.elapse dt).commitWaits (s.spanEnd p c) = false ∧ c.got = some (time,
    rssi, f) ∧ c.listen = some (.machine m true) ∧ s.stp.latched = false ∧ (s.hopPort p).storm = false ∧ s.joined m = true ∧
    rfNet f = s.act F.HOP_CTRL_NET_ID ∧ rfType f = 5 ∧ rfAddr f = m ∧ rfEnc f = true ∧ s.sessionOf m = some k :=
  ⟨linked 255 (radio 4 (some gotSlot)), 20 * tickMs, 3, 255, 0, 7, gotSlot, session, rframe 0x15 ([255,
   0] ++ List.replicate 9 0), tidy_of_check (by decide +kernel), by decide +kernel⟩

theorem wit_SuperframesAndSlotsRun_6 : ∃ (s : State) (dt : Nat) (p : Nat) (c : CurSlot), (s.hopPort p).cur = some c ∧
    (s.elapse dt).commitWaits (s.spanEnd p c) = true :=
  ⟨radio 4 (some (slot (.machine 255 true))) withCommit, 20 * tickMs, 3, slot (.machine 255 true), by decide +kernel⟩

theorem wit_RadioFramesAreTaken_5 : ∃ (s : State) (dt : Nat) (p : Nat) (time : Nat) (rssi : Nat) (c : CurSlot) (f : List Byte) (cmd : Instr),
    s.tidy ∧ ((cmd = .uplinkReceived dt p time rssi f ∧ rfType f ≠ 6 ∧ rfType f ≠ 8 ∧ rfType f ≠ 10) ∨
    (cmd = .joinReqReceived dt p time rssi f ∧ rfType f = 6) ∨ (cmd = .nodePollReceived dt p time rssi f ∧ rfType f = 8)) ∧
    (s.hopPort p).cur = some c ∧ (s.elapse dt).now < s.slotAt p c.asn + s.slotNs p ∧
    (s.elapse dt).rxSlot p time f.length = some c :=
  ⟨linked 255 (radio 4 (some (slot (.machine 255 true)))), 20000, 3, 0, 7, slot (.machine 255 true), rframe 0x15 ([255,
   0] ++ List.replicate 9 0), Instr.uplinkReceived 20000 3 0 7 (rframe 0x15 ([255, 0] ++ List.replicate 9 0)),
   tidy_of_check (by decide +kernel), .inl ⟨rfl, by decide, by decide, by decide⟩, by decide +kernel⟩

theorem wit_RadioFramesAreTaken_6 : ∃ (s : State) (dt : Nat) (p : Nat) (time : Nat) (rssi : Nat) (c : CurSlot) (f : List Byte) (cmd : Instr),
    s.tidy ∧ ((cmd = .uplinkReceived dt p time rssi f ∧ rfType f ≠ 6 ∧ rfType f ≠ 8 ∧ rfType f ≠ 10) ∨
    (cmd = .joinReqReceived dt p time rssi f ∧ rfType f = 6) ∨ (cmd = .nodePollReceived dt p time rssi f ∧ rfType f = 8)) ∧
    (s.hopPort p).cur = some c ∧ (s.elapse dt).now < s.slotAt p c.asn + s.slotNs p ∧ ∃ g, c.got = some g ∧ g.1 ≤ time :=
  ⟨linked 255 (radio 4 (some gotSlot)), 20000, 3, 100, 7, gotSlot, rframe 0x15 ([255, 0] ++ List.replicate 9 0),
   Instr.uplinkReceived 20000 3 100 7 (rframe 0x15 ([255, 0] ++ List.replicate 9 0)), tidy_of_check (by decide +kernel),
   .inl ⟨rfl, by decide, by decide, by decide⟩, by decide +kernel, by decide +kernel, (0, 7, rframe 0x15 ([255,
   0] ++ List.replicate 9 0)), by decide +kernel⟩

theorem wit_RegistersAreWrittenAndStaged_1 : ∃ (s : State) (off : Nat) (v : Nat) (r : RegDef), s.tidy ∧ s.writable = true ∧
    off % 4 = 0 ∧ off < 2 ^ 20 ∧ v < 2 ^ 32 ∧ ownCommand off = false ∧ s.ringLocked off = false ∧ s.wdogLocked off = false ∧
    s.id.part.fitMask off ≠ 0 ∧ arrayIdx off 0xDA00 4 256 = none ∧ off ≠ 0x3020 ∧ off ≠ 0x201C ∧ regAt off = some r := by
  refine ⟨live, 0xC000, 0xFFFFFFFF, (regAt 0xC000).get (by decide +kernel), tidy_of_check (by decide +kernel), ?_, ?_, ?_, ?_, ?_,
     ?_, ?_, ?_, ?_, ?_, ?_, by simp⟩ <;>
  decide +kernel

theorem wit_RegistersAreWrittenAndStaged_1b : ∃ (s : State) (off : Nat) (v : Nat) (r : RegDef), s.tidy ∧ s.writable = true ∧
    off % 4 = 0 ∧ off < 2 ^ 20 ∧ v < 2 ^ 32 ∧ ownCommand off = false ∧ s.ringLocked off = false ∧ s.wdogLocked off = false ∧
    s.id.part.fitMask off ≠ 0 ∧ arrayIdx off 0xDA00 4 256 = none ∧ off ≠ 0x3020 ∧ off ≠ 0x201C ∧ regAt off = some r := by
  refine ⟨live, 0x2040, 0, (regAt 0x2040).get (by decide +kernel), tidy_of_check (by decide +kernel), ?_, ?_, ?_, ?_, ?_, ?_, ?_,
     ?_, ?_, ?_, ?_, by simp⟩ <;>
  decide +kernel

theorem wit_RegistersAreWrittenAndStaged_1_1 : ∃ (s : State) (off : Nat) (v : Nat) (r : RegDef), s.tidy ∧ s.writable = true ∧
    off % 4 = 0 ∧ off < 2 ^ 20 ∧ v < 2 ^ 32 ∧ ownCommand off = false ∧ s.ringLocked off = false ∧ s.wdogLocked off = false ∧
    s.id.part.fitMask off ≠ 0 ∧ arrayIdx off 0xDA00 4 256 = none ∧ off ≠ 0x3020 ∧ off ≠ 0x201C ∧ regAt off = some r ∧
    r.fields.any (fun f => f.acc = .rws) = true ∧ s.reg F.CFG_CTRL_VIEW = 0 := by
  refine ⟨live, 0xC000, 0xFFFFFFFF, (regAt 0xC000).get (by decide +kernel), tidy_of_check (by decide +kernel), ?_, ?_, ?_, ?_, ?_,
     ?_, ?_, ?_, ?_, ?_, ?_, by simp, ?_⟩ <;>
  decide +kernel

theorem wit_RegistersAreWrittenAndStaged_1_6 : ∃ (s : State) (off : Nat) (v : Nat) (r : RegDef), s.tidy ∧ s.writable = true ∧
    off % 4 = 0 ∧ off < 2 ^ 20 ∧ v < 2 ^ 32 ∧ ownCommand off = false ∧ s.ringLocked off = false ∧ s.wdogLocked off = false ∧
    s.id.part.fitMask off ≠ 0 ∧ arrayIdx off 0xDA00 4 256 = none ∧ off ≠ 0x3020 ∧ off ≠ 0x201C ∧ regAt off = some r ∧
    r.fields.any (fun f => f.acc = .rw) = true := by
  refine ⟨live, 0x2040, 0, (regAt 0x2040).get (by decide +kernel), tidy_of_check (by decide +kernel), ?_, ?_, ?_, ?_, ?_, ?_, ?_,
     ?_, ?_, ?_, ?_, by simp, ?_⟩ <;>
  decide +kernel

theorem wit_RegistersAreWrittenAndStaged_2 : ∃ (s : State) (n : Nat) (v : Nat), s.tidy ∧ s.writable = true ∧ n < 64 ∧
    v < 2 ^ 32 ∧ (s.ring n).state = .disabled :=
  ⟨live, 63, 0xFFFFFFFF, tidy_of_check (by decide +kernel), by decide +kernel⟩

theorem wit_RegistersAreWrittenAndStaged_3 : ∃ (s : State) (n : Nat) (v : Nat), s.tidy ∧ s.writable = true ∧ n < 64 ∧
    v < 2 ^ 32 ∧ (s.ring n).state = .disabled :=
  ⟨live, 63, 0xFFFFFFFF, tidy_of_check (by decide +kernel), by decide +kernel⟩

theorem wit_RegistersAreWrittenAndStaged_4 : ∃ (off : Nat) (size : Nat), (size ≠ 4 ∨ off % 4 ≠ 0) :=
  ⟨0xC000, 2, by decide +kernel⟩

theorem wit_RegistersAreWrittenAndStaged_4b : ∃ (off : Nat) (size : Nat), (size ≠ 4 ∨ off % 4 ≠ 0) :=
  ⟨0xC001, 4, by decide +kernel⟩

theorem wit_CommitsReplaceTheNamedUnits_1 : ∃ (s : State) (dt : Nat) (v : Word), s.pwr.inReset = false ∧ s.hst.fault = false ∧
    s.pwr.state ≠ .safeHold ∧ bits v.toNat 24 8 = 0x5C ∧ s.cfg.busyUntil ≤ s.clk.counter + dt :=
  ⟨live, 0, 0x5C000001, by decide +kernel⟩

theorem wit_CommitsReplaceTheNamedUnits_1b : ∃ (s : State) (dt : Nat) (v : Word), s.pwr.inReset = false ∧ s.hst.fault = false ∧
    s.pwr.state ≠ .safeHold ∧ bits v.toNat 24 8 = 0x5C ∧ s.cfg.busyUntil ≤ s.clk.counter + dt :=
  ⟨live, 0, 0x5C1FFFFF, by decide +kernel⟩

theorem wit_CommitsReplaceTheNamedUnits_1_1 : ∃ (s : State) (dt : Nat) (v : Word), s.pwr.inReset = false ∧ s.hst.fault = false ∧
    s.pwr.state ≠ .safeHold ∧ bits v.toNat 24 8 = 0x5C ∧ s.cfg.busyUntil ≤ s.clk.counter + dt ∧
    (let mask : BitVec 20 := BitVec.ofNat 20 v.toNat; mask = 0) := by
  refine ⟨live, 0, 0x5C000000, ?_, ?_, ?_, ?_, ?_, ?_⟩ <;>
  decide +kernel

theorem wit_CommitsReplaceTheNamedUnits_1_2 : ∃ (s : State) (dt : Nat) (v : Word), s.pwr.inReset = false ∧ s.hst.fault = false ∧
    s.pwr.state ≠ .safeHold ∧ bits v.toNat 24 8 = 0x5C ∧ s.cfg.busyUntil ≤ s.clk.counter + dt ∧
    (let mask : BitVec 20 := BitVec.ofNat 20 v.toNat; mask ≠ 0 ∧ (∃ r ∈ s.hst.rings, r.2.state ≠ .disabled)) := by
  refine ⟨queued 63 [], 0, 0x5C000001, ?_, ?_, ?_, ?_, ?_, ?_⟩ <;>
  decide +kernel

theorem wit_CommitsReplaceTheNamedUnits_1_3 : ∃ (s : State) (dt : Nat) (v : Word) (env : CommitIn), s.pwr.inReset = false ∧
    s.hst.fault = false ∧ s.pwr.state ≠ .safeHold ∧ bits v.toNat 24 8 = 0x5C ∧ s.cfg.busyUntil ≤ s.clk.counter + dt ∧
    (let mask : BitVec 20 := BitVec.ofNat 20 v.toNat; ∃ c, mask ≠ 0 ∧ (∀ r ∈ s.hst.rings, r.2.state = .disabled) ∧
    fatalCause env = some c ∧ (s.pwr.state = .run ∨ s.pwr.state = .waitHost) ∧ s.pwr.causes = 0) := by
  refine ⟨live, 0, 0x5C0FFFFF, ⟨⟨some 4, 250, 0, false⟩, []⟩, ?_, ?_, ?_, ?_, ?_, 4, ?_⟩ <;>
  decide +kernel

theorem wit_CommitsReplaceTheNamedUnits_1_6 : ∃ (s : State) (dt : Nat) (v : Word) (env : CommitIn), s.pwr.inReset = false ∧
    s.hst.fault = false ∧ s.pwr.state ≠ .safeHold ∧ bits v.toNat 24 8 = 0x5C ∧ s.cfg.busyUntil ≤ s.clk.counter + dt ∧
    (let mask : BitVec 20 := BitVec.ofNat 20 v.toNat; mask ≠ 0 ∧ (∀ r ∈ s.hst.rings, r.2.state = .disabled) ∧
    fatalCause env = none) := by
  refine ⟨live, 0, 0x5C0FFFFF, ⟨⟨none, 250, 0, false⟩, []⟩, ?_, ?_, ?_, ?_, ?_, ?_⟩ <;>
  decide +kernel

theorem wit_CommitsReplaceTheNamedUnits_2 : ∃ (s : State) (dt : Nat), s.clk.counter + dt < s.cfg.busyUntil :=
  ⟨{ live with cfg := { live.cfg with busyUntil := 1 } }, 0, by decide +kernel⟩

theorem wit_CommitsReplaceTheNamedUnits_3 : ∃ (s : State) (ring : Nat) (index : Nat) (payload : List Byte) (env : CommitIn) (d : Desc) (b : Block),
    s.offers ring index opCommit d ∧ d.len ≤ 131072 ∧ fatalCause env = none ∧ (b = ⟨BitVec.ofNat 20 (d.operand 0 4),
    bit (d.operand 4 1) 0, []⟩ ∧ b.mask ≠ 0 ∧ d.len = 0 ∨ d.len ≠ 0 ∧ parseBlock (padTo d.len payload) = some b) :=
  ⟨offer (descOf opCommit [1] 0 1), 1, 0, [], ⟨⟨none, 250, 0, false⟩, []⟩, descOf opCommit [1] 0 1, ⟨1, false, []⟩,
   ⟨by decide +kernel, by decide +kernel, by decide +kernel⟩, by decide +kernel⟩

theorem wit_CommitsReplaceTheNamedUnits_4 : ∃ (s : State) (dt : Nat) (env : CommitIn) (l : Launch) (p : PendingCommit),
    fatalCause env = none ∧ s.pwr.inReset = false ∧ s.clk.frozen = false ∧
    (s.elapse dt).dueLaunch LaunchKind.isCommit = some l ∧ l.kind = .commit p :=
  ⟨withCommit, 0, ⟨⟨none, 250, 0, false⟩, []⟩, ⟨0, .commit pendingCommit, false⟩, pendingCommit, by decide +kernel⟩

theorem wit_CommitsLeaveTheStopLatch_1 : ∃ (dt : Nat) (ring : Nat) (index : Nat) (v : Word) (payload : List Byte) (env : CommitIn) (c : Instr),
    fatalCause env = none ∧ (c = .cfgCommit dt v env ∨ c = .hstCommit dt ring index payload env.host env.toCommitRun ∨
    c = .launchCommitApply dt env.host env.toCommitRun) :=
  ⟨0, 1, 0, 0x5C000001, [], ⟨⟨none, 250, 0, false⟩, []⟩, .hstCommit 0 1 0 [] [] ⟨none, 250, 0, false⟩, by decide +kernel,
   .inr (.inl rfl)⟩

theorem wit_CommitsLeaveTheStopLatch_2 : ∃ (s : State) (dt : Nat) (v : Word) (env : CommitIn), fatalCause env = none ∧
    s.cfg.busyUntil ≤ s.clk.counter + dt ∧ s.stp.latched = true ∧ s.pwr.inReset = false ∧ s.hst.fault = false ∧
    s.pwr.state ≠ .safeHold ∧ bits v.toNat 24 8 = 0x5C ∧ BitVec.ofNat 20 v.toNat ≠ 0 ∧ (∀ r ∈ s.hst.rings,
    r.2.state = .disabled) :=
  ⟨stopped, 0, 0x5C0FFFFF, ⟨⟨none, 250, 0, false⟩, []⟩, by decide +kernel⟩

theorem wit_SectionEpochsRun_1 : ∃ (s : State) (dt : Nat) (p : Periodic), s.tidy ∧ s.pwr.state = .run ∧ s.clk.frozen = false ∧
    s.fld.copying = false ∧ (s.unitOn U.fld = false ∨ s.dramHeld = false) ∧
    s.tb.periodic.find? (fun q => q.unit = U.sec && q.time ≤ (s.elapse dt).now) = some p ∧
    (s.elapse dt).commitWaits p.time = false :=
  ⟨{ trained with tb := { live.tb with periodic := [⟨U.sec, 0, 20000000⟩] } }, 0, ⟨U.sec, 0, 20000000⟩,
   tidy_of_check (by decide +kernel), by decide +kernel⟩

theorem wit_SectionEpochsRun_1_3 : ∃ (s : State) (dt : Nat) (us : Nat) (p : Periodic), s.tidy ∧ s.pwr.state = .run ∧
    s.clk.frozen = false ∧ s.fld.copying = false ∧ (s.unitOn U.fld = false ∨ s.dramHeld = false) ∧
    s.tb.periodic.find? (fun q => q.unit = U.sec && q.time ≤ (s.elapse dt).now) = some p ∧
    (s.elapse dt).commitWaits p.time = false ∧ s.sec.fault = false ∧ s.sec.runUntil ≤ s.clk.counter + dt ∧ us ≤ 12000 :=
  ⟨{ live with mem := trained.mem, tb := { live.tb with periodic := [⟨U.sec, 0, 20000000⟩] }, sec := { live.sec with runUntil := 0 } },
   0, 12000, ⟨U.sec, 0, 20000000⟩, tidy_of_check (by decide +kernel), by decide +kernel⟩

theorem wit_SectionEpochsRun_1_9 : ∃ (s : State) (dt : Nat) (p : Periodic), s.tidy ∧ s.pwr.state = .run ∧ s.clk.frozen = false ∧
    s.fld.copying = false ∧ (s.unitOn U.fld = false ∨ s.dramHeld = false) ∧
    s.tb.periodic.find? (fun q => q.unit = U.sec && q.time ≤ (s.elapse dt).now) = some p ∧
    (s.elapse dt).commitWaits p.time = false ∧ s.sec.fault = false ∧ s.sec.runUntil ≤ s.clk.counter + dt ∧ s.stp.latched = true :=
  ⟨{ stopped with mem := trained.mem, tb := { live.tb with periodic := [⟨U.sec, 0, 20000000⟩] }, sec := { live.sec with runUntil := 0 } },
   0, ⟨U.sec, 0, 20000000⟩, tidy_of_check (by decide +kernel), by decide +kernel⟩

theorem wit_SectionEpochsRun_1_12 : ∃ (s : State) (dt : Nat) (us : Nat) (p : Periodic), s.tidy ∧ s.pwr.state = .run ∧
    s.clk.frozen = false ∧ s.fld.copying = false ∧ (s.unitOn U.fld = false ∨ s.dramHeld = false) ∧
    s.tb.periodic.find? (fun q => q.unit = U.sec && q.time ≤ (s.elapse dt).now) = some p ∧
    (s.elapse dt).commitWaits p.time = false ∧ s.sec.fault = false ∧ s.clk.counter + dt < s.sec.runUntil ∧ us ≤ 12000 :=
  ⟨{ live with mem := trained.mem, tb := { live.tb with periodic := [⟨U.sec, 0, 20000000⟩] }, sec := { live.sec with runUntil := 1 } },
   0, 12000, ⟨U.sec, 0, 20000000⟩, tidy_of_check (by decide +kernel), by decide +kernel⟩

theorem wit_SectionEpochsRun_1_14 : ∃ (s : State) (dt : Nat) (us : Nat) (p : Periodic), s.tidy ∧ s.pwr.state = .run ∧
    s.clk.frozen = false ∧ s.fld.copying = false ∧ (s.unitOn U.fld = false ∨ s.dramHeld = false) ∧
    s.tb.periodic.find? (fun q => q.unit = U.sec && q.time ≤ (s.elapse dt).now) = some p ∧
    (s.elapse dt).commitWaits p.time = false ∧ s.sec.fault = true ∧ us ≤ 12000 :=
  ⟨{ live with mem := trained.mem, tb := { live.tb with periodic := [⟨U.sec, 0, 20000000⟩] }, sec := { live.sec with fault := true } },
   0, 12000, ⟨U.sec, 0, 20000000⟩, tidy_of_check (by decide +kernel), by decide +kernel⟩

theorem wit_RegistersAreWrittenAndStaged_1_2 : ∃ (s : State) (off : Nat) (v : Nat) (r : RegDef), s.tidy ∧ s.writable = true ∧
    off % 4 = 0 ∧ off < 2 ^ 20 ∧ v < 2 ^ 32 ∧ ownCommand off = false ∧ s.ringLocked off = false ∧ s.wdogLocked off = false ∧
    s.id.part.fitMask off ≠ 0 ∧ arrayIdx off 0xDA00 4 256 = none ∧ off ≠ 0x3020 ∧ off ≠ 0x201C ∧ regAt off = some r ∧
    r.fields.any (fun f => f.acc = .rws) = true ∧ s.reg F.CFG_CTRL_VIEW = 0 ∧ ∃ k, k ≠ off := by
  refine ⟨live, 0xC000, 0xFFFFFFFF, (regAt 0xC000).get (by decide +kernel), tidy_of_check (by decide +kernel), ?_, ?_, ?_, ?_, ?_,
     ?_, ?_, ?_, ?_, ?_, ?_, by simp, ?_, ?_, 0xC004, ?_⟩ <;>
  decide +kernel

theorem wit_RegistersAreWrittenAndStaged_1_5 : ∃ (s : State) (off : Nat) (v : Nat) (r : RegDef), s.tidy ∧ s.writable = true ∧
    off % 4 = 0 ∧ off < 2 ^ 20 ∧ v < 2 ^ 32 ∧ ownCommand off = false ∧ s.ringLocked off = false ∧ s.wdogLocked off = false ∧
    s.id.part.fitMask off ≠ 0 ∧ arrayIdx off 0xDA00 4 256 = none ∧ off ≠ 0x3020 ∧ off ≠ 0x201C ∧ regAt off = some r ∧
    r.fields.any (fun f => f.acc = .rw) = false := by
  refine ⟨live, 0xC000, 0, (regAt 0xC000).get (by decide +kernel), tidy_of_check (by decide +kernel), ?_, ?_, ?_, ?_, ?_, ?_, ?_,
     ?_, ?_, ?_, ?_, by simp, ?_⟩ <;>
  decide +kernel

theorem wit_RegistersAreWrittenAndStaged_1_7 : ∃ (s : State) (off : Nat) (v : Nat) (r : RegDef), s.tidy ∧ s.writable = true ∧
    off % 4 = 0 ∧ off < 2 ^ 20 ∧ v < 2 ^ 32 ∧ ownCommand off = false ∧ s.ringLocked off = false ∧ s.wdogLocked off = false ∧
    s.id.part.fitMask off ≠ 0 ∧ arrayIdx off 0xDA00 4 256 = none ∧ off ≠ 0x3020 ∧ off ≠ 0x201C ∧ regAt off = some r ∧
    r.fields.any (fun f => f.acc = .rw) = true ∧ ∃ k, k ≠ off := by
  refine ⟨live, 0x2040, 0, (regAt 0x2040).get (by decide +kernel), tidy_of_check (by decide +kernel), ?_, ?_, ?_, ?_, ?_, ?_, ?_,
     ?_, ?_, ?_, ?_, by simp, ?_, 0x2044, ?_⟩ <;>
  decide +kernel

theorem wit_RegistersAreWrittenAndStaged_1_4 : ∃ (s : State) (off : Nat) (v : Nat) (r : RegDef), s.tidy ∧ s.writable = true ∧
    off % 4 = 0 ∧ off < 2 ^ 20 ∧ v < 2 ^ 32 ∧ ownCommand off = false ∧ s.ringLocked off = false ∧ s.wdogLocked off = false ∧
    s.id.part.fitMask off ≠ 0 ∧ arrayIdx off 0xDA00 4 256 = none ∧ off ≠ 0x3020 ∧ off ≠ 0x201C ∧ regAt off = some r ∧
    (r.fields.any (fun f => f.acc = .rws) = false ∨ s.reg F.CFG_CTRL_VIEW ≠ 0) := by
  refine ⟨live, 0x2040, 0, (regAt 0x2040).get (by decide +kernel), tidy_of_check (by decide +kernel), ?_, ?_, ?_, ?_, ?_, ?_, ?_,
     ?_, ?_, ?_, ?_, by simp, ?_⟩ <;>
  decide +kernel

theorem wit_RegistersAreWrittenAndStaged_5 : ∃ (s : State) (u : State) (dt : Nat) (off : Nat) (v : Nat), s.writable = true ∧
    v < 2 ^ 32 ∧ s.id.part.fitMask off ≠ 0 ∧ (let e := s.elapse dt; ((off = 0x1014 ∧
    u = { e with cfg := { e.cfg with clamped := false, clampCount := 0 } }) ∨ (off = 0x20D0 ∧
    u = { e with tb := { e.tb with stampOvf := false, stampDrops := 0 } }) ∨ (off = 0x401C ∧
    u = { e with gns := { e.gns with ovf := false, drops := 0 } }) ∨ (off = 0x6040 ∧
    u = { e with fix := { e.fix with ovf := false, drops := 0 } }) ∨ (off = 0x7010 ∧
    u = { e with fld := { e.fld with eccSeen := false, eccBlocks := 0 } }) ∨ (off = 0x7060 ∧
    u = { e with fld := { e.fld with overflow := false, foreign := 0 } }) ∨ (off = 0xE018 ∧
    u = { e with fab := { e.fab with evqOverflow := false } }) ∨ (off = 0xF020 ∧
    u = { e with dis := { e.dis with traceOvf := false, traceDrops := 0 } }) ∨ (off = 0x15004 ∧
    u = { e with pwr := { e.pwr with slow := false, stageMax := 0 } }))) :=
  ⟨live, { live.elapse 0 with cfg := { live.cfg with clamped := false, clampCount := 0 } }, 0, 0x1014, 0, by decide +kernel,
   by decide +kernel, by decide +kernel, .inl ⟨rfl, rfl⟩⟩

theorem wit_RegistersAreWrittenAndStaged_6 : ∃ (s : State) (v : Nat), s.tidy ∧ s.writable = true ∧ v < 2 ^ 32 :=
  ⟨live, 0xFFFFFFFF, tidy_of_check (by decide +kernel), by decide +kernel⟩

theorem wit_SectionEpochsRun_1_1 : ∃ (s : State) (dt : Nat) (p : Periodic), s.tidy ∧ s.pwr.state = .run ∧ s.clk.frozen = false ∧
    s.fld.copying = false ∧ (s.unitOn U.fld = false ∨ s.dramHeld = false) ∧
    s.tb.periodic.find? (fun q => q.unit = U.sec && q.time ≤ (s.elapse dt).now) = some p ∧
    (s.elapse dt).commitWaits p.time = false ∧ s.sec.fault = false ∧ s.sec.runUntil ≤ s.clk.counter + dt :=
  ⟨{ live with mem := trained.mem, tb := { live.tb with periodic := [⟨U.sec, 0, 20000000⟩] }, sec := { live.sec with runUntil := 0 } },
   0, ⟨U.sec, 0, 20000000⟩, tidy_of_check (by decide +kernel), by decide +kernel⟩

theorem wit_SectionEpochsRun_1_10 : ∃ (s : State) (dt : Nat) (p : Periodic), s.tidy ∧ s.pwr.state = .run ∧
    s.clk.frozen = false ∧ s.fld.copying = false ∧ (s.unitOn U.fld = false ∨ s.dramHeld = false) ∧
    s.tb.periodic.find? (fun q => q.unit = U.sec && q.time ≤ (s.elapse dt).now) = some p ∧
    (s.elapse dt).commitWaits p.time = false ∧ s.sec.fault = false ∧ s.clk.counter + dt < s.sec.runUntil :=
  ⟨{ live with mem := trained.mem, tb := { live.tb with periodic := [⟨U.sec, 0, 20000000⟩] }, sec := { live.sec with runUntil := 1 } },
   0, ⟨U.sec, 0, 20000000⟩, tidy_of_check (by decide +kernel), by decide +kernel⟩

theorem wit_SectionEpochsRun_1_13 : ∃ (s : State) (dt : Nat) (p : Periodic), s.tidy ∧ s.pwr.state = .run ∧
    s.clk.frozen = false ∧ s.fld.copying = false ∧ (s.unitOn U.fld = false ∨ s.dramHeld = false) ∧
    s.tb.periodic.find? (fun q => q.unit = U.sec && q.time ≤ (s.elapse dt).now) = some p ∧
    (s.elapse dt).commitWaits p.time = false ∧ s.sec.fault = true :=
  ⟨{ live with mem := trained.mem, tb := { live.tb with periodic := [⟨U.sec, 0, 20000000⟩] }, sec := { live.sec with fault := true } },
   0, ⟨U.sec, 0, 20000000⟩, tidy_of_check (by decide +kernel), by decide +kernel⟩

/-- Both antennas are enabled; channels 0 and 319 have the state given. -/
def receiver (c : Chan) : State :=
  withAct F.GNS_CTRL_EN_A 0 1 <| withAct F.GNS_CTRL_EN_B 0 1 <| withAct F.GNS_CTRL_CHAN_SPLIT 0 160
    { live with gns := { live.gns with chans := [(0, c), (319, c)] } }

/-- A search of GPS L5 over 2,056 cells of one Doppler, which takes two windows; its descriptor waits, with its search on a unit. -/
def weakSearch : List Byte := [0, 4, 1] ++ List.replicate 13 0 ++ leBytes 4 2056 ++ List.replicate 6 0
def searching : Desc := { descOf opGnsAcq weakSearch with phase := .waiting }
def search : State :=
  { offer searching (receiver Chan.reset) with gns := { (receiver Chan.reset).gns with running := [(3, 0)] } }

def pulling : Chan :=
  { Chan.reset with state := .pullIn, sig := 1, svid := 1, bitSync := true, lockAt := some 0, weakAt := some 0 }

/-- The same search, to start channel 0, and the powers of a dwell on it. -/
def searchingOn : Desc := { descOf opGnsAcq (weakSearch ++ [1]) with phase := .waiting }
def searchOn (c : Chan) : State :=
  { offer searchingOn (receiver c) with gns := { (receiver c).gns with running := [(3, 0)] } }
def peaks : List (List Nat) := [[1000, 0, 0, 0, 0, 1], [1000, 0, 0, 0, 0, 1]]
def peakDb : Rat := (((acqOperand searching).1.dwell 1 [1000, 0, 0, 0, 0, 1]).2).getD 0

theorem peakOf_dark (l : List (Nat × Nat)) (h : ∀ x ∈ l, x.2 = 0) : (peakOf l).2 = 0 := by
  have main : ∀ (l : List (Nat × Nat)) (b : Nat × Nat), b.2 = 0 → (∀ x ∈ l, x.2 = 0) →
      (l.foldl (fun (b x : Nat × Nat) => if b.2 < x.2 then x else b) b).2 = 0 := by
    intro l
    induction l with
    | nil => intro b hb _; exact hb
    | cons x l ih =>
      intro b hb hl
      have hx : x.2 = 0 := hl x (by simp)
      exact ih _ (by simp [hx, hb]) fun y hy => hl y (by simp [hy])
  cases l with
  | nil => rfl
  | cons x l => exact main _ _ (h x (by simp)) h

/-- A dwell on no power detects nothing. -/
theorem dark_dwell (r : AcqReq) (w : Nat) : r.detects (r.dwell w []).2 = false := by
  have h : (peakOf (r.window w [])).2 = 0 := peakOf_dark _ fun x hx => by
    simp only [AcqReq.window, List.mem_map] at hx
    obtain ⟨i, _, rfl⟩ := hx
    rfl
  simp [AcqReq.dwell, AcqReq.detects, h, ratioOr, dB]

theorem dark_step (r : AcqReq) (f : Int) (w : Nat) (rest : List (Int × Nat)) (l : List (List Nat)) (used : Nat) :
    r.search ((f, w) :: rest) ([] :: l) none used = r.search rest l none (used + 1) := by
  unfold AcqReq.search
  simp only [List.headD_cons, List.tail_cons, dark_dwell, Bool.not_false, if_true]
  cases rest <;> rfl

/-- The first window of both searches shows no peak. -/
theorem bright_search (d : Desc) (l : List (List Nat)) (h : (acqOperand d).1.steps = [(0, 0), (0, 1)])
    (x : Option (Nat × Int × Rat) × Nat) (hs : (acqOperand d).1.search [(0, 1)] l none 1 = x) :
    (acqOperand d).1.search (acqOperand d).1.steps ([] :: l) none 0 = x := by
  rw [h, dark_step, hs]

theorem wit_ChannelsAndSearches_1 : ∃ (s : State) (ring : Nat) (index : Nat) (d : Desc), s.offers ring index opGnsAcq d ∧
    s.gnsStop = none ∧ d.operand 0 1 ≤ 1 ∧ (d.operand 0 1 = 1 → s.id.part ≠ .mg7716) :=
  ⟨offer (descOf opGnsAcq [1, 1, 1]) (receiver Chan.reset), 3, 0, descOf opGnsAcq [1, 1, 1], ⟨by decide +kernel,
   by decide +kernel, by decide +kernel⟩, by decide +kernel⟩

theorem wit_ChannelsAndSearches_1_1 : ∃ (s : State) (ring : Nat) (index : Nat) (d : Desc), s.offers ring index opGnsAcq d ∧
    s.gnsStop = none ∧ d.operand 0 1 ≤ 1 ∧ (d.operand 0 1 = 1 → s.id.part ≠ .mg7716) ∧ (let r := (acqOperand d).1;
    s.sigOn r.code = true ∧ s.antOn r.antB = true ∧ s.gns.running.length < s.acqUnits) := by
  refine ⟨offer (descOf opGnsAcq [1, 1, 1]) (receiver Chan.reset), 3, 0, descOf opGnsAcq [1, 1, 1], ⟨by decide +kernel,
     by decide +kernel, by decide +kernel⟩, ?_, ?_, ?_, ?_⟩ <;>
  decide +kernel

theorem wit_ChannelsAndSearches_1_4 : ∃ (s : State) (ring : Nat) (index : Nat) (d : Desc), s.offers ring index opGnsAcq d ∧
    s.gnsStop = none ∧ d.operand 0 1 ≤ 1 ∧ (d.operand 0 1 = 1 → s.id.part ≠ .mg7716) ∧ (let r := (acqOperand d).1;
    s.sigOn r.code = true ∧ s.antOn r.antB = true ∧ s.acqUnits ≤ s.gns.running.length ∧ s.gns.queue.length < 64) := by
  refine ⟨offer (descOf opGnsAcq [1, 1, 1]) ((withAct F.GNS_CTRL_ACQ_HOST 0 1 <| { receiver Chan.reset with gns := { (receiver Chan.reset).gns with
      running := [(1, 0)], queue := [] } })),
     3, 0, descOf opGnsAcq [1, 1, 1], ⟨by decide +kernel, by decide +kernel, by decide +kernel⟩, ?_, ?_, ?_, ?_⟩ <;>
  decide +kernel

theorem wit_ChannelsAndSearches_1_5 : ∃ (s : State) (ring : Nat) (index : Nat) (d : Desc), s.offers ring index opGnsAcq d ∧
    s.gnsStop = none ∧ d.operand 0 1 ≤ 1 ∧ (d.operand 0 1 = 1 → s.id.part ≠ .mg7716) ∧ (let r := (acqOperand d).1;
    s.sigOn r.code = true ∧ s.antOn r.antB = true ∧ s.acqUnits ≤ s.gns.running.length ∧ 64 ≤ s.gns.queue.length) := by
  refine ⟨offer (descOf opGnsAcq [1, 1, 1]) ((withAct F.GNS_CTRL_ACQ_HOST 0 1 <| { receiver Chan.reset with gns := { (receiver Chan.reset).gns with
      running := [(1, 0)], queue := List.range 64 } })),
     3, 0, descOf opGnsAcq [1, 1, 1], ⟨by decide +kernel, by decide +kernel, by decide +kernel⟩, ?_, ?_, ?_, ?_⟩ <;>
  decide +kernel

theorem wit_ChannelsAndSearches_1_7 : ∃ (s : State) (ring : Nat) (index : Nat) (d : Desc), s.offers ring index opGnsAcq d ∧
    s.gnsStop = none ∧ d.operand 0 1 ≤ 1 ∧ (d.operand 0 1 = 1 → s.id.part ≠ .mg7716) ∧ (let r := (acqOperand d).1;
    (s.sigOn r.code = false ∨ s.antOn r.antB = false)) := by
  refine ⟨offer (descOf opGnsAcq [1, 1, 1]) (withAct F.GNS_SIG_EN_SIG 0 0 (receiver Chan.reset)), 3, 0, descOf opGnsAcq [1, 1, 1],
     ⟨by decide +kernel, by decide +kernel, by decide +kernel⟩, ?_, ?_, ?_, ?_⟩ <;>
  decide +kernel

theorem wit_ChannelsAndSearches_2 : ∃ (s : State) (dt : Nat) (ring : Nat) (index : Nat) (at' : Nat) (dwells : List (List Nat)) (d : Desc),
    s.tidy ∧ s.gnsRuns = true ∧ s.waitingAt ring index opGnsAcq = some d ∧ s.awaits d ∧
    s.gns.running.find? (fun q => q.1 = d.serial) = some (d.serial, at') ∧ (let r := (acqOperand d).1;
    (let used := (r.search r.steps dwells none 0).2; at' + used * r.dwellMs * tickMs ≤ s.clk.counter + dt)) :=
  ⟨search, 1000 * tickS, 3, 0, 0, [[], []], searching, tidy_of_check (by decide +kernel), by decide +kernel,
   by decide +kernel, (by unfold State.awaits; decide +kernel), by decide +kernel,
   (by simp only [bright_search searching [[]] (by decide +kernel) (none, 2) (by decide +kernel)]; decide +kernel)⟩

theorem wit_ChannelsAndSearches_2_1 : ∃ (s : State) (dt : Nat) (ring : Nat) (index : Nat) (at' : Nat) (dwells : List (List Nat)) (d : Desc),
    s.tidy ∧ s.gnsRuns = true ∧ s.waitingAt ring index opGnsAcq = some d ∧ s.awaits d ∧
    s.gns.running.find? (fun q => q.1 = d.serial) = some (d.serial, at') ∧ (let r := (acqOperand d).1;
    (let best := (r.search r.steps dwells none 0).1; (let used := (r.search r.steps dwells none 0).2;
    at' + used * r.dwellMs * tickMs ≤ s.clk.counter + dt ∧ best = none))) :=
  ⟨search, 1000 * tickS, 3, 0, 0, [[], []], searching, tidy_of_check (by decide +kernel), by decide +kernel,
   by decide +kernel, (by unfold State.awaits; decide +kernel), by decide +kernel,
   (by simp only [bright_search searching [[]] (by decide +kernel) (none, 2) (by decide +kernel)]; decide +kernel),
   (by simp only [bright_search searching [[]] (by decide +kernel) (none, 2) (by decide +kernel)])⟩

theorem wit_ChannelsAndSearches_2_3 : ∃ (s : State) (dt : Nat) (ring : Nat) (index : Nat) (at' : Nat) (dwells : List (List Nat)) (d : Desc),
    s.tidy ∧ s.gnsRuns = true ∧ s.waitingAt ring index opGnsAcq = some d ∧ s.awaits d ∧
    s.gns.running.find? (fun q => q.1 = d.serial) = some (d.serial, at') ∧ (let r := (acqOperand d).1;
    (let best := (r.search r.steps dwells none 0).1; (let used := (r.search r.steps dwells none 0).2;
    at' + used * r.dwellMs * tickMs ≤ s.clk.counter + dt ∧ ∃ c f x, best = some (c, f, x) ∧ r.track = false))) := by
  refine ⟨search, 1000 * tickS, 3, 0, 0, [] :: peaks, searching, tidy_of_check (by decide +kernel), ?_, ?_,
     (by unfold State.awaits; decide +kernel), ?_,
     (by simp only [bright_search searching peaks (by decide +kernel) (some (2048, 0, peakDb), 3) (by decide +kernel)]; decide +kernel),
     2048, 0, peakDb,
     (by simp only [bright_search searching peaks (by decide +kernel) (some (2048, 0, peakDb), 3) (by decide +kernel)]), ?_⟩ <;>
  decide +kernel

theorem wit_ChannelsAndSearches_2_5 : ∃ (s : State) (dt : Nat) (ring : Nat) (index : Nat) (at' : Nat) (dwells : List (List Nat)) (d : Desc),
    s.tidy ∧ s.gnsRuns = true ∧ s.waitingAt ring index opGnsAcq = some d ∧ s.awaits d ∧
    s.gns.running.find? (fun q => q.1 = d.serial) = some (d.serial, at') ∧ (let r := (acqOperand d).1;
    (let best := (r.search r.steps dwells none 0).1; (let used := (r.search r.steps dwells none 0).2;
    at' + used * r.dwellMs * tickMs ≤ s.clk.counter + dt ∧ ∃ c f x, best = some (c, f, x) ∧ r.track = true ∧
    (s.chan r.chan).state = .idle ∧ s.chanB r.chan = r.antB ∧ s.antOn r.antB = true))) := by
  refine ⟨searchOn Chan.reset, 1000 * tickS, 3, 0, 0, [] :: peaks, searchingOn, tidy_of_check (by decide +kernel), ?_, ?_,
     (by unfold State.awaits; decide +kernel), ?_,
     (by simp only [bright_search searchingOn peaks (by decide +kernel) (some (2048, 0, peakDb), 3) (by decide +kernel)]; decide +kernel),
     2048, 0, peakDb,
     (by simp only [bright_search searchingOn peaks (by decide +kernel) (some (2048, 0, peakDb), 3) (by decide +kernel)]), ?_⟩ <;>
  decide +kernel

theorem wit_ChannelsAndSearches_2_10 : ∃ (s : State) (dt : Nat) (ring : Nat) (index : Nat) (at' : Nat) (dwells : List (List Nat)) (d : Desc),
    s.tidy ∧ s.gnsRuns = true ∧ s.waitingAt ring index opGnsAcq = some d ∧ s.awaits d ∧
    s.gns.running.find? (fun q => q.1 = d.serial) = some (d.serial, at') ∧ (let r := (acqOperand d).1;
    (let best := (r.search r.steps dwells none 0).1; (let used := (r.search r.steps dwells none 0).2;
    at' + used * r.dwellMs * tickMs ≤ s.clk.counter + dt ∧ ∃ c f x, best = some (c, f, x) ∧ r.track = true ∧
    (s.chan r.chan).state ≠ .idle))) := by
  refine ⟨searchOn pulling, 1000 * tickS, 3, 0, 0, [] :: peaks, searchingOn, tidy_of_check (by decide +kernel), ?_, ?_,
     (by unfold State.awaits; decide +kernel), ?_,
     (by simp only [bright_search searchingOn peaks (by decide +kernel) (some (2048, 0, peakDb), 3) (by decide +kernel)]; decide +kernel),
     2048, 0, peakDb,
     (by simp only [bright_search searchingOn peaks (by decide +kernel) (some (2048, 0, peakDb), 3) (by decide +kernel)]), ?_⟩ <;>
  decide +kernel

theorem wit_ChannelsAndSearches_3 : ∃ (s : State) (antenna : Nat) (code : Nat) (svid : Nat) (k : Nat), s.tidy ∧
    s.gnsRuns = true ∧ s.act F.GNS_CTRL_MODE ≠ 1 ∧ s.antOn (decide (antenna = 1)) = true ∧ (sigFind code).isSome = true ∧
    s.sigOn code = true ∧ (svidRange (code / 16)).1 ≤ svid ∧ svid ≤ (svidRange (code / 16)).2 ∧
    s.autoChan (decide (antenna = 1)) code svid = some k :=
  ⟨receiver Chan.reset, 1, 1, 1, 160, tidy_of_check (by decide +kernel), by decide +kernel⟩

theorem wit_ChannelsAndSearches_3_1 : ∃ (s : State) (antenna : Nat) (code : Nat) (svid : Nat) (k : Nat) (offset : Int), s.tidy ∧
    s.gnsRuns = true ∧ s.act F.GNS_CTRL_MODE ≠ 1 ∧ s.antOn (decide (antenna = 1)) = true ∧ (sigFind code).isSome = true ∧
    s.sigOn code = true ∧ (svidRange (code / 16)).1 ≤ svid ∧ svid ≤ (svidRange (code / 16)).2 ∧
    s.autoChan (decide (antenna = 1)) code svid = some k ∧ (let p := s.autoPlan (decide ((s.chan k).state = .lost));
    (p.doppler ≠ none ∨ offset.natAbs ≤ 5000)) := by
  refine ⟨receiver Chan.reset, 1, 1, 1, 160, 5000, tidy_of_check (by decide +kernel), ?_, ?_, ?_, ?_, ?_, ?_, ?_, ?_,
     (.inr (by decide +kernel))⟩ <;>
  decide +kernel

theorem wit_ChannelsAndSearches_3_7 : ∃ (s : State) (antenna : Nat) (code : Nat) (svid : Nat) (k : Nat) (offset : Int), s.tidy ∧
    s.gnsRuns = true ∧ s.act F.GNS_CTRL_MODE ≠ 1 ∧ s.antOn (decide (antenna = 1)) = true ∧ (sigFind code).isSome = true ∧
    s.sigOn code = true ∧ (svidRange (code / 16)).1 ≤ svid ∧ svid ≤ (svidRange (code / 16)).2 ∧
    s.autoChan (decide (antenna = 1)) code svid = some k ∧ (let p := s.autoPlan (decide ((s.chan k).state = .lost));
    p.doppler = none ∧ 5000 < offset.natAbs) := by
  refine ⟨receiver Chan.reset, 1, 1, 1, 160, 5001, tidy_of_check (by decide +kernel), ?_, ?_, ?_, ?_, ?_, ?_, ?_, ?_, ?_⟩ <;>
  decide +kernel

theorem wit_ChannelsAndSearches_4 : ∃ (s : State) (ring : Nat) (index : Nat) (c : Nat) (d : Desc), s.tidy ∧
    s.offers ring index opGnsChan d ∧ s.gnsStop = none ∧ d.operand 0 2 = c ∧ c ≤ 319 ∧ s.antOn (s.chanB c) = true ∧
    d.operand 2 1 = 0 :=
  ⟨offer (descOf opGnsChan [63, 1, 0, 1, 1]) (receiver pulling), 3, 0, 319, descOf opGnsChan [63, 1, 0, 1, 1],
   tidy_of_check (by decide +kernel), ⟨by decide +kernel, by decide +kernel, by decide +kernel⟩, by decide +kernel⟩

theorem wit_ChannelsAndSearches_5 : ∃ (s : State) (ring : Nat) (index : Nat) (c : Nat) (d : Desc), s.tidy ∧
    s.offers ring index opGnsChan d ∧ s.gnsStop = none ∧ d.operand 0 2 = c ∧ c ≤ 319 ∧ s.antOn (s.chanB c) = true ∧
    d.operand 2 1 = 1 :=
  ⟨offer (descOf opGnsChan [63, 1, 1, 1, 1]) (receiver pulling), 3, 0, 319, descOf opGnsChan [63, 1, 1, 1, 1],
   tidy_of_check (by decide +kernel), ⟨by decide +kernel, by decide +kernel, by decide +kernel⟩, by decide +kernel⟩

theorem wit_ChannelsAndSearches_6 : ∃ (s : State) (ring : Nat) (index : Nat) (c : Nat) (d : Desc), s.tidy ∧
    s.offers ring index opGnsChan d ∧ s.gnsStop = none ∧ d.operand 0 2 = c ∧ c ≤ 319 ∧ s.antOn (s.chanB c) = true ∧
    d.operand 2 1 = 2 :=
  ⟨offer (descOf opGnsChan [63, 1, 2, 1, 1]) (receiver pulling), 3, 0, 319, descOf opGnsChan [63, 1, 2, 1, 1],
   tidy_of_check (by decide +kernel), ⟨by decide +kernel, by decide +kernel, by decide +kernel⟩, by decide +kernel⟩

theorem wit_ChannelsAndSearches_6_1 : ∃ (s : State) (ring : Nat) (index : Nat) (c : Nat) (d : Desc), s.tidy ∧
    s.offers ring index opGnsChan d ∧ s.gnsStop = none ∧ d.operand 0 2 = c ∧ c ≤ 319 ∧ s.antOn (s.chanB c) = true ∧
    d.operand 2 1 = 2 ∧ (s.chan c).state = .idle :=
  ⟨offer (descOf opGnsChan [63, 1, 2, 1, 1]) (receiver Chan.reset), 3, 0, 319, descOf opGnsChan [63, 1, 2, 1, 1],
   tidy_of_check (by decide +kernel), ⟨by decide +kernel, by decide +kernel, by decide +kernel⟩, by decide +kernel⟩

theorem wit_ChannelsAndSearches_6_3 : ∃ (s : State) (ring : Nat) (index : Nat) (c : Nat) (d : Desc), s.tidy ∧
    s.offers ring index opGnsChan d ∧ s.gnsStop = none ∧ d.operand 0 2 = c ∧ c ≤ 319 ∧ s.antOn (s.chanB c) = true ∧
    d.operand 2 1 = 2 ∧ (s.chan c).state ≠ .idle :=
  ⟨offer (descOf opGnsChan [63, 1, 2, 1, 1]) (receiver pulling), 3, 0, 319, descOf opGnsChan [63, 1, 2, 1, 1],
   tidy_of_check (by decide +kernel), ⟨by decide +kernel, by decide +kernel, by decide +kernel⟩, by decide +kernel⟩

theorem wit_ChannelsAndSearches_7 : ∃ (s : State) (dt : Nat) (k : Nat), s.tidy ∧ s.gnsRuns = true ∧
    ((s.chan k).state = .pullIn ∨ (s.chan k).state = .tracking) ∧
    (s.chan k).upd + (s.chan k).cohMs * tickMs ≤ s.clk.counter + dt :=
  ⟨receiver pulling, tickS, 319, tidy_of_check (by decide +kernel), by decide +kernel⟩

theorem wit_ChannelsAndSearches_7_2 : ∃ (s : State) (dt : Nat) (k : Nat) (x : LoopIn), s.tidy ∧ s.gnsRuns = true ∧
    ((s.chan k).state = .pullIn ∨ (s.chan k).state = .tracking) ∧
    (s.chan k).upd + (s.chan k).cohMs * tickMs ≤ s.clk.counter + dt ∧ ∃ kind n rx b, x.page = some (kind, n, rx, b) := by
  refine ⟨receiver pulling, tickS, 319, ⟨[], 0, false, false, none, none, some (0, 1, 0, [1]), none⟩,
     tidy_of_check (by decide +kernel), ?_, ?_, ?_, 0, 1, 0, [1], ?_⟩ <;>
  decide +kernel

theorem wit_ChannelsAndSearches_7_3 : ∃ (s : State) (dt : Nat) (k : Nat) (x : LoopIn), s.tidy ∧ s.gnsRuns = true ∧
    ((s.chan k).state = .pullIn ∨ (s.chan k).state = .tracking) ∧
    (s.chan k).upd + (s.chan k).cohMs * tickMs ≤ s.clk.counter + dt ∧ x.page = none :=
  ⟨receiver pulling, tickS, 319, ⟨[], 0, false, false, none, none, none, none⟩, tidy_of_check (by decide +kernel),
   by decide +kernel⟩

theorem wit_ChannelsAndSearches_8 : ∃ (s : State) (dt : Nat) (k : Nat) (a : Nat), s.gnsRuns = true ∧
    (s.chan k).state = .pullIn ∧ (s.chan k).lockAt = some a ∧ a + 100 * tickMs ≤ s.clk.counter + dt ∧ ((s.chan k).pilot = true ∨
    (s.chan k).bitSync = true) := by
  refine ⟨receiver pulling, 100 * tickMs, 319, 0, ?_, ?_, ?_, ?_, (.inr (by decide +kernel))⟩ <;>
  decide +kernel

theorem wit_ChannelsAndSearches_9 : ∃ (s : State) (dt : Nat) (k : Nat), s.tidy ∧ s.gnsRuns = true ∧
    ((s.chan k).state = .pullIn ∨ (s.chan k).state = .tracking) ∧ (∃ a, ((s.chan k).weakAt = some a ∧
    a + tickS ≤ s.clk.counter + dt) ∨ ((s.chan k).lowAt = some a ∧ a + 500 * tickMs ≤ s.clk.counter + dt)) :=
  ⟨receiver pulling, tickS, 319, tidy_of_check (by decide +kernel), by decide +kernel, by decide +kernel,
   ⟨0, .inl ⟨by decide +kernel, by decide +kernel⟩⟩⟩

theorem wit_SamplesPagesAndEpochs_1 : ∃ (s : State) (ring : Nat) (index : Nat) (d : Desc), s.offers ring index opGnsCapture d ∧
    s.gnsStop = none ∧ d.operand 0 1 ≤ (if s.id.part = .mg7716 then 2 else 5) ∧ 1 ≤ d.len ∧ d.len ≤ 16777216 ∧
    d.operand 4 4 = d.len :=
  ⟨offer (descOf opGnsCapture [5, 0, 0, 0, 0, 0, 0, 1] 16777216) (receiver Chan.reset), 3, 0, descOf opGnsCapture [5, 0, 0, 0,
   0, 0, 0, 1] 16777216, ⟨by decide +kernel, by decide +kernel, by decide +kernel⟩, by decide +kernel⟩

/-- A capture of one byte that waits. -/
def capturing : Desc := { descOf opGnsCapture [0, 0, 0, 0, 1] 1 with phase := .waiting }

/-- It has been under way since counter 10, at compact time 7. -/
def capture : State := { offer capturing with gns := { live.gns with captures := [(3, 10, 7)] } }

theorem wit_SamplesPagesAndEpochs_2 : ∃ (s : State) (ring : Nat) (index : Nat) (c0 : Nat) (t0 : Nat) (d : Desc),
    s.gnsRuns = true ∧ s.waitingAt ring index opGnsCapture = some d ∧ s.awaits d ∧ d.len ≠ 0 ∧
    s.gns.captures.find? (fun e => e.1 = d.serial) = some (d.serial, c0, t0) :=
  ⟨capture, 3, 0, 10, 7, capturing, by decide +kernel, by decide +kernel, (by unfold State.awaits; decide +kernel),
   by decide +kernel⟩

theorem wit_SamplesPagesAndEpochs_2_1 : ∃ (s : State) (dt : Nat) (ring : Nat) (index : Nat) (c0 : Nat) (t0 : Nat) (d : Desc),
    s.gnsRuns = true ∧ s.waitingAt ring index opGnsCapture = some d ∧ s.awaits d ∧ d.len ≠ 0 ∧
    s.gns.captures.find? (fun e => e.1 = d.serial) = some (d.serial, c0, t0) ∧ c0 + 2 * d.len ≤ s.clk.counter + dt :=
  ⟨capture, 12, 3, 0, 10, 7, capturing, by decide +kernel, by decide +kernel, (by unfold State.awaits; decide +kernel),
   by decide +kernel⟩

theorem wit_SamplesPagesAndEpochs_2_3 : ∃ (s : State) (dt : Nat) (ring : Nat) (index : Nat) (c0 : Nat) (t0 : Nat) (d : Desc),
    s.gnsRuns = true ∧ s.waitingAt ring index opGnsCapture = some d ∧ s.awaits d ∧ d.len ≠ 0 ∧
    s.gns.captures.find? (fun e => e.1 = d.serial) = some (d.serial, c0, t0) ∧ s.clk.counter + dt < c0 + 2 * d.len :=
  ⟨capture, 11, 3, 0, 10, 7, capturing, by decide +kernel, by decide +kernel, (by unfold State.awaits; decide +kernel),
   by decide +kernel⟩

theorem wit_SamplesPagesAndEpochs_3 : ∃ (s : State) (ring : Nat) (index : Nat) (n : Nat) (payload : List Byte) (d : Desc) (q : NavPage),
    s.offers ring index opGnsNav d ∧ s.gns.fault = false ∧ d.operand 0 1 = 0 ∧ parsePage (padTo d.len payload) = some (some q,
    d.len, n) :=
  ⟨offer (descOf opGnsNav [0] 20), 3, 0, 0, [1, 1, 0, 0, 32, 0, 0, 0, 0, 0, 0, 0, 0, 0, 0, 0, 1, 2, 3, 4],
   descOf opGnsNav [0] 20, ⟨1, 1, 0, 0, 32, 0, [1, 2, 3, 4]⟩, ⟨by decide +kernel, by decide +kernel, by decide +kernel⟩,
   by decide +kernel⟩

theorem wit_SamplesPagesAndEpochs_4 : ∃ (s : State) (ring : Nat) (index : Nat) (d : Desc), s.offers ring index opGnsNav d ∧
    s.gns.fault = false ∧ d.operand 0 1 = 1 ∧ d.len ≠ 0 :=
  ⟨offer (descOf opGnsNav [1, 1] 64), 3, 0, descOf opGnsNav [1, 1] 64, ⟨by decide +kernel, by decide +kernel,
   by decide +kernel⟩, by decide +kernel⟩

theorem wit_SamplesPagesAndEpochs_5 : ∃ (s : State) (b : Bool), s.tidy ∧ s.gnsRuns = true ∧ s.antOn b = true ∧ (b = true →
    s.id.part ≠ .mg7716) :=
  ⟨receiver Chan.reset, true, tidy_of_check (by decide +kernel), by decide +kernel⟩

theorem wit_SamplesPagesAndEpochs_5_1 : ∃ (s : State) (dt : Nat) (b : Bool) (x : Nat) (y : Nat) (z : Nat), s.tidy ∧
    s.gnsRuns = true ∧ s.antOn b = true ∧ (b = true → s.id.part ≠ .mg7716) ∧ 240 ≤ x ∧ 240 ≤ y ∧ 240 ≤ z ∧ ∃ a,
    (if b then s.gns.railB else s.gns.railA) = some a ∧ a + tickS ≤ s.clk.counter + dt := by
  refine ⟨{ receiver Chan.reset with gns := { live.gns with railB := some 0 } }, tickS, true, 240, 240, 240,
     tidy_of_check (by decide +kernel), ?_, ?_, ?_, ?_, ?_, ?_, 0, ?_⟩ <;>
  decide +kernel

theorem wit_SamplesPagesAndEpochs_5_2 : ∃ (s : State) (b : Bool) (x : Nat) (y : Nat) (z : Nat), s.tidy ∧ s.gnsRuns = true ∧
    s.antOn b = true ∧ (b = true → s.id.part ≠ .mg7716) ∧ 240 ≤ x ∧ 240 ≤ y ∧ 240 ≤ z ∧
    (if b then s.gns.railB else s.gns.railA) = none :=
  ⟨receiver Chan.reset, true, 240, 240, 240, tidy_of_check (by decide +kernel), by decide +kernel⟩

theorem wit_SamplesPagesAndEpochs_5_3 : ∃ (s : State) (b : Bool) (x : Nat) (y : Nat) (z : Nat), s.tidy ∧ s.gnsRuns = true ∧
    s.antOn b = true ∧ (b = true → s.id.part ≠ .mg7716) ∧ (x < 240 ∨ y < 240 ∨ z < 240) :=
  ⟨receiver Chan.reset, true, 239, 240, 240, tidy_of_check (by decide +kernel), by decide +kernel, by decide +kernel,
   by decide +kernel, (.inl (by decide))⟩

theorem wit_SamplesPagesAndEpochs_6 : ∃ (s : State) (b : Bool) (x : Nat) (y : Nat) (z : Nat), s.tidy ∧ s.gnsRuns = true ∧
    (x < 236 ∨ y < 236 ∨ z < 236) ∧ (b = true → s.id.part ≠ .mg7716) :=
  ⟨receiver Chan.reset, true, 235, 240, 240, tidy_of_check (by decide +kernel), by decide +kernel, (.inl (by decide)),
   by decide +kernel⟩

theorem wit_SamplesPagesAndEpochs_7 : ∃ (s : State) (dt : Nat), (s.elapse dt).epochDue = true ∧
    (s.elapse dt).commitWaits (s.elapse dt).epochAt = false :=
  ⟨receiver Chan.reset, tickS, by decide +kernel⟩

theorem wit_SamplesPagesAndEpochs_8 : ∃ (s : State) (l : Latch), s.gnsRuns = true ∧ s.gns.latched = some l :=
  ⟨{ receiver Chan.reset with gns := { (receiver Chan.reset).gns with latched := some ⟨0, 0, [], [], false⟩ } }, ⟨0, 0, [], [],
   false⟩, by decide +kernel⟩

theorem wit_SamplesPagesAndEpochs_8_1 : ∃ (s : State) (l : Latch), s.gnsRuns = true ∧ s.gns.latched = some l ∧
    (s.antOn true = false ∨ s.act F.GNS_MEAS_CTRL_REC_B = 0) ∧ (let len := (32 + 40 * l.a.length + 63) / 64 * 64;
    (let size := 65536 * s.act F.GNS_MEAS_BUF_SIZE_SIZE; (let rd := s.reg F.GNS_MEAS_RD_OFFSET; s.gns.wr + len ≤ size ∧
    len < (if s.gns.wr < rd then rd - s.gns.wr else size + rd - s.gns.wr)))) :=
  ⟨withAct F.GNS_MEAS_BUF_SIZE_SIZE 0 1
      { receiver Chan.reset with gns := { (receiver Chan.reset).gns with latched := some ⟨0, 0, [], [], false⟩ } },
   ⟨0, 0, [], [], false⟩, by decide +kernel, by decide +kernel, (.inr (by decide +kernel)), by decide +kernel⟩

/-- The Mirage Monitor at level 3 of 4, justified, with a latched condition of check 3. -/
def mirage : State :=
  withAct F.MIR_CTRL_MAX_LEVEL 0 4
    { live with mir := { live.mir with level := 3, base := 3, conds := [⟨9, 255, 1, true, 0, [], [], 3, false⟩] } }

theorem wit_TheLadderClimbsFallsAndClears_1 : ∃ (s : State) (dt : Nat), s.mirRuns = true ∧ s.act F.MIR_CTRL_ESC_DELAY ≠ 0 ∧
    3 ≤ s.mir.level ∧ 3 ≤ s.mir.base ∧ s.mir.level < s.act F.MIR_CTRL_MAX_LEVEL ∧
    s.mir.highAt + s.act F.MIR_CTRL_ESC_DELAY * tickS ≤ s.clk.counter + dt :=
  ⟨mirage, 1000 * tickS, by decide +kernel⟩

theorem wit_TheLadderClimbsFallsAndClears_2 : ∃ (s : State) (dt : Nat), s.mirRuns = true ∧ s.mir.base < s.mir.level ∧
    s.mir.climb < s.mir.level ∧ s.mir.changedAt + s.act F.MIR_CTRL_CLEAR_HOLD * tickS ≤ s.clk.counter + dt :=
  ⟨{ mirage with mir := { mirage.mir with base := 2 } }, 1000 * tickS, by decide +kernel⟩

theorem wit_TheLadderClimbsFallsAndClears_3 : ∃ (s : State) (dt : Nat) (check : Nat) (key : Nat) (c : Cond), s.mirRuns = true ∧
    s.mir.conds.find? (fun c => c.is check key) = some c ∧ c.latched = true ∧
    c.trueAt + s.act F.MIR_CTRL_CLEAR_HOLD * tickS ≤ s.clk.counter + dt :=
  ⟨mirage, 1000 * tickS, 9, 255, ⟨9, 255, 1, true, 0, [], [], 3, false⟩, by decide +kernel⟩

theorem wit_TheLadderClimbsFallsAndClears_4 : ∃ (s : State) (dt : Nat) (v : Word) (c : Instr), s.mirKey v = true ∧
    (c = .mirClear dt v ∨ (c = .mirBaseReset dt v ∧ v.getLsbD 8 = true)) :=
  ⟨mirage, 0, 0x1C3, .mirBaseReset 0 0x1C3, by decide +kernel, .inr ⟨rfl, by decide +kernel⟩⟩

theorem wit_TheLadderClimbsFallsAndClears_4b : ∃ (s : State) (dt : Nat) (v : Word) (c : Instr), s.mirKey v = true ∧
    (c = .mirClear dt v ∨ (c = .mirBaseReset dt v ∧ v.getLsbD 8 = true)) :=
  ⟨mirage, 0, 0xC3, .mirClear 0 0xC3, by decide +kernel, .inl rfl⟩

theorem wit_TheLadderClimbsFallsAndClears_1_1 : ∃ (s : State) (dt : Nat), s.mirRuns = true ∧ s.act F.MIR_CTRL_ESC_DELAY ≠ 0 ∧
    3 ≤ s.mir.level ∧ 3 ≤ s.mir.base ∧ s.mir.level < s.act F.MIR_CTRL_MAX_LEVEL ∧
    s.mir.highAt + s.act F.MIR_CTRL_ESC_DELAY * tickS ≤ s.clk.counter + dt ∧ s.mir.level = 4 ∧
    s.stopSource F.STP_SRC_MIRAGE = true :=
  ⟨withAct F.STP_SRC_MIRAGE 0 1 <| withAct F.MIR_CTRL_MAX_LEVEL 0 5 { mirage with mir := { mirage.mir with level := 4 } },
   1000 * tickS, by decide +kernel⟩

theorem wit_TheLadderClimbsFallsAndClears_1_2 : ∃ (s : State) (dt : Nat), s.mirRuns = true ∧ s.act F.MIR_CTRL_ESC_DELAY ≠ 0 ∧
    3 ≤ s.mir.level ∧ 3 ≤ s.mir.base ∧ s.mir.level < s.act F.MIR_CTRL_MAX_LEVEL ∧
    s.mir.highAt + s.act F.MIR_CTRL_ESC_DELAY * tickS ≤ s.clk.counter + dt ∧ (s.mir.level ≠ 4 ∨
    s.stopSource F.STP_SRC_MIRAGE = false) := by
  refine ⟨withAct F.STP_SRC_MIRAGE 0 0 <| withAct F.MIR_CTRL_MAX_LEVEL 0 5 { mirage with mir := { mirage.mir with level := 4 } },
     1000 * tickS, ?_, ?_, ?_, ?_, ?_, ?_, (.inr (by decide +kernel))⟩ <;>
  decide +kernel

theorem wit_TheLadderClimbsFallsAndClears_5 : ∃ (s : State) (dt : Nat) (k : Nat), s.checkOn Ck.secPeak = true ∧
    s.gnsRuns = true ∧ s.scanUnit = true ∧ (s.elapse dt).nextScan = some k ∧ (let c := s.chan k; (let g := sigOf c.sig; (∀ x,
    s.mir.scanned = some x → x.2 + scanTicks g ≤ s.clk.counter + dt) ∧ scanTicks g ≤ s.clk.counter + dt)) := by
  refine ⟨withAct F.GNS_CTRL_MODE 0 1 <| receiver { Chan.reset with state := .tracking, sig := 16 }, tickS, 0, ?_, ?_, ?_, ?_,
     (by intro x h; cases h), ?_⟩ <;>
  decide +kernel

theorem wit_TheLadderClimbsFallsAndClears_5_1 : ∃ (s : State) (dt : Nat) (k : Nat) (powers : List Nat),
    s.checkOn Ck.secPeak = true ∧ s.gnsRuns = true ∧ s.scanUnit = true ∧ (s.elapse dt).nextScan = some k ∧ (let c := s.chan k;
    (let g := sigOf c.sig; (let tracked := (2 * c.code).floor.toNat % (2 * g.chips); (∀ x, s.mir.scanned = some x →
    x.2 + scanTicks g ≤ s.clk.counter + dt) ∧ scanTicks g ≤ s.clk.counter + dt ∧
    secondPeak (2 * g.chips) tracked (s.reg F.MIR_PEAK_RATIO) powers = true))) := by
  refine ⟨withAct F.GNS_CTRL_MODE 0 1 <| receiver { Chan.reset with state := .tracking, sig := 16 }, tickS, 0, [100, 0, 0, 0, 0, 0,
     0, 0, 0, 200], ?_, ?_, ?_, ?_, (by intro x h; cases h), ?_⟩ <;>
  decide +kernel

theorem wit_TheLadderClimbsFallsAndClears_5_5 : ∃ (s : State) (dt : Nat) (k : Nat) (powers : List Nat),
    s.checkOn Ck.secPeak = true ∧ s.gnsRuns = true ∧ s.scanUnit = true ∧ (s.elapse dt).nextScan = some k ∧ (let c := s.chan k;
    (let g := sigOf c.sig; (let tracked := (2 * c.code).floor.toNat % (2 * g.chips); (∀ x, s.mir.scanned = some x →
    x.2 + scanTicks g ≤ s.clk.counter + dt) ∧ scanTicks g ≤ s.clk.counter + dt ∧
    secondPeak (2 * g.chips) tracked (s.reg F.MIR_PEAK_RATIO) powers = false))) := by
  refine ⟨withAct F.GNS_CTRL_MODE 0 1 <| receiver { Chan.reset with state := .tracking, sig := 16 }, tickS, 0, [100], ?_, ?_, ?_, ?_,
     (by intro x h; cases h), ?_⟩ <;>
  decide +kernel

theorem wit_FixCommandsAct_1 : ∃ (s : State), s.tidy ∧ s.pwr.inReset = false ∧ s.fix.fault = false :=
  ⟨live, tidy_of_check (by decide +kernel), by decide +kernel⟩

theorem wit_FixCommandsAct_2 : ∃ (s : State) (ring : Nat) (index : Nat) (d : Desc), s.offers ring index opFixRtcmGet d ∧
    s.fixStop = none ∧ d.operand 0 1 ≤ 1 :=
  ⟨offer (descOf opFixRtcmGet [1]), 3, 0, descOf opFixRtcmGet [1], ⟨by decide +kernel, by decide +kernel, by decide +kernel⟩,
   by decide +kernel⟩

theorem wit_FixCommandsAct_2_1 : ∃ (s : State) (ring : Nat) (index : Nat) (d : Desc), s.offers ring index opFixRtcmGet d ∧
    s.fixStop = none ∧ d.operand 0 1 ≤ 1 ∧
    (let n := ((s.waiters opFixRtcmGet).filter fun w => w.operand 0 1 = d.operand 0 1).length; n < 4) :=
  ⟨offer (descOf opFixRtcmGet [1]), 3, 0, descOf opFixRtcmGet [1], ⟨by decide +kernel, by decide +kernel, by decide +kernel⟩,
   by decide +kernel, by decide +kernel, by decide +kernel⟩

theorem wit_FixCommandsAct_2_2 : ∃ (s : State) (ring : Nat) (index : Nat) (d : Desc), s.offers ring index opFixRtcmGet d ∧
    s.fixStop = none ∧ d.operand 0 1 ≤ 1 ∧
    (let n := ((s.waiters opFixRtcmGet).filter fun w => w.operand 0 1 = d.operand 0 1).length; 4 ≤ n) :=
  ⟨{ offer (descOf opFixRtcmGet [1]) with hst := { (offer (descOf opFixRtcmGet [1])).hst with
      taken := descOf opFixRtcmGet [1] :: (List.range 4).map fun i => { descOf opFixRtcmGet [1] with serial := i + 10, index := i + 1, phase := .waiting } } },
   3, 0, descOf opFixRtcmGet [1], ⟨by decide +kernel, by decide +kernel, by decide +kernel⟩, by decide +kernel,
   by decide +kernel, by decide +kernel⟩

theorem wit_FixCommandsAct_3 : ∃ (s : State) (ring : Nat) (index : Nat) (n : Nat) (payload : List Byte) (d : Desc) (l : List (List Byte)),
    s.offers ring index opFixStrings d ∧ s.fixStop = none ∧ d.len ≠ 0 ∧ parseStrings 6 (padTo d.len payload) = some (l, n) :=
  ⟨offer (descOf opFixStrings [] 6), 3, 0, 0, [], descOf opFixStrings [] 6, [[], [], [], [], [], []], ⟨by decide +kernel,
   by decide +kernel, by decide +kernel⟩, by decide +kernel⟩

theorem wit_FixCommandsAct_4 : ∃ (s : State) (ring : Nat) (index : Nat) (d : Desc), s.tidy ∧
    s.offers ring index opFixRoverReset d ∧ s.id.part = .mg7740 ∧ s.fixStop = none :=
  ⟨offer (descOf opFixRoverReset [255]), 3, 0, descOf opFixRoverReset [255], tidy_of_check (by decide +kernel),
   ⟨by decide +kernel, by decide +kernel, by decide +kernel⟩, by decide +kernel⟩

/-- Lanes 0 to 62 solve, one epoch is queued, and one of machine 255 is in assembly. -/
def solve : Solve := ⟨255, 0, ⟨false, 0, 0, []⟩, 0, SolveCfg.none, false⟩
def solving : State :=
  { live with fix := { live.fix with
      queue := [solve], lanes := (List.range 63).map fun (l : Nat) => (l, solve), asm := [(255, ⟨1, 0, 2, 0, []⟩)] } }

theorem wit_FixCommandsAct_6 : ∃ (s : State) (dt : Nat) (m : Nat) (a : Assembly), s.tidy ∧ s.fixRuns = true ∧
    tfind s.fix.asm m = some a ∧ (let due := a.tObs + s.act F.FIX_SOLVER_ASM_LIMIT * 10000000; due ≤ (s.elapse dt).now ∧
    (s.elapse dt).commitWaits due = false) :=
  ⟨solving, tickS, 255, ⟨1, 0, 2, 0, []⟩, tidy_of_check (by decide +kernel), by decide +kernel, by decide +kernel,
   by decide +kernel⟩

theorem wit_FixCommandsAct_8 : ∃ (s : State) (dt : Nat) (l : Nat) (q : Solve) (rest : List Solve), s.tidy ∧ s.fixRuns = true ∧
    s.fix.queue = q :: rest ∧ l < 64 ∧ tfind s.fix.lanes l = none ∧ (∀ k, k < l → tfind s.fix.lanes k ≠ none) ∧
    (s.elapse dt).commitFirst (s.clk.counter + dt) = false :=
  ⟨solving, 0, 63, solve, [], tidy_of_check (by decide +kernel), by decide +kernel⟩

theorem wit_FixCommandsAct_9 : ∃ (s : State) (l : Nat) (q : Solve), s.tidy ∧ s.fixRuns = true ∧ tfind s.fix.lanes l = some q :=
  ⟨solving, 62, solve, tidy_of_check (by decide +kernel), by decide +kernel⟩

theorem wit_TheLadderClimbsFallsAndClears_5_4 : ∃ (s : State) (dt : Nat) (k : Nat) (powers : List Nat),
    s.checkOn Ck.secPeak = true ∧ s.gnsRuns = true ∧ s.scanUnit = true ∧ (s.elapse dt).nextScan = some k ∧ (let c := s.chan k;
    (let g := sigOf c.sig; (let tracked := (2 * c.code).floor.toNat % (2 * g.chips);
    (let key := k * 65536 + sigKey c.sig c.svid;
    (let run := ((s.mir.conds.find? fun c => c.is Ck.secPeak key).map fun c => c.run).getD 0; (∀ x, s.mir.scanned = some x →
    x.2 + scanTicks g ≤ s.clk.counter + dt) ∧ scanTicks g ≤ s.clk.counter + dt ∧
    secondPeak (2 * g.chips) tracked (s.reg F.MIR_PEAK_RATIO) powers = true ∧ s.act F.MIR_CTRL_PERSIST ≤ run + 1))))) := by
  refine ⟨{ (withAct F.GNS_CTRL_MODE 0 1 <| receiver { Chan.reset with state := .tracking, sig := 16 }) with mir := { live.mir with conds := [⟨3, 4096, 2, false, 0, [], [], 0, false⟩] } },
     tickS, 0, [100, 0, 0, 0, 0, 0, 0, 0, 0, 200], ?_, ?_, ?_, ?_, (by intro x h; cases h), ?_⟩ <;>
  decide +kernel

theorem wit_FixCommandsAct_5 : ∃ (s : State) (dt : Nat) (m : Nat) (a : Assembly), s.tidy ∧ s.fixRuns = true ∧
    tfind s.fix.asm m = some a ∧ (let due := a.tObs + s.act F.FIX_SOLVER_ASM_LIMIT * 10000000; due ≤ (s.elapse dt).now ∧
    (s.elapse dt).commitWaits due = true) :=
  ⟨{ solving with tb := withCommit.tb }, tickS, 255, ⟨1, 0, 2, 0, []⟩, tidy_of_check (by decide +kernel), by decide +kernel,
   by decide +kernel, by decide +kernel⟩

theorem wit_FixCommandsAct_7 : ∃ (s : State) (dt : Nat) (l : Nat) (q : Solve) (rest : List Solve), s.tidy ∧ s.fixRuns = true ∧
    s.fix.queue = q :: rest ∧ l < 64 ∧ tfind s.fix.lanes l = none ∧ (∀ k, k < l → tfind s.fix.lanes k ≠ none) ∧
    (s.elapse dt).commitFirst (s.clk.counter + dt) = true :=
  ⟨{ solving with tb := withCommit.tb }, 0, 63, solve, [], tidy_of_check (by decide +kernel), by decide +kernel⟩

/-- A return request of machine 255, and one that waits for the host. -/
def request : Req := ⟨255, 0, 0, 1, 0, 0, 0, [], 0, 0, 0, [], [], none, false, none, false⟩
def asking : State :=
  withAct F.CAR_TRACK_FRAME_FRAME 0 2048 { trained with car := { trained.car with
      pend := [request], hostq := [⟨1, 0, false, request⟩], machs := [(255, { CarMach.reset with held := true })] } }

/-- The same with a place of the owner 256 asked for instead, beside a reservation of the owner 257 in another field. -/
def placing : Req := { request with owner := 256, kind := 5, segs := [⟨(0, 0), (5, 0), 1, 200000, none, 0, none, false⟩] }
def placed (r : Req) : State :=
  { asking with car := { asking.car with
      pend := [r, { r with id := 2 }], res := [(257, [⟨(0, 0), (5, 0), 1, 0, none, 3, none, false⟩])] } }

/-- Machine 255 may ask for a track of a task that the host decides. -/
def hosting : State :=
  withAct F.CAR_CTRL_EN 0 1 <| withAct F.CAR_MACH_EN 255 1
    { asking with car := { asking.car with
        machs := [(255, { CarMach.reset with stopped := false })], tasks := [(0, [1, 3] ++ List.replicate 14 0 ++ List.replicate 32 0xFF)] } }

theorem wit_CaravanDecidesAndReleases_1 : ∃ (s : State) (dt : Nat) (us : Nat) (r : Req), s.tidy ∧ us ≤ 200 ∧
    s.car.fault = false ∧ s.unitOn U.car = true ∧ s.dramHeld = false ∧ (s.elapse dt).firstReq = some r :=
  ⟨asking, 1000 * tickS, 200, request, tidy_of_check (by decide +kernel), by decide +kernel⟩

theorem wit_CaravanDecidesAndReleases_1_1 : ∃ (s : State) (dt : Nat) (us : Nat) (r : Req), s.tidy ∧ us ≤ 200 ∧
    s.car.fault = false ∧ s.unitOn U.car = true ∧ s.dramHeld = false ∧ (s.elapse dt).firstReq = some r ∧ ∃ x,
    x ∈ s.car.pend.erase r ∧ x.desc = none := by
  refine ⟨placed placing, 1000 * tickS, 200, placing, tidy_of_check (by decide +kernel), ?_, ?_, ?_, ?_, ?_,
     { placing with id := 2 }, ?_⟩ <;>
  decide +kernel

theorem wit_CaravanDecidesAndReleases_1_2 : ∃ (s : State) (dt : Nat) (us : Nat) (r : Req), s.tidy ∧ us ≤ 200 ∧
    s.car.fault = false ∧ s.unitOn U.car = true ∧ s.dramHeld = false ∧ (s.elapse dt).firstReq = some r ∧ r.owner < 256 ∧
    r.kind ≠ 3 ∧ r.kind ≠ 4 ∧ s.stp.latched = true :=
  ⟨{ asking with stp := Stp.reset }, 1000 * tickS, 200, request, tidy_of_check (by decide +kernel), by decide +kernel⟩

theorem wit_CaravanDecidesAndReleases_1_4 : ∃ (s : State) (dt : Nat) (us : Nat) (r : Req), s.tidy ∧ us ≤ 200 ∧
    s.car.fault = false ∧ s.unitOn U.car = true ∧ s.dramHeld = false ∧ (s.elapse dt).firstReq = some r ∧ r.owner < 256 ∧
    r.kind = 3 :=
  ⟨placed ({ request with kind := 3 }), 1000 * tickS, 200, { request with kind := 3 }, tidy_of_check (by decide +kernel),
   by decide +kernel⟩

theorem wit_CaravanDecidesAndReleases_1_6 : ∃ (s : State) (dt : Nat) (us : Nat) (r : Req), s.tidy ∧ us ≤ 200 ∧
    s.car.fault = false ∧ s.unitOn U.car = true ∧ s.dramHeld = false ∧ (s.elapse dt).firstReq = some r ∧
    (let u := { s.elapse dt with car := { s.car with pend := s.car.pend.erase r, answerMax := max s.car.answerMax us } }; ∃ a,
    (u.carDecide r).2 = .answer a) := by
  refine ⟨placed placing, 1000 * tickS, 200, placing, tidy_of_check (by decide +kernel), ?_, ?_, ?_, ?_, ?_, ⟨0, 0, none, 1, false,
     0, none⟩, ?_⟩ <;>
  decide +kernel

theorem wit_CaravanDecidesAndReleases_1_9 : ∃ (s : State) (dt : Nat) (us : Nat) (r : Req), s.tidy ∧ us ≤ 200 ∧
    s.car.fault = false ∧ s.unitOn U.car = true ∧ s.dramHeld = false ∧ (s.elapse dt).firstReq = some r ∧
    (let u := { s.elapse dt with car := { s.car with pend := s.car.pend.erase r, answerMax := max s.car.answerMax us } }; ∃ a,
    (u.carDecide r).2 = .answer a ∧ a.code = 0 ∧ r.kind ≠ 4) := by
  refine ⟨placed placing, 1000 * tickS, 200, placing, tidy_of_check (by decide +kernel), ?_, ?_, ?_, ?_, ?_, ⟨0, 0, none, 1, false,
     0, none⟩, ?_⟩ <;>
  decide +kernel

theorem wit_CaravanDecidesAndReleases_1_10 : ∃ (s : State) (dt : Nat) (us : Nat) (r : Req), s.tidy ∧ us ≤ 200 ∧
    s.car.fault = false ∧ s.unitOn U.car = true ∧ s.dramHeld = false ∧ (s.elapse dt).firstReq = some r ∧
    (let u := { s.elapse dt with car := { s.car with pend := s.car.pend.erase r, answerMax := max s.car.answerMax us } };
    (u.carDecide r).2 = .toHost) := by
  refine ⟨hosting, 1000 * tickS, 200, request, tidy_of_check (by decide +kernel), ?_, ?_, ?_, ?_, ?_, ?_⟩ <;>
  decide +kernel

theorem wit_CaravanDecidesAndReleases_2 : ∃ (s : State) (dt : Nat) (us : Nat) (r : Req), 200 < us ∧ s.car.fault = false ∧
    s.unitOn U.car = true ∧ s.dramHeld = false ∧ (s.elapse dt).firstReq = some r :=
  ⟨asking, 1000 * tickS, 201, request, by decide +kernel⟩

theorem wit_CaravanDecidesAndReleases_3 : ∃ (s : State) (dt : Nat) (h : HostReq), s.car.fault = false ∧ s.unitOn U.car = true ∧
    s.car.hostq.find? (fun h => h.since + s.reg F.CAR_CONF_HOST_TIMEOUT * 10 * tickMs ≤ s.clk.counter + dt) = some h :=
  ⟨asking, 1000 * tickS, ⟨1, 0, false, request⟩, by decide +kernel⟩

theorem wit_CaravanDecidesAndReleases_4 : ∃ (s : State) (dt : Nat), s.tidy ∧ s.unitOn U.car = true ∧ s.pwr.state ≠ .safeHold ∧
    (s.elapse dt).due T.carExpiry (10 * tickMs) = true :=
  ⟨asking, tickS, tidy_of_check (by decide +kernel), by decide +kernel⟩

theorem wit_CaravanDecidesAndReleases_4_1 : ∃ (s : State) (dt : Nat), s.tidy ∧ s.unitOn U.car = true ∧ s.pwr.state ≠ .safeHold ∧
    (s.elapse dt).due T.carExpiry (10 * tickMs) = true ∧ ∃ o, (let l := s.reservation o;
    (let keep := l.filter fun g => !g.past s.carMargin (s.elapse dt).now; (keep ≠ [] ∨ 256 ≤ o ∨ l = []))) :=
  ⟨placed placing, tickS, tidy_of_check (by decide +kernel), by decide +kernel, by decide +kernel, by decide +kernel, 257,
   (.inr (.inl (by decide)))⟩

theorem wit_CaravanDecidesAndReleases_4_2 : ∃ (s : State) (dt : Nat), s.tidy ∧ s.unitOn U.car = true ∧ s.pwr.state ≠ .safeHold ∧
    (s.elapse dt).due T.carExpiry (10 * tickMs) = true ∧ ∃ o, (let l := s.reservation o;
    (let keep := l.filter fun g => !g.past s.carMargin (s.elapse dt).now; ∃ g, keep = [] ∧ o < 256 ∧ l.getLast? = some g)) := by
  refine ⟨{ asking with car := { asking.car with res := [(255, [⟨(0, 0), (5, 0), 1, 0, some 1, 0, none, false⟩])] } }, 100 * tickS,
     tidy_of_check (by decide +kernel), ?_, ?_, ?_, 255, ⟨(0, 0), (5, 0), 1, 0, some 1, 0, none, false⟩, ?_⟩ <;>
  decide +kernel

theorem wit_CaravanDecidesAndReleases_5 : ∃ (s : State) (ring : Nat) (index : Nat) (owner : Nat) (k : Nat) (op : Nat) (d : Desc),
    s.tidy ∧ s.memoriesCanonical ∧ s.offers ring index opCarRelease d ∧ s.carStop = none ∧ s.dramHeld = false ∧
    s.mem.trainFail = false ∧ d.operand 0 2 = owner ∧ d.operand 2 2 = k ∧ d.operand 4 1 = op ∧ op ≤ 3 ∧ (k < 4096 → op ≠ 0 →
    s.dramSound (s.trackAddr k) 528) := by
  refine ⟨offer (descOf opCarRelease [255, 0, 255, 15, 3]) (asking), 3, 0, 255, 4095, 3, descOf opCarRelease [255, 0, 255, 15, 3],
     tidy_of_check (by decide +kernel), canonical_of_check (by decide +kernel), ⟨by decide +kernel, by decide +kernel,
     by decide +kernel⟩, ?_, ?_, ?_, ?_, ?_, ?_, ?_,
     (fun _ _ => by unfold State.dramSound State.calm State.offImages; decide +kernel)⟩ <;>
  decide +kernel

theorem wit_CaravanDecidesAndReleases_5_2 : ∃ (s : State) (ring : Nat) (index : Nat) (owner : Nat) (k : Nat) (op : Nat) (d : Desc),
    s.tidy ∧ s.memoriesCanonical ∧ s.offers ring index opCarRelease d ∧ s.carStop = none ∧ s.dramHeld = false ∧
    s.mem.trainFail = false ∧ d.operand 0 2 = owner ∧ d.operand 2 2 = k ∧ d.operand 4 1 = op ∧ op ≤ 3 ∧ (k < 4096 → op ≠ 0 →
    s.dramSound (s.trackAddr k) 528) ∧ k < 4096 ∧ op ≠ 0 := by
  refine ⟨offer (descOf opCarRelease [255, 0, 255, 15, 3]) (asking), 3, 0, 255, 4095, 3, descOf opCarRelease [255, 0, 255, 15, 3],
     tidy_of_check (by decide +kernel), canonical_of_check (by decide +kernel), ⟨by decide +kernel, by decide +kernel,
     by decide +kernel⟩, ?_, ?_, ?_, ?_, ?_, ?_, ?_,
     (fun _ _ => by unfold State.dramSound State.calm State.offImages; decide +kernel), ?_⟩ <;>
  decide +kernel

theorem wit_CaravanDecidesAndReleases_5_3 : ∃ (s : State) (ring : Nat) (index : Nat) (owner : Nat) (k : Nat) (op : Nat) (d : Desc),
    s.tidy ∧ s.memoriesCanonical ∧ s.offers ring index opCarRelease d ∧ s.carStop = none ∧ s.dramHeld = false ∧
    s.mem.trainFail = false ∧ d.operand 0 2 = owner ∧ d.operand 2 2 = k ∧ d.operand 4 1 = op ∧ op ≤ 3 ∧ (k < 4096 → op ≠ 0 →
    s.dramSound (s.trackAddr k) 528) ∧ (4096 ≤ k ∨ op = 0) := by
  refine ⟨offer (descOf opCarRelease [255, 255, 0, 16, 3]) (asking), 3, 0, 0xFFFF, 4096, 3, descOf opCarRelease [255, 255, 0, 16, 3],
     tidy_of_check (by decide +kernel), canonical_of_check (by decide +kernel), ⟨by decide +kernel, by decide +kernel,
     by decide +kernel⟩, ?_, ?_, ?_, ?_, ?_, ?_, ?_,
     (fun _ _ => by unfold State.dramSound State.calm State.offImages; decide +kernel), (.inl (by decide))⟩ <;>
  decide +kernel

theorem wit_CaravanDecidesAndReleases_6 : ∃ (s : State) (ring : Nat) (index : Nat) (m : Nat) (d : Desc), s.tidy ∧
    s.offers ring index opCarResume d ∧ s.carStop = none ∧ d.operand 0 1 = m :=
  ⟨offer (descOf opCarResume [255]) (asking), 3, 0, 255, descOf opCarResume [255], tidy_of_check (by decide +kernel),
   ⟨by decide +kernel, by decide +kernel, by decide +kernel⟩, by decide +kernel⟩

theorem wit_CaravanDecidesAndReleases_6_1 : ∃ (s : State) (ring : Nat) (index : Nat) (m : Nat) (d : Desc), s.tidy ∧
    s.offers ring index opCarResume d ∧ s.carStop = none ∧ d.operand 0 1 = m ∧ (s.carMach m).held = true :=
  ⟨offer (descOf opCarResume [255]) (asking), 3, 0, 255, descOf opCarResume [255], tidy_of_check (by decide +kernel),
   ⟨by decide +kernel, by decide +kernel, by decide +kernel⟩, by decide +kernel⟩

theorem wit_CaravanDecidesAndReleases_6_5 : ∃ (s : State) (ring : Nat) (index : Nat) (m : Nat) (d : Desc), s.tidy ∧
    s.offers ring index opCarResume d ∧ s.carStop = none ∧ d.operand 0 1 = m ∧ (s.carMach m).held = false :=
  ⟨offer (descOf opCarResume [254]) (asking), 3, 0, 254, descOf opCarResume [254], tidy_of_check (by decide +kernel),
   ⟨by decide +kernel, by decide +kernel, by decide +kernel⟩, by decide +kernel⟩

theorem wit_CaravanTablesAndRequests_1 : ∃ (s : State) (ring : Nat) (index : Nat) (f : Nat) (d : Desc), s.memoriesCanonical ∧
    s.offers ring index opCarTrack d ∧ s.carStop = none ∧ s.dramSound (s.trackAddr f) 528 ∧ d.operand 2 2 = f ∧ f < 4096 ∧
    d.operand 0 1 = 0 ∧ d.operand 4 2 = 1 ∧ d.len = 528 :=
  ⟨offer (descOf opCarTrack [0, 0, 255, 15, 1] 528) (asking), 3, 0, 4095, descOf opCarTrack [0, 0, 255, 15, 1] 528,
   canonical_of_check (by decide +kernel), ⟨by decide +kernel, by decide +kernel, by decide +kernel⟩, by decide +kernel,
   (by unfold State.dramSound State.calm State.offImages; decide +kernel), by decide +kernel⟩

theorem wit_CaravanTablesAndRequests_2 : ∃ (s : State) (ring : Nat) (index : Nat) (f : Nat) (d : Desc), s.memoriesCanonical ∧
    s.offers ring index opCarTrack d ∧ s.carStop = none ∧ s.dramSound (s.trackAddr f) 528 ∧ d.operand 2 2 = f ∧ f < 4096 ∧ ∃ c,
    d.operand 0 1 = 1 ∧ d.operand 4 2 = c ∧ 1 ≤ c ∧ f + c ≤ 4096 ∧ d.len = 528 * c := by
  refine ⟨offer (descOf opCarTrack [1, 0, 255, 15, 1] 528) (asking), 3, 0, 4095, descOf opCarTrack [1, 0, 255, 15, 1] 528,
     canonical_of_check (by decide +kernel), ⟨by decide +kernel, by decide +kernel, by decide +kernel⟩, ?_,
     (by unfold State.dramSound State.calm State.offImages; decide +kernel), ?_, ?_, 1, ?_⟩ <;>
  decide +kernel

theorem wit_CaravanTablesAndRequests_3 : ∃ (s : State) (ring : Nat) (index : Nat) (f : Nat) (c : Nat) (d : Desc), s.tidy ∧
    s.offers ring index opCarTask d ∧ s.carStop = none ∧ d.operand 0 1 = f ∧ d.operand 1 2 = c ∧ 1 ≤ c ∧ f + c ≤ 256 ∧
    d.len = 48 * c :=
  ⟨offer (descOf opCarTask [255, 1] 48) (asking), 3, 0, 255, 1, descOf opCarTask [255, 1] 48,
   tidy_of_check (by decide +kernel), ⟨by decide +kernel, by decide +kernel, by decide +kernel⟩, by decide +kernel⟩

theorem wit_CaravanTablesAndRequests_4 : ∃ (s : State) (ring : Nat) (index : Nat) (owner : Nat) (d : Desc),
    s.offers ring index opCarReserve d ∧ s.carStop = none ∧ d.operand 0 2 = owner ∧ owner < 0x200 ∧ d.len % 32 = 0 ∧
    1 ≤ d.len / 32 ∧ d.len / 32 ≤ 64 :=
  ⟨offer (descOf opCarReserve [255, 1] 2048) (asking), 3, 0, 511, descOf opCarReserve [255, 1] 2048, ⟨by decide +kernel,
   by decide +kernel, by decide +kernel⟩, by decide +kernel⟩

theorem wit_CaravanTablesAndRequests_5 : ∃ (s : State) (ring : Nat) (index : Nat) (d : Desc),
    s.offers ring index opCarReqGet d ∧ s.carStop = none ∧ 60 ≤ d.len ∧ s.waiters opCarReqGet = [] :=
  ⟨offer (descOf opCarReqGet [] 60) (asking), 3, 0, descOf opCarReqGet [] 60, ⟨by decide +kernel, by decide +kernel,
   by decide +kernel⟩, by decide +kernel⟩

theorem wit_CaravanTablesAndRequests_5_1 : ∃ (s : State) (ring : Nat) (index : Nat) (d : Desc),
    s.offers ring index opCarReqGet d ∧ s.carStop = none ∧ 60 ≤ d.len ∧ s.waiters opCarReqGet = [] ∧
    s.car.hostq.find? (fun h => !h.read) = none :=
  ⟨offer (descOf opCarReqGet [] 60), 3, 0, descOf opCarReqGet [] 60, ⟨by decide +kernel, by decide +kernel,
   by decide +kernel⟩, by decide +kernel⟩

theorem wit_CaravanTablesAndRequests_5_2 : ∃ (s : State) (ring : Nat) (index : Nat) (d : Desc),
    s.offers ring index opCarReqGet d ∧ s.carStop = none ∧ 60 ≤ d.len ∧ s.waiters opCarReqGet = [] ∧ ∃ h,
    s.car.hostq.find? (fun h => !h.read) = some h := by
  refine ⟨offer (descOf opCarReqGet [] 60) (asking), 3, 0, descOf opCarReqGet [] 60, ⟨by decide +kernel, by decide +kernel,
     by decide +kernel⟩, ?_, ?_, ?_, ⟨1, 0, false, request⟩, ?_⟩ <;>
  decide +kernel

theorem wit_CaravanTablesAndRequests_1_1 : ∃ (s : State) (ring : Nat) (index : Nat) (f : Nat) (d : Desc), s.memoriesCanonical ∧
    s.offers ring index opCarTrack d ∧ s.carStop = none ∧ s.dramSound (s.trackAddr f) 528 ∧ d.operand 2 2 = f ∧ f < 4096 ∧
    d.operand 0 1 = 0 ∧ d.operand 4 2 = 1 ∧ d.len = 528 ∧ trState (s.trackRec f) = 1 :=
  ⟨offer (descOf opCarTrack [0, 0, 255, 15, 1] 528) ({ asking with mem := { asking.mem with dram := [(10550774, 1)] } }), 3, 0,
   4095, descOf opCarTrack [0, 0, 255, 15, 1] 528, canonical_of_check (by decide +kernel), ⟨by decide +kernel,
   by decide +kernel, by decide +kernel⟩, by decide +kernel,
   (by unfold State.dramSound State.calm State.offImages; decide +kernel), by decide +kernel⟩

theorem keyed_parent (t u : Nat) (derive : Bool) (h : u = if derive then Usage.deriveOnly else Usage.wrapOnly) (s : State) :
    (keyed t u s).parentOf 1023 derive = .inl (kdf [] false [] [] (typeSize t), decide (t = 3), 1, 1) := by
  simp only [State.parentOf, keyed_valid, keyed_orphan, keyed_material]
  simp [isRoot, rootExactName, rootLineageName, record, h]

theorem keyed_transport (t : Nat) (s : State) :
    (keyed t Usage.wrapOnly s).transportKey 1023 = .inl (kdf [] false [] [] (typeSize t)) := by
  simp only [State.transportKey, keyed_valid, keyed_orphan, keyed_material]
  simp [provisionName, record]

theorem wit_RecordsAreMadeRetiredAndShown_1 : ∃ (s : State) (dt : Nat) (ring : Nat) (index : Nat) (payload : List Byte) (d : Desc) (c : Instr) (method : Nat) (i : Nat) (pdepth : Nat) (pm : List Byte) (p384 : Bool) (gen : Word),
    s.offers ring index opKeyCreate d ∧ createMethod d = method ∧ d.operand 4 1 = method ∧ s.updateStop = none ∧
    s.nvHeld = false ∧ d.operand 0 2 = i ∧ i < 1024 ∧ d.operand 5 1 < 4 ∧ d.operand 6 1 < 4 ∧
    typeUsageOk (d.operand 5 1) (d.operand 6 1) (bit (d.operand 7 1) 1) = true ∧ s.validRec i = none ∧
    s.parentOf (d.operand 2 2) (decide (method = 0)) = .inl (pm, p384, gen, pdepth) ∧ pdepth < 4 ∧
    s.nvRoom Region.key (i / 128) 1 ∧ (c = .keyCreateDerive dt ring index payload .plain ∧ method = 0 ∧ 1 ≤ d.operand 10 1 ∧
    d.operand 10 1 ≤ 16 ∧ d.operand 11 1 ≤ 32 ∧ d.len = d.operand 10 1 + d.operand 11 1) := by
  refine ⟨keyed 0 Usage.wrapOnly (offer (descOf opKeyCreate [254, 3, 240, 255, 0, 3, 0, 0, 255, 255, 16, 32] 48)), 0, 3, 0,
     List.replicate 48 7, descOf opKeyCreate [254, 3, 240, 255, 0, 3, 0, 0, 255, 255, 16, 32] 48,
     .keyCreateDerive 0 3 0 (List.replicate 48 7) .plain, 0, 1022, 0, [], false, 0, ⟨by decide +kernel, by decide +kernel,
     by decide +kernel⟩, ?_, ?_, ?_, ?_, ?_, ?_, ?_, ?_, ?_, ?_, ?_, ?_, (by decide +kernel : _ < _),
     ⟨rfl, rfl, by decide +kernel, by decide +kernel, by decide +kernel, by decide +kernel⟩⟩ <;>
  decide +kernel

theorem wit_RecordsAreMadeRetiredAndShown_2 : ∃ (s : State) (dt : Nat) (ring : Nat) (index : Nat) (d : Desc) (c : Instr) (method : Nat) (i : Nat) (pdepth : Nat) (pm : List Byte) (p384 : Bool) (gen : Word),
    s.offers ring index opKeyCreate d ∧ createMethod d = method ∧ d.operand 4 1 = method ∧ s.updateStop = none ∧
    s.nvHeld = false ∧ d.operand 0 2 = i ∧ i < 1024 ∧ d.operand 5 1 < 4 ∧ d.operand 6 1 < 4 ∧
    typeUsageOk (d.operand 5 1) (d.operand 6 1) (bit (d.operand 7 1) 1) = true ∧ s.validRec i = none ∧
    s.parentOf (d.operand 2 2) (decide (method = 0)) = .inl (pm, p384, gen, pdepth) ∧ pdepth < 4 ∧
    s.nvRoom Region.key (i / 128) 1 ∧ (c = .keyCreateGenerate dt ring index .plain ∧ method = 1 ∧ d.len = 0) := by
  refine ⟨keyed 0 Usage.wrapOnly (offer (descOf opKeyCreate [254, 3, 255, 3, 1, 2, 3, 2, 255, 255] 0)), 0, 3, 0,
     descOf opKeyCreate [254, 3, 255, 3, 1, 2, 3, 2, 255, 255] 0, .keyCreateGenerate 0 3 0 .plain, 1, 1022, 1,
     kdf [] false [] [] (typeSize 0), false, 1, ⟨by decide +kernel, by decide +kernel, by decide +kernel⟩, ?_, ?_, ?_, ?_,
     ?_, ?_, ?_, ?_, ?_, ?_,
     (by rw [show Desc.operand _ 2 2 = 1023 by decide +kernel]; exact keyed_parent 0 Usage.wrapOnly false rfl _), ?_,
     (by decide +kernel : _ < _), ⟨rfl, rfl, by decide +kernel⟩⟩ <;>
  decide +kernel

theorem wit_RecordsAreMadeRetiredAndShown_3 : ∃ (s : State) (dt : Nat) (ring : Nat) (index : Nat) (payload : List Byte) (d : Desc) (c : Instr) (method : Nat) (i : Nat) (pdepth : Nat) (pm : List Byte) (p384 : Bool) (gen : Word) (tk : List Byte),
    s.offers ring index opKeyCreate d ∧ createMethod d = method ∧ d.operand 4 1 = method ∧ s.updateStop = none ∧
    s.nvHeld = false ∧ d.operand 0 2 = i ∧ i < 1024 ∧ d.operand 5 1 < 4 ∧ d.operand 6 1 < 4 ∧
    typeUsageOk (d.operand 5 1) (d.operand 6 1) (bit (d.operand 7 1) 1) = true ∧ s.validRec i = none ∧
    s.parentOf (d.operand 2 2) (decide (method = 0)) = .inl (pm, p384, gen, pdepth) ∧ pdepth < 4 ∧
    s.nvRoom Region.key (i / 128) 1 ∧ (let size := typeSize (d.operand 5 1);
    (c = .keyCreateImport dt ring index payload .plain ∧ method = 2 ∧ d.len = size + 8 ∧
    (if d.operand 8 2 = 0xFFFF then tk = pm else (s.cacheUse (d.operand 2 2)).transportKey (d.operand 8 2) = .inl tk))) := by
  refine ⟨keyed 0 Usage.wrapOnly (offer (descOf opKeyCreate [254, 3, 255, 3, 2, 1, 2, 0, 255, 255] 40)), 0, 3, 0, [],
     descOf opKeyCreate [254, 3, 255, 3, 2, 1, 2, 0, 255, 255] 40, .keyCreateImport 0 3 0 [] .plain, 2, 1022, 1,
     kdf [] false [] [] (typeSize 0), false, 1, kdf [] false [] [] (typeSize 0), ⟨by decide +kernel, by decide +kernel,
     by decide +kernel⟩, ?_, ?_, ?_, ?_, ?_, ?_, ?_, ?_, ?_, ?_,
     (by rw [show Desc.operand _ 2 2 = 1023 by decide +kernel]; exact keyed_parent 0 Usage.wrapOnly false rfl _), ?_,
     (by decide +kernel : _ < _), ⟨rfl, rfl, by decide +kernel, by rw [if_pos (by decide +kernel)]⟩⟩ <;>
  decide +kernel

theorem wit_RecordsAreMadeRetiredAndShown_4 : ∃ (s : State) (dt : Nat) (ring : Nat) (index : Nat) (i : Nat) (d : Desc) (k : KeyCopy) (c : Instr) (destroy : Bool) (run : NvRun),
    ((c = .keyDestroy dt ring index run ∧ destroy = true ∧ s.offers ring index opKeyDestroy d) ∨
    (c = .keyInvalidate dt ring index run ∧ destroy = false ∧ s.offers ring index opKeyInvalidate d)) ∧ d.operand 0 2 = i ∧
    i < 1024 ∧ s.updateStop = none ∧ s.validRec i = some k ∧ (s.inService i = false ∨ bit (d.operand 2 1) 0 = true) ∧
    s.nvRoom Region.key (i / 128) 1 ∧ s.nvHeld = false ∧ run = .plain := by
  refine ⟨keyed 0 0 (offer (descOf opKeyDestroy [255, 3, 0])), 0, 3, 0, 1023, descOf opKeyDestroy [255, 3, 0], record 0 0,
     .keyDestroy 0 3 0 .plain, true, .plain, .inl ⟨rfl, rfl, by decide +kernel, by decide +kernel, by decide +kernel⟩, ?_, ?_,
     ?_, keyed_valid _ _ _, ?_, (by decide +kernel : _ < _), ?_⟩ <;>
  decide +kernel

theorem wit_RecordsAreMadeRetiredAndShown_4b : ∃ (s : State) (dt : Nat) (ring : Nat) (index : Nat) (i : Nat) (d : Desc) (k : KeyCopy) (c : Instr) (destroy : Bool) (run : NvRun),
    ((c = .keyDestroy dt ring index run ∧ destroy = true ∧ s.offers ring index opKeyDestroy d) ∨
    (c = .keyInvalidate dt ring index run ∧ destroy = false ∧ s.offers ring index opKeyInvalidate d)) ∧ d.operand 0 2 = i ∧
    i < 1024 ∧ s.updateStop = none ∧ s.validRec i = some k ∧ (s.inService i = false ∨ bit (d.operand 2 1) 0 = true) ∧
    s.nvRoom Region.key (i / 128) 1 ∧ s.nvHeld = false ∧ run = .plain := by
  refine ⟨keyed 0 0 (offer (descOf opKeyInvalidate [255, 3,
     1]) (withAct F.STP_SRC_FABRIC 0 1 (withAct F.STP_KEYS_FAB_RX 0 1023 live))), 0, 3, 0, 1023, descOf opKeyInvalidate [255, 3,
     1], record 0 0, .keyInvalidate 0 3 0 .plain, false, .plain,
     .inr ⟨rfl, rfl, by decide +kernel, by decide +kernel, by decide +kernel⟩, ?_, ?_, ?_, keyed_valid _ _ _, ?_,
     (by decide +kernel : _ < _), ?_⟩ <;>
  decide +kernel

theorem wit_RecordsAreMadeRetiredAndShown_6 : ∃ (s : State) (dt : Nat) (ring : Nat) (index : Nat) (i : Nat) (d : Desc) (k : KeyCopy) (c : Instr) (destroy : Bool) (run : NvRun),
    ((c = .keyDestroy dt ring index run ∧ destroy = true ∧ s.offers ring index opKeyDestroy d) ∨
    (c = .keyInvalidate dt ring index run ∧ destroy = false ∧ s.offers ring index opKeyInvalidate d)) ∧ d.operand 0 2 = i ∧
    i < 1024 ∧ s.updateStop = none ∧ s.validRec i = some k ∧ s.inService i = true ∧ bit (d.operand 2 1) 0 = false := by
  refine ⟨keyed 0 0 (offer (descOf opKeyInvalidate [255, 3,
     0]) (withAct F.STP_SRC_FABRIC 0 1 (withAct F.STP_KEYS_FAB_RX 0 1023 live))), 0, 3, 0, 1023, descOf opKeyInvalidate [255, 3,
     0], record 0 0, .keyInvalidate 0 3 0 .plain, false, .plain,
     .inr ⟨rfl, rfl, by decide +kernel, by decide +kernel, by decide +kernel⟩, ?_, ?_, ?_, keyed_valid _ _ _, ?_⟩ <;>
  decide +kernel

theorem wit_RecordsAreMadeRetiredAndShown_7 : ∃ (s : State) (ring : Nat) (index : Nat) (i : Nat) (d : Desc),
    s.offers ring index opKeyInfo d ∧ s.key.fault = false ∧ d.operand 0 2 = i :=
  ⟨offer (descOf opKeyInfo [255, 3]), 3, 0, 1023, descOf opKeyInfo [255, 3], ⟨by decide +kernel, by decide +kernel,
   by decide +kernel⟩, by decide +kernel⟩

theorem wit_RecordsAreMadeRetiredAndShown_8 : ∃ (s : State) (ring : Nat) (index : Nat) (i : Nat) (w : Nat) (d : Desc) (k : KeyCopy) (m : List Byte) (tk : List Byte),
    s.offers ring index opKeyWrapOut d ∧ s.keyStop = none ∧ d.operand 0 2 = i ∧ s.serves i k ∧ k.exportable = true ∧
    s.material i = some m ∧ d.operand 2 2 = w ∧ w ≠ provisionName ∧ s.transportKey w = .inl tk ∧ m.length + 8 ≤ d.len := by
  refine ⟨keyed 0 Usage.wrapOnly (offer (descOf opKeyWrapOut [255, 3, 255, 3] 24)), 3, 0, 1023, 1023, descOf opKeyWrapOut [255, 3,
     255, 3] 24, record 0 Usage.wrapOnly, kdf [] false [] [] (typeSize 0), kdf [] false [] [] (typeSize 0), ⟨by decide +kernel,
     by decide +kernel, by decide +kernel⟩, ?_, ?_, keyed_serves _ _ _, rfl, keyed_material _ _ _, ?_, ?_,
     keyed_transport _ _, ?_⟩ <;>
  decide +kernel

theorem wit_RecordsAreMadeRetiredAndShown_9 : ∃ (s : State) (ring : Nat) (index : Nat) (i : Nat) (d : Desc) (k : KeyCopy) (m : List Byte),
    s.offers ring index opKeyAttest d ∧ s.updateStop = none ∧ s.nvHeld = false ∧ d.operand 0 2 = i ∧ s.serves i k ∧
    k.usage = Usage.deriveOnly ∧ k.attest = true ∧ d.len = 136 ∧ s.material i = some m ∧ s.nvRoom Region.key 8 1 := by
  refine ⟨keyed 2 Usage.deriveOnly (offer (descOf opKeyAttest [255, 3] 136)), 3, 0, 1023, descOf opKeyAttest [255, 3] 136,
     record 2 Usage.deriveOnly, kdf [] false [] [] (typeSize 2), ⟨by decide +kernel, by decide +kernel, by decide +kernel⟩,
     ?_, ?_, ?_, keyed_serves _ _ _, rfl, by decide +kernel, ?_, keyed_material _ _ _, (by decide +kernel : _ < _)⟩ <;>
  decide +kernel

theorem wit_JobsRunAndKeysAreDestroyed_1 : ∃ (s : State) (dt : Nat) (ring : Nat) (index : Nat) (i : Nat) (op : Nat) (payload : List Byte) (d : Desc) (k : KeyCopy) (c : Instr),
    ((c = .keyCryptGcmEncrypt dt ring index payload ∧ op = 0) ∨ (c = .keyCryptGcmDecrypt dt ring index payload ∧ op = 1) ∨
    (c = .keyCryptCcmEncrypt dt ring index payload ∧ op = 2) ∨ (c = .keyCryptCcmDecrypt dt ring index payload ∧ op = 3) ∨
    (c = .keyCryptCmacGenerate dt ring index payload ∧ op = 4) ∨ (c = .keyCryptCmacVerify dt ring index payload ∧ op = 5) ∨
    (c = .keyCryptHmacGenerate dt ring index payload ∧ op = 6) ∨ (c = .keyCryptHmacVerify dt ring index payload ∧ op = 7)) ∧
    s.offers ring index opKeyCrypt d ∧ cryptOp d = op ∧ d.operand 2 1 = op ∧ s.keyStop = none ∧ d.operand 0 2 = i ∧
    s.serves i k ∧ k.usage = (if op % 2 = 0 then Usage.encryptOnly else Usage.decryptOnly) ∧ isAes k.type = decide (op ≤ 5) ∧
    (let l := cryptLens d op k.type; d.len = 64 + l.aad + l.data ∧ s.key.queue.length < 64) := by
  refine ⟨keyed 0 0 (offer (descOf opKeyCrypt [255, 3, 0, 12, 16, 0, 0, 0, 1, 0, 0, 0, 1] 66)), 0, 3, 0, 1023, 0, [],
     descOf opKeyCrypt [255, 3, 0, 12, 16, 0, 0, 0, 1, 0, 0, 0, 1] 66, record 0 0, .keyCryptGcmEncrypt 0 3 0 [],
     .inl ⟨rfl, rfl⟩, ⟨by decide +kernel, by decide +kernel, by decide +kernel⟩, ?_, ?_, ?_, ?_, keyed_serves _ _ _, rfl,
     rfl, ?_⟩ <;>
  decide +kernel

theorem wit_JobsRunAndKeysAreDestroyed_1b : ∃ (s : State) (dt : Nat) (ring : Nat) (index : Nat) (i : Nat) (op : Nat) (payload : List Byte) (d : Desc) (k : KeyCopy) (c : Instr),
    ((c = .keyCryptGcmEncrypt dt ring index payload ∧ op = 0) ∨ (c = .keyCryptGcmDecrypt dt ring index payload ∧ op = 1) ∨
    (c = .keyCryptCcmEncrypt dt ring index payload ∧ op = 2) ∨ (c = .keyCryptCcmDecrypt dt ring index payload ∧ op = 3) ∨
    (c = .keyCryptCmacGenerate dt ring index payload ∧ op = 4) ∨ (c = .keyCryptCmacVerify dt ring index payload ∧ op = 5) ∨
    (c = .keyCryptHmacGenerate dt ring index payload ∧ op = 6) ∨ (c = .keyCryptHmacVerify dt ring index payload ∧ op = 7)) ∧
    s.offers ring index opKeyCrypt d ∧ cryptOp d = op ∧ d.operand 2 1 = op ∧ s.keyStop = none ∧ d.operand 0 2 = i ∧
    s.serves i k ∧ k.usage = (if op % 2 = 0 then Usage.encryptOnly else Usage.decryptOnly) ∧ isAes k.type = decide (op ≤ 5) ∧
    (let l := cryptLens d op k.type; d.len = 64 + l.aad + l.data ∧ s.key.queue.length < 64) := by
  refine ⟨keyed 3 1 (offer (descOf opKeyCrypt [255, 3, 7, 12, 16, 0, 0, 0, 1, 0, 0, 0, 1] 66)), 0, 3, 0, 1023, 7, [],
     descOf opKeyCrypt [255, 3, 7, 12, 16, 0, 0, 0, 1, 0, 0, 0, 1] 66, record 3 1, .keyCryptHmacVerify 0 3 0 [],
     .inr (.inr (.inr (.inr (.inr (.inr (.inr (⟨rfl, rfl⟩))))))), ⟨by decide +kernel, by decide +kernel, by decide +kernel⟩,
     ?_, ?_, ?_, ?_, keyed_serves _ _ _, rfl, rfl, ?_⟩ <;>
  decide +kernel

/-- A job on record 1023; three engines are busy and one job is queued. -/
def job : Job := ⟨3, 1023, 0, [], [], 1⟩
def jobs (l : Tbl Job) (s : State) : State := { s with key := { s.key with queue := [job], running := l } }

theorem wit_JobsRunAndKeysAreDestroyed_2 : ∃ (s : State) (e : Nat) (j : Job) (rest : List Job) (k : KeyCopy) (m : List Byte),
    s.keyStop = none ∧ s.pwr.state ≠ .safeHold ∧ e < 4 ∧ tfind s.key.running e = none ∧ (∀ x, x < e →
    tfind s.key.running x ≠ none) ∧ s.key.queue = j :: rest ∧ s.serves j.record k ∧ s.material j.record = some m := by
  refine ⟨keyed 0 0 (jobs [(0, job), (1, job), (2, job)] live), 3, job, [], record 0 0, kdf [] false [] [] (typeSize 0), ?_, ?_, ?_,
     ?_, ?_, ?_, keyed_serves _ _ _, keyed_material _ _ _⟩ <;>
  decide +kernel

theorem wit_JobsRunAndKeysAreDestroyed_3 : ∃ (s : State) (e : Nat) (j : Job) (d : Desc), s.tidy ∧ s.key.fault = false ∧
    s.pwr.state ≠ .safeHold ∧ tfind s.key.running e = some j ∧ s.waitingDesc j.serial = some d ∧ s.awaits d := by
  refine ⟨jobs [(3, job)] (offer { descOf opKeyCrypt with phase := .waiting }), 3, job, { descOf opKeyCrypt with phase := .waiting },
     tidy_of_check (by decide +kernel), ?_, ?_, ?_, ?_, (by unfold State.awaits; decide +kernel)⟩ <;>
  decide +kernel

theorem wit_JobsRunAndKeysAreDestroyed_4 : ∃ (s : State), (∀ e ∈ s.key.cache, e.2.s0.length = e.2.s1.length) ∧
    (∀ e ∈ s.key.link, ∀ h ∈ [e.2.up, e.2.dn, e.2.kw], h.s0.length = h.s1.length) :=
  ⟨{ linked 255 live with key := { (linked 255 live).key with cache := [(1023, ⟨[1, 2], [3, 4]⟩)] } }, by decide +kernel⟩

theorem wit_JobsRunAndKeysAreDestroyed_4_1 : ∃ (s : State) (dt : Nat), (∀ e ∈ s.key.cache, e.2.s0.length = e.2.s1.length) ∧
    (∀ e ∈ s.key.link, ∀ h ∈ [e.2.up, e.2.dn, e.2.kw], h.s0.length = h.s1.length) ∧ s.key.fault = false ∧
    (s.elapse dt).due T.remask (s.reg F.KEY_CTRL_REMASK * (tickMs / 10)) = true :=
  ⟨{ linked 255 live with key := { (linked 255 live).key with cache := [(1023, ⟨[1, 2], [3, 4]⟩)] } }, 1000 * tickS,
   by decide +kernel⟩

theorem wit_JobsRunAndKeysAreDestroyed_2_1 : ∃ (s : State) (e : Nat) (j : Job) (rest : List Job) (k : KeyCopy) (m : List Byte),
    s.keyStop = none ∧ s.pwr.state ≠ .safeHold ∧ e < 4 ∧ tfind s.key.running e = none ∧ (∀ x, x < e →
    tfind s.key.running x ≠ none) ∧ s.key.queue = j :: rest ∧ s.serves j.record k ∧ s.material j.record = some m ∧ k.gen = j.gen := by
  refine ⟨keyed 0 0 (jobs [(0, job), (1, job), (2, job)] live), 3, job, [], record 0 0, kdf [] false [] [] (typeSize 0), ?_, ?_, ?_,
     ?_, ?_, ?_, keyed_serves _ _ _, keyed_material _ _ _, ?_⟩ <;>
  decide +kernel

theorem wit_JobsRunAndKeysAreDestroyed_2_7 : ∃ (s : State) (e : Nat) (j : Job) (rest : List Job) (k : KeyCopy) (m : List Byte),
    s.keyStop = none ∧ s.pwr.state ≠ .safeHold ∧ e < 4 ∧ tfind s.key.running e = none ∧ (∀ x, x < e →
    tfind s.key.running x ≠ none) ∧ s.key.queue = j :: rest ∧ s.serves j.record k ∧ s.material j.record = some m ∧ ∃ d,
    k.gen ≠ j.gen ∧ s.waitingDesc j.serial = some d ∧ s.awaits d := by
  refine ⟨keyed 0 0 { offer { descOf opKeyCrypt with phase := .waiting } with key := { live.key with queue := [{ job with gen := 0 }] } },
     0, { job with gen := 0 }, [], record 0 0, kdf [] false [] [] (typeSize 0), ?_, ?_, ?_, ?_, ?_, ?_, keyed_serves _ _ _,
     keyed_material _ _ _, { descOf opKeyCrypt with phase := .waiting }, ?_, ?_, (by unfold State.awaits; decide +kernel)⟩ <;>
  decide +kernel

theorem wit_JobsRunAndKeysAreDestroyed_5 : ∃ (s : State) (ring : Nat) (index : Nat) (d : Desc),
    s.offers ring index opKeyEpochRoll d ∧ s.updateStop = none ∧ d.operand 0 1 = 0xE7 :=
  ⟨offer (descOf opKeyEpochRoll [0xE7]), 3, 0, descOf opKeyEpochRoll [0xE7], ⟨by decide +kernel, by decide +kernel,
   by decide +kernel⟩, by decide +kernel⟩

theorem wit_JobsRunAndKeysAreDestroyed_6 : ∃ (s : State) (dt : Nat) (n : Nat) (k : Nat) (lv : BitVec 4),
    (let u := { s.elapse dt with cal := { (s.elapse dt).cal with inputs := lv } };
    (let filter := bits s.cal.tamperCtrl.toNat 8 8; n < 4 ∧ u.tamperActive n = true ∧ filter ≤ k)) :=
  ⟨{ live with cal := { live.cal with tamperCtrl := 0xAA } }, 0, 3, 0, 0xF, by decide +kernel⟩

theorem wit_JobsRunAndKeysAreDestroyed_7 : ∃ (s : State) (dt : Nat) (n : Nat) (k : Nat) (lv : BitVec 4),
    (let u := { s.elapse dt with cal := { (s.elapse dt).cal with inputs := lv } };
    (let filter := bits s.cal.tamperCtrl.toNat 8 8; (4 ≤ n ∨ u.tamperActive n = false ∨ k < filter))) :=
  ⟨live, 0, 4, 0, 0, by decide +kernel⟩

theorem wit_JobsRunAndKeysAreDestroyed_5_3 : ∃ (s : State) (ring : Nat) (index : Nat) (d : Desc),
    s.offers ring index opKeyEpochRoll d ∧ s.updateStop = none ∧ d.operand 0 1 = 0xE7 ∧ ∃ i c, s.validRec i = some c ∧
    isRoot c.parent = true ∧ c.parentGen = s.cal.epochCount :=
  ⟨keyed 0 0 (offer (descOf opKeyEpochRoll [0xE7])), 3, 0, descOf opKeyEpochRoll [0xE7], ⟨by decide +kernel,
   by decide +kernel, by decide +kernel⟩, by decide +kernel, by decide +kernel, 1023, record 0 0, keyed_valid _ _ _,
   by decide +kernel⟩

theorem wit_JobsRunAndKeysAreDestroyed_5_4 : ∃ (s : State) (ring : Nat) (index : Nat) (d : Desc),
    s.offers ring index opKeyEpochRoll d ∧ s.updateStop = none ∧ d.operand 0 1 = 0xE7 ∧ s.key.running = [] ∧ s.key.queue = [] :=
  ⟨offer (descOf opKeyEpochRoll [0xE7]), 3, 0, descOf opKeyEpochRoll [0xE7], ⟨by decide +kernel, by decide +kernel,
   by decide +kernel⟩, by decide +kernel⟩

theorem wit_JobsRunAndKeysAreDestroyed_6_1 : ∃ (s : State) (dt : Nat) (n : Nat) (k : Nat) (lv : BitVec 4),
    (let u := { s.elapse dt with cal := { (s.elapse dt).cal with inputs := lv } };
    (let filter := bits s.cal.tamperCtrl.toNat 8 8; n < 4 ∧ u.tamperActive n = true ∧ filter ≤ k ∧ s.pwr.inReset = false)) :=
  ⟨{ live with cal := { live.cal with tamperCtrl := 0xAA } }, 0, 3, 0, 0xF, by decide +kernel⟩

theorem wit_JobsRunAndKeysAreDestroyed_6_11 : ∃ (s : State) (dt : Nat) (n : Nat) (k : Nat) (lv : BitVec 4),
    (let u := { s.elapse dt with cal := { (s.elapse dt).cal with inputs := lv } };
    (let filter := bits s.cal.tamperCtrl.toNat 8 8; n < 4 ∧ u.tamperActive n = true ∧ filter ≤ k ∧ s.pwr.inReset = true)) :=
  ⟨{ live with cal := { live.cal with tamperCtrl := 0xAA }, pwr := { Pwr.reset with inReset := true } }, 0, 3, 0, 0xF,
   by decide +kernel⟩

theorem wit_RecordsAreMadeRetiredAndShown_4_1 : ∃ (s : State) (dt : Nat) (ring : Nat) (index : Nat) (i : Nat) (d : Desc) (k : KeyCopy) (c : Instr) (destroy : Bool) (run : NvRun),
    ((c = .keyDestroy dt ring index run ∧ destroy = true ∧ s.offers ring index opKeyDestroy d) ∨
    (c = .keyInvalidate dt ring index run ∧ destroy = false ∧ s.offers ring index opKeyInvalidate d)) ∧ d.operand 0 2 = i ∧
    i < 1024 ∧ s.updateStop = none ∧ s.validRec i = some k ∧ (s.inService i = false ∨ bit (d.operand 2 1) 0 = true) ∧
    s.nvRoom Region.key (i / 128) 1 ∧ s.nvHeld = false ∧ run = .plain ∧ s.unitOn U.hop = true ∧
    s.descends (s.act F.HOP_KEYS_JOIN_ROOT) i = true := by
  refine ⟨keyed 0 0 (offer (descOf opKeyDestroy [255, 3, 1]) (withAct F.HOP_KEYS_JOIN_ROOT 0 1023 live)), 0, 3, 0, 1023,
     descOf opKeyDestroy [255, 3, 1], record 0 0, .keyDestroy 0 3 0 .plain, true, .plain,
     .inl ⟨rfl, rfl, by decide +kernel, by decide +kernel, by decide +kernel⟩, ?_, ?_, ?_, keyed_valid _ _ _, ?_,
     (by decide +kernel : _ < _), ?_⟩ <;>
  decide +kernel

theorem wit_RecordsAreMadeRetiredAndShown_5 : ∃ (s : State) (dt : Nat) (ring : Nat) (index : Nat) (i : Nat) (d : Desc) (k : KeyCopy) (c : Instr) (destroy : Bool) (mapped : Bool) (run : NvRun),
    ((c = .keyDestroy dt ring index run ∧ destroy = true ∧ s.offers ring index opKeyDestroy d) ∨
    (c = .keyInvalidate dt ring index run ∧ destroy = false ∧ s.offers ring index opKeyInvalidate d)) ∧ d.operand 0 2 = i ∧
    i < 1024 ∧ s.updateStop = none ∧ s.validRec i = some k ∧ (s.inService i = false ∨ bit (d.operand 2 1) 0 = true) ∧
    (s.nvHeld = true ∨ (s.nvRoom Region.key (i / 128) 1 ∧ run = ⟨0, false, some ⟨false, mapped⟩⟩)) := by
  refine ⟨keyed 0 0 (offer (descOf opKeyDestroy [255, 3, 0])), 0, 3, 0, 1023, descOf opKeyDestroy [255, 3, 0], record 0 0,
     .keyDestroy 0 3 0 ⟨0, false, some ⟨false, true⟩⟩, true, true, ⟨0, false, some ⟨false, true⟩⟩,
     .inl ⟨rfl, rfl, by decide +kernel, by decide +kernel, by decide +kernel⟩, ?_, ?_, ?_, keyed_valid _ _ _, ?_,
     .inr ⟨(by decide +kernel : _ < _), rfl⟩⟩ <;>
  decide +kernel

theorem wit_RecordsAreMadeRetiredAndShown_5b : ∃ (s : State) (dt : Nat) (ring : Nat) (index : Nat) (i : Nat) (d : Desc) (k : KeyCopy) (c : Instr) (destroy : Bool) (mapped : Bool) (run : NvRun),
    ((c = .keyDestroy dt ring index run ∧ destroy = true ∧ s.offers ring index opKeyDestroy d) ∨
    (c = .keyInvalidate dt ring index run ∧ destroy = false ∧ s.offers ring index opKeyInvalidate d)) ∧ d.operand 0 2 = i ∧
    i < 1024 ∧ s.updateStop = none ∧ s.validRec i = some k ∧ (s.inService i = false ∨ bit (d.operand 2 1) 0 = true) ∧
    (s.nvHeld = true ∨ (s.nvRoom Region.key (i / 128) 1 ∧ run = ⟨0, false, some ⟨false, mapped⟩⟩)) := by
  refine ⟨keyed 0 0 { offer (descOf opKeyDestroy [255, 3, 0]) with pwr := { live.pwr with nvStopped := true } }, 0, 3, 0, 1023,
     descOf opKeyDestroy [255, 3, 0], record 0 0, .keyDestroy 0 3 0 .plain, true, true, .plain,
     .inl ⟨rfl, rfl, by decide +kernel, by decide +kernel, by decide +kernel⟩, ?_, ?_, ?_, keyed_valid _ _ _, ?_,
     .inl (by decide +kernel)⟩ <;>
  decide +kernel

/-- The ROM runs, with the boot pointers given. -/
def rom (p : BootPtr) : State := { State.reset with boot := { State.reset.boot with ptrs := AB.blank.write p } }

theorem wit_TheRomAndTheFirmwareStart_1 : ∃ (s : State) (dt : Nat), s.pwr.inReset = false ∧ s.pwr.state = .boot ∧
    s.boot.loaded = false ∧ (s.elapse dt).pfailHighFor (10 * tickMs) = false :=
  ⟨rom ⟨false, false, 0, false⟩, 0, by decide +kernel⟩

theorem wit_TheRomAndTheFirmwareStart_2 : ∃ (s : State) (dt : Nat), s.pwr.inReset = false ∧ s.pwr.state = .boot ∧
    s.boot.loaded = false ∧ (s.elapse dt).pfailHighFor (10 * tickMs) = true ∧ s.nvHeld = false ∧
    s.readOnly Region.boot = false ∧ s.nvRoom Region.boot 0 3 ∧ s.boot.ptr.trial = false := by
  refine ⟨rom ⟨false, false, 0, false⟩, 10 * tickMs, ?_, ?_, ?_, ?_, ?_, ?_, (by decide +kernel : _ < _), ?_⟩ <;>
  decide +kernel

theorem wit_TheRomAndTheFirmwareStart_5 : ∃ (s : State) (dt : Nat), s.pwr.inReset = false ∧ s.pwr.state = .boot ∧
    s.boot.loaded = false ∧ (s.elapse dt).pfailHighFor (10 * tickMs) = true ∧ s.nvHeld = false ∧
    s.readOnly Region.boot = false ∧ s.nvRoom Region.boot 0 3 ∧ s.boot.ptr.trial = true := by
  refine ⟨rom ⟨true, true, 1, true⟩, 10 * tickMs, ?_, ?_, ?_, ?_, ?_, ?_, (by decide +kernel : _ < _), ?_⟩ <;>
  decide +kernel

theorem wit_TheRomAndTheFirmwareStart_3 : ∃ (s : State) (dt : Nat), s.pwr.inReset = false ∧ s.pwr.state = .boot ∧
    s.boot.loaded = false ∧ (s.elapse dt).pfailHighFor (10 * tickMs) = true ∧ s.nvHeld = false ∧
    s.readOnly Region.boot = false ∧ s.nvRoom Region.boot 0 3 ∧ s.boot.ptr.trial = true ∧ s.boot.ptr.trialLeft ≠ 0 := by
  refine ⟨rom ⟨true, true, 1, true⟩, 10 * tickMs, ?_, ?_, ?_, ?_, ?_, ?_, (by decide +kernel : _ < _), ?_⟩ <;>
  decide +kernel

theorem wit_TheRomAndTheFirmwareStart_4 : ∃ (s : State) (dt : Nat), s.pwr.inReset = false ∧ s.pwr.state = .boot ∧
    s.boot.loaded = false ∧ (s.elapse dt).pfailHighFor (10 * tickMs) = true ∧ s.nvHeld = false ∧
    s.readOnly Region.boot = false ∧ s.nvRoom Region.boot 0 3 ∧ s.boot.ptr.trial = true ∧ s.boot.ptr.trialLeft = 0 := by
  refine ⟨rom ⟨true, true, 0, true⟩, 10 * tickMs, ?_, ?_, ?_, ?_, ?_, ?_, (by decide +kernel : _ < _), ?_⟩ <;>
  decide +kernel

theorem wit_TheRomAndTheFirmwareStart_6 : ∃ (s : State), s.tidy ∧ s.pwr.inReset = false ∧ s.pwr.state = .boot ∧
    s.boot.loaded = true ∧ (let n := s.boot.migration.length + 1; (s.boot.ptr.migrating = true → s.nvHeld = false ∧
    s.readOnly Region.boot = false ∧ s.nvRoom Region.boot 0 n ∧ ∀ e ∈ s.boot.migration, s.nvRoom Region.key (e.1 / 128) n)) :=
  ⟨{ State.reset with boot := { State.reset.boot with loaded := true } }, tidy_of_check (by decide +kernel),
   by decide +kernel, by decide +kernel, by decide +kernel, (fun h => absurd h (by decide +kernel))⟩

/-- In RECOVERY, with the module of FAB_0 present and its link `UP`. -/
def recovery (u : Option Update) : State :=
  { State.reset with
    pwr := { Pwr.reset with state := .recovery }
    fab := { State.reset.fab with ports := [(0, { FabPort.reset with modPresent := true, blockLock := true, link := .up })] }
    boot := { State.reset.boot with update := u } }

/-- An update whose header promises 256 bytes of payload. -/
def update (n : Nat) : Update := ⟨List.replicate 17 0 ++ [1] ++ List.replicate 1006 0, false, n⟩

theorem wit_TheRomAndTheFirmwareStart_7 : ∃ (s : State) (dt : Nat), s.tidy ∧ s.pwr.inReset = false ∧ s.pwr.state = .recovery ∧
    s.has U.fab = true ∧ s.linkUp 0 = true ∧ (s.elapse dt).due T.recoveryReq (100 * tickMs) = true ∧
    (s.egress 0 FC.bulk).length < queueDepth FC.bulk :=
  ⟨recovery none, tickS, tidy_of_check (by decide +kernel), by decide +kernel⟩

theorem wit_TheRomAndTheFirmwareStart_8 : ∃ (s : State) (frame : List Byte) (b : List Byte), s.tidy ∧ s.memoriesCanonical ∧
    s.pwr.inReset = false ∧ s.pwr.state = .recovery ∧ s.portOn 0 = true ∧ frameOk frame = true ∧ s.linkUp 0 = true ∧
    frClass frame = FC.bulk ∧ frType frame = 1 ∧ byteAt (frBody frame) 0 = 2 ∧ 6 ≤ (frBody frame).length ∧
    fieldLE (frBody frame) 1 4 = s.nextWanted ∧ (frBody frame).drop 5 = b ∧
    (let h := ((s.boot.update.map (·.header)).getD []) ++ b; s.updateNow = none ∧ h.length < 1024) := by
  refine ⟨recovery none, frame 0 FC.bulk 1 [2, 0, 0, 0, 0, 7], [7], tidy_of_check (by decide +kernel),
     canonical_of_check (by decide +kernel), ?_, ?_, ?_, ?_, ?_, ?_, ?_, ?_, ?_, ?_, ?_, ?_⟩ <;>
  decide +kernel

theorem wit_TheRomAndTheFirmwareStart_9 : ∃ (s : State) (frame : List Byte) (b : List Byte), s.tidy ∧ s.memoriesCanonical ∧
    s.pwr.inReset = false ∧ s.pwr.state = .recovery ∧ s.portOn 0 = true ∧ frameOk frame = true ∧ s.linkUp 0 = true ∧
    frClass frame = FC.bulk ∧ frType frame = 1 ∧ byteAt (frBody frame) 0 = 2 ∧ 6 ≤ (frBody frame).length ∧
    fieldLE (frBody frame) 1 4 = s.nextWanted ∧ (frBody frame).drop 5 = b ∧ ∃ u, s.updateNow = some u ∧
    u.written + b.length < hdPayloadLen u.header := by
  refine ⟨recovery (some (update 0)), frame 0 FC.bulk 1 [2, 0, 4, 0, 0, 7], [7], tidy_of_check (by decide +kernel),
     canonical_of_check (by decide +kernel), ?_, ?_, ?_, ?_, ?_, ?_, ?_, ?_, ?_, ?_, ?_, update 0, ?_⟩ <;>
  decide +kernel

theorem wit_UpdatesAndTheNvDieAct_1 : ∃ (s : State) (ring : Nat) (index : Nat) (d : Desc), s.memoriesCanonical ∧
    s.offers ring index opBootBegin d ∧ s.nvHeld = false ∧ d.len = 1024 ∧ (s.boot.ptr.trial = false ∨ s.pwr.state = .recovery) :=
  ⟨offer (descOf opBootBegin [] 1024) (recovery none), 3, 0, descOf opBootBegin [] 1024,
   canonical_of_check (by decide +kernel), ⟨by decide +kernel, by decide +kernel, by decide +kernel⟩, by decide +kernel⟩

theorem wit_UpdatesAndTheNvDieAct_2 : ∃ (s : State) (ring : Nat) (index : Nat) (d : Desc) (u : Update), s.memoriesCanonical ∧
    s.offers ring index opBootWrite d ∧ s.nvHeld = false ∧ d.len ≠ 0 ∧ s.updateNow = some u ∧ d.operand 0 4 = u.written ∧
    u.written + d.len ≤ hdPayloadLen u.header :=
  ⟨offer (descOf opBootWrite [255] 1) (recovery (some (update 255))), 3, 0, descOf opBootWrite [255] 1, update 255,
   canonical_of_check (by decide +kernel), ⟨by decide +kernel, by decide +kernel, by decide +kernel⟩, by decide +kernel⟩

theorem wit_UpdatesAndTheNvDieAct_4 : ∃ (s : State) (ring : Nat) (index : Nat) (d : Desc) (u : Update),
    s.offers ring index opBootFinish d ∧ s.updateNow = some u ∧ u.written = hdPayloadLen u.header ∧ s.nvHeld = false ∧
    s.readOnly Region.boot = false ∧ s.nvRoom Region.boot 0 2 ∧ s.nvRoom Region.boot 3 2 := by
  refine ⟨offer (descOf opBootFinish) (recovery (some (update 256))), 3, 0, descOf opBootFinish, update 256, ⟨by decide +kernel,
     by decide +kernel, by decide +kernel⟩, ?_, ?_, ?_, ?_, (by decide +kernel : _ < _), (by decide +kernel : _ < _)⟩ <;>
  decide +kernel

theorem wit_UpdatesAndTheNvDieAct_5 : ∃ (s : State) (ring : Nat) (index : Nat) (d : Desc), s.offers ring index opBootConfirm d ∧
    s.onTrial = true ∧ s.nvHeld = false ∧ s.readOnly Region.boot = false ∧ (s.key.worn = false ∨ s.boot.migration = []) ∧
    (∀ e ∈ s.boot.migration, s.nvRoom Region.key (e.1 / 128) (s.boot.migration.length + 3)) ∧
    s.nvRoom Region.boot 0 (s.boot.migration.length + 3) := by
  refine ⟨offer (descOf opBootConfirm [1]) (rom ⟨true, true, 1, true⟩), 3, 0, descOf opBootConfirm [1], ⟨by decide +kernel,
     by decide +kernel, by decide +kernel⟩, ?_, ?_, ?_, ?_, (fun e he => nomatch he), (by decide +kernel : _ < _)⟩ <;>
  decide +kernel

theorem wit_UpdatesAndTheNvDieAct_6 : ∃ (s : State) (ring : Nat) (index : Nat) (d : Desc), s.tidy ∧
    s.offers ring index opBootExtend d ∧ d.len = 48 ∧ s.nvHeld = false ∧ s.nvRoom Region.boot 2 1 :=
  ⟨offer (descOf opBootExtend [] 48), 3, 0, descOf opBootExtend [] 48, tidy_of_check (by decide +kernel), ⟨by decide +kernel,
   by decide +kernel, by decide +kernel⟩, by decide +kernel, by decide +kernel, (by decide +kernel : _ < _)⟩

theorem wit_UpdatesAndTheNvDieAct_7 : ∃ (s : State) (ring : Nat) (index : Nat) (d : Desc),
    s.offers ring index opBootPeerServe d ∧ s.nvHeld = false ∧ tfind s.boot.peers (d.operand 0 1) = none :=
  ⟨offer (descOf opBootPeerServe), 3, 0, descOf opBootPeerServe, ⟨by decide +kernel, by decide +kernel, by decide +kernel⟩,
   by decide +kernel⟩

theorem wit_UpdatesAndTheNvDieAct_8 : ∃ (s : State) (ring : Nat) (index : Nat) (d : Desc), s.offers ring index opBootLogRead d ∧
    s.nvHeld = false ∧ 64 ≤ d.len ∧ d.operand 0 2 < s.boot.log.length :=
  ⟨offer (descOf opBootLogRead [0, 0] 64) ({ live with boot := { live.boot with log := [(7, 0, 0)] } }), 3, 0,
   descOf opBootLogRead [0, 0] 64, ⟨by decide +kernel, by decide +kernel, by decide +kernel⟩, by decide +kernel⟩

theorem wit_UpdatesAndTheNvDieAct_9 : ∃ (s : State) (dt : Nat) (ring : Nat) (index : Nat) (d : Desc) (b : StoredBlock),
    s.offers ring index opNvmCfgGet d ∧ s.nvm.fault = false ∧ s.nvHeld = false ∧
    (s.elapse dt).settledStore[d.operand 0 1]? = some b ∧ b.bytes.length ≤ d.len ∧ b.bytes ≠ [] :=
  ⟨offer (descOf opNvmCfgGet [0] 1) { live with nvm := { live.nvm with store := [⟨1, [7]⟩] } }, 0, 3, 0,
   descOf opNvmCfgGet [0] 1, ⟨1, [7]⟩, ⟨by decide +kernel, by decide +kernel, by decide +kernel⟩, by decide +kernel⟩

theorem wit_UpdatesAndTheNvDieAct_10 : ∃ (s : State) (ring : Nat) (index : Nat) (d : Desc), s.memoriesCanonical ∧
    s.offers ring index opNvmUser d ∧ s.nvm.fault = false ∧ s.nvHeld = false ∧ 1 ≤ d.len ∧ d.len ≤ 1048576 ∧
    d.operand 1 4 + d.len ≤ s.userSize ∧ (let o := d.operand 1 4; d.operand 0 1 = 0 ∧ (∀ k, o / 65536 ≤ k →
    k ≤ (o + d.len - 1) / 65536 → s.userWorn k = false ∧ s.nvRoom Region.user k 17)) := by
  refine ⟨offer (descOf opNvmUser [0, 0, 0, 0, 0] 1), 3, 0, descOf opNvmUser [0, 0, 0, 0, 0] 1,
     canonical_of_check (by decide +kernel), ⟨by decide +kernel, by decide +kernel, by decide +kernel⟩, ?_, ?_, ?_, ?_, ?_,
     ?_, (fun k _ _ => ⟨rfl, (by decide : 0 + 17 < 1000000)⟩)⟩ <;>
  decide +kernel

theorem wit_UpdatesAndTheNvDieAct_11 : ∃ (s : State) (ring : Nat) (index : Nat) (d : Desc), s.memoriesCanonical ∧
    s.offers ring index opNvmUser d ∧ s.nvm.fault = false ∧ s.nvHeld = false ∧ 1 ≤ d.len ∧ d.len ≤ 1048576 ∧
    d.operand 1 4 + d.len ≤ s.userSize ∧ (let o := d.operand 1 4; d.operand 0 1 = 1 ∧ (∀ k, o / 65536 ≤ k →
    k ≤ (o + d.len - 1) / 65536 → s.userWorn k = false)) := by
  refine ⟨offer (descOf opNvmUser [1, 0, 0, 0, 0] 1048576), 3, 0, descOf opNvmUser [1, 0, 0, 0, 0] 1048576,
     canonical_of_check (by decide +kernel), ⟨by decide +kernel, by decide +kernel, by decide +kernel⟩, ?_, ?_, ?_, ?_, ?_,
     ?_, (fun k _ _ => rfl)⟩ <;>
  decide +kernel

theorem wit_StepRunsTheFrontCommand_2 : ∃ (s : State), s.pending = [] :=
  ⟨live, by decide +kernel⟩

theorem wit_MemoriesStayCanonical_1 : ∃ (s : State), s.memoriesCanonical :=
  ⟨trained, canonical_of_check (by decide +kernel)⟩

theorem wit_TablesStayTidy_1 : ∃ (s : State), s.tidy :=
  ⟨threads .ready 1, tidy_of_check (by decide +kernel)⟩

theorem wit_ThreadsStayScheduled_1 : ∃ (s : State), s.tidy ∧ s.scheduled :=
  ⟨threads .ready 1, tidy_of_check (by decide +kernel), scheduled_of_check (by decide +kernel)⟩

theorem wit_TheRomAndTheFirmwareStart_6_1 : ∃ (s : State), s.tidy ∧ s.pwr.inReset = false ∧ s.pwr.state = .boot ∧
    s.boot.loaded = true ∧ (let n := s.boot.migration.length + 1; (s.boot.ptr.migrating = true → s.nvHeld = false ∧
    s.readOnly Region.boot = false ∧ s.nvRoom Region.boot 0 n ∧ ∀ e ∈ s.boot.migration, s.nvRoom Region.key (e.1 / 128) n) ∧
    s.boot.ptr.migrating = true) := by
  refine ⟨{ State.reset with boot := { State.reset.boot with loaded := true, ptrs := AB.blank.write ⟨false, false, 0, true⟩ }, cal := { Cal.lost with tamperCtrl := 0xAA } },
     tidy_of_check (by decide +kernel), ?_, ?_, ?_,
     (fun _ => ⟨by decide +kernel, by decide +kernel, (by decide +kernel : _ < _), fun e he => nomatch he⟩), ?_⟩ <;>
  decide +kernel

theorem wit_TheRomAndTheFirmwareStart_6_3 : ∃ (s : State), s.tidy ∧ s.pwr.inReset = false ∧ s.pwr.state = .boot ∧
    s.boot.loaded = true ∧ (let n := s.boot.migration.length + 1; (s.boot.ptr.migrating = true → s.nvHeld = false ∧
    s.readOnly Region.boot = false ∧ s.nvRoom Region.boot 0 n ∧ ∀ e ∈ s.boot.migration, s.nvRoom Region.key (e.1 / 128) n) ∧
    ∃ e, s.cal.epoch = some e) := by
  refine ⟨{ State.reset with boot := { State.reset.boot with loaded := true, ptrs := AB.blank.write ⟨false, false, 0, true⟩ }, cal := { Cal.lost with tamperCtrl := 0xAA, epoch := some (1, 2) } },
     tidy_of_check (by decide +kernel), ?_, ?_, ?_,
     (fun _ => ⟨by decide +kernel, by decide +kernel, (by decide +kernel : _ < _), fun e he => nomatch he⟩), (1, 2), ?_⟩ <;>
  decide +kernel

theorem wit_TheRomAndTheFirmwareStart_6_6 : ∃ (s : State) (lv : BitVec 4), s.tidy ∧ s.pwr.inReset = false ∧
    s.pwr.state = .boot ∧ s.boot.loaded = true ∧ (let u := { s with cal := { s.cal with inputs := lv } };
    (let active := (List.range 4).any u.tamperActive; (let n := s.boot.migration.length + 1; (s.boot.ptr.migrating = true →
    s.nvHeld = false ∧ s.readOnly Region.boot = false ∧ s.nvRoom Region.boot 0 n ∧ ∀ e ∈ s.boot.migration,
    s.nvRoom Region.key (e.1 / 128) n) ∧ s.cal.epoch = none ∧ active = true))) := by
  refine ⟨{ State.reset with boot := { State.reset.boot with loaded := true, ptrs := AB.blank.write ⟨false, false, 0, true⟩ }, cal := { Cal.lost with tamperCtrl := 0xAA } },
     1, tidy_of_check (by decide +kernel), ?_, ?_, ?_,
     (fun _ => ⟨by decide +kernel, by decide +kernel, (by decide +kernel : _ < _), fun e he => nomatch he⟩), ?_⟩ <;>
  decide +kernel

theorem wit_TheRomAndTheFirmwareStart_6_8 : ∃ (s : State) (lv : BitVec 4), s.tidy ∧ s.pwr.inReset = false ∧
    s.pwr.state = .boot ∧ s.boot.loaded = true ∧ (let u := { s with cal := { s.cal with inputs := lv } };
    (let active := (List.range 4).any u.tamperActive; (let n := s.boot.migration.length + 1; (s.boot.ptr.migrating = true →
    s.nvHeld = false ∧ s.readOnly Region.boot = false ∧ s.nvRoom Region.boot 0 n ∧ ∀ e ∈ s.boot.migration,
    s.nvRoom Region.key (e.1 / 128) n) ∧ s.cal.epoch = none ∧ active = false))) := by
  refine ⟨{ State.reset with boot := { State.reset.boot with loaded := true, ptrs := AB.blank.write ⟨false, false, 0, true⟩ }, cal := { Cal.lost with tamperCtrl := 0xAA } },
     0, tidy_of_check (by decide +kernel), ?_, ?_, ?_,
     (fun _ => ⟨by decide +kernel, by decide +kernel, (by decide +kernel : _ < _), fun e he => nomatch he⟩), ?_⟩ <;>
  decide +kernel

theorem wit_UpdatesAndTheNvDieAct_4_1 : ∃ (s : State) (ring : Nat) (index : Nat) (d : Desc) (u : Update),
    s.offers ring index opBootFinish d ∧ s.updateNow = some u ∧ u.written = hdPayloadLen u.header ∧ s.nvHeld = false ∧
    s.readOnly Region.boot = false ∧ s.nvRoom Region.boot 0 2 ∧ s.nvRoom Region.boot 3 2 ∧ s.pwr.state = .recovery := by
  refine ⟨offer (descOf opBootFinish) (recovery (some (update 256))), 3, 0, descOf opBootFinish, update 256, ⟨by decide +kernel,
     by decide +kernel, by decide +kernel⟩, ?_, ?_, ?_, ?_, (by decide +kernel : _ < _), (by decide +kernel : _ < _), ?_⟩ <;>
  decide +kernel

theorem wit_UpdatesAndTheNvDieAct_3 : ∃ (s : State) (ring : Nat) (index : Nat) (d : Desc) (u : Update),
    s.offers ring index opBootFinish d ∧ s.updateNow = some u ∧ u.written = hdPayloadLen u.header ∧ s.nvHeld = false ∧
    s.readOnly Region.boot = false ∧ s.nvRoom Region.boot 0 2 ∧ s.nvRoom Region.boot 3 2 := by
  refine ⟨offer (descOf opBootFinish) (recovery (some (update 256))), 3, 0, descOf opBootFinish, update 256, ⟨by decide +kernel,
     by decide +kernel, by decide +kernel⟩, ?_, ?_, ?_, ?_, (by decide +kernel : _ < _), (by decide +kernel : _ < _)⟩ <;>
  decide +kernel

theorem wit_UpdatesAndTheNvDieAct_12 : ∃ (s : State) (dt : Nat) (ring : Nat) (index : Nat) (payload : List Byte) (run : NvRun) (d : Desc) (c : Instr),
    ((c = .bootUpdateBegin dt ring index payload ∧ s.offers ring index opBootBegin d) ∨
    (c = .bootUpdateWrite dt ring index payload ∧ s.offers ring index opBootWrite d) ∨
    (c = .bootUpdateFinish dt ring index run ∧ s.offers ring index opBootFinish d) ∨ (c = .bootConfirm dt ring index run ∧
    s.offers ring index opBootConfirm d) ∨ (c = .bootExtend ⟨dt, run⟩ ring index payload ∧ s.offers ring index opBootExtend d) ∨
    (c = .bootPeerServe dt ring index ∧ s.offers ring index opBootPeerServe d) ∨ (c = .bootLogRead dt ring index ∧
    s.offers ring index opBootLogRead d)) ∧ s.nvHeld = true :=
  ⟨{ offer (descOf opBootPeerServe) with pwr := { live.pwr with nvStopped := true } }, 0, 3, 0, [], .plain,
   descOf opBootPeerServe, Instr.bootPeerServe 0 3 0,
   .inr (.inr (.inr (.inr (.inr (.inl ⟨rfl, by decide +kernel, by decide +kernel, by decide +kernel⟩))))), by decide +kernel⟩

theorem wit_StepRunsTheFrontCommand_3 : ∃ (s : State), s.pending = [] ∧ (s.coresRun = false ∨ s.dis.cores = []) :=
  ⟨live, by decide +kernel⟩

theorem wit_SourceChangesFollowRank_3_1 : ∃ (s : State) (dt : Nat) (port : Nat) (c : Instr), s.tidy ∧
    (s.elapse dt).announceLate port = true ∧ (c = .ptpAnnounceTimeout dt port ∨ (c = .tbSourceLost dt 1 ∧
    s.tb.slavePort = some port)) ∧ s.tb.slavePort.isSome = true :=
  ⟨{ heard with tb := { heard.tb with slavePort := some 5 } }, 0, 5, .tbSourceLost 0 1, tidy_of_check (by decide +kernel),
   by decide +kernel, .inr ⟨rfl, by decide +kernel⟩, by decide +kernel⟩

theorem wit_SourceChangesFollowRank_3_3 : ∃ (s : State) (dt : Nat) (port : Nat) (c : Instr), s.tidy ∧
    (s.elapse dt).announceLate port = true ∧ (c = .ptpAnnounceTimeout dt port ∨ (c = .tbSourceLost dt 1 ∧
    s.tb.slavePort = some port)) ∧ s.tb.slavePort.isSome = true ∧ s.tb.source = 2 ∧ (s.tb.quality = .locked ∨
    s.tb.quality = .relocking) :=
  ⟨{ heard with tb := { heard.tb with slavePort := some 5, source := 2, quality := .relocking } }, 0, 5, .tbSourceLost 0 1,
   tidy_of_check (by decide +kernel), by decide +kernel, .inr ⟨rfl, by decide +kernel⟩, by decide +kernel,
   by decide +kernel, .inr (by decide +kernel)⟩

theorem wit_PpsOutAndTheErrorBound_1_1 : ∃ (s : State) (dt : Nat), s.clockRuns = true ∧ s.ppsOn = true ∧
    s.tb.ppsNext ≤ (s.elapse dt).ppsSecond ∧ s.tb.quality = .locked :=
  ⟨pulsing, 0, by decide +kernel⟩

theorem wit_PowerFailStopsAndFlushes_1_1 : ∃ (s : State) (dt : Nat), s.pwr.pfailUntil ≤ s.clk.counter + dt ∧
    s.pwr.inReset = false ∧ s.crn.fault = false :=
  ⟨live, 0, by decide +kernel⟩

theorem wit_EventsBecomeRecordsAndAreFlushed_1_3 : ∃ (s : State) (dt : Nat) (i : Nat) (e : QEvent) (rest : List QEvent),
    s.crn.fault = false ∧ s.pwr.inReset = false ∧ (s.elapse dt).settleFlush.crn.queue = e :: rest ∧ i < 819 ∧
    tfind (s.elapse dt).settleFlush.crn.buf i = none ∧ s.crn.flushing = false :=
  ⟨{ live with crn := { live.crn with queue := [⟨8, 3, 0xFF, [], false, 0, 0x80, [1, 1, 1, 0, 0, 0, 0, 0], 0⟩, ⟨384, 2, 0xFF, [], false, 0, 0x80, List.replicate 8 0, 0⟩] } },
   0, 818, ⟨8, 3, 0xFF, [], false, 0, 0x80, [1, 1, 1, 0, 0, 0, 0, 0], 0⟩, [⟨384, 2, 0xFF, [], false, 0, 0x80,
   List.replicate 8 0, 0⟩], by decide +kernel⟩

theorem wit_RecordsAreReadAndErased_1_1 : ∃ (s : State) (dt : Nat) (ring : Nat) (index : Nat) (d : Desc) (r : Record) (l : List Record),
    s.offers ring index opCrnRead d ∧ s.crn.fault = false ∧ d.operand 0 1 ≤ 1 ∧ (let u := (s.elapse dt).settleFlush;
    sortBy (fun r => r.seq) (((if d.operand 0 1 = 0 then u.crn.buf else u.nvLog).map fun e => e.2).filter fun r => decide (d.operand 4 4 ≤ r.seq) && decide (d.operand 1 1 ≤ r.severity)) = l ++ [r] ∧
    ((l ++ [r]).map fun r => r.bytes.length).sum ≤ d.len ∧ d.len ≠ 0 ∧ r.bytes ≠ [] ∧ s.crn.flushing = false) :=
  ⟨offer (descOf opCrnRead [0, 0] 64) ({ live with crn := { live.crn with buf := [(0, ⟨4, 1, [1, 2], false, 0⟩), (1, ⟨5, 1, [3, 4], false, 0⟩)] } }),
   0, 3, 0, descOf opCrnRead [0, 0] 64, ⟨5, 1, [3, 4], false, 0⟩, [⟨4, 1, [1, 2], false, 0⟩], ⟨by decide +kernel,
   by decide +kernel, by decide +kernel⟩, by decide +kernel, by decide +kernel, by decide +kernel⟩

theorem wit_LinksAreHeldAndFramesLeave_1_6 : ∃ (s : State) (dt : Nat), (s.elapse dt).due T.hello (10 * tickMs) = true ∧ ∃ k,
    s.fabTxKey = some k ∧ s.unitOn U.stp = true ∧ s.has U.fab = true ∧ s.fab.held = [] :=
  ⟨keyed 0 0 (withAct F.STP_KEYS_FAB_TX 0 1023 fabric), 10 * tickMs, by decide +kernel, kdf [] false [] [] (typeSize 0),
   (by rw [State.fabTxKey, show State.act _ F.STP_KEYS_FAB_TX = 1023 by decide +kernel]; exact keyed_ready _ _ _ rfl),
   by decide +kernel⟩

theorem wit_RecordsAreMadeRetiredAndShown_4_2 : ∃ (s : State) (dt : Nat) (ring : Nat) (index : Nat) (i : Nat) (d : Desc) (k : KeyCopy) (c : Instr) (destroy : Bool) (run : NvRun),
    ((c = .keyDestroy dt ring index run ∧ destroy = true ∧ s.offers ring index opKeyDestroy d) ∨
    (c = .keyInvalidate dt ring index run ∧ destroy = false ∧ s.offers ring index opKeyInvalidate d)) ∧ d.operand 0 2 = i ∧
    i < 1024 ∧ s.updateStop = none ∧ s.validRec i = some k ∧ (s.inService i = false ∨ bit (d.operand 2 1) 0 = true) ∧
    s.nvRoom Region.key (i / 128) 1 ∧ s.nvHeld = false ∧ run = .plain ∧ s.pinned.contains i = true := by
  refine ⟨keyed 0 0 (offer (descOf opKeyDestroy [255, 3, 1]) (withAct F.HOP_KEYS_JOIN_ROOT 0 1023 live)), 0, 3, 0, 1023,
     descOf opKeyDestroy [255, 3, 1], record 0 0, .keyDestroy 0 3 0 .plain, true, .plain,
     .inl ⟨rfl, rfl, by decide +kernel, by decide +kernel, by decide +kernel⟩, ?_, ?_, ?_, keyed_valid _ _ _, ?_,
     (by decide +kernel : _ < _), ?_⟩ <;>
  decide +kernel

theorem wit_RecordsAreMadeRetiredAndShown_4_3 : ∃ (s : State) (dt : Nat) (ring : Nat) (index : Nat) (i : Nat) (d : Desc) (k : KeyCopy) (c : Instr) (destroy : Bool) (run : NvRun),
    ((c = .keyDestroy dt ring index run ∧ destroy = true ∧ s.offers ring index opKeyDestroy d) ∨
    (c = .keyInvalidate dt ring index run ∧ destroy = false ∧ s.offers ring index opKeyInvalidate d)) ∧ d.operand 0 2 = i ∧
    i < 1024 ∧ s.updateStop = none ∧ s.validRec i = some k ∧ (s.inService i = false ∨ bit (d.operand 2 1) 0 = true) ∧
    s.nvRoom Region.key (i / 128) 1 ∧ s.nvHeld = false ∧ run = .plain ∧ s.pinned.contains (s.act F.STP_KEYS_FAB_TX) = true ∧
    s.descends (s.act F.STP_KEYS_FAB_TX) i = true := by
  refine ⟨keyed 0 0 (offer (descOf opKeyDestroy [255, 3, 1]) (withAct F.STP_KEYS_FAB_TX 0 1023 live)), 0, 3, 0, 1023,
     descOf opKeyDestroy [255, 3, 1], record 0 0, .keyDestroy 0 3 0 .plain, true, .plain,
     .inl ⟨rfl, rfl, by decide +kernel, by decide +kernel, by decide +kernel⟩, ?_, ?_, ?_, keyed_valid _ _ _, ?_,
     (by decide +kernel : _ < _), ?_⟩ <;>
  decide +kernel

theorem wit_CellsAreCountedAndSynchronised_1_1 : ∃ (s : State) (ring : Nat) (index : Nat) (payload : List Byte) (d : Desc) (f : Nat) (c : Cell),
    s.offers ring index opFldSync d ∧ s.memoriesCanonical ∧ s.tidy ∧ s.calm ∧ s.fldStop true = none ∧ s.dramHeld = false ∧
    d.len = 18 ∧ fieldLE (padTo 18 payload) 8 2 = 1 ∧ s.fieldById (fieldLE (padTo 18 payload) 0 4) = some f ∧
    deltaCells f (padTo 18 payload) = [c] ∧ (let wa := s.layerWordAt c.field (c.col / 256) (c.row / 256) 0;
    (let clear := fun (x : Nat) => ∀ e ∈ s.fld.cache, ∀ l ∈ e.2, l.dirty = true → x < l.base ∨ l.base + 1024 ≤ x; (∀ x, wa ≤ x →
    x < wa + 8 → clear x) ∧ s.offImages wa 8 ∧ tfind s.sec.claims c.key = none)) := by
  refine ⟨offer (descOf opFldSync [] 18) field, 3, 0, [9, 0, 0, 0, 1, 0, 0, 0, 1, 0, 0, 0, 0, 0, 255, 255, 0, 0],
     descOf opFldSync [] 18, 15, ⟨15, 255, 255⟩, ⟨by decide +kernel, by decide +kernel, by decide +kernel⟩,
     canonical_of_check (by decide +kernel), tidy_of_check (by decide +kernel), (by unfold State.calm; decide +kernel), ?_,
     ?_, ?_, ?_, ?_, ?_, (fun _ _ _ _ h => nomatch h), (by unfold State.offImages; decide +kernel), ?_⟩ <;>
  decide +kernel


/-! ### One ill-formed term for each check of WellFormed -/

theorem test_wf_refuses_epoch_past_12_ms : (Instr.secEpoch 0 12001).wf = false := by decide
theorem test_wf_refuses_pps_phase : (Instr.ppsInEdge 0 ⟨8, false⟩).wf = false := by decide
theorem test_wf_refuses_qualified_source : (Instr.tbSourceQualify 0 4).wf = false := by decide
theorem test_wf_refuses_lost_source : (Instr.tbSourceLost 0 4).wf = false := by decide
theorem test_wf_refuses_armed_alarm : (Instr.tbAlarmArm 0 32 0).wf = false := by decide
theorem test_wf_refuses_fired_alarm : (Instr.tbAlarmFire 0 32).wf = false := by decide
theorem test_wf_refuses_ptp_port (f : List Byte) : (Instr.ptpMessageReceived 0 6 f 0).wf = false := by rfl
theorem test_wf_refuses_ptp_phase (f : List Byte) : (Instr.ptpMessageReceived 0 0 f 8).wf = false := by rfl
theorem test_wf_refuses_ptp_send_port : (Instr.ptpMessageSend 0 6 0).wf = false := by decide
theorem test_wf_refuses_ptp_send_kind : (Instr.ptpMessageSend 0 0 3).wf = false := by decide
theorem test_wf_refuses_announce_port : (Instr.ptpAnnounceTimeout 0 6).wf = false := by decide
theorem test_wf_refuses_late_decision : (Instr.carRequestDecide 0 201).wf = false := by decide
theorem test_wf_refuses_short_doorbell : (Instr.doorbellRead 0 []).wf = false := by decide
theorem test_wf_refuses_short_descriptor : (Instr.descriptorTake 0 1 []).wf = false := by decide
theorem test_wf_refuses_dma_phase : (Instr.pcieDmaError 0 6 1 0 0).wf = false := by decide
theorem test_wf_refuses_dma_kind_zero : (Instr.pcieDmaError 0 0 0 0 0).wf = false := by decide
theorem test_wf_refuses_dma_kind_five : (Instr.pcieDmaError 0 0 5 0 0).wf = false := by decide
theorem test_wf_refuses_dma_ring : (Instr.pcieDmaError 0 0 1 64 0).wf = false := by decide
theorem test_wf_refuses_scrubbed_word : (Instr.memScrub 0 ⟨[⟨65536, none, none⟩], []⟩).wf = false := by decide
theorem test_wf_refuses_link_speed_zero : (Instr.pcieLinkUp ⟨0, 2, 0⟩ 0 1).wf = false := by decide
theorem test_wf_refuses_link_speed_five : (Instr.pcieLinkUp ⟨0, 2, 0⟩ 5 1).wf = false := by decide
theorem test_wf_refuses_link_width : (Instr.pcieLinkUp ⟨0, 2, 0⟩ 1 3).wf = false := by decide
theorem test_wf_refuses_read_request : (Instr.pcieLinkUp ⟨0, 6, 0⟩ 1 1).wf = false := by decide
theorem test_wf_refuses_completion_timeout : (Instr.pcieLinkUp ⟨0, 2, 3⟩ 1 1).wf = false := by decide

/-! ### Worked examples of the manual -/

/-- Local time set to a compact time. -/
def atTime (ns : Nat) (s : State) : State := { s with clk := { s.clk with t48 := ns * 2 ^ 48 } }

/-- A signed field of `n` bytes. -/
def sBytes (n : Nat) (v : Int) : List Byte := leBytes n (unsigned (8 * n) v)

/-- A result's state, or the state before it. -/
def after (s : State) (r : Host.Outcome State Fault Refusal) : State :=
  match r with
  | .next t => t
  | _ => s

-- R437: TB_ALARM_3 is 0x0D60, HOP_UPLINK from machine 7 is 0x1C2A, and SEC_EPOCH_DONE is 0x0006.
theorem test_source_codes :
    sourceCode Ev.tbAlarm 3 = 0x0D60 ∧ sourceCode Ev.hopUplink 7 = 0x1C2A ∧ sourceCode Ev.secEpochDone 0 = 0x0006 := by
  decide

-- R37: a rate correction of +1.000 ppm encodes as 17,592,186.
theorem test_rate_word : rateWord (1 / 1000000) = 0x010C6F7A := by decide +kernel

-- The example of 03_timebase: 20 ns under `LOCKED` is 0x15, 387 ns in holdover is 0x26, and the seed of R103 is 0x7C.
theorem test_time_quality :
    { live with tb := { Tb.reset with quality := .locked, errEst := 20 } : State }.timeQuality = 0x15 ∧
    { live with tb := { Tb.reset with quality := .holdover, errEst := 387 } : State }.timeQuality = 0x26 ∧
    { live with tb := { Tb.reset with quality := .free, errEst := 1800092000 } : State }.timeQuality = 0x7C := by
  decide +kernel

/-- Holdover from 20 ns with RATE_UNC 10 and AGING 1, `ticks` of the counter after it began. -/
def heldOver (ticks : Nat) : State :=
  withReg F.TB_HOLDOVER_RATE_UNC 0 10 <| withReg F.TB_HOLDOVER_AGING 0 1
    { live with
      clk := { live.clk with counter := ticks }
      tb := { Tb.reset with quality := .holdover, err0 := 20 } }

-- The example of 03_timebase: 387 ns after one hour of holdover, and 418 ns after 3,898 s.
theorem test_holdover_after_an_hour :
    (after live (exec (.tbErrEstUpdate 0) (heldOver (3600 * tickS)))).tb.errEst = 387 := by decide +kernel
theorem test_holdover_after_3898_s :
    (after live (exec (.tbErrEstUpdate 0) (heldOver (3898 * tickS)))).tb.errEst = 418 := by decide +kernel

-- R241 and the example of 11_stop: a beacon of 26 bytes takes 88 µs wide, 1,920 µs at 150 kbit/s and 5,760 µs at 50 kbit/s; a
-- stop frame of 24 bytes takes 84 µs wide and, like a pendant's, 1,813.3 µs at 150 kbit/s.
theorem test_airtimes :
    airNs false 0 0 26 = 88000 ∧ airNs true 150000 0 26 = 1920000 ∧ airNs true 50000 0 26 = 5760000 ∧
    airNs false 0 0 24 = 84000 ∧ airNs true 150000 0 24 / 100 = 18133 := by
  decide

-- The example of 09_caravan: CAR_CTRL 0x0002_93C9 stages EN 1, BIN 4, HORIZON 60, CONF_SRC 1 and COLLECT 20.
theorem test_register_write_stages_fields :
    let s := after live (exec (.registerWrite 0 0x09000 4 0x293C9) live)
    s.stg F.CAR_CTRL_EN = 1 ∧ s.stg F.CAR_CTRL_BIN = 4 ∧ s.stg F.CAR_CTRL_HORIZON = 60 ∧ s.stg F.CAR_CTRL_CONF_SRC = 1 ∧
    s.stg F.CAR_CTRL_COLLECT = 20 ∧ s.act F.CAR_CTRL_EN = live.act F.CAR_CTRL_EN := by
  decide +kernel

-- The example of 11_stop: with the latch set at `STOP` by a pendant and LATCH_COUNT 2, STP_STATUS reads 0x0002_0603; with an ARM,
-- 0x0002_0607.
theorem test_stop_status :
    { live with stp := { Stp.reset with latched := true, stop := true, source := 6, count := 2 } : State }.readStp 0xA020 = 0x20603 ∧
    { live with stp := { Stp.reset with latched := true, stop := true, source := 6, count := 2, armed := some 0 } : State }.readStp
      0xA020 = 0x20607 := by
  decide +kernel

/-- East Brackmoor as field 0 (04_field_store). -/
def brackmoor (s : State) : State :=
  withAct F.FLD_FIELD_CTRL_EN 0 1 <| withAct F.FLD_FIELD_CTRL_CELL 0 1 <|
  withAct F.FLD_FIELD_MAP_E0_MAP_E0 0 0xFFFFB1E0 <| withAct F.FLD_FIELD_MAP_N0_MAP_N0 0 0xFFF04890 <|
  withAct F.FLD_FIELD_SIZE_TILES_E 0 79 <| withAct F.FLD_FIELD_SIZE_TILES_N 0 42 s

-- The example of 04_field_store: planter 7's VRP lies in column 4,323 and row 9,428, and its cell's bytes and directory entry.
theorem test_cell_of_planter :
    (brackmoor live).cellAt 0 412350 (-87125) = some ⟨0, 4323, 9428⟩ ∧
    (brackmoor live).layerWordAt 0 16 36 0 - (brackmoor live).layerWordAt 0 0 0 0 = 0x2CB00 ∧
    cellByte 0 ⟨0, 4323, 9428⟩ = 0x3538 ∧ cellByte 1 ⟨0, 4323, 9428⟩ = 0x1A9C ∧ cellByte 2 ⟨0, 4323, 9428⟩ = 0xD4E3 := by
  decide +kernel

-- The example of 10_section: the command block of planter 7 for A = T3 + 40 ms.
theorem test_command_block :
    (cmdBlock 1780050000040000000 2 2 0 12 false (fun _ => true) fun _ p => if p = 0 then 0x1F40 else 0x96).take 16 =
      [0xA8, 0x78, 0x3F, 0x73, 0x05, 0x02, 0x00, 0x00, 0x0C, 0x00, 0xFF, 0x0F, 0x40, 0x1F, 0x96, 0x00] ∧
    (cmdBlock 1780050000040000000 2 2 0 12 false (fun _ => true) fun _ p => if p = 0 then 0x1F40 else 0x96).length = 60 := by
  decide +kernel

/-- The tracks of 09_caravan: track `i` with its STATE and machine. -/
def trackOf (i st m : Nat) : List Byte :=
  [0, 3, 2, 0, 0, 0] ++ leBytes 2 (st + 256 * m) ++ List.replicate 8 0 ++ sBytes 4 (4500 + 9000 * i) ++ sBytes 4 (-1010000) ++
    sBytes 4 (4500 + 9000 * i) ++ sBytes 4 10000

/-- The headland of 09_caravan at T2 + 9.125 ms: tender 30 holds its segment and planter 7 track 41. -/
def headland : State :=
  let s := withAct F.CAR_CTRL_EN 0 1 <| withAct F.CAR_CTRL_BIN 0 4 <| withAct F.CAR_CTRL_HORIZON 0 60 <|
    withAct F.CAR_CTRL_COLLECT 0 20 <| withAct F.CAR_CLEAR_CLEARANCE 0 1000 <| withAct F.CAR_CLEAR_MARGIN 0 100 <|
    withAct F.CAR_CLEAR_DEFER_MAX 0 30 <| withAct F.CAR_MACH_EN 7 1 <| withAct F.CAR_MACH_HALF_WIDTH 7 500 <|
    withAct F.CAR_MACH_EN 30 1 <| atTime 1780040000009125000 live
  let s := { s with
    mem := { s.mem with ready := true }
    car := { s.car with
      tasks := [(3, [1, 1, 2, 0] ++ leBytes 2 0 ++ leBytes 2 220 ++ List.replicate 8 0 ++ List.replicate 32 0xFF)]
      res := [(30, [⟨(380000, 16000), (440000, 16000), 1500, 178004000000 + 150, some (178004000000 + 2650), 0, none, false⟩])] } }
  let s := [(38, TR.done, 0), (41, TR.allotted, 7), (44, TR.allotted, 8), (45, TR.free, 0)].foldl
    (fun (s : State) t => s.dramWrite (s.trackAddr t.1) (trackOf t.1 t.2.1 t.2.2)) s
  (s.modCar 7 fun c => { c with stopped := false, track := some 41, tracks := [41] }).trackRequest 7
    ([0, 1, 0x12, 0] ++ leBytes 4 0x72A6E205 ++ leBytes 4 0x72A6E9D0 ++ [3, 1, 0xFF, 0xFF] ++ leBytes 4 373500 ++ leBytes 4 10000 ++
      leBytes 2 2400 ++ [0, 0] ++ leBytes 2 0 ++ leBytes 2 0x50)

-- The example of 09_caravan, step 2: `DEFERRED`, `CONFLICT`, TRACK 0x002D, SEGS 0, TIME 0x72A7_4D6C, OTHER 0x001E.
theorem test_tender_defers_planter :
    (after live (exec (.carRequestDecide (20 * tickMs) 0) headland)).hop.queue.map
      (fun b => (b.addr, b.body.take 4, b.body.drop 4 |>.take 3, fieldLE b.body 8 4, fieldLE b.body 12 2)) =
      [(7, [0x12, 0, 1, 1], [0x2D, 0, 0], 0x72A74D6C, 0x1E)] := by
  decide +kernel

-- The example of 07_fix: an MSM7 message over 10 satellites and 3 signals with 24 cells has 2,479 bits, 1006 has 168 and 1230
-- with both biases has 64.
theorem test_rtcm_lengths :
    let cells := ((List.range 10).map fun a => (List.range (if a < 4 then 3 else 2)).map fun g =>
      (⟨a + 1, g + 1, 0, 70, none, 0, 0, false, 0, 0⟩ : MsmCell)).flatten
    (live.msm7 1077 0 0 0 0 true cells [1, 2, 3]).length = 2479 ∧ (withAct F.FIX_CTRL_USE_1006 0 1 live).msgStation.length = 168 ∧
    (withReg F.FIX_GLO_BIAS_L1 0 5 <| withReg F.FIX_GLO_BIAS_L2 0 5 live).msg1230.length = 64 := by
  decide +kernel

-- The example of 12_host: executed at 1,780,000,000,052,000,000 ns, the completion's EXEC word is 0x8BB4_0B20.
theorem test_completion_time :
    ((after live (exec (.hstNop 0 3 0) (atTime 1780000000052000000 (offer (descOf 0x0B03))))).out.map fun o => match o with
      | .hostWrite _ b => fieldLE b 12 4
      | _ => 0).contains 0x8BB40B20 = true := by
  decide +kernel

-- The published standard of the cores (R427): addi a0, a0, -1; lui a0, 1; sw ra, 12(sp); add x3, x1, x2; amoadd.w x3, x2, (x1); mret.
theorem test_core_encodings :
    decode32 0xFFF50513 = some (.opImm .add 10 10 0xFFFFFFFF) ∧ decode32 0x00001537 = some (.lui 10 0x1000) ∧
    decode32 0x00112623 = some (.store 4 2 1 12) ∧ decode32 0x002081B3 = some (.op .add 3 1 2) ∧
    decode32 0x0020A1AF = some (.amo .add 3 1 2) ∧ decode32 0x30200073 = some .mret := by
  decide

-- The same in 16 bits: c.addi sp, -16; c.swsp ra, 12(sp); c.lwsp ra, 12(sp); ret; and the word of zeros is illegal.
theorem test_compressed_encodings :
    decode16 0x1141 = some (.opImm .add 2 2 0xFFFFFFF0) ∧ decode16 0xC606 = some (.store 4 2 1 12) ∧
    decode16 0x40B2 = some (.load 4 true 1 2 12) ∧ decode16 0x8082 = some (.jalr 0 1 0) ∧ decode16 0 = none := by
  decide

-- The published standard: a division by zero gives all ones, one of the most negative number by -1 that number, and each remainder
-- the dividend or zero.
theorem test_division_corners :
    Alu.run .div 7 0 = 0xFFFFFFFF ∧ Alu.run .rem 7 0 = 7 ∧ Alu.run .div 0x80000000 0xFFFFFFFF = 0x80000000 ∧
    Alu.run .rem 0x80000000 0xFFFFFFFF = 0 := by
  decide
end Sys2Proof.Tests
end

namespace Sys2Proof.Machine

/-! ## The queue and the fused identity (R2, R33, R301)

No effect of a command reaches the queue of commands or the fused identity. Each operation of the model has one lemma that says so, in
the order of the model; the lemmas are `simp` rules, so that an operation that only chains others needs its name alone, and one that
branches needs its branches. -/

/-- The commands that wait in `t` and its fused identity are those of `s`. -/
@[reducible, simp] def State.sameQueueId (s t : State) : Prop := t.pending = s.pending ∧ t.id = s.id

theorem State.sameQueueId.trans {s t u : State} (h : s.sameQueueId t) (k : t.sameQueueId u) : s.sameQueueId u :=
  ⟨k.1.trans h.1, k.2.trans h.2⟩

/-- The state that a match takes out of an answer, where the answer's state is known. -/
theorem State.sameQueueId.of_eq {α : Type} {s t : State} {r : State × α} {a : α} (h : s.sameQueueId r.1) (e : r = (t, a)) :
    s.sameQueueId t := by
  subst e
  exact h

theorem State.sameQueueId.ite {c : Prop} {_ : Decidable c} {s t u : State} (h : s.sameQueueId t) (k : s.sameQueueId u) :
    s.sameQueueId (if c then t else u) := by
  split
  · exact h
  · exact k

@[simp] theorem State.pending_ite {c : Prop} {_ : Decidable c} (s t : State) :
    (if c then s else t).pending = if c then s.pending else t.pending := apply_ite ..

@[simp] theorem State.id_ite {c : Prop} {_ : Decidable c} (s t : State) :
    (if c then s else t).id = if c then s.id else t.id := apply_ite ..

@[simp] theorem State.fst_ite {α : Type} {c : Prop} {_ : Decidable c} (p q : State × α) :
    (if c then p else q).1 = if c then p.1 else q.1 := apply_ite ..

@[simp] theorem State.foldl_queueId {α : Type} {f : State → α → State} (h : ∀ s x, State.sameQueueId s (f s x)) (l : List α)
    (s : State) : s.sameQueueId (l.foldl f s) := by
  induction l generalizing s with
  | nil => exact ⟨rfl, rfl⟩
  | cons x l ih => exact (h s x).trans (ih (f s x))

/-- The same for a fold that gathers something beside the state. -/
@[simp] theorem State.foldl_fst_queueId {α β : Type} {f : State × β → α → State × β}
    (h : ∀ a x, State.sameQueueId a.1 (f a x).1) (l : List α) (a : State × β) : a.1.sameQueueId (l.foldl f a).1 := by
  induction l generalizing a with
  | nil => exact ⟨rfl, rfl⟩
  | cons x l ih => exact (h a x).trans (ih (f a x))

/-- What an event may change leaves them. -/
theorem State.quiet.queueId {s t : State} (h : State.quiet s t) : s.sameQueueId t := by
  obtain ⟨d, c, m, rfl, -⟩ := State.quiet_iff.1 h
  exact ⟨rfl, rfl⟩

/-- What an answer may change leaves them. -/
theorem State.hostQuiet.queueId {s t : State} (h : State.hostQuiet s t) : s.sameQueueId t := by
  obtain ⟨g, h, o, d, c, m, rfl, -⟩ := State.hostQuiet_iff.1 h
  exact ⟨rfl, rfl⟩

/-! ### Time, registers and free values -/

@[simp] theorem State.turnLength_queueId (s : State) (us limit : Nat) : s.sameQueueId (s.turnLength us limit).2 := by
  unfold State.turnLength
  split <;> simp

@[simp] theorem State.latchPair_queueId (s : State) (lo hi : Sel) (i : Nat) : s.sameQueueId (s.latchPair lo hi i) := ⟨rfl, rfl⟩

@[simp] theorem State.modPtp_queueId (s : State) (p : Nat) (f : PtpPort → PtpPort) : s.sameQueueId (s.modPtp p f) := by
  simp [State.modPtp]

@[simp] theorem State.forgetNeighbour_queueId (s : State) (p : Nat) : s.sameQueueId (s.forgetNeighbour p) := by
  simp [State.forgetNeighbour]

@[simp] theorem State.countClamps_queueId (s : State) (n : Nat) (off : Option Nat) : s.sameQueueId (s.countClamps n off) := by
  simp [State.countClamps]

@[simp] theorem State.writeStaged_queueId (s : State) (r : RegDef) (off v : Nat) : s.sameQueueId (s.writeStaged r off v) := by
  simp [State.writeStaged]

@[simp] theorem State.writeDirect_queueId (s : State) (r : RegDef) (off v : Nat) : s.sameQueueId (s.writeDirect r off v) := by
  simp [State.writeDirect]

/-! ### Placement of threads on cores (R430 to R436) -/

@[simp] theorem State.dramErrors_queueId (s : State) (l : List Nat) : s.sameQueueId (s.dramErrors l) := by
  unfold State.dramErrors
  split <;> simp

@[simp] theorem State.dramPut_queueId (s : State) (a : Nat) (b : List Byte) : s.sameQueueId (s.dramPut a b) := by
  simp [State.dramPut]

@[simp] theorem State.dramStore_queueId (s : State) (a : Nat) (b : List Byte) : s.sameQueueId (s.dramStore a b) := by
  simp [State.dramStore]

@[simp] theorem State.traceChange_queueId (s : State) (core : Nat) (why : TraceReason) (outT inT : Option Nat) :
    s.sameQueueId (s.traceChange core why outT inT) :=
  (State.traceChange_quiet s core why outT inT).queueId

@[simp] theorem State.dispatchOn_queueId (s : State) (core t : Nat) : s.sameQueueId (s.dispatchOn core t) :=
  (State.dispatchOn_quiet s core t).queueId

@[simp] theorem State.refill_queueId (s : State) (core : Nat) (why : TraceReason) (left : Nat) :
    s.sameQueueId (s.refill core why left) :=
  (State.refill_quiet s core why left).queueId

@[simp] theorem State.toHead_queueId (t : Nat) (s : State) : s.sameQueueId (State.toHead t s) :=
  (State.toHead_quiet s t).queueId

@[simp] theorem State.placeAux_queueId {waits : State → State} (hw : ∀ s, State.sameQueueId s (waits s)) (fuel : Nat) (s : State)
    (t : Nat) : s.sameQueueId (State.placeAux fuel s t waits) := by
  induction fuel generalizing s t waits with
  | zero => simp [State.placeAux, hw]
  | succ fuel ih =>
    unfold State.placeAux
    split
    · simp
    · split
      · simp [hw]
      · split
        · simp [hw]
        · simp [ih (State.toHead_queueId _)]

@[simp] theorem State.placeBy_queueId {waits : State → State} (hw : ∀ s, State.sameQueueId s (waits s)) (s : State) (t : Nat) :
    s.sameQueueId (s.placeBy t waits) := by
  unfold State.placeBy
  dsimp only
  split <;> simp [hw]

@[simp] theorem State.place_queueId (s : State) (t : Nat) : s.sameQueueId (s.place t) := (State.place_quiet s t).queueId

/-! ### Events (R437 to R443, R507) -/

@[simp] theorem State.post_queueId (s : State) (posts : List (Nat × Nat)) (src : Nat) : s.sameQueueId (s.post posts src).1 :=
  (State.post_quiet s posts src).queueId

@[simp] theorem State.noteTraceDrop_queueId (s : State) : s.sameQueueId s.noteTraceDrop := (State.noteTraceDrop_quiet s).queueId

/-! ### Interrupts, shadow entries and completions (R360 to R381) -/

@[simp] theorem State.signal_queueId (s : State) (v : Nat) : s.sameQueueId (s.signal v) := (State.signal_hostQuiet s v).queueId
@[simp] theorem State.signalErr_queueId (s : State) : s.sameQueueId s.signalErr := by simp [State.signalErr]
@[simp] theorem State.shadow_queueId (s : State) (n : Nat) : s.sameQueueId (s.shadow n) := (State.shadow_hostQuiet s n).queueId

@[simp] theorem State.setRing_queueId (s : State) (n : Nat) (st : RingState) : s.sameQueueId (s.setRing n st) :=
  (State.setRing_hostQuiet s n st).queueId

@[simp] theorem State.complete1_queueId (s : State) (d : Desc) (status detail : Nat) (result : List Byte) :
    s.sameQueueId (s.complete1 d status detail result) :=
  (State.complete1_hostQuiet s d status detail result).queueId

@[simp] theorem State.flushVerdict_queueId (s : State) (ring : Nat) : s.sameQueueId (s.flushVerdict ring) :=
  (State.flushVerdict_hostQuiet s ring).queueId

@[simp] theorem State.complete_queueId (s : State) (d : Desc) (status : Nat) (result : List Byte) (detail : Nat) :
    s.sameQueueId (s.complete d status result detail) :=
  (State.complete_hostQuiet s d status result detail).queueId

@[simp] theorem State.wait_queueId (s : State) (d : Desc) : s.sameQueueId (s.wait d) := by simp [State.wait]

@[simp] theorem State.withDesc_queueId {f : State → Desc → State} (hf : ∀ s d, State.sameQueueId s (f s d)) (s : State)
    (ring index op : Nat) (variant : Desc → Bool) : s.sameQueueId (s.withDesc ring index op variant f) := by
  unfold State.withDesc
  split <;> simp [hf]

@[simp] theorem State.writePayload_queueId (s : State) (d : Desc) (o : Nat) (b : List Byte) :
    s.sameQueueId (s.writePayload d o b) := by
  simp [State.writePayload]

/-! ### Key material, cache and link keys (R457 to R465) -/

@[simp] theorem State.tearSlot_queueId (s : State) (i : Nat) (f : KeyCopy → KeyCopy) : s.sameQueueId (s.tearSlot i f) :=
  ⟨rfl, rfl⟩

@[simp] theorem State.cachePut_queueId (s : State) (i : Nat) (mat : List Byte) : s.sameQueueId (s.cachePut i mat) := by
  unfold State.cachePut
  split <;> simp

@[simp] theorem State.cacheUse_queueId (s : State) (name : Nat) : s.sameQueueId (s.cacheUse name) := by
  unfold State.cacheUse
  repeat' split
  all_goals simp

@[simp] theorem State.orphanUse_queueId (s : State) (i : Nat) : s.sameQueueId (s.orphanUse i) := by simp [State.orphanUse]
@[simp] theorem State.purge_queueId (s : State) (i : Nat) : s.sameQueueId (s.purge i) := ⟨rfl, rfl⟩
@[simp] theorem State.destroyKeys_queueId (s : State) : s.sameQueueId s.destroyKeys := ⟨rfl, rfl⟩

@[simp] theorem State.abortJobs_queueId (s : State) (status : Nat) : s.sameQueueId (s.abortJobs status) :=
  State.foldl_queueId (fun s j => by split <;> simp) ..

@[simp] theorem State.deriveRoots_queueId (s : State) : s.sameQueueId s.deriveRoots := by
  unfold State.deriveRoots
  split <;> simp

@[simp] theorem State.newEpoch_queueId (s : State) : s.sameQueueId s.newEpoch := by simp [State.newEpoch]

/-! ### The NV die and the recorder's slots (R483 to R487, R509) -/

theorem State.takeSpare_queueId {s t : State} {region n : Nat} (h : s.takeSpare region = some (t, n)) : s.sameQueueId t := by
  unfold State.takeSpare at h
  dsimp only at h
  split_ifs at h <;> cases h <;> exact ⟨rfl, rfl⟩

@[simp] theorem State.makeReadOnly_queueId (s : State) (region : Nat) : s.sameQueueId (s.makeReadOnly region) := by
  simp [State.makeReadOnly]

@[simp] theorem State.wornOut_queueId (s : State) (region b : Nat) : s.sameQueueId (s.wornOut region b) := by simp [State.wornOut]
@[simp] theorem State.countWrite_queueId (s : State) (home n : Nat) : s.sameQueueId (s.countWrite home n) := ⟨rfl, rfl⟩

@[simp] theorem State.writeRemap_queueId (s : State) (b spare : Nat) : s.sameQueueId (s.writeRemap b spare).1 := by
  unfold State.writeRemap
  dsimp only
  split
  · simp
  · split
    · next h => simp [State.takeSpare_queueId h]
    · simp

@[simp] theorem State.nvWrite_queueId (s : State) (region block : Nat) (run : NvRun) :
    s.sameQueueId (s.nvWrite region block run).1 := by
  unfold State.nvWrite
  dsimp only
  split
  · simp
  · split
    · simp
    · next ht =>
      split
      · simp
      · split
        · simp
        · next h => simp [(State.writeRemap_queueId ..).of_eq h, State.takeSpare_queueId ht]

@[simp] theorem State.critDrop_queueId (s : State) : s.sameQueueId s.critDrop := by simp [State.critDrop]
@[simp] theorem State.dropRecord_queueId (s : State) (sev : Nat) : s.sameQueueId (s.dropRecord sev) := by simp [State.dropRecord]

@[simp] theorem State.bufferRecord_queueId (s : State) (r : Record) : s.sameQueueId (s.bufferRecord r) := by
  unfold State.bufferRecord
  split <;> simp

@[simp] theorem State.putRecord_queueId (s : State) (i : Nat) (r : Record) : s.sameQueueId (s.putRecord i r) := ⟨rfl, rfl⟩
@[simp] theorem State.dropBlock_queueId (s : State) (block : Nat) : s.sameQueueId (s.dropBlock block) := ⟨rfl, rfl⟩

@[simp] theorem State.logRecord_queueId (bad : List Nat) (fuel : Nat) (s : State) (r : Record) :
    s.sameQueueId (State.logRecord bad fuel s r) := by
  induction fuel generalizing s r with
  | zero => simp [State.logRecord]
  | succ fuel ih =>
    unfold State.logRecord
    split
    · simp
    · split
      · next h => simp [(State.nvWrite_queueId ..).of_eq h]
      · next h => simp [(State.nvWrite_queueId ..).of_eq h, ih]

@[simp] theorem State.flushOne_queueId (s : State) (bad : List Nat) : s.sameQueueId (s.flushOne bad) := by
  unfold State.flushOne
  split <;> simp

@[simp] theorem State.flushMany_queueId (bad : List Nat) (n : Nat) (s : State) : s.sameQueueId (State.flushMany bad n s) := by
  induction n generalizing s with
  | zero => simp [State.flushMany]
  | succ n ih => simp [State.flushMany, ih]

@[simp] theorem State.settleFlush_queueId (s : State) : s.sameQueueId s.settleFlush := by simp [State.settleFlush]
@[simp] theorem State.flushAll_queueId (s : State) (bad : List Nat) : s.sameQueueId (s.flushAll bad) := by simp [State.flushAll]

@[simp] theorem State.tearFlush_queueId (s : State) : s.sameQueueId s.tearFlush := by
  unfold State.tearFlush
  dsimp only
  repeat' split
  all_goals simp

@[simp] theorem State.startFlush_queueId (s : State) : s.sameQueueId s.startFlush := by simp [State.startFlush]

/-! ### Key Store commands (R466 to R482) -/

@[simp] theorem State.abandonUpdate_queueId (s : State) (d : Desc) (power : Bool) : s.sameQueueId (s.abandonUpdate d power) := by
  simp [State.abandonUpdate]

@[simp] theorem State.keyWrite_queueId {torn done : State → State} (ht : ∀ s, State.sameQueueId s (torn s))
    (hd : ∀ s, State.sameQueueId s (done s)) (s : State) (d : Desc) (block : Nat) (run : NvRun) :
    s.sameQueueId (s.keyWrite d block run torn done) := by
  unfold State.keyWrite
  split
  · simp
  · split <;> next h => simp [(State.nvWrite_queueId ..).of_eq h, ht, hd]

@[simp] theorem State.recordUpdate_queueId {done : State → State} (hdone : ∀ s, State.sameQueueId s (done s)) (s : State)
    (d : Desc) (i : Nat) (run : NvRun) (f : KeyCopy → KeyCopy) : s.sameQueueId (s.recordUpdate d i run f done) := by
  simp [State.recordUpdate, hdone]

@[simp] theorem State.storeRecord_queueId (s : State) (d : Desc) (run : NvRun) (i : Nat) (f : KeyCopy → KeyCopy) (mat : List Byte) :
    s.sameQueueId (s.storeRecord d run i f mat) := by
  simp [State.storeRecord]

@[simp] theorem State.keyCreate_queueId (s : State) (d : Desc) (method : Nat) (payload : List Byte) (run : NvRun) :
    s.sameQueueId (s.keyCreate d method payload run) := by
  unfold State.keyCreate
  split
  · simp
  · split
    extract_lets type usage flags attest
    refine .ite (by simp) ?_
    split
    split
    extract_lets n4 d t parent pl u need label ctx mat v key
    have ht : s.sameQueueId t := State.countClamps_queueId ..
    have hu : s.sameQueueId u := ht.trans (State.cacheUse_queueId ..)
    have hv : s.sameQueueId v := .ite hu (hu.trans (State.cacheUse_queueId ..))
    refine .ite (by simp [ht]) ?_
    split
    · simp [ht]
    · dsimp only
      repeat' split
      all_goals simp [hu, hv]

@[simp] theorem State.keyRetire_queueId (s : State) (d : Desc) (destroy : Bool) (run : NvRun) :
    s.sameQueueId (s.keyRetire d destroy run) := by
  unfold State.keyRetire
  dsimp only
  repeat' split
  all_goals simp

@[simp] theorem State.keyInfo_queueId (s : State) (d : Desc) : s.sameQueueId (s.keyInfo d) := by simp [State.keyInfo]

@[simp] theorem State.keyWrapOut_queueId (s : State) (d : Desc) : s.sameQueueId (s.keyWrapOut d) := by
  unfold State.keyWrapOut
  dsimp only
  repeat' split
  all_goals simp

@[simp] theorem State.keyCrypt_queueId (s : State) (d : Desc) (op : Nat) (payload : List Byte) :
    s.sameQueueId (s.keyCrypt d op payload) := by
  unfold State.keyCrypt
  dsimp only
  repeat' split
  all_goals simp

@[simp] theorem State.orphanJob_queueId (s : State) (j : Job) : s.sameQueueId (s.orphanJob j) := by
  unfold State.orphanJob
  split <;> simp

@[simp] theorem State.startJob_queueId (s : State) : s.sameQueueId s.startJob := by
  unfold State.startJob
  dsimp only
  repeat' split
  all_goals simp

@[simp] theorem State.finishJob_queueId (s : State) (e : Nat) : s.sameQueueId (s.finishJob e) := by
  unfold State.finishJob
  dsimp only
  repeat' split
  all_goals simp

@[simp] theorem State.keyAttest_queueId (s : State) (d : Desc) (payload : List Byte) (run : NvRun) :
    s.sameQueueId (s.keyAttest d payload run) := by
  unfold State.keyAttest
  dsimp only
  repeat' split
  all_goals simp

@[simp] theorem State.epochRoll_queueId (s : State) (d : Desc) : s.sameQueueId (s.epochRoll d) := by
  unfold State.epochRoll
  split <;> simp

@[simp] theorem State.remaskAll_queueId (s : State) : s.sameQueueId s.remaskAll := ⟨rfl, rfl⟩

@[simp] theorem State.remaskEpoch_queueId (s : State) : s.sameQueueId s.remaskEpoch := by
  unfold State.remaskEpoch
  split <;> simp

@[simp] theorem State.tamperDestroy_queueId (s : State) : s.sameQueueId s.tamperDestroy := by simp [State.tamperDestroy]

theorem execTamperEvent_queueId (now : Timed Nat) (input : Nat) (levels : BitVec 4) (s : State) :
    reaches (execTamperEvent now input levels s) s.sameQueueId := by
  refine ⟨_, rfl, ?_⟩
  dsimp only
  repeat' split
  all_goals simp

/-! ### Frames, links, addresses and the learning table (R392 to R420) -/

@[simp] theorem State.enqueueFrame_queueId (s : State) (p : Nat) (f : List Byte) : s.sameQueueId (s.enqueueFrame p f).1 := by
  simp [State.enqueueFrame]

@[simp] theorem State.floodQueued_queueId (s : State) (but : Option Nat) (f : List Byte) :
    s.sameQueueId (s.floodQueued but f).1 := by
  simp [State.floodQueued]

@[simp] theorem State.floodFrame_queueId (s : State) (but : Option Nat) (f : List Byte) : s.sameQueueId (s.floodFrame but f) := by
  simp [State.floodFrame]

@[simp] theorem State.nextSeq_queueId (s : State) (cls : Nat) : s.sameQueueId (s.nextSeq cls).1 := ⟨rfl, rfl⟩

@[simp] theorem State.originateQueued_queueId (s : State) (src cls type hops flags : Nat) (body : List Byte) :
    s.sameQueueId (s.originateQueued src cls type hops flags body).1 := by
  simp [State.originateQueued]

@[simp] theorem State.originateFlood_queueId (s : State) (src cls type hops flags : Nat) (body : List Byte) :
    s.sameQueueId (s.originateFlood src cls type hops flags body) := by
  simp [State.originateFlood]

@[simp] theorem State.dupAdd_queueId (s : State) (k : List Nat) : s.sameQueueId (s.dupAdd k) := ⟨rfl, rfl⟩

@[simp] theorem State.relayFlood_queueId (s : State) (p : Nat) (f : List Byte) : s.sameQueueId (s.relayFlood p f) := by
  simp [State.relayFlood]

@[simp] theorem State.linkFall_queueId (s : State) (p : Nat) (why : LinkCause) : s.sameQueueId (s.linkFall p why) := by
  simp [State.linkFall]

@[simp] theorem State.linkRise_queueId (s : State) (p : Nat) : s.sameQueueId (s.linkRise p) := by simp [State.linkRise]
@[simp] theorem State.sendHello_queueId (s : State) (p : Nat) : s.sameQueueId (s.sendHello p) := by simp [State.sendHello]
@[simp] theorem State.helloAll_queueId (s : State) : s.sameQueueId s.helloAll := by simp [State.helloAll]

@[simp] theorem State.sendClaim_queueId (s : State) (defend : Bool) : s.sameQueueId (s.sendClaim defend) := by
  simp [State.sendClaim]

@[simp] theorem State.enterConflict_queueId (s : State) : s.sameQueueId s.enterConflict := by simp [State.enterConflict]

@[simp] theorem State.claimFrom_queueId (s : State) (fuel a : Nat) : s.sameQueueId (s.claimFrom fuel a) := by
  induction fuel generalizing a with
  | zero => simp [State.claimFrom]
  | succ fuel ih =>
    unfold State.claimFrom
    dsimp only
    split
    · exact ih _
    · simp

@[simp] theorem State.startClaim_queueId (s : State) : s.sameQueueId s.startClaim := by simp [State.startClaim]

@[simp] theorem State.meetAddr_queueId (s : State) (eui addr : Nat) : s.sameQueueId (s.meetAddr eui addr) := by
  unfold State.meetAddr
  split <;> simp

@[simp] theorem State.takeClaim_queueId (s : State) (p : Nat) (f : List Byte) : s.sameQueueId (s.takeClaim p f) := by
  simp [State.takeClaim]

@[simp] theorem State.takeHello_queueId (s : State) (p : Nat) (f : List Byte) : s.sameQueueId (s.takeHello p f) := by
  simp [State.takeHello]

@[simp] theorem State.lsdbChanged_queueId (s : State) : s.sameQueueId s.lsdbChanged := ⟨rfl, rfl⟩
@[simp] theorem State.putLsa_queueId (s : State) (src : Nat) (e : Lsa) : s.sameQueueId (s.putLsa src e) := by simp [State.putLsa]

@[simp] theorem State.takeLsa_queueId (s : State) (p : Nat) (f : List Byte) : s.sameQueueId (s.takeLsa p f) := by
  simp [State.takeLsa]

@[simp] theorem State.sendLsa_queueId (s : State) : s.sameQueueId s.sendLsa := by simp [State.sendLsa]
@[simp] theorem State.runSpf_queueId (s : State) : s.sameQueueId s.runSpf := by simp [State.runSpf]

@[simp] theorem State.modLearn_queueId (s : State) (i : Nat) (f : LearnEntry → LearnEntry) : s.sameQueueId (s.modLearn i f) := by
  unfold State.modLearn
  split <;> simp

@[simp] theorem State.learnLookup_queueId (s : State) (k : Nat) : s.sameQueueId (s.learnLookup k).1 := by
  unfold State.learnLookup
  split <;> simp

@[simp] theorem State.serveLearn_queueId (s : State) : s.sameQueueId s.serveLearn := by
  unfold State.serveLearn
  split <;> simp

@[simp] theorem State.pushLearn_queueId (s : State) (rec' : List Byte) (conflict : Bool) :
    s.sameQueueId (s.pushLearn rec' conflict) := by
  simp [State.pushLearn]

@[simp] theorem State.newSighting_queueId (s : State) (g : Sighting) (kind : Nat) : s.sameQueueId (s.newSighting g kind) := by
  simp [State.newSighting]

@[simp] theorem State.retireSightings_queueId (s : State) : s.sameQueueId s.retireSightings := ⟨rfl, rfl⟩

@[simp] theorem State.sight_queueId (s : State) (p : Nat) (f : List Byte) : s.sameQueueId (s.sight p f) := by
  unfold State.sight
  dsimp only
  repeat' split
  all_goals simp

@[simp] theorem State.ageEntry_queueId (s : State) (i : Nat) (e : LearnEntry) : s.sameQueueId (s.ageEntry i e) := by
  simp [State.ageEntry]

@[simp] theorem State.hostFrame_queueId (s : State) (src cls type port srcEui : Nat) (data : List Byte) :
    s.sameQueueId (s.hostFrame src cls type port srcEui data) := by
  unfold State.hostFrame
  dsimp only
  repeat' split
  all_goals simp

/-! ### Images in flash (R488 to R499) -/

@[simp] theorem State.eraseSlot_queueId (s : State) (b : Bool) : s.sameQueueId (s.eraseSlot b) := ⟨rfl, rfl⟩
@[simp] theorem State.extendReg_queueId (s : State) (i : Nat) (d : BitVec 384) : s.sameQueueId (s.extendReg i d) := ⟨rfl, rfl⟩

@[simp] theorem State.bootWrite_queueId (s : State) (block : Nat) (run : NvRun) : s.sameQueueId (s.bootWrite block run).1 := by
  simp [State.bootWrite]

@[simp] theorem State.extend_queueId (s : State) (i type : Nat) (d : BitVec 384) (run : NvRun) :
    s.sameQueueId (s.extend i type d run).1 := by
  unfold State.extend
  split <;> next h => simp [(State.bootWrite_queueId ..).of_eq h]

@[simp] theorem State.measured_queueId (s : State) (i type : Nat) (d : BitVec 384) : s.sameQueueId (s.measured i type d) := by
  simp [State.measured]

@[simp] theorem State.measure_queueId (s : State) (h plain : List Byte) : s.sameQueueId (s.measure h plain) := by
  simp [State.measure]

@[simp] theorem State.loadImage_queueId (s : State) (b : Bool) : s.sameQueueId (s.loadImage b) := by simp [State.loadImage]

@[simp] theorem State.servePeer_queueId (s : State) (p eui part next : Nat) : s.sameQueueId (s.servePeer p eui part next) := by
  unfold State.servePeer
  dsimp only
  repeat' split
  all_goals simp

/-! ### Cells, tiles, claims and map deltas (R106 to R137) -/

@[simp] theorem State.dramWrite_queueId (s : State) (a : Nat) (b : List Byte) : s.sameQueueId (s.dramWrite a b) := by
  simp [State.dramWrite]

@[simp] theorem State.dramSeen_queueId (s : State) (a n : Nat) : s.sameQueueId (s.dramSeen a n) := by simp [State.dramSeen]

@[simp] theorem State.leaveImages_queueId (s : State) : s.sameQueueId s.leaveImages := by
  unfold State.leaveImages
  split <;> simp

@[simp] theorem State.writeBack_queueId (s : State) (l : CacheLine) : s.sameQueueId (s.writeBack l) := by simp [State.writeBack]
@[simp] theorem State.putLine_queueId (s : State) (l : CacheLine) : s.sameQueueId (s.putLine l) := by simp [State.putLine]

@[simp] theorem State.getLine_queueId (s : State) (l : CacheLine) (sample : Bool) : s.sameQueueId (s.getLine l sample).1 := by
  unfold State.getLine
  split <;> simp

@[simp] theorem State.dropLines_queueId (s : State) (p : CacheLine → Bool) : s.sameQueueId (s.dropLines p) := by
  simp [State.dropLines]

@[simp] theorem State.cleanLines_queueId (s : State) : s.sameQueueId s.cleanLines := by simp [State.cleanLines]

@[simp] theorem State.readLayer_queueId (s : State) (layer : Nat) (c : Cell) (sample : Bool) :
    s.sameQueueId (s.readLayer layer c sample).1 := by
  unfold State.readLayer
  split
  · simp
  · dsimp only
    split
    · simp
    · split <;> next h => simp [(State.getLine_queueId ..).of_eq h]

@[simp] theorem State.coverage_queueId (s : State) (c : Cell) (sample : Bool) : s.sameQueueId (s.coverage c sample).1 := by
  unfold State.coverage
  split <;> next h => simp [(State.readLayer_queueId ..).of_eq h]

@[simp] theorem State.exclusion_queueId (s : State) (c : Cell) : s.sameQueueId (s.exclusion c).1 := by
  unfold State.exclusion
  split <;> next h => simp [(State.readLayer_queueId ..).of_eq h]

@[simp] theorem State.prescription_queueId (s : State) (layer : Nat) (c : Cell) :
    s.sameQueueId (s.prescription layer c).1 := by
  unfold State.prescription
  split <;> next h => simp [(State.readLayer_queueId ..).of_eq h]

@[simp] theorem State.setCov_queueId (s : State) (c : Cell) (code : Nat) (change : Bool) :
    s.sameQueueId (s.setCov c code change) := by
  unfold State.setCov
  split
  · simp
  · dsimp only
    split
    · simp
    · split <;> next h => simp [(State.getLine_queueId ..).of_eq h]

@[simp] theorem State.dropClaim_queueId (s : State) (k : Nat) (c : Claim) : s.sameQueueId (s.dropClaim k c) := by
  simp [State.dropClaim]

@[simp] theorem State.releaseClaims_queueId (s : State) (p : Nat → Claim → Bool) : s.sameQueueId (s.releaseClaims p) := by
  simp [State.releaseClaims]

@[simp] theorem State.noteDelta_queueId (s : State) (c : Cell) : s.sameQueueId (s.noteDelta c) := by simp [State.noteDelta]

@[simp] theorem State.confirmClaim_queueId (s : State) (k : Nat) (c : Claim) : s.sameQueueId (s.confirmClaim k c) := by
  simp [State.confirmClaim]

@[simp] theorem State.bumpCell_queueId (s : State) (c : Cell) : s.sameQueueId (s.bumpCell c) := by
  unfold State.bumpCell
  split
  · simp
  · split <;> next h => simp [(State.coverage_queueId ..).of_eq h]

@[simp] theorem State.applyDelta_queueId (s : State) (f : Nat) (b : List Byte) : s.sameQueueId (s.applyDelta f b) := by
  simp [State.applyDelta]

@[simp] theorem State.takeDelta_queueId (s : State) (src : Nat) (b : List Byte) : s.sameQueueId (s.takeDelta src b) := by
  unfold State.takeDelta
  dsimp only
  repeat' split
  all_goals simp

@[simp] theorem State.sendUnicast_queueId (s : State) (dst cls type hops : Nat) (body : List Byte) :
    s.sameQueueId (s.sendUnicast dst cls type hops body).1 := by
  unfold State.sendUnicast
  dsimp only
  repeat' split
  all_goals simp

@[simp] theorem State.sendDelta_queueId (s : State) (f : Nat) (cells : List Cell) : s.sameQueueId (s.sendDelta f cells) := by
  simp [State.sendDelta]

@[simp] theorem State.sendDeltas_queueId (s : State) : s.sameQueueId s.sendDeltas := by simp [State.sendDeltas]

@[simp] theorem State.loadTiles_queueId (s : State) (f fuel : Nat) (p : List Byte) (n : Nat) :
    s.sameQueueId (s.loadTiles f fuel p n).1 := by
  induction fuel generalizing s p n with
  | zero => simp [State.loadTiles]
  | succ fuel ih =>
    unfold State.loadTiles
    dsimp only
    repeat' split
    all_goals simp [ih]

@[simp] theorem State.saveTiles_queueId (s : State) (f layer room : Nat) (dirtyOnly : Bool) (tiles : List (Nat × Nat))
    (out : List Byte) (n : Nat) : s.sameQueueId (s.saveTiles f layer room dirtyOnly tiles out n).1 := by
  induction tiles generalizing s out n with
  | nil => simp [State.saveTiles]
  | cons t rest ih =>
    unfold State.saveTiles
    dsimp only
    repeat' split
    all_goals simp [ih]

/-! ### Sources, servo, stamps and alarms (R67 to R105) -/

@[simp] theorem State.pushStamp_queueId (s : State) (source id t16 : Nat) : s.sameQueueId (s.pushStamp source id t16) := by
  simp [State.pushStamp]

@[simp] theorem State.popStamp_queueId (s : State) : s.sameQueueId s.popStamp := by
  unfold State.popStamp
  split <;> simp

@[simp] theorem State.ppsDrive_queueId (s : State) (active : Bool) (time : Nat) : s.sameQueueId (s.ppsDrive active time) := by
  simp [State.ppsDrive]

@[simp] theorem State.ppsEnd_queueId (s : State) : s.sameQueueId s.ppsEnd := by simp [State.ppsEnd]

@[simp] theorem State.setQuality_queueId (s : State) (q : Quality) : s.sameQueueId (s.setQuality q) := by
  unfold State.setQuality
  repeat' split
  all_goals simp

@[simp] theorem State.enterHoldover_queueId (s : State) : s.sameQueueId s.enterHoldover := by simp [State.enterHoldover]
@[simp] theorem State.reselect_queueId (s : State) : s.sameQueueId s.reselect := by simp [State.reselect]
@[simp] theorem State.loseSource_queueId (s : State) (i : Nat) : s.sameQueueId (s.loseSource i) := by simp [State.loseSource]
@[simp] theorem State.servo_queueId (s : State) (e : Int) (dt : Rat) : s.sameQueueId (s.servo e dt) := by simp [State.servo]
@[simp] theorem State.decideStep_queueId (s : State) (e : Int) (unc : Nat) : s.sameQueueId (s.decideStep e unc) := ⟨rfl, rfl⟩

@[simp] theorem State.useSample_queueId (s : State) (e : Int) (unc : Nat) : s.sameQueueId (s.useSample e unc) := by
  simp [State.useSample]

@[simp] theorem State.sample_queueId (s : State) (i : Nat) (e : Int) (unc : Nat) : s.sameQueueId (s.sample i e unc) := by
  simp [State.sample]

@[simp] theorem State.noteClass_queueId (s : State) : s.sameQueueId s.noteClass := by
  unfold State.noteClass
  split <;> simp

@[simp] theorem State.updateErr_queueId (s : State) : s.sameQueueId s.updateErr := by simp [State.updateErr]
@[simp] theorem State.fireAlarm_queueId (s : State) (n : Nat) : s.sameQueueId (s.fireAlarm n) := by simp [State.fireAlarm]

@[simp] theorem State.insertLaunch_queueId (s : State) (time : Nat) (k : LaunchKind) : s.sameQueueId (s.insertLaunch time k) :=
  ⟨rfl, rfl⟩

/-! ### Slots, the downlink queue and transmission (R225 to R249, R345) -/

@[simp] theorem State.modMach_queueId (s : State) (m : Nat) (f : MachLink → MachLink) : s.sameQueueId (s.modMach m f) := by
  simp [State.modMach]

@[simp] theorem State.modNode_queueId (s : State) (k : Nat) (f : NodeLink → NodeLink) : s.sameQueueId (s.modNode k f) := by
  simp [State.modNode]

@[simp] theorem State.queueDl_queueId (s : State) (b : DlBlock) : s.sameQueueId (s.queueDl b) := ⟨rfl, rfl⟩

@[simp] theorem State.queueBlock_queueId (s : State) (m btype : Nat) (body : List Byte) :
    s.sameQueueId (s.queueBlock m btype body) := by
  simp [State.queueBlock]

@[simp] theorem State.sectionDrop_queueId (s : State) (p : Nat) : s.sameQueueId (s.sectionDrop p) := by simp [State.sectionDrop]

@[simp] theorem State.dropUnfit_queueId (s : State) (p fuel : Nat) : s.sameQueueId (s.dropUnfit p fuel) := by
  induction fuel generalizing s with
  | zero => simp [State.dropUnfit]
  | succ fuel ih =>
    unfold State.dropUnfit
    dsimp only
    split
    · simp
    · split
      · split <;> simp [ih]
      · simp [ih]

@[simp] theorem State.blockSent_queueId (s : State) (b : DlBlock) : s.sameQueueId (s.blockSent b) := by
  unfold State.blockSent
  dsimp only
  repeat' split
  all_goals simp

@[simp] theorem State.queueSched_queueId (s : State) (p m lasn : Nat) (narrow : Bool) (mode : Nat) (t : List Byte) (pend : Bool) :
    s.sameQueueId (s.queueSched p m lasn narrow mode t pend) := by
  simp [State.queueSched]

@[simp] theorem State.countOrphan_queueId (s : State) (i : Nat) : s.sameQueueId (s.countOrphan i) := by simp [State.countOrphan]

@[simp] theorem State.announceTo_queueId (s : State) (p m : Nat) (a : Announce) (group stop keyGen : Nat) :
    s.sameQueueId (s.announceTo p m a group stop keyGen) := by
  unfold State.announceTo
  dsimp only
  repeat' split
  all_goals simp

@[simp] theorem State.endAnnounce_queueId (s : State) : s.sameQueueId s.endAnnounce := by simp [State.endAnnounce]
@[simp] theorem State.micFail_queueId (s : State) (p : Nat) : s.sameQueueId (s.micFail p) := by simp [State.micFail]

@[simp] theorem State.dutyReview_queueId (s : State) (p asn at' : Nat) : s.sameQueueId (s.dutyReview p asn at') := by
  simp [State.dutyReview]

@[simp] theorem State.withhold_queueId (s : State) (p ch air asn : Nat) : s.sameQueueId (s.withhold p ch air asn) := by
  simp [State.withhold]

@[simp] theorem State.frontEnd_queueId (s : State) (p time : Nat) (f : Sel) : s.sameQueueId (s.frontEnd p time f) := by
  simp [State.frontEnd]

@[simp] theorem State.onAir_queueId (s : State) (p ch start mode : Nat) (frame : List Byte) :
    s.sameQueueId (s.onAir p ch start mode frame) := by
  simp [State.onAir]

@[simp] theorem State.precompMiss_queueId (s : State) : s.sameQueueId s.precompMiss := by simp [State.precompMiss]
@[simp] theorem State.missUnder_queueId (s : State) (i : Nat) : s.sameQueueId (s.missUnder i) := by simp [State.missUnder]
@[simp] theorem State.freezeMirage_queueId (s : State) : s.sameQueueId s.freezeMirage := ⟨rfl, rfl⟩

@[simp] theorem State.beaconAir_queueId (s : State) (p ch : Nat) (f : BeaconForm) (nominal start : Nat) :
    s.sameQueueId (s.beaconAir p ch f nominal start) := by
  simp [State.beaconAir]

@[simp] theorem State.sendBeacon_queueId (s : State) (p ch asn nominal : Nat) :
    s.sameQueueId (s.sendBeacon p ch asn nominal) := by
  unfold State.sendBeacon
  split <;> simp

@[simp] theorem State.restamp_queueId (s : State) (p asn start : Nat) : s.sameQueueId (s.restamp p asn start) := ⟨rfl, rfl⟩

@[simp] theorem State.sendAnchor_queueId (s : State) (p asn nominal : Nat) : s.sameQueueId (s.sendAnchor p asn nominal) := by
  unfold State.sendAnchor
  split <;> simp

@[simp] theorem State.holdStops_queueId (s : State) (p asn : Nat) : s.sameQueueId (s.holdStops p asn) := by simp [State.holdStops]
@[simp] theorem State.holdForms_queueId (s : State) (p asn : Nat) : s.sameQueueId (s.holdForms p asn) := by simp [State.holdForms]
@[simp] theorem State.holdAll_queueId (s : State) : s.sameQueueId s.holdAll := by simp [State.holdAll]
@[simp] theorem State.dropHeld_queueId (s : State) (p : Nat) : s.sameQueueId (s.dropHeld p) := by simp [State.dropHeld]

@[simp] theorem State.sendStop_queueId (s : State) (p ch asn nominal : Nat) : s.sameQueueId (s.sendStop p ch asn nominal) := by
  unfold State.sendStop
  split <;> simp

@[simp] theorem State.sendSealed_queueId (s : State) (p ch asn nominal mode type enc addr : Nat) (key body : List Byte) :
    s.sameQueueId (s.sendSealed p ch asn nominal mode type enc addr key body).1 := by
  simp [State.sendSealed]

@[simp] theorem State.hostMessage_queueId (s : State) (p addr asn : Nat) (data : List Byte) :
    s.sameQueueId (s.hostMessage p addr asn data) := by
  unfold State.hostMessage
  split <;> simp

theorem State.queueMessage_queueId {s t : State} {addr p : Nat} {data : List Byte} {desc : Option Nat}
    (h : s.queueMessage addr p data desc = some t) : s.sameQueueId t := by
  unfold State.queueMessage at h
  split at h <;> cases h
  simp

/-! ### Tracks, requests and decisions of the Caravan Engine (R268 to R287) -/

@[simp] theorem State.trackSeen_queueId (s : State) (k : Nat) : s.sameQueueId (s.trackSeen k) := by simp [State.trackSeen]

@[simp] theorem State.modCar_queueId (s : State) (m : Nat) (f : CarMach → CarMach) : s.sameQueueId (s.modCar m f) := by
  simp [State.modCar]

@[simp] theorem State.setTrack_queueId (s : State) (k state : Nat) (m : Nat) : s.sameQueueId (s.setTrack k state m) := by
  simp [State.setTrack]

@[simp] theorem State.setRes_queueId (s : State) (o : Nat) (l : List Seg) : s.sameQueueId (s.setRes o l) := by simp [State.setRes]

@[simp] theorem State.carTell_queueId (s : State) (m code why segs : Nat) : s.sameQueueId (s.carTell m code why segs) := by
  simp [State.carTell]

@[simp] theorem State.carTest_queueId (s : State) (o : Nat) (segs : List Seg) (track : Option Nat) (rev : Bool) :
    s.sameQueueId (s.carTest o segs track rev).1 := by
  unfold State.carTest
  dsimp only
  repeat' split
  all_goals simp

@[simp] theorem State.carAlong_queueId (s : State) (r : Req) (k : Nat) (rev : Bool) : s.sameQueueId (s.carAlong r k rev).1 := by
  simp [State.carAlong]

@[simp] theorem State.doneCurrent_queueId (s : State) (r : Req) : s.sameQueueId (s.doneCurrent r) := by
  unfold State.doneCurrent
  split <;> simp

@[simp] theorem State.carDecide_queueId (s : State) (r : Req) : s.sameQueueId (s.carDecide r).1 := by
  unfold State.carDecide
  dsimp only
  repeat' split
  all_goals simp

@[simp] theorem State.giveAnswer_queueId (s : State) (r : Req) (a : Answered) : s.sameQueueId (s.giveAnswer r a) := by
  unfold State.giveAnswer
  dsimp only
  repeat' split
  all_goals simp

@[simp] theorem State.trackRequest_queueId (s : State) (m : Nat) (b : List Byte) : s.sameQueueId (s.trackRequest m b) := by
  simp [State.trackRequest]

@[simp] theorem State.expireOwner_queueId (s : State) (o : Nat) (l : List Seg) : s.sameQueueId (s.expireOwner o l) := by
  unfold State.expireOwner
  split <;> simp

@[simp] theorem State.expireAll_queueId (s : State) : s.sameQueueId s.expireAll := by simp [State.expireAll]
@[simp] theorem State.freezeRes_queueId (s : State) (m : Nat) : s.sameQueueId (s.freezeRes m) := by simp [State.freezeRes]
@[simp] theorem State.freezeAll_queueId (s : State) : s.sameQueueId s.freezeAll := by simp [State.freezeAll]
@[simp] theorem State.freezeLost_queueId (s : State) (m : Nat) : s.sameQueueId (s.freezeLost m) := by simp [State.freezeLost]

@[simp] theorem State.thaw_queueId (s : State) (m : Nat) : s.sameQueueId (s.thaw m) := by
  unfold State.thaw
  dsimp only
  repeat' split
  all_goals simp

@[simp] theorem State.thawEnable_queueId (s : State) (m : Nat) : s.sameQueueId (s.thawEnable m) := by simp [State.thawEnable]
@[simp] theorem State.carStep_queueId (s : State) : s.sameQueueId s.carStep := by simp [State.carStep]

@[simp] theorem State.carHoldMachine_queueId (s : State) (m why : Nat) : s.sameQueueId (s.carHoldMachine m why) := by
  simp [State.carHoldMachine]

@[simp] theorem State.carAct_queueId (s : State) (m act why : Nat) (e : Ev) : s.sameQueueId (s.carAct m act why e) := by
  simp [State.carAct]

@[simp] theorem State.conform_queueId (s : State) (m : Nat) (east north hs hc : Rat) (tObs : Nat) :
    s.sameQueueId (s.conform m east north hs hc tObs) := by
  simp [State.conform]

/-! ### The stop latch and SAFE_HOLD (R25, R28 to R30, R332 to R358) -/

@[simp] theorem State.settleOuts_queueId (s : State) : s.sameQueueId s.settleOuts := ⟨rfl, rfl⟩
@[simp] theorem State.stickPad_queueId (s : State) (outB stopped : Bool) : s.sameQueueId (s.stickPad outB stopped) := ⟨rfl, rfl⟩
@[simp] theorem State.holdBodies_queueId (s : State) : s.sameQueueId s.holdBodies := by simp [State.holdBodies]

@[simp] theorem State.sendFabStop_queueId (s : State) (stop : Bool) (count : BitVec 16) (scope window : Nat) :
    s.sameQueueId (s.sendFabStop stop count scope window) := by
  unfold State.sendFabStop
  split <;> simp

@[simp] theorem State.floodStop_queueId (s : State) (scope : Nat) : s.sameQueueId (s.floodStop scope) := by simp [State.floodStop]
@[simp] theorem State.unflood_queueId (s : State) : s.sameQueueId s.unflood := ⟨rfl, rfl⟩

@[simp] theorem State.abandonSlot_queueId (s : State) (p : Nat) (stays : Option Nat) : s.sameQueueId (s.abandonSlot p stays) := by
  simp [State.abandonSlot]

@[simp] theorem State.latchPort_queueId (s : State) (p : Nat) : s.sameQueueId (s.latchPort p) := by
  unfold State.latchPort
  repeat' split
  all_goals simp

@[simp] theorem State.beginStorm_queueId (s : State) : s.sameQueueId s.beginStorm := by simp [State.beginStorm]
@[simp] theorem State.restartStorm_queueId (s : State) : s.sameQueueId s.restartStorm := by simp [State.restartStorm]
@[simp] theorem State.holdFrames_queueId (s : State) : s.sameQueueId s.holdFrames := by simp [State.holdFrames]

@[simp] theorem State.latchEffects_queueId (s : State) (hostCode : Option Nat) (flood : Bool) :
    s.sameQueueId (s.latchEffects hostCode flood) := by
  simp [State.latchEffects]

@[simp] theorem State.joinEvent_queueId (s : State) (src : Nat) (stop : Bool) (hostCode : Option Nat) (flood was : Bool)
    (wasCode : Option Nat) : s.sameQueueId (s.joinEvent src stop hostCode flood was wasCode) := by
  simp [State.joinEvent]

@[simp] theorem State.undoRelease_queueId (s : State) : s.sameQueueId s.undoRelease := by
  unfold State.undoRelease
  split <;> simp

@[simp] theorem State.stopRequest_queueId (s : State) (src : Nat) (stop : Bool) (hostCode : Option Nat) (flood : Bool) :
    s.sameQueueId (s.stopRequest src stop hostCode flood) := by
  unfold State.stopRequest
  dsimp only
  repeat' split
  all_goals simp

@[simp] theorem State.lastFlood_queueId (s : State) : s.sameQueueId s.lastFlood := by
  unfold State.lastFlood
  split
  · simp
  · exact .trans (by simp) (State.foldl_queueId (fun s p => by split <;> simp) ..)

@[simp] theorem State.haltForHold_queueId (s : State) : s.sameQueueId s.haltForHold := by simp [State.haltForHold]
@[simp] theorem State.stopClock_queueId (s : State) : s.sameQueueId s.stopClock := by simp [State.stopClock]
@[simp] theorem State.silenceRadios_queueId (s : State) : s.sameQueueId s.silenceRadios := ⟨rfl, rfl⟩

@[simp] theorem State.noteRefusal_queueId (s : State) (reason rule : Nat) : s.sameQueueId (s.noteRefusal reason rule) :=
  ⟨rfl, rfl⟩

@[simp] theorem Undo.restore_queueId (u : Undo) (s : State) : s.sameQueueId (Undo.restore u s) := ⟨rfl, rfl⟩

@[simp] theorem State.abandonCheck_queueId (s : State) : s.sameQueueId s.abandonCheck := by
  unfold State.abandonCheck
  split <;> simp

@[simp] theorem State.stormAll_queueId (s : State) : s.sameQueueId s.stormAll := by simp [State.stormAll]
@[simp] theorem State.addCause_queueId (s : State) (cause : Nat) : s.sameQueueId (s.addCause cause) := by simp [State.addCause]

@[simp] theorem State.fatal_queueId (s : State) (cause : Nat) : s.sameQueueId (s.fatal cause) := by
  unfold State.fatal
  split <;> simp

/-! ### Resets, power and temperature (R24 to R30, R518 to R525) -/

@[simp] theorem State.moveBoundary_queueId (s : State) : s.sameQueueId s.moveBoundary := by simp [State.moveBoundary]

@[simp] theorem State.flushForReset_queueId (s : State) (cause : Nat) : s.sameQueueId (s.flushForReset cause) := by
  simp [State.flushForReset]

@[simp] theorem State.restart_queueId (s : State) (cause : Nat) : s.sameQueueId (s.restart cause) := by simp [State.restart]
@[simp] theorem State.seed_queueId (s : State) : s.sameQueueId s.seed := by simp [State.seed]

@[simp] theorem State.leaveReset_queueId (s : State) (recoveryLow : Bool) : s.sameQueueId (s.leaveReset recoveryLow) := by
  simp [State.leaveReset]

theorem execPfailFall_queueId (now : Timed Nat) (s : State) : reaches (execPfailFall now s) s.sameQueueId := by
  refine ⟨_, rfl, ?_⟩
  dsimp only
  repeat' split
  all_goals simp

theorem execPfailClear_queueId (dt : Nat) (s : State) : reaches (execPfailClear dt s) s.sameQueueId := by
  refine ⟨_, rfl, ?_⟩
  dsimp only
  repeat' split
  all_goals simp

theorem execStageSlowFatal_queueId (dt : Nat) (s : State) : reaches (execStageSlowFatal dt s) s.sameQueueId := by
  refine ⟨_, rfl, ?_⟩
  split <;> simp

theorem execDieLinkFail_queueId (dt : Nat) (s : State) : reaches (execDieLinkFail dt s) s.sameQueueId := by
  refine ⟨_, rfl, ?_⟩
  split <;> simp

theorem execSecurityCoreFault_queueId (dt : Nat) (s : State) : reaches (execSecurityCoreFault dt s) s.sameQueueId := by
  refine ⟨_, rfl, ?_⟩
  split <;> simp

/-! ### Boot, update, recovery and migration (R493 to R500) -/

@[simp] theorem State.commitPtr_queueId (s : State) (p : BootPtr) (run : NvRun) : s.sameQueueId (s.commitPtr p run).1 := by
  unfold State.commitPtr
  split <;> next h => simp [(State.bootWrite_queueId ..).of_eq h]

@[simp] theorem State.noteFail_queueId (s : State) (n : Nat) : s.sameQueueId (s.noteFail n) := ⟨rfl, rfl⟩

@[simp] theorem State.bootActive_queueId (s : State) (run : NvRun) : s.sameQueueId (s.bootActive run) := by
  unfold State.bootActive
  dsimp only
  split
  · simp
  · split
    · split <;> next h => simp [(State.commitPtr_queueId ..).of_eq h]
    · simp

@[simp] theorem State.rollback_queueId (s : State) (run : NvRun) : s.sameQueueId (s.rollback run) := by
  unfold State.rollback
  split <;> next h => simp [(State.commitPtr_queueId ..).of_eq h]

theorem execRomSlotSelect_queueId (now : Timed NvRun) (s : State) : reaches (execRomSlotSelect now s) s.sameQueueId := by
  refine ⟨_, rfl, ?_⟩
  dsimp only
  split
  · simp
  · split
    · simp
    · split
      · simp
      · split
        · next h => simp [(State.commitPtr_queueId ..).of_eq h]
        · next h => split <;> simp [(State.commitPtr_queueId ..).of_eq h]

@[simp] theorem migrateSlot_queueId (acc : State × NvRun × NvEnd) (e : Nat × Migration) :
    acc.1.sameQueueId (migrateSlot acc e).1 := by
  unfold migrateSlot
  split
  · split
    · simp
    · split <;> next h => simp [(State.nvWrite_queueId ..).of_eq h]
  · simp

@[simp] theorem State.applyMigration_queueId (s : State) (run : NvRun) : s.sameQueueId (s.applyMigration run).1 := by
  simp [State.applyMigration]

@[simp] theorem State.endMigration_queueId (s : State) (run : NvRun) : s.sameQueueId (s.endMigration run).1 := by
  unfold State.endMigration
  split <;> next h => simp [(State.commitPtr_queueId ..).of_eq h]

@[simp] theorem State.finishMigration_queueId (s : State) (run : NvRun) : s.sameQueueId (s.finishMigration run).1 := by
  unfold State.finishMigration
  split
  · next h => simp [(State.applyMigration_queueId ..).of_eq h]
  · simp

@[simp] theorem State.migrateNow_queueId (s : State) (run : NvRun) : s.sameQueueId (s.migrateNow run).1 := by
  unfold State.migrateNow
  split
  · simp
  · split <;> next h => simp [(State.commitPtr_queueId ..).of_eq h]

@[simp] theorem State.startKeys_queueId (s : State) : s.sameQueueId s.startKeys := by simp [State.startKeys]
@[simp] theorem State.startCores_queueId (s : State) : s.sameQueueId s.startCores := by simp [State.startCores]

theorem execFirmwareStart_queueId (now : Timed NvRun) (levels : BitVec 4) (s : State) :
    reaches (execFirmwareStart now levels s) s.sameQueueId := by
  refine ⟨_, rfl, ?_⟩
  dsimp only
  split
  · simp
  · split
    · simp
    · split <;> next h => simp [(State.finishMigration_queueId ..).of_eq h]

@[simp] theorem State.beginUpdate_queueId (s : State) (h : List Byte) : s.sameQueueId (s.beginUpdate h).1 := by
  unfold State.beginUpdate
  dsimp only
  repeat' split
  all_goals simp

@[simp] theorem State.writeUpdate_queueId (s : State) (u : Update) (b : List Byte) : s.sameQueueId (s.writeUpdate u b) := by
  simp [State.writeUpdate]

@[simp] theorem State.writeTable_queueId (s : State) (u : Update) (run : NvRun) : s.sameQueueId (s.writeTable u run).1 := by
  unfold State.writeTable
  dsimp only
  repeat' split
  any_goals simp
  all_goals next h => simp [(State.bootWrite_queueId ..).of_eq h]

@[simp] theorem State.finishUpdate_queueId (s : State) (run : NvRun) : s.sameQueueId (s.finishUpdate run).1 := by
  unfold State.finishUpdate
  split
  · simp
  · split
    · simp
    · split
      · simp
      · split
        · simp
        · split
          · simp
          · split
            · next hw =>
              split <;> next h => simp [(State.commitPtr_queueId ..).of_eq h, (State.writeTable_queueId ..).of_eq hw]
            · next hw => simp [(State.writeTable_queueId ..).of_eq hw]

@[simp] theorem State.unlessHeld_queueId {f : State → State} (hf : ∀ s, State.sameQueueId s (f s)) (s : State) (d : Desc) :
    s.sameQueueId (s.unlessHeld d f) := by
  simp [State.unlessHeld, hf]

@[simp] theorem State.completeNv_queueId (s : State) (d : Desc) (st : Option Nat) : s.sameQueueId (s.completeNv d st) := by
  unfold State.completeNv
  split <;> simp

theorem execBootUpdateBegin_queueId (dt ring index : Nat) (payload : List Byte) (s : State) :
    reaches (execBootUpdateBegin dt ring index payload s) s.sameQueueId := by
  refine ⟨_, rfl, State.withDesc_queueId (fun s d => State.unlessHeld_queueId (fun s => ?_) s d) ..⟩
  repeat' split
  any_goals simp
  all_goals next h => simp [(State.beginUpdate_queueId ..).of_eq h]

theorem execBootUpdateWrite_queueId (dt ring index : Nat) (payload : List Byte) (s : State) :
    reaches (execBootUpdateWrite dt ring index payload s) s.sameQueueId := by
  refine ⟨_, rfl, State.withDesc_queueId (fun s d => State.unlessHeld_queueId (fun s => ?_) s d) ..⟩
  repeat' split
  all_goals simp

@[simp] theorem State.confirmPtr_queueId (s : State) (run : NvRun) : s.sameQueueId (s.confirmPtr run).1 := by
  simp [State.confirmPtr]

theorem execBootConfirm_queueId (dt ring index : Nat) (run : NvRun) (s : State) :
    reaches (execBootConfirm dt ring index run s) s.sameQueueId := by
  refine ⟨_, rfl, State.withDesc_queueId (fun s d => State.unlessHeld_queueId (fun s => ?_) s d) ..⟩
  split
  · simp
  · split
    · simp
    · split
      · next hm =>
        dsimp only
        split <;> next h => simp [(State.confirmPtr_queueId ..).of_eq h, (State.migrateNow_queueId ..).of_eq hm]
      · next hm => simp [(State.migrateNow_queueId ..).of_eq hm]

theorem execBootPeerServe_queueId (dt ring index : Nat) (s : State) :
    reaches (execBootPeerServe dt ring index s) s.sameQueueId := by
  refine ⟨_, rfl, State.withDesc_queueId (fun s d => State.unlessHeld_queueId (fun s => ?_) s d) ..⟩
  dsimp only
  split <;> simp

@[simp] theorem State.recoveryBytes_queueId (s : State) (b : List Byte) : s.sameQueueId (s.recoveryBytes b) := by
  unfold State.recoveryBytes
  dsimp only
  repeat' split
  all_goals simp

theorem execRecoveryDataReceived_queueId (now : Timed NvRun) (frame : List Byte) (s : State) :
    reaches (execRecoveryDataReceived now frame s) s.sameQueueId := by
  refine ⟨_, rfl, ?_⟩
  dsimp only
  repeat' split
  any_goals simp
  all_goals next h => simp [(State.finishUpdate_queueId ..).of_eq h]

theorem execNvmCfgGet_queueId (dt ring index : Nat) (s : State) : reaches (execNvmCfgGet dt ring index s) s.sameQueueId := by
  refine ⟨_, rfl, State.withDesc_queueId (fun s d => ?_) ..⟩
  repeat' split
  all_goals simp

@[simp] theorem State.userXfer_queueId {f : State → Desc → Nat → State} (hf : ∀ s d n, State.sameQueueId s (f s d n)) (s : State)
    (d : Desc) : s.sameQueueId (s.userXfer d f) := by
  simp [State.userXfer, hf]

@[simp] theorem State.putUser_queueId (s : State) (a : Nat) (b : List Byte) : s.sameQueueId (s.putUser a b) := ⟨rfl, rfl⟩

@[simp] theorem userBlock_queueId (o : Nat) (b : List Byte) (acc : State × NvRun × NvEnd) (blk : Nat) :
    acc.1.sameQueueId (userBlock o b acc blk).1 := by
  unfold userBlock
  dsimp only
  split
  · simp
  · split
    · simp
    · split <;> next h => simp [(State.nvWrite_queueId ..).of_eq h]

theorem execNvmUserWrite_queueId (dt ring index : Nat) (payload : List Byte) (run : NvRun) (s : State) :
    reaches (execNvmUserWrite dt ring index payload run s) s.sameQueueId := by
  refine ⟨_, rfl, State.withDesc_queueId (fun s d => State.userXfer_queueId (fun s d o => ?_) s d) ..⟩
  simp

/-! ### Thread control, waits and posts (R429 to R444) -/

@[simp] theorem State.onCore_queueId {f : State → Nat → State} (hf : ∀ s n, State.sameQueueId s (f s n)) (s : State) (core : Nat) :
    s.sameQueueId (s.onCore core f) := by
  unfold State.onCore
  repeat' split
  all_goals simp [hf]

@[simp] theorem State.retire_queueId (s : State) (t : Nat) : s.sameQueueId (s.retire t) := by simp [State.retire]

@[simp] theorem State.retireRd_queueId (s : State) (t rd : Nat) (v : Word) : s.sameQueueId (s.retireRd t rd v) := by
  simp [State.retireRd]

@[simp] theorem State.trap_queueId (s : State) (core t : Nat) (cause : Word) : s.sameQueueId (s.trap core t cause) := by
  simp [State.trap]

@[simp] theorem State.trapIllegal_queueId (s : State) (core t : Nat) : s.sameQueueId (s.trapIllegal core t) := by
  simp [State.trapIllegal]

@[simp] theorem State.machineCsr_queueId {f : State → State} (hf : ∀ s, State.sameQueueId s (f s)) (s : State) (core : Nat) :
    s.sameQueueId (s.machineCsr core f) := by
  simp [State.machineCsr, hf]

@[simp] theorem State.select_queueId (s : State) (core thread : Nat) : s.sameQueueId (s.select core thread) := ⟨rfl, rfl⟩

@[simp] theorem State.onSelected_queueId {f : State → State} (hf : ∀ s, State.sameQueueId s (f s)) (s : State) (core thread : Nat) :
    s.sameQueueId (s.onSelected core thread f) := by
  simp [State.onSelected, hf]

@[simp] theorem State.unready_queueId (s : State) (t : Nat) : s.sameQueueId (s.unready t) := by simp [State.unready]
@[simp] theorem State.startThread_queueId (s : State) (t : Nat) : s.sameQueueId (s.startThread t) := by simp [State.startThread]

@[simp] theorem State.suspendThread_queueId (s : State) (t : Nat) : s.sameQueueId (s.suspendThread t) := by
  unfold State.suspendThread
  dsimp only
  repeat' split
  all_goals simp

@[simp] theorem State.resumeThread_queueId (s : State) (t : Nat) : s.sameQueueId (s.resumeThread t) := by
  simp [State.resumeThread]

@[simp] theorem State.killThread_queueId (s : State) (t : Nat) : s.sameQueueId (s.killThread t) := by
  unfold State.killThread
  dsimp only
  repeat' split
  all_goals simp

@[simp] theorem State.yieldTo_queueId (s : State) (core t : Nat) : s.sameQueueId (s.yieldTo core t) := by
  unfold State.yieldTo
  split <;> simp

@[simp] theorem State.dcfgWrite_queueId (s : State) (t : Nat) (v : Word) : s.sameQueueId (s.dcfgWrite t v) := by
  unfold State.dcfgWrite
  dsimp only
  repeat' split
  all_goals simp

@[simp] theorem State.dcacheInv_queueId (s : State) (core : Nat) : s.sameQueueId (s.dcacheInv core) := ⟨rfl, rfl⟩

@[simp] theorem State.waitOn_queueId (s : State) (core t rd : Nat) (mask : Word) (all : Bool) :
    s.sameQueueId (s.waitOn core t rd mask all) := by
  simp [State.waitOn]

@[simp] theorem State.softPost_queueId (s : State) (t : Nat) (value : Word) : s.sameQueueId (s.softPost t value) := by
  simp [State.softPost]

@[simp] theorem State.yieldThread_queueId (s : State) (core t : Nat) : s.sameQueueId (s.yieldThread core t) := by
  unfold State.yieldThread
  repeat' split
  all_goals simp

@[simp] theorem State.kick_queueId (s : State) (t k : Nat) : s.sameQueueId (s.kick t k) := by simp [State.kick]

@[simp] theorem State.clearFlags_queueId (s : State) (t : Nat) (mask : Word) : s.sameQueueId (s.clearFlags t mask) := by
  simp [State.clearFlags]

@[simp] theorem State.tableXfer_queueId {f : State → Desc → Nat → Nat → State} (hf : ∀ s d n k, State.sameQueueId s (f s d n k))
    (s : State) (d : Desc) (size w first count : Nat) : s.sameQueueId (s.tableXfer d size w first count f) := by
  simp [State.tableXfer, hf]

@[simp] theorem State.routeXfer_queueId {f : State → Desc → Nat → Nat → State} (hf : ∀ s d n k, State.sameQueueId s (f s d n k))
    (s : State) (d : Desc) : s.sameQueueId (s.routeXfer d f) := by
  simp [State.routeXfer, hf]

/-! ### Caravan Engine commands (R282 to R296) -/

@[simp] theorem State.serveReq_queueId (s : State) : s.sameQueueId s.serveReq := by
  unfold State.serveReq
  split <;> simp

@[simp] theorem State.toHostQueue_queueId (s : State) (r : Req) : s.sameQueueId (s.toHostQueue r) := by simp [State.toHostQueue]

theorem execCarRequestDecide_queueId (dt us : Nat) (s : State) : reaches (execCarRequestDecide dt us s) s.sameQueueId := by
  unfold execCarRequestDecide
  dsimp only
  refine ⟨_, rfl, ?_⟩
  split
  · simp
  · split
    · simp
    · split <;> next h => simp [(State.carDecide_queueId ..).of_eq h]

theorem execCarHostTimeout_queueId (dt : Nat) (s : State) : reaches (execCarHostTimeout dt s) s.sameQueueId := by
  refine ⟨_, rfl, ?_⟩
  repeat' split
  all_goals simp

@[simp] theorem State.withCar_queueId {f : State → Desc → State} (hf : ∀ s d, State.sameQueueId s (f s d)) (s : State)
    (ring index op : Nat) (variant : Desc → Bool) (dram : Bool) : s.sameQueueId (s.withCar ring index op variant dram f) := by
  refine State.withDesc_queueId (fun s d => ?_) ..
  split <;> simp [hf]

@[simp] theorem State.loadTracks_queueId (s : State) (k : Nat) (l : List (List Byte)) : s.sameQueueId (s.loadTracks k l).1 := by
  induction l generalizing s k with
  | nil => simp [State.loadTracks]
  | cons b r ih =>
    unfold State.loadTracks
    dsimp only
    split <;> simp [ih]

theorem execCarTrackRead_queueId (dt ring index : Nat) (s : State) :
    reaches (execCarTrackRead dt ring index s) s.sameQueueId := by
  refine ⟨_, rfl, State.withDesc_queueId (fun s d => ?_) ..⟩
  split
  · simp
  · exact State.withCar_queueId (fun s d => State.tableXfer_queueId (fun s d f c => by simp) s d ..) ..

@[simp] theorem State.carReserve_queueId (s : State) (d : Desc) (payload : List Byte) :
    s.sameQueueId (s.carReserve d payload) := by
  simp [State.carReserve]

@[simp] theorem State.carReqGet_queueId (s : State) (d : Desc) : s.sameQueueId (s.carReqGet d) := by simp [State.carReqGet]
@[simp] theorem State.carRelease_queueId (s : State) (d : Desc) : s.sameQueueId (s.carRelease d) := by simp [State.carRelease]
@[simp] theorem State.carResume_queueId (s : State) (d : Desc) : s.sameQueueId (s.carResume d) := by simp [State.carResume]

/-! ### Rover observations (R203 to R206) -/

@[simp] theorem State.abandonEpoch_queueId (s : State) (m n reason : Nat) : s.sameQueueId (s.abandonEpoch m n reason) := by
  simp [State.abandonEpoch]

@[simp] theorem State.abandonAsm_queueId (s : State) (m reason : Nat) : s.sameQueueId (s.abandonAsm m reason) := by
  unfold State.abandonAsm
  split <;> simp

@[simp] theorem State.completeEpoch_queueId (s : State) (m : Nat) (a : Assembly) : s.sameQueueId (s.completeEpoch m a) := by
  unfold State.completeEpoch
  repeat' split
  all_goals simp

@[simp] theorem State.holdFragment_queueId (s : State) (m : Nat) (a : Assembly) (i : Nat) (data : List Byte) :
    s.sameQueueId (s.holdFragment m a i data) := by
  simp [State.holdFragment]

@[simp] theorem State.takeFragment_queueId (s : State) (m : Nat) (b : List Byte) : s.sameQueueId (s.takeFragment m b) := by
  unfold State.takeFragment
  repeat' split
  all_goals simp

/-! ### GNSS channels and epochs (R154 to R167) -/

@[simp] theorem State.modChan_queueId (s : State) (c : Nat) (f : Chan → Chan) : s.sameQueueId (s.modChan c f) := by
  simp [State.modChan]

@[simp] theorem State.startChan_queueId (s : State) (c code svid : Nat) (slot : Int) (cfg : LoopCfg) (phase doppler : Rat) :
    s.sameQueueId (s.startChan c code svid slot cfg phase doppler) := by
  simp [State.startChan]

@[simp] theorem State.startDefault_queueId (s : State) (c code svid : Nat) (slot : Int) (phase doppler : Rat) :
    s.sameQueueId (s.startDefault c code svid slot phase doppler) := by
  simp [State.startDefault]

@[simp] theorem State.learnLeap_queueId (s : State) (l : Nat) : s.sameQueueId (s.learnLeap l) := by simp [State.learnLeap]

@[simp] theorem State.loopUpdate_queueId (s : State) (k : Nat) (x : LoopIn) : s.sameQueueId (s.loopUpdate k x) := by
  unfold State.loopUpdate
  repeat' split
  all_goals simp

@[simp] theorem State.latchEpoch_queueId (s : State) : s.sameQueueId s.latchEpoch := by simp [State.latchEpoch]
@[simp] theorem State.gnsStep_queueId (s : State) (e : Int) : s.sameQueueId (s.gnsStep e) := by simp [State.gnsStep]

/-! ### The Mirage Monitor's checks and levels (R168 to R192) -/

@[simp] theorem State.riseTo_queueId (s : State) (n : Nat) : s.sameQueueId (s.riseTo n) := by simp [State.riseTo]

@[simp] theorem State.mirSettleTo_queueId (s : State) (cap : Nat) : s.sameQueueId (s.mirSettleTo cap) := by
  simp [State.mirSettleTo]

@[simp] theorem State.mirSettle_queueId (s : State) : s.sameQueueId s.mirSettle := by simp [State.mirSettle]

@[simp] theorem State.evalCond_queueId {ev : State → State} (hev : ∀ s, State.sameQueueId s (ev s)) (s : State) (check key : Nat)
    (holds : Bool) (systems signals : List Nat) (level : Nat) :
    s.sameQueueId (s.evalCond check key holds systems signals level ev) := by
  unfold State.evalCond
  dsimp only
  repeat' split
  all_goals simp [hev]

@[simp] theorem State.dropDisabled_queueId (s : State) : s.sameQueueId s.dropDisabled := ⟨rfl, rfl⟩

@[simp] theorem State.checkUniform_queueId (s : State) (a : List Entry) (x : MeasIn) (fe : Nat) :
    s.sameQueueId (s.checkUniform a x fe) := by
  simp [State.checkUniform]

@[simp] theorem State.checkAgc_queueId (s : State) (a : List Entry) (fe : Nat) : s.sameQueueId (s.checkAgc a fe) := by
  simp [State.checkAgc]

@[simp] theorem State.learnAgc_queueId (s : State) (l : List Entry) (fe : Nat) : s.sameQueueId (s.learnAgc l fe) := by
  simp [State.learnAgc]

@[simp] theorem State.checkCarrier_queueId (s : State) (tr : Nat) (e : Entry) : s.sameQueueId (s.checkCarrier tr e) := by
  unfold State.checkCarrier
  dsimp only
  repeat' split
  all_goals simp

@[simp] theorem State.checkTwoAnt_queueId (s : State) (a b : List Entry) : s.sameQueueId (s.checkTwoAnt a b) := by
  simp [State.checkTwoAnt]

@[simp] theorem State.checkClock_queueId (s : State) (e : Option Rat) : s.sameQueueId (s.checkClock e) := by
  simp [State.checkClock]

@[simp] theorem State.checkIsys_queueId (s : State) (bcast : List (Nat × Int)) : s.sameQueueId (s.checkIsys bcast) := by
  simp [State.checkIsys]

@[simp] theorem State.keepSecond_queueId (s : State) (a : List Entry) (x : MeasIn) (spot : Option (Int × Int × Int)) :
    s.sameQueueId (s.keepSecond a x spot) :=
  ⟨rfl, rfl⟩

@[simp] theorem State.checkBase_queueId (s : State) (a : List Entry) (x : MeasIn) (spot : Option (Int × Int × Int)) :
    s.sameQueueId (s.checkBase a x spot) := by
  simp [State.checkBase]

@[simp] theorem State.checkFde_queueId (s : State) (a : List Entry) (x : MeasIn) : s.sameQueueId (s.checkFde a x) := by
  simp [State.checkFde]

@[simp] theorem State.mirRecord_queueId (s : State) (tr : Nat) (a b : List Entry) (both second : Bool) (solved : Bool)
    (e : Option Rat) (x : MeasIn) : s.sameQueueId (s.mirRecord tr a b both second solved e x) := by
  simp [State.mirRecord]

@[simp] theorem State.checkRover_queueId (s : State) (m tObs status : Nat) (east north : Int) :
    s.sameQueueId (s.checkRover m tObs status east north) := by
  unfold State.checkRover
  repeat' split
  all_goals simp

/-! ### PTP (R89 to R91) -/

@[simp] theorem State.runBmca_queueId (s : State) : s.sameQueueId s.runBmca := by simp [State.runBmca]

@[simp] theorem State.setNbrOffset_queueId (s : State) (p : Nat) (off : Int) : s.sameQueueId (s.setNbrOffset p off) := by
  simp [State.setNbrOffset]

@[simp] theorem State.sendPtp_queueId (s : State) (p : Nat) (m : List Byte) : s.sameQueueId (s.sendPtp p m) := by
  simp [State.sendPtp]

@[simp] theorem State.timeSent_queueId (s : State) (p : Nat) (f : List Byte) : s.sameQueueId (s.timeSent p f) := by
  simp [State.timeSent]

@[simp] theorem State.dequeueFrame_queueId (s : State) (p : Nat) : s.sameQueueId (s.dequeueFrame p) := by
  unfold State.dequeueFrame
  dsimp only
  repeat' split
  all_goals simp

@[simp] theorem State.takeAnnounce_queueId (s : State) (p : Nat) (m : List Byte) : s.sameQueueId (s.takeAnnounce p m) := by
  simp [State.takeAnnounce]

@[simp] theorem State.takeFollowUp_queueId (s : State) (p : Nat) (m : List Byte) : s.sameQueueId (s.takeFollowUp p m) := by
  unfold State.takeFollowUp
  split <;> simp

@[simp] theorem State.takePdelay_queueId (s : State) (p : Nat) (m : List Byte) (phase : Nat) :
    s.sameQueueId (s.takePdelay p m phase) := by
  unfold State.takePdelay
  repeat' split
  all_goals simp

@[simp] theorem State.ptpReceive_queueId (s : State) (p : Nat) (m : List Byte) (phase : Nat) :
    s.sameQueueId (s.ptpReceive p m phase) := by
  simp [State.ptpReceive]

@[simp] theorem State.ptpSend_queueId (s : State) (p kind : Nat) : s.sameQueueId (s.ptpSend p kind) := by
  unfold State.ptpSend
  split <;> simp

/-! ### Fabric Interface commands (R389 to R426) -/

@[simp] theorem State.serveRtcm_queueId (s : State) (source epoch peer : Nat) (frames : List (List Byte)) :
    s.sameQueueId (s.serveRtcm source epoch peer frames) := by
  unfold State.serveRtcm
  split <;> simp

@[simp] theorem State.takeCorrection_queueId (s : State) (f : List Byte) : s.sameQueueId (s.takeCorrection f) := by
  simp [State.takeCorrection]

@[simp] theorem State.takeMachineMsg_queueId (s : State) (p : Nat) (f : List Byte) : s.sameQueueId (s.takeMachineMsg p f) := by
  unfold State.takeMachineMsg
  dsimp only
  split
  · simp
  · split
    · split
      · simp
      · next m _ _ =>
        cases h : s.queueMessage m (s.machLink m).port ((frBody f).drop 20) none with
        | none => simp
        | some t => simp [State.queueMessage_queueId h]
    · simp

@[simp] theorem State.takeStop_queueId (s : State) (p : Nat) (f : List Byte) (relay : Bool) :
    s.sameQueueId (s.takeStop p f relay) := by
  simp [State.takeStop]

@[simp] theorem State.takeRecovery_queueId (s : State) (p : Nat) (f : List Byte) : s.sameQueueId (s.takeRecovery p f) := by
  simp [State.takeRecovery]

@[simp] theorem State.deliverFrame_queueId (s : State) (p : Nat) (f : List Byte) : s.sameQueueId (s.deliverFrame p f) := by
  unfold State.deliverFrame
  split <;> simp

@[simp] theorem State.takeFlood_queueId (s : State) (p : Nat) (f : List Byte) : s.sameQueueId (s.takeFlood p f) := by
  unfold State.takeFlood
  split <;> simp

@[simp] theorem State.forwardFrame_queueId (s : State) (p : Nat) (f : List Byte) : s.sameQueueId (s.forwardFrame p f) := by
  unfold State.forwardFrame
  repeat' split
  all_goals simp

@[simp] theorem State.handleFrame_queueId (s : State) (p : Nat) (f : List Byte) : s.sameQueueId (s.handleFrame p f) := by
  simp [State.handleFrame]

@[simp] theorem State.meetLoop_queueId (s : State) (f : List Byte) : s.sameQueueId (s.meetLoop f) := by
  unfold State.meetLoop
  repeat' split
  all_goals simp

@[simp] theorem State.receiveFrame_queueId (s : State) (p : Nat) (f : List Byte) : s.sameQueueId (s.receiveFrame p f) := by
  simp [State.receiveFrame]

@[simp] theorem State.receiveIf_queueId (s : State) (p : Nat) (f : List Byte) (is : Bool) :
    s.sameQueueId (s.receiveIf p f is) := by
  simp [State.receiveIf]

theorem execFabLinkTimeout_queueId (dt port : Nat) (s : State) : reaches (execFabLinkTimeout dt port s) s.sameQueueId := by
  refine ⟨_, rfl, ?_⟩
  repeat' split
  all_goals simp

theorem execFabPcsLoss_queueId (dt port : Nat) (hiBer : Bool) (s : State) :
    reaches (execFabPcsLoss dt port hiBer s) s.sameQueueId := by
  refine ⟨_, rfl, ?_⟩
  split <;> simp

theorem execFabBlockLock_queueId (dt port : Nat) (s : State) : reaches (execFabBlockLock dt port s) s.sameQueueId := by
  refine ⟨_, rfl, ?_⟩
  split <;> simp

theorem execFabModuleChange_queueId (dt port : Nat) (present los : Bool) (s : State) :
    reaches (execFabModuleChange dt port present los s) s.sameQueueId := by
  refine ⟨_, rfl, ?_⟩
  split <;> simp

theorem execFabLsaExpire_queueId (dt : Nat) (s : State) : reaches (execFabLsaExpire dt s) s.sameQueueId := by
  refine ⟨_, rfl, ?_⟩
  split <;> simp

theorem execFabSpfRun_queueId (dt : Nat) (s : State) : reaches (execFabSpfRun dt s) s.sameQueueId := by
  refine ⟨_, rfl, ?_⟩
  split <;> simp

@[simp] theorem State.serveRepeat_queueId (s : State) (r : StopRepeat) : s.sameQueueId (s.serveRepeat r).1 := by
  unfold State.serveRepeat
  split <;> simp

@[simp] theorem State.deliverOwn_queueId (s : State) (cls type : Nat) (body : List Byte) (hops : Nat) :
    s.sameQueueId (s.deliverOwn cls type body hops) := by
  simp [State.deliverOwn]

@[simp] theorem State.fabSend_queueId (s : State) (d : Desc) (payload : List Byte) : s.sameQueueId (s.fabSend d payload) := by
  unfold State.fabSend
  extract_lets c cls relay hops n t d hops' most data type m srcEui dest
  have ht : s.sameQueueId t := State.countClamps_queueId ..
  split
  · simp [ht]
  · split
    · simp [ht]
    · split
      · simp [ht]
      · split
        · simp [ht]
        · split
          next u home h =>
          have hu : s.sameQueueId u := .of_eq (by split <;> simp [ht]) h
          split
          · simp [hu]
          · extract_lets mseq body noteMseq
            have hn (s : State) : s.sameQueueId (noteMseq s) := by simp [noteMseq]
            split
            · simp [hn, hu]
            · split
              · simp [hu]
              · split
                · simp [hu]
                · split
                  next hv =>
                  split <;> next hw =>
                    simp [hn, (State.enqueueFrame_queueId ..).of_eq hw, (State.nextSeq_queueId ..).of_eq hv, hu]

@[simp] theorem State.waitAtMost_queueId (s : State) (d : Desc) (most : Nat) (p : Desc → Bool) :
    s.sameQueueId (s.waitAtMost d most p) := by
  simp [State.waitAtMost]

theorem execFabRecv_queueId (dt ring index : Nat) (s : State) : reaches (execFabRecv dt ring index s) s.sameQueueId :=
  ⟨_, rfl, State.withDesc_queueId (fun s d => by split <;> simp) ..⟩

@[simp] theorem State.fabLearn_queueId {f : State → Desc → State} (hf : ∀ s d, State.sameQueueId s (f s d)) (s : State) (d : Desc) :
    s.sameQueueId (s.fabLearn d f) := by
  unfold State.fabLearn
  split <;> simp [hf]

@[simp] theorem State.learnInsertOp_queueId (s : State) (d : Desc) : s.sameQueueId (s.learnInsertOp d) := by
  unfold State.learnInsertOp
  dsimp only
  repeat' split
  all_goals simp

theorem execFabLearnRemove_queueId (dt ring index : Nat) (s : State) :
    reaches (execFabLearnRemove dt ring index s) s.sameQueueId :=
  ⟨_, rfl, State.withDesc_queueId (fun s d => State.fabLearn_queueId (fun s d => by split <;> simp) s d) ..⟩

theorem execFabLearnLookup_queueId (dt ring index : Nat) (s : State) :
    reaches (execFabLearnLookup dt ring index s) s.sameQueueId := by
  refine ⟨_, rfl, State.withDesc_queueId (fun s d => State.fabLearn_queueId (fun s d => ?_) s d) ..⟩
  dsimp only
  split <;> next h => simp [(State.learnLookup_queueId ..).of_eq h]

theorem execFabLearnEvent_queueId (dt ring index : Nat) (s : State) :
    reaches (execFabLearnEvent dt ring index s) s.sameQueueId :=
  ⟨_, rfl, State.withDesc_queueId (fun s d => by split <;> simp) ..⟩

@[simp] theorem State.fabModule_queueId {f : State → Desc → Nat → Nat → State} (hf : ∀ s d n k, State.sameQueueId s (f s d n k))
    (s : State) (d : Desc) : s.sameQueueId (s.fabModule d f) := by
  unfold State.fabModule
  dsimp only
  repeat' split
  all_goals simp [hf]

theorem execFabModuleWrite_queueId (dt ring index : Nat) (payload : List Byte) (acked : Nat) (s : State) :
    reaches (execFabModuleWrite dt ring index payload acked s) s.sameQueueId := by
  refine ⟨_, rfl, State.withDesc_queueId (fun s d => ?_) ..⟩
  split <;> simp

/-! ### RTCM messages and their queues (R195 to R201) -/

@[simp] theorem State.keepShifts_queueId (s : State) (l : List Entry) : s.sameQueueId (s.keepShifts l) := ⟨rfl, rfl⟩
@[simp] theorem State.countStale_queueId (s : State) (n : Nat) : s.sameQueueId (s.countStale n) := by simp [State.countStale]

@[simp] theorem State.queueRadio_queueId (s : State) (p tr : Nat) (frames : List (List Byte)) :
    s.sameQueueId (s.queueRadio p tr frames) := by
  simp [State.queueRadio]

@[simp] theorem State.sendFabCorr_queueId (s : State) (frames : List (List Byte)) : s.sameQueueId (s.sendFabCorr frames) := by
  simp [State.sendFabCorr]

@[simp] theorem State.fixMissed_queueId (s : State) (tr : Nat) : s.sameQueueId (s.fixMissed tr) := by simp [State.fixMissed]
@[simp] theorem State.fixRecord_queueId (s : State) (r : MeasRec) : s.sameQueueId (s.fixRecord r) := by simp [State.fixRecord]

/-! ### GNSS Receiver commands (R141 to R167) -/

@[simp] theorem State.noteClamps_queueId (s : State) (d : Desc) (n : Nat) : s.sameQueueId (s.noteClamps d n).1 := by
  simp [State.noteClamps]

theorem execGnsCapture_queueId (dt ring index : Nat) (s : State) :
    reaches (execGnsCapture dt ring index s) s.sameQueueId :=
  ⟨_, rfl, State.withDesc_queueId (fun s d => by split <;> simp) ..⟩

theorem execGnsCaptureDone_queueId (dt ring index : Nat) (i q : List (BitVec 4)) (s : State) :
    reaches (execGnsCaptureDone dt ring index i q s) s.sameQueueId := by
  refine ⟨_, rfl, ?_⟩
  repeat' split
  all_goals simp

theorem execGnsAcq_queueId (dt ring index : Nat) (s : State) : reaches (execGnsAcq dt ring index s) s.sameQueueId :=
  ⟨_, rfl, State.withDesc_queueId (fun s d => by split <;> simp) ..⟩

@[simp] theorem State.nextSearch_queueId (s : State) : s.sameQueueId s.nextSearch := ⟨rfl, rfl⟩

@[simp] theorem State.acqEnd_queueId (s : State) (d : Desc) (r : AcqReq) (best : Option (Nat × Int × Rat)) (used : Nat) :
    s.sameQueueId (s.acqEnd d r best used) := by
  unfold State.acqEnd
  split <;> simp

@[simp] theorem State.autoStart_queueId (s : State) (k code svid : Nat) (slot : Int) (cell : Nat) (offset : Int) :
    s.sameQueueId (s.autoStart k code svid slot cell offset) := by
  simp [State.autoStart]

theorem execGnsAcqDone_queueId (dt : Nat) (search : AcqEnd) (s : State) :
    reaches (execGnsAcqDone dt search s) s.sameQueueId := by
  refine ⟨_, rfl, ?_⟩
  dsimp only
  split
  · simp
  · cases search with
    | host ring index dwells =>
      dsimp only
      split
      · split
        · split <;> simp
        · simp
      · simp
    | auto antenna code svid slot cell offset =>
      dsimp only
      split
      · simp
      · split <;> simp

@[simp] theorem State.chanCfg_queueId {f : State → Desc → Nat → State} (hf : ∀ s d n, State.sameQueueId s (f s d n)) (s : State)
    (d : Desc) : s.sameQueueId (s.chanCfg d f) := by
  unfold State.chanCfg
  split <;> simp [hf]

@[simp] theorem State.chanGone_queueId (s : State) (chan : Nat) (config : Bool) : s.sameQueueId (s.chanGone chan config) := by
  simp [State.chanGone]

@[simp] theorem State.setGains_queueId (s : State) (fe : Nat) (gains : List Nat) : s.sameQueueId (s.setGains fe gains) :=
  ⟨rfl, rfl⟩

@[simp] theorem State.writeMeas_queueId (s : State) (r : MeasRec) : s.sameQueueId (s.writeMeas r) := by simp [State.writeMeas]

@[simp] theorem State.solveTime_queueId (s : State) (a : List Entry) (x : MeasIn) : s.sameQueueId (s.solveTime a x).1 := by
  unfold State.solveTime
  split <;> simp

@[simp] theorem State.surveySecond_queueId (s : State) (spp : Option (Int × Int × Int)) : s.sameQueueId (s.surveySecond spp) := by
  simp [State.surveySecond]

@[simp] theorem State.deliver_queueId (s : State) (l : Latch) (x : MeasIn) : s.sameQueueId (s.deliver l x) := by
  unfold State.deliver
  extract_lets both ra rb gns s1 s2 s3 s4 second
  have h4 : s.sameQueueId s4 := by simp [s4, s3, s2, s1]
  split
  next u sol h =>
  have hu : s.sameQueueId u := .of_eq (by split <;> simp [h4]) h
  extract_lets e jumped u1 u2 u3 u4 u5
  have h2 : s.sameQueueId u2 := by
    simp only [u2]
    split <;> simp [u1, hu]
  simp [u5, u4, u3, h2]

theorem execGnsMeasReady_queueId (dt : Nat) (input : MeasIn) (s : State) :
    reaches (execGnsMeasReady dt input s) s.sameQueueId := by
  refine ⟨_, rfl, ?_⟩
  split <;> simp

/-! ### Hop Sequencer commands (R224 to R267) -/

@[simp] theorem State.listenIn_queueId (s : State) (p asn i : Nat) (l : Option Listen) (a b : Nat) :
    s.sameQueueId (s.listenIn p asn i l a b) := by
  simp [State.listenIn]

@[simp] theorem State.enterSlot_queueId (s : State) (p asn i : Nat) : s.sameQueueId (s.enterSlot p asn i) := by
  simp [State.enterSlot]

@[simp] theorem State.linkLost_queueId (s : State) (m : Nat) : s.sameQueueId (s.linkLost m) := by simp [State.linkLost]

@[simp] theorem State.finishSlot_queueId (s : State) (p : Nat) : s.sameQueueId (s.finishSlot p) := by
  unfold State.finishSlot
  repeat' split
  all_goals simp

@[simp] theorem State.acceptMachine_queueId (s : State) (p m : Nat) (rejoin : Bool) :
    s.sameQueueId (s.acceptMachine p m rejoin) := by
  unfold State.acceptMachine
  dsimp only
  repeat' split
  all_goals simp

@[simp] theorem State.makeJoin_queueId (s : State) (p eui : Nat) (nonce : List Byte) (flags asn tx : Nat) :
    s.sameQueueId (s.makeJoin p eui nonce flags asn tx).1 := by
  unfold State.makeJoin
  dsimp only
  repeat' split
  all_goals simp

@[simp] theorem State.sendAck_queueId (s : State) (p ch asn nominal mode room k : Nat) :
    s.sameQueueId (s.sendAck p ch asn nominal mode room k).1 := by
  unfold State.sendAck
  split
  · simp
  · dsimp only
    split
    · next h => simp [(State.sendSealed_queueId ..).of_eq h]
    · next h => split <;> simp [(State.sendSealed_queueId ..).of_eq h]

@[simp] theorem State.sendAnswer_queueId (s : State) (p ch asn i : Nat) (a : Answer) :
    s.sameQueueId (s.sendAnswer p ch asn i a) := by
  unfold State.sendAnswer
  extract_lets nominal mode cap set
  have hset (s : State) (v : Option Answer) : s.sameQueueId (set s v) := by simp [set]
  split
  · split <;> next h => simp [hset, (State.sendAck_queueId ..).of_eq h]
  · split
    next _ u made hp =>
    have hu : s.sameQueueId u := .of_eq (by split <;> simp) hp
    split
    · extract_lets seg n part
      split
      · next h => simp [hset, (State.sendSealed_queueId ..).of_eq h, hu]
      · next h =>
        extract_lets v
        have hv : s.sameQueueId v := by
          simp only [v]
          split <;> simp [(State.sendSealed_queueId ..).of_eq h, hu]
        simp [hset, hv]
    · simp [hset, hu]

@[simp] theorem State.sendCorrection_queueId (s : State) (p ch asn i : Nat) : s.sameQueueId (s.sendCorrection p ch asn i) := by
  unfold State.sendCorrection
  dsimp only
  split
  · simp
  · split
    · simp
    · split <;> next h => simp [(State.sendSealed_queueId ..).of_eq h]

@[simp] theorem State.sendDownlink_queueId (s : State) (p ch asn i : Nat) : s.sameQueueId (s.sendDownlink p ch asn i) := by
  unfold State.sendDownlink
  dsimp only
  split
  · simp
  · split
    · simp
    · split <;> next h => simp [(State.sendSealed_queueId ..).of_eq h]

@[simp] theorem State.openPoll_queueId (s : State) (p asn i sf : Nat) : s.sameQueueId (s.openPoll p asn i sf) := by
  unfold State.openPoll
  dsimp only
  repeat' split
  all_goals simp

@[simp] theorem State.openShared_queueId (s : State) (p asn i : Nat) : s.sameQueueId (s.openShared p asn i) := by
  simp [State.openShared]

@[simp] theorem State.stormSlot_queueId (s : State) (p asn i sf ch : Nat) : s.sameQueueId (s.stormSlot p asn i sf ch) := by
  unfold State.stormSlot
  repeat' split
  all_goals simp

@[simp] theorem State.ackInSpan_queueId (s : State) (p asn i k : Nat) : s.sameQueueId (s.ackInSpan p asn i k) := by
  simp [State.ackInSpan]

@[simp] theorem State.plainSlot_queueId (s : State) (p asn i sf ch : Nat) : s.sameQueueId (s.plainSlot p asn i sf ch) := by
  unfold State.plainSlot
  dsimp only
  repeat' split
  all_goals simp

@[simp] theorem State.heardFrame_queueId (s : State) (p rssi : Nat) (good : Bool) : s.sameQueueId (s.heardFrame p rssi good) := by
  simp [State.heardFrame]

@[simp] theorem State.badFrame_queueId (s : State) (p : Nat) : s.sameQueueId (s.badFrame p) := by simp [State.badFrame]

@[simp] theorem State.ownSolution_queueId (s : State) (m : Nat) (b : List Byte) : s.sameQueueId (s.ownSolution m b) := by
  simp [State.ownSolution]

@[simp] theorem State.takeFeedback_queueId (s : State) (m : Nat) (b : List Byte) : s.sameQueueId (s.takeFeedback m b) := by
  simp [State.takeFeedback]

@[simp] theorem State.deliverBlock_queueId (s : State) (p m asn frag type : Nat) (b : List Byte) :
    s.sameQueueId (s.deliverBlock p m asn frag type b) := by
  unfold State.deliverBlock
  split <;> simp

@[simp] theorem State.takeUplink_queueId (s : State) (p m rssi : Nat) (c : CurSlot) (f : List Byte) :
    s.sameQueueId (s.takeUplink p m rssi c f) := by
  unfold State.takeUplink
  repeat' split
  all_goals simp

@[simp] theorem State.takeJoin_queueId (s : State) (p rssi : Nat) (c : CurSlot) (f : List Byte) :
    s.sameQueueId (s.takeJoin p rssi c f) := by
  unfold State.takeJoin
  dsimp only
  repeat' split
  all_goals simp

@[simp] theorem State.pollSeen_queueId (s : State) (k sf : Nat) (shared : Bool) : s.sameQueueId (s.pollSeen k sf shared) := by
  simp [State.pollSeen]

@[simp] theorem State.takePoll_queueId (s : State) (p k rssi : Nat) (c : CurSlot) (shared : Bool) (f : List Byte) :
    s.sameQueueId (s.takePoll p k rssi c shared f) := by
  unfold State.takePoll
  repeat' split
  all_goals simp

@[simp] theorem State.takePendant_queueId (s : State) (p rssi : Nat) (c : CurSlot) (f : List Byte) :
    s.sameQueueId (s.takePendant p rssi c f) := by
  unfold State.takePendant
  dsimp only
  repeat' split
  all_goals simp

@[simp] theorem State.takeFrame_queueId (s : State) (p rssi : Nat) (c : CurSlot) (f : List Byte) :
    s.sameQueueId (s.takeFrame p rssi c f) := by
  unfold State.takeFrame
  repeat' split
  all_goals simp

@[simp] theorem State.radioReceive_queueId (s : State) (p time rssi : Nat) (f : List Byte) :
    s.sameQueueId (s.radioReceive p time rssi f) := by
  unfold State.radioReceive
  split <;> simp

@[simp] theorem State.deliverGot_queueId (s : State) (p : Nat) : s.sameQueueId (s.deliverGot p) := by
  unfold State.deliverGot
  repeat' split
  all_goals simp

@[simp] theorem State.endSlot_queueId (s : State) (p : Nat) : s.sameQueueId (s.endSlot p) := by simp [State.endSlot]
@[simp] theorem State.slotStart_queueId (s : State) (p : Nat) : s.sameQueueId (s.slotStart p) := by simp [State.slotStart]

@[simp] theorem State.applyTable_queueId (s : State) (p : Nat) : s.sameQueueId (s.applyTable p) := by
  unfold State.applyTable
  split <;> simp

@[simp] theorem State.portBoundary_queueId (s : State) (p : Nat) : s.sameQueueId (s.portBoundary p) := by
  simp [State.portBoundary]

@[simp] theorem State.expireCommands_queueId (s : State) : s.sameQueueId s.expireCommands := by simp [State.expireCommands]
@[simp] theorem State.supervise_queueId (s : State) (n : Nat) : s.sameQueueId (s.supervise n) := by simp [State.supervise]
@[simp] theorem State.boundary_queueId (s : State) : s.sameQueueId s.boundary := by simp [State.boundary]

@[simp] theorem State.discardDl_queueId (s : State) (k : Nat) : s.sameQueueId (s.discardDl k) := by
  unfold State.discardDl
  extract_lets mine n t
  have ht : s.sameQueueId t := State.foldl_queueId (fun s b => by dsimp only; split <;> simp) ..
  simp [ht]

@[simp] theorem State.hopSend_queueId (s : State) (d : Desc) (payload : List Byte) : s.sameQueueId (s.hopSend d payload) := by
  unfold State.hopSend
  dsimp only
  repeat' split
  any_goals simp
  all_goals next h => simp [State.queueMessage_queueId h]

theorem execHopRecv_queueId (dt ring index : Nat) (s : State) : reaches (execHopRecv dt ring index s) s.sameQueueId :=
  ⟨_, rfl, State.withDesc_queueId (fun s d => by split <;> simp) ..⟩

/-! ### Mirage Monitor commands (R168 to R192) -/

theorem execMirConditionClear_queueId (dt check key : Nat) (s : State) :
    reaches (execMirConditionClear dt check key s) s.sameQueueId := by
  refine ⟨_, rfl, ?_⟩
  repeat' split
  all_goals simp

@[simp] theorem State.clearMirage_queueId (s : State) : s.sameQueueId s.clearMirage := by simp [State.clearMirage]
@[simp] theorem State.restartBase_queueId (s : State) : s.sameQueueId s.restartBase := ⟨rfl, rfl⟩

/-! ### Timebase commands (R67 to R105) -/

@[simp] theorem State.dropAnnounce_queueId (s : State) (p : Nat) : s.sameQueueId (s.dropAnnounce p) := by
  simp [State.dropAnnounce]

theorem execTbSourceLost_queueId (dt src : Nat) (s : State) : reaches (execTbSourceLost dt src s) s.sameQueueId := by
  refine ⟨_, rfl, ?_⟩
  repeat' split
  all_goals simp

@[simp] theorem State.ppsEdge_queueId (s : State) (k : Nat) : s.sameQueueId (s.ppsEdge k) := by simp [State.ppsEdge]

@[simp] theorem State.ppsSettle_queueId (s : State) (wasOn : Bool) : s.sameQueueId (s.ppsSettle wasOn) := by
  simp [State.ppsSettle]

@[simp] theorem State.syncCalendar_queueId (s : State) : s.sameQueueId s.syncCalendar := by simp [State.syncCalendar]

theorem execPpsOutPulseEnd_queueId (dt : Nat) (s : State) : reaches (execPpsOutPulseEnd dt s) s.sameQueueId := by
  refine ⟨_, rfl, ?_⟩
  repeat' split
  all_goals simp

@[simp] theorem State.ppsAfterStep_queueId (s : State) : s.sameQueueId s.ppsAfterStep := by simp [State.ppsAfterStep]
@[simp] theorem State.silence_queueId (s : State) (now p : Nat) : s.sameQueueId (s.silence now p) := by simp [State.silence]
@[simp] theorem State.unitsStep_queueId (s : State) : s.sameQueueId s.unitsStep := by simp [State.unitsStep]
@[simp] theorem State.applyStep_queueId (s : State) (p : StepPending) : s.sameQueueId (s.applyStep p) := by simp [State.applyStep]

theorem execTbStepApply_queueId (dt : Nat) (s : State) : reaches (execTbStepApply dt s) s.sameQueueId := by
  refine ⟨_, rfl, ?_⟩
  split <;> simp

theorem execTbStampPop_queueId (dt : Nat) (s : State) : reaches (execTbStampPop dt s) s.sameQueueId := by
  refine ⟨_, rfl, ?_⟩
  split <;> simp

/-! ### What a commit replaces (R45 to R66) -/

@[simp] theorem State.releaseFld_queueId (s : State) (new : Conf) : s.sameQueueId (s.releaseFld new) := by simp [State.releaseFld]
@[simp] theorem State.applyTb_queueId (s : State) (was : State) : s.sameQueueId (s.applyTb was) := by simp [State.applyTb]
@[simp] theorem State.endAcq_queueId (s : State) : s.sameQueueId s.endAcq := by simp [State.endAcq]

@[simp] theorem State.applyBase_queueId (s : State) (was : State) : s.sameQueueId (s.applyBase was) := by
  unfold State.applyBase
  split <;> simp

@[simp] theorem State.applyGns_queueId (s : State) (was : State) : s.sameQueueId (s.applyGns was) := by simp [State.applyGns]
@[simp] theorem State.applyMir_queueId (s : State) (was : State) : s.sameQueueId (s.applyMir was) := by simp [State.applyMir]
@[simp] theorem State.applyFix_queueId (s : State) (was : State) : s.sameQueueId (s.applyFix was) := by simp [State.applyFix]
@[simp] theorem State.armSec_queueId (s : State) : s.sameQueueId s.armSec := by simp [State.armSec]
@[simp] theorem State.applySec_queueId (s : State) (was : State) : s.sameQueueId (s.applySec was) := by simp [State.applySec]

@[simp] theorem State.applyPort_queueId (s : State) (was : State) (slots : Tbl (List Byte)) (p : Nat) :
    s.sameQueueId (s.applyPort was slots p) := by
  unfold State.applyPort
  split <;> simp

@[simp] theorem State.applyHop_queueId (s : State) (was : State) (slots : Tbl (List Byte)) (nodes : List Byte) :
    s.sameQueueId (s.applyHop was slots nodes) := by
  simp [State.applyHop]

@[simp] theorem State.applyFab_queueId (s : State) (was : State) : s.sameQueueId (s.applyFab was) := by simp [State.applyFab]
@[simp] theorem State.applyMem_queueId (s : State) (was : State) : s.sameQueueId (s.applyMem was) := by simp [State.applyMem]
@[simp] theorem State.applyNvm_queueId (s : State) : s.sameQueueId s.applyNvm := ⟨rfl, rfl⟩

@[simp] theorem State.renewPins_queueId (s : State) (named : BitVec 20) : s.sameQueueId (s.renewPins named) := by
  simp [State.renewPins]

@[simp] theorem State.loadPinned_queueId (s : State) : s.sameQueueId s.loadPinned :=
  State.foldl_queueId (fun s i => by split <;> simp) ..

@[simp] theorem State.enterRun_queueId (s : State) : s.sameQueueId s.enterRun := by simp [State.enterRun]
@[simp] theorem State.activate_queueId (s : State) (c : Cand) : s.sameQueueId (s.activate c) := ⟨rfl, rfl⟩

@[simp] theorem State.takeEffect_queueId (was : State) (c : Cand) : was.sameQueueId (was.takeEffect c) := by
  simp [State.takeEffect]

/-! ### Host Interface commands (R360 to R388) -/

@[simp] theorem State.advanceSq_queueId (s : State) (ring : Nat) : s.sameQueueId (s.advanceSq ring) := by simp [State.advanceSq]

@[simp] theorem State.addTaken_queueId (s : State) (d : Desc) : s.sameQueueId (s.addTaken d) := by
  unfold State.addTaken
  split <;> simp

@[simp] theorem State.takeDesc_queueId (s : State) (ring : Nat) (bytes : List Byte) : s.sameQueueId (s.takeDesc ring bytes) := by
  unfold State.takeDesc
  dsimp only
  repeat' split
  all_goals simp

@[simp] theorem State.doorbell_queueId (s : State) (n tail head resume : Nat) :
    s.sameQueueId (s.doorbell n tail head resume) := by
  simp [State.doorbell]

@[simp] theorem State.writeRingCtrl_queueId (s : State) (n : Nat) (v : Word) (keepSize : Bool) :
    s.sameQueueId (s.writeRingCtrl n v keepSize) := by
  unfold State.writeRingCtrl
  split <;> simp

theorem execRingEnable_queueId (dt ring : Nat) (value : Word) (s : State) :
    reaches (execRingEnable dt ring value s) s.sameQueueId := by
  refine ⟨_, rfl, ?_⟩
  repeat' split
  all_goals simp

@[simp] theorem State.dropLaunch_queueId (s : State) (serial : Nat) : s.sameQueueId (s.dropLaunch serial) := ⟨rfl, rfl⟩
@[simp] theorem State.stopRing_queueId (s : State) (ring : Nat) : s.sameQueueId (s.stopRing ring) := by simp [State.stopRing]

@[simp] theorem State.haltRing_queueId (s : State) (ring index : Nat) : s.sameQueueId (s.haltRing ring index) := by
  simp [State.haltRing]

@[simp] theorem State.payloadError_queueId (s : State) (d : Desc) (detail : Nat) (reading : Bool) :
    s.sameQueueId (s.payloadError d detail reading) := by
  simp [State.payloadError]

@[simp] theorem State.dmaError_queueId (s : State) (phase kind ring index : Nat) :
    s.sameQueueId (s.dmaError phase kind ring index) := by
  unfold State.dmaError
  dsimp only
  repeat' split
  all_goals simp

@[simp] theorem State.resetHst_queueId (s : State) : s.sameQueueId s.resetHst := by simp [State.resetHst]

@[simp] theorem State.launchCancel_queueId (s : State) (d : Desc) : s.sameQueueId (s.launchCancel d) := by
  unfold State.launchCancel
  dsimp only
  repeat' split
  all_goals simp

@[simp] theorem State.startFired_queueId (s : State) (serial : Nat) (late : Bool) : s.sameQueueId (s.startFired serial late) :=
  ⟨rfl, rfl⟩

@[simp] theorem State.fireEntry_queueId (s : State) : s.sameQueueId s.fireEntry := by
  unfold State.fireEntry
  repeat' split
  all_goals simp

/-! ### Commits (R45 to R66, R385) -/

@[simp] theorem State.stageEntries_queueId (s : State) (l : List (Nat × Nat)) : s.sameQueueId (s.stageEntries l) :=
  State.foldl_queueId (fun s e => by split <;> simp) ..

@[simp] theorem State.settleStore_queueId (s : State) : s.sameQueueId s.settleStore := ⟨rfl, rfl⟩

@[simp] theorem State.storeBlock_queueId (s : State) (mask : BitVec 20) (bytes : List Byte) (env : CommitIn) :
    s.sameQueueId (s.storeBlock mask bytes env) := by
  unfold State.storeBlock
  split
  · simp
  · dsimp only
    split <;> next h => simp [(State.nvWrite_queueId ..).of_eq h]

@[simp] theorem State.dmaTable_queueId (s : State) (host : List (Nat × List Byte)) (addr n : Nat) :
    s.sameQueueId (s.dmaTable host addr n).1 := by
  unfold State.dmaTable
  split <;> simp

@[simp] theorem State.readTables_queueId (s : State) (conf : Conf) (named : BitVec 20) (host : List (Nat × List Byte)) :
    s.sameQueueId (s.readTables conf named host).1 := by
  unfold State.readTables
  extract_lets ports
  split
  · split
    next t l h =>
    have ht : s.sameQueueId t := (State.foldl_fst_queueId
      (fun a p => by dsimp only; split <;> next h => simp [(State.dmaTable_queueId ..).of_eq h]) _ _).of_eq h
    simp [ht]
  · simp

@[simp] theorem State.candidate'_queueId (s : State) (snap : Conf) (named : BitVec 20) (host : List (Nat × List Byte))
    (again : Bool) : s.sameQueueId (s.candidate' snap named host again).1 := by
  simp [State.candidate']

@[simp] theorem State.commitNow_queueId (s : State) (c : Cand) (persist : Bool) (block : List Byte) (env : CommitIn) :
    s.sameQueueId (s.commitNow c persist block env) := by
  simp [State.commitNow]

@[simp] theorem State.beginCheck_queueId (s : State) (env : CommitIn) : s.sameQueueId (s.beginCheck env) := ⟨rfl, rfl⟩
@[simp] theorem State.keepUndo_queueId (s was : State) (named : BitVec 20) : s.sameQueueId (s.keepUndo was named) := ⟨rfl, rfl⟩
@[simp] theorem State.endCheck_queueId (s : State) : s.sameQueueId s.endCheck := ⟨rfl, rfl⟩

@[simp] theorem State.abandonCommit_queueId (s : State) (cause : Nat) : s.sameQueueId (s.abandonCommit cause) := by
  simp [State.abandonCommit]

@[simp] theorem State.commitRegister_queueId (s : State) (v : Word) (env : CommitIn) :
    s.sameQueueId (s.commitRegister v env) := by
  unfold State.commitRegister
  dsimp only
  repeat' split
  all_goals simp

@[simp] theorem State.refuseCommit_queueId (s : State) (d : Desc) (reason rule : Nat) :
    s.sameQueueId (s.refuseCommit d reason rule) := by
  simp [State.refuseCommit]

@[simp] theorem State.announceAll_queueId (s : State) (c : Cand) (launch : Nat) : s.sameQueueId (s.announceAll c launch) := by
  simp [State.announceAll]

@[simp] theorem State.runCommit_queueId (s : State) (d : Desc) (b : Block) (block : List Byte) (before : Conf) (env : CommitIn) :
    s.sameQueueId (s.runCommit d b block before env) := by
  unfold State.runCommit
  dsimp only
  repeat' split
  all_goals simp

@[simp] theorem State.hostCommit_queueId (s : State) (d : Desc) (payload : List Byte) (env : CommitIn) :
    s.sameQueueId (s.hostCommit d payload env) := by
  unfold State.hostCommit
  repeat' split
  all_goals simp

@[simp] theorem State.launchCommit_queueId (s : State) (env : CommitIn) : s.sameQueueId (s.launchCommit env) := by
  unfold State.launchCommit
  dsimp only
  repeat' split
  all_goals simp

/-! ### Field Store commands (R119 to R137) -/

@[simp] theorem State.withFld_queueId {f : State → Desc → State} (hf : ∀ s d, State.sameQueueId s (f s d)) (s : State)
    (ring index op : Nat) (variant : Desc → Bool) (dram : Bool) : s.sameQueueId (s.withFld ring index op variant dram f) := by
  refine State.withDesc_queueId (fun s d => ?_) ..
  split <;> simp [hf]

@[simp] theorem State.tileField_queueId {f : State → Desc → Nat → State} (hf : ∀ s d n, State.sameQueueId s (f s d n)) (s : State)
    (d : Desc) : s.sameQueueId (s.tileField d f) := by
  simp [State.tileField, hf]

theorem execFldTileSave_queueId (dt ring index : Nat) (s : State) :
    reaches (execFldTileSave dt ring index s) s.sameQueueId := by
  refine ⟨_, rfl, State.withFld_queueId (fun s d => ?_) ..⟩
  split
  · simp
  · refine State.tileField_queueId (fun s d f => ?_) s d
    dsimp only
    split <;> simp

@[simp] theorem State.fldTable_queueId {f : State → Desc → Nat → Nat → Nat → State}
    (hf : ∀ s d n k m, State.sameQueueId s (f s d n k m)) (s : State) (d : Desc) : s.sameQueueId (s.fldTable d f) := by
  simp [State.fldTable, hf]

theorem execFldSyncApply_queueId (dt ring index : Nat) (payload : List Byte) (s : State) :
    reaches (execFldSyncApply dt ring index payload s) s.sameQueueId := by
  refine ⟨_, rfl, State.withFld_queueId (fun s d => ?_) ..⟩
  dsimp only
  split
  · simp
  · split <;> simp

theorem execFldCopyDone_queueId (dt : Nat) (s : State) : reaches (execFldCopyDone dt s) s.sameQueueId := by
  refine ⟨_, rfl, ?_⟩
  split <;> simp

/-! ### Fix Engine commands (R193 to R223) -/

theorem execFixRtcmGet_queueId (dt ring index : Nat) (s : State) :
    reaches (execFixRtcmGet dt ring index s) s.sameQueueId :=
  ⟨_, rfl, State.withDesc_queueId (fun s d => by split <;> simp) ..⟩

theorem execFixStrings_queueId (dt ring index : Nat) (payload : List Byte) (s : State) :
    reaches (execFixStrings dt ring index payload s) s.sameQueueId := by
  refine ⟨_, rfl, State.withDesc_queueId (fun s d => ?_) ..⟩
  split
  · simp
  · split
    · simp
    · split <;> simp

@[simp] theorem State.resetRover_queueId (s : State) (m : Nat) : s.sameQueueId (s.resetRover m) := by simp [State.resetRover]

theorem execFixRoverReset_queueId (dt ring index : Nat) (s : State) :
    reaches (execFixRoverReset dt ring index s) s.sameQueueId := by
  refine ⟨_, rfl, State.withDesc_queueId (fun s d => ?_) ..⟩
  split
  · simp
  · split <;> simp

theorem execFixEpochDeadline_queueId (dt machine : Nat) (s : State) :
    reaches (execFixEpochDeadline dt machine s) s.sameQueueId := by
  refine ⟨_, rfl, ?_⟩
  split <;> simp

theorem execFixSolveStart_queueId (dt : Nat) (s : State) : reaches (execFixSolveStart dt s) s.sameQueueId := by
  refine ⟨_, rfl, ?_⟩
  repeat' split
  all_goals simp

@[simp] theorem State.writeSol_queueId (s : State) (b : List Byte) : s.sameQueueId (s.writeSol b) := by
  unfold State.writeSol
  dsimp only
  repeat' split
  all_goals simp

@[simp] theorem State.conformCentral_queueId (s : State) (r : SolRec) : s.sameQueueId (s.conformCentral r) := by
  unfold State.conformCentral
  repeat' split
  all_goals simp

@[simp] theorem State.deliverSol_queueId (s : State) (r : SolRec) (done : Nat) : s.sameQueueId (s.deliverSol r done) := by
  simp [State.deliverSol]

theorem execFixSolReady_queueId (dt lane : Nat) (input : SolveIn) (s : State) :
    reaches (execFixSolReady dt lane input s) s.sameQueueId := by
  refine ⟨_, rfl, ?_⟩
  split <;> simp

/-! ### The Memory System (R445 to R452) -/

@[simp] theorem State.failWaiting_queueId (s : State) (u : Nat) : s.sameQueueId (s.failWaiting u) := by simp [State.failWaiting]
@[simp] theorem State.forceLevel_queueId (s : State) : s.sameQueueId s.forceLevel := by simp [State.forceLevel]
@[simp] theorem State.unitFault_queueId (s : State) (u : Nat) : s.sameQueueId (s.unitFault u) := by simp [State.unitFault]
@[simp] theorem State.eccCorrected_queueId (s : State) : s.sameQueueId s.eccCorrected := by simp [State.eccCorrected]
@[simp] theorem State.eccFailed_queueId (s : State) (addr : Nat) : s.sameQueueId (s.eccFailed addr) := by simp [State.eccFailed]
@[simp] theorem State.eccHit_queueId (s : State) (h : Nat × Bool) : s.sameQueueId (s.eccHit h) := by simp [State.eccHit]

@[simp] theorem State.breakResv_queueId (s : State) (storer : Option Nat) (a : Nat) : s.sameQueueId (s.breakResv storer a) :=
  ⟨rfl, rfl⟩

@[simp] theorem State.dualRound_queueId (s : State) (r : DualRound) : s.sameQueueId (s.dualRound r) := by simp [State.dualRound]

theorem execMemScrub_queueId (dt : Nat) (work : MemWork) (s : State) : reaches (execMemScrub dt work s) s.sameQueueId := by
  refine ⟨_, rfl, ?_⟩
  repeat' split
  all_goals simp

theorem execDisWatchdog_queueId (dt k : Nat) (s : State) : reaches (execDisWatchdog dt k s) s.sameQueueId := by
  refine ⟨_, rfl, ?_⟩
  dsimp only
  repeat' split
  all_goals simp

/-! ### The recorder (R502 to R514) -/

@[simp] theorem State.recordNext_queueId (s : State) : s.sameQueueId s.recordNext := by
  unfold State.recordNext
  dsimp only
  repeat' split
  all_goals simp

@[simp] theorem State.crnDesc_queueId {f : State → State} (hf : ∀ s, State.sameQueueId s (f s)) (s : State) (d : Desc) :
    s.sameQueueId (s.crnDesc d f) := by
  simp [State.crnDesc, hf]

@[simp] theorem State.autoFlush_queueId (s : State) : s.sameQueueId s.autoFlush := by simp [State.autoFlush]
@[simp] theorem State.endFlush_queueId (s : State) (bad : List Nat) : s.sameQueueId (s.endFlush bad) := by simp [State.endFlush]

@[simp] theorem State.crnRead_queueId (s : State) (d : Desc) (store : Tbl Record) : s.sameQueueId (s.crnRead d store) := by
  simp [State.crnRead]

@[simp] theorem State.classXfer_queueId {f : State → Desc → Nat → Nat → State} (hf : ∀ s d n k, State.sameQueueId s (f s d n k))
    (s : State) (d : Desc) : s.sameQueueId (s.classXfer d f) := by
  simp [State.classXfer, hf]

/-! ### Register writes (R40 to R44) -/

@[simp] theorem State.clearBits_queueId (s : State) (off v : Nat) : s.sameQueueId (s.clearBits off v) := by
  unfold State.clearBits
  repeat' split
  all_goals simp

@[simp] theorem State.writeMsix_queueId (s : State) (i v : Nat) : s.sameQueueId (s.writeMsix i v) := by simp [State.writeMsix]

@[simp] theorem State.writeTamper_queueId (s : State) (r : RegDef) (v : Nat) : s.sameQueueId (s.writeTamper r v) := by
  simp [State.writeTamper]

@[simp] theorem State.writeFields_queueId (s : State) (r : RegDef) (off v : Nat) : s.sameQueueId (s.writeFields r off v) := by
  simp [State.writeFields]

@[simp] theorem State.latchBases_queueId (s : State) (off : Nat) : s.sameQueueId (s.latchBases off) := by
  unfold State.latchBases
  repeat' split
  all_goals simp

@[simp] theorem State.afterWrite_queueId (s : State) (was : State) (off : Nat) : s.sameQueueId (s.afterWrite was off) := by
  unfold State.afterWrite
  repeat' split
  all_goals simp

@[simp] theorem State.writeReg_queueId (s : State) (off v : Nat) : s.sameQueueId (s.writeReg off v) := by
  unfold State.writeReg
  repeat' split
  all_goals simp

/-! ### The section epoch (R299 to R331) -/

@[simp] theorem State.putSec_queueId (s : State) (i lo width v : Nat) : s.sameQueueId (s.putSec i lo width v) := ⟨rfl, rfl⟩

@[simp] theorem State.decideSec_queueId (s : State) (i : Nat) (on : Bool) (rateIdx : Nat) :
    s.sameQueueId (s.decideSec i on rateIdx) := by
  simp [State.decideSec]

@[simp] theorem State.modSec_queueId (s : State) (m : Nat) (f : SecMach → SecMach) : s.sameQueueId (s.modSec m f) := by
  simp [State.modSec]

@[simp] theorem State.report_queueId (s : State) (m i : Nat) (x : SecMach) (applied : Bool) (apply' delivered : Nat) :
    s.sameQueueId (s.report m i x applied apply' delivered).1 := by
  unfold State.report
  repeat' split
  all_goals simp

@[simp] theorem State.applyFeedback_queueId (s : State) (f : Feedback) : s.sameQueueId (s.applyFeedback f) := by
  unfold State.applyFeedback
  dsimp only
  repeat' split
  all_goals simp

@[simp] theorem State.markStale_queueId (s : State) (m : Nat) : s.sameQueueId (s.markStale m) := by simp [State.markStale]

@[simp] theorem State.expireClaims_queueId (s : State) (k : Nat) : s.sameQueueId (s.expireClaims k) := by
  simp [State.expireClaims]

@[simp] theorem State.epochOne_queueId (s : State) (tf k : Nat) : s.sameQueueId (s.epochOne tf k) := by simp [State.epochOne]

@[simp] theorem State.coverPoint_queueId (s : State) (m f : Nat) (p : Rat × Rat) : s.sameQueueId (s.coverPoint m f p).1 := by
  unfold State.coverPoint
  split
  · simp
  · split <;> next h => simp [(State.coverage_queueId ..).of_eq h]

@[simp] theorem State.exclPoint_queueId (s : State) (f : Nat) (p : Rat × Rat) : s.sameQueueId (s.exclPoint f p).1 := by
  unfold State.exclPoint
  split <;> simp

@[simp] theorem State.prescPoints_queueId (s : State) (f layer : Nat) (pts : List (Rat × Rat)) :
    s.sameQueueId (s.prescPoints f layer pts).1 := by
  unfold State.prescPoints
  split
  · simp
  · exact State.foldl_fst_queueId (fun a p => by split <;> simp) ..

@[simp] theorem State.sampleSec_queueId (s : State) (m : Nat) (x : Motion) (impl : Option Implement) (k A : Nat) :
    s.sameQueueId (s.sampleSec m x impl k A).1 := by
  simp [State.sampleSec]

@[simp] theorem State.turnSec_queueId (s : State) (m reason : Nat) (x : Option Motion) (impl : Option Implement) (k A : Nat) :
    s.sameQueueId (s.turnSec m reason x impl k A).1 := by
  unfold State.turnSec
  split <;> simp

@[simp] theorem State.claimSec_queueId (s : State) (m k A : Nat) (v : SecEval) : s.sameQueueId (s.claimSec m k A v).1 := by
  refine State.foldl_fst_queueId (fun a c => ?_) ..
  split <;> next h => simp [(State.coverage_queueId ..).of_eq h]

@[simp] theorem State.machineRates_queueId (s : State) (m : Nat) (evals : List (Nat × SecEval)) :
    s.sameQueueId (s.machineRates m evals).1 := by
  simp [State.machineRates]

@[simp] theorem State.sendBlocks_queueId (s : State) (m reason k A : Nat) (evals : List (Nat × SecEval)) :
    s.sameQueueId (s.sendBlocks m reason k A evals) := by
  simp [State.sendBlocks]

@[simp] theorem State.turn_queueId (s : State) (m tf A : Nat) : s.sameQueueId (s.turn m tf A).1 := by simp [State.turn]
@[simp] theorem State.epochTwo_queueId (s : State) (tf k A : Nat) : s.sameQueueId (s.epochTwo tf k A) := by simp [State.epochTwo]
@[simp] theorem State.epoch_queueId (s : State) (tf us : Nat) : s.sameQueueId (s.epoch tf us) := by simp [State.epoch]
@[simp] theorem State.rearmEpoch_queueId (s : State) (p : Periodic) : s.sameQueueId (s.rearmEpoch p) := ⟨rfl, rfl⟩

theorem execSecEpoch_queueId (dt us : Nat) (s : State) : reaches (execSecEpoch dt us s) s.sameQueueId := by
  unfold execSecEpoch
  dsimp only
  refine ⟨_, rfl, ?_⟩
  repeat' split
  all_goals simp

/-! ### Stop commands (R332 to R358) -/

@[simp] theorem State.setPin_queueId (s : State) (pinB stop : Bool) : s.sameQueueId (s.setPin pinB stop) := ⟨rfl, rfl⟩

theorem execStpPinFault_queueId (dt : Nat) (s : State) : reaches (execStpPinFault dt s) s.sameQueueId := by
  refine ⟨_, rfl, ?_⟩
  split <;> simp

@[simp] theorem State.setPulse_queueId (s : State) (outB : Bool) (p : Option Nat) (t : Nat) :
    s.sameQueueId (s.setPulse outB p t) :=
  ⟨rfl, rfl⟩

theorem execStpSelftestPulseEnd_queueId (dt : Nat) (outB readBack : Bool) (s : State) :
    reaches (execStpSelftestPulseEnd dt outB readBack s) s.sameQueueId := by
  refine ⟨_, rfl, ?_⟩
  split <;> simp

@[simp] theorem State.stpStop_queueId (s : State) (d : Desc) : s.sameQueueId (s.stpStop d) := by simp [State.stpStop]

@[simp] theorem State.refuseRelease_queueId (s : State) (d : Desc) (status : Nat) : s.sameQueueId (s.refuseRelease d status) := by
  simp [State.refuseRelease]

@[simp] theorem State.stpArm_queueId (s : State) (d : Desc) : s.sameQueueId (s.stpArm d) := by
  unfold State.stpArm
  dsimp only
  repeat' split
  all_goals simp

@[simp] theorem State.release_queueId (s : State) : s.sameQueueId s.release := by simp [State.release]

@[simp] theorem State.stpConfirm_queueId (s : State) (d : Desc) : s.sameQueueId (s.stpConfirm d) := by
  unfold State.stpConfirm
  split <;> simp

theorem execStpArmExpired_queueId (dt : Nat) (s : State) : reaches (execStpArmExpired dt s) s.sameQueueId := by
  refine ⟨_, rfl, ?_⟩
  repeat' split
  all_goals simp

@[simp] theorem State.reEnable_queueId (s : State) (m : Nat) : s.sameQueueId (s.reEnable m) := by simp [State.reEnable]
@[simp] theorem State.stpReEnable_queueId (s : State) (d : Desc) : s.sameQueueId (s.stpReEnable d) := by simp [State.stpReEnable]

/-! ### Every command -/

/-- Every command answers a next state with the queue and the identity of before. A command without a lemma of its own is a chain of
operations. -/
theorem exec_queueId (c : Instr) (s : State) : reaches (exec c s) s.sameQueueId := by
  cases c with
  | tamperEvent => exact execTamperEvent_queueId ..
  | pfailFall => exact execPfailFall_queueId ..
  | pfailClear => exact execPfailClear_queueId ..
  | stageSlowFatal => exact execStageSlowFatal_queueId ..
  | dieLinkFail => exact execDieLinkFail_queueId ..
  | securityCoreFault => exact execSecurityCoreFault_queueId ..
  | romSlotSelect => exact execRomSlotSelect_queueId ..
  | firmwareStart => exact execFirmwareStart_queueId ..
  | bootUpdateBegin => exact execBootUpdateBegin_queueId ..
  | bootUpdateWrite => exact execBootUpdateWrite_queueId ..
  | bootConfirm => exact execBootConfirm_queueId ..
  | bootPeerServe => exact execBootPeerServe_queueId ..
  | recoveryDataReceived => exact execRecoveryDataReceived_queueId ..
  | nvmCfgGet => exact execNvmCfgGet_queueId ..
  | nvmUserWrite => exact execNvmUserWrite_queueId ..
  | carRequestDecide => exact execCarRequestDecide_queueId ..
  | carHostTimeout => exact execCarHostTimeout_queueId ..
  | carTrackRead => exact execCarTrackRead_queueId ..
  | fabLinkTimeout => exact execFabLinkTimeout_queueId ..
  | fabPcsLoss => exact execFabPcsLoss_queueId ..
  | fabBlockLock => exact execFabBlockLock_queueId ..
  | fabModuleChange => exact execFabModuleChange_queueId ..
  | fabLsaExpire => exact execFabLsaExpire_queueId ..
  | fabSpfRun => exact execFabSpfRun_queueId ..
  | fabRecv => exact execFabRecv_queueId ..
  | fabLearnRemove => exact execFabLearnRemove_queueId ..
  | fabLearnLookup => exact execFabLearnLookup_queueId ..
  | fabLearnEvent => exact execFabLearnEvent_queueId ..
  | fabModuleWrite => exact execFabModuleWrite_queueId ..
  | gnsCapture => exact execGnsCapture_queueId ..
  | gnsCaptureDone => exact execGnsCaptureDone_queueId ..
  | gnsAcq => exact execGnsAcq_queueId ..
  | gnsAcqDone => exact execGnsAcqDone_queueId ..
  | gnsMeasReady => exact execGnsMeasReady_queueId ..
  | hopRecv => exact execHopRecv_queueId ..
  | mirConditionClear => exact execMirConditionClear_queueId ..
  | tbSourceLost => exact execTbSourceLost_queueId ..
  | ppsOutPulseEnd => exact execPpsOutPulseEnd_queueId ..
  | tbStepApply => exact execTbStepApply_queueId ..
  | tbStampPop => exact execTbStampPop_queueId ..
  | ringEnable => exact execRingEnable_queueId ..
  | fldTileSave => exact execFldTileSave_queueId ..
  | fldSyncApply => exact execFldSyncApply_queueId ..
  | fldCopyDone => exact execFldCopyDone_queueId ..
  | fixRtcmGet => exact execFixRtcmGet_queueId ..
  | fixStrings => exact execFixStrings_queueId ..
  | fixRoverReset => exact execFixRoverReset_queueId ..
  | fixEpochDeadline => exact execFixEpochDeadline_queueId ..
  | fixSolveStart => exact execFixSolveStart_queueId ..
  | fixSolReady => exact execFixSolReady_queueId ..
  | memScrub => exact execMemScrub_queueId ..
  | disWatchdog => exact execDisWatchdog_queueId ..
  | secEpoch => exact execSecEpoch_queueId ..
  | stpPinFault => exact execStpPinFault_queueId ..
  | stpSelftestPulseEnd => exact execStpSelftestPulseEnd_queueId ..
  | stpArmExpired => exact execStpArmExpired_queueId ..
  | _ => exact ⟨_, rfl, by simp⟩

/-- Settles O55: each command's arm answers a next state, and none of the operations that it is made of touches the queue or the
identity. -/
theorem everyCommandCompletes : Obligations.EveryCommandCompletes := by
  unfold Obligations.EveryCommandCompletes
  exact exec_queueId

end Sys2Proof.Machine

namespace Sys2Proof.Machine

/-- The machine right after reset has empty memories. -/
theorem State.reset_memoriesCanonical : State.reset.memoriesCanonical :=
  have empty (d : Byte) : Memory.wf [] d := ⟨.nil, by simp⟩
  ⟨empty _, empty _, empty _, empty _, empty _, by simp [State.reset, Mem.reset]⟩

/-- Empty tables are tidy. -/
theorem Conf.empty_tidy : Conf.empty.tidy := by simp [Conf.tidy, Conf.empty]

/-- The machine right after reset has empty tables, and no launch entry and no commit under check that hold any. -/
theorem State.reset_tidy : State.reset.tidy := by
  have hc : Cfg.reset.staged.tidy ∧ Cfg.reset.active.tidy := ⟨Conf.empty_tidy, Conf.empty_tidy⟩
  simp [State.tidy, State.reset, hc, Fab.tidy, Fab.reset, Dis.tidy, Dis.reset, Hop.tidy, Hop.reset, Gns.tidy, Gns.reset, Fix.tidy,
    Fix.reset, Sec.tidy, Sec.reset, Fld.tidy, Fld.reset, Hst.reset, Tb.reset, Crn.reset, Car.reset, Key.reset, Nvm.reset, Nvm.mapping,
    AB.value, AB.committed, AB.blank, Boot.reset]

/-- The machine right after reset has no thread on a core or in a ready list. -/
theorem State.reset_scheduled : State.reset.scheduled := by
  refine ⟨fun p => ⟨.nil, fun k hk => ?_⟩, fun c k hk => ?_, ?_, fun _ => ⟨rfl, rfl⟩⟩
  · exact absurd hk List.not_mem_nil
  · exact absurd hk (by simp [State.running, State.reset, Dis.reset])
  · simp [State.reset, Pwr.reset]

/-- Settles O59. -/
theorem resetMeetsTheInvariants : Obligations.ResetMeetsTheInvariants :=
  ⟨rfl, rfl, rfl, rfl, rfl, fun _ => rfl, rfl, State.reset_memoriesCanonical, State.reset_tidy, State.reset_scheduled⟩

end Sys2Proof.Machine

namespace Sys2Proof.Machine

/-! ### Effects behind a guard, and what events leave -/

/-- A command whose guard against its effect does not hold has its effect. -/
theorem reaches_of_not_guard {c : Prop} {_ : Decidable c} {s t : State} {P : State → Prop} (h : ¬ c) (ht : P t) :
    reaches (.next (if c then s else t)) P :=
  ⟨t, by rw [if_neg h], ht⟩

theorem State.eventsOnly_refl (s : State) : State.eventsOnly s s := (State.quiet_refl s).1

theorem State.eventsOnly_trans {a b c : State} (h : State.eventsOnly a b) (k : State.eventsOnly b c) : State.eventsOnly a c := by
  obtain ⟨h1, h2⟩ := h
  obtain ⟨k1, k2⟩ := k
  have hcfg : b.cfg = a.cfg := by rw [h1]
  refine ⟨by rw [k1, h1], fun h0 => ?_⟩
  obtain ⟨p1, l1⟩ := h2 h0
  obtain ⟨p2, l2⟩ := k2 (by rw [State.act, hcfg]; exact h0)
  exact ⟨by rw [p2, p1], l2.trans l1⟩

theorem State.eventsOnly_pwr {s t : State} (h : State.eventsOnly s t) : t.pwr = s.pwr := by rw [h.1]

/-- Whose power state is given, that of what the events leave may stand for it. -/
theorem State.eventsOnly_with_pwr {s t : State} (h : State.eventsOnly s t) :
    t.pwr = s.pwr ∧ State.eventsOnly { s with pwr := t.pwr } t := by
  rw [State.eventsOnly_pwr h]
  exact ⟨rfl, h⟩

/-- An event raised on a condition changes no more than events may. -/
theorem State.raise_if_eventsOnly (s : State) (c : Prop) [Decidable c] (e : Ev) (i : Nat) (a : List Byte) :
    State.eventsOnly s (if c then s.raise e i a else s) := by
  split
  · exact State.raise_eventsOnly ..
  · exact State.eventsOnly_refl s

/-! ### Sensors and the backup supply (R20, R523, R531) -/

/-- Bounds that a value lies within leave it as it is. -/
theorem clampInt_of_mem {lo hi v : Int} (h1 : lo ≤ v) (h2 : v ≤ hi) : clampInt lo hi v = v := by
  simp [clampInt, h1.not_gt, h2.not_gt]

/-- A stage sample shows at once; its rise above 950 ps raises an event, and nothing else changes. -/
theorem execStageMonSample_shows {s : State} {dt ps : Nat} (hr : s.pwr.inReset = false)
    (hd : (s.elapse dt).due T.stageMon (10 * tickUs) = true) (hp : ps ≤ 4095) :
    reaches (execStageMonSample dt ps s) fun t =>
      t.pwr = { s.pwr with
        stage := ps, stageMax := max s.pwr.stageMax ps, slow := s.pwr.slow || (decide (950 < ps) && decide (s.pwr.stage ≤ 950))
        slowSince := if ps ≤ 1200 then none else some (s.pwr.slowSince.getD (s.clk.counter + dt)) } ∧
      State.eventsOnly { (s.elapse dt).mark T.stageMon with pwr := t.pwr } t := by
  refine reaches_of_not_guard (by simp [hr, hd]) ?_
  rw [Nat.min_eq_right hp]
  exact State.eventsOnly_with_pwr (State.raise_if_eventsOnly ..)

/-- A temperature sample shows at once; HOT has its hysteresis of 5 °C, its rise raises an event, and nothing else changes. -/
theorem execPwrTempSample_shows {s : State} {dt : Nat} {tj : Int} (hr : s.pwr.inReset = false) (h1 : -2048 ≤ tj) (h2 : tj ≤ 2047) :
    reaches (execPwrTempSample dt tj s) fun t =>
      t.pwr = { s.pwr with
        tj := tj, tjMax := max s.pwr.tjMax tj
        hot := if 8 * (s.reg F.PWR_THERM_HOT_THRESH : Int) < tj then true
          else if tj ≤ 8 * (s.reg F.PWR_THERM_HOT_THRESH : Int) - 40 then false else s.pwr.hot } ∧
      State.eventsOnly { s.elapse dt with pwr := t.pwr } t := by
  refine reaches_of_not_guard (by simp [hr]) ?_
  rw [clampInt_of_mem h1 h2]
  exact State.eventsOnly_with_pwr (State.raise_if_eventsOnly ..)

/-- Settles O16: both samples show at once and raise at most an event, and the change of supply is one update. -/
theorem sensorsAndSupplyAreReported : Obligations.SensorsAndSupplyAreReported := by
  refine ⟨fun s dt ps hr hd hp => execStageMonSample_shows hr hd hp, fun s dt tj hr h1 h2 => ?_, fun s dt onVbat low lv => rfl⟩
  obtain ⟨t, ht, hp, he⟩ := execPwrTempSample_shows (s := s) (dt := dt) hr h1 h2
  refine ⟨t, ht, by rw [hp], by rw [hp], fun h => ?_, fun h => ?_, fun h h' => ?_, he⟩ <;> rw [hp]
  · exact if_pos h
  · exact (if_neg (by omega)).trans (if_pos h)
  · exact (if_neg (by omega)).trans (if_neg (by omega))

end Sys2Proof.Machine

namespace Sys2Proof.Machine

/-! ### Posts leave the recorder (R439) -/

@[simp] theorem State.crn_ite {c : Prop} {_ : Decidable c} (s t : State) :
    (if c then s else t).crn = if c then s.crn else t.crn := apply_ite ..

@[simp] theorem State.toHead_crn (s : State) (t : Nat) : (State.toHead t s).crn = s.crn := rfl
@[simp] theorem State.toTail_crn (s : State) (t : Nat) : (State.toTail t s).crn = s.crn := rfl
@[simp] theorem State.dispatchOn_crn (s : State) (core t : Nat) : (s.dispatchOn core t).crn = s.crn := rfl

@[simp] theorem State.dramStore_crn (s : State) (a : Nat) (b : List Byte) : (s.dramStore a b).crn = s.crn := by
  rw [(State.dramStore_traced s a b).1]

@[simp] theorem State.traceChange_crn (s : State) (core : Nat) (why : TraceReason) (o i : Option Nat) :
    (s.traceChange core why o i).crn = s.crn := by
  unfold State.traceChange
  split
  · rfl
  · dsimp only
    split <;> simp

@[simp] theorem State.placeAux_crn {waits : State → State} (hw : ∀ s, (waits s).crn = s.crn) (fuel : Nat) (s : State) (t : Nat) :
    (State.placeAux fuel s t waits).crn = s.crn := by
  induction fuel generalizing s t waits with
  | zero => exact hw s
  | succ fuel ih =>
    unfold State.placeAux
    split
    · simp
    · split
      · exact hw s
      · split
        · exact hw s
        · simp [ih fun s => State.toHead_crn s _]

@[simp] theorem State.place_crn (s : State) (t : Nat) : (s.place t).crn = s.crn := by
  unfold State.place State.placeBy
  dsimp only
  split
  · rfl
  · rw [State.placeAux_crn fun s => State.toTail_crn s t, State.modThread_crn]

theorem State.foldl_crn {α : Type} {f : State → α → State} (hf : ∀ s x, (f s x).crn = s.crn) (l : List α) (s : State) :
    (l.foldl f s).crn = s.crn := by
  induction l generalizing s with
  | nil => rfl
  | cons x r ih => rw [List.foldl_cons, ih, hf]

@[simp] theorem State.placeAll_crn (s : State) (l : List Nat) : (s.placeAll l).crn = s.crn := State.foldl_crn State.place_crn ..

@[simp] theorem State.setFlag_crn (s : State) (t flag src : Nat) : (s.setFlag t flag src).1.crn = s.crn := by
  simp [State.setFlag]

/-- A fold over the state and what it gathers, each step of which leaves the recorder. -/
theorem State.foldl_fst_crn {α β : Type} {f : State × β → α → State × β} (hf : ∀ a x, (f a x).1.crn = a.1.crn) (l : List α)
    (a : State × β) : (l.foldl f a).1.crn = a.1.crn := by
  induction l generalizing a with
  | nil => rfl
  | cons x r ih => rw [List.foldl_cons, ih, hf]

@[simp] theorem State.post_crn (s : State) (posts : List (Nat × Nat)) (src : Nat) : (s.post posts src).1.crn = s.crn := by
  unfold State.post
  rw [State.placeAll_crn, State.foldl_fst_crn]
  intro a p
  dsimp only
  split
  · rfl
  · simp

/-! ### Events leave the count of resets -/

@[simp] theorem State.recordEvent_boots (s : State) (src : Nat) (sev : Option Nat) (arg : List Byte) :
    (s.recordEvent src sev arg).crn.boot = s.crn.boot := by
  unfold State.recordEvent
  split
  · rfl
  · dsimp only
    split <;> rfl

@[simp] theorem State.raiseOnce_boots (s : State) (e : Ev) (i : Nat) (a : List Byte) :
    (s.raiseOnce e i a).1.crn.boot = s.crn.boot := by
  simp [State.raiseOnce]

@[simp] theorem State.lostPosts_boots (s : State) (l : List Nat) : (s.lostPosts l).crn.boot = s.crn.boot := by
  unfold State.lostPosts
  induction l generalizing s with
  | nil => rfl
  | cons t l ih => rw [List.foldl_cons, ih, State.raiseOnce_boots]

@[simp] theorem State.noteTrace_boots (turns : Nat) (s : State) : (s.noteTrace turns).crn.boot = s.crn.boot := by
  induction turns generalizing s with
  | zero => rfl
  | succ turns ih =>
    unfold State.noteTrace
    split
    · simp [ih]
    · split
      · simp [ih]
      · rfl

@[simp] theorem State.raise_boots (s : State) (e : Ev) (i : Nat) (a : List Byte) : (s.raise e i a).crn.boot = s.crn.boot := by
  unfold State.raise
  split
  · rfl
  · simp [State.noteTraceDrop]

/-! ### What the recorder and the NV die's wear leave (R484, R485, R509 to R512)

A reset flushes records and may move the recorder's boundary. None of that reaches what the reset keeps. -/

/-- The parts of the state that no write of the recorder reaches, as far as a reset speaks of them. -/
structure Unlogged where
  pwr : Pwr
  stp : Stp
  clk : Clock
  cal : Cal
  cfg : Cfg
  hst : Hst
  direct : Tbl Word
  boot : Boot
  slots : Tbl KeySlot
  boots : BitVec 16
  store : List StoredBlock
  storing : List Storing

def State.unlogged (s : State) : Unlogged :=
  ⟨s.pwr, s.stp, s.clk, s.cal, s.cfg, s.hst, s.direct, s.boot, s.key.slots, s.crn.boot, s.nvm.store, s.nvm.storing⟩

@[simp] theorem State.unlogged_ite {c : Prop} {_ : Decidable c} (s t : State) :
    (if c then s else t).unlogged = if c then s.unlogged else t.unlogged := apply_ite ..

@[simp] theorem State.raise_unlogged (s : State) (e : Ev) (i : Nat) (a : List Byte) : (s.raise e i a).unlogged = s.unlogged := by
  simp [State.unlogged]

theorem State.takeSpare_unlogged {s t : State} {region n : Nat} (h : s.takeSpare region = some (t, n)) :
    t.unlogged = s.unlogged := by
  unfold State.takeSpare at h
  dsimp only at h
  split_ifs at h <;> cases h <;> rfl

@[simp] theorem State.countWrite_unlogged (s : State) (home n : Nat) : (s.countWrite home n).unlogged = s.unlogged := rfl

/-- The recorder's part may change but for the count of resets. -/
theorem State.with_crn_unlogged (s : State) {c : Crn} (h : c.boot = s.crn.boot) : { s with crn := c }.unlogged = s.unlogged := by
  simp [State.unlogged, h]

/-- The NV die's part may change but for the configuration store. -/
theorem State.with_nvm_unlogged (s : State) {n : Nvm} (h : n.store = s.nvm.store) (h' : n.storing = s.nvm.storing) :
    { s with nvm := n }.unlogged = s.unlogged := by
  simp [State.unlogged, h, h']

@[simp] theorem State.makeReadOnly_unlogged (s : State) (region : Nat) : (s.makeReadOnly region).unlogged = s.unlogged := by
  unfold State.makeReadOnly
  split <;> simp [State.unlogged]

@[simp] theorem State.wornOut_unlogged (s : State) (region b : Nat) : (s.wornOut region b).unlogged = s.unlogged := by
  unfold State.wornOut
  split
  · rfl
  · simp

@[simp] theorem State.writeRemap_unlogged (s : State) (b spare : Nat) : (s.writeRemap b spare).1.unlogged = s.unlogged := by
  unfold State.writeRemap
  dsimp only
  split
  · rfl
  · split
    · next h =>
      rw [State.raise_unlogged, ← State.takeSpare_unlogged h]
      rfl
    · simp

@[simp] theorem State.nvWrite_unlogged (s : State) (region block : Nat) (run : NvRun) :
    (s.nvWrite region block run).1.unlogged = s.unlogged := by
  unfold State.nvWrite
  dsimp only
  split
  · rfl
  · split
    · simp
    · next t spare ht =>
      split
      · rfl
      · split
        · simp
        · next u h =>
          have hu : u.unlogged = t.unlogged := by rw [← State.writeRemap_unlogged t, h]
          rw [State.raise_unlogged, State.countWrite_unlogged, hu, State.takeSpare_unlogged ht]

@[simp] theorem State.dropRecord_unlogged (s : State) (sev : Nat) : (s.dropRecord sev).unlogged = s.unlogged := by
  unfold State.dropRecord
  split
  · unfold State.critDrop
    dsimp only
    split
    · rfl
    · rw [State.raise_unlogged]
      rfl
  · rfl

theorem State.foldl_unlogged {α : Type} {f : State → α → State} (hf : ∀ s x, (f s x).unlogged = s.unlogged) (l : List α)
    (s : State) : (l.foldl f s).unlogged = s.unlogged := by
  induction l generalizing s with
  | nil => rfl
  | cons x r ih => rw [List.foldl_cons, ih, hf]

@[simp] theorem State.logRecord_unlogged (bad : List Nat) (fuel : Nat) (s : State) (r : Record) :
    (State.logRecord bad fuel s r).unlogged = s.unlogged := by
  induction fuel generalizing s r with
  | zero => exact State.dropRecord_unlogged s _
  | succ fuel ih =>
    unfold State.logRecord
    split
    · exact State.dropRecord_unlogged s _
    · next i _ =>
      have hw := State.nvWrite_unlogged s Region.recorder (i / 204) ⟨0, bad.contains (i / 204), none⟩
      split
      · next h => exact (congrArg (·.1.unlogged) h).symm.trans hw
      · next h =>
        rw [ih, State.raise_unlogged, State.foldl_unlogged fun s (e : Nat × Record) => ih s e.2]
        exact (congrArg (·.1.unlogged) h).symm.trans hw

@[simp] theorem State.flushOne_unlogged (s : State) (bad : List Nat) : (s.flushOne bad).unlogged = s.unlogged := by
  unfold State.flushOne
  split
  · rfl
  · exact State.logRecord_unlogged ..

@[simp] theorem State.flushMany_unlogged (bad : List Nat) (n : Nat) (s : State) :
    (State.flushMany bad n s).unlogged = s.unlogged := by
  induction n generalizing s with
  | zero => rfl
  | succ n ih => rw [State.flushMany, ih, State.flushOne_unlogged]

@[simp] theorem State.settleFlush_unlogged (s : State) : s.settleFlush.unlogged = s.unlogged := by
  unfold State.settleFlush
  split
  · rfl
  · exact State.flushMany_unlogged ..

@[simp] theorem State.tearFlush_unlogged (s : State) : s.tearFlush.unlogged = s.unlogged := by
  refine Eq.trans ?_ (State.settleFlush_unlogged s)
  unfold State.tearFlush
  dsimp only
  repeat' split
  all_goals rfl

@[simp] theorem State.flushForReset_unlogged (s : State) (cause : Nat) : (s.flushForReset cause).unlogged = s.unlogged := by
  unfold State.flushForReset
  split
  · exact (State.flushMany_unlogged ..).trans (State.settleFlush_unlogged s)
  · exact State.tearFlush_unlogged s

@[simp] theorem State.moveBoundary_unlogged (s : State) : s.moveBoundary.unlogged = s.unlogged := by
  unfold State.moveBoundary
  dsimp only
  split
  · rfl
  · split
    · exact State.foldl_unlogged (fun s e => State.logRecord_unlogged ..) ..
    · rfl

/-! ### What a reset leaves (R24, R49, R332, R519) -/

/-- A state right after a reset of `s` for a cause, whether the reset is released or not. -/
structure State.resetTo (s : State) (cause : Nat) (t : State) : Prop where
  cause : t.pwr.resetCause = if s.pwr.inReset then min s.pwr.resetCause cause else cause
  boots : t.crn.boot = if s.pwr.inReset then s.crn.boot else s.crn.boot + 1
  state : t.pwr.state = .boot
  latched : t.stp.latched = true
  stop : t.stp.stop = true
  source : t.stp.source = 1
  count : t.stp.count = 1
  enabled : t.stp.enabled = 0
  cfg : t.cfg = Cfg.reset
  direct : t.direct = []
  hst : t.hst = { Hst.reset with pci := PciConfig.reset s.id.part.code s.id.revision }
  id : t.id = s.id
  counter : t.clk.counter = s.clk.counter
  slots : t.key.slots = s.key.slots
  store : t.nvm.store = s.settledStore
  flash : t.boot.flash = s.boot.flash
  pending : t.pending = s.pending

/-- The recorder's boundary is not of what a reset leaves. -/
theorem State.resetTo.moveBoundary {s t : State} {cause : Nat} (h : s.resetTo cause t) : s.resetTo cause t.moveBoundary := by
  obtain ⟨hpend, hid⟩ := State.moveBoundary_queueId t
  obtain ⟨hpwr, hstp, hclk, -, hcfg, hhst, hdir, hboot, hslots, hboots, hstore, -⟩ :=
    Unlogged.mk.inj (State.moveBoundary_unlogged t)
  constructor <;> simp only [hpend, hid, hpwr, hstp, hclk, hcfg, hhst, hdir, hboot, hslots, hboots, hstore, h.cause, h.boots, h.state,
    h.latched, h.stop, h.source, h.count, h.enabled, h.cfg, h.direct, h.hst, h.id, h.counter, h.slots, h.store, h.flash, h.pending]

/-- What a flush changes is not of what a reset keeps. -/
theorem State.resetTo_of_unlogged {s f t : State} {cause : Nat} (h : f.unlogged = s.unlogged) (hq : s.sameQueueId f)
    (ht : f.resetTo cause t) : s.resetTo cause t := by
  obtain ⟨hpend, hid⟩ := hq
  obtain ⟨hpwr, -, hclk, -, -, -, -, hboot, hslots, hboots, hstore, hstoring⟩ := Unlogged.mk.inj h
  obtain ⟨⟩ := ht
  constructor <;> simp_all [State.settledStore]

theorem State.restart_resetTo (s : State) (cause : Nat) : s.resetTo cause (s.restart cause) := by
  refine State.resetTo_of_unlogged (State.flushForReset_unlogged s cause) (State.flushForReset_queueId s cause) ?_
  refine State.resetTo.moveBoundary ?_
  constructor <;> rfl

theorem State.restart_inReset (s : State) (cause : Nat) : (s.restart cause).pwr.inReset = true :=
  congrArg (·.pwr.inReset) (State.moveBoundary_unlogged _)

/-! ### The release of a reset (R26, R103, R519) -/

/-- The clock after the release, from the Calendar. -/
def State.seeded (s : State) : Nat := if s.cal.valid then s.cal.count * 3906250 * 2 ^ 41 else 0

theorem State.seed_eq (s : State) :
    s.seed = { s with clk := { s.clk with t48 := s.seeded }, tb := { s.tb with errEst := s.seed.tb.errEst } } := by
  unfold State.seed State.seeded
  split <;> rfl

/-- The state of the device that a release makes visible: the parts that it changes are the given ones. -/
def State.released (s : State) (low : Bool) (seen : BitVec 12) (errEst : Nat) (failA failB : Bool) : State :=
  { s with
    pwr := { s.pwr with inReset := false, recoveryPin := low, state := if low then .recovery else s.pwr.state }
    stp := { s.stp with seen := seen }
    clk := { s.clk with t48 := s.seeded }
    tb := { s.tb with errEst := errEst }
    boot := { s.boot with failA := failA, failB := failB } }

theorem State.eventsOnly_boot {s t : State} (h : State.eventsOnly s t) : t.boot = s.boot := by rw [h.1]

/-- What events leave stays so beside new values of parts that they do not reach. -/
theorem State.eventsOnly_with {s t : State} (h : State.eventsOnly s t) (p : Pwr) (b : Boot) :
    State.eventsOnly { s with pwr := p, boot := b } { t with pwr := p, boot := b } := by
  obtain ⟨h1, h2⟩ := h
  generalize t.dis = d, t.crn = c, t.mem.dram = m1, t.mem.bad = m2, t.mem.waiting = m3, t.mem.failed = m4, t.mem.eccUncorr = m5,
    t.mem.eccAddr = m6 at h1
  subst h1
  exact ⟨rfl, h2⟩

/-- The events of a release: the latch, and the Calendar without its time. -/
def State.releaseEvents (s : State) : State :=
  let s := s.raise (Ev.stpLatch true) 0 [1, 1, 1, 0]
  if s.cal.valid then s else s.raise Ev.calInvalid 0 []

theorem State.releaseEvents_only (s : State) : State.eventsOnly s s.releaseEvents ∧ s.releaseEvents.crn.boot = s.crn.boot := by
  unfold State.releaseEvents
  dsimp only
  split
  · exact ⟨State.raise_eventsOnly .., State.raise_boots ..⟩
  · exact ⟨State.eventsOnly_trans (State.raise_eventsOnly ..) (State.raise_eventsOnly ..), by simp⟩

/-- The state that a release shows before its events. -/
def State.sampled (s : State) (low : Bool) : State :=
  State.seed { s with
    pwr := { s.pwr with inReset := false, recoveryPin := low }
    stp := { s.stp with seen := s.stp.seen ||| (if s.stp.pinA then 4 else 0) ||| (if s.stp.pinB then 8 else 0) } }

theorem State.sampled_eq (s : State) (low : Bool) : s.sampled low =
    { s with
      pwr := { s.pwr with inReset := false, recoveryPin := low }, stp := { s.stp with seen := (s.sampled low).stp.seen }
      clk := { s.clk with t48 := s.seeded }, tb := { s.tb with errEst := (s.sampled low).tb.errEst } } := by
  unfold State.sampled State.seed State.seeded
  dsimp only
  split <;> rfl

/-- A release shows the pin, the sources seen and the seeded clock, and its events follow. -/
theorem State.leaveReset_released (s : State) (low : Bool) :
    (∃ seen errEst failA failB, State.eventsOnly (s.released low seen errEst failA failB) (s.leaveReset low)) ∧
      (s.leaveReset low).crn.boot = s.crn.boot := by
  obtain ⟨he, hb⟩ := State.releaseEvents_only (s.sampled low)
  have hs := State.sampled_eq s low
  have hsb : (s.sampled low).crn.boot = s.crn.boot := by rw [hs]
  cases low with
  | false =>
    refine ⟨⟨(s.sampled false).stp.seen, (s.sampled false).tb.errEst, s.boot.failA, s.boot.failB, ?_⟩, hb.trans hsb⟩
    rw [show s.released false _ _ _ _ = s.sampled false from hs.symm]
    exact he
  | true =>
    have hl : s.leaveReset true = { (s.sampled true).releaseEvents with
        pwr := { (s.sampled true).releaseEvents.pwr with state := .recovery }
        boot := { (s.sampled true).releaseEvents.boot with
          failA := ((s.sampled true).releaseEvents.slotFail false).isSome
          failB := ((s.sampled true).releaseEvents.slotFail true).isSome } } := rfl
    generalize (s.sampled true).releaseEvents = r at he hb hl
    refine ⟨⟨(s.sampled true).stp.seen, (s.sampled true).tb.errEst, (r.slotFail false).isSome, (r.slotFail true).isSome, ?_⟩,
      (congrArg (·.crn.boot) hl).trans (hb.trans hsb)⟩
    have hboot := (State.eventsOnly_boot he).trans (congrArg State.boot hs)
    have hpwr := (State.eventsOnly_pwr he).trans (congrArg State.pwr hs)
    have hk := State.eventsOnly_with he { r.pwr with state := .recovery }
      { r.boot with failA := (r.slotFail false).isSome, failB := (r.slotFail true).isSome }
    rw [hl]
    rw [hpwr, hboot, hs] at hk ⊢
    exact hk

theorem State.eventsOnly_unlogged {s t : State} (h : State.eventsOnly s t) (hb : t.crn.boot = s.crn.boot) :
    t.unlogged = s.unlogged := by
  unfold State.unlogged
  rw [hb, h.1]

/-- A release with BOOT_RECOVERY_N high changes nothing that a reset leaves. -/
theorem State.resetTo.leaveReset {s t : State} {cause : Nat} (h : s.resetTo cause t) : s.resetTo cause (t.leaveReset false) := by
  obtain ⟨⟨seen, errEst, failA, failB, he⟩, hb⟩ := State.leaveReset_released t false
  obtain ⟨hpend, hid⟩ := State.leaveReset_queueId t false
  obtain ⟨hpwr, hstp, hclk, -, hcfg, hhst, hdir, hboot, hslots, hboots, hstore, -⟩ :=
    Unlogged.mk.inj (State.eventsOnly_unlogged he hb)
  constructor <;> simp only [hpend, hid, hpwr, hstp, hclk, hcfg, hhst, hdir, hboot, hslots, hboots, hstore, State.released,
    h.cause, h.boots, h.state, h.latched, h.stop, h.source, h.count, h.enabled, h.cfg, h.direct, h.hst, h.id, h.counter, h.slots,
    h.store, h.flash, h.pending, Bool.false_eq_true, if_false]

/-! ### The commands -/

/-- A command whose guard holds answers the guarded state, one whose guard fails the other. -/
theorem next_of_guard {c : Prop} {_ : Decidable c} (s t : State) (h : c) : (.next (if c then s else t) : Result) = .next s := by
  rw [if_pos h]

theorem next_of_not_guard {c : Prop} {_ : Decidable c} (s t : State) (h : ¬ c) :
    (.next (if c then s else t) : Result) = .next t := by
  rw [if_neg h]

/-- What of a state with a rail below its threshold a reset speaks of. -/
theorem State.resetTo_of_rails {s t : State} {cause : Nat} (good : BitVec 10) (goodAt : Nat) (onVbat late : Bool) (cal : Cal)
    (h : State.resetTo { s with
      pwr := { s.pwr with good := good, goodAt := goodAt, onVbat := onVbat }, cal := cal
      key := { s.key with tamperLate := late } } cause t) : s.resetTo cause t := by
  obtain ⟨⟩ := h
  constructor <;> assumption

theorem execPowerOnReset_resets (s : State) (dt : Nat) {good : BitVec 10} (vbat : Bool) (hg : good ≠ 0x3FF) :
    reaches (execPowerOnReset dt good vbat s) fun t => (s.elapse dt).resetTo 0 t ∧ t.pwr.inReset = true := by
  refine ⟨_, next_of_not_guard _ _ hg, ?_, State.restart_inReset ..⟩
  split
  · exact State.resetTo_of_rails good _ _ s.key.tamperLate _ (State.restart_resetTo ..)
  · exact State.resetTo_of_rails good _ _ true _ (State.restart_resetTo ..)

/-- With every rail good the rails show, and when the last of them rose. -/
theorem execPowerOnReset_of_good (s : State) (dt : Nat) (vbat : Bool) :
    execPowerOnReset dt 0x3FF vbat s =
      .next { s.elapse dt with pwr := { s.pwr with
        good := 0x3FF, goodAt := if s.pwr.good ≠ 0x3FF then s.clk.counter + dt else s.pwr.goodAt } } := by
  have h9 : (0x3FF : BitVec 10).getLsbD 9 = true := rfl
  simp only [execPowerOnReset, h9, Bool.true_or, Bool.not_true, Bool.or_false, if_true]
  congr 3
  exact if_congr ((Bool.and_eq_true _ _).to_iff.trans ⟨fun h => of_decide_eq_true h.2, fun h => ⟨rfl, decide_eq_true h⟩⟩) rfl rfl

theorem execPwrDeviceReset_resets {s : State} (dt : Nat) {v : Word} (hv : v.toNat % 65536 = 0xA5A5) (hr : s.pwr.inReset = false) :
    reaches (execPwrDeviceReset dt v s) fun t => (s.elapse dt).resetTo 2 t ∧ t.pwr.inReset = false := by
  refine ⟨_, next_of_not_guard _ _ (by simp [hv, hr]), (State.restart_resetTo ..).leaveReset, ?_⟩
  obtain ⟨⟨seen, errEst, failA, failB, he⟩, -⟩ := State.leaveReset_released ((s.elapse dt).restart 2) false
  rw [State.eventsOnly_pwr he]
  rfl

/-- A release that the rails and the time allow shows what `State.released` says, and events follow. -/
theorem execResetRelease_releases {s : State} {dt : Nat} (low : Bool) (h1 : s.pwr.inReset = true) (h2 : s.pwr.good = 0x3FF)
    (h3 : s.pwr.goodAt + tickMs ≤ s.clk.counter + dt) :
    reaches (execResetRelease dt low s) fun t => ∃ seen errEst failA failB,
      State.eventsOnly ((s.elapse dt).released low seen errEst failA failB) t :=
  ⟨_, next_of_guard _ _ (by simp [h1, h2, h3]), (State.leaveReset_released (s.elapse dt) low).1⟩

/-- Settles O14: every reset leaves what `State.resetTo` says, a release at once keeps it, and a later release what
`State.released` says. -/
theorem resetLeavesBootAndItsReleaseSeedsTheClock : Obligations.ResetLeavesBootAndItsReleaseSeedsTheClock := by
  refine ⟨fun s dt cause c hc => ?_, fun s dt v hv => next_of_guard _ _ (by simp [hv]), fun s dt vbat => ?_,
    fun s dt low h => next_of_not_guard _ _ ?_, fun s dt low h1 h2 h3 => ?_⟩
  · suffices h : reaches (exec c s) fun t => (s.elapse dt).resetTo cause t ∧ t.pwr.inReset = decide (cause ≠ 2) by
      obtain ⟨t, ht, h, hr⟩ := h
      exact ⟨t, ht, hr, h.cause, h.boots, h.state, h.latched, h.stop, h.source, h.count, h.enabled, h.cfg, h.direct, h.hst, h.id,
        h.counter, h.slots, h.store, h.flash, h.pending⟩
    obtain ⟨good, vbat, rfl, hg, rfl⟩ | ⟨rfl, rfl⟩ | ⟨v, rfl, hv, hr, rfl⟩ := hc
    · exact execPowerOnReset_resets s dt vbat hg
    · exact ⟨_, rfl, State.restart_resetTo .., State.restart_inReset ..⟩
    · exact execPwrDeviceReset_resets dt hv hr
  · exact execPowerOnReset_of_good s dt vbat
  · simp only [Bool.and_eq_true]
    rintro ⟨⟨h1, h2⟩, h3⟩
    obtain h | h | h := h
    · exact absurd h1 (by simp [h])
    · exact h (of_decide_eq_true h2)
    · exact absurd (of_decide_eq_true h3) h.not_ge
  · obtain ⟨t, ht, seen, errEst, failA, failB, he⟩ := execResetRelease_releases (s := s) (dt := dt) low h1 h2 h3
    have hp := State.eventsOnly_pwr he
    have hs : t.stp = ((s.elapse dt).released low seen errEst failA failB).stp := by rw [he.1]
    have hc : t.clk = ((s.elapse dt).released low seen errEst failA failB).clk := by rw [he.1]
    have hb : t.tb = ((s.elapse dt).released low seen errEst failA failB).tb := by rw [he.1]
    have ho := State.eventsOnly_boot he
    refine ⟨t, ht, by rw [hp]; rfl, by rw [hp]; rfl, by rw [hp]; rfl, by rw [hs]; rfl, by rw [hc]; rfl, ?_⟩
    rw [hp, hs, hc, hb, ho]
    exact he

end Sys2Proof.Machine

namespace Sys2Proof.Machine

/-! ## What stops and commits leave

A stop request reaches the latch and the units that act on it, a commit the units that it names. Neither reaches the configuration's
registers, the power state, the counter or the launch entries on its way; each operation has one lemma that says so, which is a `simp`
rule. Most leave the latch too. -/

/-- The configuration, the power state, the counter and the launch entries of `t` are those of `s`. -/
@[reducible, simp] def State.sameBase (s t : State) : Prop :=
  t.cfg = s.cfg ∧ t.pwr = s.pwr ∧ t.clk.counter = s.clk.counter ∧ t.tb.launches = s.tb.launches

/-- And so are the rings and the FAULT of the Host Interface. -/
@[reducible, simp] def State.sameGround (s t : State) : Prop :=
  s.sameBase t ∧ t.hst.rings = s.hst.rings ∧ t.hst.fault = s.hst.fault

/-- The stop latch but for the outputs' read-backs and test periods and the count of frames that were not ready. -/
def Stp.core (c : Stp) : Stp := { c with readA := false, readB := false, testA := 0, testB := 0, precompMiss := 0 }

/-- All this, and the core of the stop latch. -/
@[reducible, simp] def State.sameLatch (s t : State) : Prop := s.sameGround t ∧ t.stp.core = s.stp.core

theorem State.sameBase.trans {s t u : State} (h : s.sameBase t) (k : t.sameBase u) : s.sameBase u := by
  simp_all

theorem State.sameLatch.trans {s t u : State} (h : s.sameLatch t) (k : t.sameLatch u) : s.sameLatch u :=
  by
  simp_all

/-- The state that a match takes out of an answer, where the answer's state is known. -/
theorem State.sameLatch.of_eq {α : Type} {s t : State} {r : State × α} {a : α} (h : s.sameLatch r.1) (e : r = (t, a)) :
    s.sameLatch t := by
  subst e
  exact h

@[simp] theorem State.cfg_ite {c : Prop} {_ : Decidable c} (s t : State) :
    (if c then s else t).cfg = if c then s.cfg else t.cfg := apply_ite ..

@[simp] theorem State.pwr_ite {c : Prop} {_ : Decidable c} (s t : State) :
    (if c then s else t).pwr = if c then s.pwr else t.pwr := apply_ite ..

@[simp] theorem State.stpCore_ite {c : Prop} {_ : Decidable c} (s t : State) :
    (if c then s else t).stp.core = if c then s.stp.core else t.stp.core := apply_ite (fun s : State => s.stp.core) ..

@[simp] theorem State.rings_ite {c : Prop} {_ : Decidable c} (s t : State) :
    (if c then s else t).hst.rings = if c then s.hst.rings else t.hst.rings := apply_ite (fun s : State => s.hst.rings) ..

@[simp] theorem State.hostFault_ite {c : Prop} {_ : Decidable c} (s t : State) :
    (if c then s else t).hst.fault = if c then s.hst.fault else t.hst.fault := apply_ite (fun s : State => s.hst.fault) ..

@[simp] theorem State.counter_ite {c : Prop} {_ : Decidable c} (s t : State) :
    (if c then s else t).clk.counter = if c then s.clk.counter else t.clk.counter := apply_ite (fun s : State => s.clk.counter) ..

@[simp] theorem State.launches_ite {c : Prop} {_ : Decidable c} (s t : State) :
    (if c then s else t).tb.launches = if c then s.tb.launches else t.tb.launches := apply_ite (fun s : State => s.tb.launches) ..

@[simp] theorem State.foldl_base {α : Type} {f : State → α → State} (h : ∀ s x, State.sameBase s (f s x)) (l : List α)
    (s : State) : s.sameBase (l.foldl f s) := by
  induction l generalizing s with
  | nil => exact ⟨rfl, rfl, rfl, rfl⟩
  | cons x l ih => exact (h s x).trans (ih (f s x))

@[simp] theorem State.foldl_latch {α : Type} {f : State → α → State} (h : ∀ s x, State.sameLatch s (f s x)) (l : List α)
    (s : State) : s.sameLatch (l.foldl f s) := by
  induction l generalizing s with
  | nil => exact ⟨⟨⟨rfl, rfl, rfl, rfl⟩, rfl, rfl⟩, rfl⟩
  | cons x l ih => exact (h s x).trans (ih (f s x))

@[simp] theorem State.foldl_fst_latch {α β : Type} {f : State × β → α → State × β}
    (h : ∀ a x, State.sameLatch a.1 (f a x).1) (l : List α) (a : State × β) : a.1.sameLatch (l.foldl f a).1 := by
  induction l generalizing a with
  | nil => exact ⟨⟨⟨rfl, rfl, rfl, rfl⟩, rfl, rfl⟩, rfl⟩
  | cons x l ih => exact (h a x).trans (ih (f a x))

@[simp] theorem State.setSrc_launches (s : State) (i : Nat) (v : SrcState) : (s.setSrc i v).tb.launches = s.tb.launches := rfl

/-- What events may change leaves them. -/
theorem State.quiet.latch {s t : State} (h : State.quiet s t) : s.sameLatch t := by
  obtain ⟨d, c, m, rfl, -⟩ := State.quiet_iff.1 h
  exact ⟨⟨⟨rfl, rfl, rfl, rfl⟩, rfl, rfl⟩, rfl⟩

@[simp] theorem State.noteTraceDrop_latch (s : State) : s.sameLatch s.noteTraceDrop := (State.noteTraceDrop_quiet s).latch

/-- What an answer may change leaves the base. -/
theorem State.hostQuiet.base {s t : State} (h : State.hostQuiet s t) : s.sameBase t := by
  obtain ⟨g, h, o, d, c, m, rfl, -⟩ := State.hostQuiet_iff.1 h
  exact ⟨rfl, rfl, rfl, rfl⟩

@[simp] theorem State.signal_latch (s : State) (v : Nat) : s.sameLatch (s.signal v) := by
  unfold State.signal
  dsimp only
  split <;> simp

@[simp] theorem State.modPtp_latch (s : State) (p : Nat) (f : PtpPort → PtpPort) : s.sameLatch (s.modPtp p f) := by
  simp [State.modPtp]

@[simp] theorem State.forgetNeighbour_latch (s : State) (p : Nat) : s.sameLatch (s.forgetNeighbour p) := by
  simp [State.forgetNeighbour]

@[simp] theorem State.dramErrors_latch (s : State) (l : List Nat) : s.sameLatch (s.dramErrors l) := by
  unfold State.dramErrors
  split <;> simp

@[simp] theorem State.dramPut_latch (s : State) (a : Nat) (b : List Byte) : s.sameLatch (s.dramPut a b) := by
  simp [State.dramPut]

@[simp] theorem State.dramStore_latch (s : State) (a : Nat) (b : List Byte) : s.sameLatch (s.dramStore a b) := by
  simp [State.dramStore]

@[simp] theorem State.signalErr_latch (s : State) : s.sameLatch s.signalErr := by simp [State.signalErr]

@[simp] theorem State.complete_base (s : State) (d : Desc) (status : Nat) (result : List Byte) (detail : Nat) :
    s.sameBase (s.complete d status result detail) :=
  (State.complete_hostQuiet s d status result detail).base

@[simp] theorem State.cachePut_latch (s : State) (i : Nat) (mat : List Byte) : s.sameLatch (s.cachePut i mat) := by
  unfold State.cachePut
  split <;> simp

@[simp] theorem State.orphanUse_latch (s : State) (i : Nat) : s.sameLatch (s.orphanUse i) := by simp [State.orphanUse]

theorem State.takeSpare_latch {s t : State} {region n : Nat} (h : s.takeSpare region = some (t, n)) : s.sameLatch t := by
  unfold State.takeSpare at h
  dsimp only at h
  split_ifs at h <;> cases h <;> exact ⟨⟨⟨rfl, rfl, rfl, rfl⟩, rfl, rfl⟩, rfl⟩

@[simp] theorem State.makeReadOnly_latch (s : State) (region : Nat) : s.sameLatch (s.makeReadOnly region) := by
  simp [State.makeReadOnly]

@[simp] theorem State.wornOut_latch (s : State) (region b : Nat) : s.sameLatch (s.wornOut region b) := by simp [State.wornOut]

@[simp] theorem State.countWrite_latch (s : State) (home n : Nat) : s.sameLatch (s.countWrite home n) := ⟨⟨⟨rfl, rfl, rfl, rfl⟩, rfl, rfl⟩, rfl⟩

@[simp] theorem State.writeRemap_latch (s : State) (b spare : Nat) : s.sameLatch (s.writeRemap b spare).1 := by
  unfold State.writeRemap
  dsimp only
  split
  · simp
  · split
    · next h => simp [State.takeSpare_latch h]
    · simp

@[simp] theorem State.nvWrite_latch (s : State) (region block : Nat) (run : NvRun) :
    s.sameLatch (s.nvWrite region block run).1 := by
  unfold State.nvWrite
  dsimp only
  split
  · simp
  · split
    · simp
    · next ht =>
      split
      · simp
      · split
        · simp
        · next h => simp [(State.writeRemap_latch ..).of_eq h, State.takeSpare_latch ht]

@[simp] theorem State.startFlush_latch (s : State) : s.sameLatch s.startFlush := by simp [State.startFlush]

@[simp] theorem State.enqueueFrame_latch (s : State) (p : Nat) (f : List Byte) : s.sameLatch (s.enqueueFrame p f).1 := by
  simp [State.enqueueFrame]

@[simp] theorem State.floodQueued_latch (s : State) (but : Option Nat) (f : List Byte) :
    s.sameLatch (s.floodQueued but f).1 := by
  simp [State.floodQueued]

@[simp] theorem State.nextSeq_latch (s : State) (cls : Nat) : s.sameLatch (s.nextSeq cls).1 := ⟨⟨⟨rfl, rfl, rfl, rfl⟩, rfl, rfl⟩, rfl⟩

@[simp] theorem State.originateQueued_latch (s : State) (src cls type hops flags : Nat) (body : List Byte) :
    s.sameLatch (s.originateQueued src cls type hops flags body).1 := by
  simp [State.originateQueued]

@[simp] theorem State.originateFlood_latch (s : State) (src cls type hops flags : Nat) (body : List Byte) :
    s.sameLatch (s.originateFlood src cls type hops flags body) := by
  simp [State.originateFlood]

@[simp] theorem State.linkFall_latch (s : State) (p : Nat) (why : LinkCause) : s.sameLatch (s.linkFall p why) := by
  simp [State.linkFall]

@[simp] theorem State.sendClaim_latch (s : State) (defend : Bool) : s.sameLatch (s.sendClaim defend) := by
  simp [State.sendClaim]

@[simp] theorem State.enterConflict_latch (s : State) : s.sameLatch s.enterConflict := by simp [State.enterConflict]

@[simp] theorem State.claimFrom_latch (s : State) (fuel a : Nat) : s.sameLatch (s.claimFrom fuel a) := by
  induction fuel generalizing a with
  | zero => simp [State.claimFrom]
  | succ fuel ih =>
    unfold State.claimFrom
    dsimp only
    split
    · exact ih _
    · simp

@[simp] theorem State.startClaim_latch (s : State) : s.sameLatch s.startClaim := by simp [State.startClaim]

@[simp] theorem State.dramWrite_latch (s : State) (a : Nat) (b : List Byte) : s.sameLatch (s.dramWrite a b) := by
  simp [State.dramWrite]

@[simp] theorem State.dramSeen_latch (s : State) (a n : Nat) : s.sameLatch (s.dramSeen a n) := by simp [State.dramSeen]

@[simp] theorem State.leaveImages_latch (s : State) : s.sameLatch s.leaveImages := by
  unfold State.leaveImages
  split <;> simp

@[simp] theorem State.writeBack_latch (s : State) (l : CacheLine) : s.sameLatch (s.writeBack l) := by simp [State.writeBack]

@[simp] theorem State.putLine_latch (s : State) (l : CacheLine) : s.sameLatch (s.putLine l) := by simp [State.putLine]

@[simp] theorem State.getLine_latch (s : State) (l : CacheLine) (sample : Bool) : s.sameLatch (s.getLine l sample).1 := by
  unfold State.getLine
  split <;> simp

@[simp] theorem State.dropLines_latch (s : State) (p : CacheLine → Bool) : s.sameLatch (s.dropLines p) := by
  simp [State.dropLines]

@[simp] theorem State.cleanLines_latch (s : State) : s.sameLatch s.cleanLines := by simp [State.cleanLines]

@[simp] theorem State.setCov_latch (s : State) (c : Cell) (code : Nat) (change : Bool) :
    s.sameLatch (s.setCov c code change) := by
  unfold State.setCov
  split
  · simp
  · dsimp only
    split
    · simp
    · split <;> next h => simp [(State.getLine_latch ..).of_eq h]

@[simp] theorem State.dropClaim_latch (s : State) (k : Nat) (c : Claim) : s.sameLatch (s.dropClaim k c) := by
  simp [State.dropClaim]

@[simp] theorem State.releaseClaims_latch (s : State) (p : Nat → Claim → Bool) : s.sameLatch (s.releaseClaims p) := by
  simp [State.releaseClaims]

@[simp] theorem State.ppsDrive_latch (s : State) (active : Bool) (time : Nat) : s.sameLatch (s.ppsDrive active time) := by
  simp [State.ppsDrive]

@[simp] theorem State.ppsEnd_latch (s : State) : s.sameLatch s.ppsEnd := by simp [State.ppsEnd]

@[simp] theorem State.setQuality_latch (s : State) (q : Quality) : s.sameLatch (s.setQuality q) := by
  unfold State.setQuality
  repeat' split
  all_goals simp

@[simp] theorem State.enterHoldover_latch (s : State) : s.sameLatch s.enterHoldover := by simp [State.enterHoldover]

@[simp] theorem State.reselect_latch (s : State) : s.sameLatch s.reselect := by simp [State.reselect]

@[simp] theorem State.loseSource_latch (s : State) (i : Nat) : s.sameLatch (s.loseSource i) := by simp [State.loseSource]

@[simp] theorem State.queueDl_latch (s : State) (b : DlBlock) : s.sameLatch (s.queueDl b) := ⟨⟨⟨rfl, rfl, rfl, rfl⟩, rfl, rfl⟩, rfl⟩

@[simp] theorem State.queueSched_latch (s : State) (p m lasn : Nat) (narrow : Bool) (mode : Nat) (t : List Byte) (pend : Bool) :
    s.sameLatch (s.queueSched p m lasn narrow mode t pend) := by
  simp [State.queueSched]

@[simp] theorem State.countOrphan_latch (s : State) (i : Nat) : s.sameLatch (s.countOrphan i) := by simp [State.countOrphan]

@[simp] theorem State.announceTo_latch (s : State) (p m : Nat) (a : Announce) (group stop keyGen : Nat) :
    s.sameLatch (s.announceTo p m a group stop keyGen) := by
  unfold State.announceTo
  dsimp only
  repeat' split
  all_goals simp

@[simp] theorem State.endAnnounce_latch (s : State) : s.sameLatch s.endAnnounce := by simp [State.endAnnounce]

@[simp] theorem State.withhold_latch (s : State) (p ch air asn : Nat) : s.sameLatch (s.withhold p ch air asn) := by
  simp [State.withhold]

@[simp] theorem State.frontEnd_latch (s : State) (p time : Nat) (f : Sel) : s.sameLatch (s.frontEnd p time f) := by
  simp [State.frontEnd]

@[simp] theorem State.onAir_latch (s : State) (p ch start mode : Nat) (frame : List Byte) :
    s.sameLatch (s.onAir p ch start mode frame) := by
  simp [State.onAir]

@[simp] theorem State.precompMiss_latch (s : State) : s.sameLatch s.precompMiss := by simp [State.precompMiss, Stp.core]

@[simp] theorem State.missUnder_latch (s : State) (i : Nat) : s.sameLatch (s.missUnder i) := by simp [State.missUnder]

@[simp] theorem State.freezeMirage_latch (s : State) : s.sameLatch s.freezeMirage := ⟨⟨⟨rfl, rfl, rfl, rfl⟩, rfl, rfl⟩, rfl⟩

@[simp] theorem State.beaconAir_latch (s : State) (p ch : Nat) (f : BeaconForm) (nominal start : Nat) :
    s.sameLatch (s.beaconAir p ch f nominal start) := by
  simp [State.beaconAir]

@[simp] theorem State.restamp_latch (s : State) (p asn start : Nat) : s.sameLatch (s.restamp p asn start) := ⟨⟨⟨rfl, rfl, rfl, rfl⟩, rfl, rfl⟩, rfl⟩

@[simp] theorem State.holdStops_latch (s : State) (p asn : Nat) : s.sameLatch (s.holdStops p asn) := by simp [State.holdStops]

@[simp] theorem State.holdAll_latch (s : State) : s.sameLatch s.holdAll := by simp [State.holdAll]

@[simp] theorem State.dropHeld_latch (s : State) (p : Nat) : s.sameLatch (s.dropHeld p) := by simp [State.dropHeld]

@[simp] theorem State.sendStop_latch (s : State) (p ch asn nominal : Nat) : s.sameLatch (s.sendStop p ch asn nominal) := by
  unfold State.sendStop
  split <;> simp

@[simp] theorem State.modCar_latch (s : State) (m : Nat) (f : CarMach → CarMach) : s.sameLatch (s.modCar m f) := by
  simp [State.modCar]

@[simp] theorem State.freezeRes_latch (s : State) (m : Nat) : s.sameLatch (s.freezeRes m) := by simp [State.freezeRes]

@[simp] theorem State.freezeAll_latch (s : State) : s.sameLatch s.freezeAll := by simp [State.freezeAll]

@[simp] theorem State.settleOuts_latch (s : State) : s.sameLatch s.settleOuts := ⟨⟨⟨rfl, rfl, rfl, rfl⟩, rfl, rfl⟩, rfl⟩

@[simp] theorem State.holdBodies_latch (s : State) : s.sameLatch s.holdBodies := by simp [State.holdBodies]

@[simp] theorem State.sendFabStop_latch (s : State) (stop : Bool) (count : BitVec 16) (scope window : Nat) :
    s.sameLatch (s.sendFabStop stop count scope window) := by
  unfold State.sendFabStop
  split <;> simp

@[simp] theorem State.floodStop_latch (s : State) (scope : Nat) : s.sameLatch (s.floodStop scope) := by simp [State.floodStop]

@[simp] theorem State.unflood_latch (s : State) : s.sameLatch s.unflood := ⟨⟨⟨rfl, rfl, rfl, rfl⟩, rfl, rfl⟩, rfl⟩

@[simp] theorem State.abandonSlot_latch (s : State) (p : Nat) (stays : Option Nat) : s.sameLatch (s.abandonSlot p stays) := by
  simp [State.abandonSlot]

@[simp] theorem State.latchPort_latch (s : State) (p : Nat) : s.sameLatch (s.latchPort p) := by
  unfold State.latchPort
  repeat' split
  all_goals simp

@[simp] theorem State.beginStorm_latch (s : State) : s.sameLatch s.beginStorm := by simp [State.beginStorm]

@[simp] theorem State.restartStorm_latch (s : State) : s.sameLatch s.restartStorm := by simp [State.restartStorm]

@[simp] theorem State.holdFrames_latch (s : State) : s.sameLatch s.holdFrames := by simp [State.holdFrames]

@[simp] theorem State.latchEffects_ground (s : State) (hostCode : Option Nat) (flood : Bool) :
    s.sameGround (s.latchEffects hostCode flood) := by
  simp [State.latchEffects]

@[simp] theorem State.joinEvent_ground (s : State) (src : Nat) (stop : Bool) (hostCode : Option Nat) (flood was : Bool)
    (wasCode : Option Nat) : s.sameGround (s.joinEvent src stop hostCode flood was wasCode) := by
  simp [State.joinEvent]

@[simp] theorem State.undoRelease_ground (s : State) : s.sameGround s.undoRelease := by
  unfold State.undoRelease
  split <;> simp

@[simp] theorem State.stopRequest_ground (s : State) (src : Nat) (stop : Bool) (hostCode : Option Nat) (flood : Bool) :
    s.sameGround (s.stopRequest src stop hostCode flood) := by
  unfold State.stopRequest
  dsimp only
  repeat' split
  all_goals simp

@[simp] theorem State.lastFlood_latch (s : State) : s.sameLatch s.lastFlood := by
  unfold State.lastFlood
  split
  · simp
  · exact .trans (by simp) (State.foldl_latch (fun s p => by split <;> simp) ..)

@[simp] theorem State.stopClock_latch (s : State) : s.sameLatch s.stopClock := by simp [State.stopClock]

@[simp] theorem State.silenceRadios_latch (s : State) : s.sameLatch s.silenceRadios := ⟨⟨⟨rfl, rfl, rfl, rfl⟩, rfl, rfl⟩, rfl⟩

@[simp] theorem State.stormAll_latch (s : State) : s.sameLatch s.stormAll := by simp [State.stormAll]

@[simp] theorem State.abandonEpoch_latch (s : State) (m n reason : Nat) : s.sameLatch (s.abandonEpoch m n reason) := by
  simp [State.abandonEpoch]

@[simp] theorem State.abandonAsm_latch (s : State) (m reason : Nat) : s.sameLatch (s.abandonAsm m reason) := by
  unfold State.abandonAsm
  split <;> simp

@[simp] theorem State.modChan_latch (s : State) (c : Nat) (f : Chan → Chan) : s.sameLatch (s.modChan c f) := by
  simp [State.modChan]

@[simp] theorem State.riseTo_ground (s : State) (n : Nat) : s.sameGround (s.riseTo n) := by simp [State.riseTo]

@[simp] theorem State.mirSettleTo_ground (s : State) (cap : Nat) : s.sameGround (s.mirSettleTo cap) := by
  simp [State.mirSettleTo]

@[simp] theorem State.dropDisabled_latch (s : State) : s.sameLatch s.dropDisabled := ⟨⟨⟨rfl, rfl, rfl, rfl⟩, rfl, rfl⟩, rfl⟩

@[simp] theorem State.runBmca_latch (s : State) : s.sameLatch s.runBmca := by simp [State.runBmca]

@[simp] theorem State.nextSearch_latch (s : State) : s.sameLatch s.nextSearch := ⟨⟨⟨rfl, rfl, rfl, rfl⟩, rfl, rfl⟩, rfl⟩

@[simp] theorem State.chanGone_latch (s : State) (chan : Nat) (config : Bool) : s.sameLatch (s.chanGone chan config) := by
  simp [State.chanGone]

@[simp] theorem State.restartBase_latch (s : State) : s.sameLatch s.restartBase := ⟨⟨⟨rfl, rfl, rfl, rfl⟩, rfl, rfl⟩, rfl⟩

@[simp] theorem State.ppsSettle_latch (s : State) (wasOn : Bool) : s.sameLatch (s.ppsSettle wasOn) := by
  simp [State.ppsSettle]

@[simp] theorem State.releaseFld_latch (s : State) (new : Conf) : s.sameLatch (s.releaseFld new) := by simp [State.releaseFld]

@[simp] theorem State.applyTb_latch (s : State) (was : State) : s.sameLatch (s.applyTb was) := by simp [State.applyTb]

@[simp] theorem State.endAcq_base (s : State) : s.sameBase s.endAcq := by simp [State.endAcq]

@[simp] theorem State.applyBase_latch (s : State) (was : State) : s.sameLatch (s.applyBase was) := by
  unfold State.applyBase
  split <;> simp

@[simp] theorem State.applyGns_base (s : State) (was : State) : s.sameBase (s.applyGns was) := by simp [State.applyGns]

@[simp] theorem State.applyMir_ground (s : State) (was : State) : s.sameGround (s.applyMir was) := by simp [State.applyMir]

@[simp] theorem State.applyFix_latch (s : State) (was : State) : s.sameLatch (s.applyFix was) := by simp [State.applyFix]

@[simp] theorem State.armSec_latch (s : State) : s.sameLatch s.armSec := by simp [State.armSec]

@[simp] theorem State.applySec_latch (s : State) (was : State) : s.sameLatch (s.applySec was) := by simp [State.applySec]

@[simp] theorem State.applyPort_latch (s : State) (was : State) (slots : Tbl (List Byte)) (p : Nat) :
    s.sameLatch (s.applyPort was slots p) := by
  unfold State.applyPort
  split <;> simp

@[simp] theorem State.applyHop_latch (s : State) (was : State) (slots : Tbl (List Byte)) (nodes : List Byte) :
    s.sameLatch (s.applyHop was slots nodes) := by
  simp [State.applyHop]

@[simp] theorem State.applyFab_latch (s : State) (was : State) : s.sameLatch (s.applyFab was) := by simp [State.applyFab]

@[simp] theorem State.applyMem_latch (s : State) (was : State) : s.sameLatch (s.applyMem was) := by simp [State.applyMem]

@[simp] theorem State.applyNvm_latch (s : State) : s.sameLatch s.applyNvm := ⟨⟨⟨rfl, rfl, rfl, rfl⟩, rfl, rfl⟩, rfl⟩

@[simp] theorem State.renewPins_latch (s : State) (named : BitVec 20) : s.sameLatch (s.renewPins named) := by
  simp [State.renewPins]

@[simp] theorem State.loadPinned_latch (s : State) : s.sameLatch s.loadPinned :=
  State.foldl_latch (fun s i => by split <;> simp) ..

@[simp] theorem State.settleStore_latch (s : State) : s.sameLatch s.settleStore := ⟨⟨⟨rfl, rfl, rfl, rfl⟩, rfl, rfl⟩, rfl⟩

@[simp] theorem State.storeBlock_latch (s : State) (mask : BitVec 20) (bytes : List Byte) (env : CommitIn) :
    s.sameLatch (s.storeBlock mask bytes env) := by
  unfold State.storeBlock
  split
  · simp
  · dsimp only
    split <;> next h => simp [(State.nvWrite_latch ..).of_eq h]

@[simp] theorem State.dmaTable_latch (s : State) (host : List (Nat × List Byte)) (addr n : Nat) :
    s.sameLatch (s.dmaTable host addr n).1 := by
  unfold State.dmaTable
  split <;> simp

@[simp] theorem State.readTables_latch (s : State) (conf : Conf) (named : BitVec 20) (host : List (Nat × List Byte)) :
    s.sameLatch (s.readTables conf named host).1 := by
  unfold State.readTables
  extract_lets ports
  split
  · split
    next t l h =>
    have ht : s.sameLatch t := (State.foldl_fst_latch
      (fun a p => by dsimp only; split <;> next h => simp [(State.dmaTable_latch ..).of_eq h]) _ _).of_eq h
    simp [ht]
  · simp

@[simp] theorem State.candidate'_latch (s : State) (snap : Conf) (named : BitVec 20) (host : List (Nat × List Byte))
    (again : Bool) : s.sameLatch (s.candidate' snap named host again).1 := by
  simp [State.candidate']

@[simp] theorem State.announceAll_latch (s : State) (c : Cand) (launch : Nat) : s.sameLatch (s.announceAll c launch) := by
  simp [State.announceAll]


end Sys2Proof.Machine

namespace Sys2Proof.Machine

/-! ### What a stop request makes of the latch (R333, R335) -/

/-- What a request makes of the latch rests on its core. -/
theorem Stp.requested_core (c c' : Stp) (now src : Nat) (stop : Bool) :
    Stp.requested c.core c'.core now src stop ↔ Stp.requested c c' now src stop := Iff.rfl

/-- A release of this very instant stands no longer. -/
def Stp.undone (c : Stp) : Stp := { c with latched := true, enabled := 0, released := none }

theorem State.undoRelease_undone {s : State} (h : s.stp.holds s.clk.counter) (hl : s.stp.latched = false) :
    s.undoRelease.stp.core = s.stp.undone.core := by
  obtain h | ⟨⟨a, ta, tb⟩, hr, rfl⟩ := h
  · simp [hl] at h
  · unfold State.undoRelease
    rw [hr]
    dsimp only
    rw [if_neg (by simp [hl])]
    exact (State.holdFrames_latch _).2

theorem State.undoRelease_eq {s : State} (h : s.stp.latched = true ∨ ¬ s.stp.holds s.clk.counter) : s.undoRelease = s := by
  unfold State.undoRelease
  split
  · next a ta tb hr =>
    refine if_pos ?_
    obtain h | h := h
    · simp [h]
    · have ha : a ≠ s.clk.counter := fun ha => h (.inr ⟨_, hr, ha⟩)
      simp [ha]
  · rfl

theorem State.latchEffects_core (s : State) (hostCode : Option Nat) (flood : Bool) : (s.latchEffects hostCode flood).stp.core =
    { s.stp with enabled := 0, event := some (s.clk.counter, flood, hostCode) }.core := by
  simp [State.latchEffects]


theorem State.joinEvent_core (s : State) (src : Nat) (stop : Bool) (hostCode : Option Nat) (flood was : Bool)
    (wasCode : Option Nat) :
    let takes := stop && !s.stp.stop || stop = s.stp.stop && src < s.stp.source
    (s.joinEvent src stop hostCode flood was wasCode).stp.core = { s.stp with
      stop := s.stp.stop || stop, source := if takes then src else s.stp.source
      event := some (s.clk.counter, if takes then flood else was, if takes then hostCode else wasCode) }.core := by
  unfold State.joinEvent
  dsimp only
  generalize (stop && !s.stp.stop || decide (stop = s.stp.stop) && decide (src < s.stp.source)) = takes
  cases takes with
  | false => rfl
  | true => simp [State.unflood]

section
variable {s : State} {src : Nat} {stop : Bool} {hostCode : Option Nat} {flood : Bool}

/-- A request opens a latch event of its own where the latch is clear once a release of the instant is undone. -/
theorem State.stopRequest_opens (h : s.undoRelease.stp.latched = false) :
    (s.stopRequest src stop hostCode flood).stp.core = { s.undoRelease.stp with
      armed := none, latched := true, stop := stop, source := src, count := s.undoRelease.stp.count + 1, seen := 1 <<< src
      enabled := 0, event := some (s.undoRelease.clk.counter, flood, hostCode) }.core := by
  unfold State.stopRequest
  dsimp only
  rw [if_pos (by simp [h])]
  exact State.latchEffects_core ..

/-- A request under a latch joins the event of its stage. -/
theorem State.stopRequest_joins {e : Nat × Bool × Option Nat} (h : s.undoRelease.stp.latched = true)
    (he : (s.undoRelease.stp.event.filter fun e => e.1 = s.undoRelease.clk.counter) = some e) :
    let c := s.undoRelease.stp
    let takes := stop && !c.stop || stop = c.stop && src < c.source
    (s.stopRequest src stop hostCode flood).stp.core = { c with
      armed := none, seen := c.seen ||| 1 <<< src, stop := c.stop || stop, source := if takes then src else c.source
      event := some (s.undoRelease.clk.counter, if takes then flood else e.2.1, if takes then hostCode else e.2.2) }.core := by
  unfold State.stopRequest
  dsimp only
  rw [if_neg (by simp [h]), he]
  exact State.joinEvent_core ..

/-- A request of `STOP` under a latch at `PAUSE` of an earlier stage is a latch event of its own. -/
theorem State.stopRequest_rises (h : s.undoRelease.stp.latched = true)
    (he : (s.undoRelease.stp.event.filter fun e => e.1 = s.undoRelease.clk.counter) = none)
    (hr : (stop && !s.undoRelease.stp.stop) = true) :
    (s.stopRequest src stop hostCode flood).stp.core = { s.undoRelease.stp with
      armed := none, seen := s.undoRelease.stp.seen ||| 1 <<< src, stop := true, source := src
      count := s.undoRelease.stp.count + 1, enabled := 0
      event := some (s.undoRelease.clk.counter, flood, hostCode) }.core := by
  unfold State.stopRequest
  dsimp only
  rw [if_neg (by simp [h]), he]
  dsimp only
  rw [if_pos hr]
  exact State.latchEffects_core ..

/-- Any other request under a latch is noted only. -/
theorem State.stopRequest_noted (h : s.undoRelease.stp.latched = true)
    (he : (s.undoRelease.stp.event.filter fun e => e.1 = s.undoRelease.clk.counter) = none)
    (hr : (stop && !s.undoRelease.stp.stop) = false) :
    (s.stopRequest src stop hostCode flood).stp.core = { s.undoRelease.stp with
      armed := none, seen := s.undoRelease.stp.seen ||| 1 <<< src }.core := by
  unfold State.stopRequest
  dsimp only
  rw [if_neg (by simp [h]), he]
  dsimp only
  rw [if_neg (by simp [hr]), State.raise_stp]

end

/-- A source's mark is the source's bit. -/
theorem Stp.mark_self {src : Nat} (h : src < 12) : (((1 <<< src : Nat)) : BitVec 12).getLsbD src = true := by
  interval_cases src <;> rfl

theorem Stp.marked (c : BitVec 12) {src : Nat} (h : src < 12) : (c ||| ((1 <<< src : Nat) : BitVec 12)).getLsbD src = true := by
  rw [BitVec.getLsbD_or, Stp.mark_self h, Bool.or_true]

/-- A latch that holds is set, and is as it was but for what a release of the instant had cleared. -/
theorem State.undoRelease_held {s : State} (h : s.stp.holds s.clk.counter) :
    let c := s.undoRelease.stp
    c.latched = true ∧ c.event = s.stp.event ∧ c.stop = s.stp.stop ∧ c.source = s.stp.source ∧ c.count = s.stp.count ∧
      (s.stp.latched = true → c.enabled = s.stp.enabled) := by
  cases hl : s.stp.latched with
  | true => simp [State.undoRelease_eq (.inl hl), hl]
  | false =>
    have hu := State.undoRelease_undone h hl
    exact ⟨(congrArg Stp.latched hu :), (congrArg Stp.event hu :), (congrArg Stp.stop hu :), (congrArg Stp.source hu :),
      (congrArg Stp.count hu :), nofun⟩

/-- A request of a class from a source makes of the latch what R333 and R335 say. -/
theorem State.stopRequest_requested (s : State) {src : Nat} (hsrc : src < 12) (stop : Bool) (hostCode : Option Nat) (flood : Bool) :
    Stp.requested s.stp (s.stopRequest src stop hostCode flood).stp s.clk.counter src stop := by
  rw [← Stp.requested_core]
  by_cases hh : s.stp.holds s.clk.counter
  · have hn : s.undoRelease.clk.counter = s.clk.counter := by simp
    obtain ⟨hl, hev, hst, hso, hco, hen⟩ := State.undoRelease_held hh
    cases he : s.undoRelease.stp.event.filter fun e => e.1 = s.undoRelease.clk.counter with
    | some e =>
      have hin : s.stp.inStage s.clk.counter := by
        obtain ⟨h1, h2⟩ := Option.filter_eq_some_iff.1 he
        exact ⟨e, hev ▸ h1, by simpa [hn] using h2⟩
      rw [State.stopRequest_joins hl he]
      refine ⟨hl, rfl, Stp.marked _ hsrc, fun h => absurd hh h, fun _ _ => ⟨?_, hco, ?_⟩, fun _ h => absurd hin h,
        fun _ h => absurd hin h⟩
      · exact congrArg (· || stop) hst
      · exact if_congr (by simp [Stp.core, hst, hso]) rfl hso
    | none =>
      have hin : ¬ s.stp.inStage s.clk.counter := by
        rintro ⟨e, h1, h2⟩
        rw [hev, h1] at he
        simp [h2] at he
      cases hr : stop && !s.undoRelease.stp.stop with
      | true =>
        rw [State.stopRequest_rises hl he hr]
        simp only [hst, Bool.and_eq_true, Bool.not_eq_true'] at hr
        refine ⟨hl, rfl, Stp.marked _ hsrc, fun h => absurd hh h, fun _ h => absurd h hin,
          fun _ _ _ _ => ⟨rfl, rfl, congrArg (· + 1) hco, rfl⟩, fun _ _ h => ?_⟩
        simp [Stp.core, hr] at h
      | false =>
        rw [State.stopRequest_noted hl he hr]
        simp only [hst] at hr
        refine ⟨hl, rfl, Stp.marked _ hsrc, fun h => absurd hh h, fun _ h => absurd h hin, fun _ _ h1 h2 => ?_,
          fun _ _ _ => ⟨hst, hso, hco, hen⟩⟩
        simp [show s.stp.stop = false from h1, h2] at hr
  · have hl : s.stp.latched = false := by
      simpa using fun hl => hh (.inl hl)
    have hu := State.undoRelease_eq (.inr hh)
    rw [State.stopRequest_opens (by rw [hu, hl]), hu]
    exact ⟨rfl, rfl, Stp.mark_self hsrc, fun _ => ⟨rfl, rfl, rfl, rfl⟩, fun h => absurd h hh, fun h => absurd h hh,
      fun h => absurd h hh⟩


/-! ### The entry to SAFE_HOLD (R25, R28 to R30, R102) -/

/-- What a fatal cause leaves of the configuration: the commit that is being checked is taken back. -/
def State.cfgAbandoned (s : State) : Cfg :=
  match s.undo with
  | none => s.cfg
  | some u => if s.cfg.busyUntil ≤ s.clk.counter then s.cfg else { s.cfg with
      active := u.active, units := u.units, generation := u.generation, busyUntil := s.clk.counter
      result := 3, reason := Rf.abandoned, ruleId := 0 }

@[simp] theorem Undo.restore_stp (u : Undo) (s : State) : (u.restore s).stp = s.stp := rfl
@[simp] theorem Undo.restore_clk (u : Undo) (s : State) : (u.restore s).clk = s.clk := rfl
@[simp] theorem Undo.restore_pwr (u : Undo) (s : State) : (u.restore s).pwr = { s.pwr with state := u.state } := rfl
@[simp] theorem Undo.restore_cfg (u : Undo) (s : State) :
    (u.restore s).cfg = { s.cfg with active := u.active, units := u.units, generation := u.generation } := rfl

theorem State.abandonCheck_enters (s : State) : s.abandonCheck.stp.core = s.stp.core ∧ s.abandonCheck.cfg = s.cfgAbandoned ∧
    s.abandonCheck.pwr.causes = s.pwr.causes ∧ s.abandonCheck.clk.counter = s.clk.counter := by
  unfold State.abandonCheck State.cfgAbandoned
  cases hu : s.undo with
  | none => exact ⟨rfl, rfl, rfl, rfl⟩
  | some u =>
    dsimp only
    by_cases h : s.cfg.busyUntil ≤ s.clk.counter
    · simp [h]
    · simp [h, State.noteRefusal, Nat.le_of_not_ge h]

@[simp] theorem State.addCause_cfg (s : State) (cause : Nat) : (s.addCause cause).cfg = s.cfg := by
  simp [State.addCause, State.stopClock]

theorem State.addCause_enters {s : State} (cause : Nat) (h : s.pwr.causes = 0) : (s.addCause cause).stp.core = s.stp.core ∧
    (s.addCause cause).pwr.fatal = cause ∧ (s.addCause cause).clk.counter = s.clk.counter := by
  simp [State.addCause, State.stopClock, h]

/-- The entry to SAFE_HOLD, once a commit under check is taken back. -/
def State.enterHold (s : State) (cause : Nat) : State :=
  let s := ((s.addCause cause).stopRequest Src.fatal false none false).lastFlood
  let s := (s.raise Ev.pwrSafeHold 0 (leBytes 1 cause)).startFlush
  let s := s.signalErr
  ((({ s with pwr := { s.pwr with state := .safeHold } }).haltForHold).stormAll.settleOuts).mark T.safeHold

theorem State.fatal_of_up {s : State} (hs : s.pwr.state = .waitHost ∨ s.pwr.state = .run) (cause : Nat) :
    s.fatal cause = s.abandonCheck.enterHold cause := by
  unfold State.fatal
  obtain hs | hs := hs <;> rw [hs] <;> rfl

theorem State.haltForHold_core (s : State) : s.haltForHold.stp.core = { s.stp.core with armed := none } := rfl

/-- The latch at the entry is what the request made of it. -/
theorem State.enterHold_core (s : State) (cause : Nat) : (s.enterHold cause).stp.core =
    { ((s.addCause cause).stopRequest Src.fatal false none false).stp.core with armed := none } := by
  simp [State.enterHold, State.haltForHold_core]

/-- A fold of changes to the ports changes the Hop Sequencer only. -/
theorem State.foldl_modHop {α : Type} (p : State → α → Nat) (f : State → α → HopPort → HopPort) (l : List α) (s : State) :
    l.foldl (fun s x => s.modHop (p s x) (f s x)) s =
      { s with hop := (l.foldl (fun s x => s.modHop (p s x) (f s x)) s).hop } := by
  induction l generalizing s with
  | nil => rfl
  | cons x l ih => exact ih (s.modHop (p s x) (f s x))

theorem State.stormAll_eq (s : State) : s.stormAll = { s with hop := s.stormAll.hop } :=
  State.foldl_modHop (fun _ p => p) (fun s _ h => { h with storm := h.storm || s.stp.latched }) _ s

@[simp] theorem State.stormAll_hst (s : State) : s.stormAll.hst = s.hst := by rw [State.stormAll_eq]
@[simp] theorem State.stormAll_tb (s : State) : s.stormAll.tb = s.tb := by rw [State.stormAll_eq]

@[simp] theorem State.enterHold_cfg (s : State) (cause : Nat) : (s.enterHold cause).cfg = s.cfg := by
  simp [State.enterHold, State.haltForHold]

/-- What the entry stops and clears. -/
theorem State.enterHold_enters {s : State} (cause : Nat) (hc : s.pwr.causes = 0) :
    let t := s.enterHold cause
    t.pwr.state = .safeHold ∧ t.pwr.fatal = cause ∧ t.hst.taken = [] ∧ t.tb.launches = [] ∧ t.tb.periodic = [] ∧ t.tb.alarms = [] ∧
      t.cfg = s.cfg := by
  obtain ⟨-, hf1, -⟩ := State.addCause_enters (s := s) cause hc
  simp [State.enterHold, State.haltForHold, State.settleOuts, hf1]

/-- The latch takes a request of `PAUSE` from `FATAL`. -/
theorem State.enterHold_requested {s : State} (cause : Nat) (hc : s.pwr.causes = 0) :
    Stp.requested s.stp (s.enterHold cause).stp s.clk.counter 11 false := by
  obtain ⟨hs, -, hn⟩ := State.addCause_enters (s := s) cause hc
  have hr := State.stopRequest_requested (s.addCause cause) (src := Src.fatal) (by decide) false none false
  rw [hn, ← Stp.requested_core, hs] at hr
  obtain ⟨hl, -, hrest⟩ := hr
  rw [← Stp.requested_core, State.enterHold_core]
  exact ⟨hl, rfl, hrest⟩

/-- What a fatal cause does in `WAIT_HOST` and in `RUN`. -/
theorem State.fatal_enters {s : State} {cause now : Nat} (hs : s.pwr.state = .waitHost ∨ s.pwr.state = .run) (hc : s.pwr.causes = 0)
    (hn : s.clk.counter = now) :
    let t := s.fatal cause
    t.pwr.state = .safeHold ∧ t.pwr.fatal = cause ∧ Stp.requested s.stp t.stp now 11 false ∧ t.hst.taken = [] ∧
      t.tb.launches = [] ∧ t.tb.periodic = [] ∧ t.tb.alarms = [] ∧ t.stp.armed = none ∧ t.cfg = s.cfgAbandoned := by
  obtain ⟨hs0, hc0, hp0, hn0⟩ := State.abandonCheck_enters s
  have hp := hp0.trans hc
  obtain ⟨h1, h2, h3, h4, h5, h6, h7⟩ := State.enterHold_enters cause hp
  have hr := State.enterHold_requested cause hp
  rw [hn0, hn, ← Stp.requested_core, hs0, Stp.requested_core] at hr
  rw [State.fatal_of_up hs]
  exact ⟨h1, h2, hr, h3, h4, h5, h6, (congrArg Stp.armed (State.enterHold_core s.abandonCheck cause) :), h7.trans hc0⟩

/-- The configuration where no check runs. -/
theorem State.cfgAbandoned_eq {s : State} (h : s.undo = none ∨ s.cfg.busyUntil ≤ s.clk.counter) : s.cfgAbandoned = s.cfg := by
  unfold State.cfgAbandoned
  cases hu : s.undo with
  | none => rfl
  | some u => exact if_pos (by simpa [hu] using h)

theorem State.cfgAbandoned_undo {s : State} {u : Undo} (hu : s.undo = some u) (h : s.clk.counter < s.cfg.busyUntil) :
    s.cfgAbandoned = { s.cfg with
      active := u.active, units := u.units, generation := u.generation, busyUntil := s.clk.counter
      result := 3, reason := Rf.abandoned, ruleId := 0 } := by
  unfold State.cfgAbandoned
  rw [hu]
  exact if_neg (Nat.not_le.2 h)

/-- A pad that stays where it is does not touch what a request rests on. -/
theorem State.stickPad_requested {s : State} {outB stopped : Bool} {c : Stp} {now src : Nat} {stop : Bool}
    (h : Stp.requested (s.stickPad outB stopped).stp c now src stop) : Stp.requested s.stp c now src stop := by
  cases outB <;> exact h

theorem execStageSlowFatal_of_slow {s : State} {dt a : Nat} (ha : s.pwr.slowSince = some a) (hd : a + tickMs ≤ s.clk.counter + dt)
    (hr : s.pwr.inReset = false) : execStageSlowFatal dt s = .next ((s.elapse dt).fatal Fatal.stageSlow) := by
  unfold execStageSlowFatal
  dsimp only
  rw [State.elapse_pwr, ha]
  refine next_of_not_guard _ _ ?_
  rw [Bool.or_eq_true, not_or]
  exact ⟨fun h => hd.not_gt (of_decide_eq_true h), by simp [hr]⟩

/-- The four causes lead to `State.fatal`, from a state that differs from the one before in the read-back of a pad at most. -/
theorem exec_fatal {s : State} {dt cause : Nat} {c : Instr} (hr : s.pwr.inReset = false)
    (hc : (c = .stageSlowFatal dt ∧ cause = 4 ∧ (∃ a, s.pwr.slowSince = some a ∧ a + tickMs ≤ s.clk.counter + dt)) ∨
      (c = .dieLinkFail dt ∧ cause = 5) ∨ ((∃ b, c = .stpOutMismatch dt b) ∧ cause = 6) ∨ (c = .securityCoreFault dt ∧ cause = 7)) :
    ∃ c', exec c s = .next (State.fatal { s.elapse dt with stp := c' } cause) ∧
      ∀ d, Stp.requested c' d (s.clk.counter + dt) 11 false → Stp.requested s.stp d (s.clk.counter + dt) 11 false := by
  obtain ⟨rfl, rfl, a, ha, hd⟩ | ⟨rfl, rfl⟩ | ⟨⟨b, rfl⟩, rfl⟩ | ⟨rfl, rfl⟩ := hc
  · exact ⟨s.stp, execStageSlowFatal_of_slow ha hd hr, fun _ h => h⟩
  · exact ⟨s.stp, next_of_not_guard _ _ (by simp [hr]), fun _ h => h⟩
  · exact ⟨((s.elapse dt).stickPad b (!(s.elapse dt).outStopped b)).stp, rfl, fun _ h => State.stickPad_requested (s := s.elapse dt) h⟩
  · exact ⟨s.stp, next_of_not_guard _ _ (by simp [hr]), fun _ h => h⟩

/-- Settles O17: the four causes are `State.fatal` of their code, and that is the entry to SAFE_HOLD. -/
theorem fatalCausesHoldTheDeviceSafe : Obligations.FatalCausesHoldTheDeviceSafe := by
  intro s dt cause c hs hr hc hcause
  obtain ⟨c', he, hreq⟩ := exec_fatal hr hcause
  obtain ⟨h1, h2, h3, h4, h5, h6, h7, h8, h9⟩ :=
    State.fatal_enters (s := { s.elapse dt with stp := c' }) (cause := cause) (now := s.clk.counter + dt) hs hc rfl
  exact ⟨_, he, h1, h2, hreq _ h3, h4, h5, h6, h7, h8, fun h => h9.trans (State.cfgAbandoned_eq h),
    fun u hu hb => h9.trans (State.cfgAbandoned_undo hu hb)⟩

end Sys2Proof.Machine

namespace Sys2Proof.Machine

/-! ### What taking effect makes of the configuration (R50, R62, R66) -/

@[simp] theorem State.enterRun_cfg (s : State) : s.enterRun.cfg = s.cfg ∧ s.enterRun.tb.launches = s.tb.launches ∧ s.enterRun.hst.rings = s.hst.rings ∧ s.enterRun.hst.fault = s.hst.fault ∧
    s.enterRun.clk.counter = s.clk.counter := by
  simp [State.enterRun]

/-- The configuration of a commit that takes effect. -/
def Cfg.taking (g : Cfg) (c : Cand) : Cfg :=
  { g with active := c.conf, units := g.units ||| c.named, generation := g.generation + 1, result := 2, reason := 0, ruleId := 0 }

@[simp] theorem State.activate_cfg (s : State) (c : Cand) : (s.activate c).cfg = s.cfg.taking c := rfl
@[simp] theorem State.activate_tb (s : State) (c : Cand) : (s.activate c).tb = s.tb := rfl
@[simp] theorem State.activate_hst (s : State) (c : Cand) : (s.activate c).hst = s.hst := rfl
@[simp] theorem State.activate_pwr (s : State) (c : Cand) : (s.activate c).pwr = s.pwr := rfl

theorem State.takeEffect_cfg (s : State) (c : Cand) :
    (s.takeEffect c).cfg = s.cfg.taking c ∧ (s.takeEffect c).tb.launches = s.tb.launches := by
  simp [State.takeEffect]

theorem State.commitNow_cfg (s : State) (c : Cand) (persist : Bool) (block : List Byte) (env : CommitIn) :
    (s.commitNow c persist block env).cfg = s.cfg.taking c ∧ (s.commitNow c persist block env).tb.launches = s.tb.launches := by
  simp [State.commitNow, State.takeEffect_cfg]

/-! ### A ring answers still -/

/-- A completion of a descriptor of a ring would be written. -/
def State.answersOn (s : State) (n : Nat) : Prop := (s.ring n).state ≠ .disabled ∧ s.hst.fault = false ∧ s.pwr.state ≠ .safeHold

theorem State.answersOn_of_same {s t : State} {n : Nat} (h : s.answersOn n) (hr : t.hst.rings = s.hst.rings ∧ t.hst.fault = s.hst.fault) (hp : t.pwr = s.pwr) : t.answersOn n := by
  simpa [State.answersOn, State.ring, hr.1, hr.2, hp] using h

theorem State.sameLatch.answersOn {s t : State} {n : Nat} (k : s.sameLatch t) (h : s.answersOn n) : t.answersOn n :=
  State.answersOn_of_same h k.1.2 k.1.1.2.1

theorem State.emit_answersOn {s : State} {n : Nat} (h : s.answersOn n) (o : Out) : (s.emit o).answersOn n := h

theorem State.modRing_answersOn {s : State} {n m : Nat} (h : s.answersOn n) {f : Ring → Ring}
    (hf : (s.ring m).state ≠ .disabled → (f (s.ring m)).state ≠ .disabled) : (s.modRing m f).answersOn n := by
  obtain ⟨hr, hq, hp⟩ := h
  refine ⟨?_, hq, hp⟩
  by_cases hm : n = m
  · subst hm
    have hn := hf hr
    have hg : (s.modRing n f).ring n = f (s.ring n) := tget_tset_self_of_ne _ (fun h => hn (congrArg Ring.state h)) n
    rwa [hg]
  · rwa [State.ring_modRing_ne s f hm]

theorem State.raise_answersOn {s : State} {n : Nat} (h : s.answersOn n) (e : Ev) (i : Nat) (a : List Byte) :
    (s.raise e i a).answersOn n :=
  (State.raise_quiet s e i a).latch.answersOn h

theorem State.ite_answersOn {c : Prop} {_ : Decidable c} {s t : State} {n : Nat} (h : s.answersOn n) (k : t.answersOn n) :
    (if c then s else t).answersOn n := by
  split
  · exact h
  · exact k

theorem State.moderate_answersOn {s : State} {n : Nat} (h : s.answersOn n) (m : Nat) (irq : Bool) : (s.moderate m irq).answersOn n := by
  unfold State.moderate
  dsimp only
  split
  · exact (State.signal_latch ..).answersOn (State.modRing_answersOn h fun h => h)
  · exact State.modRing_answersOn h fun h => h

theorem State.writeCompletion_answersOn {s : State} {n : Nat} (h : s.answersOn n) (d : Desc) (status detail : Nat)
    (result : List Byte) : (s.writeCompletion d status detail result).answersOn n := by
  unfold State.writeCompletion
  dsimp only
  have inner {c : Bool} {t : State} {m i : Nat} {a : List Byte} (ht : t.answersOn n) :
      State.answersOn (if c then (t.signalErr).raise (Ev.hstRingHalted m) i a else t) n :=
    State.ite_answersOn (State.raise_answersOn ((State.signalErr_latch t).answersOn ht) ..) ht
  refine State.ite_answersOn (State.raise_answersOn (inner ?_) ..) (inner ?_)
  all_goals
    refine State.moderate_answersOn (State.emit_answersOn (State.modRing_answersOn (State.emit_answersOn h _) fun hs => ?_) _) ..
    dsimp only
    split
    · nofun
    · exact hs

theorem State.complete1_answersOn {s : State} {n : Nat} (h : s.answersOn n) (d : Desc) (status detail : Nat)
    (result : List Byte) : (s.complete1 d status detail result).answersOn n := by
  have hl : (s.leave d).answersOn n := State.answersOn_of_same h (by simp) (by simp)
  unfold State.complete1
  dsimp only
  split
  · exact hl
  · exact State.writeCompletion_answersOn hl ..

theorem State.complete_answersOn {s : State} {n : Nat} (h : s.answersOn n) (d : Desc) (status : Nat) (result : List Byte)
    (detail : Nat) : (s.complete d status result detail).answersOn n := by
  have h1 := State.complete1_answersOn h d status detail result
  unfold State.complete State.flushVerdict
  dsimp only
  repeat' split
  all_goals first | exact h1 | exact State.complete1_answersOn h1 ..

theorem State.foldl_answersOn {α : Type} {n : Nat} {f : State → α → State} (hf : ∀ s x, State.answersOn s n → (f s x).answersOn n)
    (l : List α) {s : State} (h : s.answersOn n) : (l.foldl f s).answersOn n := by
  induction l generalizing s with
  | nil => exact h
  | cons x l ih => exact ih (hf s x h)

theorem State.endAcq_answersOn {s : State} {n : Nat} (h : s.answersOn n) : s.endAcq.answersOn n := by
  unfold State.endAcq
  refine State.foldl_answersOn (fun s d h => State.complete_answersOn h ..) _ ?_
  exact h

theorem State.applyGns_answersOn {s : State} {n : Nat} (h : s.answersOn n) (was : State) : (s.applyGns was).answersOn n := by
  have hg := State.foldl_answersOn (fun t c ht => (State.chanGone_latch t c true).answersOn ht) (s.lostChans was) h
  exact State.answersOn_of_same (State.endAcq_answersOn hg) (by simp [State.applyGns]) (by simp [State.applyGns])

theorem State.enterRun_answersOn {s : State} {n : Nat} (h : s.answersOn n) : s.enterRun.answersOn n := by
  unfold State.enterRun
  refine State.ite_answersOn ((State.armSec_latch _).answersOn ?_) h
  have hs := (State.stormAll_latch { s with pwr := { s.pwr with state := .run } }).answersOn (n := n) ⟨h.1, h.2.1, nofun⟩
  exact State.ite_answersOn ((State.startClaim_latch _).answersOn hs) hs

/-- A commit's state when it comes to the GNSS Receiver. -/
def State.beforeGns (was : State) (c : Cand) : State :=
  let s := if c.named.getLsbD U.fld then was.releaseFld c.conf else was
  let s := s.activate c
  if c.named.getLsbD U.tb then s.applyTb was else s

theorem State.takeEffect_answersOn {s : State} {n : Nat} (h : s.answersOn n) (c : Cand) : (s.takeEffect c).answersOn n := by
  have hb : (s.beforeGns c).answersOn n := State.answersOn_of_same h (by simp [State.beforeGns]) (by simp [State.beforeGns])
  have hg : State.answersOn (if c.named.getLsbD U.gns then (s.beforeGns c).applyGns s else s.beforeGns c) n :=
    State.ite_answersOn (State.applyGns_answersOn hb s) hb
  unfold State.takeEffect
  extract_lets on fld act tb gns mir fix sec hop fab mem nvm f keys
  have h4 : gns.answersOn n := hg
  clear_value gns
  refine (State.holdFrames_latch _).answersOn (State.answersOn_of_same (s := State.loadPinned _) ?_ ⟨rfl, rfl⟩ rfl)
  refine (State.loadPinned_latch _).answersOn (State.enterRun_answersOn ?_)
  exact State.answersOn_of_same h4 (by simp [keys, nvm, mem, fab, hop, sec, fix, mir, on]) (by simp [keys, nvm, mem, fab, hop, sec, fix, mir, on])

theorem State.commitNow_answersOn {s : State} {n : Nat} (h : s.answersOn n) (c : Cand) (persist : Bool) (block : List Byte) (env : CommitIn) :
    (s.commitNow c persist block env).answersOn n := by
  unfold State.commitNow
  dsimp only
  split
  · exact (State.storeBlock_latch ..).answersOn (State.takeEffect_answersOn h c)
  · exact State.takeEffect_answersOn h c

end Sys2Proof.Machine

namespace Sys2Proof.Machine

/-! ### The candidate of a commit (R55, R56) -/

@[simp] theorem State.clk_ite {c : Prop} {_ : Decidable c} (s t : State) :
    (if c then s else t).clk = if c then s.clk else t.clk := apply_ite ..

theorem State.foldl_fst_clk {α β : Type} {f : State × β → α → State × β} (h : ∀ a x, (f a x).1.clk = a.1.clk) (l : List α)
    (a : State × β) : (l.foldl f a).1.clk = a.1.clk := by
  induction l generalizing a with
  | nil => rfl
  | cons x l ih => exact (ih (f a x)).trans (h a x)

@[simp] theorem State.dmaTable_clk (s : State) (host : List (Nat × List Byte)) (addr n : Nat) :
    (s.dmaTable host addr n).1.clk = s.clk := by
  unfold State.dmaTable
  split <;> simp

@[simp] theorem State.readTables_clk (s : State) (conf : Conf) (named : BitVec 20) (host : List (Nat × List Byte)) :
    (s.readTables conf named host).1.clk = s.clk := by
  unfold State.readTables
  extract_lets ports
  split
  · split
    next t l h =>
    have ht : t.clk = s.clk := (congrArg (fun x => x.1.clk) h).symm.trans (State.foldl_fst_clk (fun a p => by
      dsimp only
      split <;> next h => exact (congrArg (fun x => x.1.clk) h).symm.trans (State.dmaTable_clk ..)) _ _)
    simp [ht]
  · simp

@[simp] theorem State.candidate'_clk (s : State) (snap : Conf) (named : BitVec 20) (host : List (Nat × List Byte)) (again : Bool) :
    (s.candidate' snap named host again).1.clk = s.clk := by
  simp [State.candidate']

@[simp] theorem State.candidate'_now (s : State) (snap : Conf) (named : BitVec 20) (host : List (Nat × List Byte)) (again : Bool) :
    (s.candidate' snap named host again).1.now = s.now := by
  simp [State.now]

@[simp] theorem State.candidate'_conf (s : State) (snap : Conf) (named : BitVec 20) (host : List (Nat × List Byte)) (again : Bool) :
    (s.candidate' snap named host again).2.conf = s.cfg.active.withUnits snap named := rfl

@[simp] theorem State.candidate'_named (s : State) (snap : Conf) (named : BitVec 20) (host : List (Nat × List Byte)) (again : Bool) :
    (s.candidate' snap named host again).2.named = named := rfl

/-! ### What a commit's answer shows -/

/-- A refusal's configuration. -/
def Cfg.refusing (g : Cfg) (reason rule : Nat) : Cfg := { g with result := 3, reason := reason, ruleId := rule }

@[simp] theorem State.noteRefusal_cfg (s : State) (reason rule : Nat) : (s.noteRefusal reason rule).cfg = s.cfg.refusing reason rule :=
  rfl

/-- A fatal cause with no commit under check leaves the configuration. -/
theorem State.fatal_cfg {s : State} (h : s.undo = none) (cause : Nat) : (s.fatal cause).cfg = s.cfg := by
  have hup (hs : s.pwr.state = .waitHost ∨ s.pwr.state = .run) : (s.fatal cause).cfg = s.cfg := by
    rw [State.fatal_of_up hs, State.enterHold_cfg, (State.abandonCheck_enters s).2.1, State.cfgAbandoned_eq (.inl h)]
  cases hs : s.pwr.state
  case waitHost => exact hup (.inl hs)
  case run => exact hup (.inr hs)
  case safeHold =>
    unfold State.fatal
    rw [hs]
    simp
  all_goals
    unfold State.fatal
    rw [hs]

theorem State.abandonCommit_cfg (s : State) (cause : Nat) : (s.abandonCommit cause).cfg =
    { s.cfg.refusing Rf.abandoned 0 with busyUntil := min s.cfg.busyUntil s.clk.counter } :=
  State.fatal_cfg rfl cause

/-- A commit that a fatal cause abandons. -/
theorem State.abandonCommit_enters {s : State} {cause : Nat} (hs : s.pwr.state = .run ∨ s.pwr.state = .waitHost) (hc : s.pwr.causes = 0) :
    (s.abandonCommit cause).pwr.state = .safeHold ∧ (s.abandonCommit cause).pwr.fatal = cause := by
  obtain ⟨h1, h2, -⟩ :=
    State.fatal_enters (s := (s.noteRefusal Rf.abandoned 0).endCheck) (cause := cause) hs.symm hc rfl
  exact ⟨h1, h2⟩

/-- What a commit that takes effect shows (R62). -/
def State.commitTaken (s t : State) (snap : Conf) (mask : BitVec 20) : Prop :=
  t.cfg.active = s.cfg.active.withUnits snap mask ∧ t.cfg.units = s.cfg.units ||| mask ∧
  t.cfg.generation = s.cfg.generation + 1 ∧ t.cfg.result = 2 ∧ t.cfg.reason = 0 ∧ t.cfg.ruleId = 0

/-- What a refused commit shows (R62). -/
def State.commitRefused (s t : State) (reason rule : Nat) : Prop :=
  t.cfg.active = s.cfg.active ∧ t.cfg.units = s.cfg.units ∧ t.cfg.generation = s.cfg.generation ∧ t.cfg.result = 3 ∧
  t.cfg.reason = reason ∧ t.cfg.ruleId = rule

/-- The active configuration of `t`, its units and its generation are those of `s`. -/
def Cfg.sameActive (g k : Cfg) : Prop := k.active = g.active ∧ k.units = g.units ∧ k.generation = g.generation

theorem Cfg.sameActive.refused {s t u : State} {reason rule : Nat} (h : Cfg.sameActive s.cfg u.cfg)
    (ht : t.cfg = u.cfg.refusing reason rule) : s.commitRefused t reason rule := by
  rw [State.commitRefused, ht]
  exact ⟨h.1, h.2.1, h.2.2, rfl, rfl, rfl⟩

theorem Cfg.sameActive.abandoned {s t u : State} {busy : Nat} (h : Cfg.sameActive s.cfg u.cfg)
    (ht : t.cfg = { u.cfg.refusing Rf.abandoned 0 with busyUntil := busy }) : s.commitRefused t Rf.abandoned 0 := by
  rw [State.commitRefused, ht]
  exact ⟨h.1, h.2.1, h.2.2, rfl, rfl, rfl⟩

theorem Cfg.sameActive.taken {s t u : State} {c : Cand} {snap : Conf} {mask : BitVec 20} (h : Cfg.sameActive s.cfg u.cfg)
    (hc : c.conf = u.cfg.active.withUnits snap mask) (hm : c.named = mask) (ht : t.cfg = u.cfg.taking c) :
    s.commitTaken t snap mask := by
  obtain ⟨ha, hu, hg⟩ := h
  rw [State.commitTaken, ht]
  exact ⟨by rw [← ha]; exact hc, by rw [← hu, ← hm]; rfl, by rw [← hg]; rfl, rfl, rfl, rfl⟩

/-! ### CFG_COMMIT (R61) -/

section
variable {s : State} {v : Word} {env : CommitIn}

theorem State.commitRegister_busy (h : s.clk.counter < s.cfg.busyUntil) : s.commitRegister v env = s :=
  if_pos (by simp [h])

variable (h1 : s.pwr.inReset = false) (h2 : s.hst.fault = false) (h3 : s.pwr.state ≠ .safeHold) (h4 : bits v.toNat 24 8 = 0x5C)
  (h5 : s.cfg.busyUntil ≤ s.clk.counter)
include h1 h2 h3 h4 h5

theorem State.commitRegister_empty (h : BitVec.ofNat 20 v.toNat = 0) : s.commitRegister v env = s.noteRefusal Rf.empty 0 := by
  unfold State.commitRegister
  dsimp only
  rw [if_neg (by simp [h1, h2, h4, h5]), if_neg h3, if_pos h]

theorem State.commitRegister_running (hm : BitVec.ofNat 20 v.toNat ≠ 0) (hr : ∃ r ∈ s.hst.rings, r.2.state ≠ .disabled) :
    s.commitRegister v env = s.noteRefusal Rf.ringsRunning 0 := by
  unfold State.commitRegister
  dsimp only
  rw [if_neg (by simp [h1, h2, h4, h5]), if_neg h3, if_neg hm, if_pos (by simpa using hr)]

/-- A register commit whose check runs, by its outcome. -/
theorem State.commitRegister_checks (hm : BitVec.ofNat 20 v.toNat ≠ 0) (hr : ∀ r ∈ s.hst.rings, r.2.state = .disabled) :
    let mask := BitVec.ofNat 20 v.toNat
    let x := (s.beginCheck env).candidate' (s.cfg.staged.only mask) mask env.host false
    (∀ c, fatalCause env = some c → s.commitRegister v env = x.1.abandonCommit c) ∧
    (fatalCause env = none → ∀ r, x.1.checkCommit x.2 [] (v.getLsbD 20) = some r →
      s.commitRegister v env = (x.1.noteRefusal r.1 r.2).keepUndo x.1 0) ∧
    (fatalCause env = none → x.1.checkCommit x.2 [] (v.getLsbD 20) = none →
      ∃ block, s.commitRegister v env = (x.1.commitNow x.2 (v.getLsbD 20) block env).keepUndo x.1 mask) := by
  unfold State.commitRegister
  dsimp only
  rw [if_neg (by simp [h1, h2, h4, h5]), if_neg h3, if_neg hm, if_neg (by simpa using hr)]
  refine ⟨fun c hc => ?_, fun hc r hr => ?_, fun hc hn => ?_⟩
  · rw [hc]
  · rw [hc, hr]
  · rw [hc, hn]
    exact ⟨_, rfl⟩

/-- A register commit of no unit, or while a ring is enabled, is refused. -/
theorem State.commitRegister_early {t : State} (ht : t = s.commitRegister v env) :
    (BitVec.ofNat 20 v.toNat = 0 → s.commitRefused t Rf.empty 0 ∧ t.cfg.staged = s.cfg.staged) ∧
    (BitVec.ofNat 20 v.toNat ≠ 0 → (∃ r ∈ s.hst.rings, r.2.state ≠ .disabled) →
      s.commitRefused t Rf.ringsRunning 0 ∧ t.cfg.staged = s.cfg.staged) := by
  have hs : Cfg.sameActive s.cfg s.cfg := ⟨rfl, rfl, rfl⟩
  subst ht
  constructor
  · intro h
    rw [State.commitRegister_empty h1 h2 h3 h4 h5 h]
    exact ⟨hs.refused rfl, rfl⟩
  · intro h h'
    rw [State.commitRegister_running h1 h2 h3 h4 h5 h h']
    exact ⟨hs.refused rfl, rfl⟩

/-- A register commit whose check runs is abandoned, refused or taken. -/
theorem State.commitRegister_settles {t : State} (ht : t = s.commitRegister v env) (hm : BitVec.ofNat 20 v.toNat ≠ 0)
    (hr : ∀ r ∈ s.hst.rings, r.2.state = .disabled) :
    let mask := BitVec.ofNat 20 v.toNat
    let x := (s.beginCheck env).candidate' (s.cfg.staged.only mask) mask env.host false
    t.cfg.staged = s.cfg.staged ∧
    (∀ c, fatalCause env = some c → s.pwr.state = .run ∨ s.pwr.state = .waitHost → s.pwr.causes = 0 →
      s.commitRefused t Rf.abandoned 0 ∧ t.pwr.state = .safeHold ∧ t.pwr.fatal = c) ∧
    (fatalCause env = none → ∀ r, x.1.checkCommit x.2 [] (v.getLsbD 20) = some r → s.commitRefused t r.1 r.2) ∧
    (fatalCause env = none → x.1.checkCommit x.2 [] (v.getLsbD 20) = none → s.commitTaken t (s.cfg.staged.only mask) mask) := by
  intro mask x
  obtain ⟨hf, hc, ht'⟩ := State.commitRegister_checks h1 h2 h3 h4 h5 hm hr
  obtain ⟨⟨hcfg, hpwr, hn, -⟩, -⟩ := (State.candidate'_latch (s.beginCheck env) (s.cfg.staged.only mask) mask env.host false).1
  have hs : Cfg.sameActive s.cfg x.1.cfg := by
    rw [hcfg]
    exact ⟨rfl, rfl, rfl⟩
  have hst : x.1.cfg.staged = s.cfg.staged := by rw [hcfg]; rfl
  subst ht
  cases hfc : fatalCause env with
  | some c =>
    rw [hf c hfc]
    refine ⟨(congrArg Cfg.staged (State.abandonCommit_cfg x.1 c)).trans hst, fun c' hc' hst hca => ?_, nofun, nofun⟩
    cases hc'
    obtain ⟨h6, h7⟩ := State.abandonCommit_enters (s := x.1) (cause := c) (by rw [hpwr]; exact hst) (by rw [hpwr]; exact hca)
    exact ⟨hs.abandoned (State.abandonCommit_cfg x.1 c), h6, h7⟩
  | none =>
    cases hch : x.1.checkCommit x.2 [] (v.getLsbD 20) with
    | some r =>
      rw [hc hfc r hch]
      refine ⟨hst, nofun, fun _ r' hr' => ?_, nofun⟩
      cases hr'
      exact hs.refused rfl
    | none =>
      obtain ⟨block, hb⟩ := ht' hfc hch
      have htk := (State.commitNow_cfg x.1 x.2 (v.getLsbD 20) block env).1
      rw [hb]
      exact ⟨(congrArg Cfg.staged htk).trans hst, nofun, nofun, fun _ _ => hs.taken (congrArg (Conf.withUnits · _ _) (congrArg Cfg.active hcfg).symm) rfl htk⟩

end

/-! ### HST_COMMIT (R63, R385) -/

/-- A block's entries reach staging and the clamp counters only. -/
theorem State.stageEntries_eq (l : List (Nat × Nat)) (s : State) :
    ∃ g, s.stageEntries l = { s with cfg := g } ∧ Cfg.sameActive s.cfg g := by
  induction l generalizing s with
  | nil => exact ⟨s.cfg, rfl, rfl, rfl, rfl⟩
  | cons e l ih =>
    have hw : ∃ g, (match regAt e.1 with | some r => s.writeStaged r e.1 e.2 | none => s) = { s with cfg := g } ∧
        Cfg.sameActive s.cfg g := by
      cases regAt e.1 with
      | none => exact ⟨s.cfg, rfl, rfl, rfl, rfl⟩
      | some r =>
        refine ⟨(s.writeStaged r e.1 e.2).cfg, ?_⟩
        simp only [State.writeStaged, State.countClamps]
        split <;> exact ⟨rfl, rfl, rfl, rfl⟩
    obtain ⟨g, hg, h1, h2, h3⟩ := hw
    obtain ⟨g', hg', k1, k2, k3⟩ := ih { s with cfg := g }
    refine ⟨g', ?_, k1.trans h1, k2.trans h2, k3.trans h3⟩
    rw [← hg', ← hg]
    rfl

/-- The completion of a descriptor whose ring answers is in the journal. -/
theorem State.complete_shown {s : State} {d : Desc} (h : s.answersOn d.ring) (hs : d.silent = false) (hu : d.unwritten = none)
    (status : Nat) (result : List Byte) (detail : Nat) :
    ∃ a ph hl ex, Out.hostWrite a (complBytes d ph hl status detail ex result) ∈ (s.complete d status result detail).out := by
  obtain ⟨⟨rest, ho⟩, -⟩ := State.complete_answered hs hu h.1 h.2.1 h.2.2 status result detail
  rw [ho]
  exact ⟨_, _, _, _, List.mem_append_right _ List.mem_cons_self⟩

theorem State.offers_answersOn {s : State} {ring index op : Nat} {d : Desc} (h : s.offers ring index op d) : s.answersOn d.ring := by
  obtain ⟨h, hs, hu⟩ := h
  have hm := (Option.filter_eq_some_iff.1 h).2
  unfold State.mayStart at hm
  simp only [Bool.and_eq_true] at hm
  obtain ⟨⟨⟨-, hf⟩, hp⟩, hr⟩ := hm
  refine ⟨fun hd => ?_, by simpa using hf, by simpa using hp⟩
  split at hr <;> simp_all

theorem State.refuseCommit_refused {s u : State} {d : Desc} (hs : Cfg.sameActive s.cfg u.cfg) (ha : u.answersOn d.ring)
    (hd : d.silent = false) (hu : d.unwritten = none) (reason rule : Nat) :
    s.commitRefused (u.refuseCommit d reason rule) reason rule ∧ (u.refuseCommit d reason rule).cfg.staged = u.cfg.staged ∧
      ∃ a ph h ex, .hostWrite a (complBytes d ph h St.refused reason ex (commitResult rule 0 0)) ∈
        (u.refuseCommit d reason rule).out := by
  have hc := (State.complete_base (u.noteRefusal reason rule) d St.refused (commitResult rule 0 0) reason).1
  exact ⟨hs.refused hc, (congrArg Cfg.staged hc).trans rfl, State.complete_shown (s := u.noteRefusal reason rule) ha hd hu ..⟩

section
variable {s : State} {d : Desc} {b : Block} {block : List Byte} {before : Conf} {env : CommitIn} (hf : fatalCause env = none)
include hf

/-- A commit descriptor whose check no fatal cause meets, by its outcome. -/
theorem State.runCommit_cases {x : State × Cand}
    (hx : s.endCheck.candidate' (s.cfg.staged.only b.mask) b.mask env.host false = x) :
    let snap := s.cfg.staged.only b.mask
    let restore := fun (s : State) => { s with cfg := { s.cfg with staged := before } }
    (∀ r, x.1.checkCommit x.2 b.entries b.persist = some r →
      s.runCommit d b block before env = (restore x.1).refuseCommit d r.1 r.2) ∧
    (x.1.checkCommit x.2 b.entries b.persist = none → s.now < d.launch → x.1.launchRoom = true → ∃ p : PendingCommit,
      p.snap = snap ∧ p.mask = b.mask ∧ p.persist = b.persist ∧ s.runCommit d b block before env =
        ((x.1.insertLaunch d.launch (.commit p)).announceAll x.2 d.launch).complete d St.ok (commitResult 0 1 0)) ∧
    (x.1.checkCommit x.2 b.entries b.persist = none → s.now < d.launch → x.1.launchRoom = false →
      s.runCommit d b block before env = ((restore x.1).refuseCommit d Rf.launchFull 0).raise Ev.tbLaunchFull 0 []) ∧
    (x.1.checkCommit x.2 b.entries b.persist = none → ¬ s.now < d.launch → s.runCommit d b block before env =
      (x.1.commitNow x.2 b.persist block env).complete { d with late := d.late || d.launch ≠ 0 } St.ok
        (commitResult 0 0 (x.1.commitNow x.2 b.persist block env).cfg.generation.toNat)) := by
  intro snap restore
  have hn : x.1.now = s.now := by
    rw [← hx]
    exact State.candidate'_now ..
  unfold State.runCommit
  dsimp only
  rw [hx]
  refine ⟨fun r hr => ?_, fun hr hl hm => ⟨⟨d.ring, d.index, BitVec.ofNat 32 d.tag, b.mask, snap, b.persist, block⟩, rfl, rfl, rfl, ?_⟩,
    fun hr hl hm => ?_, fun hr hl => ?_⟩
  · obtain ⟨reason, rule⟩ := r
    rw [hf, hr]
  · rw [hf, hr]
    exact (if_pos (hn ▸ hl)).trans (if_pos hm)
  · rw [hf, hr]
    exact (if_pos (hn ▸ hl)).trans (if_neg (ne_true_of_eq_false hm))
  · rw [hf, hr]
    exact if_neg (hn ▸ hl)

/-- What the answer to a commit descriptor shows: `s` is the state with the block in staging, `s'` the one before. -/
theorem State.runCommit_settles {s' : State} (hs : Cfg.sameActive s'.cfg s.cfg) (ha : s.answersOn d.ring) (hd : d.silent = false)
    (hu : d.unwritten = none) {t : State} (ht : t = s.runCommit d b block before env)
    {x : State × Cand} (hx : s.endCheck.candidate' (s.cfg.staged.only b.mask) b.mask env.host false = x) :
    let snap := s.cfg.staged.only b.mask
    (∀ r, x.1.checkCommit x.2 b.entries b.persist = some r → s'.commitRefused t r.1 r.2 ∧ t.cfg.staged = before ∧
      ∃ a ph h ex, .hostWrite a (complBytes d ph h St.refused r.1 ex (commitResult r.2 0 0)) ∈ t.out) ∧
    (x.1.checkCommit x.2 b.entries b.persist = none → s.now < d.launch → x.1.launchRoom = true →
      Cfg.sameActive s'.cfg t.cfg ∧ t.cfg.staged = s.cfg.staged ∧
      ∃ l ∈ t.tb.launches, l.time = d.launch ∧ ∃ c, l.kind = .commit c ∧ c.snap = snap ∧ c.mask = b.mask ∧ c.persist = b.persist) ∧
    (x.1.checkCommit x.2 b.entries b.persist = none → s.now < d.launch → x.1.launchRoom = false →
      s'.commitRefused t Rf.launchFull 0 ∧ t.cfg.staged = before) ∧
    (x.1.checkCommit x.2 b.entries b.persist = none → ¬ s.now < d.launch →
      s'.commitTaken t snap b.mask ∧ t.cfg.staged = s.cfg.staged ∧
      ∃ a late ph h ex, .hostWrite a (complBytes { d with late := late } ph h St.ok 0 ex
        (commitResult 0 0 (s'.cfg.generation + 1).toNat)) ∈ t.out) := by
  intro snap
  obtain ⟨hr, hq, hl, hn⟩ := State.runCommit_cases (d := d) (block := block) (before := before) hf hx
  obtain ⟨hsame, hconf, hnamed⟩ :
      s.endCheck.sameLatch x.1 ∧ x.2.conf = s.cfg.active.withUnits snap b.mask ∧ x.2.named = b.mask := by
    rw [← hx]
    exact ⟨State.candidate'_latch .., rfl, rfl⟩
  have hcfg : x.1.cfg = s.endCheck.cfg := hsame.1.1.1
  have hxs : Cfg.sameActive s'.cfg x.1.cfg := by
    rw [hcfg]
    exact hs
  have hxa : x.1.answersOn d.ring := hsame.answersOn ha
  have hst : x.1.cfg.staged = s.cfg.staged := by
    rw [hcfg]
    rfl
  have hconf' : x.2.conf = x.1.cfg.active.withUnits snap b.mask := by
    rw [hcfg]
    exact hconf
  subst ht
  refine ⟨fun r h => ?_, fun h1 h2 h3 => ?_, fun h1 h2 h3 => ?_, fun h1 h2 => ?_⟩
  · rw [hr r h]
    exact State.refuseCommit_refused (u := { x.1 with cfg := { x.1.cfg with staged := before } }) hxs hxa hd hu r.1 r.2
  · obtain ⟨p, hp1, hp2, hp3, ht⟩ := hq h1 h2 h3
    rw [ht]
    obtain ⟨hc, -, -, hla⟩ := State.complete_base ((x.1.insertLaunch d.launch (.commit p)).announceAll x.2 d.launch) d St.ok
      (commitResult 0 1 0) 0
    obtain ⟨hc', -, -, hla'⟩ := (State.announceAll_latch (x.1.insertLaunch d.launch (.commit p)) x.2 d.launch).1.1
    rw [hc, hla, hc', hla']
    exact ⟨hxs, hst, ⟨d.launch, .commit p, false⟩, List.mem_append_right _ List.mem_cons_self, rfl, p, rfl, hp1, hp2, hp3⟩
  · rw [hl h1 h2 h3, State.commitRefused, State.raise_cfg]
    obtain ⟨h, hb, -⟩ := State.refuseCommit_refused (u := { x.1 with cfg := { x.1.cfg with staged := before } }) hxs hxa hd hu
      Rf.launchFull 0
    exact ⟨h, hb⟩
  · rw [hn h1 h2]
    have hc := (State.complete_base (x.1.commitNow x.2 b.persist block env) { d with late := d.late || d.launch ≠ 0 } St.ok
        (commitResult 0 0 (x.1.commitNow x.2 b.persist block env).cfg.generation.toNat) 0).1
    have htk := (State.commitNow_cfg x.1 x.2 b.persist block env).1
    have hg : (x.1.commitNow x.2 b.persist block env).cfg.generation = s'.cfg.generation + 1 := by
      rw [htk, ← hxs.2.2]
      rfl
    refine ⟨hxs.taken hconf' hnamed (hc.trans htk),
      (congrArg Cfg.staged (hc.trans htk)).trans hst, ?_⟩
    rw [hg]
    obtain ⟨a, ph, hl, ex, h⟩ := State.complete_shown (d := { d with late := d.late || d.launch ≠ 0 })
      (State.commitNow_answersOn hxa x.2 b.persist block env) hd hu St.ok (commitResult 0 0 (s'.cfg.generation + 1).toNat) 0
    exact ⟨a, _, ph, hl, ex, h⟩

end

/-- A commit descriptor with a block, or of named units without one, runs its commit with the block's entries in staging. -/
theorem State.hostCommit_runs {s : State} {d : Desc} {payload : List Byte} {b : Block} {env : CommitIn} (hlen : d.len ≤ 131072)
    (hb : b = ⟨BitVec.ofNat 20 (d.operand 0 4), bit (d.operand 4 1) 0, []⟩ ∧ b.mask ≠ 0 ∧ d.len = 0 ∨
      d.len ≠ 0 ∧ parseBlock (padTo d.len payload) = some b) :
    ∃ block, s.hostCommit d payload env = (s.stageEntries b.entries).runCommit d b block s.cfg.staged env := by
  unfold State.hostCommit
  dsimp only
  obtain ⟨rfl, hm, h0⟩ | ⟨h0, hp⟩ := hb
  · rw [if_pos h0, if_neg hm]
    exact ⟨_, rfl⟩
  · rw [if_neg h0, if_neg (Nat.not_lt.2 hlen), hp]
    exact ⟨_, rfl⟩

/-- What the answer to a commit descriptor that the host offers shows: `staged` is the state with its block in staging. -/
theorem State.hostCommit_settles {s : State} {dt ring index : Nat} {payload : List Byte} {env : CommitIn} {d : Desc} {b : Block}
    (ho : s.offers ring index opCommit d) (hlen : d.len ≤ 131072) (hf : fatalCause env = none)
    (hb : b = ⟨BitVec.ofNat 20 (d.operand 0 4), bit (d.operand 4 1) 0, []⟩ ∧ b.mask ≠ 0 ∧ d.len = 0 ∨
      d.len ≠ 0 ∧ parseBlock (padTo d.len payload) = some b)
    {staged t : State} (hstaged : (s.elapse dt).stageEntries b.entries = staged) (ht : t = (s.elapse dt).hostCommit d payload env)
    {x : State × Cand}
    (hx : staged.endCheck.candidate' (staged.cfg.staged.only b.mask) b.mask env.host false = x) :
    let snap := staged.cfg.staged.only b.mask
    exec (.hstCommit dt ring index payload env.host env.toCommitRun) s = .next t ∧
    (∀ r, x.1.checkCommit x.2 b.entries b.persist = some r → s.commitRefused t r.1 r.2 ∧ t.cfg.staged = s.cfg.staged ∧
      ∃ a ph h ex, .hostWrite a (complBytes d ph h St.refused r.1 ex (commitResult r.2 0 0)) ∈ t.out) ∧
    (x.1.checkCommit x.2 b.entries b.persist = none → (s.elapse dt).now < d.launch → x.1.launchRoom = true →
      Cfg.sameActive s.cfg t.cfg ∧ t.cfg.staged = staged.cfg.staged ∧
      ∃ l ∈ t.tb.launches, l.time = d.launch ∧ ∃ c, l.kind = .commit c ∧ c.snap = snap ∧ c.mask = b.mask ∧ c.persist = b.persist) ∧
    (x.1.checkCommit x.2 b.entries b.persist = none → (s.elapse dt).now < d.launch → x.1.launchRoom = false →
      s.commitRefused t Rf.launchFull 0 ∧ t.cfg.staged = s.cfg.staged) ∧
    (x.1.checkCommit x.2 b.entries b.persist = none → ¬ (s.elapse dt).now < d.launch →
      s.commitTaken t snap b.mask ∧ t.cfg.staged = staged.cfg.staged ∧
      ∃ a late ph h ex, .hostWrite a (complBytes { d with late := late } ph h St.ok 0 ex
        (commitResult 0 0 (s.cfg.generation + 1).toNat)) ∈ t.out) := by
  intro snap
  obtain ⟨block, hrun⟩ := State.hostCommit_runs (s := s.elapse dt) (env := env) hlen hb
  obtain ⟨g, hg, hs⟩ := State.stageEntries_eq b.entries (s.elapse dt)
  rw [hstaged] at hg hrun
  have ha : staged.answersOn d.ring := by
    rw [hg]
    exact State.offers_answersOn ho
  have hn : staged.now = (s.elapse dt).now := by
    rw [hg]
    rfl
  have hsame : Cfg.sameActive s.cfg staged.cfg := by
    rw [hg]
    exact hs
  have hset := State.runCommit_settles hf hsame ha ho.2.1 ho.2.2 (ht.trans hrun) hx
  rw [hn] at hset
  refine ⟨?_, hset⟩
  rw [ht]
  exact congrArg Host.Outcome.next (State.withDesc_of_offers (State.offers_elapse dt ho) rfl _)

/-! ### The launch instant (R64, R65) -/

section
variable {s : State} {l : Launch} {p : PendingCommit} {env : CommitIn} (hf : fatalCause env = none)
  (hd : s.dueLaunch LaunchKind.isCommit = some l) (hl : l.kind = .commit p)
include hf hd hl

/-- A queued commit at its instant, by the outcome of its second check. -/
theorem State.launchCommit_cases {u : State} (hu : u = { s with tb := { s.tb with launches := s.tb.launches.erase l } })
    {x : State × Cand} (hx : u.endCheck.candidate' p.snap p.mask env.host true = x) :
    (∀ r, x.1.checkRules x.2 p.persist = some r → s.launchCommit env =
      ((if p.mask.getLsbD U.hop then x.1.endAnnounce else x.1).noteRefusal r.1 r.2).raise Ev.cfgLaunchRefused 0 (leBytes 1 r.1)) ∧
    (x.1.checkRules x.2 p.persist = none →
      s.launchCommit env = (x.1.commitNow x.2 p.persist p.block env).raise Ev.cfgApplied 0 []) := by
  unfold State.launchCommit
  rw [hd]
  dsimp only
  rw [hl]
  dsimp only
  rw [← hu, hx, hf]
  refine ⟨fun r hr => ?_, fun hr => ?_⟩ <;> rw [hr]

/-- What a queued commit shows at its instant. -/
theorem State.launchCommit_settles {u t : State} (hu : u = { s with tb := { s.tb with launches := s.tb.launches.erase l } })
    (ht : t = s.launchCommit env) {x : State × Cand} (hx : u.endCheck.candidate' p.snap p.mask env.host true = x) :
    t.tb.launches = s.tb.launches.erase l ∧ t.cfg.staged = s.cfg.staged ∧
    (∀ r, x.1.checkRules x.2 p.persist = some r → s.commitRefused t r.1 r.2) ∧
    (x.1.checkRules x.2 p.persist = none → s.commitTaken t p.snap p.mask) := by
  obtain ⟨hr, ht'⟩ := State.launchCommit_cases hf hd hl hu hx
  obtain ⟨hcfg, hla, hconf, hnamed⟩ : x.1.cfg = u.endCheck.cfg ∧ x.1.tb.launches = s.tb.launches.erase l ∧
      x.2.conf = u.cfg.active.withUnits p.snap p.mask ∧ x.2.named = p.mask := by
    rw [← hx]
    obtain ⟨⟨h1, -, -, h2⟩, -⟩ := (State.candidate'_latch u.endCheck p.snap p.mask env.host true).1
    exact ⟨h1, h2.trans (by rw [hu]; rfl), rfl, rfl⟩
  have hs : Cfg.sameActive s.cfg x.1.cfg := by
    rw [hcfg, hu]
    exact ⟨rfl, rfl, rfl⟩
  have hst : x.1.cfg.staged = s.cfg.staged := by
    rw [hcfg, hu]
    rfl
  subst ht
  cases hch : x.1.checkRules x.2 p.persist with
  | some r =>
    rw [hr r hch]
    have hc : (((if p.mask.getLsbD U.hop then x.1.endAnnounce else x.1).noteRefusal r.1 r.2).raise Ev.cfgLaunchRefused 0
        (leBytes 1 r.1)).cfg = x.1.cfg.refusing r.1 r.2 := by simp
    refine ⟨?_, (congrArg Cfg.staged hc).trans hst, fun r' hr' => ?_, nofun⟩
    · simpa [State.noteRefusal] using hla
    · cases hr'
      exact hs.refused hc
  | none =>
    rw [ht' hch]
    obtain ⟨hc, hlc⟩ := State.commitNow_cfg x.1 x.2 p.persist p.block env
    rw [State.commitTaken, State.raise_cfg, State.raise_tb]
    refine ⟨hlc.trans hla, (congrArg Cfg.staged hc).trans hst, nofun, fun _ => hs.taken ?_ hnamed hc⟩
    rw [hconf, hcfg]
    rfl

end

/-! ### The statement -/

/-- Settles O42: a register commit, a commit descriptor and a queued commit, each by the outcome of its check. -/
theorem commitsReplaceTheNamedUnits : Obligations.CommitsReplaceTheNamedUnits := by
  unfold Obligations.CommitsReplaceTheNamedUnits
  intro taken refused
  refine ⟨?_, ?_, ?_, ?_⟩
  · intro s dt v env h1 h2 h3 h4 h5 mask x
    obtain ⟨he, hrun⟩ := State.commitRegister_early (s := s.elapse dt) (env := env) h1 h2 h3 h4 h5 rfl
    have hset := State.commitRegister_settles (s := s.elapse dt) (env := env) h1 h2 h3 h4 h5 rfl
    refine ⟨_, rfl, ?_, fun hm => (he hm).1, fun hm hr => (hrun hm hr).1, fun c hm hr => (hset hm hr).2.1 c, fun hm hr hf => ?_⟩
    · by_cases hm : BitVec.ofNat 20 v.toNat = 0
      · exact (he hm).2
      · by_cases hr : ∃ r ∈ s.hst.rings, r.2.state ≠ .disabled
        · exact (hrun hm hr).2
        · exact (hset hm (by simpa using hr)).1
    · obtain ⟨-, -, href, htak⟩ := hset hm hr
      split
      · next h => exact htak hf h
      · next h => exact href hf _ h
  · intro s dt v env h
    exact congrArg Host.Outcome.next (State.commitRegister_busy h)
  · intro s dt ring index payload env d b ho hlen hf hb staged snap x
    obtain ⟨hn, href, hque, hful, htak⟩ := State.hostCommit_settles ho hlen hf hb rfl rfl rfl
    refine ⟨_, hn, ?_⟩
    split
    · next h =>
      rw [ite_prop_iff_and]
      refine ⟨fun hl => ⟨fun hr => ?_, hful h hl⟩, htak h⟩
      obtain ⟨⟨h1, h2, h3⟩, h4, h5⟩ := hque h hl hr
      exact ⟨h1, h2, h3, h4, h5⟩
    · next h => exact href _ h
  · intro s dt env l p hf h1 h2 hd hl u x
    obtain ⟨hla, hst, href, htak⟩ := State.launchCommit_settles (s := s.elapse dt) hf hd hl rfl rfl rfl
    refine ⟨_, next_of_not_guard _ _ (by simp [h1, h2]), hla, hst, ?_⟩
    split
    · next h => exact htak h
    · next h => exact href _ h

end Sys2Proof.Machine

namespace Sys2Proof.Machine

/-! ## Superframes and slots (R231, R236, R242, R245, R253)

What the operations under a slot or a boundary leave of the radio. Most reach the Hop Sequencer not at all. -/

/-- The Hop Sequencer, the clock, the active configuration and the latch of `t` are those of `s`. -/
@[reducible, simp] def State.sameHop (s t : State) : Prop :=
  t.hop = s.hop ∧ t.clk = s.clk ∧ t.cfg.active = s.cfg.active ∧ t.stp.latched = s.stp.latched

theorem State.sameHop.trans {s t u : State} (h : s.sameHop t) (k : t.sameHop u) : s.sameHop u := by
  simp_all

/-- The state that a match takes out of an answer, where the answer's state is known. -/
theorem State.sameHop.of_eq {α : Type} {s t : State} {r : State × α} {a : α} (h : s.sameHop r.1) (e : r = (t, a)) :
    s.sameHop t := by
  subst e
  exact h

@[simp] theorem State.hop_ite {c : Prop} {_ : Decidable c} (s t : State) :
    (if c then s else t).hop = if c then s.hop else t.hop := apply_ite ..

@[simp] theorem State.active_ite {c : Prop} {_ : Decidable c} (s t : State) :
    (if c then s else t).cfg.active = if c then s.cfg.active else t.cfg.active := apply_ite (fun s : State => s.cfg.active) ..

@[simp] theorem State.latched_ite {c : Prop} {_ : Decidable c} (s t : State) :
    (if c then s else t).stp.latched = if c then s.stp.latched else t.stp.latched := apply_ite (fun s : State => s.stp.latched) ..

@[simp] theorem State.foldl_sameHop {α : Type} {f : State → α → State} (h : ∀ s x, State.sameHop s (f s x)) (l : List α)
    (s : State) : s.sameHop (l.foldl f s) := by
  induction l generalizing s with
  | nil => exact ⟨rfl, rfl, rfl, rfl⟩
  | cons x l ih => exact (h s x).trans (ih (f s x))

@[simp] theorem State.foldl_fst_sameHop {α β : Type} {f : State × β → α → State × β}
    (h : ∀ a x, State.sameHop a.1 (f a x).1) (l : List α) (a : State × β) : a.1.sameHop (l.foldl f a).1 := by
  induction l generalizing a with
  | nil => exact ⟨rfl, rfl, rfl, rfl⟩
  | cons x l ih => exact (h a x).trans (ih (f a x))

/-- What events may change leaves the radio. -/
theorem State.quiet.sameHop {s t : State} (h : State.quiet s t) : s.sameHop t := by
  obtain ⟨d, c, m, rfl, -⟩ := State.quiet_iff.1 h
  exact ⟨rfl, rfl, rfl, rfl⟩

@[simp] theorem State.noteTraceDrop_sameHop (s : State) : s.sameHop s.noteTraceDrop := (State.noteTraceDrop_quiet s).sameHop

@[simp] theorem State.dramErrors_sameHop (s : State) (l : List Nat) : s.sameHop (s.dramErrors l) := by
  unfold State.dramErrors
  split <;> simp

@[simp] theorem State.dramPut_sameHop (s : State) (a : Nat) (b : List Byte) : s.sameHop (s.dramPut a b) := by
  simp [State.dramPut]

@[simp] theorem State.dramStore_sameHop (s : State) (a : Nat) (b : List Byte) : s.sameHop (s.dramStore a b) := by
  simp [State.dramStore]

@[simp] theorem State.dramSeen_sameHop (s : State) (a n : Nat) : s.sameHop (s.dramSeen a n) := by simp [State.dramSeen]

@[simp] theorem State.dramWrite_sameHop (s : State) (a : Nat) (b : List Byte) : s.sameHop (s.dramWrite a b) := by
  simp [State.dramWrite]

@[simp] theorem State.writeBack_sameHop (s : State) (l : CacheLine) : s.sameHop (s.writeBack l) := by simp [State.writeBack]

@[simp] theorem State.putLine_sameHop (s : State) (l : CacheLine) : s.sameHop (s.putLine l) := by simp [State.putLine]

@[simp] theorem State.getLine_sameHop (s : State) (l : CacheLine) (sample : Bool) : s.sameHop (s.getLine l sample).1 := by
  unfold State.getLine
  split <;> simp

@[simp] theorem State.setCov_sameHop (s : State) (c : Cell) (code : Nat) (change : Bool) :
    s.sameHop (s.setCov c code change) := by
  unfold State.setCov
  split
  · simp
  · dsimp only
    split
    · simp
    · split <;> next h => simp [(State.getLine_sameHop ..).of_eq h]

@[simp] theorem State.dropClaim_sameHop (s : State) (k : Nat) (c : Claim) : s.sameHop (s.dropClaim k c) := by
  simp [State.dropClaim]

@[simp] theorem State.releaseClaims_sameHop (s : State) (p : Nat → Claim → Bool) : s.sameHop (s.releaseClaims p) := by
  simp [State.releaseClaims]

@[simp] theorem State.abandonEpoch_sameHop (s : State) (m n reason : Nat) : s.sameHop (s.abandonEpoch m n reason) := by
  simp [State.abandonEpoch]

@[simp] theorem State.abandonAsm_sameHop (s : State) (m reason : Nat) : s.sameHop (s.abandonAsm m reason) := by
  unfold State.abandonAsm
  split <;> simp

@[simp] theorem State.modCar_sameHop (s : State) (m : Nat) (f : CarMach → CarMach) : s.sameHop (s.modCar m f) := by
  simp [State.modCar]

@[simp] theorem State.freezeRes_sameHop (s : State) (m : Nat) : s.sameHop (s.freezeRes m) := by simp [State.freezeRes]

@[simp] theorem State.freezeAll_sameHop (s : State) : s.sameHop s.freezeAll := by simp [State.freezeAll]

@[simp] theorem State.frontEnd_sameHop (s : State) (p time : Nat) (f : Sel) : s.sameHop (s.frontEnd p time f) := by
  simp [State.frontEnd]

@[simp] theorem State.settleOuts_sameHop (s : State) : s.sameHop s.settleOuts := ⟨rfl, rfl, rfl, rfl⟩

@[simp] theorem State.holdBodies_sameHop (s : State) : s.sameHop s.holdBodies := by simp [State.holdBodies]

@[simp] theorem State.nextSeq_sameHop (s : State) (cls : Nat) : s.sameHop (s.nextSeq cls).1 := ⟨rfl, rfl, rfl, rfl⟩

@[simp] theorem State.enqueueFrame_sameHop (s : State) (p : Nat) (f : List Byte) : s.sameHop (s.enqueueFrame p f).1 := by
  simp [State.enqueueFrame]

@[simp] theorem State.floodQueued_sameHop (s : State) (but : Option Nat) (f : List Byte) :
    s.sameHop (s.floodQueued but f).1 := by
  simp [State.floodQueued]

@[simp] theorem State.originateQueued_sameHop (s : State) (src cls type hops flags : Nat) (body : List Byte) :
    s.sameHop (s.originateQueued src cls type hops flags body).1 := by
  simp [State.originateQueued]

@[simp] theorem State.originateFlood_sameHop (s : State) (src cls type hops flags : Nat) (body : List Byte) :
    s.sameHop (s.originateFlood src cls type hops flags body) := by
  simp [State.originateFlood]

@[simp] theorem State.orphanUse_sameHop (s : State) (i : Nat) : s.sameHop (s.orphanUse i) := by simp [State.orphanUse]

@[simp] theorem State.countOrphan_sameHop (s : State) (i : Nat) : s.sameHop (s.countOrphan i) := by simp [State.countOrphan]

@[simp] theorem State.precompMiss_sameHop (s : State) : s.sameHop s.precompMiss := by simp [State.precompMiss]

@[simp] theorem State.missUnder_sameHop (s : State) (i : Nat) : s.sameHop (s.missUnder i) := by simp [State.missUnder]

@[simp] theorem State.sendFabStop_sameHop (s : State) (stop : Bool) (count : BitVec 16) (scope window : Nat) :
    s.sameHop (s.sendFabStop stop count scope window) := by
  unfold State.sendFabStop
  split <;> simp

@[simp] theorem State.floodStop_sameHop (s : State) (scope : Nat) : s.sameHop (s.floodStop scope) := by simp [State.floodStop]

@[simp] theorem State.unflood_sameHop (s : State) : s.sameHop s.unflood := ⟨rfl, rfl, rfl, rfl⟩

@[simp] theorem State.restamp_sameHop (s : State) (p asn start : Nat) : s.sameHop (s.restamp p asn start) := ⟨rfl, rfl, rfl, rfl⟩

@[simp] theorem State.freezeLost_sameHop (s : State) (m : Nat) : s.sameHop (s.freezeLost m) := by simp [State.freezeLost]

@[simp] theorem State.pushStamp_sameHop (s : State) (source id t16 : Nat) : s.sameHop (s.pushStamp source id t16) := by
  simp [State.pushStamp]

@[simp] theorem State.takeFeedback_sameHop (s : State) (m : Nat) (b : List Byte) : s.sameHop (s.takeFeedback m b) := by
  simp [State.takeFeedback]

@[simp] theorem State.completeEpoch_sameHop (s : State) (m : Nat) (a : Assembly) : s.sameHop (s.completeEpoch m a) := by
  unfold State.completeEpoch
  split
  · simp
  · split <;> simp

@[simp] theorem State.holdFragment_sameHop (s : State) (m : Nat) (a : Assembly) (i : Nat) (data : List Byte) :
    s.sameHop (s.holdFragment m a i data) := by
  unfold State.holdFragment
  dsimp only
  split <;> simp

@[simp] theorem State.takeFragment_sameHop (s : State) (m : Nat) (b : List Byte) : s.sameHop (s.takeFragment m b) := by
  unfold State.takeFragment
  dsimp only
  repeat' split
  all_goals simp

@[simp] theorem State.countClamps_sameHop (s : State) (n : Nat) (off : Option Nat) : s.sameHop (s.countClamps n off) := by
  unfold State.countClamps
  split <;> simp

@[simp] theorem State.trackRequest_sameHop (s : State) (m : Nat) (b : List Byte) : s.sameHop (s.trackRequest m b) := by
  unfold State.trackRequest
  dsimp only
  repeat' split
  all_goals simp

@[simp] theorem State.writePayload_sameHop (s : State) (d : Desc) (o : Nat) (b : List Byte) :
    s.sameHop (s.writePayload d o b) := by
  simp [State.writePayload]

end Sys2Proof.Machine

namespace Sys2Proof.Machine

/-! ### What stays of the ports -/

/-- What a port keeps while its slots run: its tables, its silence, the slot last entered, and a Sandstorm, which only a set latch begins. -/
@[reducible] def HopPort.stays (h g : HopPort) (latched : Bool) : Prop :=
  g.table = h.table ∧ g.next = h.next ∧ g.silent = h.silent ∧ g.served = h.served ∧ (h.storm = true → g.storm = true) ∧
  (g.storm = true → h.storm = true ∨ latched = true)

/-- What the operations under a slot or a boundary leave: the clock, the active configuration, the superframe, a set latch, and the
ports; a block that they queue has no time of its own. -/
structure State.hopStays (s t : State) : Prop where
  clk : t.clk = s.clk
  active : t.cfg.active = s.cfg.active
  sf : t.hop.sf = s.hop.sf
  latched : s.stp.latched = true → t.stp.latched = true
  queue : ∀ b ∈ t.hop.queue, b ∈ s.hop.queue ∨ b.late = 0
  sorted : tsorted s.hop.ports → tsorted t.hop.ports
  ports : tsorted s.hop.ports → ∀ p, (s.hopPort p).stays (t.hopPort p) t.stp.latched

namespace State.hopStays

variable {r s t u : State}

theorem refl (s : State) : s.hopStays s :=
  ⟨rfl, rfl, rfl, (·), fun _ => .inl, (·), fun _ _ => ⟨rfl, rfl, rfl, rfl, (·), .inl⟩⟩

theorem trans (h : s.hopStays t) (k : t.hopStays u) : s.hopStays u where
  clk := k.clk.trans h.clk
  active := k.active.trans h.active
  sf := k.sf.trans h.sf
  latched := k.latched ∘ h.latched
  queue b hb := (k.queue b hb).elim (h.queue b) .inr
  sorted := k.sorted ∘ h.sorted
  ports hs p := by
    obtain ⟨h1, h2, h3, h4, h5, h6⟩ := h.ports hs p
    obtain ⟨k1, k2, k3, k4, k5, k6⟩ := k.ports (h.sorted hs) p
    exact ⟨k1.trans h1, k2.trans h2, k3.trans h3, k4.trans h4, k5 ∘ h5,
      fun hu => (k6 hu).elim (fun ht => (h6 ht).imp_right k.latched) .inr⟩

theorem of_same (h : r.hopStays s) (k : s.sameHop t) : r.hopStays t := by
  obtain ⟨kh, kc, ka, kl⟩ := k
  refine h.trans ⟨kc, ka, congrArg Hop.sf kh, kl.trans, fun b hb => .inl (kh ▸ hb), fun hs => kh ▸ hs, fun _ p => ?_⟩
  rw [State.hopPort, State.hopPort, kh]
  exact ⟨rfl, rfl, rfl, rfl, (·), .inl⟩

/-- A change of the queue that adds no block with a time of its own. -/
theorem of_queue {h' : Hop} (h : r.hopStays s) (hp : h'.ports = s.hop.ports) (hsf : h'.sf = s.hop.sf)
    (hq : ∀ b ∈ h'.queue, b ∈ s.hop.queue ∨ b.late = 0) : r.hopStays { s with hop := h' } := by
  refine h.trans ⟨rfl, rfl, hsf, (·), hq, fun hs => hp.symm ▸ hs, fun _ p => ?_⟩
  rw [State.hopPort, State.hopPort, hp]
  exact ⟨rfl, rfl, rfl, rfl, (·), .inl⟩

/-- A change of one port that keeps what stays. -/
theorem modHop (h : r.hopStays s) (p : Nat) {f : HopPort → HopPort}
    (hf : (s.hopPort p).stays (f (s.hopPort p)) s.stp.latched) : r.hopStays (s.modHop p f) := by
  refine h.trans ⟨rfl, rfl, rfl, (·), fun _ => .inl, fun hs => tsorted_tmod hs .., fun hs q => ?_⟩
  by_cases hq : q = p
  · subst hq
    rw [State.hopPort_modHop_self hs]
    exact hf
  · rw [State.hopPort_modHop_ne _ _ hq]
    exact ⟨rfl, rfl, rfl, rfl, (·), .inl⟩

theorem ite {c : Prop} {_ : Decidable c} (ht : c → r.hopStays s) (hf : ¬ c → r.hopStays t) :
    r.hopStays (if c then s else t) := by
  split
  · exact ht ‹_›
  · exact hf ‹_›

theorem foldl {α : Type} {f : State → α → State} (h : r.hopStays s) (hf : ∀ s x, State.hopStays s (f s x)) (l : List α) :
    r.hopStays (l.foldl f s) := by
  induction l generalizing s with
  | nil => exact h
  | cons x l ih => exact ih (h.trans (hf s x))

/-- A run of operations that need the latch set. -/
theorem foldl_latched {α : Type} {f : State → α → State} (h : r.hopStays s) (hl : s.stp.latched = true)
    (hf : ∀ (s : State) x, s.stp.latched = true → State.hopStays s (f s x)) (l : List α) : r.hopStays (l.foldl f s) := by
  induction l generalizing s with
  | nil => exact h
  | cons x l ih => exact ih (h.trans (hf s x hl)) ((hf s x hl).latched hl)

/-! #### Operations that change a port or the queue -/

theorem raise (h : r.hopStays s) (e : Ev) (i : Nat) (a : List Byte) : r.hopStays (s.raise e i a) := h.of_same (by simp)

theorem emit (h : r.hopStays s) (o : Out) : r.hopStays (s.emit o) := h.of_same (by simp)

theorem frontEnd (h : r.hopStays s) (p time : Nat) (f : Sel) : r.hopStays (s.frontEnd p time f) := h.of_same (by simp)

theorem modMach (h : r.hopStays s) (m : Nat) (f : MachLink → MachLink) : r.hopStays (s.modMach m f) :=
  h.of_queue rfl rfl fun _ => .inl

theorem modNode (h : r.hopStays s) (k : Nat) (f : NodeLink → NodeLink) : r.hopStays (s.modNode k f) :=
  h.of_queue rfl rfl fun _ => .inl

theorem queueDl (h : r.hopStays s) {b : DlBlock} (hb : b.late = 0) : r.hopStays (s.queueDl b) :=
  h.of_queue rfl rfl fun c hc => (List.mem_append.1 hc).imp_right fun hc => by rw [List.mem_singleton.1 hc, hb]

theorem queueBlock (h : r.hopStays s) (m btype : Nat) (body : List Byte) : r.hopStays (s.queueBlock m btype body) :=
  h.queueDl rfl

theorem complete (h : r.hopStays s) (d : Desc) (status : Nat) (result : List Byte) (detail : Nat) :
    r.hopStays (s.complete d status result detail) := by
  obtain ⟨g, k, o, di, c, m, e, -⟩ := State.hostQuiet_iff.1 (State.complete_hostQuiet s d status result detail)
  rw [e]
  exact h.trans ⟨rfl, rfl, rfl, (·), fun b hb => .inl (List.mem_filter.1 hb).1, (·), fun _ _ => ⟨rfl, rfl, rfl, rfl, (·), .inl⟩⟩

theorem sectionDrop (h : r.hopStays s) (p : Nat) : r.hopStays (s.sectionDrop p) :=
  (h.modHop p ⟨rfl, rfl, rfl, rfl, (·), .inl⟩).raise ..

theorem eraseBlock (h : r.hopStays s) (b : DlBlock) :
    r.hopStays { s with hop := { s.hop with queue := s.hop.queue.erase b } } :=
  h.of_queue rfl rfl fun _ hc => .inl (List.mem_of_mem_erase hc)

/-- A block leaves the queue, and its descriptor, where one waits, completes. -/
theorem completeOf (h : r.hopStays s) (d : Option Desc) (status : Nat) :
    r.hopStays (match d with | some d => s.complete d status | none => s) := by
  cases d with
  | none => exact h
  | some d => exact h.complete ..

theorem blockSent (h : r.hopStays s) (b : DlBlock) : r.hopStays (s.blockSent b) := by
  unfold State.blockSent
  dsimp only
  split
  · split
    · exact (h.eraseBlock b).complete ..
    · exact h.eraseBlock b
  · exact h.eraseBlock b

theorem dropUnfit (h : r.hopStays s) (p fuel : Nat) : r.hopStays (s.dropUnfit p fuel) := by
  induction fuel generalizing s with
  | zero => exact h
  | succ fuel ih =>
    unfold State.dropUnfit
    dsimp only
    split
    · exact h
    · next b _ =>
      have hd : r.hopStays (if b.btype = DL.sectionCmd then
          State.sectionDrop { s with hop := { s.hop with queue := s.hop.queue.erase b } } p
          else { s with hop := { s.hop with queue := s.hop.queue.erase b } }) :=
        .ite (fun _ => (h.eraseBlock b).sectionDrop p) fun _ => h.eraseBlock b
      apply ih
      split
      · split
        · exact hd.complete ..
        · exact hd
      · exact hd

/-! #### Transmission and the Sandstorm -/

theorem micFail (h : r.hopStays s) (p : Nat) : r.hopStays (s.micFail p) := h.modHop p ⟨rfl, rfl, rfl, rfl, (·), .inl⟩

theorem withhold (h : r.hopStays s) (p ch air asn : Nat) : r.hopStays (s.withhold p ch air asn) :=
  (h.modHop p ⟨rfl, rfl, rfl, rfl, (·), .inl⟩).raise ..

theorem onAir (h : r.hopStays s) (p ch start mode : Nat) (frame : List Byte) : r.hopStays (s.onAir p ch start mode frame) :=
  (((h.frontEnd ..).modHop p ⟨rfl, rfl, rfl, rfl, (·), .inl⟩).emit _).frontEnd ..

theorem beaconAir (h : r.hopStays s) (p ch : Nat) (f : BeaconForm) (nominal start : Nat) :
    r.hopStays (s.beaconAir p ch f nominal start) :=
  (h.onAir ..).modHop p ⟨rfl, rfl, rfl, rfl, (·), .inl⟩

theorem missUnder (h : r.hopStays s) (i : Nat) : r.hopStays (s.missUnder i) := h.of_same (by simp)

theorem sendStop (h : r.hopStays s) (p ch asn nominal : Nat) : r.hopStays (s.sendStop p ch asn nominal) := by
  unfold State.sendStop
  split
  · exact h.missUnder _
  · exact .ite (fun _ => h.withhold ..) fun _ => h.onAir ..

theorem sendSealed (h : r.hopStays s) (p ch asn nominal mode type enc addr : Nat) (key body : List Byte) :
    r.hopStays (s.sendSealed p ch asn nominal mode type enc addr key body).1 := by
  unfold State.sendSealed
  extract_lets
  split
  extract_lets f air
  split
  · exact h.withhold ..
  · exact h.onAir ..

theorem holdStops (h : r.hopStays s) (p asn : Nat) : r.hopStays (s.holdStops p asn) :=
  h.modHop p ⟨rfl, rfl, rfl, rfl, (·), .inl⟩

theorem holdForms (h : r.hopStays s) (p asn : Nat) : r.hopStays (s.holdForms p asn) :=
  h.modHop p ⟨rfl, rfl, rfl, rfl, (·), .inl⟩

theorem holdAll (h : r.hopStays s) : r.hopStays s.holdAll := h.foldl (fun s _ => (refl s).holdStops ..) _

theorem holdFrames (h : r.hopStays s) : r.hopStays s.holdFrames := h.holdAll.of_same (State.holdBodies_sameHop _)

theorem abandonSlot (h : r.hopStays s) (hl : s.stp.latched = true) (p : Nat) (stays : Option Nat) :
    r.hopStays (s.abandonSlot p stays) := by
  unfold State.abandonSlot
  extract_lets now t
  have ht : r.hopStays t := h.of_same ⟨rfl, rfl, rfl, rfl⟩
  exact ht.modHop p ⟨rfl, rfl, rfl, rfl, fun _ => rfl, fun _ => .inr hl⟩

theorem latchPort (h : r.hopStays s) (hl : s.stp.latched = true) (p : Nat) : r.hopStays (s.latchPort p) := by
  unfold State.latchPort
  extract_lets now asn ch nominal driven t t'
  split
  · exact (h.abandonSlot hl ..).beaconAir ..
  · have ht : r.hopStays t := (h.abandonSlot hl ..).sendStop ..
    have ht' : r.hopStays t' := .ite (fun _ => ht.frontEnd ..) fun _ => ht
    split
    · exact (ht'.beaconAir ..).of_same (State.restamp_sameHop ..)
    · exact ht'

theorem beginStorm (h : r.hopStays s) (hl : s.stp.latched = true) : r.hopStays s.beginStorm := by
  unfold State.beginStorm
  extract_lets h' t x u v
  have hu : s.hopStays u := (of_queue (refl s) rfl rfl fun _ hb => .inl (List.mem_filter.1 hb).1 : s.hopStays t).of_same ⟨rfl, rfl, rfl, rfl⟩
  have hv : s.hopStays v := hu.foldl (fun s p => (refl s).modHop p ⟨rfl, rfl, rfl, rfl, (·), .inl⟩) _
  exact (h.trans hv).foldl_latched (hv.latched hl) (fun s p hl => (refl s).latchPort hl p) _

theorem restartStorm (h : r.hopStays s) (hl : s.stp.latched = true) : r.hopStays s.restartStorm := by
  unfold State.restartStorm
  extract_lets now busy
  refine h.foldl_latched hl (fun s p hl => ?_) _
  extract_lets t u
  have ht : s.hopStays t := (refl s).of_same ⟨rfl, rfl, rfl, rfl⟩
  have hu : s.hopStays u := .ite (fun _ => ht) fun _ => ht.modHop p ⟨rfl, rfl, rfl, rfl, (·), .inl⟩
  exact hu.latchPort (hu.latched hl) p

/-- The latch may be set, as long as the rest of the radio is as it was. -/
theorem latch (h : r.hopStays s) {c : Stp} (hc : s.stp.latched = true → c.latched = true) :
    r.hopStays { s with stp := c } :=
  h.trans ⟨rfl, rfl, rfl, hc, fun _ => .inl, (·), fun _ _ => ⟨rfl, rfl, rfl, rfl, (·), .inl⟩⟩

theorem latchEffects (h : r.hopStays s) (hl : s.stp.latched = true) (hostCode : Option Nat) (flood : Bool) :
    r.hopStays (s.latchEffects hostCode flood) := by
  unfold State.latchEffects
  extract_lets c t u v w
  have hu : s.hopStays u := (((refl s).latch (·) : s.hopStays t).of_same (State.releaseClaims_sameHop ..)).of_same
    (State.freezeAll_sameHop _)
  have hv : s.hopStays v := (hu.beginStorm (hu.latched hl)).of_same (State.settleOuts_sameHop _ )
  have hw : s.hopStays w := .ite (fun _ => hv.of_same (State.floodStop_sameHop ..)) fun _ => hv
  exact h.trans (hw.raise ..).holdFrames

theorem joinEvent (h : r.hopStays s) (hl : s.stp.latched = true) (src : Nat) (stop : Bool) (hostCode : Option Nat)
    (flood was : Bool) (wasCode : Option Nat) : r.hopStays (s.joinEvent src stop hostCode flood was wasCode) := by
  unfold State.joinEvent
  extract_lets c rise takes flood' code t c' u v w c'' x
  have ht : s.hopStays t := (refl s).of_same (by simp [t])
  have hu : s.hopStays u := ht.of_same ⟨rfl, rfl, rfl, rfl⟩
  have hv : s.hopStays v := .ite (fun _ => (hu.restartStorm (hu.latched hl)).of_same (State.settleOuts_sameHop _)) fun _ => hu
  have hw : s.hopStays w := .ite (fun _ => hv.of_same (State.floodStop_sameHop ..)) fun _ => hv
  have hx : s.hopStays x := hw.of_same ⟨rfl, rfl, rfl, rfl⟩
  exact h.trans (.ite (fun _ => hu) fun _ => hx.holdFrames)

theorem undoRelease (h : r.hopStays s) : r.hopStays s.undoRelease := by
  unfold State.undoRelease
  split
  · refine .ite (fun _ => h) fun _ => holdFrames (of_same (of_same (s := { s with stp := { s.stp with latched := true } })
      (h.latch fun _ => rfl) ?_) ⟨rfl, rfl, rfl, rfl⟩)
    exact ⟨rfl, rfl, rfl, rfl⟩
  · exact h

theorem stopRequest (h : r.hopStays s) (src : Nat) (stop : Bool) (hostCode : Option Nat) (flood : Bool) :
    r.hopStays (s.stopRequest src stop hostCode flood) := by
  unfold State.stopRequest
  extract_lets t c mark u c' v c''
  have ht : s.hopStays t := (refl s).undoRelease
  clear_value t
  have hu : t.hopStays u := (refl t).latch (·)
  have hv : t.hopStays v := hu.latch (·)
  have hc'' : t.stp.latched = true → c''.latched = true := (·)
  clear_value c'' v c' u mark
  refine (h.trans ht).trans ?_
  split
  · exact (hu.latch fun _ => rfl).latchEffects rfl ..
  · next hc =>
    have hl : t.stp.latched = true := by simpa using hc
    split
    · exact hv.joinEvent (hv.latched hl) ..
    · split
      · refine latchEffects (hv.latch ?_) ?_ ..
        · exact fun _ => hc'' hl
        · exact hc'' hl
      · exact hv.raise ..

end State.hopStays
end Sys2Proof.Machine

namespace Sys2Proof.Machine
namespace State.hopStays

variable {r s t u : State}

/-! #### Reception -/

theorem heardFrame (h : r.hopStays s) (p rssi : Nat) (good : Bool) : r.hopStays (s.heardFrame p rssi good) :=
  h.modHop p ⟨rfl, rfl, rfl, rfl, (·), .inl⟩

theorem badFrame (h : r.hopStays s) (p : Nat) : r.hopStays (s.badFrame p) := (h.heardFrame ..).micFail p

theorem hostMessage (h : r.hopStays s) (p addr asn : Nat) (data : List Byte) : r.hopStays (s.hostMessage p addr asn data) := by
  unfold State.hostMessage
  split
  · exact h.modHop p ⟨rfl, rfl, rfl, rfl, (·), .inl⟩
  · exact (h.of_same (State.writePayload_sameHop ..)).complete ..

theorem carTell (h : r.hopStays s) (m code why segs : Nat) : r.hopStays (s.carTell m code why segs) := h.queueBlock ..

theorem carHoldMachine (h : r.hopStays s) (m why : Nat) : r.hopStays (s.carHoldMachine m why) :=
  .ite (fun _ => h) fun _ => ((((h.carTell ..).of_same (State.releaseClaims_sameHop ..)).of_same
    (State.modCar_sameHop ..)).of_same (State.freezeRes_sameHop ..)).raise ..

theorem carAct (h : r.hopStays s) (m act why : Nat) (e : Ev) : r.hopStays (s.carAct m act why e) :=
  .ite (fun _ => h) fun _ => .ite (fun _ => (h.raise ..).carHoldMachine ..) fun _ => h.raise ..

theorem conform (h : r.hopStays s) (m : Nat) (east north hs hc : Rat) (tObs : Nat) :
    r.hopStays (s.conform m east north hs hc tObs) := by
  unfold State.conform
  split
  · exact h
  · extract_lets c frozen e f r' vE vN live body dev isOver l anyOver n nowDev car t u car' v car''
    have hu : r.hopStays u := (h.of_same (t := t) ⟨rfl, rfl, rfl, rfl⟩).of_same (State.modCar_sameHop ..)
    have hv : r.hopStays v := by
      refine .ite (fun _ => carAct (of_same hu ?_) ..) fun _ => hu
      exact ⟨rfl, rfl, rfl, rfl⟩
    refine .ite (fun _ => carAct (of_same hv ?_) ..) fun _ => hv
    exact ⟨rfl, rfl, rfl, rfl⟩

theorem ownSolution (h : r.hopStays s) (m : Nat) (b : List Byte) : r.hopStays (s.ownSolution m b) := by
  unfold State.ownSolution
  split
  · exact h
  · extract_lets o sec t k
    have ht : r.hopStays t := h.of_same ⟨rfl, rfl, rfl, rfl⟩
    exact .ite (fun _ => ht.conform ..) fun _ => ht

theorem deliverBlock (h : r.hopStays s) (p m asn frag type : Nat) (b : List Byte) :
    r.hopStays (s.deliverBlock p m asn frag type b) := by
  unfold State.deliverBlock
  split
  · exact h.ownSolution ..
  · exact h.of_same (State.takeFeedback_sameHop ..)
  · exact h.of_same (State.takeFragment_sameHop ..)
  · exact h.of_same (State.trackRequest_sameHop ..)
  · exact h.hostMessage ..
  · exact h

theorem takeUplink (h : r.hopStays s) (p m rssi : Nat) (c : CurSlot) (f : List Byte) :
    r.hopStays (s.takeUplink p m rssi c f) := by
  unfold State.takeUplink
  split
  · exact h.badFrame p
  · split
    · exact h.badFrame p
    · exact (foldl ((h.heardFrame ..).modMach ..) (fun s b => (refl s).deliverBlock ..) _).raise ..

theorem takeJoin (h : r.hopStays s) (p rssi : Nat) (c : CurSlot) (f : List Byte) : r.hopStays (s.takeJoin p rssi c f) := by
  unfold State.takeJoin
  dsimp only
  split
  · exact h.badFrame p
  · split
    · exact (h.of_same (State.countOrphan_sameHop ..)).badFrame p
    · split
      · exact h.badFrame p
      · exact (h.heardFrame ..).modHop p ⟨rfl, rfl, rfl, rfl, (·), .inl⟩

theorem pollSeen (h : r.hopStays s) (k sf : Nat) (shared : Bool) : r.hopStays (s.pollSeen k sf shared) := by
  refine (h.modNode ..).foldl (fun s _ => of_same (refl s) ?_) _
  exact ⟨rfl, rfl, rfl, rfl⟩

theorem precompMiss (h : r.hopStays s) : r.hopStays s.precompMiss := h.of_same (State.precompMiss_sameHop s)

/-- The state that a match takes out of an answer. -/
theorem of_eq {α : Type} {q : State × α} {a : α} (h : r.hopStays q.1) (e : q = (t, a)) : r.hopStays t := by
  subst e
  exact h

theorem sendAck (h : r.hopStays s) (p ch asn nominal mode room k : Nat) :
    r.hopStays (s.sendAck p ch asn nominal mode room k).1 := by
  unfold State.sendAck
  split
  · exact h.precompMiss
  · split
    extract_lets body at'
    split
    next e => exact (h.sendSealed ..).of_eq e
    next t e =>
      have ht : r.hopStays t := (h.sendSealed ..).of_eq e
      extract_lets u was v
      have hu : r.hopStays u := by
        unfold u
        split
        · exact ht.blockSent _
        · exact ht
      exact .ite (fun _ => (hu.modNode ..).raise ..) fun _ => hu.modNode ..

theorem ackInSpan (h : r.hopStays s) (p asn i k : Nat) : r.hopStays (s.ackInSpan p asn i k) := h.sendAck ..

theorem takePoll (h : r.hopStays s) (p k rssi : Nat) (c : CurSlot) (shared : Bool) (f : List Byte) :
    r.hopStays (s.takePoll p k rssi c shared f) := by
  unfold State.takePoll
  split
  · exact h.badFrame p
  · split
    · exact h.badFrame p
    · next body _ =>
      extract_lets t u
      have ht : r.hopStays t := (h.heardFrame ..).pollSeen ..
      have hu : r.hopStays u := .ite (fun _ => ht.hostMessage ..) fun _ => ht
      exact .ite (fun _ => hu) fun _ => .ite (fun _ => hu.modHop p ⟨rfl, rfl, rfl, rfl, (·), .inl⟩) fun _ =>
        .ite (fun _ => .ite (fun _ => hu.ackInSpan ..) fun _ => hu) fun _ => hu.modHop p ⟨rfl, rfl, rfl, rfl, (·), .inl⟩

theorem takePendant (h : r.hopStays s) (p rssi : Nat) (c : CurSlot) (f : List Byte) :
    r.hopStays (s.takePendant p rssi c f) := by
  unfold State.takePendant
  extract_lets t stp reject asn who u
  have ht : r.hopStays t := h.heardFrame ..
  have hu : r.hopStays u := h.heardFrame ..
  have hr : r.hopStays reject := by
    refine raise (latch ht ?_) ..
    exact (·)
  split
  · extract_lets eui stop
    clear_value reject
    split
    · exact hr
    · split
      · exact hr.micFail p
      · exact .ite (fun _ => hu.stopRequest ..) fun _ => hu
  · exact (hr.of_same (State.countOrphan_sameHop ..)).micFail p
  · exact hr

theorem takeFrame (h : r.hopStays s) (p rssi : Nat) (c : CurSlot) (f : List Byte) : r.hopStays (s.takeFrame p rssi c f) := by
  unfold State.takeFrame
  split
  · exact h.badFrame p
  · split
    · exact h.takePendant ..
    · split
      · exact .ite (fun _ => h.takeUplink ..) fun _ => h.badFrame p
      · exact .ite (fun _ => h.takePoll ..) fun _ => h.badFrame p
      · exact .ite (fun _ => h.badFrame p) fun _ => h.takeJoin ..
      · split
        · exact .ite (fun _ => h.takePoll ..) fun _ => h.badFrame p
        · exact h.badFrame p
      · exact h.badFrame p

theorem deliverGot (h : r.hopStays s) (p : Nat) : r.hopStays (s.deliverGot p) := by
  unfold State.deliverGot
  split
  · exact h
  · split
    · exact .ite (fun _ => h.takeFrame ..) fun _ => h
    · exact h

/-! #### The end of a slot -/

theorem linkLost (h : r.hopStays s) (m : Nat) : r.hopStays (s.linkLost m) := by
  unfold State.linkLost
  extract_lets t u v fix stp w
  have hu : r.hopStays u := ((h.modMach .. : r.hopStays t).of_same (State.releaseClaims_sameHop ..)).of_same
    (State.freezeLost_sameHop ..)
  have hv : r.hopStays v := hu.of_same (State.abandonAsm_sameHop ..)
  exact raise (hv.of_same ⟨rfl, rfl, rfl, rfl⟩ : r.hopStays w) ..

theorem finishSlot (h : r.hopStays s) (p : Nat) : r.hopStays (s.finishSlot p) := by
  unfold State.finishSlot
  split
  · exact h
  · next c _ =>
    split
    · exact h
    · extract_lets t u
      have ht : r.hopStays t := h.modHop p ⟨rfl, rfl, rfl, rfl, (·), .inl⟩
      have hu : r.hopStays u := .ite (fun _ => ht.frontEnd ..) fun _ => ht
      split
      · exact .ite (fun _ => hu) fun _ => .ite (fun _ => hu.modMach ..) fun _ => .ite (fun _ => hu.linkLost _) fun _ => hu.modMach ..
      · exact .ite (fun _ => hu.modNode ..) fun _ => .ite (fun _ => (hu.modNode ..).raise ..) fun _ => hu.modNode ..
      · exact hu

theorem endSlot (h : r.hopStays s) (p : Nat) : r.hopStays (s.endSlot p) := (h.deliverGot p).finishSlot p

theorem supervise (h : r.hopStays s) (n : Nat) : r.hopStays (s.supervise n) := by
  unfold State.supervise
  extract_lets k sf
  split
  · exact h
  · split
    next c asked _ =>
    split
    · exact h.latch (·)
    · split
      · exact h
      · extract_lets lost t
        have ht : r.hopStays t := h.latch (·)
        exact .ite (fun _ => ht.stopRequest ..) fun _ => ht

end State.hopStays
end Sys2Proof.Machine

namespace Sys2Proof.Machine

/-! ### Superframes (R10, R236, R245, R249) -/

/-- What events leave stays so beside another state of the Hop Sequencer. -/
theorem State.eventsOnly_hop {s t : State} (h : State.eventsOnly s t) (g : Hop) :
    State.eventsOnly { s with hop := g } { t with hop := g } := by
  obtain ⟨h1, h2⟩ := h
  generalize t.dis = d, t.crn = c, t.mem.dram = m1, t.mem.bad = m2, t.mem.waiting = m3, t.mem.failed = m4, t.mem.eccUncorr = m5,
    t.mem.eccAddr = m6 at h1
  subst h1
  exact ⟨rfl, h2⟩

theorem State.modHop_sorted {s : State} (hs : tsorted s.hop.ports) (p : Nat) (f : HopPort → HopPort) :
    tsorted (s.modHop p f).hop.ports := tsorted_tmod hs _ p f

/-- A port with its next slot table, where it has one, in force. -/
def HopPort.applied (h : HopPort) : HopPort := { h with table := h.next.getD h.table, next := none }

/-- A boundary puts the port's next slot table in force. -/
theorem State.hopPort_applyTable_self {s : State} (hs : tsorted s.hop.ports) (p : Nat) :
    (s.applyTable p).hopPort p = (s.hopPort p).applied := by
  unfold State.applyTable
  split
  · next t ht =>
    rw [State.hopPort, State.raise_hop]
    refine (State.hopPort_modHop_self hs ..).trans ?_
    rw [HopPort.applied, ht]
    rfl
  · next hn =>
    rw [HopPort.applied, hn]
    exact congrArg (fun n => { s.hopPort p with next := n }) hn

theorem State.hopPort_applyTable_ne (s : State) {p q : Nat} (h : q ≠ p) : (s.applyTable p).hopPort q = s.hopPort q := by
  unfold State.applyTable
  split
  · rw [State.hopPort, State.raise_hop]
    exact State.hopPort_modHop_ne _ _ h
  · rfl

/-- Nothing but the port's entry changes, and events. -/
theorem State.applyTable_ports (s : State) (p : Nat) : ∃ f, (s.applyTable p).hop = { s.hop with ports := f } ∧
    (tsorted s.hop.ports → tsorted f) ∧ State.eventsOnly { s with hop := (s.applyTable p).hop } (s.applyTable p) := by
  unfold State.applyTable
  split
  · refine ⟨_, State.raise_hop .., fun hs => tsorted_tmod hs .., ?_⟩
    rw [State.raise_hop]
    exact State.raise_eventsOnly ..
  · exact ⟨_, rfl, (·), State.eventsOnly_refl s⟩

/-- What slot tables that take effect on a list of ports leave. -/
theorem State.foldl_applyTable {s : State} (hs : tsorted s.hop.ports) (l : List Nat) :
    (l.foldl State.applyTable s).hop.sf = s.hop.sf ∧
    (∀ p, (l.foldl State.applyTable s).hopPort p = if p ∈ l then (s.hopPort p).applied else s.hopPort p) ∧
    State.eventsOnly { s with hop := (l.foldl State.applyTable s).hop } (l.foldl State.applyTable s) := by
  induction l generalizing s with
  | nil => exact ⟨rfl, fun _ => rfl, State.eventsOnly_refl s⟩
  | cons q l ih =>
    obtain ⟨f, hf, hfs, he⟩ := s.applyTable_ports q
    obtain ⟨h1, h2, h3⟩ := ih (s := s.applyTable q) (by rw [hf]; exact hfs hs)
    refine ⟨by rw [List.foldl_cons, h1, hf], fun p => ?_, State.eventsOnly_trans (State.eventsOnly_hop he _) h3⟩
    rw [List.foldl_cons, h2]
    by_cases hp : p = q
    · subst hp
      rw [State.hopPort_applyTable_self hs]
      simp [HopPort.applied]
    · rw [State.hopPort_applyTable_ne s hp]
      simp [hp]

/-- A port after a boundary: its next table is in force, it is not silent, and the Sandstorm is on exactly while the latch is set. -/
def HopPort.begun (h g : HopPort) (before after : Bool) : Prop :=
  g.table = h.next.getD h.table ∧ g.next = none ∧ g.silent = false ∧ (before = true → g.storm = true) ∧
  (g.storm = true → after = true)

theorem HopPort.begun.stays {h g g' : HopPort} {a b c : Bool} (k : h.begun g a b) (e : g.stays g' c) (hbc : b = true → c = true) :
    h.begun g' a c := by
  obtain ⟨k1, k2, k3, k4, k5⟩ := k
  obtain ⟨e1, e2, e3, -, e5, e6⟩ := e
  exact ⟨e1.trans k1, e2.trans k2, e3.trans k3, e5 ∘ k4, fun hg => (e6 hg).elim (hbc ∘ k5) id⟩

/-- What a boundary of one port does: `e` is the state in which the port's slot has ended, `w` the one with the boundary's own change. -/
theorem State.portBoundary_steps (s : State) (p : Nat) : ∃ e w : State, s.hopStays e ∧
    w = ((e.applyTable p).modHop p fun h => { h with storm := (e.applyTable p).stp.latched, silent := false }) ∧
    w.hopStays (s.portBoundary p) := by
  refine ⟨s.endSlot p, _, (State.hopStays.refl s).endSlot p, rfl, ?_⟩
  unfold State.portBoundary
  extract_lets e ended t w v
  change State.hopStays w _
  clear_value w ended
  have hv : w.hopStays v := .ite (fun _ => (State.hopStays.refl w).dropUnfit ..) fun _ => .refl w
  exact .ite (fun _ => hv.of_queue rfl rfl fun _ => .inl) fun _ => hv

/-- What a boundary of one port leaves of the whole, and what it leaves of each port. -/
theorem State.portBoundary_leaves {s : State} (hs : tsorted s.hop.ports) (q : Nat) :
    (s.portBoundary q).clk = s.clk ∧ (s.portBoundary q).hop.sf = s.hop.sf ∧ tsorted (s.portBoundary q).hop.ports ∧
    (s.stp.latched = true → (s.portBoundary q).stp.latched = true) ∧
    (s.hopPort q).begun ((s.portBoundary q).hopPort q) s.stp.latched (s.portBoundary q).stp.latched ∧
    ∀ p, p ≠ q → (s.hopPort p).stays ((s.portBoundary q).hopPort p) (s.portBoundary q).stp.latched := by
  obtain ⟨e, w, he, hw, ht⟩ := s.portBoundary_steps q
  obtain ⟨f, hf, hfs, hev⟩ := e.applyTable_ports q
  have hstp : (e.applyTable q).stp = e.stp := (congrArg State.stp hev.1 :)
  have hclk : (e.applyTable q).clk = e.clk := (congrArg State.clk hev.1 :)
  have hes := he.sorted hs
  have hts : tsorted (e.applyTable q).hop.ports := by
    rw [hf]
    exact hfs hes
  have hws : tsorted w.hop.ports := by
    rw [hw]
    exact State.modHop_sorted hts ..
  have hwl : w.stp.latched = e.stp.latched := by rw [hw, State.modHop, hstp]
  have hlat : s.stp.latched = true → w.stp.latched = true := fun h => hwl.trans (he.latched h)
  refine ⟨by rw [ht.clk, hw, State.modHop, hclk, he.clk], by rw [ht.sf, hw, State.modHop, hf, ← he.sf], ht.sorted hws,
    ht.latched ∘ hlat, ?_, fun p hp => ?_⟩
  · refine HopPort.begun.stays ?_ (ht.ports hws q) ht.latched
    obtain ⟨h1, h2, -⟩ := he.ports hs q
    rw [hw, State.hopPort_modHop_self hts, State.hopPort_applyTable_self hes, ← hw, hwl, hstp]
    refine ⟨?_, rfl, rfl, he.latched, (·)⟩
    simp only [HopPort.applied]
    rw [h1, h2]
  · obtain ⟨h1, h2, h3, h4, h5, h6⟩ := he.ports hs p
    obtain ⟨k1, k2, k3, k4, k5, k6⟩ := ht.ports hws p
    have hpw : w.hopPort p = e.hopPort p := by
      rw [hw, State.hopPort_modHop_ne _ _ hp, State.hopPort_applyTable_ne _ hp]
    rw [hpw] at k1 k2 k3 k4 k5 k6
    exact ⟨k1.trans h1, k2.trans h2, k3.trans h3, k4.trans h4, k5 ∘ h5,
      fun h => (k6 h).elim (fun h => (h6 h).imp_right fun h => ht.latched (hwl.trans h)) .inr⟩

/-- What a boundary of a list of ports leaves. -/
theorem State.foldl_portBoundary {s : State} (hs : tsorted s.hop.ports) (l : List Nat) :
    let t := l.foldl State.portBoundary s
    t.clk = s.clk ∧ t.hop.sf = s.hop.sf ∧ tsorted t.hop.ports ∧ (s.stp.latched = true → t.stp.latched = true) ∧
    (∀ p ∈ l, (s.hopPort p).begun (t.hopPort p) s.stp.latched t.stp.latched) ∧
    ∀ p, p ∉ l → (s.hopPort p).stays (t.hopPort p) t.stp.latched := by
  induction l generalizing s with
  | nil => exact ⟨rfl, rfl, hs, (·), nofun, fun _ _ => ⟨rfl, rfl, rfl, rfl, (·), .inl⟩⟩
  | cons q l ih =>
    obtain ⟨hc, hsf, hts, hl, hq, hp⟩ := s.portBoundary_leaves hs q
    obtain ⟨kc, ksf, kts, kl, kin, kout⟩ := ih hts
    refine ⟨kc.trans hc, ksf.trans hsf, kts, kl ∘ hl, fun p hpl => ?_, fun p hpl => ?_⟩
    · by_cases hm : p ∈ l
      · obtain ⟨k1, k2, k3, k4, k5⟩ := kin p hm
        by_cases hpq : p = q
        · subst hpq
          obtain ⟨h1, h2, -, -, -⟩ := hq
          refine ⟨k1.trans ?_, k2, k3, k4 ∘ hl, k5⟩
          rw [h2, Option.getD_none, h1]
        · obtain ⟨h1, h2, -⟩ := hp p hpq
          exact ⟨by rw [← h1, ← h2]; exact k1, k2, k3, k4 ∘ hl, k5⟩
      · obtain rfl : p = q := (List.mem_cons.1 hpl).resolve_right hm
        exact hq.stays (kout p hm) kl
    · obtain ⟨hpq, hm⟩ := not_or.1 (mt List.mem_cons.2 hpl)
      obtain ⟨h1, h2, h3, h4, h5, h6⟩ := hp p hpq
      obtain ⟨k1, k2, k3, k4, k5, k6⟩ := kout p hm
      exact ⟨k1.trans h1, k2.trans h2, k3.trans h3, k4.trans h4, k5 ∘ h5,
        fun h => (k6 h).elim (fun h => (h6 h).imp_right kl) .inr⟩

/-- Expired section commands leave the queue, and nothing else of what stays. -/
theorem State.expireCommands_stays (s : State) : State.hopStays { s with hop := { s.hop with
    queue := s.hop.queue.filter fun b => !(b.late ≠ 0 && b.late ≤ s.now) } } s.expireCommands :=
  (State.hopStays.refl _).foldl (fun s _ => (State.hopStays.refl s).sectionDrop _) _

end Sys2Proof.Machine

namespace Sys2Proof.Machine

/-- The boundary of running radios: each enabled port has its own, expired section commands leave the queue, and what follows keeps the
ports. -/
theorem State.boundary_running {s : State} (hr : s.radiosRun = true) (hi : s.pwr.inReset = false) (hu : s.unitOn U.hop = true)
    (hsf : s.hop.sf ≠ s.now / sfNs) (hc : s.commitWaits (s.now / sfNs * sfNs) = false) :
    ∃ u, u = ((List.range s.id.part.radios).filter s.hopEnabled).foldl State.portBoundary
        { s with hop := { s.hop with sf := s.now / sfNs } } ∧
      State.hopStays { u with hop := { u.hop with queue := u.hop.queue.filter fun b => !(b.late ≠ 0 && b.late ≤ u.now) } }
        s.boundary := by
  refine ⟨_, rfl, ?_⟩
  unfold State.boundary
  rw [if_neg (by simp [hsf, hc]), if_neg (by simp [hi]; exact hu), if_neg (by simp; exact hr)]
  have hv := State.expireCommands_stays (((List.range s.id.part.radios).filter s.hopEnabled).foldl State.portBoundary
    { s with hop := { s.hop with sf := s.now / sfNs } })
  exact .ite (fun _ => hv.foldl (fun s _ => (State.hopStays.refl s).supervise _) _) fun _ => hv

/-- Where the radios do not run, only the slot tables take effect. -/
theorem State.boundary_silent {s : State} (hr : s.radiosRun = false) (hs : s.pwr.state ≠ .safeHold) (hi : s.pwr.inReset = false)
    (hu : s.unitOn U.hop = true) (hsf : s.hop.sf ≠ s.now / sfNs) (hc : s.commitWaits (s.now / sfNs * sfNs) = false) :
    s.boundary = ((List.range s.id.part.radios).filter s.hopEnabled).foldl State.applyTable
      { s with hop := { s.hop with sf := s.now / sfNs } } := by
  unfold State.boundary
  rw [if_neg (by simp [hsf, hc]), if_neg (by simp [hi]; exact hu), if_pos (by simp; exact hr), if_neg hs]
  rfl

theorem State.lt_radios_of_enabled {s : State} {p : Nat} (h : s.hopEnabled p = true) : p < s.id.part.radios := by
  simp only [State.hopEnabled, Bool.and_eq_true, decide_eq_true_eq] at h
  exact h.1.2

/-- The enabled ports, as a boundary lists them. -/
theorem State.mem_enabled {s : State} {p : Nat} : p ∈ (List.range s.id.part.radios).filter s.hopEnabled ↔ s.hopEnabled p = true := by
  simp only [List.mem_filter, List.mem_range]
  exact ⟨And.right, fun h => ⟨State.lt_radios_of_enabled h, h⟩⟩

/-- A boundary of running radios, for each enabled port and for the queue. -/
theorem State.boundary_begins {s : State} (hs : tsorted s.hop.ports) (hr : s.radiosRun = true) (hi : s.pwr.inReset = false)
    (hu : s.unitOn U.hop = true) (hsf : s.hop.sf ≠ s.now / sfNs) (hc : s.commitWaits (s.now / sfNs * sfNs) = false) :
    s.boundary.hop.sf = s.now / sfNs ∧
    (∀ p, s.hopEnabled p = true → (s.hopPort p).begun (s.boundary.hopPort p) s.stp.latched s.boundary.stp.latched) ∧
    ∀ b ∈ s.boundary.hop.queue, b.late = 0 ∨ s.now < b.late := by
  obtain ⟨u, hue, ht⟩ := State.boundary_running hr hi hu hsf hc
  obtain ⟨hclk, hsf', hus, hl, hin, -⟩ := State.foldl_portBoundary
    (s := { s with hop := { s.hop with sf := s.now / sfNs } }) hs ((List.range s.id.part.radios).filter s.hopEnabled)
  rw [← hue] at hclk hsf' hus hl hin
  refine ⟨ht.sf.trans hsf', fun p hp => (hin p (State.mem_enabled.2 hp)).stays (ht.ports hus p) ht.latched, fun b hb => ?_⟩
  obtain hb | hb := ht.queue b hb
  · have hnow : u.now = s.now := by rw [State.now, hclk, State.now]
    have := (List.mem_filter.1 hb).2
    rw [hnow] at this
    simp at this
    omega
  · exact .inl hb

end Sys2Proof.Machine

namespace Sys2Proof.Machine

/-! ### The end of a slot (R231, R253) -/

theorem State.machLink_modMach {s : State} (h : tsorted s.hop.machines) (m : Nat) (f : MachLink → MachLink) :
    (s.modMach m f).machLink m = f (s.machLink m) := tget_tmod_self h _ _ _

theorem State.modMach_sorted {s : State} (h : tsorted s.hop.machines) (m : Nat) (f : MachLink → MachLink) :
    tsorted (s.modMach m f).hop.machines := tsorted_tmod h _ m f

/-- The state in which the port has left its slot, and its lines idle where it listened. -/
def State.leftSlot (s : State) (p : Nat) (c : CurSlot) : State :=
  let t := s.modHop p fun h => { h with cur := none }
  if c.listen.isSome then t.frontEnd p (t.spanEnd p c) F.RAD_PORT_CTRL_FEM_IDLE else t

theorem State.leftSlot_hop (s : State) (p : Nat) (c : CurSlot) :
    (s.leftSlot p c).hop = (s.modHop p fun h => { h with cur := none }).hop := by
  unfold State.leftSlot
  dsimp only
  split
  · exact (State.frontEnd_sameHop ..).1
  · rfl

theorem State.leftSlot_stp (s : State) (p : Nat) (c : CurSlot) : (s.leftSlot p c).stp = s.stp := by
  unfold State.leftSlot
  dsimp only
  split <;> rfl

/-- A lost link leaves the Hop Sequencer but for the machine's own entry, which is `LINK_LOST`. -/
theorem State.linkLost_hop (s : State) (m : Nat) : (s.linkLost m).hop =
    (s.modMach m fun l => { l with state := .linkLost, missed := 0 }).hop := by
  unfold State.linkLost
  simp

theorem getLsbD_or_shifted (w : BitVec 256) (m : Nat) : (w ||| 1 <<< m).getLsbD m = decide (m < 256) := by
  rw [BitVec.getLsbD_or, BitVec.natCast_eq_ofNat, BitVec.getLsbD_ofNat, Nat.testBit_shiftLeft]
  by_cases hm : m < 256
  · simp [hm]
  · simp [hm, BitVec.getLsbD_of_ge w m (Nat.le_of_not_lt hm)]

theorem State.linkLost_since (s : State) (m : Nat) : (s.linkLost m).stp.lostSince.getLsbD m = decide (m < 256) := by
  unfold State.linkLost
  rw [State.raise_stp]
  exact getLsbD_or_shifted ..

/-- What is left of a machine's own slot that has ended. -/
theorem State.finishSlot_machine {s : State} {p m : Nat} {c : CurSlot} (hs : tsorted s.hop.ports) (hc : (s.hopPort p).cur = some c)
    (hn : s.spanEnd p c ≤ s.now) (hl : c.listen = some (.machine m true)) (hla : s.stp.latched = false)
    (hst : (s.hopPort p).storm = false) (hj : s.joined m = true) :
    s.finishSlot p = if c.good then (s.leftSlot p c).modMach m fun l => { l with missed := 0 }
      else if 2 ≤ (s.machLink m).missed then (s.leftSlot p c).linkLost m
      else (s.leftSlot p c).modMach m fun l => { l with missed := l.missed + 1 } := by
  have hp : ((s.leftSlot p c).hopPort p).storm = false := by
    rw [State.hopPort, State.leftSlot_hop]
    exact (congrArg HopPort.storm (State.hopPort_modHop_self hs ..)).trans hst
  have hm : (s.leftSlot p c).machLink m = s.machLink m := by
    rw [State.machLink, State.leftSlot_hop]
    rfl
  have hj' : (s.leftSlot p c).joined m = true := by
    rw [State.joined, hm]
    exact hj
  have hla' : (s.leftSlot p c).stp.latched = false := by
    rw [State.leftSlot_stp]
    exact hla
  unfold State.finishSlot
  rw [hc]
  dsimp only
  rw [if_neg (Nat.not_lt.2 hn), hl]
  dsimp only
  have e : s.leftSlot p c = (if (some (Listen.machine m true)).isSome then (s.modHop p fun h => { h with cur := none }).frontEnd p
      ((s.modHop p fun h => { h with cur := none }).spanEnd p c) F.RAD_PORT_CTRL_FEM_IDLE
      else s.modHop p fun h => { h with cur := none }) := by
    rw [State.leftSlot, hl]
  rw [← e, hp, hj', hla', hm]
  rfl

/-- The end of a slot takes the port out of it. -/
theorem State.finishSlot_cur {s : State} {p : Nat} (hs : tsorted s.hop.ports)
    (h : ∀ c, (s.hopPort p).cur = some c → s.spanEnd p c ≤ s.now) : ((s.finishSlot p).hopPort p).cur = none := by
  cases hc : (s.hopPort p).cur with
  | none =>
    unfold State.finishSlot
    rw [hc]
    exact hc
  | some c =>
    have left (u : State) (hu : u.hop.ports = (s.leftSlot p c).hop.ports) : (u.hopPort p).cur = none := by
      rw [State.hopPort, hu, State.leftSlot_hop]
      exact congrArg HopPort.cur (State.hopPort_modHop_self hs ..)
    unfold State.finishSlot
    rw [hc]
    dsimp only
    rw [if_neg (Nat.not_lt.2 (h c hc))]
    change ((match c.listen with
      | some (.machine m true) =>
        if (s.leftSlot p c).stp.latched || ((s.leftSlot p c).hopPort p).storm || !(s.leftSlot p c).joined m then s.leftSlot p c
        else if c.good then (s.leftSlot p c).modMach m fun l => { l with missed := 0 }
        else if 2 ≤ ((s.leftSlot p c).machLink m).missed then (s.leftSlot p c).linkLost m
        else (s.leftSlot p c).modMach m fun l => { l with missed := l.missed + 1 }
      | some (.node k) =>
        if c.good then (s.leftSlot p c).modNode k fun n => { n with missed := 0 }
        else
          let t := (s.leftSlot p c).modNode k fun n => { n with missed := n.missed + 1 }
          if ntLegacy t.hop.nodeTable k && (t.nodeLink k).missed = 3 then t.raise Ev.hopNodeMissed 0 [] else t
      | _ => s.leftSlot p c).hopPort p).cur = none
    split
    · split
      · exact left _ rfl
      · split
        · exact left _ rfl
        · split
          · exact left _ (by rw [State.linkLost_hop]; rfl)
          · exact left _ rfl
    · split
      · exact left _ rfl
      · dsimp only
        split
        · exact left _ (by rw [State.raise_hop]; rfl)
        · exact left _ rfl
    · exact left _ rfl

/-! #### The frame that a slot has received -/

theorem State.complete_ports (s : State) (d : Desc) (status : Nat) (result : List Byte) (detail : Nat) :
    (s.complete d status result detail).hop.ports = s.hop.ports := by
  obtain ⟨g, k, o, di, c, m, e, -⟩ := State.hostQuiet_iff.1 (State.complete_hostQuiet s d status result detail)
  rw [e]
  rfl

theorem State.carHoldMachine_ports (s : State) (m why : Nat) : (s.carHoldMachine m why).hop.ports = s.hop.ports := by
  unfold State.carHoldMachine
  split
  · rfl
  · simp [State.carTell, State.queueBlock, State.queueDl]

theorem State.carAct_ports (s : State) (m act why : Nat) (e : Ev) : (s.carAct m act why e).hop.ports = s.hop.ports := by
  unfold State.carAct
  split
  · rfl
  · dsimp only
    split
    · rw [State.carHoldMachine_ports, State.raise_hop]
    · rw [State.raise_hop]

theorem State.conform_ports (s : State) (m : Nat) (east north hs hc : Rat) (tObs : Nat) :
    (s.conform m east north hs hc tObs).hop.ports = s.hop.ports := by
  unfold State.conform
  split
  · rfl
  · extract_lets c frozen e f r vE vN live body dev isOver l anyOver n nowDev car t u car' v car''
    have hv : v.hop.ports = s.hop.ports := by
      unfold v
      split
      · rw [State.carAct_ports]
        rfl
      · rfl
    split
    · rw [State.carAct_ports]
      exact hv
    · exact hv

theorem State.ownSolution_ports (s : State) (m : Nat) (b : List Byte) : (s.ownSolution m b).hop.ports = s.hop.ports := by
  unfold State.ownSolution
  split
  · rfl
  · extract_lets o sec t k
    split
    · rw [State.conform_ports]
    · rfl

/-- A block of an uplink leaves the slot in which it came. -/
theorem State.deliverBlock_cur {s : State} (hs : tsorted s.hop.ports) (p m asn frag type : Nat) (b : List Byte) (q : Nat) :
    ((s.deliverBlock p m asn frag type b).hopPort q).cur = (s.hopPort q).cur := by
  have same (t : State) (h : t.hop.ports = s.hop.ports) : (t.hopPort q).cur = (s.hopPort q).cur := by
    rw [State.hopPort, h]
    rfl
  unfold State.deliverBlock
  split
  · exact same _ (State.ownSolution_ports ..)
  · exact same _ (congrArg Hop.ports (State.takeFeedback_sameHop ..).1)
  · exact same _ (congrArg Hop.ports (State.takeFragment_sameHop ..).1)
  · exact same _ (congrArg Hop.ports (State.trackRequest_sameHop ..).1)
  · unfold State.hostMessage
    split
    · by_cases hq : q = p
      · subst hq
        rw [State.hopPort_modHop_self hs]
      · rw [State.hopPort_modHop_ne _ _ hq]
    · exact same _ ((State.complete_ports ..).trans (congrArg Hop.ports (State.writePayload_sameHop ..).1))
  · rfl

theorem State.foldl_deliverBlock_cur {s : State} (hs : tsorted s.hop.ports) (p m asn : Nat) (frag : State → Nat)
    (l : List (Nat × List Byte)) (q : Nat) :
    ((l.foldl (fun s b => s.deliverBlock p m asn (frag s) b.1 b.2) s).hopPort q).cur = (s.hopPort q).cur := by
  induction l generalizing s with
  | nil => rfl
  | cons b l ih =>
    rw [List.foldl_cons, ih (((State.hopStays.refl s).deliverBlock ..).sorted hs), State.deliverBlock_cur hs]

/-- The slot after a frame is the one before it, with the frame heard. -/
theorem State.takeUplink_cur {s : State} (hs : tsorted s.hop.ports) (p m rssi : Nat) (c : CurSlot) (f : List Byte) :
    ∃ good, ((s.takeUplink p m rssi c f).hopPort p).cur =
      (s.hopPort p).cur.map fun c => { c with heard := true, good := good, got := none } := by
  have heard (good : Bool) (i : Nat) : ((s.heardFrame p i good).hopPort p).cur =
      (s.hopPort p).cur.map fun c => { c with heard := true, good := good, got := none } :=
    congrArg HopPort.cur (State.hopPort_modHop_self hs ..)
  have bad : ((s.badFrame p).hopPort p).cur =
      (s.hopPort p).cur.map fun c => { c with heard := true, good := false, got := none } :=
    (congrArg HopPort.cur (State.hopPort_modHop_self (State.modHop_sorted hs ..) ..)).trans (heard false 0)
  unfold State.takeUplink
  split
  · exact ⟨false, bad⟩
  · split
    · exact ⟨false, bad⟩
    · refine ⟨true, ?_⟩
      dsimp only
      rw [State.hopPort, State.raise_hop]
      exact (State.foldl_deliverBlock_cur (s := (s.heardFrame p rssi true).modMach m _)
        (State.modHop_sorted hs .. : tsorted (s.heardFrame p rssi true).hop.ports) p m c.asn _ _ p).trans
        (heard true rssi)

theorem State.hopStays.now {s t : State} (h : s.hopStays t) : t.now = s.now := by rw [State.now, h.clk, State.now]

theorem State.hopStays.act {s t : State} (h : s.hopStays t) (f : Sel) (i : Nat) : t.act f i = s.act f i := by
  rw [State.act, h.active, State.act]

theorem State.hopStays.slotNs {s t : State} (h : s.hopStays t) (p : Nat) : t.slotNs p = s.slotNs p := by
  rw [State.slotNs, h.act, State.slotNs]

theorem State.hopStays.spanEnd {s t : State} (h : s.hopStays t) (hs : tsorted s.hop.ports) (p : Nat) (c : CurSlot) :
    t.spanEnd p c = s.spanEnd p c := by
  rw [State.spanEnd, State.slotAt, h.slotNs, (h.ports hs p).1, State.spanEnd, State.slotAt]

/-- A slot in which its owner's uplink was received ends: the frame is delivered first. -/
theorem State.endSlot_uplink {s : State} {p m time rssi : Nat} {c : CurSlot} {f : List Byte}
    (hc : (s.hopPort p).cur = some c) (hslot : s.slotAt p c.asn + s.slotNs p ≤ s.now) (hg : c.got = some (time, rssi, f))
    (hl : c.listen = some (.machine m true)) (hnet : rfNet f = s.act F.HOP_CTRL_NET_ID) (htype : rfType f = 5) (haddr : rfAddr f = m)
    (henc : rfEnc f = true) : s.endSlot p = (s.takeUplink p m rssi c f).finishSlot p := by
  have hf : s.takeFrame p rssi c f = s.takeUplink p m rssi c f := by
    unfold State.takeFrame
    rw [if_neg (not_not.2 hnet), if_neg (by rw [htype]; decide), hl, htype]
    exact if_pos (by rw [haddr, henc]; simp)
  rw [State.endSlot, State.deliverGot, hc]
  dsimp only
  rw [hg]
  exact congrArg (State.finishSlot · p) ((if_pos hslot).trans hf)

/-- The state in which an authentic uplink of one byte has been heard. -/
theorem State.takeUplink_held {s : State} {p m rssi : Nat} {c : CurSlot} {k : LinkKeys} {f : List Byte} {g : Byte}
    (hk : s.sessionOf m = some k) (ho : ccmOpen k.up.value (hopNonce (meEui (s.machine m)) c.asn) f true = some [g]) :
    s.takeUplink p m rssi c f = ((s.heardFrame p rssi true).modMach m fun l => { l with heldGen := some g.toNat }).raise Ev.hopUplink m
      (leBytes 2 m ++ leBytes 1 p) := by
  unfold State.takeUplink
  rw [hk]
  dsimp only
  rw [ho]
  rfl

/-- And the machine's link once the slot has ended. -/
theorem State.finishSlot_held {s : State} {p m rssi : Nat} {c : CurSlot} {k : LinkKeys} {f : List Byte} {g : Byte}
    (hs : tsorted s.hop.ports) (hm : tsorted s.hop.machines) (hc : (s.hopPort p).cur = some c) (hn : s.spanEnd p c ≤ s.now)
    (hl : c.listen = some (.machine m true)) (hla : s.stp.latched = false) (hst : (s.hopPort p).storm = false)
    (hj : s.joined m = true) (hk : s.sessionOf m = some k)
    (ho : ccmOpen k.up.value (hopNonce (meEui (s.machine m)) c.asn) f true = some [g]) :
    ((((s.takeUplink p m rssi c f).finishSlot p).machLink m).missed = 0 ∧
      (((s.takeUplink p m rssi c f).finishSlot p).machLink m).heldGen = g.toNat) := by
  have hstays : s.hopStays (s.takeUplink p m rssi c f) := (State.hopStays.refl s).takeUplink ..
  have hspan := hstays.spanEnd hs p c
  have hnow := hstays.now
  rw [State.takeUplink_held hk ho] at hspan hnow ⊢
  generalize hv : (State.raise _ _ _ _ : State) = v at hspan hnow ⊢
  have hvh : v.hop = ((s.heardFrame p rssi true).modMach m fun l => { l with heldGen := some g.toNat }).hop := by
    rw [← hv, State.raise_hop]
  have hvp : v.hopPort p = (s.heardFrame p rssi true).hopPort p := by
    rw [State.hopPort, hvh]
    rfl
  rw [State.heardFrame, State.hopPort_modHop_self hs] at hvp
  have hvm : v.machLink m = { s.machLink m with heldGen := some g.toNat } := by
    rw [State.machLink, hvh]
    exact State.machLink_modMach (s := s.heardFrame p rssi true) hm ..
  have hvj : v.joined m = true := by
    rw [State.joined, hvm]
    exact hj
  have hvl : v.stp.latched = false := by
    rw [← hv, State.raise_stp]
    exact hla
  rw [State.finishSlot_machine (c := { c with heard := true, good := true, got := none }) (m := m)
    (hvh ▸ (State.modHop_sorted hs .. : tsorted (s.heardFrame p rssi true).hop.ports)) (by rw [hvp, hc]; rfl) (hspan.trans_le (hn.trans_eq hnow.symm)) hl hvl
    (by rw [hvp]; exact hst) hvj, if_pos rfl]
  have hml : ∀ u : State, u.hop.machines = v.hop.machines → (u.modMach m fun l => { l with missed := 0 }).machLink m =
      { v.machLink m with missed := 0 } := fun u hu => by
    rw [State.machLink_modMach (by rw [hu, hvh]; exact State.modMach_sorted (s := s.heardFrame p rssi true) hm ..), State.machLink, hu]
    rfl
  rw [hml _ (by rw [State.leftSlot_hop]; rfl), hvm]
  exact ⟨rfl, rfl⟩

end Sys2Proof.Machine

namespace Sys2Proof.Machine

/-! ### The start of a slot (R231, R232, R242, R345) -/

namespace State.hopStays

variable {r s t : State}

theorem listenIn (h : r.hopStays s) (p asn i : Nat) (l : Option Listen) (a b : Nat) : r.hopStays (s.listenIn p asn i l a b) := by
  unfold State.listenIn
  extract_lets busy a' t
  have ht : r.hopStays t := h.modHop p ⟨rfl, rfl, rfl, rfl, (·), .inl⟩
  exact .ite (fun _ => ht.frontEnd ..) fun _ => ht

theorem enterSlot (h : r.hopStays s) (p asn i : Nat) : r.hopStays (s.enterSlot p asn i) := h.listenIn ..

theorem sendBeacon (h : r.hopStays s) (p ch asn nominal : Nat) : r.hopStays (s.sendBeacon p ch asn nominal) := by
  unfold State.sendBeacon
  dsimp only
  split
  · exact (h.modHop p ⟨rfl, rfl, rfl, rfl, (·), .inl⟩).missUnder _
  · exact (((h.modHop p ⟨rfl, rfl, rfl, rfl, (·), .inl⟩).beaconAir ..).of_same (State.pushStamp_sameHop ..)).raise ..

theorem sendAnchor (h : r.hopStays s) (p asn nominal : Nat) : r.hopStays (s.sendAnchor p asn nominal) := by
  unfold State.sendAnchor
  split
  · exact h.missUnder _
  · exact h.onAir ..

theorem sendCorrection (h : r.hopStays s) (p ch asn i : Nat) : r.hopStays (s.sendCorrection p ch asn i) := by
  unfold State.sendCorrection
  dsimp only
  split
  · exact h
  · split
    · exact h.missUnder _
    · split
      · next e => exact (h.sendSealed ..).of_eq e
      · next t e =>
        have ht : r.hopStays (t.modHop p fun h => { h with cseq := (h.cseq + 1) % 65536 }) :=
          ((h.sendSealed ..).of_eq e).modHop p ⟨rfl, rfl, rfl, rfl, (·), .inl⟩
        exact ht.of_same ⟨rfl, rfl, rfl, rfl⟩

theorem sendDownlink (h : r.hopStays s) (p ch asn i : Nat) : r.hopStays (s.sendDownlink p ch asn i) := by
  unfold State.sendDownlink
  extract_lets t blocks
  have ht : r.hopStays t := h.dropUnfit ..
  clear_value blocks t
  split
  · exact ht
  · split
    · exact .ite (fun _ => ht.missUnder _) fun _ => ht.precompMiss
    · split
      · next e => exact ((ht.sendSealed ..).of_eq e).foldl (fun s b => (refl s).blockSent b) _
      · next e => exact (ht.sendSealed ..).of_eq e

theorem queueSched (h : r.hopStays s) (p m lasn : Nat) (narrow : Bool) (mode : Nat) (t : List Byte) (pend : Bool) :
    r.hopStays (s.queueSched p m lasn narrow mode t pend) :=
  h.foldl (fun s _ => (refl s).queueDl rfl) _

theorem countOrphan (h : r.hopStays s) (i : Nat) : r.hopStays (s.countOrphan i) := h.of_same (State.countOrphan_sameHop ..)

theorem announceTo (h : r.hopStays s) (p m : Nat) (a : Announce) (group stop keyGen : Nat) :
    r.hopStays (s.announceTo p m a group stop keyGen) := by
  unfold State.announceTo
  extract_lets hp lasn t u
  have ht : r.hopStays t := h.queueSched ..
  have hu : r.hopStays u := .ite (fun _ => ht) fun _ => ht.queueDl rfl
  clear_value u
  split
  · exact hu
  · split
    · exact hu.queueDl rfl
    · exact (hu.countOrphan _).countOrphan _

theorem acceptMachine (h : r.hopStays s) (p m : Nat) (rejoin : Bool) : r.hopStays (s.acceptMachine p m rejoin) := by
  unfold State.acceptMachine
  extract_lets was t u v w
  have hu : r.hopStays u := (h.modMach .. : r.hopStays t).raise ..
  have hv : r.hopStays v := .ite (fun _ => hu.raise ..) fun _ => hu
  have hw : r.hopStays w := hv.queueSched ..
  split
  · exact hw.announceTo ..
  · exact hw

theorem makeJoin (h : r.hopStays s) (p eui : Nat) (nonce : List Byte) (flags asn tx : Nat) :
    r.hopStays (s.makeJoin p eui nonce flags asn tx).1 := by
  unfold State.makeJoin
  dsimp only
  split
  · exact h.raise ..
  · split
    · exact h.countOrphan _
    · have hk (l : Tbl LinkKeys) : r.hopStays { s with key := { s.key with link := l }, free := s.free + 3 } :=
        h.of_same ⟨rfl, rfl, rfl, rfl⟩
      split
      · exact ((hk _).countOrphan _).countOrphan _
      · dsimp only
        split
        · exact (hk _).acceptMachine ..
        · split
          · exact ((hk _).modNode ..).raise ..
          · exact hk _

theorem setAnswers (h : r.hopStays s) (p : Nat) (l : HopPort → List Answer) :
    r.hopStays (s.modHop p fun h => { h with answers := l h }) := h.modHop p ⟨rfl, rfl, rfl, rfl, (·), .inl⟩

theorem sendAnswer (h : r.hopStays s) (p ch asn i : Nat) (a : Answer) : r.hopStays (s.sendAnswer p ch asn i a) := by
  unfold State.sendAnswer
  extract_lets nominal mode cap set
  have hset {s : State} (h : r.hopStays s) (v : Option Answer) : r.hopStays (set s v) := h.setAnswers ..
  clear_value set
  split
  · split
    · next e => exact hset ((h.sendAck ..).of_eq e) _
    · next e => exact (h.sendAck ..).of_eq e
  · next slot eui nonce flags rasn sf sent resp =>
    have hm : r.hopStays (match resp with
        | some q => (s, some q)
        | none => s.makeJoin p eui nonce flags rasn (s.txStart p nominal)).1 := by
      split
      · exact h
      · exact h.makeJoin ..
    split
    next t made e =>
    have ht : r.hopStays t := hm.of_eq e
    split
    · extract_lets seg n part
      split
      · next e => exact hset ((ht.sendSealed ..).of_eq e) _
      · next u e =>
        have hu : r.hopStays u := (ht.sendSealed ..).of_eq e
        refine hset ?_ _
        split
        · exact hu.modNode ..
        · exact hu
    · exact hset ht.precompMiss _

theorem openPoll (h : r.hopStays s) (p asn i sf : Nat) : r.hopStays (s.openPoll p asn i sf) := by
  unfold State.openPoll
  dsimp only
  split
  · exact h.enterSlot ..
  · exact .ite (fun _ => h.listenIn ..) fun _ => .ite (fun _ => ((h.modNode ..).enterSlot ..).raise ..) fun _ => h.listenIn ..

theorem plainSlot (h : r.hopStays s) (p asn i sf ch : Nat) : r.hopStays (s.plainSlot p asn i sf ch) := by
  unfold State.plainSlot
  extract_lets t tx
  have he := h.enterSlot p asn i
  split
  · exact he.sendAnchor ..
  · split
    · exact he.sendBeacon ..
    · exact he.sendCorrection ..
    · exact he.sendDownlink ..
    · exact .ite (fun _ => h.listenIn ..) fun _ => he
    · exact .ite (fun _ => h.listenIn ..) fun _ => he
    · split
      · exact he.sendAnswer ..
      · exact h.listenIn ..
    · exact h.openPoll ..
    · split
      · exact he
      · split
        · exact .ite (fun _ => h) fun _ => (h.modHop p ⟨rfl, rfl, rfl, rfl, (·), .inl⟩).ackInSpan ..
        · exact h

end State.hopStays

/-- The state in which a port has entered a slot: it has the slot's number, and its duty sums are reviewed. -/
def State.slotEntered (s : State) (p asn : Nat) : State :=
  (s.modHop p fun h => { h with served := some asn }).dutyReview p asn s.now

/-- Of the port itself, the slot's number and the duty sums differ. -/
theorem State.hopPort_slotEntered {s : State} (hs : tsorted s.hop.ports) (p asn : Nat) : (s.slotEntered p asn).hopPort p =
    { s.hopPort p with served := some asn
                       duty := ((s.slotEntered p asn).hopPort p).duty
                       hits := ((s.slotEntered p asn).hopPort p).hits } := by
  unfold State.slotEntered State.dutyReview
  rw [State.hopPort_modHop_self (State.modHop_sorted hs ..), State.hopPort_modHop_self hs]

/-- A slot of a port that follows its table begins: the port enters it, the slot has its own part, and the Key Store holds what comes
next. -/
theorem State.slotStart_plain {s : State} {p asn i sf : Nat} (hs : tsorted s.hop.ports) (hasn : s.now / s.slotNs p = asn)
    (hi : s.now % sfNs / s.slotNs p = i) (hsf : s.now / sfNs = sf) (hlive : s.hopLive p = true) (hcur : (s.hopPort p).cur = none)
    (hstorm : (s.hopPort p).storm = false) (hsf' : s.hop.sf = sf) (hserved : (s.hopPort p).served ≠ some asn)
    (hw : s.commitWaits (s.slotAt p asn) = false) :
    s.slotStart p = (((s.slotEntered p asn).plainSlot p asn i sf (stChannel (s.hopPort p).table i asn)).holdStops p asn).holdForms p asn := by
  have hend : s.endSlot p = s := by
    rw [State.endSlot, State.deliverGot, hcur]
    dsimp only
    rw [State.finishSlot, hcur]
  have hport := State.hopPort_slotEntered hs p asn
  unfold State.slotStart
  rw [hend, hasn, hi, hsf]
  dsimp only
  rw [if_neg (by simp [hlive, hsf', hw]), if_neg hserved]
  change (State.holdForms (State.holdStops (if ((s.slotEntered p asn).hopPort p).storm then
    (s.slotEntered p asn).stormSlot p asn i sf (stChannel ((s.slotEntered p asn).hopPort p).table i asn)
    else (s.slotEntered p asn).plainSlot p asn i sf (stChannel ((s.slotEntered p asn).hopPort p).table i asn)) p asn) p asn) = _
  rw [hport]
  rw [if_neg (by simp [hstorm])]

/-- What the Key Store holds for a port from a slot on is of that slot and the seven after it; of the rest of the port it leaves all but
the keys of the next beacon and anchor. -/
theorem State.held_holdForms {s : State} (hs : tsorted s.hop.ports) (p asn : Nat) :
    let h := ((s.holdStops p asn).holdForms p asn).hopPort p
    (h.served = (s.hopPort p).served ∧ h.table = (s.hopPort p).table ∧ h.cur = (s.hopPort p).cur ∧ h.busy = (s.hopPort p).busy) ∧
    ∀ f ∈ h.held, asn ≤ f.asn ∧ f.asn < asn + 8 := by
  intro h
  have hh : h = _ := State.hopPort_modHop_self (State.modHop_sorted hs ..) ..
  rw [State.hopPort_modHop_self hs] at hh
  rw [hh]
  refine ⟨⟨rfl, rfl, rfl, rfl⟩, fun f hf => ?_⟩
  obtain ⟨l, hl, hf⟩ := List.mem_flatten.1 hf
  obtain ⟨j, hj, rfl⟩ := List.mem_map.1 hl
  obtain ⟨k, -, hk⟩ := List.mem_filterMap.1 hf
  obtain ⟨b, -, rfl⟩ := Option.map_eq_some_iff.1 hk
  have := List.mem_range.1 hj
  exact ⟨by simp, by simpa⟩

/-- A window that the port opens: the slot it is in, and the lines' receive pattern. -/
theorem State.listenIn_opens {s : State} (hs : tsorted s.hop.ports) (p asn i : Nat) (l : Listen) (a b : Nat) :
    let a' := if (s.hopPort p).busy = 0 then a else max a ((s.hopPort p).busy + 2000 - s.slotAt p asn)
    ((s.listenIn p asn i (some l) a b).hopPort p).cur =
      some ⟨asn, s.slotAt p asn / sfNs, i, some l, a', b, false, false, none⟩ ∧
    (s.listenIn p asn i (some l) a b).out =
      s.out ++ [.frontEnd p (s.slotAt p asn + a') (s.act F.RAD_PORT_CTRL_FEM_RX p)] :=
  ⟨congrArg HopPort.cur (State.hopPort_modHop_self hs ..), rfl⟩

/-- An owner's slot of a machine joined on the port: the device listens around the TX point. -/
theorem State.plainSlot_machine {s : State} {p asn i sf ch : Nat} (ha : s.anchorHere p i sf = false)
    (ht : stType (s.hopPort p).table i = 4 ∨ stType (s.hopPort p).table i = 5)
    (hj : s.joined (stOwner (s.hopPort p).table i) = true) (hp : (s.machLink (stOwner (s.hopPort p).table i)).port = p) :
    s.plainSlot p asn i sf ch = s.listenIn p asn i
      (some (.machine (stOwner (s.hopPort p).table i) (stType (s.hopPort p).table i = 4))) (s.txPoint p - s.machGuard p)
      (s.txPoint p + s.machGuard p) := by
  unfold State.plainSlot
  dsimp only
  rw [if_neg (by simp [ha])]
  obtain ht | ht := ht <;> rw [ht] <;> exact if_pos (by simp [hj, hp])

/-- A shared slot in which no answer is due: the device listens for four fifths of it. -/
theorem State.plainSlot_shared {s : State} {p asn i sf ch : Nat} (ha : s.anchorHere p i sf = false)
    (ht : stType (s.hopPort p).table i = 6) (hd : s.answerDue p i sf false = none) :
    s.plainSlot p asn i sf ch = s.listenIn p asn i (some .shared) 0 (s.slotNs p * 4 / 5) := by
  unfold State.plainSlot
  dsimp only
  rw [if_neg (by simp [ha]), ht]
  change (match s.answerDue p i sf false with
    | some a => (s.enterSlot p asn i).sendAnswer p ch asn i a
    | none => s.openShared p asn i) = _
  rw [hd]
  rfl

/-- A beacon slot. -/
theorem State.plainSlot_beacon {s : State} {p asn i sf ch : Nat} (ha : s.anchorHere p i sf = false)
    (ht : stType (s.hopPort p).table i = 1) :
    s.plainSlot p asn i sf ch = (s.enterSlot p asn i).sendBeacon p ch asn (s.slotAt p asn + s.txPoint p) := by
  unfold State.plainSlot
  dsimp only
  rw [if_neg (by simp [ha]), ht]
  rfl

/-! #### A beacon on the air (R241, R242) -/

theorem leBytes_length (n v : Nat) : (leBytes n v).length = n := by
  induction n generalizing v with
  | zero => rfl
  | succ n ih => simp [leBytes, ih]

/-- Frames of two states differ in no byte count: a beacon has 26 bytes, its type is 0 and its network the device's. -/
theorem State.beaconForm_frame {s t : State} {p asn delay : Nat} {f : BeaconForm} (h : s.beaconForm p asn = some f) :
    (t.formFrame f delay).length = 26 ∧ rfType (t.formFrame f delay) = 0 ∧
    rfNet (t.formFrame f delay) = s.act F.HOP_CTRL_NET_ID % 65536 := by
  obtain ⟨k, -, rfl⟩ := Option.map_eq_some_iff.1 h
  refine ⟨?_, ?_, ?_⟩
  · simp [State.formFrame, State.hopHeader, leBytes_length, ccmSeal, bvBytes, beBytes]
  · simp [State.formFrame, State.hopHeader, rfType, byteAt, leBytes, FT.beacon]
  · simp [State.formFrame, State.hopHeader, rfNet, fieldLE, slice, leNat, leBytes, FT.beacon, List.range_succ]
    omega

/-- A frame goes on the air between its front-end patterns, and the port is busy until it ends. -/
theorem State.onAir_out (s : State) (p ch start mode : Nat) (frame : List Byte) : (s.onAir p ch start mode frame).out = s.out ++
    [.frontEnd p (max s.now (start - 2000)) (s.act F.RAD_PORT_CTRL_FEM_TX p), .radio p start ch frame,
      .frontEnd p (start + s.air p mode frame.length + 2000) (s.act F.RAD_PORT_CTRL_FEM_IDLE p)] := by
  have : (s.onAir p ch start mode frame).out = ((s.out ++ [Out.frontEnd p (max s.now (start - 2000)) (s.act F.RAD_PORT_CTRL_FEM_TX p)]) ++
    [Out.radio p start ch frame]) ++ [Out.frontEnd p (start + s.air p mode frame.length + 2000) (s.act F.RAD_PORT_CTRL_FEM_IDLE p)] := rfl
  rw [this, List.append_assoc, List.append_assoc]
  rfl

theorem State.hopPort_onAir {s : State} (hs : tsorted s.hop.ports) (p ch start mode : Nat) (frame : List Byte) :
    (s.onAir p ch start mode frame).hopPort p = { s.hopPort p with
      busy := start + s.air p mode frame.length
      duty := (s.hopPort p).duty ++ [(ch, start, s.air p mode frame.length)] } :=
  (State.hopPort_modHop_self (s := s.frontEnd p (max s.now (start - 2000)) F.RAD_PORT_CTRL_FEM_TX) hs ..)

theorem State.beaconAir_busy {s : State} (hs : tsorted s.hop.ports) (p ch : Nat) (f : BeaconForm) (nominal start : Nat) :
    ((s.beaconAir p ch f nominal start).hopPort p).busy =
      start + s.air p 0 (s.formFrame f (delayField nominal start)).length := by
  unfold State.beaconAir
  dsimp only
  rw [State.hopPort_modHop_self (((State.hopStays.refl s).onAir ..).sorted hs), State.hopPort_onAir hs]

theorem State.beaconAir_out (s : State) (p ch : Nat) (f : BeaconForm) (nominal start : Nat) :
    (s.beaconAir p ch f nominal start).out = s.out ++
      [.frontEnd p (max s.now (start - 2000)) (s.act F.RAD_PORT_CTRL_FEM_TX p),
        .radio p start ch (s.formFrame f (delayField nominal start)),
        .frontEnd p (start + s.air p 0 (s.formFrame f (delayField nominal start)).length + 2000) (s.act F.RAD_PORT_CTRL_FEM_IDLE p)] := by
  have h : (s.beaconAir p ch f nominal start).out = (s.onAir p ch start 0 (s.formFrame f (delayField nominal start))).out := rfl
  rw [h, State.onAir_out]

theorem State.pushStamp_out (s : State) (source id t16 : Nat) : (s.pushStamp source id t16).out = s.out := by
  unfold State.pushStamp
  dsimp only
  repeat' split
  all_goals simp

/-- A beacon that has a key goes on the air. -/
theorem State.sendBeacon_goes {s : State} (hs : tsorted s.hop.ports) {p asn : Nat} (ch nominal : Nat)
    (hk : (s.formKey p asn (s.hopPort p).beaconKey).isSome = true) :
    let fin := s.txStart p nominal + s.air p 0 26
    (∃ f, rfType f = 0 ∧ rfNet f = s.act F.HOP_CTRL_NET_ID % 65536 ∧ f.length = 26 ∧
      (s.sendBeacon p ch asn nominal).out = s.out ++
        [.frontEnd p (max s.now (s.txStart p nominal - 2000)) (s.act F.RAD_PORT_CTRL_FEM_TX p),
          .radio p (s.txStart p nominal) ch f, .frontEnd p (fin + 2000) (s.act F.RAD_PORT_CTRL_FEM_IDLE p)]) ∧
    ((s.sendBeacon p ch asn nominal).hopPort p).busy = fin := by
  intro fin
  obtain ⟨k, hk⟩ := Option.isSome_iff_exists.1 hk
  obtain ⟨f, hf⟩ : ∃ f, s.beaconForm p asn = some f := ⟨_, congrArg (Option.map _) hk⟩
  unfold State.sendBeacon
  rw [hf]
  dsimp only
  generalize hu : s.modHop p (fun h => { h with form := some f }) = u
  have hus : tsorted u.hop.ports := hu ▸ State.modHop_sorted hs ..
  have hup : u.hopPort p = { s.hopPort p with form := some f } := hu ▸ State.hopPort_modHop_self hs ..
  obtain ⟨hlen, htype, hnet⟩ := State.beaconForm_frame (t := u) (delay := delayField nominal (s.txStart p nominal)) hf
  have hair : u.air p 0 (u.formFrame f (delayField nominal (s.txStart p nominal))).length = s.air p 0 26 := by
    rw [hlen, ← hu]
    rfl
  refine ⟨⟨_, htype, hnet, hlen, ?_⟩, ?_⟩
  · rw [State.raise_out, State.pushStamp_out]
    rw [State.beaconAir_out, hair, ← hu]
    rfl
  · rw [State.hopPort, State.raise_hop, (State.pushStamp_sameHop ..).1, ← State.hopPort, State.beaconAir_busy hus, hair]

end Sys2Proof.Machine

namespace Sys2Proof.Machine

theorem State.held_out (s : State) (p asn : Nat) : ((s.holdStops p asn).holdForms p asn).out = s.out := rfl

theorem State.hopPort_enterSlot {s : State} (hs : tsorted s.hop.ports) (p asn i : Nat) : (s.enterSlot p asn i).hopPort p =
    { s.hopPort p with cur := ((s.enterSlot p asn i).hopPort p).cur } := by
  rw [show s.enterSlot p asn i = s.modHop p (fun h => { h with cur := some ⟨asn, s.slotAt p asn / sfNs, i, none,
    if (s.hopPort p).busy = 0 then 0 else max 0 ((s.hopPort p).busy + 2000 - s.slotAt p asn), 0, false, false, none⟩ }) from rfl,
    State.hopPort_modHop_self hs]

section
variable {s : State} {p asn i sf : Nat} (hs : tsorted s.hop.ports) (hasn : s.now / s.slotNs p = asn)
  (hi : s.now % sfNs / s.slotNs p = i) (hsf : s.now / sfNs = sf) (hlive : s.hopLive p = true) (hcur : (s.hopPort p).cur = none)
  (hstorm : (s.hopPort p).storm = false) (hsf' : s.hop.sf = sf) (hserved : (s.hopPort p).served ≠ some asn)
  (hw : s.commitWaits (s.slotAt p asn) = false)
include hs hasn hi hsf hlive hcur hstorm hsf' hserved hw

/-- A slot that begins is entered once, under the table as it was, and the Key Store holds eight slots. -/
theorem State.slotStart_keeps : ((s.slotStart p).hopPort p).served = some asn ∧
    ((s.slotStart p).hopPort p).table = (s.hopPort p).table ∧
    ∀ f ∈ ((s.slotStart p).hopPort p).held, asn ≤ f.asn ∧ f.asn < asn + 8 := by
  rw [State.slotStart_plain hs hasn hi hsf hlive hcur hstorm hsf' hserved hw]
  have hu := State.hopPort_slotEntered hs p asn
  have hus : tsorted (s.slotEntered p asn).hop.ports := State.modHop_sorted (State.modHop_sorted hs ..) ..
  generalize s.slotEntered p asn = u at hu hus
  have hx := (State.hopStays.refl u).plainSlot p asn i sf (stChannel (s.hopPort p).table i asn)
  obtain ⟨htab, -, -, hser, -⟩ := hx.ports hus p
  obtain ⟨⟨h1, h2, -⟩, hheld⟩ := State.held_holdForms (hx.sorted hus) p asn
  refine ⟨h1.trans (hser.trans ?_), h2.trans (htab.trans ?_), hheld⟩ <;> rw [hu]

variable (ha : s.anchorHere p i sf = false)
include ha

/-- What a slot leaves that opens one window: the slot entered and the lines' receive pattern. -/
theorem State.slotStart_listens {l : Listen} {a b : Nat}
    (hl : ∀ u : State, u = s.slotEntered p asn → u.anchorHere p i sf = false → u.hopPort p = { s.hopPort p with
        served := some asn, duty := (u.hopPort p).duty, hits := (u.hopPort p).hits } →
      u.plainSlot p asn i sf (stChannel (s.hopPort p).table i asn) = u.listenIn p asn i (some l) a b) :
    let a' := if (s.hopPort p).busy = 0 then a else max a ((s.hopPort p).busy + 2000 - s.slotAt p asn)
    ((s.slotStart p).hopPort p).cur = some ⟨asn, s.slotAt p asn / sfNs, i, some l, a', b, false, false, none⟩ ∧
    (s.slotStart p).out = s.out ++ [.frontEnd p (s.slotAt p asn + a') (s.act F.RAD_PORT_CTRL_FEM_RX p)] := by
  rw [State.slotStart_plain hs hasn hi hsf hlive hcur hstorm hsf' hserved hw]
  have hu := State.hopPort_slotEntered hs p asn
  have hus : tsorted (s.slotEntered p asn).hop.ports := State.modHop_sorted (State.modHop_sorted hs ..) ..
  have hua : (s.slotEntered p asn).anchorHere p i sf = false := by
    rw [State.anchorHere, hu]
    exact ha
  rw [hl _ rfl hua hu]
  obtain ⟨hc, ho⟩ := State.listenIn_opens hus p asn i l a b
  have hx := (State.hopStays.refl (s.slotEntered p asn)).listenIn p asn i (some l) a b
  obtain ⟨⟨-, -, h3, -⟩, -⟩ := State.held_holdForms (hx.sorted hus) p asn
  rw [hu] at hc ho
  exact ⟨h3.trans hc, ho⟩

/-- An owner's slot. -/
theorem State.slotStart_machine (ht : stType (s.hopPort p).table i = 4 ∨ stType (s.hopPort p).table i = 5)
    (hj : s.joined (stOwner (s.hopPort p).table i) = true) (hp : (s.machLink (stOwner (s.hopPort p).table i)).port = p) :
    let a' := if (s.hopPort p).busy = 0 then s.txPoint p - s.machGuard p
      else max (s.txPoint p - s.machGuard p) ((s.hopPort p).busy + 2000 - s.slotAt p asn)
    ((s.slotStart p).hopPort p).cur = some ⟨asn, s.slotAt p asn / sfNs, i,
      some (.machine (stOwner (s.hopPort p).table i) (stType (s.hopPort p).table i = 4)), a', s.txPoint p + s.machGuard p, false, false,
      none⟩ ∧
    (s.slotStart p).out = s.out ++ [.frontEnd p (s.slotAt p asn + a') (s.act F.RAD_PORT_CTRL_FEM_RX p)] := by
  refine State.slotStart_listens hs hasn hi hsf hlive hcur hstorm hsf' hserved hw ha fun u hu hua hport => ?_
  have htab : (u.hopPort p).table = (s.hopPort p).table := by rw [hport]
  rw [State.plainSlot_machine hua (by rw [htab]; exact ht) (by rw [htab, hu]; exact hj) (by rw [htab, hu]; exact hp), htab, hu]
  rfl

/-- A shared slot in which no answer is due. -/
theorem State.slotStart_shared (ht : stType (s.hopPort p).table i = 6) (hd : s.answerDue p i sf false = none) :
    let a' := if (s.hopPort p).busy = 0 then 0 else max 0 ((s.hopPort p).busy + 2000 - s.slotAt p asn)
    ((s.slotStart p).hopPort p).cur =
      some ⟨asn, s.slotAt p asn / sfNs, i, some .shared, a', s.slotNs p * 4 / 5, false, false, none⟩ ∧
    (s.slotStart p).out = s.out ++ [.frontEnd p (s.slotAt p asn + a') (s.act F.RAD_PORT_CTRL_FEM_RX p)] := by
  refine State.slotStart_listens hs hasn hi hsf hlive hcur hstorm hsf' hserved hw ha fun u hu hua hport => ?_
  have hud : u.answerDue p i sf false = none := by
    rw [State.answerDue, hport]
    exact hd
  rw [State.plainSlot_shared hua (by rw [hport]; exact ht) hud, hu]
  rfl

/-- A beacon slot with a key. -/
theorem State.slotStart_beacon (ht : stType (s.hopPort p).table i = 1)
    (hk : (s.formKey p asn (s.hopPort p).beaconKey).isSome = true) :
    let fin := s.txStart p (s.slotAt p asn + s.txPoint p) + s.air p 0 26
    (∃ f, rfType f = 0 ∧ rfNet f = s.act F.HOP_CTRL_NET_ID % 65536 ∧ f.length = 26 ∧
      (s.slotStart p).out = s.out ++
        [.frontEnd p (max s.now (s.txStart p (s.slotAt p asn + s.txPoint p) - 2000)) (s.act F.RAD_PORT_CTRL_FEM_TX p),
          .radio p (s.txStart p (s.slotAt p asn + s.txPoint p)) (stChannel (s.hopPort p).table i asn) f,
          .frontEnd p (fin + 2000) (s.act F.RAD_PORT_CTRL_FEM_IDLE p)]) ∧
    ((s.slotStart p).hopPort p).busy = fin := by
  rw [State.slotStart_plain hs hasn hi hsf hlive hcur hstorm hsf' hserved hw]
  have hu := State.hopPort_slotEntered hs p asn
  have hus : tsorted (s.slotEntered p asn).hop.ports := State.modHop_sorted (State.modHop_sorted hs ..) ..
  have hua : (s.slotEntered p asn).anchorHere p i sf = false := by
    rw [State.anchorHere, hu]
    exact ha
  rw [State.plainSlot_beacon hua (by rw [hu]; exact ht)]
  generalize hv : (s.slotEntered p asn).enterSlot p asn i = v
  have hvs : tsorted v.hop.ports := hv ▸ State.modHop_sorted hus ..
  have hvp : v.hopPort p = { (s.slotEntered p asn).hopPort p with cur := (v.hopPort p).cur } := by
    rw [← hv]
    exact State.hopPort_enterSlot hus p asn i
  rw [hu] at hvp
  have htx : v.txStart p (s.slotAt p asn + s.txPoint p) = s.txStart p (s.slotAt p asn + s.txPoint p) := by
    rw [State.txStart, hvp, State.txStart]
  have hvk : (v.formKey p asn (v.hopPort p).beaconKey).isSome = true := by
    rw [hvp, ← hv]
    exact hk
  obtain ⟨hf, hb⟩ := State.sendBeacon_goes hvs (stChannel (s.hopPort p).table i asn) (s.slotAt p asn + s.txPoint p) hvk
  have hx := (State.hopStays.refl v).sendBeacon p (stChannel (s.hopPort p).table i asn) asn (s.slotAt p asn + s.txPoint p)
  obtain ⟨⟨-, -, -, h4⟩, -⟩ := State.held_holdForms (hx.sorted hvs) p asn
  rw [htx] at hf hb
  obtain ⟨hair, hact, hnow, hout⟩ : v.air p 0 26 = s.air p 0 26 ∧ (∀ f k, v.act f k = s.act f k) ∧ v.now = s.now ∧ v.out = s.out := by
    rw [← hv]
    exact ⟨rfl, fun _ _ => rfl, rfl, rfl⟩
  rw [hair] at hf hb
  simp only [hact, hnow, hout] at hf
  rw [State.held_out]
  exact ⟨hf, h4.trans hb⟩

end

/-- The ports and the machines of tidy tables are sorted. -/
theorem State.tidy.hopSorted {s : State} (h : s.tidy) : tsorted s.hop.ports ∧ tsorted s.hop.machines := by
  obtain ⟨-, -, ⟨hp, hm, -⟩, -⟩ := h
  exact ⟨hp, hm⟩

/-- A slot's end that no commit precedes. -/
theorem exec_slotEnd {s : State} {dt p : Nat} {c : CurSlot} (hr : s.radiosRun = true) (hc : (s.hopPort p).cur = some c)
    (hw : (s.elapse dt).commitWaits (s.spanEnd p c) = false) : exec (.slotEnd dt p) s = .next ((s.elapse dt).endSlot p) := by
  refine congrArg Host.Outcome.next (if_pos ?_)
  rw [show ((s.elapse dt).hopPort p).cur = some c from hc, show (s.elapse dt).radiosRun = true from hr]
  simpa using show (s.elapse dt).commitWaits ((s.elapse dt).spanEnd p c) = false from hw

/-- The end of an owner's slot in which nothing was received. -/
theorem State.endSlot_missed {s : State} {p m : Nat} {c : CurSlot} (hs : tsorted s.hop.ports) (hm : tsorted s.hop.machines)
    (hc : (s.hopPort p).cur = some c) (hn : s.spanEnd p c ≤ s.now) (hg : c.got = none) (hl : c.listen = some (.machine m true))
    (hla : s.stp.latched = false) (hst : (s.hopPort p).storm = false) (hj : s.joined m = true) :
    let t := s.endSlot p
    (t.hopPort p).cur = none ∧ (c.good = true → t.machLink m = { s.machLink m with missed := 0 }) ∧
    (c.good = false → (s.machLink m).missed < 2 → t.machLink m = { s.machLink m with missed := (s.machLink m).missed + 1 }) ∧
    (c.good = false → 2 ≤ (s.machLink m).missed →
      (t.machLink m).state = .linkLost ∧ t.stp.lostSince.getLsbD m = decide (m < 256)) := by
  have he : s.endSlot p = s.finishSlot p := by
    rw [State.endSlot, State.deliverGot, hc]
    dsimp only
    rw [hg]
  have hlm : tsorted (s.leftSlot p c).hop.machines := by
    rw [State.leftSlot_hop]
    exact hm
  have hll : (s.leftSlot p c).machLink m = s.machLink m := by
    rw [State.machLink, State.leftSlot_hop]
    rfl
  have hfin := State.finishSlot_machine hs hc hn hl hla hst hj
  dsimp only
  rw [he]
  refine ⟨State.finishSlot_cur hs fun c' hc' => ?_, fun hgood => ?_, fun hgood h2 => ?_, fun hgood h2 => ?_⟩
  · cases hc.symm.trans hc'
    exact hn
  · rw [hfin, if_pos hgood, State.machLink_modMach hlm, hll]
  · rw [hfin, if_neg (by simp [hgood]), if_neg (Nat.not_le.2 h2), State.machLink_modMach hlm, hll]
  · rw [hfin, if_neg (by simp [hgood]), if_pos h2]
    refine ⟨?_, State.linkLost_since ..⟩
    rw [State.machLink, State.linkLost_hop]
    exact congrArg MachLink.state (State.machLink_modMach hlm ..)

/-- Settles O38: boundaries, the starts of slots and their ends, each by what it does where no commit is due before it. -/
theorem superframesAndSlotsRun : Obligations.SuperframesAndSlotsRun := by
  unfold Obligations.SuperframesAndSlotsRun
  refine ⟨?_, ?_, ?_, ?_, ?_, ?_⟩
  · intro s dt ht hr hi hu hsf hc
    obtain ⟨h1, h2, h3⟩ := State.boundary_begins (s := s.elapse dt) ht.hopSorted.1 hr hi hu hsf hc
    refine ⟨_, rfl, h1, fun p hp => ?_, h3⟩
    obtain ⟨k1, k2, k3, k4, k5⟩ := h2 p hp
    refine ⟨k1, k2, k3, k4, fun hl => ?_⟩
    by_contra hst
    have := k5 (by simpa using hst)
    rw [hl] at this
    cases this
  · intro s dt ht hr hs hi hu hsf hc
    have hb := State.boundary_silent (s := s.elapse dt) hr hs hi hu hsf hc
    obtain ⟨h1, h2, h3⟩ := State.foldl_applyTable
      (s := { s.elapse dt with hop := { s.hop with sf := (s.elapse dt).now / sfNs } }) ht.hopSorted.1
      ((List.range s.id.part.radios).filter s.hopEnabled)
    refine ⟨_, congrArg Host.Outcome.next hb, h1, fun p => (h2 p).trans ?_, h3⟩
    simp only [State.mem_enabled]
    rfl
  · intro s dt p ht hlive hcur hstorm now asn i tab tx hsf hserved ha hw free opens
    have hs := ht.hopSorted.1
    obtain ⟨h1, h2, h3⟩ := State.slotStart_keeps (s := s.elapse dt) hs rfl rfl rfl hlive hcur hstorm hsf hserved hw
    exact ⟨_, rfl, h1, h2, h3,
      fun h4 hj hp => State.slotStart_machine (s := s.elapse dt) hs rfl rfl rfl hlive hcur hstorm hsf hserved hw ha h4 hj hp,
      fun h4 hd => State.slotStart_shared (s := s.elapse dt) hs rfl rfl rfl hlive hcur hstorm hsf hserved hw ha h4 hd,
      fun h4 hk => State.slotStart_beacon (s := s.elapse dt) hs rfl rfl rfl hlive hcur hstorm hsf hserved hw ha h4 hk⟩
  · intro s dt p m c ht hr hc hn hw hg hl hla hst hj
    exact ⟨_, exec_slotEnd hr hc hw,
      State.endSlot_missed (s := s.elapse dt) ht.hopSorted.1 ht.hopSorted.2 hc hn hg hl hla hst hj⟩
  · intro s dt p m time rssi c k f ht hr hc hn hslot hw hg hl hla hst hj hnet htype haddr henc hk
    obtain ⟨hs, hm⟩ := ht.hopSorted
    have he := State.endSlot_uplink (s := s.elapse dt) hc hslot hg hl hnet htype haddr henc
    refine ⟨_, (exec_slotEnd hr hc hw).trans (congrArg Host.Outcome.next he), State.finishSlot_cur ?_ fun c' hc' => ?_, fun g ho => ?_⟩
    · exact ((State.hopStays.refl (s.elapse dt)).takeUplink ..).sorted hs
    · have hst := (State.hopStays.refl (s.elapse dt)).takeUplink p m rssi c f
      obtain ⟨good, hgood⟩ := State.takeUplink_cur (s := s.elapse dt) hs p m rssi c f
      rw [hst.spanEnd hs, hst.now]
      cases hc'.symm.trans (hgood.trans (congrArg (Option.map _) hc))
      exact hn
    · exact State.finishSlot_held (s := s.elapse dt) hs hm hc hn hl hla hst hj hk ho
  · intro s dt p c hc hw
    refine congrArg Host.Outcome.next (if_neg ?_)
    rw [show ((s.elapse dt).hopPort p).cur = some c from hc]
    simp only [Option.any_some]
    rw [show (s.elapse dt).commitWaits ((s.elapse dt).spanEnd p c) = true from hw]
    simp

end Sys2Proof.Machine

namespace Sys2Proof.Machine

/-! ## Threads stay where their states say (R24, R430 to R435)

What the schedule speaks of is a small part of the state, its `Plan`. The operations that place threads are shown to keep a plan in
order; every other operation of the model reaches the plan through events alone. -/

/-- The contexts of the threads, the ready lists, the cores' threads, and what the power state says of the cores. -/
structure Plan where
  threads : Tbl Thread
  ready : Tbl (List Nat)
  cores : Tbl Nat
  state : DevState
  held : Bool

abbrev State.plan (s : State) : Plan := ⟨s.dis.threads, s.dis.ready, s.dis.cores, s.pwr.state, s.pwr.inReset⟩

/-- Thread `k`, the ready list of priority `p` and the thread on core `c` in a plan. -/
abbrev Plan.thread (q : Plan) (k : Nat) : Thread := tget q.threads Thread.reset k
abbrev Plan.list (q : Plan) (p : Nat) : List Nat := tget q.ready [] p
abbrev Plan.running (q : Plan) (c : Nat) : Option Nat := tfind q.cores c

/-- Thread `k` is in no ready list and on no core, but for the core that is about to change. -/
def Plan.loose (q : Plan) (k : Nat) (but : Option Nat := none) : Prop :=
  (∀ p, k ∉ q.list p) ∧ ∀ c, some c ≠ but → q.running c ≠ some k

/-- The tables are sorted, the ready lists hold `READY` threads of their priority once each, and each core's thread is `RUNNING` there,
but for a core that is about to change. -/
structure Plan.orderly (q : Plan) (but : Option Nat := none) : Prop where
  threads : tsorted q.threads
  ready : tsorted q.ready
  cores : tsorted q.cores
  lists : ∀ p, (q.list p).Nodup ∧ ∀ k ∈ q.list p, (q.thread k).state = .ready ∧ (q.thread k).prio = p
  on : ∀ c k, some c ≠ but → q.running c = some k →
    (q.thread k).state = .running ∧ (q.thread k).core = c ∧ (q.thread k).met = none

/-! ### Loose threads -/

theorem Plan.loose.mono {q : Plan} {k : Nat} (h : q.loose k) (but : Option Nat) : q.loose k but :=
  ⟨h.1, fun c _ => h.2 c (by simp)⟩

/-- A thread that is neither `READY` nor `RUNNING` is loose. -/
theorem Plan.orderly.loose {q : Plan} (h : q.orderly) {k : Nat} (h1 : (q.thread k).state ≠ .ready)
    (h2 : (q.thread k).state ≠ .running) : q.loose k :=
  ⟨fun p hk => h1 ((h.lists p).2 k hk).1, fun c hc hk => h2 (h.on c k hc hk).1⟩

/-- A `RUNNING` thread is loose but for the core on which it last ran. -/
theorem Plan.orderly.loose_of_running {q : Plan} (h : q.orderly) {k : Nat} (hs : (q.thread k).state = .running) :
    q.loose k (some (q.thread k).core) := by
  refine ⟨fun p hk => ?_, fun c hc hk => hc ?_⟩
  · have := ((h.lists p).2 k hk).1
    rw [hs] at this
    cases this
  · rw [(h.on c k (by simp) hk).2.1]

theorem Plan.orderly.mono {q : Plan} (h : q.orderly) (but : Option Nat) : q.orderly but :=
  ⟨h.threads, h.ready, h.cores, h.lists, fun c k _ => h.on c k (by simp)⟩

/-! ### Contexts -/

theorem State.plan_modThread_ne (s : State) {t k : Nat} (f : Thread → Thread) (h : k ≠ t) :
    (s.modThread t f).plan.thread k = s.plan.thread k := State.thread_modThread_ne s f h

theorem State.loose_modThread {s : State} {t k : Nat} {but : Option Nat} (f : Thread → Thread) :
    (s.modThread t f).plan.loose k but ↔ s.plan.loose k but := Iff.rfl

/-- A loose thread may take any context. -/
theorem Plan.orderly.modThread {s : State} {t : Nat} {but : Option Nat} (h : s.plan.orderly but) (hl : s.plan.loose t but)
    (f : Thread → Thread) : (s.modThread t f).plan.orderly but := by
  refine ⟨tsorted_tmod h.threads _ _ _, h.ready, h.cores, fun p => ⟨(h.lists p).1, fun k hk => ?_⟩, fun c k hc hk => ?_⟩
  · rw [State.plan_modThread_ne _ _ (by rintro rfl; exact hl.1 p hk)]
    exact (h.lists p).2 k hk
  · rw [State.plan_modThread_ne _ _ (by rintro rfl; exact hl.2 c hc hk)]
    exact h.on c k hc hk

/-- What a thread may change of its context wherever it is. -/
def Thread.stays (a b : Thread) : Prop := b.state = a.state ∧ b.prio = a.prio ∧ b.core = a.core ∧ b.met = a.met

theorem Plan.orderly.modThread_stays {s : State} {t : Nat} {but : Option Nat} (h : s.plan.orderly but) {f : Thread → Thread}
    (hf : Thread.stays (s.thread t) (f (s.thread t))) : (s.modThread t f).plan.orderly but := by
  obtain ⟨h1, h2, h3, h4⟩ := hf
  have stays (k : Nat) : Thread.stays (s.plan.thread k) ((s.modThread t f).plan.thread k) := by
    by_cases hk : k = t
    · subst hk
      rw [show (s.modThread k f).plan.thread k = f (s.thread k) from State.thread_modThread_self h.threads _ _]
      exact ⟨h1, h2, h3, h4⟩
    · rw [State.plan_modThread_ne _ _ hk]
      exact ⟨rfl, rfl, rfl, rfl⟩
  refine ⟨tsorted_tmod h.threads _ _ _, h.ready, h.cores, fun p => ⟨(h.lists p).1, fun k hk => ?_⟩, fun c k hc hk => ?_⟩
  · obtain ⟨e1, e2, -, -⟩ := stays k
    rw [e1, e2]
    exact (h.lists p).2 k hk
  · obtain ⟨e1, -, e3, e4⟩ := stays k
    rw [e1, e3, e4]
    exact h.on c k hc hk

/-! ### Ready lists -/

theorem State.plan_setReady_list {s : State} (h : tsorted s.dis.ready) (p x : Nat) (l : List Nat) :
    (s.setReady p l).plan.list x = if x = p then l else s.plan.list x := by
  split
  · subst x
    exact tget_tset_self h _ _ _
  · exact tget_tset_ne _ _ _ ‹_›

/-- A ready list may take any `READY` threads of its priority, once each. -/
theorem Plan.orderly.setReady {s : State} {but : Option Nat} (h : s.plan.orderly but) {p : Nat} {l : List Nat} (hn : l.Nodup)
    (hl : ∀ k ∈ l, (s.thread k).state = .ready ∧ (s.thread k).prio = p) : (s.setReady p l).plan.orderly but := by
  refine ⟨h.threads, tsorted_tset h.ready _ _ _, h.cores, fun x => ?_, h.on⟩
  rw [State.plan_setReady_list h.ready]
  split
  · subst x
    exact ⟨hn, hl⟩
  · exact h.lists x

/-- A loose `READY` thread joins its list at the head or at the tail. -/
theorem Plan.orderly.toHead {s : State} {t : Nat} (h : s.plan.orderly) (hl : s.plan.loose t) (hs : (s.thread t).state = .ready) :
    (State.toHead t s).plan.orderly := by
  obtain ⟨hn, hm⟩ := h.lists (s.thread t).prio
  refine h.setReady (List.nodup_cons.2 ⟨hl.1 _, hn⟩) fun k hk => ?_
  rcases List.mem_cons.1 hk with rfl | hk
  · exact ⟨hs, rfl⟩
  · exact hm k hk

theorem Plan.orderly.toTail {s : State} {t : Nat} (h : s.plan.orderly) (hl : s.plan.loose t) (hs : (s.thread t).state = .ready) :
    (State.toTail t s).plan.orderly := by
  obtain ⟨hn, hm⟩ := h.lists (s.thread t).prio
  refine h.setReady (by rw [← List.concat_eq_append]; exact hn.concat (hl.1 _)) fun k hk => ?_
  rcases List.mem_append.1 hk with hk | hk
  · exact hm k hk
  · rw [List.mem_singleton.1 hk]
    exact ⟨hs, rfl⟩

/-- A thread that leaves its list is loose, but for a core. -/
theorem Plan.orderly.unready {s : State} (h : s.plan.orderly but) (t : Nat) : (s.unready t).plan.orderly but := by
  obtain ⟨hn, hm⟩ := h.lists (s.thread t).prio
  exact h.setReady (hn.erase _) fun k hk => hm k (List.mem_of_mem_erase hk)

theorem Plan.orderly.loose_unready {s : State} (h : s.plan.orderly) {t : Nat} (hs : (s.thread t).state = .ready) :
    (s.unready t).plan.loose t := by
  refine ⟨fun p hk => ?_, fun c _ hk => ?_⟩
  · rw [State.unready, State.plan_setReady_list h.ready] at hk
    split at hk
    · exact List.Nodup.not_mem_erase (h.lists _).1 hk
    · exact absurd ((h.lists p).2 t hk).2.symm ‹_›
  · have := (h.on c t (by simp) hk).1
    rw [show s.plan.thread t = s.thread t from rfl, hs] at this
    cases this

/-! ### Cores -/

theorem State.dramStore_eq (s : State) (a : Nat) (b : List Byte) : s.dramStore a b = { s with mem := (s.dramStore a b).mem } :=
  (State.dramStore_traced s a b).1

/-- The scheduling trace does not reach the plan. -/
theorem State.traceChange_plan (s : State) (core : Nat) (why : TraceReason) (o i : Option Nat) :
    (s.traceChange core why o i).plan = s.plan := by
  unfold State.traceChange
  split
  · rfl
  · dsimp only
    split
    · rfl
    · rw [State.dramStore_eq]

/-- A core that is idle from now on. -/
def State.idleCore (s : State) (core : Nat) : State := { s with dis := { s.dis with cores := terase s.dis.cores core } }

theorem State.idleCore_running {s : State} (h : tsorted s.dis.cores) (core c : Nat) :
    (s.idleCore core).plan.running c = if c = core then none else s.plan.running c := by
  split
  · subst c
    exact tfind_terase_self h _
  · exact tfind_terase_ne _ ‹_›

theorem Plan.orderly.idleCore {s : State} {core : Nat} (h : s.plan.orderly (some core)) : (s.idleCore core).plan.orderly := by
  refine ⟨h.threads, h.ready, tsorted_terase h.cores _, h.lists, fun c k _ hk => ?_⟩
  rw [State.idleCore_running h.cores] at hk
  split at hk
  · cases hk
  · exact h.on c k (by simpa using ‹¬ c = core›) hk

theorem State.loose_idleCore {s : State} {core k : Nat} (h : tsorted s.dis.cores) (hk : s.plan.loose k (some core)) :
    (s.idleCore core).plan.loose k := by
  refine ⟨hk.1, fun c _ hc => ?_⟩
  rw [State.idleCore_running h] at hc
  split at hc
  · cases hc
  · exact hk.2 c (by simpa using ‹¬ c = core›) hc

/-- What a dispatched thread's context becomes. -/
theorem State.dispatchOn_thread {s : State} (h : tsorted s.dis.threads) (core t : Nat) :
    ((s.dispatchOn core t).thread t).state = .running ∧ ((s.dispatchOn core t).thread t).core = core ∧
    ((s.dispatchOn core t).thread t).met = none := by
  unfold State.dispatchOn
  rw [State.thread_modThread_self (by exact h)]
  dsimp only
  split
  · exact ⟨rfl, rfl, ‹_›⟩
  · exact ⟨rfl, rfl, rfl⟩

theorem State.dispatchOn_thread_ne (s : State) {core t k : Nat} (h : k ≠ t) : (s.dispatchOn core t).thread k = s.thread k :=
  State.thread_modThread_ne _ _ h

theorem State.dispatchOn_running (s : State) (core t c : Nat) :
    (s.dispatchOn core t).plan.running c = if c = core then some t else s.plan.running c := by
  unfold State.dispatchOn
  split
  · subst c
    exact tfind_tput_self _ _ _
  · exact tfind_tput_ne _ _ ‹_›

/-- A loose thread starts on the core that is about to change. -/
theorem Plan.orderly.dispatchOn {s : State} {core t : Nat} (h : s.plan.orderly (some core)) (hl : s.plan.loose t (some core)) :
    (s.dispatchOn core t).plan.orderly := by
  have other {k : Nat} (hk : k ≠ t) : (s.dispatchOn core t).plan.thread k = s.plan.thread k := State.dispatchOn_thread_ne s hk
  refine ⟨tsorted_tset h.threads _ _ _, h.ready, tsorted_tput h.cores _ _, fun p => ⟨(h.lists p).1, fun k hk => ?_⟩,
    fun c k _ hk => ?_⟩
  · rw [other (by rintro rfl; exact hl.1 p hk)]
    exact (h.lists p).2 k hk
  · rw [State.dispatchOn_running] at hk
    split at hk
    · cases hk
      subst c
      exact State.dispatchOn_thread h.threads core t
    · have hc : some c ≠ some core := by simpa using ‹¬ c = core›
      rw [other (by rintro rfl; exact hl.2 c hc hk)]
      exact h.on c k hc hk

/-- The next thread for a core waits in a ready list. -/
theorem State.nextFor_mem {s : State} {core t : Nat} (h : s.nextFor core = some t) : ∃ p, t ∈ s.readyList p := by
  obtain ⟨p, -, hp⟩ := List.exists_of_findSome?_eq_some h
  exact ⟨p, List.mem_of_find?_eq_some hp⟩

/-- The plan after a dispatch comes from the plan before it. -/
theorem State.dispatchOn_plan_congr {s u : State} (h : s.plan = u.plan) (core t : Nat) :
    (s.dispatchOn core t).plan = (u.dispatchOn core t).plan := by
  simp only [State.plan, Plan.mk.injEq] at h
  obtain ⟨h1, h2, h3, h4, h5⟩ := h
  simp only [State.plan, State.dispatchOn, State.modThread, h1, h2, h3, h4, h5]

/-- A core whose thread has left idles, or takes a thread from a ready list. -/
theorem State.refill_cases (s : State) (core : Nat) (why : TraceReason) (left : Nat) :
    (s.refill core why left).plan = (s.idleCore core).plan ∨ ∃ t p, t ∈ (s.idleCore core).readyList p ∧
      (s.refill core why left).plan = (((s.idleCore core).unready t).dispatchOn core t).plan := by
  rw [show s.refill core why left = if (s.idleCore core).dis.fault then (s.idleCore core).traceChange core why (some left) none
    else match (s.idleCore core).nextFor core with
      | none => (s.idleCore core).traceChange core why (some left) none
      | some t => (((s.idleCore core).unready t).traceChange core why (some left) (some t)).dispatchOn core t from rfl]
  split
  · exact .inl (State.traceChange_plan ..)
  · split
    · exact .inl (State.traceChange_plan ..)
    · next t ht =>
      obtain ⟨p, hp⟩ := State.nextFor_mem ht
      exact .inr ⟨t, p, hp, State.dispatchOn_plan_congr (State.traceChange_plan ..) ..⟩

theorem Plan.orderly.refill {s : State} {core : Nat} (h : s.plan.orderly (some core)) (why : TraceReason) (left : Nat) :
    (s.refill core why left).plan.orderly := by
  obtain e | ⟨t, p, ht, e⟩ := State.refill_cases s core why left <;> rw [e]
  · exact h.idleCore
  · have hs : ((s.idleCore core).thread t).state = .ready := ((h.idleCore.lists p).2 t ht).1
    exact ((h.idleCore.unready t).mono _).dispatchOn ((h.idleCore.loose_unready hs).mono _)

/-- Then a thread that was in no list and on no other core is loose, and its context stands. -/
theorem State.refill_loose {s : State} {core k : Nat} (h : s.plan.orderly (some core)) (hk : s.plan.loose k (some core))
    (why : TraceReason) (left : Nat) :
    (s.refill core why left).plan.loose k ∧ (s.refill core why left).plan.thread k = s.plan.thread k := by
  have hl := State.loose_idleCore h.cores hk
  obtain e | ⟨t, p, ht, e⟩ := State.refill_cases s core why left <;> rw [e]
  · exact ⟨hl, rfl⟩
  · have hne : k ≠ t := by
      rintro rfl
      exact hl.1 p ht
    refine ⟨⟨fun q hq => ?_, fun c _ hc => ?_⟩, State.dispatchOn_thread_ne _ hne⟩
    · change k ∈ ((s.idleCore core).setReady _ _).plan.list q at hq
      rw [State.plan_setReady_list h.idleCore.ready] at hq
      split at hq
      · exact hl.1 _ (List.mem_of_mem_erase hq)
      · exact hl.1 _ hq
    · rw [State.dispatchOn_running] at hc
      split at hc
      · exact hne (Option.some.inj hc).symm
      · exact hl.2 c (by simp) hc

/-! ### Placement (R435) -/

/-- What becomes of the threads when thread `t` is placed: the plan stays in order, and who waits goes on waiting. -/
def Plan.placed (q u : Plan) (t : Nat) : Prop :=
  u.orderly ∧ ∀ k, k ≠ t → (q.thread k).state = .waiting → u.thread k = q.thread k

/-- `waits` puts a loose `READY` thread where it waits. -/
def Plan.parks (t : Nat) (waits : State → State) : Prop :=
  ∀ s : State, s.plan.orderly → s.plan.loose t → (s.thread t).state = .ready → Plan.placed s.plan (waits s).plan t

theorem Plan.parks_toHead (t : Nat) : Plan.parks t (State.toHead t) := fun _ h hl hs => ⟨h.toHead hl hs, fun _ _ _ => rfl⟩

theorem Plan.parks_toTail (t : Nat) : Plan.parks t (State.toTail t) := fun _ h hl hs => ⟨h.toTail hl hs, fun _ _ _ => rfl⟩

/-- The thread on a core that another takes is loose, and `READY` as it was made. -/
theorem Plan.orderly.displace {s : State} (h : s.plan.orderly) {c r t : Nat} (hr : s.running c = some r) (hl : s.plan.loose t)
    {f : Thread → Thread} {u : State} (hu : u.plan = (s.modThread r f).plan) :
    (u.dispatchOn c t).plan.orderly ∧ (u.dispatchOn c t).plan.loose r ∧ (u.dispatchOn c t).plan.thread r = f (s.thread r) ∧
    ∀ k, k ≠ t → k ≠ r → (u.dispatchOn c t).plan.thread k = s.plan.thread k := by
  obtain ⟨hs, hc, -⟩ := h.on c r (by simp) hr
  have hne : r ≠ t := by
    rintro rfl
    exact hl.2 c (by simp) hr
  have hlr : s.plan.loose r (some c) := hc ▸ h.loose_of_running hs
  rw [State.dispatchOn_plan_congr hu]
  refine ⟨((h.mono _).modThread hlr f).dispatchOn (hl.mono _), ⟨hlr.1, fun c' _ hc' => ?_⟩, ?_, fun k h1 h2 => ?_⟩
  · rw [State.dispatchOn_running] at hc'
    split at hc'
    · exact hne (Option.some.inj hc').symm
    · exact hlr.2 c' (by simpa using ‹¬ c' = c›) hc'
  · rw [show (State.dispatchOn _ c t).plan.thread r = _ from State.dispatchOn_thread_ne _ hne]
    exact State.thread_modThread_self h.threads _ _
  · rw [show (State.dispatchOn _ c t).plan.thread k = _ from State.dispatchOn_thread_ne _ h1]
    exact State.thread_modThread_ne _ _ h2

theorem Plan.orderly.placeAux (fuel : Nat) {s : State} {t : Nat} {waits : State → State} (h : s.plan.orderly) (hl : s.plan.loose t)
    (hs : (s.thread t).state = .ready) (hw : Plan.parks t waits) :
    Plan.placed s.plan (State.placeAux fuel s t waits).plan t := by
  induction fuel generalizing s t waits with
  | zero => exact hw s h hl hs
  | succ fuel ih =>
    unfold State.placeAux
    split
    · next c hc =>
      rw [State.dispatchOn_plan_congr (State.traceChange_plan ..)]
      exact ⟨(h.mono _).dispatchOn (hl.mono _), fun k hk _ => State.dispatchOn_thread_ne _ hk⟩
    · split
      · exact hw s h hl hs
      · next c _ =>
        split
        · exact hw s h hl hs
        · next r hr =>
          obtain ⟨ho, hlr, hr', hk⟩ := h.displace hr hl (State.traceChange_plan
            (s.modThread r fun th => { th with state := .ready, wakeSrc := 0x3FFFFF }) c .preempt (some r) (some t))
          obtain ⟨p1, p2⟩ := ih ho hlr (by rw [show State.thread _ r = _ from hr']) (Plan.parks_toHead r)
          refine ⟨p1, fun k hkt hks => ?_⟩
          have hkr : k ≠ r := by
            rintro rfl
            have := (h.on c k (by simp) hr).1
            rw [hks] at this
            cases this
          rw [p2 k hkr (by rw [hk k hkt hkr]; exact hks), hk k hkt hkr]

/-- A loose thread that becomes `READY` is placed. -/
theorem Plan.orderly.placeBy {s : State} {t : Nat} {waits : State → State} (h : s.plan.orderly) (hl : s.plan.loose t)
    (hw : Plan.parks t waits) : Plan.placed s.plan (s.placeBy t waits).plan t := by
  have ho := h.modThread hl fun th => { th with state := .ready }
  have hs : ((s.modThread t fun th => { th with state := .ready }).thread t).state = .ready := by
    rw [State.thread_modThread_self h.threads]
  have hp : Plan.placed (s.modThread t fun th => { th with state := .ready }).plan (s.placeBy t waits).plan t := by
    unfold State.placeBy
    dsimp only
    split
    · exact hw _ ho hl hs
    · exact ho.placeAux 33 hl hs hw
  refine ⟨hp.1, fun k hk hks => ?_⟩
  have e := State.plan_modThread_ne s (fun th => { th with state := .ready }) hk
  rw [hp.2 k hk (by rw [e]; exact hks), e]

theorem Plan.orderly.place {s : State} {t : Nat} (h : s.plan.orderly) (hl : s.plan.loose t) :
    Plan.placed s.plan (s.place t).plan t :=
  h.placeBy hl (Plan.parks_toTail t)

/-! ### Posts and events (R431, R437 to R443) -/

theorem insertBy_perm {α : Type} (key : α → Nat) (a : α) (l : List α) : (insertBy key a l).Perm (a :: l) := by
  induction l with
  | nil => rfl
  | cons b r ih =>
    unfold insertBy
    split
    · rfl
    · exact (ih.cons b).trans (.swap a b r)

/-- Sorting lists the same elements. -/
theorem sortBy_perm {α : Type} (key : α → Nat) (l : List α) : (sortBy key l).Perm l := by
  suffices h : ∀ acc : List α, (l.foldl (fun acc a => insertBy key a acc) acc).Perm (l ++ acc) by
    simpa [sortBy] using h []
  induction l with
  | nil => exact fun acc => .refl _
  | cons a l ih => exact fun acc => (ih _).trans (((insertBy_perm key a acc).append_left l).trans List.perm_middle)

/-- Threads whose waits have been met and that are still to be placed, once each. -/
def Plan.woken (q : Plan) (l : List Nat) : Prop :=
  l.Nodup ∧ ∀ k ∈ l, (q.thread k).state = .waiting ∧ (q.thread k).met.isSome = true

/-- A flag set in a thread keeps the plan in order, and the thread that it wakes is a new one. -/
theorem Plan.orderly.setFlag {s : State} (h : s.plan.orderly) {l : List Nat} (hw : s.plan.woken l) (t flag src : Nat) :
    (s.setFlag t flag src).1.plan.orderly ∧ (s.setFlag t flag src).1.plan.woken (l ++ (s.setFlag t flag src).2.toList) := by
  unfold State.setFlag
  extract_lets u th
  have hth : th = { s.thread t with flags := (s.thread t).flags ||| (1 <<< flag) } := State.thread_modThread_self h.threads _ _
  have hu : u.plan.orderly := h.modThread_stays ⟨rfl, rfl, rfl, rfl⟩
  have hwu : u.plan.woken l := by
    refine ⟨hw.1, fun k hk => ?_⟩
    by_cases e : k = t
    · subst e
      have := hw.2 k hk
      rw [show u.plan.thread k = th from rfl, hth]
      exact this
    · rw [State.plan_modThread_ne _ _ e]
      exact hw.2 k hk
  split
  · next hc =>
    simp only [Bool.and_eq_true, decide_eq_true_eq] at hc
    obtain ⟨⟨hs, hm⟩, -⟩ := hc
    have hst : (u.plan.thread t).state = .waiting := hs
    have ht : t ∉ l := fun hk => by
      have hm' : (u.plan.thread t).met.isNone = true := hm
      have := (hwu.2 t hk).2
      simp_all
    have hl : u.plan.loose t := hu.loose (by rw [hst]; decide) (by rw [hst]; decide)
    refine ⟨hu.modThread hl _, ?_, fun k hk => ?_⟩
    · rw [Option.toList_some, ← List.concat_eq_append]
      exact hwu.1.concat ht
    · rcases List.mem_append.1 hk with hkl | hk
      · rw [State.plan_modThread_ne _ _ (by rintro rfl; exact ht hkl)]
        exact hwu.2 k hkl
      · have e : k = t := by simpa using hk
        subst e
        rw [show (State.modThread u k _).plan.thread k = _ from State.thread_modThread_self hu.threads _ _]
        exact ⟨hst, rfl⟩
  · exact ⟨hu, by simpa using hwu⟩

/-- Waiting threads, once each, are placed one by one. -/
theorem Plan.orderly.placeList {l : List Nat} {s : State} (h : s.plan.orderly) (hn : l.Nodup)
    (hl : ∀ k ∈ l, (s.plan.thread k).state = .waiting) : (l.foldl State.place s).plan.orderly := by
  induction l generalizing s with
  | nil => exact h
  | cons t l ih =>
    obtain ⟨ht, hn⟩ := List.nodup_cons.1 hn
    have hs := hl t List.mem_cons_self
    obtain ⟨hp, hk⟩ := h.place (h.loose (k := t) (by rw [hs]; decide) (by rw [hs]; decide))
    refine ih hp hn fun k hkl => ?_
    rw [hk k (by rintro rfl; exact ht hkl) (hl k (List.mem_cons_of_mem _ hkl))]
    exact hl k (List.mem_cons_of_mem _ hkl)

theorem Plan.orderly.placeAll {l : List Nat} {s : State} (h : s.plan.orderly) (hw : s.plan.woken l) :
    (s.placeAll l).plan.orderly :=
  have hp := sortBy_perm (fun t => (s.thread t).prio * 512 + t) l
  h.placeList (hp.nodup_iff.2 hw.1) fun k hk => (hw.2 k (hp.mem_iff.1 hk)).1

/-- Posts keep the plan in order. -/
theorem Plan.orderly.post {s : State} (h : s.plan.orderly) (posts : List (Nat × Nat)) (src : Nat) :
    (s.post posts src).1.plan.orderly := by
  suffices key : ∀ (posts : List (Nat × Nat)) (acc : State × List Nat × List Nat), acc.1.plan.orderly → acc.1.plan.woken acc.2.1 →
      let r := posts.foldl (fun (acc : State × List Nat × List Nat) p =>
        let (s, woken, lost) := acc
        if (s.thread p.1).state = .free then
          ({ s with dis := { s.dis with lostPosts := s.dis.lostPosts + 1 } }, woken, lost ++ [p.1])
        else
          let (s', w) := s.setFlag p.1 p.2 src
          (s', woken ++ w.toList, lost)) acc
      r.1.plan.orderly ∧ r.1.plan.woken r.2.1 by
    obtain ⟨h1, h2⟩ := key posts (s, [], []) h ⟨.nil, by simp⟩
    exact h1.placeAll h2
  intro posts
  induction posts with
  | nil => exact fun acc h1 h2 => ⟨h1, h2⟩
  | cons p posts ih =>
    rintro ⟨s, woken, lost⟩ h1 h2
    refine ih _ ?_ ?_ <;> dsimp only <;> split
    · exact h1
    · exact (h1.setFlag h2 p.1 p.2 src).1
    · exact h2
    · exact (h1.setFlag h2 p.1 p.2 src).2

/-! ### What keeps the schedule

Almost every operation reaches the plan through events alone, or not at all. Each operation of the model has one lemma that says so, in the
order of the model: from `h`, what was kept so far, `h.op` is what is kept after `op`, so that the proof of a chain of operations is the
chain of their lemmas. -/

/-- The device is out of reset and past its ROM, so that threads may be placed. -/
def Plan.awake (q : Plan) : Prop := q.held = false ∧ q.state ≠ .boot ∧ q.state ≠ .recovery

/-- The plan is in order, a device in reset runs no firmware, and a plan that is not awake has no thread in a list or on a core. -/
structure Plan.settled (q : Plan) : Prop where
  order : q.orderly
  held : q.held = true → q.state ≠ .waitHost ∧ q.state ≠ .run
  asleep : ¬ q.awake → q.ready = [] ∧ q.cores = []

/-- No firmware runs on a device that is not awake. -/
theorem Plan.settled.halted {q : Plan} (h : q.settled) (hn : ¬ q.awake) : q.state ≠ .waitHost ∧ q.state ≠ .run := by
  by_cases hi : q.held = true
  · exact h.held hi
  · have hi : q.held = false := by simpa using hi
    exact ⟨fun hw => hn ⟨hi, by simp [hw], by simp [hw]⟩, fun hw => hn ⟨hi, by simp [hw], by simp [hw]⟩⟩

/-- From plan `q` to plan `u` what the invariant needs was kept. -/
structure Plan.leads (q u : Plan) : Prop where
  held : u.held = q.held
  awake : u.awake ↔ q.awake
  order : q.orderly → u.orderly
  settled : q.settled → u.settled

/-- What happened from `r` to `s` kept the schedule. -/
def State.keepsSchedule (r s : State) : Prop := Plan.leads r.plan s.plan

theorem State.keepsSchedule_refl (s : State) : s.keepsSchedule s := ⟨rfl, .rfl, fun h => h, fun h => h⟩

/-- A change that leaves the power state, and the lists and cores of a device whose firmware does not run, keeps the schedule. -/
theorem State.keepsSchedule_of_order {s t : State} (hs : t.pwr.state = s.pwr.state) (hr : t.pwr.inReset = s.pwr.inReset)
    (ho : s.plan.orderly → t.plan.orderly)
    (hh : s.pwr.state ≠ .waitHost → s.pwr.state ≠ .run → t.dis.ready = s.dis.ready ∧ t.dis.cores = s.dis.cores) :
    s.keepsSchedule t := by
  have ha : t.plan.awake ↔ s.plan.awake := by simp only [Plan.awake, hs, hr]
  refine ⟨hr, ha, ho, fun h => ⟨ho h.order, ?_, fun hn => ?_⟩⟩
  · simp only [hs, hr]
    exact h.held
  · have hn' : ¬ s.plan.awake := mt ha.2 hn
    obtain ⟨h1, h2⟩ := h.halted hn'
    obtain ⟨e1, e2⟩ := hh h1 h2
    rw [show t.plan.ready = s.plan.ready from e1, show t.plan.cores = s.plan.cores from e2]
    exact h.asleep hn'

section
variable {r s t : State}

theorem State.keepsSchedule.trans (h : r.keepsSchedule s) (k : s.keepsSchedule t) : r.keepsSchedule t :=
  ⟨k.held.trans h.held, k.awake.trans h.awake, fun o => k.order (h.order o), fun a => k.settled (h.settled a)⟩

/-- Other parts of the state change. -/
theorem State.keepsSchedule.elsewhere {id clk cfg undo direct hst tb cal stp mem key boot nvm crn fab hop
    fld sec gns mir fix car timers free out pending} (h : r.keepsSchedule s) : r.keepsSchedule { s with
      id := id, clk := clk, cfg := cfg, undo := undo, direct := direct, hst := hst, tb := tb, cal := cal, stp := stp, mem := mem
      key := key, boot := boot, nvm := nvm, crn := crn, fab := fab, hop := hop, fld := fld, sec := sec, gns := gns, mir := mir
      fix := fix, car := car, timers := timers, free := free, out := out, pending := pending } := h

/-- So may what the Dispatcher holds beside threads, lists and cores. -/
theorem State.keepsSchedule.inDis {id clk cfg undo direct hst tb cal stp mem key boot nvm crn fab hop
    fld sec gns mir fix car timers free out pending mtvec dsel dcinv dcache icache resv pmpcfg pmpaddr lostPosts fault traceWr
    traceDrops traceOvf traceEv wdogs} (h : r.keepsSchedule s) : r.keepsSchedule { s with
      id := id, clk := clk, cfg := cfg, undo := undo, direct := direct, hst := hst, tb := tb, cal := cal, stp := stp, mem := mem
      key := key, boot := boot, nvm := nvm, crn := crn, fab := fab, hop := hop, fld := fld, sec := sec, gns := gns, mir := mir
      fix := fix, car := car, timers := timers, free := free, out := out, pending := pending
      dis := { s.dis with
        mtvec := mtvec, dsel := dsel, dcinv := dcinv, dcache := dcache, icache := icache, resv := resv, pmpcfg := pmpcfg
        pmpaddr := pmpaddr, lostPosts := lostPosts, fault := fault, traceWr := traceWr, traceDrops := traceDrops
        traceOvf := traceOvf, traceEv := traceEv, wdogs := wdogs } } := h

/-- So may what the power unit holds beside its state and whether the device is in reset. -/
theorem State.keepsSchedule.inPwr {id clk cfg undo direct hst tb cal stp mem key boot nvm crn fab hop
    fld sec gns mir fix car timers free out pending fatal causes resetCause recoveryPin good goodAt pfail pfailAt pfailUntil nvStopped
    onVbat stage stageMax slow slowSince tj tjMax hot} (h : r.keepsSchedule s) : r.keepsSchedule { s with
      id := id, clk := clk, cfg := cfg, undo := undo, direct := direct, hst := hst, tb := tb, cal := cal, stp := stp, mem := mem
      key := key, boot := boot, nvm := nvm, crn := crn, fab := fab, hop := hop, fld := fld, sec := sec, gns := gns, mir := mir
      fix := fix, car := car, timers := timers, free := free, out := out, pending := pending
      pwr := { s.pwr with
        fatal := fatal, causes := causes, resetCause := resetCause, recoveryPin := recoveryPin, good := good, goodAt := goodAt
        pfail := pfail, pfailAt := pfailAt, pfailUntil := pfailUntil, nvStopped := nvStopped, onVbat := onVbat, stage := stage
        stageMax := stageMax, slow := slow, slowSince := slowSince, tj := tj, tjMax := tjMax, hot := hot } } := h

theorem State.place_pwr (s : State) (k : Nat) : (s.place k).pwr = s.pwr := State.eventsOnly_pwr (State.place_quiet s k).1

theorem State.placeBy_pwr (s : State) (k : Nat) {waits : State → State} (hw : ∀ s, State.quiet s (waits s)) :
    (s.placeBy k waits).pwr = s.pwr := State.eventsOnly_pwr (State.placeBy_quiet s k waits hw).1

theorem State.refill_pwr (s : State) (core : Nat) (why : TraceReason) (left : Nat) : (s.refill core why left).pwr = s.pwr :=
  State.eventsOnly_pwr (State.refill_quiet s core why left).1

/-- On a device past its ROM a change that leaves the power unit need only keep the plan in order. -/
theorem State.keepsSchedule.of_awake (h : r.keepsSchedule s) (ha : r.plan.awake) (hp : t.pwr = s.pwr)
    (ho : s.plan.orderly → t.plan.orderly) : r.keepsSchedule t := by
  have ht : t.plan.awake ↔ s.plan.awake := by simp only [Plan.awake, hp]
  refine h.trans ⟨congrArg Pwr.inReset hp, ht, ho, fun hs => ⟨ho hs.order, ?_, fun hn => absurd (ht.2 (h.awake.2 ha)) hn⟩⟩
  simp only [hp]
  exact hs.held

/-- What a thread may change wherever it is. -/
theorem State.keepsSchedule.modThread_stays {k : Nat} {f : Thread → Thread} (h : r.keepsSchedule s)
    (hf : Thread.stays (s.thread k) (f (s.thread k))) : r.keepsSchedule (s.modThread k f) :=
  h.trans (State.keepsSchedule_of_order rfl rfl (fun o => o.modThread_stays hf) fun _ _ => ⟨rfl, rfl⟩)

theorem State.keepsSchedule.ite {c : Prop} {_ : Decidable c} (h : r.keepsSchedule s) (k : r.keepsSchedule t) :
    r.keepsSchedule (if c then s else t) := by
  split
  · exact h
  · exact k

/-- The same for an answer beside the state. -/
theorem State.keepsSchedule.ite_fst {α : Type} {c : Prop} {_ : Decidable c} {x y : State × α} (h : r.keepsSchedule x.1)
    (k : r.keepsSchedule y.1) : r.keepsSchedule (if c then x else y).1 := by
  split
  · exact h
  · exact k

/-- The state that a match takes out of an answer. -/
theorem State.keepsSchedule.of_eq {α : Type} {x : State × α} {a : α} (h : r.keepsSchedule x.1) (e : x = (t, a)) :
    r.keepsSchedule t := by
  subst e
  exact h

theorem State.keepsSchedule.foldl {α : Type} {f : State → α → State} {l : List α} (h : r.keepsSchedule s)
    (hf : ∀ {t : State} {a : α}, r.keepsSchedule t → r.keepsSchedule (f t a)) : r.keepsSchedule (l.foldl f s) := by
  induction l generalizing s with
  | nil => exact h
  | cons a l ih => exact ih (hf h)

/-- The same for a fold that gathers something beside the state. -/
theorem State.keepsSchedule.foldl_fst {α β : Type} {f : State × β → α → State × β} {x : State × β} {l : List α}
    (h : r.keepsSchedule x.1) (hf : ∀ {x : State × β} {a : α}, r.keepsSchedule x.1 → r.keepsSchedule (f x a).1) :
    r.keepsSchedule (l.foldl f x).1 := by
  induction l generalizing x with
  | nil => exact h
  | cons a l ih => exact ih (hf h)

theorem State.keepsSchedule.foldl_pair {α β : Type} {f : State × β → α → State × β} {b : β} {l : List α}
    (h : r.keepsSchedule s) (hf : ∀ {x : State × β} {a : α}, r.keepsSchedule x.1 → r.keepsSchedule (f x a).1) :
    r.keepsSchedule (l.foldl f (s, b)).1 := State.keepsSchedule.foldl_fst (x := (s, b)) h hf

/-- What is done under a condition. -/
theorem State.keepsSchedule.onlyIf {c : Prop} {_ : Decidable c} (h : r.keepsSchedule s) (k : r.keepsSchedule s → r.keepsSchedule t) :
    r.keepsSchedule (if c then t else s) := (k h).ite h

theorem State.keepsSchedule.onlyElse {c : Prop} {_ : Decidable c} (h : r.keepsSchedule s) (k : r.keepsSchedule s → r.keepsSchedule t) :
    r.keepsSchedule (if c then s else t) := h.ite (k h)

/-! ### Events -/

theorem State.keepsSchedule.recordEvent {src : Nat} {sev : Option Nat} {arg : List Byte} (h : r.keepsSchedule s) :
    r.keepsSchedule (s.recordEvent src sev arg) := by
  unfold State.recordEvent
  split
  · exact h
  · dsimp only
    split
    · exact h
    · exact h.elsewhere
    · exact h.elsewhere

/-- With the cores halted no route posts. -/
theorem State.routePosts_of_halted (h1 : s.pwr.state ≠ .waitHost) (h2 : s.pwr.state ≠ .run) (src : Nat) :
    s.routePosts src = [] := by
  simp [State.routePosts, State.routesOn, h1, h2]

theorem State.keepsSchedule.raiseOnce {e : Ev} {i : Nat} {a : List Byte} (h : r.keepsSchedule s) :
    r.keepsSchedule (s.raiseOnce e i a).1 := by
  refine State.keepsSchedule.recordEvent (h.trans ?_)
  have hp : (s.post (s.routePosts (sourceCode e i)) (sourceCode e i)).1.pwr = s.pwr :=
    State.eventsOnly_pwr (State.post_quiet s _ _).1
  refine State.keepsSchedule_of_order (congrArg Pwr.state hp) (congrArg Pwr.inReset hp) (fun o => o.post _ _) fun h1 h2 => ?_
  rw [State.routePosts_of_halted h1 h2]
  exact ⟨rfl, rfl⟩

theorem State.keepsSchedule.lostPosts {l : List Nat} (h : r.keepsSchedule s) : r.keepsSchedule (s.lostPosts l) :=
  h.foldl fun h => h.raiseOnce

theorem State.keepsSchedule.noteTrace {n : Nat} (h : r.keepsSchedule s) : r.keepsSchedule (s.noteTrace n) := by
  induction n generalizing s with
  | zero => exact h
  | succ n ih =>
    unfold State.noteTrace
    split
    · exact ih (State.keepsSchedule.lostPosts (State.keepsSchedule.raiseOnce h.inDis))
    · split
      · exact ih (State.keepsSchedule.lostPosts (State.keepsSchedule.raiseOnce h.inDis))
      · exact h

theorem State.keepsSchedule.raise {e : Ev} {i : Nat} {a : List Byte} (h : r.keepsSchedule s) : r.keepsSchedule (s.raise e i a) := by
  unfold State.raise
  split
  · exact h
  · exact h.raiseOnce.lostPosts.noteTrace

end

end Sys2Proof.Machine

namespace Sys2Proof.Machine

/-! ### The model's operations, part by part -/

section
open State.keepsSchedule
variable {r s t : State}

/-! #### Ops -/

theorem State.keepsSchedule.elapse {dt : Nat} (h : r.keepsSchedule s) : r.keepsSchedule (s.elapse dt) := h.elsewhere

theorem State.keepsSchedule.mark {k : Nat} (h : r.keepsSchedule s) : r.keepsSchedule (s.mark k) := h.elsewhere

theorem State.keepsSchedule.emit {o : Out} (h : r.keepsSchedule s) : r.keepsSchedule (s.emit o) := h.elsewhere

theorem State.keepsSchedule.draw (h : r.keepsSchedule s) : r.keepsSchedule s.draw := h.elsewhere

theorem State.keepsSchedule.setReg {f : Sel} {i v : Nat} (h : r.keepsSchedule s) : r.keepsSchedule (s.setReg f i v) := h.elsewhere

theorem State.keepsSchedule.latchPair {lo hi : Sel} {i : Nat} (h : r.keepsSchedule s) : r.keepsSchedule (s.latchPair lo hi i) :=
  h.elsewhere

theorem State.keepsSchedule.modPtp {p : Nat} {f : PtpPort → PtpPort} (h : r.keepsSchedule s) : r.keepsSchedule (s.modPtp p f) :=
  h.elsewhere

theorem State.keepsSchedule.forgetNeighbour {p : Nat} (h : r.keepsSchedule s) : r.keepsSchedule (s.forgetNeighbour p) := h.modPtp

theorem State.keepsSchedule.countClamps {n : Nat} {off : Option Nat} (h : r.keepsSchedule s) : r.keepsSchedule (s.countClamps n off) :=
  h.ite h.elsewhere

theorem State.keepsSchedule.writeStaged {x : RegDef} {off v : Nat} (h : r.keepsSchedule s) : r.keepsSchedule (s.writeStaged x off v) :=
  countClamps h.elsewhere

theorem State.keepsSchedule.writeDirect {x : RegDef} {off v : Nat} (h : r.keepsSchedule s) : r.keepsSchedule (s.writeDirect x off v) :=
  countClamps h.elsewhere

/-! #### Sched -/

theorem State.keepsSchedule.dramErrors {l : List Nat} (h : r.keepsSchedule s) : r.keepsSchedule (s.dramErrors l) := by
  unfold State.dramErrors
  split
  · exact h
  · exact h.elsewhere

theorem State.keepsSchedule.dramPut {a : Nat} {b : List Byte} (h : r.keepsSchedule s) : r.keepsSchedule (s.dramPut a b) :=
  dramErrors h.elsewhere

theorem State.keepsSchedule.dramStore {a : Nat} {b : List Byte} (h : r.keepsSchedule s) : r.keepsSchedule (s.dramStore a b) :=
  h.dramErrors.ite (h.dramPut.ite h.elsewhere)

/-! #### Events -/

theorem State.keepsSchedule.noteTraceDrop (h : r.keepsSchedule s) : r.keepsSchedule s.noteTraceDrop := h.noteTrace

/-! #### Ring -/

theorem State.keepsSchedule.modRing {n : Nat} {f : Ring → Ring} (h : r.keepsSchedule s) : r.keepsSchedule (s.modRing n f) := h.elsewhere

theorem State.keepsSchedule.signal {v : Nat} (h : r.keepsSchedule s) : r.keepsSchedule (s.signal v) := ite h.elsewhere h.emit

theorem State.keepsSchedule.signalErr (h : r.keepsSchedule s) : r.keepsSchedule s.signalErr := h.signal

theorem State.keepsSchedule.shadow {n : Nat} (h : r.keepsSchedule s) : r.keepsSchedule (s.shadow n) := h.emit

theorem State.keepsSchedule.setRing {n : Nat} {st : RingState} (h : r.keepsSchedule s) : r.keepsSchedule (s.setRing n st) :=
  h.modRing.shadow

theorem State.keepsSchedule.modDesc {serial : Nat} {f : Desc → Desc} (h : r.keepsSchedule s) : r.keepsSchedule (s.modDesc serial f) :=
  h.elsewhere

theorem State.keepsSchedule.dropDesc {serial : Nat} (h : r.keepsSchedule s) : r.keepsSchedule (s.dropDesc serial) := h.elsewhere

theorem State.keepsSchedule.moderate {n : Nat} {irq : Bool} (h : r.keepsSchedule s) : r.keepsSchedule (s.moderate n irq) :=
  h.modRing.signal.ite h.modRing

theorem State.keepsSchedule.writeCompletion {d : Desc} {status detail : Nat} {result : List Byte} (h : r.keepsSchedule s) :
    r.keepsSchedule (s.writeCompletion d status detail result) :=
  onlyIf (onlyIf h.emit.modRing.shadow.moderate (fun k => k.signalErr.raise)) (fun k => k.raise)

theorem State.keepsSchedule.leave {d : Desc} (h : r.keepsSchedule s) : r.keepsSchedule (s.leave d) := h.dropDesc.raise.ite h.dropDesc

theorem State.keepsSchedule.complete1 {d : Desc} {status detail : Nat} {result : List Byte} (h : r.keepsSchedule s) :
    r.keepsSchedule (s.complete1 d status detail result) := h.leave.ite h.leave.writeCompletion

theorem State.keepsSchedule.flushVerdict {ring : Nat} (h : r.keepsSchedule s) : r.keepsSchedule (s.flushVerdict ring) := by
  unfold State.flushVerdict
  split
  · split
    · exact h.complete1.ite h
    · exact h
  · exact h

theorem State.keepsSchedule.complete {d : Desc} {status : Nat} {result : List Byte} {detail : Nat} (h : r.keepsSchedule s) :
    r.keepsSchedule (s.complete d status result detail) := h.complete1.flushVerdict.ite h.complete1

theorem State.keepsSchedule.wait {d : Desc} (h : r.keepsSchedule s) : r.keepsSchedule (s.wait d) := h.modDesc.ite h.elsewhere

/-- A descriptor command, by its effect. -/
theorem State.keepsSchedule.withDesc {ring index op : Nat} {variant : Desc → Bool} {f : State → Desc → State} (h : r.keepsSchedule s)
    (hf : ∀ {s : State} {d : Desc}, r.keepsSchedule s → r.keepsSchedule (f s d)) : r.keepsSchedule (s.withDesc ring index op variant f) := by
  unfold State.withDesc
  split
  · exact (hf h).ite h
  · exact h

theorem State.keepsSchedule.writePayload {d : Desc} {o : Nat} {b : List Byte} (h : r.keepsSchedule s) :
    r.keepsSchedule (s.writePayload d o b) :=
  h.ite h.emit

/-! #### Keys -/

theorem State.keepsSchedule.updateSlot {i : Nat} {f : KeyCopy → KeyCopy} (h : r.keepsSchedule s) : r.keepsSchedule (s.updateSlot i f) :=
  h.elsewhere

theorem State.keepsSchedule.tearSlot {i : Nat} {f : KeyCopy → KeyCopy} (h : r.keepsSchedule s) : r.keepsSchedule (s.tearSlot i f) :=
  h.elsewhere

theorem State.keepsSchedule.cachePut {i : Nat} {mat : List Byte} (h : r.keepsSchedule s) : r.keepsSchedule (s.cachePut i mat) := by
  unfold State.cachePut
  split
  · exact h.elsewhere
  · exact draw h.elsewhere

theorem State.keepsSchedule.cacheUse {name : Nat} (h : r.keepsSchedule s) : r.keepsSchedule (s.cacheUse name) := by
  unfold State.cacheUse
  refine h.ite ?_
  split
  · exact h.cachePut
  · exact h

theorem State.keepsSchedule.orphanUse {i : Nat} (h : r.keepsSchedule s) : r.keepsSchedule (s.orphanUse i) :=
  ite h.elsewhere (raise (elsewhere h.elsewhere))

theorem State.keepsSchedule.purge {i : Nat} (h : r.keepsSchedule s) : r.keepsSchedule (s.purge i) := h.elsewhere

theorem State.keepsSchedule.destroyKeys (h : r.keepsSchedule s) : r.keepsSchedule s.destroyKeys := h.elsewhere

theorem State.keepsSchedule.abortJobs {status : Nat} (h : r.keepsSchedule s) : r.keepsSchedule (s.abortJobs status) := by
  unfold State.abortJobs
  refine foldl h.elsewhere (fun h => ?_)
  split
  · exact h.complete
  · exact h

theorem State.keepsSchedule.deriveRoots (h : r.keepsSchedule s) : r.keepsSchedule s.deriveRoots := by
  unfold State.deriveRoots
  split
  · exact h
  · exact h.elsewhere

theorem State.keepsSchedule.newEpoch (h : r.keepsSchedule s) : r.keepsSchedule s.newEpoch := draw (draw h.elsewhere)

/-! #### Nv -/

theorem State.keepsSchedule.makeReadOnly {region : Nat} (h : r.keepsSchedule s) : r.keepsSchedule (s.makeReadOnly region) :=
  ite (raise (elsewhere (raise h.elsewhere))) (raise h.elsewhere)

theorem State.keepsSchedule.wornOut {region b : Nat} (h : r.keepsSchedule s) : r.keepsSchedule (s.wornOut region b) :=
  ite h.elsewhere h.makeReadOnly

theorem State.keepsSchedule.countWrite {home n : Nat} (h : r.keepsSchedule s) : r.keepsSchedule (s.countWrite home n) := h.elsewhere

theorem State.keepsSchedule.takeSpare {region n : Nat} (h : r.keepsSchedule s) (e : s.takeSpare region = some (t, n)) :
    r.keepsSchedule t := by
  unfold State.takeSpare at e
  dsimp only at e
  split_ifs at e <;> cases e <;> exact h.elsewhere

theorem State.keepsSchedule.writeRemap {b spare : Nat} (h : r.keepsSchedule s) : r.keepsSchedule (s.writeRemap b spare).1 := by
  unfold State.writeRemap
  dsimp only
  split
  · exact elsewhere (countWrite h)
  · split
    · next e => exact raise (elsewhere (h.takeSpare e).countWrite)
    · exact h.makeReadOnly

theorem State.keepsSchedule.nvWrite {region block : Nat} {run : NvRun} (h : r.keepsSchedule s) :
    r.keepsSchedule (s.nvWrite region block run).1 := by
  unfold State.nvWrite
  dsimp only
  split
  · exact h.countWrite
  · split
    · exact h.wornOut
    · next e =>
      split
      · exact elsewhere h.countWrite
      · split
        · exact h.writeRemap.wornOut
        · next e' => exact ((h.takeSpare e).writeRemap.of_eq e').countWrite.raise

theorem State.keepsSchedule.critDrop (h : r.keepsSchedule s) : r.keepsSchedule s.critDrop :=
  ite h.elsewhere (raise (elsewhere h.elsewhere))

theorem State.keepsSchedule.dropRecord {sev : Nat} (h : r.keepsSchedule s) : r.keepsSchedule (s.dropRecord sev) :=
  h.critDrop.ite h.elsewhere

theorem State.keepsSchedule.bufferRecord {x : Record} (h : r.keepsSchedule s) : r.keepsSchedule (s.bufferRecord x) := by
  unfold State.bufferRecord
  split
  · exact h.dropRecord
  · exact h.elsewhere

theorem State.keepsSchedule.putRecord {i : Nat} {x : Record} (h : r.keepsSchedule s) : r.keepsSchedule (s.putRecord i x) := h.elsewhere

theorem State.keepsSchedule.dropBlock {block : Nat} (h : r.keepsSchedule s) : r.keepsSchedule (s.dropBlock block) := h.elsewhere

theorem State.keepsSchedule.logRecord {bad : List Nat} {fuel : Nat} {x : Record} (h : r.keepsSchedule s) :
    r.keepsSchedule (State.logRecord bad fuel s x) := by
  induction fuel generalizing s x with
  | zero => exact h.dropRecord
  | succ fuel ih =>
    unfold State.logRecord
    split
    · exact h.dropRecord
    · split
      · next e => exact (h.nvWrite.of_eq e).putRecord
      · next e => exact ih ((h.nvWrite.of_eq e).dropBlock.foldl fun h => ih h).raise

theorem State.keepsSchedule.flushOne {bad : List Nat} (h : r.keepsSchedule s) : r.keepsSchedule (s.flushOne bad) := by
  unfold State.flushOne
  split
  · exact h
  · exact h.logRecord.elsewhere

theorem State.keepsSchedule.flushMany {bad : List Nat} {n : Nat} (h : r.keepsSchedule s) : r.keepsSchedule (State.flushMany bad n s) := by
  induction n generalizing s with
  | zero => exact h
  | succ n ih => exact ih h.flushOne

theorem State.keepsSchedule.settleFlush (h : r.keepsSchedule s) : r.keepsSchedule s.settleFlush := h.ite h.flushMany.elsewhere

theorem State.keepsSchedule.flushAll {bad : List Nat} (h : r.keepsSchedule s) : r.keepsSchedule (s.flushAll bad) := h.flushMany

theorem State.keepsSchedule.startFlush (h : r.keepsSchedule s) : r.keepsSchedule s.startFlush := h.ite h.elsewhere

/-! #### KeyStore -/

theorem State.keepsSchedule.abandonUpdate {d : Desc} {power : Bool} (h : r.keepsSchedule s) : r.keepsSchedule (s.abandonUpdate d power) :=
  h.wait.ite h.raise.complete

theorem State.keepsSchedule.keyWrite {d : Desc} {block : Nat} {run : NvRun} {torn done : State → State} (h : r.keepsSchedule s)
    (ht : ∀ {s : State}, r.keepsSchedule s → r.keepsSchedule (torn s))
    (hd : ∀ {s : State}, r.keepsSchedule s → r.keepsSchedule (done s)) : r.keepsSchedule (s.keyWrite d block run torn done) := by
  unfold State.keyWrite
  split
  · exact h.complete
  · split
    · next e => exact (h.nvWrite.of_eq e).complete
    · next e => exact (ht (h.nvWrite.of_eq e)).abandonUpdate
    · next e => exact hd (h.nvWrite.of_eq e)

theorem State.keepsSchedule.recordUpdate {d : Desc} {i : Nat} {run : NvRun} {f : KeyCopy → KeyCopy}
    {done : State → State} (h : r.keepsSchedule s) (hd : ∀ {s : State}, r.keepsSchedule s → r.keepsSchedule (done s)) : r.keepsSchedule
        (s.recordUpdate d i run f done) :=
  h.keyWrite (fun h => h.tearSlot) fun h => hd h.updateSlot

theorem State.keepsSchedule.storeRecord {d : Desc} {run : NvRun} {i : Nat} {f : KeyCopy → KeyCopy} {mat : List Byte}
    (h : r.keepsSchedule s) : r.keepsSchedule (s.storeRecord d run i f mat) := h.recordUpdate (fun h => h.complete)

theorem State.keepsSchedule.keyCreate {d : Desc} {method : Nat} {payload : List Byte} {run : NvRun} (h : r.keepsSchedule s) :
    r.keepsSchedule (s.keyCreate d method payload run) := by
  unfold State.keyCreate
  split
  · exact h.complete
  · refine h.complete.ite (h.countClamps.complete.ite ?_)
    split
    · exact complete (h.countClamps.orphanUse.ite h.countClamps)
    · refine h.countClamps.cacheUse.complete.ite (h.countClamps.cacheUse.complete.ite (h.countClamps.cacheUse.complete.ite
          (h.countClamps.cacheUse.complete.ite (h.countClamps.cacheUse.storeRecord.ite (h.countClamps.cacheUse.draw.storeRecord.ite
          ?_)))))
      split
      · dsimp only
        split
        · exact complete h.countClamps.cacheUse.elsewhere
        · exact h.countClamps.cacheUse.storeRecord
      · dsimp only
        split
        · exact complete (onlyIf h.countClamps.cacheUse (fun k => k.orphanUse))
        · split
          · exact complete h.countClamps.cacheUse.cacheUse.elsewhere
          · exact h.countClamps.cacheUse.cacheUse.storeRecord

theorem State.keepsSchedule.execKeyCreateDerive {dt ring index : Nat} {payload : List Byte} {run : NvRun} (h : r.keepsSchedule s) :
    reaches (execKeyCreateDerive dt ring index payload run s) r.keepsSchedule :=
  ⟨_, rfl, h.elapse.withDesc (fun h => h.keyCreate)⟩

theorem State.keepsSchedule.execKeyCreateGenerate {dt ring index : Nat} {run : NvRun} (h : r.keepsSchedule s) :
    reaches (execKeyCreateGenerate dt ring index run s) r.keepsSchedule := ⟨_, rfl, h.elapse.withDesc (fun h => h.keyCreate)⟩

theorem State.keepsSchedule.execKeyCreateImport {dt ring index : Nat} {payload : List Byte} {run : NvRun} (h : r.keepsSchedule s) :
    reaches (execKeyCreateImport dt ring index payload run s) r.keepsSchedule :=
  ⟨_, rfl, h.elapse.withDesc (fun h => h.keyCreate)⟩

theorem State.keepsSchedule.keyRetire {d : Desc} {destroy : Bool} {run : NvRun} (h : r.keepsSchedule s) :
    r.keepsSchedule (s.keyRetire d destroy run) := by
  unfold State.keyRetire
  split
  · exact h.complete
  · refine h.complete.ite ?_
    split
    · exact h.complete
    · exact h.complete.ite (h.recordUpdate (fun h => complete (ite h.purge.elsewhere h.purge)))

theorem State.keepsSchedule.execKeyDestroy {dt ring index : Nat} {run : NvRun} (h : r.keepsSchedule s) :
    reaches (execKeyDestroy dt ring index run s) r.keepsSchedule := ⟨_, rfl, h.elapse.withDesc (fun h => h.keyRetire)⟩

theorem State.keepsSchedule.execKeyInvalidate {dt ring index : Nat} {run : NvRun} (h : r.keepsSchedule s) :
    reaches (execKeyInvalidate dt ring index run s) r.keepsSchedule := ⟨_, rfl, h.elapse.withDesc (fun h => h.keyRetire)⟩

theorem State.keepsSchedule.keyInfo {d : Desc} (h : r.keepsSchedule s) : r.keepsSchedule (s.keyInfo d) := h.complete.ite h.complete

theorem State.keepsSchedule.execKeyInfo {dt ring index : Nat} (h : r.keepsSchedule s) :
    reaches (execKeyInfo dt ring index s) r.keepsSchedule :=
  ⟨_, rfl, h.elapse.withDesc (fun h => h.keyInfo)⟩

theorem State.keepsSchedule.keyWrapOut {d : Desc} (h : r.keepsSchedule s) : r.keepsSchedule (s.keyWrapOut d) := by
  unfold State.keyWrapOut
  split
  · exact h.complete
  · refine h.complete.ite ?_
    split
    · exact h.complete
    · refine h.orphanUse.complete.ite (h.complete.ite ?_)
      split
      · exact complete (h.orphanUse.ite h)
      · exact h.orphanUse.complete
      · exact h.complete.ite (h.complete.ite (h.complete.ite (complete h.cachePut.cacheUse.writePayload)))

theorem State.keepsSchedule.execKeyWrapOut {dt ring index : Nat} (h : r.keepsSchedule s) :
    reaches (execKeyWrapOut dt ring index s) r.keepsSchedule :=
  ⟨_, rfl, h.elapse.withDesc (fun h => h.keyWrapOut)⟩

theorem State.keepsSchedule.keyCrypt {d : Desc} {op : Nat} {payload : List Byte} (h : r.keepsSchedule s) :
    r.keepsSchedule (s.keyCrypt d op payload) := by
  unfold State.keyCrypt
  split
  · exact h.complete
  · refine h.complete.ite ?_
    split
    · exact h.complete
    · exact h.orphanUse.complete.ite (h.complete.ite (h.countClamps.complete.ite (h.countClamps.complete.ite (h.countClamps.complete.ite
          (wait (modDesc h.countClamps.elsewhere))))))

theorem State.keepsSchedule.execKeyCryptGcmEncrypt {dt ring index : Nat} {payload : List Byte} (h : r.keepsSchedule s) :
    reaches (execKeyCryptGcmEncrypt dt ring index payload s) r.keepsSchedule := ⟨_, rfl, h.elapse.withDesc (fun h => h.keyCrypt)⟩

theorem State.keepsSchedule.execKeyCryptGcmDecrypt {dt ring index : Nat} {payload : List Byte} (h : r.keepsSchedule s) :
    reaches (execKeyCryptGcmDecrypt dt ring index payload s) r.keepsSchedule := ⟨_, rfl, h.elapse.withDesc (fun h => h.keyCrypt)⟩

theorem State.keepsSchedule.execKeyCryptCcmEncrypt {dt ring index : Nat} {payload : List Byte} (h : r.keepsSchedule s) :
    reaches (execKeyCryptCcmEncrypt dt ring index payload s) r.keepsSchedule := ⟨_, rfl, h.elapse.withDesc (fun h => h.keyCrypt)⟩

theorem State.keepsSchedule.execKeyCryptCcmDecrypt {dt ring index : Nat} {payload : List Byte} (h : r.keepsSchedule s) :
    reaches (execKeyCryptCcmDecrypt dt ring index payload s) r.keepsSchedule := ⟨_, rfl, h.elapse.withDesc (fun h => h.keyCrypt)⟩

theorem State.keepsSchedule.execKeyCryptCmacGenerate {dt ring index : Nat} {payload : List Byte} (h : r.keepsSchedule s) :
    reaches (execKeyCryptCmacGenerate dt ring index payload s) r.keepsSchedule :=
  ⟨_, rfl, h.elapse.withDesc (fun h => h.keyCrypt)⟩

theorem State.keepsSchedule.execKeyCryptCmacVerify {dt ring index : Nat} {payload : List Byte} (h : r.keepsSchedule s) :
    reaches (execKeyCryptCmacVerify dt ring index payload s) r.keepsSchedule := ⟨_, rfl, h.elapse.withDesc (fun h => h.keyCrypt)⟩

theorem State.keepsSchedule.execKeyCryptHmacGenerate {dt ring index : Nat} {payload : List Byte} (h : r.keepsSchedule s) :
    reaches (execKeyCryptHmacGenerate dt ring index payload s) r.keepsSchedule :=
  ⟨_, rfl, h.elapse.withDesc (fun h => h.keyCrypt)⟩

theorem State.keepsSchedule.execKeyCryptHmacVerify {dt ring index : Nat} {payload : List Byte} (h : r.keepsSchedule s) :
    reaches (execKeyCryptHmacVerify dt ring index payload s) r.keepsSchedule := ⟨_, rfl, h.elapse.withDesc (fun h => h.keyCrypt)⟩

theorem State.keepsSchedule.orphanJob {j : Job} (h : r.keepsSchedule s) : r.keepsSchedule (s.orphanJob j) := by
  unfold State.orphanJob
  split
  · exact h.orphanUse.complete
  · exact h

theorem State.keepsSchedule.startJob (h : r.keepsSchedule s) : r.keepsSchedule s.startJob := by
  unfold State.startJob
  split
  · dsimp only
    split
    · exact ite (orphanJob h.elsewhere) (elsewhere (cachePut h.elsewhere))
    · exact orphanJob h.elsewhere
  · exact h

theorem State.keepsSchedule.execKeyJobStart {dt : Nat} (h : r.keepsSchedule s) : reaches (execKeyJobStart dt s) r.keepsSchedule :=
  ⟨_, rfl, h.elapse.ite h.elapse.startJob⟩

theorem State.keepsSchedule.finishJob {e : Nat} (h : r.keepsSchedule s) : r.keepsSchedule (s.finishJob e) := by
  unfold State.finishJob
  split
  · exact h
  · extract_lets key u
    have hu : r.keepsSchedule u := h.elsewhere
    clear_value u
    split
    · exact hu
    · extract_lets type
      split
      · exact onlyIf (onlyIf hu fun k => k.writePayload) (fun k => k.writePayload) |>.complete
      · exact complete hu.elsewhere

theorem State.keepsSchedule.execKeyJobDone {dt engine : Nat} (h : r.keepsSchedule s) :
    reaches (execKeyJobDone dt engine s) r.keepsSchedule :=
  ⟨_, rfl, h.elapse.ite h.elapse.finishJob⟩

theorem State.keepsSchedule.keyAttest {d : Desc} {payload : List Byte} {run : NvRun} (h : r.keepsSchedule s) :
    r.keepsSchedule (s.keyAttest d payload run) := by
  unfold State.keyAttest
  split
  · exact h.complete
  · refine h.complete.ite ?_
    split
    · exact h.complete
    · refine h.orphanUse.complete.ite (h.complete.ite (h.complete.ite (h.complete.ite ?_)))
      split
      · exact h.orphanUse.complete
      · exact h.keyWrite (fun h => h.elsewhere) (fun h => complete (writePayload (cachePut h.elsewhere)))

theorem State.keepsSchedule.execKeyAttest {dt ring index : Nat} {payload : List Byte} {run : NvRun} (h : r.keepsSchedule s) :
    reaches (execKeyAttest dt ring index payload run s) r.keepsSchedule := ⟨_, rfl, h.elapse.withDesc (fun h => h.keyAttest)⟩

theorem State.keepsSchedule.epochRoll {d : Desc} (h : r.keepsSchedule s) : r.keepsSchedule (s.epochRoll d) := by
  unfold State.epochRoll
  split
  · exact h.complete
  · exact h.complete.ite (complete (raise h.newEpoch.destroyKeys.abortJobs.deriveRoots.elsewhere))

theorem State.keepsSchedule.execKeyEpochRoll {dt ring index : Nat} (h : r.keepsSchedule s) :
    reaches (execKeyEpochRoll dt ring index s) r.keepsSchedule :=
  ⟨_, rfl, h.elapse.withDesc (fun h => h.epochRoll)⟩

theorem State.keepsSchedule.remaskAll (h : r.keepsSchedule s) : r.keepsSchedule s.remaskAll :=
  elsewhere (elsewhere (elsewhere h.elsewhere))

theorem State.keepsSchedule.remaskEpoch (h : r.keepsSchedule s) : r.keepsSchedule s.remaskEpoch := by
  unfold State.remaskEpoch
  split
  · exact h
  · exact draw h.elsewhere

theorem State.keepsSchedule.execKeyRemask {dt : Nat} (h : r.keepsSchedule s) : reaches (execKeyRemask dt s) r.keepsSchedule :=
  ⟨_, rfl, onlyIf (h.elapse.ite h.elapse.mark.remaskAll) (fun k => k.mark.remaskEpoch)⟩

theorem State.keepsSchedule.tamperDestroy (h : r.keepsSchedule s) : r.keepsSchedule s.tamperDestroy :=
  raise (abortJobs (destroyKeys h.elsewhere))

theorem State.keepsSchedule.execTamperEvent {now : Timed Nat} {input : Nat} {levels : BitVec 4} (h : r.keepsSchedule s) :
    reaches (execTamperEvent now input levels s) r.keepsSchedule :=
  ⟨_, rfl, ite h.elapse.elsewhere (ite (elsewhere (elsewhere h.elapse.elsewhere)) (tamperDestroy (elsewhere h.elapse.elsewhere)))⟩

/-! #### FabricOps -/

theorem State.keepsSchedule.modPort {p : Nat} {f : FabPort → FabPort} (h : r.keepsSchedule s) : r.keepsSchedule (s.modPort p f) :=
  h.elsewhere

theorem State.keepsSchedule.enqueueFrame {p : Nat} {f : List Byte} (h : r.keepsSchedule s) : r.keepsSchedule (s.enqueueFrame p f).1 :=
  h.modPort.ite_fst h.modPort

theorem State.keepsSchedule.floodQueued {but : Option Nat} {f : List Byte} (h : r.keepsSchedule s) :
    r.keepsSchedule (s.floodQueued but f).1 :=
  foldl_pair h (fun h => h.enqueueFrame)

theorem State.keepsSchedule.floodFrame {but : Option Nat} {f : List Byte} (h : r.keepsSchedule s) :
    r.keepsSchedule (s.floodFrame but f) :=
  h.floodQueued

theorem State.keepsSchedule.nextSeq {cls : Nat} (h : r.keepsSchedule s) : r.keepsSchedule (s.nextSeq cls).1 := h.elsewhere

theorem State.keepsSchedule.originateQueued {src cls type hops flags : Nat} {body : List Byte} (h : r.keepsSchedule s) :
    r.keepsSchedule (s.originateQueued src cls type hops flags body).1 := h.nextSeq.floodQueued

theorem State.keepsSchedule.originateFlood {src cls type hops flags : Nat} {body : List Byte} (h : r.keepsSchedule s) :
    r.keepsSchedule (s.originateFlood src cls type hops flags body) := h.originateQueued

theorem State.keepsSchedule.dupAdd {k : List Nat} (h : r.keepsSchedule s) : r.keepsSchedule (s.dupAdd k) := h.elsewhere

theorem State.keepsSchedule.relayFlood {p : Nat} {f : List Byte} (h : r.keepsSchedule s) : r.keepsSchedule (s.relayFlood p f) :=
  h.floodFrame.ite h

theorem State.keepsSchedule.linkFall {p : Nat} {why : LinkCause} (h : r.keepsSchedule s) : r.keepsSchedule (s.linkFall p why) :=
  h.ite (onlyIf h.modPort.forgetNeighbour (fun k => raise k.elsewhere))

theorem State.keepsSchedule.linkRise {p : Nat} (h : r.keepsSchedule s) : r.keepsSchedule (s.linkRise p) := raise h.modPort.elsewhere

theorem State.keepsSchedule.sendHello {p : Nat} (h : r.keepsSchedule s) : r.keepsSchedule (s.sendHello p) := h.nextSeq.enqueueFrame

theorem State.keepsSchedule.helloAll (h : r.keepsSchedule s) : r.keepsSchedule s.helloAll := h.mark.foldl (fun h => h.sendHello)

theorem State.keepsSchedule.sendClaim {defend : Bool} (h : r.keepsSchedule s) : r.keepsSchedule (s.sendClaim defend) := h.originateFlood

theorem State.keepsSchedule.enterConflict (h : r.keepsSchedule s) : r.keepsSchedule s.enterConflict := raise h.elsewhere

theorem State.keepsSchedule.claimFrom {fuel n : Nat} (h : r.keepsSchedule s) : r.keepsSchedule (s.claimFrom fuel n) := by
  induction fuel generalizing s n with
  | zero => exact h.enterConflict
  | succ fuel ih => exact ite (ih h) (sendClaim h.elsewhere)

theorem State.keepsSchedule.startClaim (h : r.keepsSchedule s) : r.keepsSchedule s.startClaim := h.claimFrom

theorem State.keepsSchedule.meetAddr {eui addr : Nat} (h : r.keepsSchedule s) : r.keepsSchedule (s.meetAddr eui addr) := by
  unfold State.meetAddr
  refine h.ite ?_
  split
  · exact h.sendClaim.ite (h.enterConflict.ite h.claimFrom)
  · exact h.sendClaim.ite (h.enterConflict.ite h.raise.claimFrom)
  · exact h

theorem State.keepsSchedule.takeClaim {p : Nat} {f : List Byte} (h : r.keepsSchedule s) : r.keepsSchedule (s.takeClaim p f) :=
  h.ite (h.dupAdd.meetAddr.ite h.dupAdd.meetAddr.relayFlood)

theorem State.keepsSchedule.takeHello {p : Nat} {f : List Byte} (h : r.keepsSchedule s) : r.keepsSchedule (s.takeHello p f) := by
  unfold State.takeHello
  exact onlyIf (modPort (h.meetAddr.linkFall.ite h.meetAddr)) (fun k => k.linkRise)

theorem State.keepsSchedule.lsdbChanged (h : r.keepsSchedule s) : r.keepsSchedule s.lsdbChanged := h.elsewhere

theorem State.keepsSchedule.putLsa {src : Nat} {e : Lsa} (h : r.keepsSchedule s) : r.keepsSchedule (s.putLsa src e) :=
  ite h.elsewhere (lsdbChanged h.elsewhere)

theorem State.keepsSchedule.takeLsa {p : Nat} {f : List Byte} (h : r.keepsSchedule s) : r.keepsSchedule (s.takeLsa p f) :=
  h.ite (h.meetAddr.ite (h.meetAddr.putLsa.ite h.meetAddr.putLsa.relayFlood))

theorem State.keepsSchedule.sendLsa (h : r.keepsSchedule s) : r.keepsSchedule s.sendLsa := originateFlood (putLsa h.elsewhere)

theorem State.keepsSchedule.runSpf (h : r.keepsSchedule s) : r.keepsSchedule s.runSpf := raise h.elsewhere

theorem State.keepsSchedule.modLearn {i : Nat} {f : LearnEntry → LearnEntry} (h : r.keepsSchedule s) : r.keepsSchedule (s.modLearn i f) := by
  unfold State.modLearn
  split
  · exact h.elsewhere
  · exact h

theorem State.keepsSchedule.learnLookup {k : Nat} (h : r.keepsSchedule s) : r.keepsSchedule (s.learnLookup k).1 := by
  unfold State.learnLookup
  split
  · exact h.modLearn
  · exact h

theorem State.keepsSchedule.serveLearn (h : r.keepsSchedule s) : r.keepsSchedule s.serveLearn := by
  unfold State.serveLearn
  split
  · exact h
  · exact h.ite (complete (writePayload h.elsewhere))

theorem State.keepsSchedule.pushLearn {rec' : List Byte} {conflict : Bool} (h : r.keepsSchedule s) :
    r.keepsSchedule (s.pushLearn rec' conflict) :=
  ite h.elsewhere (serveLearn (onlyIf (ite (raise h.elsewhere) h.elsewhere) (fun k => k.raise)))

theorem State.keepsSchedule.newSighting {g : Sighting} {kind : Nat} (h : r.keepsSchedule s) : r.keepsSchedule (s.newSighting g kind) :=
  ite h.elsewhere (pushLearn h.elsewhere)

theorem State.keepsSchedule.retireSightings (h : r.keepsSchedule s) : r.keepsSchedule s.retireSightings := h.elsewhere

theorem State.keepsSchedule.sight {p : Nat} {f : List Byte} (h : r.keepsSchedule s) : r.keepsSchedule (s.sight p f) := by
  unfold State.sight
  refine h.ite ?_
  dsimp only
  split
  · exact h.retireSightings.modLearn
  · split
    · exact h.retireSightings.ite (pushLearn h.retireSightings.elsewhere)
    · exact h.retireSightings.newSighting

theorem State.keepsSchedule.ageEntry {i : Nat} {e : LearnEntry} (h : r.keepsSchedule s) : r.keepsSchedule (s.ageEntry i e) :=
  h.ite (h.modLearn.ite (h.modLearn.ite (pushLearn (draw h.elsewhere))))

theorem State.keepsSchedule.hostFrame {src cls type port srcEui : Nat} {data : List Byte} (h : r.keepsSchedule s) :
    r.keepsSchedule (s.hostFrame src cls type port srcEui data) := by
  unfold State.hostFrame
  dsimp only
  split
  · exact h.raise.elsewhere
  · exact complete h.raise.writePayload

/-! #### Image -/

theorem State.keepsSchedule.flashWrite {a : Nat} {b : List Byte} (h : r.keepsSchedule s) : r.keepsSchedule (s.flashWrite a b) :=
  h.elsewhere

theorem State.keepsSchedule.eraseSlot {b : Bool} (h : r.keepsSchedule s) : r.keepsSchedule (s.eraseSlot b) := h.elsewhere

theorem State.keepsSchedule.extendReg {i : Nat} {d : BitVec 384} (h : r.keepsSchedule s) : r.keepsSchedule (s.extendReg i d) :=
  h.elsewhere

theorem State.keepsSchedule.bootWrite {block : Nat} {run : NvRun} (h : r.keepsSchedule s) : r.keepsSchedule (s.bootWrite block run).1 :=
  h.ite_fst (h.ite_fst h.nvWrite)

theorem State.keepsSchedule.extend {i type : Nat} {d : BitVec 384} {run : NvRun} (h : r.keepsSchedule s) :
    r.keepsSchedule (s.extend i type d run).1 := by
  unfold State.extend
  split
  · next e => exact (of_eq h.bootWrite e)
  · next e => exact extendReg (of_eq h.bootWrite e)
  · next e => exact elsewhere (extendReg (of_eq h.bootWrite e))

theorem State.keepsSchedule.measured {i type : Nat} {d : BitVec 384} (h : r.keepsSchedule s) : r.keepsSchedule (s.measured i type d) :=
  h.extend

theorem State.keepsSchedule.measure {l plain : List Byte} (h : r.keepsSchedule s) : r.keepsSchedule (s.measure l plain) :=
  (h.measured.measured.foldl (fun h => h.foldl (fun h => h.measured))).measured

theorem State.keepsSchedule.loadImage {b : Bool} (h : r.keepsSchedule s) : r.keepsSchedule (s.loadImage b) := measure h.elsewhere

theorem State.keepsSchedule.servePeer {p eui part next : Nat} (h : r.keepsSchedule s) : r.keepsSchedule (s.servePeer p eui part next) := by
  unfold State.servePeer
  refine h.ite ?_
  split
  · exact h
  · exact h.complete.ite (onlyIf h.nextSeq.enqueueFrame (fun k => k.complete))

/-! #### FieldOps -/

theorem State.keepsSchedule.dramWrite {a : Nat} {b : List Byte} (h : r.keepsSchedule s) : r.keepsSchedule (s.dramWrite a b) :=
  h.dramStore.noteTraceDrop

theorem State.keepsSchedule.dramSeen {a n : Nat} (h : r.keepsSchedule s) : r.keepsSchedule (s.dramSeen a n) := h.dramErrors.noteTraceDrop

theorem State.keepsSchedule.leaveImages (h : r.keepsSchedule s) : r.keepsSchedule s.leaveImages := by
  unfold State.leaveImages
  split
  · exact h
  · exact h.elsewhere

theorem State.keepsSchedule.writeBack {l : CacheLine} (h : r.keepsSchedule s) : r.keepsSchedule (s.writeBack l) := ite h.dramWrite h

theorem State.keepsSchedule.putLine {l : CacheLine} (h : r.keepsSchedule s) : r.keepsSchedule (s.putLine l) :=
  elsewhere (h.foldl (fun h => h.writeBack))

theorem State.keepsSchedule.getLine {l : CacheLine} {sample : Bool} (h : r.keepsSchedule s) : r.keepsSchedule (s.getLine l sample).1 := by
  unfold State.getLine
  split
  · exact putLine h.elsewhere
  · exact ite_fst (raise (elsewhere (dramSeen h.elsewhere))) (putLine (dramSeen h.elsewhere))

theorem State.keepsSchedule.dropLines {p : CacheLine → Bool} (h : r.keepsSchedule s) : r.keepsSchedule (s.dropLines p) :=
  elsewhere (h.foldl (fun h => h.writeBack))

theorem State.keepsSchedule.cleanLines (h : r.keepsSchedule s) : r.keepsSchedule s.cleanLines :=
  elsewhere (h.foldl (fun h => h.writeBack))

theorem State.keepsSchedule.readLayer {layer : Nat} {c : Cell} {sample : Bool} (h : r.keepsSchedule s) :
    r.keepsSchedule (s.readLayer layer c sample).1 := by
  unfold State.readLayer
  refine h.ite_fst (h.dramSeen.ite_fst ?_)
  split
  · next e => exact (h.dramSeen.getLine.of_eq e)
  · next e => exact (h.dramSeen.getLine.of_eq e)

theorem State.keepsSchedule.coverage {c : Cell} {sample : Bool} (h : r.keepsSchedule s) : r.keepsSchedule (s.coverage c sample).1 := by
  unfold State.coverage
  split
  · next e => exact (h.readLayer.of_eq e)
  · next e => exact (h.readLayer.of_eq e)

theorem State.keepsSchedule.exclusion {c : Cell} (h : r.keepsSchedule s) : r.keepsSchedule (s.exclusion c).1 := by
  unfold State.exclusion
  split
  · next e => exact (h.readLayer.of_eq e)
  · next e => exact (h.readLayer.of_eq e)
  · next e => exact (h.readLayer.of_eq e)

theorem State.keepsSchedule.prescription {layer : Nat} {c : Cell} (h : r.keepsSchedule s) : r.keepsSchedule (s.prescription layer c).1 := by
  unfold State.prescription
  split
  · next e => exact (h.readLayer.of_eq e)
  · next e => exact (h.readLayer.of_eq e)
  · next e => exact (h.readLayer.of_eq e)

theorem State.keepsSchedule.setCov {c : Cell} {code : Nat} {change : Bool} (h : r.keepsSchedule s) :
    r.keepsSchedule (s.setCov c code change) := by
  unfold State.setCov
  refine h.ite (h.dramSeen.ite ?_)
  split
  · next e => exact (h.dramSeen.getLine.of_eq e)
  · next e => exact onlyIf ((h.dramSeen.getLine.of_eq e).putLine) (fun k => k.dramWrite)

theorem State.keepsSchedule.dropClaim {k : Nat} {c : Claim} (h : r.keepsSchedule s) : r.keepsSchedule (s.dropClaim k c) :=
  setCov h.elsewhere

theorem State.keepsSchedule.releaseClaims {p : Nat → Claim → Bool} (h : r.keepsSchedule s) : r.keepsSchedule (s.releaseClaims p) :=
  h.ite (h.foldl (fun h => h.dropClaim))

theorem State.keepsSchedule.noteDelta {c : Cell} (h : r.keepsSchedule s) : r.keepsSchedule (s.noteDelta c) :=
  h.ite (ite h.elsewhere (raise h.elsewhere))

theorem State.keepsSchedule.confirmClaim {k : Nat} {c : Claim} (h : r.keepsSchedule s) : r.keepsSchedule (s.confirmClaim k c) :=
  noteDelta (setCov h.elsewhere)

theorem State.keepsSchedule.bumpCell {c : Cell} (h : r.keepsSchedule s) : r.keepsSchedule (s.bumpCell c) := by
  unfold State.bumpCell
  split
  · exact h.elsewhere
  · split
    · next e => exact (h.coverage.of_eq e).setCov
    · next e => exact (h.coverage.of_eq e).setCov
    · next e => exact (h.coverage.of_eq e)

theorem State.keepsSchedule.applyDelta {f : Nat} {b : List Byte} (h : r.keepsSchedule s) : r.keepsSchedule (s.applyDelta f b) :=
  h.foldl (fun h => h.bumpCell)

theorem State.keepsSchedule.takeDelta {src : Nat} {b : List Byte} (h : r.keepsSchedule s) : r.keepsSchedule (s.takeDelta src b) := by
  unfold State.takeDelta
  refine h.ite ?_
  split
  · exact h.elsewhere
  · refine applyDelta ?_
    split
    · exact ite h.elsewhere (raise h.elsewhere)
    · exact ite h.elsewhere h

theorem State.keepsSchedule.sendUnicast {dst cls type hops : Nat} {body : List Byte} (h : r.keepsSchedule s) :
    r.keepsSchedule (s.sendUnicast dst cls type hops body).1 := by
  unfold State.sendUnicast
  refine h.ite_fst ?_
  split
  · exact h.elsewhere
  · exact h.nextSeq.enqueueFrame

theorem State.keepsSchedule.sendDelta {f : Nat} {cells : List Cell} (h : r.keepsSchedule s) : r.keepsSchedule (s.sendDelta f cells) :=
  foldl h.elsewhere (fun h => h.sendUnicast.ite h)

theorem State.keepsSchedule.sendDeltas (h : r.keepsSchedule s) : r.keepsSchedule s.sendDeltas :=
  foldl h.elsewhere (fun h => h.foldl (fun h => h.sendDelta))

theorem State.keepsSchedule.loadTiles {f fuel n : Nat} {p : List Byte} (h : r.keepsSchedule s) :
    r.keepsSchedule (s.loadTiles f fuel p n).1 := by
  induction fuel generalizing s p n with
  | zero => exact h
  | succ fuel ih =>
    unfold State.loadTiles
    exact h.ite_fst (h.ite_fst (h.ite_fst (h.ite_fst (h.ite_fst (ih h.dropLines.dramWrite.dramWrite)))))

theorem State.keepsSchedule.saveTiles {f layer room n : Nat} {dirtyOnly : Bool} {l : List (Nat × Nat)}
    {out : List Byte} (h : r.keepsSchedule s) : r.keepsSchedule (s.saveTiles f layer room dirtyOnly l out n).1 := by
  induction l generalizing s out n with
  | nil => exact h
  | cons e l ih =>
    unfold State.saveTiles
    exact ite_fst (ih h.dramSeen) (h.dramSeen.ite_fst (ih (ite h.dramSeen.dropLines.dramSeen.dramWrite h.dramSeen.dropLines.dramSeen)))

/-! #### Time -/

theorem State.keepsSchedule.pushStamp {source id t16 : Nat} (h : r.keepsSchedule s) : r.keepsSchedule (s.pushStamp source id t16) :=
  ite (ite (raise h.elsewhere) h.elsewhere) (raise h.elsewhere)

theorem State.keepsSchedule.popStamp (h : r.keepsSchedule s) : r.keepsSchedule s.popStamp := by
  unfold State.popStamp
  split
  · exact h.elsewhere
  · exact h.elsewhere

theorem State.keepsSchedule.ppsDrive {active : Bool} {time : Nat} (h : r.keepsSchedule s) : r.keepsSchedule (s.ppsDrive active time) :=
  ite h.elsewhere (emit h.elsewhere)

theorem State.keepsSchedule.ppsEnd (h : r.keepsSchedule s) : r.keepsSchedule s.ppsEnd := h.ppsDrive

theorem State.keepsSchedule.setSrc {i : Nat} {v : SrcState} (h : r.keepsSchedule s) : r.keepsSchedule (s.setSrc i v) := h.elsewhere

theorem State.keepsSchedule.setQuality {q : Quality} (h : r.keepsSchedule s) : r.keepsSchedule (s.setQuality q) := by
  unfold State.setQuality
  refine h.ite ?_
  split
  · exact raise h.elsewhere
  · exact raise (elsewhere h.elsewhere)
  · exact raise h.elsewhere
  · exact raise h.elsewhere

theorem State.keepsSchedule.enterHoldover (h : r.keepsSchedule s) : r.keepsSchedule s.enterHoldover := setQuality h.elsewhere

theorem State.keepsSchedule.reselect (h : r.keepsSchedule s) : r.keepsSchedule s.reselect :=
  h.ite (ite (ite (enterHoldover (raise h.elsewhere)) (raise h.elsewhere)) (ite (setQuality (raise h.elsewhere)) (raise h.elsewhere)))

theorem State.keepsSchedule.loseSource {i : Nat} (h : r.keepsSchedule s) : r.keepsSchedule (s.loseSource i) := h.setSrc.reselect

theorem State.keepsSchedule.servo {e : Int} {dt : Rat} (h : r.keepsSchedule s) : r.keepsSchedule (s.servo e dt) :=
  h.ite (ite h.elsewhere h.elsewhere)

theorem State.keepsSchedule.decideStep {e : Int} {unc : Nat} (h : r.keepsSchedule s) : r.keepsSchedule (s.decideStep e unc) := h.elsewhere

theorem State.keepsSchedule.useSample {e : Int} {unc : Nat} (h : r.keepsSchedule s) : r.keepsSchedule (s.useSample e unc) :=
  onlyIf (onlyElse (ite (setQuality h.elsewhere) h.elsewhere) (fun k => k.decideStep.ite k.servo)) (fun k => k.setQuality)

theorem State.keepsSchedule.sample {i : Nat} {e : Int} {unc : Nat} (h : r.keepsSchedule s) : r.keepsSchedule (s.sample i e unc) :=
  h.setSrc.useSample.ite h.setSrc

theorem State.keepsSchedule.noteClass (h : r.keepsSchedule s) : r.keepsSchedule s.noteClass := by
  unfold State.noteClass
  split
  · exact h.elsewhere
  · exact h.elsewhere
  · exact h

theorem State.keepsSchedule.updateErr (h : r.keepsSchedule s) : r.keepsSchedule s.updateErr :=
  ite (noteClass (setQuality (elsewhere h.elsewhere))) h.elsewhere

theorem State.keepsSchedule.fireAlarm {n : Nat} (h : r.keepsSchedule s) : r.keepsSchedule (s.fireAlarm n) := raise h.elsewhere

theorem State.keepsSchedule.insertLaunch {time : Nat} {k : LaunchKind} (h : r.keepsSchedule s) :
    r.keepsSchedule (s.insertLaunch time k) :=
  h.elsewhere

/-! #### HopOps -/

theorem State.keepsSchedule.modHop {p : Nat} {f : HopPort → HopPort} (h : r.keepsSchedule s) : r.keepsSchedule (s.modHop p f) :=
  h.elsewhere

theorem State.keepsSchedule.modMach {m : Nat} {f : MachLink → MachLink} (h : r.keepsSchedule s) : r.keepsSchedule (s.modMach m f) :=
  h.elsewhere

theorem State.keepsSchedule.modNode {k : Nat} {f : NodeLink → NodeLink} (h : r.keepsSchedule s) : r.keepsSchedule (s.modNode k f) :=
  h.elsewhere

theorem State.keepsSchedule.queueDl {b : DlBlock} (h : r.keepsSchedule s) : r.keepsSchedule (s.queueDl b) := h.elsewhere

theorem State.keepsSchedule.queueBlock {m btype : Nat} {body : List Byte} (h : r.keepsSchedule s) :
    r.keepsSchedule (s.queueBlock m btype body) :=
  h.queueDl

theorem State.keepsSchedule.sectionDrop {p : Nat} (h : r.keepsSchedule s) : r.keepsSchedule (s.sectionDrop p) := h.modHop.raise

theorem State.keepsSchedule.dropUnfit {p fuel : Nat} (h : r.keepsSchedule s) : r.keepsSchedule (s.dropUnfit p fuel) := by
  induction fuel generalizing s with
  | zero => exact h
  | succ fuel ih =>
    unfold State.dropUnfit
    dsimp only
    split
    · exact h
    · refine ih ?_
      split
      · split
        · exact complete (ite (sectionDrop h.elsewhere) h.elsewhere)
        · exact ite (sectionDrop h.elsewhere) h.elsewhere
      · exact ite (sectionDrop h.elsewhere) h.elsewhere

theorem State.keepsSchedule.blockSent {b : DlBlock} (h : r.keepsSchedule s) : r.keepsSchedule (s.blockSent b) := by
  unfold State.blockSent
  split
  · dsimp only
    split
    · exact complete h.elsewhere
    · exact h.elsewhere
  · exact h.elsewhere

theorem State.keepsSchedule.queueSched {p m lasn : Nat} {narrow : Bool} {mode : Nat} {k : List Byte} {pend : Bool}
    (h : r.keepsSchedule s) : r.keepsSchedule (s.queueSched p m lasn narrow mode k pend) := h.foldl (fun h => h.queueDl)

theorem State.keepsSchedule.countOrphan {i : Nat} (h : r.keepsSchedule s) : r.keepsSchedule (s.countOrphan i) := h.ite h.orphanUse

theorem State.keepsSchedule.announceTo {p m : Nat} {a : Announce} {group stop keyGen : Nat} (h : r.keepsSchedule s) :
    r.keepsSchedule (s.announceTo p m a group stop keyGen) := by
  unfold State.announceTo
  refine ite (h.queueSched.ite h.queueSched.queueDl) ?_
  split
  · exact queueDl (h.queueSched.ite h.queueSched.queueDl)
  · exact countOrphan (countOrphan (h.queueSched.ite h.queueSched.queueDl))

theorem State.keepsSchedule.endAnnounce (h : r.keepsSchedule s) : r.keepsSchedule s.endAnnounce := (h.foldl (fun h => h.modHop)).elsewhere

theorem State.keepsSchedule.micFail {p : Nat} (h : r.keepsSchedule s) : r.keepsSchedule (s.micFail p) := h.modHop

theorem State.keepsSchedule.dutyReview {p asn at' : Nat} (h : r.keepsSchedule s) : r.keepsSchedule (s.dutyReview p asn at') := h.modHop

theorem State.keepsSchedule.withhold {p ch air asn : Nat} (h : r.keepsSchedule s) : r.keepsSchedule (s.withhold p ch air asn) :=
  h.modHop.raise

theorem State.keepsSchedule.frontEnd {p time : Nat} {f : Sel} (h : r.keepsSchedule s) : r.keepsSchedule (s.frontEnd p time f) := h.emit

theorem State.keepsSchedule.onAir {p ch start mode : Nat} {frame : List Byte} (h : r.keepsSchedule s) :
    r.keepsSchedule (s.onAir p ch start mode frame) :=
  h.frontEnd.modHop.emit.frontEnd

theorem State.keepsSchedule.precompMiss (h : r.keepsSchedule s) : r.keepsSchedule s.precompMiss := raise h.elsewhere

theorem State.keepsSchedule.missUnder {i : Nat} (h : r.keepsSchedule s) : r.keepsSchedule (s.missUnder i) := h.countOrphan.precompMiss

theorem State.keepsSchedule.freezeMirage (h : r.keepsSchedule s) : r.keepsSchedule s.freezeMirage := h.elsewhere

theorem State.keepsSchedule.beaconAir {p ch : Nat} {f : BeaconForm} {nominal start : Nat} (h : r.keepsSchedule s) :
    r.keepsSchedule (s.beaconAir p ch f nominal start) := h.onAir.modHop

theorem State.keepsSchedule.sendBeacon {p ch asn nominal : Nat} (h : r.keepsSchedule s) :
    r.keepsSchedule (s.sendBeacon p ch asn nominal) := by
  unfold State.sendBeacon
  split
  · exact h.modHop.missUnder
  · exact h.modHop.beaconAir.pushStamp.raise

theorem State.keepsSchedule.restamp {p asn start : Nat} (h : r.keepsSchedule s) : r.keepsSchedule (s.restamp p asn start) := h.elsewhere

theorem State.keepsSchedule.sendAnchor {p asn nominal : Nat} (h : r.keepsSchedule s) : r.keepsSchedule (s.sendAnchor p asn nominal) := by
  unfold State.sendAnchor
  split
  · exact h.missUnder
  · exact h.onAir

theorem State.keepsSchedule.holdStops {p asn : Nat} (h : r.keepsSchedule s) : r.keepsSchedule (s.holdStops p asn) := h.modHop

theorem State.keepsSchedule.holdForms {p asn : Nat} (h : r.keepsSchedule s) : r.keepsSchedule (s.holdForms p asn) := h.modHop

theorem State.keepsSchedule.holdAll (h : r.keepsSchedule s) : r.keepsSchedule s.holdAll := h.foldl (fun h => h.holdStops)

theorem State.keepsSchedule.dropHeld {p : Nat} (h : r.keepsSchedule s) : r.keepsSchedule (s.dropHeld p) := h.modHop

theorem State.keepsSchedule.sendStop {p ch asn nominal : Nat} (h : r.keepsSchedule s) : r.keepsSchedule (s.sendStop p ch asn nominal) := by
  unfold State.sendStop
  split
  · exact h.missUnder
  · exact h.withhold.ite h.onAir

theorem State.keepsSchedule.sendSealed {p ch asn nominal mode type enc addr : Nat} {key body : List Byte} (h : r.keepsSchedule s) :
    r.keepsSchedule (s.sendSealed p ch asn nominal mode type enc addr key body).1 := h.withhold.ite_fst h.onAir

theorem State.keepsSchedule.hostMessage {p addr asn : Nat} {data : List Byte} (h : r.keepsSchedule s) :
    r.keepsSchedule (s.hostMessage p addr asn data) := by
  unfold State.hostMessage
  split
  · exact h.modHop
  · exact complete h.writePayload

/-! #### CarOps -/

theorem State.keepsSchedule.trackSeen {k : Nat} (h : r.keepsSchedule s) : r.keepsSchedule (s.trackSeen k) := h.dramSeen

theorem State.keepsSchedule.modCar {m : Nat} {f : CarMach → CarMach} (h : r.keepsSchedule s) : r.keepsSchedule (s.modCar m f) :=
  h.elsewhere

theorem State.keepsSchedule.setTrack {k state m : Nat} (h : r.keepsSchedule s) : r.keepsSchedule (s.setTrack k state m) :=
  onlyIf (dramWrite (h.modCar.ite h)) (fun k => k.modCar)

theorem State.keepsSchedule.setRes {o : Nat} {l : List Seg} (h : r.keepsSchedule s) : r.keepsSchedule (s.setRes o l) :=
  ite (modCar h.elsewhere) h.elsewhere

theorem State.keepsSchedule.carTell {m code why segs : Nat} (h : r.keepsSchedule s) : r.keepsSchedule (s.carTell m code why segs) :=
  h.queueBlock

theorem State.keepsSchedule.carTest {o : Nat} {segs : List Seg} {track : Option Nat} {rev : Bool} (h : r.keepsSchedule s) :
    r.keepsSchedule (s.carTest o segs track rev).1 := by
  unfold State.carTest
  refine h.ite_fst (h.ite_fst (h.ite_fst ?_))
  split
  · dsimp only
    split
    · exact h.ite_fst h
    · exact h.ite_fst (h.ite_fst h.setRes.setTrack)
  · dsimp only
    split
    · exact h.ite_fst h
    · exact h.ite_fst (h.ite_fst h.setRes)

theorem State.keepsSchedule.carAlong {x : Req} {k : Nat} {rev : Bool} (h : r.keepsSchedule s) : r.keepsSchedule (s.carAlong x k rev).1 :=
  h.trackSeen.carTest

theorem State.keepsSchedule.doneCurrent {x : Req} (h : r.keepsSchedule s) : r.keepsSchedule (s.doneCurrent x) := by
  unfold State.doneCurrent
  split
  · exact h.setTrack.ite h
  · exact h

theorem State.keepsSchedule.carDecide {x : Req} (h : r.keepsSchedule s) : r.keepsSchedule (s.carDecide x).1 := by
  unfold State.carDecide
  refine h.doneCurrent.ite_fst (h.doneCurrent.ite_fst ?_)
  split
  · refine h.doneCurrent.ite_fst (h.doneCurrent.ite_fst (ite_fst (h.doneCurrent.ite_fst h.doneCurrent) ?_))
    dsimp only
    split
    · exact h.doneCurrent.foldl (fun h => h.trackSeen)
    · exact (h.doneCurrent.foldl (fun h => h.trackSeen)).carAlong
  · split
    · exact h.doneCurrent
    · exact h.doneCurrent.carAlong
  · exact h.doneCurrent.carTest
  · split
    · exact onlyIf h.doneCurrent.setRes (fun k => k.setTrack)
    · exact h.doneCurrent.setRes
  · split
    · exact h.doneCurrent
    · exact h.doneCurrent.setTrack
  · split
    · split
      · next e' =>
          dsimp only
          split
          · exact (h.doneCurrent.carTest.of_eq e')
          · split
            · exact h.doneCurrent.trackSeen.ite h.doneCurrent
            · exact carTest (h.doneCurrent.trackSeen.ite h.doneCurrent)
    · split
      · next e' =>
          dsimp only
          exact (h.doneCurrent.carTest.of_eq e')

theorem State.keepsSchedule.giveAnswer {x : Req} {a : Answered} (h : r.keepsSchedule s) : r.keepsSchedule (s.giveAnswer x a) := by
  unfold State.giveAnswer
  extract_lets c u v w body y
  have hu : r.keepsSchedule u := h.elsewhere
  have hw : r.keepsSchedule w := (onlyIf hu fun k => k.raise).raise
  have hy : r.keepsSchedule y := onlyIf hw fun k => k.queueBlock
  split
  · split
    · exact hy.complete
    · exact hy
  · exact hy

theorem State.keepsSchedule.trackRequest {m : Nat} {b : List Byte} (h : r.keepsSchedule s) : r.keepsSchedule (s.trackRequest m b) :=
  h.ite (h.ite h.countClamps.elsewhere)

theorem State.keepsSchedule.expireOwner {o : Nat} {l : List Seg} (h : r.keepsSchedule s) : r.keepsSchedule (s.expireOwner o l) := by
  unfold State.expireOwner
  refine h.ite (ite h.elsewhere ?_)
  split
  · exact h
  · exact modCar h.elsewhere

theorem State.keepsSchedule.expireAll (h : r.keepsSchedule s) : r.keepsSchedule s.expireAll := h.foldl (fun h => h.expireOwner)

theorem State.keepsSchedule.freezeRes {m : Nat} (h : r.keepsSchedule s) : r.keepsSchedule (s.freezeRes m) := h.ite (modCar h.elsewhere)

theorem State.keepsSchedule.freezeAll (h : r.keepsSchedule s) : r.keepsSchedule s.freezeAll :=
  h.ite (h.foldl (fun h => h.modCar.freezeRes))

theorem State.keepsSchedule.freezeLost {m : Nat} (h : r.keepsSchedule s) : r.keepsSchedule (s.freezeLost m) := h.ite h.modCar.freezeRes

theorem State.keepsSchedule.thaw {m : Nat} (h : r.keepsSchedule s) : r.keepsSchedule (s.thaw m) := by
  unfold State.thaw
  extract_lets c
  refine h.ite ?_
  split
  · exact h
  · extract_lets d l keep cut u v
    have hu : r.keepsSchedule u := by
      refine ite ?_ (elsewhere h.modCar)
      split
      · exact modCar (elsewhere h.modCar)
      · exact h.modCar
    have hv : r.keepsSchedule v := hu.carTell
    exact onlyIf hv fun k => k.raise

theorem State.keepsSchedule.thawEnable {m : Nat} (h : r.keepsSchedule s) : r.keepsSchedule (s.thawEnable m) := h.ite h.modCar.thaw

theorem State.keepsSchedule.carStep (h : r.keepsSchedule s) : r.keepsSchedule s.carStep := h.foldl (fun h => h.setRes.carTell.raise)

theorem State.keepsSchedule.carHoldMachine {m why : Nat} (h : r.keepsSchedule s) : r.keepsSchedule (s.carHoldMachine m why) :=
  h.ite h.carTell.releaseClaims.modCar.freezeRes.raise

theorem State.keepsSchedule.carAct {m act why : Nat} {e : Ev} (h : r.keepsSchedule s) : r.keepsSchedule (s.carAct m act why e) :=
  h.ite (h.raise.carHoldMachine.ite h.raise)

theorem State.keepsSchedule.conform {m : Nat} {east north hs hc : Rat} {tObs : Nat} (h : r.keepsSchedule s) :
    r.keepsSchedule (s.conform m east north hs hc tObs) :=
  h.ite (onlyIf (ite (carAct (elsewhere (modCar h.elsewhere))) (modCar h.elsewhere)) (fun k => carAct k.elsewhere))

/-! #### StopOps -/

theorem State.keepsSchedule.settleOuts (h : r.keepsSchedule s) : r.keepsSchedule s.settleOuts := h.elsewhere

theorem State.keepsSchedule.stickPad {outB stopped : Bool} (h : r.keepsSchedule s) : r.keepsSchedule (s.stickPad outB stopped) :=
  h.elsewhere

theorem State.keepsSchedule.holdBodies (h : r.keepsSchedule s) : r.keepsSchedule s.holdBodies := h.ite h.elsewhere

theorem State.keepsSchedule.sendFabStop {stop : Bool} {count : BitVec 16} {scope window : Nat} (h : r.keepsSchedule s) :
    r.keepsSchedule (s.sendFabStop stop count scope window) := by
  unfold State.sendFabStop
  split
  · exact h.missUnder
  · exact h.originateFlood

theorem State.keepsSchedule.floodStop {scope : Nat} (h : r.keepsSchedule s) : r.keepsSchedule (s.floodStop scope) :=
  h.ite h.sendFabStop.elsewhere

theorem State.keepsSchedule.unflood (h : r.keepsSchedule s) : r.keepsSchedule s.unflood := h.elsewhere

theorem State.keepsSchedule.abandonSlot {p : Nat} {stays : Option Nat} (h : r.keepsSchedule s) :
    r.keepsSchedule (s.abandonSlot p stays) :=
  modHop h.elsewhere

theorem State.keepsSchedule.latchPort {p : Nat} (h : r.keepsSchedule s) : r.keepsSchedule (s.latchPort p) := by
  unfold State.latchPort
  split
  · exact h.abandonSlot.beaconAir
  · split
    · exact restamp (beaconAir (onlyIf h.abandonSlot.sendStop (fun k => k.frontEnd)))
    · exact onlyIf h.abandonSlot.sendStop (fun k => k.frontEnd)

theorem State.keepsSchedule.beginStorm (h : r.keepsSchedule s) : r.keepsSchedule s.beginStorm :=
  foldl (foldl (elsewhere h.elsewhere) (fun h => h.modHop)) (fun h => h.latchPort)

theorem State.keepsSchedule.restartStorm (h : r.keepsSchedule s) : r.keepsSchedule s.restartStorm :=
  h.foldl (fun h => latchPort (ite h.elsewhere (modHop h.elsewhere)))

theorem State.keepsSchedule.holdFrames (h : r.keepsSchedule s) : r.keepsSchedule s.holdFrames := h.holdAll.holdBodies

theorem State.keepsSchedule.latchEffects {hostCode : Option Nat} {flood : Bool} (h : r.keepsSchedule s) :
    r.keepsSchedule (s.latchEffects hostCode flood) :=
  holdFrames (raise (onlyIf (settleOuts (beginStorm (freezeAll (releaseClaims h.elsewhere)))) (fun k => k.floodStop)))

theorem State.keepsSchedule.joinEvent {src : Nat} {stop : Bool} {hostCode : Option Nat} {flood was : Bool} {wasCode : Option Nat}
    (h : r.keepsSchedule s) : r.keepsSchedule (s.joinEvent src stop hostCode flood was wasCode) :=
  onlyElse (elsewhere (h.unflood.ite h)) (fun k => holdFrames (elsewhere (onlyIf (k.restartStorm.settleOuts.ite k) (fun k' =>
      k'.floodStop))))

theorem State.keepsSchedule.undoRelease (h : r.keepsSchedule s) : r.keepsSchedule s.undoRelease := by
  unfold State.undoRelease
  split
  · exact h.ite (holdFrames (elsewhere (settleOuts h.elsewhere)))
  · exact h

theorem State.keepsSchedule.stopRequest {src : Nat} {stop : Bool} {hostCode : Option Nat} {flood : Bool} (h : r.keepsSchedule s) :
    r.keepsSchedule (s.stopRequest src stop hostCode flood) := by
  unfold State.stopRequest
  refine ite (latchEffects (elsewhere h.undoRelease.elsewhere)) ?_
  split
  · dsimp only
    split
    · exact joinEvent h.undoRelease.elsewhere
    · exact latchEffects h.undoRelease.elsewhere
  · dsimp only
    split
    · exact joinEvent h.undoRelease.elsewhere
    · exact raise h.undoRelease.elsewhere

theorem State.keepsSchedule.lastFlood (h : r.keepsSchedule s) : r.keepsSchedule s.lastFlood := by
  unfold State.lastFlood
  refine h.ite (foldl (sendFabStop h.elsewhere) (fun h => ?_))
  split
  · exact h.modPort.emit
  · exact h

theorem State.keepsSchedule.haltForHold (h : r.keepsSchedule s) : r.keepsSchedule s.haltForHold := h.freezeMirage.cleanLines.elsewhere

theorem State.keepsSchedule.stopClock (h : r.keepsSchedule s) : r.keepsSchedule s.stopClock := h.ppsEnd.elsewhere

theorem State.keepsSchedule.silenceRadios (h : r.keepsSchedule s) : r.keepsSchedule s.silenceRadios := h.elsewhere

theorem State.keepsSchedule.noteRefusal {reason rule : Nat} (h : r.keepsSchedule s) : r.keepsSchedule (s.noteRefusal reason rule) :=
  h.elsewhere

/-- A commit that is taken back leaves the threads as they are. -/
theorem State.abandonCheck_order (s : State) :
    s.abandonCheck.plan.held = s.plan.held ∧ (s.plan.orderly → s.abandonCheck.plan.orderly) := by
  have key (v : State) : v.keepsSchedule (if v.ppsOn then v else v.ppsEnd).reselect :=
    State.keepsSchedule.reselect (v.keepsSchedule_refl.ite v.keepsSchedule_refl.ppsEnd)
  unfold State.abandonCheck
  split
  · exact ⟨rfl, (·)⟩
  · dsimp only
    split
    · exact ⟨rfl, (·)⟩
    · exact ⟨(key _).held, fun o => (key _).order ⟨o.threads, o.ready, o.cores, o.lists, o.on⟩⟩

theorem State.keepsSchedule.stormAll (h : r.keepsSchedule s) : r.keepsSchedule s.stormAll := h.foldl (fun h => h.modHop)

theorem State.keepsSchedule.addCause {cause : Nat} (h : r.keepsSchedule s) : r.keepsSchedule (s.addCause cause) :=
  onlyIf (ite (silenceRadios h.inPwr) h.inPwr) (fun k => k.stopClock)

/-- The entry to SAFE_HOLD: what was taken back brings no thread anywhere. -/
theorem State.keepsSchedule_enterHold {s : State} (hs : s.pwr.state = .waitHost ∨ s.pwr.state = .run) (cause : Nat) :
    s.keepsSchedule (s.abandonCheck.enterHold cause) := by
  obtain ⟨hh, ho⟩ := s.abandonCheck_order
  unfold State.enterHold
  extract_lets v w x
  have hx : s.abandonCheck.keepsSchedule x :=
      (s.abandonCheck.keepsSchedule_refl.addCause.stopRequest.lastFlood.raise.startFlush).signalErr
  have hy := (State.keepsSchedule_refl { x with pwr := { x.pwr with state := .safeHold } }).haltForHold.stormAll.settleOuts.mark
    (k := T.safeHold)
  have held := hy.held.trans (hx.held.trans hh)
  have order (o : s.plan.orderly) := hy.order (have o := hx.order (ho o); ⟨o.threads, o.ready, o.cores, o.lists, o.on⟩)
  have awake : s.plan.awake ↔ s.plan.held = false := by
    refine ⟨fun a => a.1, fun a => ⟨a, ?_⟩⟩
    rcases hs with hs | hs <;> rw [show s.plan.state = _ from hs] <;> decide
  have awake' : Plan.awake ({ x with pwr := { x.pwr with state := .safeHold } } : State).plan ↔ s.plan.held = false := by
    rw [← hh, ← hx.held]
    exact ⟨fun a => a.1, fun a => ⟨a, nofun, nofun⟩⟩
  refine ⟨held, (hy.awake.trans awake').trans awake.symm, order, fun hq => ?_⟩
  have hn : s.plan.held = false := by
    by_contra hc
    obtain ⟨h1, h2⟩ := hq.held (by simpa using hc)
    rcases hs with hs | hs
    · exact h1 hs
    · exact h2 hs
  refine hy.settled ⟨have o := hx.order (ho hq.order); ⟨o.threads, o.ready, o.cores, o.lists, o.on⟩, fun _ => ⟨nofun, nofun⟩,
    fun a => absurd (awake'.2 hn) a⟩

theorem State.keepsSchedule.fatal {cause : Nat} (h : r.keepsSchedule s) : r.keepsSchedule (s.fatal cause) := by
  by_cases hs : s.pwr.state = .waitHost ∨ s.pwr.state = .run
  · rw [State.fatal_of_up hs]
    exact h.trans (State.keepsSchedule_enterHold hs cause)
  · unfold State.fatal
    split
    · next e => exact absurd (.inl e) hs
    · next e => exact absurd (.inr e) hs
    · exact h.addCause.raise.ite h
    · exact h

/-! #### Power -/

theorem State.keepsSchedule.moveBoundary (h : r.keepsSchedule s) : r.keepsSchedule s.moveBoundary :=
  ite h.elsewhere (ite (foldl h.elsewhere (fun h => h.logRecord)) h)

/-- A plan with no thread in a list or on a core is in order. -/
theorem Plan.orderly_of_empty {q : Plan} (ht : tsorted q.threads) (hr : q.ready = []) (hc : q.cores = []) : q.orderly := by
  refine ⟨ht, by simp [hr, tsorted], by simp [hc, tsorted], fun p => ?_, fun c k _ hk => ?_⟩
  · simp [Plan.list, hr, tget]
  · simp [Plan.running, hc] at hk

/-- A device in reset is settled, whatever it did before. -/
theorem State.restart_settled (s : State) (cause : Nat) : (s.restart cause).plan.settled := by
  unfold State.restart
  exact (State.keepsSchedule_refl _).moveBoundary.settled ⟨Plan.orderly_of_empty (q := State.plan _) (List.Pairwise.nil) rfl rfl,
    fun _ => ⟨nofun, nofun⟩, fun _ => ⟨rfl, rfl⟩⟩

theorem State.restart_held (s : State) (cause : Nat) : (s.restart cause).plan.held = true := by
  unfold State.restart
  exact (State.keepsSchedule_refl _).moveBoundary.held

theorem State.keepsSchedule.seed (h : r.keepsSchedule s) : r.keepsSchedule s.seed := ite h.elsewhere h.elsewhere

theorem State.keepsSchedule.execPfailFall {now : Timed Nat} (h : r.keepsSchedule s) : reaches (execPfailFall now s) r.keepsSchedule :=
  ⟨_, rfl, h.elapse.ite (ite h.elapse.inPwr (startFlush (raise (ite (stopRequest h.elapse.inPwr) h.elapse.inPwr))))⟩

theorem State.keepsSchedule.execPfailClear {dt : Nat} (h : r.keepsSchedule s) : reaches (execPfailClear dt s) r.keepsSchedule :=
  ⟨_, rfl, h.elapse.ite (ite h.elapse.inPwr (raise h.elapse.inPwr))⟩

theorem State.keepsSchedule.execStageMonSample {dt ps : Nat} (h : r.keepsSchedule s) :
    reaches (execStageMonSample dt ps s) r.keepsSchedule :=
  ⟨_, rfl, h.elapse.ite (onlyIf h.elapse.mark.inPwr (fun k => k.raise))⟩

theorem State.keepsSchedule.execStageSlowFatal {dt : Nat} (h : r.keepsSchedule s) : reaches (execStageSlowFatal dt s) r.keepsSchedule := by
  refine ⟨_, rfl, ?_⟩
  split
  · exact h.elapse.ite h.elapse.fatal
  · exact h.elapse

theorem State.keepsSchedule.execDieLinkFail {dt : Nat} (h : r.keepsSchedule s) : reaches (execDieLinkFail dt s) r.keepsSchedule :=
  ⟨_, rfl, h.elapse.ite h.elapse.fatal⟩

theorem State.keepsSchedule.execSecurityCoreFault {dt : Nat} (h : r.keepsSchedule s) :
    reaches (execSecurityCoreFault dt s) r.keepsSchedule :=
  ⟨_, rfl, h.elapse.ite h.elapse.fatal⟩

theorem State.keepsSchedule.execPwrTempSample {dt : Nat} {tj : Int} (h : r.keepsSchedule s) :
    reaches (execPwrTempSample dt tj s) r.keepsSchedule :=
  ⟨_, rfl, h.elapse.ite (ite (raise h.elapse.inPwr) h.elapse.inPwr)⟩

theorem State.keepsSchedule.execBackupSupplySwitch {dt : Nat} {supply : Supply} {levels : BitVec 4} (h : r.keepsSchedule s) :
    reaches (execBackupSupplySwitch dt supply levels s) r.keepsSchedule := ⟨_, rfl, h.elapse.inPwr⟩

/-! #### Boot -/

theorem State.keepsSchedule.commitPtr {p : BootPtr} {run : NvRun} (h : r.keepsSchedule s) : r.keepsSchedule (s.commitPtr p run).1 := by
  unfold State.commitPtr
  split
  · next e => exact elsewhere (of_eq h.bootWrite e)
  · next e => exact elsewhere (of_eq h.bootWrite e)
  · next e => exact (of_eq h.bootWrite e)

theorem State.keepsSchedule.noteFail {n : Nat} (h : r.keepsSchedule s) : r.keepsSchedule (s.noteFail n) := h.elsewhere

/-- The ROM of a device that is not awake boots a slot, or enters `RECOVERY`. -/
theorem State.bootActive_settled {s : State} (h : s.plan.settled) (ha : ¬ s.plan.awake) (run : NvRun) :
    (s.bootActive run).plan.settled := by
  have k := s.keepsSchedule_refl
  unfold State.bootActive
  dsimp only
  split
  · exact k.loadImage.settled h
  · split
    · split
      · next e => exact (k.noteFail.commitPtr.of_eq e).settled h
      · next e => exact (k.noteFail.commitPtr.of_eq e).raise.loadImage.settled h
    · obtain ⟨hr, hc⟩ := h.asleep ha
      exact ⟨⟨h.order.threads, h.order.ready, h.order.cores, h.order.lists, h.order.on⟩, fun _ => ⟨nofun, nofun⟩,
        fun _ => ⟨hr, hc⟩⟩

theorem State.rollback_settled {s : State} (h : s.plan.settled) (ha : ¬ s.plan.awake) (run : NvRun) :
    (s.rollback run).plan.settled := by
  have k := s.keepsSchedule_refl
  have boots {u : State} (hu : s.keepsSchedule u) : (u.bootActive (runNext run)).plan.settled :=
    State.bootActive_settled (hu.settled h) (mt hu.awake.1 ha) _
  unfold State.rollback
  split
  · next e => exact (k.commitPtr.of_eq e).settled h
  · next e => exact boots (State.keepsSchedule.raise (State.keepsSchedule.elsewhere (k.commitPtr.of_eq e)))

theorem State.keepsSchedule.migrateSlot {x : State × NvRun × NvEnd} {e : Nat × Migration} (h : r.keepsSchedule x.1) :
    r.keepsSchedule (Machine.migrateSlot x e).1 := by
  unfold Machine.migrateSlot
  split
  · split
    · exact h
    · split
      · next e => exact (State.keepsSchedule.of_eq (State.keepsSchedule.nvWrite h) e).updateSlot
      · next e => exact (State.keepsSchedule.of_eq (State.keepsSchedule.nvWrite h) e).tearSlot
      · next e => exact State.keepsSchedule.of_eq (State.keepsSchedule.nvWrite h) e
  · exact h

theorem State.keepsSchedule.applyMigration {run : NvRun} (h : r.keepsSchedule s) : r.keepsSchedule (s.applyMigration run).1 :=
  foldl_pair h (fun h => h.migrateSlot)

theorem State.keepsSchedule.endMigration {run : NvRun} (h : r.keepsSchedule s) : r.keepsSchedule (s.endMigration run).1 := by
  unfold State.endMigration
  split
  · next e => exact (h.commitPtr.of_eq e).elsewhere
  · next e => exact (h.commitPtr.of_eq e)

theorem State.keepsSchedule.finishMigration {run : NvRun} (h : r.keepsSchedule s) : r.keepsSchedule (s.finishMigration run).1 := by
  unfold State.finishMigration
  split
  · next e => exact (h.applyMigration.of_eq e).endMigration
  · exact h.applyMigration

theorem State.keepsSchedule.migrateNow {run : NvRun} (h : r.keepsSchedule s) : r.keepsSchedule (s.migrateNow run).1 := by
  unfold State.migrateNow
  refine h.ite_fst ?_
  split
  · next e => exact (h.commitPtr.of_eq e).finishMigration
  · next e => exact (h.commitPtr.of_eq e)

theorem State.keepsSchedule.startKeys (h : r.keepsSchedule s) : r.keepsSchedule s.startKeys :=
  deriveRoots (onlyIf (elsewhere (ite (raise h.elsewhere) h)) (fun k => k.newEpoch))

/-- The first thread starts on a device that was not awake. -/
theorem State.placeFirst_settled {s u : State} (h : s.plan.settled) (hi : s.plan.held = false) (ha : ¬ s.plan.awake)
    (hd : u.dis = s.dis) (hp : u.pwr = { s.pwr with state := .waitHost }) (f : Thread → Thread) :
    ((u.modThread 0 f).place 0).plan.settled := by
  obtain ⟨hr, hc⟩ := h.asleep ha
  have er : u.plan.ready = [] := (congrArg Dis.ready hd).trans hr
  have ec : u.plan.cores = [] := (congrArg Dis.cores hd).trans hc
  have ht : tsorted u.dis.threads := by
    rw [hd]
    exact h.order.threads
  have hl : u.plan.loose 0 := by
    refine ⟨fun p => ?_, fun c _ => ?_⟩
    · rw [Plan.list, er]
      exact List.not_mem_nil
    · rw [Plan.running, ec]
      nofun
  have hp : ((u.modThread 0 f).place 0).pwr = { s.pwr with state := .waitHost } := (State.place_pwr _ 0).trans hp
  have hs : ((u.modThread 0 f).place 0).plan.state = .waitHost := congrArg Pwr.state hp
  have aw : ((u.modThread 0 f).place 0).plan.awake := by
    refine ⟨(congrArg Pwr.inReset hp).trans hi, ?_, ?_⟩ <;> rw [hs] <;> decide
  exact ⟨(Plan.orderly.place (s := u.modThread 0 f) (Plan.orderly_of_empty (tsorted_tmod ht _ _ _) er ec) ((State.loose_modThread f).2
      hl)).1,
    fun hh => absurd (aw.1.symm.trans hh) (by decide), fun hn => absurd aw hn⟩

theorem State.startCores_settled {s : State} (h : s.plan.settled) (hi : s.plan.held = false) (ha : ¬ s.plan.awake) :
    s.startCores.plan.settled :=
  State.placeFirst_settled (u := { s with pwr := { s.pwr with state := .waitHost } }) h hi ha rfl rfl _

theorem State.keepsSchedule.beginUpdate {l : List Byte} (h : r.keepsSchedule s) : r.keepsSchedule (s.beginUpdate l).1 := by
  unfold State.beginUpdate
  dsimp only
  split
  · exact noteFail h.elsewhere
  · exact elsewhere (flashWrite (eraseSlot h.elsewhere))

theorem State.keepsSchedule.writeUpdate {u : Update} {b : List Byte} (h : r.keepsSchedule s) : r.keepsSchedule (s.writeUpdate u b) :=
  elsewhere h.flashWrite

theorem State.keepsSchedule.writeTable {u : Update} {run : NvRun} (h : r.keepsSchedule s) : r.keepsSchedule (s.writeTable u run).1 := by
  unfold State.writeTable
  refine ite_fst h.elsewhere ?_
  split
  · next e => exact elsewhere (of_eq h.bootWrite e)
  · next e => exact (of_eq h.bootWrite e)

theorem State.keepsSchedule.finishUpdate {run : NvRun} (h : r.keepsSchedule s) : r.keepsSchedule (s.finishUpdate run).1 := by
  unfold State.finishUpdate
  split
  · exact h
  · refine h.ite_fst (h.ite_fst (h.ite_fst (h.noteFail.ite_fst ?_)))
    split
    · next e =>
        split
        · next e' => exact elsewhere (of_eq (commitPtr (of_eq h.writeTable e)) e')
        · next e' => exact (of_eq (commitPtr (of_eq h.writeTable e)) e')
    · next e => exact (of_eq h.writeTable e)

theorem State.keepsSchedule.unlessHeld {d : Desc} {f : State → State} (h : r.keepsSchedule s)
    (hf : ∀ {s : State}, r.keepsSchedule s → r.keepsSchedule (f s)) : r.keepsSchedule (s.unlessHeld d f) := h.complete.ite (hf h)

theorem State.keepsSchedule.completeNv {d : Desc} {st : Option Nat} (h : r.keepsSchedule s) : r.keepsSchedule (s.completeNv d st) := by
  unfold State.completeNv
  split
  · exact h.complete
  · exact h.wait

theorem State.keepsSchedule.execBootUpdateBegin {dt ring index : Nat} {payload : List Byte} (h : r.keepsSchedule s) :
    reaches (execBootUpdateBegin dt ring index payload s) r.keepsSchedule := by
  refine ⟨_, rfl, ?_⟩
  refine h.elapse.withDesc (fun h => h.unlessHeld (fun h => h.complete.ite (h.complete.ite (h.complete.ite ?_))))
  split
  · next e => exact (h.beginUpdate.of_eq e).complete
  · next e => exact (h.beginUpdate.of_eq e).complete

theorem State.keepsSchedule.execBootUpdateWrite {dt ring index : Nat} {payload : List Byte} (h : r.keepsSchedule s) :
    reaches (execBootUpdateWrite dt ring index payload s) r.keepsSchedule := by
  refine ⟨_, rfl, ?_⟩
  refine h.elapse.withDesc (fun h => h.unlessHeld (fun h => h.complete.ite ?_))
  split
  · exact h.complete
  · exact h.complete.ite (h.complete.ite (complete h.writeUpdate))

theorem State.keepsSchedule.confirmPtr {run : NvRun} (h : r.keepsSchedule s) : r.keepsSchedule (s.confirmPtr run).1 := h.commitPtr

theorem State.keepsSchedule.execBootConfirm {dt ring index : Nat} {run : NvRun} (h : r.keepsSchedule s) :
    reaches (execBootConfirm dt ring index run s) r.keepsSchedule := by
  refine ⟨_, rfl, ?_⟩
  refine h.elapse.withDesc (fun h => h.unlessHeld (fun h => h.complete.ite (h.complete.ite ?_)))
  split
  · next e =>
      split
      · dsimp only
        split
        · next e' => exact complete (raise (of_eq (confirmPtr ((h.migrateNow.of_eq e).elsewhere)) e'))
        · next e' => exact completeNv (of_eq (confirmPtr ((h.migrateNow.of_eq e).elsewhere)) e')
      · dsimp only
        split
        · next e' => exact ((((h.migrateNow.of_eq e).confirmPtr).of_eq e').raise).complete
        · next e' => exact (((h.migrateNow.of_eq e).confirmPtr).of_eq e').completeNv
  · next e => exact (h.migrateNow.of_eq e).completeNv

theorem State.keepsSchedule.execBootExtend {now : Timed NvRun} {ring index : Nat} {payload : List Byte} (h : r.keepsSchedule s) :
    reaches (execBootExtend now ring index payload s) r.keepsSchedule :=
  ⟨_, rfl, h.elapse.withDesc (fun h => h.unlessHeld (fun h => h.complete.ite (h.complete.ite h.extend.completeNv)))⟩

theorem State.keepsSchedule.execBootPeerServe {dt ring index : Nat} (h : r.keepsSchedule s) :
    reaches (execBootPeerServe dt ring index s) r.keepsSchedule := by
  refine ⟨_, rfl, ?_⟩
  refine h.elapse.withDesc (fun h => h.unlessHeld (fun h => ?_))
  dsimp only
  split
  · exact h.wait.servePeer.ite h.wait
  · exact h.wait

theorem State.keepsSchedule.execBootLogRead {dt ring index : Nat} (h : r.keepsSchedule s) :
    reaches (execBootLogRead dt ring index s) r.keepsSchedule :=
  ⟨_, rfl, h.elapse.withDesc (fun h => h.unlessHeld (fun h => h.complete.ite (complete h.writePayload)))⟩

theorem State.keepsSchedule.execRecoveryRequestSend {dt : Nat} (h : r.keepsSchedule s) :
    reaches (execRecoveryRequestSend dt s) r.keepsSchedule :=
  ⟨_, rfl, h.elapse.ite h.elapse.mark.nextSeq.enqueueFrame⟩

theorem State.keepsSchedule.recoveryBytes {b : List Byte} (h : r.keepsSchedule s) : r.keepsSchedule (s.recoveryBytes b) := by
  unfold State.recoveryBytes
  split
  · exact h.writeUpdate
  · refine ite h.elsewhere ?_
    dsimp only
    split
    · exact h.beginUpdate.writeUpdate
    · exact h.beginUpdate

theorem State.keepsSchedule.execNvmCfgGet {dt ring index : Nat} (h : r.keepsSchedule s) :
    reaches (execNvmCfgGet dt ring index s) r.keepsSchedule := by
  refine ⟨_, rfl, ?_⟩
  refine h.elapse.withDesc (fun h => h.complete.ite (h.complete.ite (h.complete.ite ?_)))
  split
  · exact h.complete
  · exact h.complete.ite (complete h.writePayload)

theorem State.keepsSchedule.userXfer {d : Desc} {f : State → Desc → Nat → State} (h : r.keepsSchedule s)
    (hf : ∀ {s : State} {d : Desc} {n2 : Nat}, r.keepsSchedule s → r.keepsSchedule (f s d n2)) : r.keepsSchedule (s.userXfer d f) :=
  h.complete.ite (h.complete.ite (h.complete.ite (h.complete.ite (h.complete.ite (hf h)))))

theorem State.keepsSchedule.putUser {a : Nat} {b : List Byte} (h : r.keepsSchedule s) : r.keepsSchedule (s.putUser a b) := h.elsewhere

theorem State.keepsSchedule.userBlock {x : State × NvRun × NvEnd} {o blk : Nat} {b : List Byte} (h : r.keepsSchedule x.1) :
    r.keepsSchedule (Machine.userBlock o b x blk).1 := by
  obtain ⟨s, run, e⟩ := x
  unfold Machine.userBlock
  dsimp only
  split
  · exact h
  · refine State.keepsSchedule.ite_fst h ?_
    split
    · next e => exact State.keepsSchedule.of_eq (State.keepsSchedule.nvWrite h) e
    · next e => exact State.keepsSchedule.putUser (State.keepsSchedule.elsewhere (State.keepsSchedule.of_eq (State.keepsSchedule.nvWrite
          h) e))
    · next e => exact (State.keepsSchedule.of_eq (State.keepsSchedule.nvWrite h) e).putUser

theorem State.keepsSchedule.execNvmUserWrite {dt ring index : Nat} {payload : List Byte} {run : NvRun} (h : r.keepsSchedule s) :
    reaches (execNvmUserWrite dt ring index payload run s) r.keepsSchedule :=
  ⟨_, rfl, h.elapse.withDesc (fun h => h.userXfer (fun h => completeNv (foldl_pair h (fun h => h.userBlock))))⟩

theorem State.keepsSchedule.execNvmUserRead {dt ring index : Nat} (h : r.keepsSchedule s) :
    reaches (execNvmUserRead dt ring index s) r.keepsSchedule :=
  ⟨_, rfl, h.elapse.withDesc (fun h => h.complete.ite (h.userXfer (fun h => complete h.writePayload)))⟩

/-! #### Dispatcher -/

/-- The cores run, so that the plan is awake. -/
theorem State.awake_of_coresRun {s : State} (h : s.coresRun = true) : s.plan.awake := by
  simp only [State.coresRun, Bool.and_eq_true, Bool.or_eq_true, decide_eq_true_eq, Bool.not_eq_true'] at h
  obtain ⟨h1, h2⟩ := h
  refine ⟨h2, ?_⟩
  rcases h1 with h1 | h1 <;> rw [show s.plan.state = _ from h1] <;> decide

/-- An instruction on a core runs in a plan that is awake, by the core's thread. -/
theorem State.keepsSchedule.onCore {core : Nat} {f : State → Nat → State} (h : r.keepsSchedule s)
    (hf : ∀ {k : Nat}, s.plan.awake → s.running core = some k → s.keepsSchedule (f s k)) : r.keepsSchedule (s.onCore core f) := by
  unfold State.onCore
  split
  · exact h
  · next hc =>
    split
    · next hr => exact (h.trans (hf (State.awake_of_coresRun (by simpa using hc)) hr)).noteTraceDrop
    · exact h

theorem State.keepsSchedule.retire {k : Nat} (h : r.keepsSchedule s) : r.keepsSchedule (s.retire k) :=
  h.modThread_stays ⟨rfl, rfl, rfl, rfl⟩

theorem State.keepsSchedule.retireRd {k rd : Nat} {v : Word} (h : r.keepsSchedule s) : r.keepsSchedule (s.retireRd k rd v) :=
  h.modThread_stays ⟨rfl, rfl, rfl, rfl⟩

theorem State.keepsSchedule.trap {core k : Nat} {cause : Word} (h : r.keepsSchedule s) : r.keepsSchedule (s.trap core k cause) :=
  draw (h.modThread_stays ⟨rfl, rfl, rfl, rfl⟩)

theorem State.keepsSchedule.trapIllegal {core k : Nat} (h : r.keepsSchedule s) : r.keepsSchedule (s.trapIllegal core k) := h.trap

theorem State.keepsSchedule.machineCsr {core : Nat} {f : State → State} (h : r.keepsSchedule s)
    (hf : ∀ {k : Nat}, s.plan.awake → s.keepsSchedule (f (s.retire k))) : r.keepsSchedule (s.machineCsr core f) :=
  h.onCore fun ha _ => s.keepsSchedule_refl.trapIllegal.ite (hf ha)

theorem State.keepsSchedule.select {core thread : Nat} (h : r.keepsSchedule s) : r.keepsSchedule (s.select core thread) := h.inDis

theorem State.keepsSchedule.onSelected {core thread : Nat} {f : State → State} (h : r.keepsSchedule s)
    (hf : ∀ {k : Nat}, s.plan.awake → s.keepsSchedule (f ((s.retire k).select core thread))) :
    r.keepsSchedule (s.onSelected core thread f) :=
  h.machineCsr fun ha => hf ha

theorem State.keepsSchedule.startThread {k : Nat} (h : r.keepsSchedule s) (ha : r.plan.awake) : r.keepsSchedule (s.startThread k) := by
  unfold State.startThread
  dsimp only
  split
  · exact h
  · next hc =>
    have hk : (s.thread k).state = .free := by
      by_contra hn
      exact hc (by simp [hn])
    refine h.of_awake ha (State.place_pwr _ _) fun o => ?_
    have hl : s.plan.loose k := o.loose (by rw [show s.plan.thread k = s.thread k from rfl, hk]; decide)
      (by rw [show s.plan.thread k = s.thread k from rfl, hk]; decide)
    exact ((o.modThread hl _).place hl).1

/-- A `RUNNING` thread that takes another state leaves its core, which takes the next. -/
theorem Plan.orderly.leaveCore {s : State} (h : s.plan.orderly) {k : Nat} (hk : (s.thread k).state = .running) (f : Thread → Thread)
    (why : TraceReason) : ((s.modThread k f).refill (s.thread k).core why k).plan.orderly :=
  ((h.mono _).modThread (h.loose_of_running hk) f).refill why k

theorem State.keepsSchedule.suspendThread {k : Nat} (h : r.keepsSchedule s) (ha : r.plan.awake) : r.keepsSchedule (s.suspendThread k) := by
  unfold State.suspendThread
  dsimp only
  split
  · next hk => exact h.of_awake ha rfl fun o => (o.unready k).modThread (o.loose_unready hk) _
  · next hk => exact h.of_awake ha (State.refill_pwr ..) fun o => o.leaveCore hk _ _
  · next hk =>
    exact h.of_awake ha rfl fun o => o.modThread (o.loose (k := k) (by rw [show s.plan.thread k = s.thread k from rfl, hk]; decide)
      (by rw [show s.plan.thread k = s.thread k from rfl, hk]; decide)) _
  · exact h
  · exact h

theorem State.keepsSchedule.resumeThread {k : Nat} (h : r.keepsSchedule s) (ha : r.plan.awake) : r.keepsSchedule (s.resumeThread k) := by
  unfold State.resumeThread
  split
  · next hk =>
    refine h.of_awake ha (State.place_pwr _ _) fun o => ?_
    have hl : s.plan.loose k := o.loose (by rw [show s.plan.thread k = s.thread k from rfl, hk]; decide)
      (by rw [show s.plan.thread k = s.thread k from rfl, hk]; decide)
    exact ((o.modThread hl _).place hl).1
  · exact h

theorem State.keepsSchedule.killThread {k : Nat} (h : r.keepsSchedule s) (ha : r.plan.awake) : r.keepsSchedule (s.killThread k) := by
  unfold State.killThread
  dsimp only
  split
  · next hk => exact h.of_awake ha rfl fun o => (o.unready k).modThread (o.loose_unready hk) _
  · next hk => exact h.of_awake ha (State.refill_pwr ..) fun o => o.leaveCore hk _ _
  · next h1 h2 => exact h.of_awake ha rfl fun o => o.modThread (o.loose (k := k) h1 h2) _

theorem State.keepsSchedule.execDctlStart {dt core thread : Nat} {entry arg sp : Word} (h : r.keepsSchedule s) :
    reaches (execDctlStart dt core thread entry arg sp s) r.keepsSchedule :=
  ⟨_, rfl, h.elapse.onSelected fun ha =>
    startThread (modThread_stays (select (retire (State.keepsSchedule_refl _))) ⟨rfl, rfl, rfl, rfl⟩) ha⟩

theorem State.keepsSchedule.execDctlSuspend {dt core thread : Nat} (h : r.keepsSchedule s) :
    reaches (execDctlSuspend dt core thread s) r.keepsSchedule :=
  ⟨_, rfl, h.elapse.onSelected fun ha => (select (retire (State.keepsSchedule_refl _))).suspendThread ha⟩

theorem State.keepsSchedule.execDctlResume {dt core thread : Nat} (h : r.keepsSchedule s) :
    reaches (execDctlResume dt core thread s) r.keepsSchedule :=
  ⟨_, rfl, h.elapse.onSelected fun ha => (select (retire (State.keepsSchedule_refl _))).resumeThread ha⟩

theorem State.keepsSchedule.execDctlKill {dt core thread : Nat} (h : r.keepsSchedule s) :
    reaches (execDctlKill dt core thread s) r.keepsSchedule :=
  ⟨_, rfl, h.elapse.onSelected fun ha => (select (retire (State.keepsSchedule_refl _))).killThread ha⟩

/-- A running thread keeps its core under another configuration. -/
theorem Plan.orderly.configure {s : State} {k : Nat} (h : s.plan.orderly) (hk : (s.thread k).state = .running) {f : Thread → Thread}
    (hs : (f (s.thread k)).state = .running) (hc : (f (s.thread k)).core = (s.thread k).core)
    (hm : (f (s.thread k)).met = (s.thread k).met) : (s.modThread k f).plan.orderly := by
  have ho := (h.mono (some (s.thread k).core)).modThread (h.loose_of_running hk) f
  refine ⟨ho.threads, ho.ready, ho.cores, ho.lists, fun c j _ hj => ?_⟩
  have hj' := h.on c j (by simp) hj
  by_cases e : j = k
  · subst e
    rw [show (s.modThread j f).plan.thread j = f (s.thread j) from State.thread_modThread_self h.threads _ _]
    exact ⟨hs, hc.trans hj'.2.1, hm.trans hj'.2.2⟩
  · rw [State.plan_modThread_ne _ _ e]
    exact hj'

/-- It gives way to a better one, or stays. -/
theorem Plan.orderly.yieldTo {s : State} {core k : Nat} (h : s.plan.orderly) (hl : s.plan.loose k (some core)) :
    (s.yieldTo core k).plan.orderly := by
  unfold State.yieldTo
  split
  · exact h
  · split
    · exact h
    · have ho := (h.mono (some core)).modThread hl fun th => { th with state := .ready, wakeSrc := 0x3FFFFF }
      exact ((ho.refill .preempt k).placeBy (State.refill_loose ho hl .preempt k).1 (Plan.parks_toHead k)).1

theorem State.yieldTo_pwr (s : State) (core k : Nat) : (s.yieldTo core k).pwr = s.pwr := by
  unfold State.yieldTo
  split
  · rfl
  · split
    · rfl
    · exact (State.placeBy_pwr _ _ (State.toHead_quiet · _)).trans (State.refill_pwr ..)

theorem State.keepsSchedule.dcfgWrite {k : Nat} {v : Word} (h : r.keepsSchedule s) (ha : r.plan.awake) :
    r.keepsSchedule (s.dcfgWrite k v) := by
  unfold State.dcfgWrite
  dsimp only
  split
  · next hk =>
    split
    · next hp => exact h.modThread_stays ⟨rfl, hp.symm, rfl, rfl⟩
    · refine h.of_awake ha (State.place_pwr _ _) fun o => ?_
      have hl := o.loose_unready hk
      exact (((o.unready k).modThread hl _).place hl).1
  · next hk =>
    exact h.of_awake ha (State.yieldTo_pwr ..) fun o => (o.configure hk hk rfl rfl).yieldTo (o.loose_of_running hk)
  · next h1 h2 => exact h.of_awake ha rfl fun o => o.modThread (o.loose (k := k) h1 h2) _

theorem State.keepsSchedule.execDcfgWrite {dt core thread : Nat} {value : Word} (h : r.keepsSchedule s) :
    reaches (execDcfgWrite dt core thread value s) r.keepsSchedule :=
  ⟨_, rfl, h.elapse.onSelected fun ha => (select (retire (State.keepsSchedule_refl _))).dcfgWrite ha⟩

theorem State.keepsSchedule.dcacheInv {core : Nat} (h : r.keepsSchedule s) : r.keepsSchedule (s.dcacheInv core) := h.inDis

theorem State.keepsSchedule.execDcinv {dt core : Nat} (h : r.keepsSchedule s) : reaches (execDcinv dt core s) r.keepsSchedule :=
  ⟨_, rfl, h.elapse.machineCsr fun _ => (retire (State.keepsSchedule_refl _)).dcacheInv⟩

theorem State.keepsSchedule.waitOn {core k rd : Nat} (h : r.keepsSchedule s) (ha : r.plan.awake) (hr : s.running core = some k)
    {mask : Word} {all : Bool} : r.keepsSchedule (s.waitOn core k rd mask all) := by
  unfold State.waitOn
  dsimp only
  split
  · exact h.retireRd
  · split
    · exact retireRd (h.modThread_stays ⟨rfl, rfl, rfl, rfl⟩)
    · refine h.of_awake ha (State.refill_pwr ..) fun o => ?_
      obtain ⟨hs, hc, -⟩ := o.on core k (by simp) hr
      subst hc
      exact o.leaveCore hs _ _

theorem State.keepsSchedule.execDwany {dt core rd : Nat} {mask : Word} (h : r.keepsSchedule s) :
    reaches (execDwany dt core rd mask s) r.keepsSchedule :=
  ⟨_, rfl, h.elapse.onCore fun ha hr => (State.keepsSchedule_refl _).waitOn ha hr⟩

theorem State.keepsSchedule.execDwall {dt core rd : Nat} {mask : Word} (h : r.keepsSchedule s) :
    reaches (execDwall dt core rd mask s) r.keepsSchedule :=
  ⟨_, rfl, h.elapse.onCore fun ha hr => (State.keepsSchedule_refl _).waitOn ha hr⟩

theorem State.keepsSchedule.softPost {k : Nat} {v : Word} (h : r.keepsSchedule s) (ha : r.plan.awake) :
    r.keepsSchedule (s.softPost k v) :=
  foldl (h.of_awake ha (State.eventsOnly_pwr (State.post_quiet s _ _).1) fun o => o.post _ _) fun h => h.raise

theorem State.keepsSchedule.execDpost {dt core : Nat} {value : Word} (h : r.keepsSchedule s) :
    reaches (execDpost dt core value s) r.keepsSchedule :=
  ⟨_, rfl, h.elapse.onCore fun ha _ => (retire (State.keepsSchedule_refl _)).softPost ha⟩

theorem State.keepsSchedule.yieldThread {core k : Nat} (h : r.keepsSchedule s) (ha : r.plan.awake) (hr : s.running core = some k) :
    r.keepsSchedule (s.yieldThread core k) := by
  have loose (o : s.plan.orderly) : s.plan.loose k (some core) := by
    obtain ⟨hs, hc, -⟩ := o.on core k (by simp) hr
    subst hc
    exact o.loose_of_running hs
  unfold State.yieldThread
  split
  · refine h.of_awake ha (State.refill_pwr ..) fun o => ?_
    extract_lets p u
    have hu : (u.thread k).state = .ready ∧ (u.thread k).prio = p := by
      rw [State.thread_modThread_self o.threads]
      exact ⟨rfl, rfl⟩
    have ho : u.plan.orderly (some core) := (o.mono _).modThread (loose o) _
    obtain ⟨hn, hm⟩ := ho.lists p
    refine (ho.setReady (by rw [← List.concat_eq_append]; exact hn.concat ((loose o).1 _)) fun j hj => ?_).refill _ _
    rcases List.mem_append.1 hj with hj | hj
    · exact hm j hj
    · rw [List.mem_singleton.1 hj]
      exact hu
  · split
    · exact h
    · refine h.ite (h.of_awake ha ((State.place_pwr _ _).trans (State.refill_pwr ..)) fun o => ?_)
      have ho := (o.mono (some core)).modThread (loose o) fun th => { th with state := .ready, wakeSrc := 0x3FFFFF }
      exact ((ho.refill .yield k).place (State.refill_loose ho (loose o) .yield k).1).1

theorem State.keepsSchedule.execDyield {dt core : Nat} (h : r.keepsSchedule s) : reaches (execDyield dt core s) r.keepsSchedule :=
  ⟨_, rfl, h.elapse.onCore fun ha hr => (retire (State.keepsSchedule_refl _)).yieldThread ha hr⟩

theorem State.keepsSchedule.kick {k n : Nat} (h : r.keepsSchedule s) : r.keepsSchedule (s.kick k n) := ite h.inDis h

theorem State.keepsSchedule.execDkick {dt core : Nat} {value : Word} (h : r.keepsSchedule s) :
    reaches (execDkick dt core value s) r.keepsSchedule :=
  ⟨_, rfl, h.elapse.onCore fun _ _ => (retire (State.keepsSchedule_refl _)).kick⟩

theorem State.keepsSchedule.clearFlags {k : Nat} {mask : Word} (h : r.keepsSchedule s) : r.keepsSchedule (s.clearFlags k mask) :=
  h.modThread_stays ⟨rfl, rfl, rfl, rfl⟩

theorem State.keepsSchedule.execDclr {dt core : Nat} {mask : Word} (h : r.keepsSchedule s) :
    reaches (execDclr dt core mask s) r.keepsSchedule :=
  ⟨_, rfl, h.elapse.onCore fun _ _ => (retire (State.keepsSchedule_refl _)).clearFlags⟩

theorem State.keepsSchedule.tableXfer {d : Desc} {size w first count : Nat} {f : State → Desc → Nat → Nat → State}
    (h : r.keepsSchedule s) (hf : ∀ {s : State} {d : Desc} {n2 n3 : Nat}, r.keepsSchedule s → r.keepsSchedule (f s d n2 n3)) :
    r.keepsSchedule (s.tableXfer d size w first count f) := h.complete.ite (h.countClamps.complete.ite (hf h.countClamps))

theorem State.keepsSchedule.routeXfer {d : Desc} {f : State → Desc → Nat → Nat → State} (h : r.keepsSchedule s)
    (hf : ∀ {s : State} {d : Desc} {n2 n3 : Nat}, r.keepsSchedule s → r.keepsSchedule (f s d n2 n3)) :
    r.keepsSchedule (s.routeXfer d f) := h.complete.ite (h.tableXfer (fun h => hf h))

theorem State.keepsSchedule.execDisRouteWriteStaging {dt ring index : Nat} {payload : List Byte} (h : r.keepsSchedule s) :
    reaches (execDisRouteWriteStaging dt ring index payload s) r.keepsSchedule :=
  ⟨_, rfl, h.elapse.withDesc (fun h => h.routeXfer (fun h => complete h.elsewhere))⟩

theorem State.keepsSchedule.execDisRouteReadStaging {dt ring index : Nat} (h : r.keepsSchedule s) :
    reaches (execDisRouteReadStaging dt ring index s) r.keepsSchedule :=
  ⟨_, rfl, h.elapse.withDesc (fun h => h.complete.ite (h.routeXfer (fun h => complete h.writePayload)))⟩

theorem State.keepsSchedule.execDisRouteReadActive {dt ring index : Nat} (h : r.keepsSchedule s) :
    reaches (execDisRouteReadActive dt ring index s) r.keepsSchedule :=
  ⟨_, rfl, h.elapse.withDesc (fun h => h.routeXfer (fun h => complete h.writePayload))⟩

/-! #### Caravan -/

theorem State.keepsSchedule.serveReq (h : r.keepsSchedule s) : r.keepsSchedule s.serveReq := by
  unfold State.serveReq
  split
  · exact complete (writePayload h.elsewhere)
  · exact h

theorem State.keepsSchedule.toHostQueue {x : Req} (h : r.keepsSchedule s) : r.keepsSchedule (s.toHostQueue x) :=
  serveReq (ite (raise h.elsewhere) h.elsewhere)

theorem State.keepsSchedule.turnLength {us limit : Nat} (h : r.keepsSchedule s) : r.keepsSchedule (s.turnLength us limit).2 := by
  unfold State.turnLength
  split
  · exact h
  · exact h.draw

/-- A turn's length beside the state. -/
theorem State.keepsSchedule.of_pair {α : Type} {x : α × State} {a : α} (h : r.keepsSchedule x.2) (e : x = (a, t)) : r.keepsSchedule t := by
  subst e
  exact h

theorem State.keepsSchedule.execCarRequestDecide {dt us : Nat} (h : r.keepsSchedule s) :
    reaches (execCarRequestDecide dt us s) r.keepsSchedule := by
  unfold Machine.execCarRequestDecide
  split
  next turn u e =>
  have hu : r.keepsSchedule u := h.elapse.turnLength.of_pair e
  refine ⟨_, rfl, hu.ite ?_⟩
  split
  · exact hu
  · dsimp only
    split
    · next e => exact (of_eq (carDecide hu.elsewhere) e).giveAnswer
    · next e => exact (of_eq (carDecide hu.elsewhere) e).toHostQueue

theorem State.keepsSchedule.execCarHostTimeout {dt : Nat} (h : r.keepsSchedule s) : reaches (execCarHostTimeout dt s) r.keepsSchedule := by
  refine ⟨_, rfl, ?_⟩
  refine h.elapse.ite ?_
  split
  · exact giveAnswer (raise h.elapse.elsewhere)
  · exact h.elapse

theorem State.keepsSchedule.execCarExpiry {dt : Nat} (h : r.keepsSchedule s) : reaches (execCarExpiry dt s) r.keepsSchedule :=
  ⟨_, rfl, h.elapse.ite h.elapse.mark.expireAll⟩

theorem State.keepsSchedule.withCar {ring index op : Nat} {variant : Desc → Bool} {dram : Bool} {f : State → Desc → State}
    (h : r.keepsSchedule s) (hf : ∀ {s : State} {d : Desc}, r.keepsSchedule s → r.keepsSchedule (f s d)) :
    r.keepsSchedule (s.withCar ring index op variant dram f) := by
  unfold State.withCar
  refine h.withDesc (fun h => ?_)
  split
  · exact h.complete
  · exact (hf h).ite (h.ite (h.complete.ite (hf h)))

theorem State.keepsSchedule.loadTracks {k : Nat} {l : List (List Byte)} (h : r.keepsSchedule s) : r.keepsSchedule (s.loadTracks k l).1 := by
  induction l generalizing s k with
  | nil => exact h
  | cons b l ih => exact h.trackSeen.ite_fst (ih h.trackSeen.dramWrite)

theorem State.keepsSchedule.execCarTrackLoad {dt ring index : Nat} {payload : List Byte} (h : r.keepsSchedule s) :
    reaches (execCarTrackLoad dt ring index payload s) r.keepsSchedule :=
  ⟨_, rfl, h.elapse.withCar (fun h => h.tableXfer (fun h => h.loadTracks.countClamps.complete))⟩

theorem State.keepsSchedule.execCarTrackRead {dt ring index : Nat} (h : r.keepsSchedule s) :
    reaches (execCarTrackRead dt ring index s) r.keepsSchedule :=
  ⟨_, rfl, h.elapse.withDesc (fun h => h.complete.ite (h.withCar (fun h => h.tableXfer (fun h => complete ((h.foldl (fun h =>
      h.trackSeen)).writePayload)))))⟩

theorem State.keepsSchedule.execCarTaskSet {dt ring index : Nat} {payload : List Byte} (h : r.keepsSchedule s) :
    reaches (execCarTaskSet dt ring index payload s) r.keepsSchedule :=
  ⟨_, rfl, h.elapse.withCar (fun h => h.tableXfer (fun h => complete (countClamps h.elsewhere)))⟩

theorem State.keepsSchedule.carReserve {d : Desc} {payload : List Byte} (h : r.keepsSchedule s) :
    r.keepsSchedule (s.carReserve d payload) :=
  h.complete.ite (h.complete.ite (wait h.countClamps.elsewhere))

theorem State.keepsSchedule.execCarReserve {dt ring index : Nat} {payload : List Byte} (h : r.keepsSchedule s) :
    reaches (execCarReserve dt ring index payload s) r.keepsSchedule := ⟨_, rfl, h.elapse.withCar (fun h => h.carReserve)⟩

theorem State.keepsSchedule.carReqGet {d : Desc} (h : r.keepsSchedule s) : r.keepsSchedule (s.carReqGet d) :=
  h.complete.ite (h.complete.ite (h.complete.ite h.wait.serveReq))

theorem State.keepsSchedule.execCarReqGet {dt ring index : Nat} (h : r.keepsSchedule s) :
    reaches (execCarReqGet dt ring index s) r.keepsSchedule :=
  ⟨_, rfl, h.elapse.withCar (fun h => h.carReqGet)⟩

theorem State.keepsSchedule.carRelease {d : Desc} (h : r.keepsSchedule s) : r.keepsSchedule (s.carRelease d) :=
  h.complete.ite (complete (onlyIf (ite (h.ite h.setRes) (setTrack (h.ite h.setRes))) (fun k => k.carTell)))

theorem State.keepsSchedule.execCarRelease {dt ring index : Nat} (h : r.keepsSchedule s) :
    reaches (execCarRelease dt ring index s) r.keepsSchedule :=
  ⟨_, rfl, h.elapse.withCar (fun h => h.carRelease)⟩

theorem State.keepsSchedule.carResume {d : Desc} (h : r.keepsSchedule s) : r.keepsSchedule (s.carResume d) :=
  h.complete.ite h.modCar.carTell.thaw.complete

theorem State.keepsSchedule.execCarResume {dt ring index : Nat} (h : r.keepsSchedule s) :
    reaches (execCarResume dt ring index s) r.keepsSchedule :=
  ⟨_, rfl, h.elapse.withCar (fun h => h.carResume)⟩

/-! #### FixOps -/

theorem State.keepsSchedule.abandonEpoch {m n reason : Nat} (h : r.keepsSchedule s) : r.keepsSchedule (s.abandonEpoch m n reason) :=
  raise h.elsewhere

theorem State.keepsSchedule.abandonAsm {m reason : Nat} (h : r.keepsSchedule s) : r.keepsSchedule (s.abandonAsm m reason) := by
  unfold State.abandonAsm
  split
  · exact h.abandonEpoch
  · exact h

theorem State.keepsSchedule.completeEpoch {m : Nat} {a : Assembly} (h : r.keepsSchedule s) : r.keepsSchedule (s.completeEpoch m a) := by
  unfold State.completeEpoch
  refine h.abandonEpoch.ite ?_
  split
  · exact h.abandonEpoch
  · exact h.abandonEpoch.ite (h.abandonEpoch.ite h.elsewhere)

theorem State.keepsSchedule.holdFragment {m : Nat} {a : Assembly} {i : Nat} {data : List Byte} (h : r.keepsSchedule s) :
    r.keepsSchedule (s.holdFragment m a i data) := ite (completeEpoch h.elsewhere) h.elsewhere

theorem State.keepsSchedule.takeFragment {m : Nat} {b : List Byte} (h : r.keepsSchedule s) : r.keepsSchedule (s.takeFragment m b) := by
  unfold State.takeFragment
  refine h.ite (ite h.elsewhere (ite h.elsewhere ?_))
  split
  · exact h.ite (h.abandonEpoch.ite h.holdFragment)
  · exact ite (h.ite (h.abandonEpoch.ite h.holdFragment)) (ite (h.abandonEpoch.ite (h.abandonEpoch.abandonEpoch.ite
        h.abandonEpoch.holdFragment)) h)

/-! #### GnssOps -/

theorem State.keepsSchedule.modChan {c : Nat} {f : Chan → Chan} (h : r.keepsSchedule s) : r.keepsSchedule (s.modChan c f) := h.elsewhere

theorem State.keepsSchedule.startChan {c code svid : Nat} {slot : Int} {cfg : LoopCfg} {phase doppler : Rat} (h : r.keepsSchedule s) :
    r.keepsSchedule (s.startChan c code svid slot cfg phase doppler) := h.modChan

theorem State.keepsSchedule.startDefault {c code svid : Nat} {slot : Int} {phase doppler : Rat} (h : r.keepsSchedule s) :
    r.keepsSchedule (s.startDefault c code svid slot phase doppler) := h.startChan

theorem State.keepsSchedule.learnLeap {l : Nat} (h : r.keepsSchedule s) : r.keepsSchedule (s.learnLeap l) := h.ite (raise h.elsewhere)

theorem State.keepsSchedule.loopUpdate {k : Nat} {x : LoopIn} (h : r.keepsSchedule s) : r.keepsSchedule (s.loopUpdate k x) := by
  unfold State.loopUpdate
  extract_lets c now free t dt
  split
  extract_lets disc turn code slip c2 c2' n0 c3 c4 m u v gns w
  have hu : r.keepsSchedule u := elsewhere h.modChan
  have hw : r.keepsSchedule w := by
    have hv : r.keepsSchedule v := onlyIf hu fun k => k.raise
    unfold w
    split
    · exact hv.elsewhere
    · exact hv
  clear_value w
  split
  · exact onlyIf hw fun k => k.learnLeap
  · exact hw

theorem State.keepsSchedule.latchEpoch (h : r.keepsSchedule s) : r.keepsSchedule s.latchEpoch := mark h.elsewhere

theorem State.keepsSchedule.gnsStep {e : Int} (h : r.keepsSchedule s) : r.keepsSchedule (s.gnsStep e) := h.mark.elsewhere

/-! #### MirOps -/

theorem State.keepsSchedule.riseTo {n : Nat} (h : r.keepsSchedule s) : r.keepsSchedule (s.riseTo n) :=
  ite (stopRequest (raise h.elsewhere)) (raise h.elsewhere)

theorem State.keepsSchedule.mirSettleTo {cap : Nat} (h : r.keepsSchedule s) : r.keepsSchedule (s.mirSettleTo cap) :=
  h.ite (ite (riseTo h.elsewhere) h.elsewhere)

theorem State.keepsSchedule.mirSettle (h : r.keepsSchedule s) : r.keepsSchedule s.mirSettle := h.mirSettleTo

theorem State.keepsSchedule.evalCond {check key : Nat} {holds : Bool} {systems signals : List Nat} {level : Nat} {ev : State → State}
    (h : r.keepsSchedule s) (hev : ∀ {s : State}, r.keepsSchedule s → r.keepsSchedule (ev s)) :
    r.keepsSchedule (s.evalCond check key holds systems signals level ev) := by
  unfold State.evalCond
  refine ite (ite (onlyIf (foldl (foldl h.elsewhere (fun h => h.raise)) (fun h => h.raise)) (fun k => hev k)) h.elsewhere) ?_
  split
  · exact h.elsewhere
  · exact h

theorem State.keepsSchedule.dropDisabled (h : r.keepsSchedule s) : r.keepsSchedule s.dropDisabled := h.elsewhere

theorem State.keepsSchedule.checkUniform {a : List Entry} {x : MeasIn} {fe : Nat} (h : r.keepsSchedule s) :
    r.keepsSchedule (s.checkUniform a x fe) :=
  h.ite (h.evalCond (fun h => h.raise))

theorem State.keepsSchedule.checkAgc {a : List Entry} {fe : Nat} (h : r.keepsSchedule s) : r.keepsSchedule (s.checkAgc a fe) :=
  h.ite (h.evalCond (fun h => h.raise.ite h.raise))

theorem State.keepsSchedule.learnAgc {l : List Entry} {fe : Nat} (h : r.keepsSchedule s) : r.keepsSchedule (s.learnAgc l fe) :=
  h.ite h.elsewhere

theorem State.keepsSchedule.checkCarrier {tr : Nat} {e : Entry} (h : r.keepsSchedule s) : r.keepsSchedule (s.checkCarrier tr e) := by
  unfold State.checkCarrier
  refine ite h.elsewhere ?_
  split
  · exact h.elsewhere
  · exact evalCond h.elsewhere (fun h => h)

theorem State.keepsSchedule.checkTwoAnt {a b : List Entry} (h : r.keepsSchedule s) : r.keepsSchedule (s.checkTwoAnt a b) :=
  h.ite (h.ite (evalCond h.elsewhere (fun h => h.raise)))

theorem State.keepsSchedule.checkClock {e : Option Rat} (h : r.keepsSchedule s) : r.keepsSchedule (s.checkClock e) :=
  elsewhere ((h.evalCond (fun h => h.raise)).ite h)

theorem State.keepsSchedule.checkIsys {bcast : List (Nat × Int)} (h : r.keepsSchedule s) : r.keepsSchedule (s.checkIsys bcast) :=
  h.ite (h.foldl (fun h => h.evalCond (fun h => h)))

theorem State.keepsSchedule.keepSecond {a : List Entry} {x : MeasIn} {spot : Option (Int × Int × Int)} (h : r.keepsSchedule s) :
    r.keepsSchedule (s.keepSecond a x spot) := h.elsewhere

theorem State.keepsSchedule.checkBase {a : List Entry} {x : MeasIn} {spot : Option (Int × Int × Int)} (h : r.keepsSchedule s) :
    r.keepsSchedule (s.checkBase a x spot) := h.keepSecond.ite (evalCond h.keepSecond.elsewhere (fun h => h.raise))

theorem State.keepsSchedule.checkFde {a : List Entry} {x : MeasIn} (h : r.keepsSchedule s) : r.keepsSchedule (s.checkFde a x) :=
  h.ite (onlyIf (((h.foldl (fun h => h.evalCond (fun h => h))).foldl (fun h => h.evalCond (fun h => h))).evalCond (fun h => h)) (fun k =>
      k.raise))

theorem State.keepsSchedule.mirRecord {tr : Nat} {a b : List Entry} {both second solved : Bool} {e : Option Rat} {x : MeasIn}
    (h : r.keepsSchedule s) : r.keepsSchedule (s.mirRecord tr a b both second solved e x) :=
  onlyElse (mirSettle (onlyElse (onlyIf (foldl h.elsewhere (fun h => h.checkCarrier)) (fun k => k.checkTwoAnt)) (fun k => onlyIf
      ((((k.foldl (fun h => h.checkUniform.checkAgc)).checkClock).checkIsys).checkBase) (fun k' => k'.checkFde)))) (fun k => k.foldl (fun
      h => h.learnAgc.learnAgc))

theorem State.keepsSchedule.checkRover {m tObs status : Nat} {east north : Int} (h : r.keepsSchedule s) :
    r.keepsSchedule (s.checkRover m tObs status east north) := by
  unfold State.checkRover
  refine h.ite ?_
  split
  · exact h
  · exact h.ite (mirSettle (evalCond h.elsewhere (fun h => h.raise)))

/-! #### Ptp -/

theorem State.keepsSchedule.runBmca (h : r.keepsSchedule s) : r.keepsSchedule s.runBmca :=
  onlyIf (elsewhere h.elsewhere) (fun k => k.loseSource)

theorem State.keepsSchedule.setNbrOffset {p : Nat} {off : Int} (h : r.keepsSchedule s) : r.keepsSchedule (s.setNbrOffset p off) :=
  h.modPtp.raise.ite h.modPtp

theorem State.keepsSchedule.sendPtp {p : Nat} {m : List Byte} (h : r.keepsSchedule s) : r.keepsSchedule (s.sendPtp p m) :=
  h.nextSeq.enqueueFrame

theorem State.keepsSchedule.timeSent {p : Nat} {f : List Byte} (h : r.keepsSchedule s) : r.keepsSchedule (s.timeSent p f) :=
  ite (h.pushStamp.ite h.pushStamp.sendPtp) (ite (h.pushStamp.ite h.pushStamp.sendPtp) (h.pushStamp.modPtp.ite h))

theorem State.keepsSchedule.dequeueFrame {p : Nat} (h : r.keepsSchedule s) : r.keepsSchedule (s.dequeueFrame p) := by
  unfold State.dequeueFrame
  refine h.ite ?_
  split
  · exact h
  · exact h.modPort.emit.timeSent.ite h.modPort.emit

theorem State.keepsSchedule.takeAnnounce {p : Nat} {m : List Byte} (h : r.keepsSchedule s) : r.keepsSchedule (s.takeAnnounce p m) :=
  h.modPtp.runBmca

theorem State.keepsSchedule.takeFollowUp {p : Nat} {m : List Byte} (h : r.keepsSchedule s) : r.keepsSchedule (s.takeFollowUp p m) := by
  unfold State.takeFollowUp
  split
  · exact h.ite (h.setNbrOffset.sample.ite h.setNbrOffset)
  · exact h

theorem State.keepsSchedule.takePdelay {p : Nat} {m : List Byte} {phase : Nat} (h : r.keepsSchedule s) :
    r.keepsSchedule (s.takePdelay p m phase) := by
  unfold State.takePdelay
  split
  · refine h.ite (h.modPtp.ite ?_)
    split
    · exact h.modPtp.setNbrOffset
    · exact h
  · exact h

theorem State.keepsSchedule.ptpReceive {p : Nat} {m : List Byte} {phase : Nat} (h : r.keepsSchedule s) :
    r.keepsSchedule (s.ptpReceive p m phase) :=
  h.ite (h.takeAnnounce.ite (h.modPtp.ite (h.takeFollowUp.ite (h.sendPtp.ite (h.takePdelay.ite h)))))

theorem State.keepsSchedule.ptpSend {p kind : Nat} (h : r.keepsSchedule s) : r.keepsSchedule (s.ptpSend p kind) := by
  unfold State.ptpSend
  split
  · exact h.ite h.modPtp.sendPtp
  · exact h.ite h.modPtp.sendPtp.noteClass
  · exact h.ite h.modPtp.sendPtp
  · exact h

/-! #### Fabric -/

theorem State.keepsSchedule.serveRtcm {source epoch peer : Nat} {frames : List (List Byte)} (h : r.keepsSchedule s) :
    r.keepsSchedule (s.serveRtcm source epoch peer frames) := by
  unfold State.serveRtcm
  split
  · exact h.elsewhere
  · exact complete h.writePayload

theorem State.keepsSchedule.takeCorrection {f : List Byte} (h : r.keepsSchedule s) : r.keepsSchedule (s.takeCorrection f) :=
  h.ite h.serveRtcm

theorem State.keepsSchedule.queueMessage {addr p : Nat} {b : List Byte} {d : Option Nat} (h : r.keepsSchedule s)
    (e : s.queueMessage addr p b d = some t) : r.keepsSchedule t := by
  unfold State.queueMessage at e
  split at e
  · cases e
  · cases e
    exact h.queueDl

theorem State.keepsSchedule.getD {o : Option State} (h : ∀ t, o = some t → r.keepsSchedule t) (k : r.keepsSchedule s) :
    r.keepsSchedule (o.getD s) := by
  cases o with
  | none => exact k
  | some t => exact h t rfl

theorem State.keepsSchedule.takeMachineMsg {p : Nat} {f : List Byte} (h : r.keepsSchedule s) : r.keepsSchedule (s.takeMachineMsg p f) := by
  unfold State.takeMachineMsg
  dsimp only
  refine h.hostFrame.ite ?_
  split
  · refine (raise h.elsewhere).ite ?_
    exact getD (fun _ e => h.queueMessage e) (raise h.elsewhere)
  · exact raise h.elsewhere

theorem State.keepsSchedule.takeStop {p : Nat} {f : List Byte} {relay : Bool} (h : r.keepsSchedule s) :
    r.keepsSchedule (s.takeStop p f relay) :=
  ite (raise (countOrphan h.elsewhere)) (h.ite (ite (onlyIf (h.dupAdd.relayFlood.ite h.dupAdd) (fun k => k.stopRequest)) (onlyElse (raise
      h.dupAdd.elsewhere) (fun k => k.stopRequest.ite k.stopRequest.floodStop))))

theorem State.keepsSchedule.takeRecovery {p : Nat} {f : List Byte} (h : r.keepsSchedule s) : r.keepsSchedule (s.takeRecovery p f) :=
  h.ite (servePeer (raise h.elsewhere))

theorem State.keepsSchedule.deliverFrame {p : Nat} {f : List Byte} (h : r.keepsSchedule s) : r.keepsSchedule (s.deliverFrame p f) := by
  unfold State.deliverFrame
  split
  · exact h.takeStop
  · exact h.takeDelta
  · exact h.hostFrame
  · exact h.takeCorrection
  · exact h.ite h.takeMachineMsg
  · exact h.hostFrame
  · exact h.takeRecovery
  · exact h

theorem State.keepsSchedule.takeFlood {p : Nat} {f : List Byte} (h : r.keepsSchedule s) : r.keepsSchedule (s.takeFlood p f) := by
  unfold State.takeFlood
  split
  · exact h.takeStop
  · exact h.takeClaim
  · exact h.takeLsa
  · exact h.ite (onlyElse h.dupAdd.deliverFrame (fun k => k.relayFlood))
  · exact h.ite (onlyElse h.dupAdd.deliverFrame (fun k => k.relayFlood))
  · exact h

theorem State.keepsSchedule.forwardFrame {p : Nat} {f : List Byte} (h : r.keepsSchedule s) : r.keepsSchedule (s.forwardFrame p f) := by
  unfold State.forwardFrame
  refine h.ite (ite h.elsewhere ?_)
  split
  · exact h.elsewhere
  · exact h.ite h.enqueueFrame

theorem State.keepsSchedule.handleFrame {p : Nat} {f : List Byte} (h : r.keepsSchedule s) : r.keepsSchedule (s.handleFrame p f) :=
  ite (h.takeHello.ite h) (h.ite (onlyElse (deliverFrame (h.sight.ite h)) (fun k => ite (takeFlood (h.sight.ite h)) (k.ite (forwardFrame
      (h.sight.ite h))))))

theorem State.keepsSchedule.meetLoop {f : List Byte} (h : r.keepsSchedule s) : r.keepsSchedule (s.meetLoop f) := by
  unfold State.meetLoop
  refine h.ite ?_
  split
  · exact h.meetAddr
  · exact h.meetAddr
  · exact h

theorem State.keepsSchedule.receiveFrame {p : Nat} {f : List Byte} (h : r.keepsSchedule s) : r.keepsSchedule (s.receiveFrame p f) :=
  h.ite (h.modPort.modPort.ite (h.modPort.modPort.meetLoop.ite h.modPort.handleFrame))

theorem State.keepsSchedule.receiveIf {p : Nat} {f : List Byte} {is : Bool} (h : r.keepsSchedule s) :
    r.keepsSchedule (s.receiveIf p f is) :=
  h.receiveFrame.ite h

theorem State.keepsSchedule.execFabFrameReceived {dt port : Nat} {frame : List Byte} (h : r.keepsSchedule s) :
    reaches (execFabFrameReceived dt port frame s) r.keepsSchedule := ⟨_, rfl, h.elapse.receiveFrame⟩

theorem State.keepsSchedule.execHelloReceived {dt port : Nat} {frame : List Byte} (h : r.keepsSchedule s) :
    reaches (execHelloReceived dt port frame s) r.keepsSchedule := ⟨_, rfl, h.elapse.receiveIf⟩

theorem State.keepsSchedule.execClaimReceived {dt port : Nat} {frame : List Byte} (h : r.keepsSchedule s) :
    reaches (execClaimReceived dt port frame s) r.keepsSchedule := ⟨_, rfl, h.elapse.receiveIf⟩

theorem State.keepsSchedule.execLsaReceived {dt port : Nat} {frame : List Byte} (h : r.keepsSchedule s) :
    reaches (execLsaReceived dt port frame s) r.keepsSchedule :=
  ⟨_, rfl, h.elapse.receiveIf⟩

theorem State.keepsSchedule.execMapDeltaReceived {dt port : Nat} {frame : List Byte} (h : r.keepsSchedule s) :
    reaches (execMapDeltaReceived dt port frame s) r.keepsSchedule := ⟨_, rfl, h.elapse.receiveIf⟩

theorem State.keepsSchedule.execFabCorrectionReceived {dt port : Nat} {frame : List Byte} (h : r.keepsSchedule s) :
    reaches (execFabCorrectionReceived dt port frame s) r.keepsSchedule := ⟨_, rfl, h.elapse.receiveIf⟩

theorem State.keepsSchedule.execMachineMsgReceived {dt port : Nat} {frame : List Byte} (h : r.keepsSchedule s) :
    reaches (execMachineMsgReceived dt port frame s) r.keepsSchedule := ⟨_, rfl, h.elapse.receiveIf⟩

theorem State.keepsSchedule.execFabHostFrameReceived {dt port : Nat} {frame : List Byte} (h : r.keepsSchedule s) :
    reaches (execFabHostFrameReceived dt port frame s) r.keepsSchedule := ⟨_, rfl, h.elapse.receiveIf⟩

theorem State.keepsSchedule.execFabricStopReceived {dt port : Nat} {frame : List Byte} (h : r.keepsSchedule s) :
    reaches (execFabricStopReceived dt port frame s) r.keepsSchedule := ⟨_, rfl, h.elapse.receiveIf⟩

theorem State.keepsSchedule.execBootPeerRequest {dt port : Nat} {frame : List Byte} (h : r.keepsSchedule s) :
    reaches (execBootPeerRequest dt port frame s) r.keepsSchedule := ⟨_, rfl, h.elapse.receiveIf⟩

theorem State.keepsSchedule.execFabHelloSend {dt : Nat} (h : r.keepsSchedule s) : reaches (execFabHelloSend dt s) r.keepsSchedule :=
  ⟨_, rfl, h.elapse.helloAll.holdBodies.ite h.elapse⟩

theorem State.keepsSchedule.execFabLinkTimeout {dt port : Nat} (h : r.keepsSchedule s) :
    reaches (execFabLinkTimeout dt port s) r.keepsSchedule := by
  refine ⟨_, rfl, ?_⟩
  split
  · exact h.elapse.linkFall.ite h.elapse
  · exact h.elapse

theorem State.keepsSchedule.execFabPcsLoss {dt port : Nat} {hiBer : Bool} (h : r.keepsSchedule s) :
    reaches (execFabPcsLoss dt port hiBer s) r.keepsSchedule :=
  ⟨_, rfl, h.elapse.ite h.elapse.modPort.linkFall⟩

theorem State.keepsSchedule.execFabBlockLock {dt port : Nat} (h : r.keepsSchedule s) :
    reaches (execFabBlockLock dt port s) r.keepsSchedule :=
  ⟨_, rfl, h.elapse.ite h.elapse.modPort⟩

theorem State.keepsSchedule.execFabModuleChange {dt port : Nat} {present los : Bool} (h : r.keepsSchedule s) :
    reaches (execFabModuleChange dt port present los s) r.keepsSchedule :=
  ⟨_, rfl, h.elapse.ite (h.elapse.modPort.ite h.elapse.modPort.raise)⟩

theorem State.keepsSchedule.execFabEgressDequeue {dt port : Nat} (h : r.keepsSchedule s) :
    reaches (execFabEgressDequeue dt port s) r.keepsSchedule :=
  ⟨_, rfl, h.elapse.dequeueFrame⟩

theorem State.keepsSchedule.execFabClaimRepeat {dt : Nat} (h : r.keepsSchedule s) : reaches (execFabClaimRepeat dt s) r.keepsSchedule :=
  ⟨_, rfl, ite (sendClaim h.elapse.elsewhere) h.elapse⟩

theorem State.keepsSchedule.execFabClaimWaitExpired {dt : Nat} (h : r.keepsSchedule s) :
    reaches (execFabClaimWaitExpired dt s) r.keepsSchedule :=
  ⟨_, rfl, ite (raise h.elapse.elsewhere) h.elapse⟩

theorem State.keepsSchedule.execFabLsaSend {dt : Nat} (h : r.keepsSchedule s) : reaches (execFabLsaSend dt s) r.keepsSchedule :=
  ⟨_, rfl, h.elapse.sendLsa.ite h.elapse⟩

theorem State.keepsSchedule.execFabLsaExpire {dt : Nat} (h : r.keepsSchedule s) : reaches (execFabLsaExpire dt s) r.keepsSchedule :=
  ⟨_, rfl, h.elapse.ite (lsdbChanged h.elapse.elsewhere)⟩

theorem State.keepsSchedule.execFabSpfRun {dt : Nat} (h : r.keepsSchedule s) : reaches (execFabSpfRun dt s) r.keepsSchedule := by
  refine ⟨_, rfl, ?_⟩
  split
  · exact h.elapse.runSpf.ite h.elapse
  · exact h.elapse

theorem State.keepsSchedule.execFabLearnFilterRetire {dt : Nat} (h : r.keepsSchedule s) :
    reaches (execFabLearnFilterRetire dt s) r.keepsSchedule :=
  ⟨_, rfl, h.elapse.retireSightings⟩

theorem State.keepsSchedule.execFabAgeSweep {dt : Nat} (h : r.keepsSchedule s) : reaches (execFabAgeSweep dt s) r.keepsSchedule :=
  ⟨_, rfl, (h.elapse.mark.foldl (fun h => h.ageEntry)).ite h.elapse⟩

theorem State.keepsSchedule.serveRepeat {x : StopRepeat} (h : r.keepsSchedule s) : r.keepsSchedule (s.serveRepeat x).1 := by
  unfold State.serveRepeat
  split
  · exact h
  · exact h.ite_fst h.sendFabStop

theorem State.keepsSchedule.execFabStopRepeat {dt : Nat} (h : r.keepsSchedule s) : reaches (execFabStopRepeat dt s) r.keepsSchedule :=
  ⟨_, rfl, h.elapse.ite (elsewhere (foldl_pair h.elapse (fun h => h.serveRepeat)))⟩

theorem State.keepsSchedule.deliverOwn {cls type : Nat} {body : List Byte} {hops : Nat} (h : r.keepsSchedule s) :
    r.keepsSchedule (s.deliverOwn cls type body hops) := h.nextSeq.deliverFrame

theorem State.keepsSchedule.fabSend {d : Desc} {payload : List Byte} (h : r.keepsSchedule s) : r.keepsSchedule (s.fabSend d payload) := by
  unfold State.fabSend
  extract_lets x cls relay hops n u d'
  have hu : r.keepsSchedule u := h.countClamps
  clear_value u
  split
  · exact hu.complete
  · refine hu.complete.ite (hu.complete.ite (hu.complete.ite ?_))
    split
    next v home e =>
    have hv : r.keepsSchedule v := by
      split at e
      · cases e
        exact hu.learnLookup
      · cases e
        exact hu
    split
    · exact hv.complete
    · extract_lets mseq body note
      have hn {w : State} (hw : r.keepsSchedule w) : r.keepsSchedule (note w) := hw.ite hw.elsewhere
      refine ite (hn hv).deliverOwn.complete (ite ?_ ?_)
      · exact hv.originateQueued.complete
      · split
        · exact complete hv.elsewhere
        · split
          next e1 =>
          have hw := hv.nextSeq.of_eq e1
          split
          · next e2 => exact (hn (hw.enqueueFrame.of_eq e2)).complete
          · next e2 => exact (hw.enqueueFrame.of_eq e2).complete

theorem State.keepsSchedule.execFabSend {dt ring index : Nat} {payload : List Byte} (h : r.keepsSchedule s) :
    reaches (execFabSend dt ring index payload s) r.keepsSchedule := ⟨_, rfl, h.elapse.withDesc (fun h => h.fabSend)⟩

theorem State.keepsSchedule.waitAtMost {d : Desc} {most : Nat} {p : Desc → Bool} (h : r.keepsSchedule s) :
    r.keepsSchedule (s.waitAtMost d most p) :=
  h.complete.ite h.wait

theorem State.keepsSchedule.execFabRecv {dt ring index : Nat} (h : r.keepsSchedule s) :
    reaches (execFabRecv dt ring index s) r.keepsSchedule := by
  refine ⟨_, rfl, ?_⟩
  refine h.elapse.withDesc (fun h => ?_)
  split
  · exact h.complete
  · exact h.waitAtMost

theorem State.keepsSchedule.fabLearn {d : Desc} {f : State → Desc → State} (h : r.keepsSchedule s)
    (hf : ∀ {s : State} {d : Desc}, r.keepsSchedule s → r.keepsSchedule (f s d)) : r.keepsSchedule (s.fabLearn d f) := by
  unfold State.fabLearn
  split
  · exact h.complete
  · exact hf h

theorem State.keepsSchedule.learnInsertOp {d : Desc} (h : r.keepsSchedule s) : r.keepsSchedule (s.learnInsertOp d) := by
  unfold State.learnInsertOp
  dsimp only
  split
  · exact h.draw.complete
  · exact complete h.draw.elsewhere

theorem State.keepsSchedule.execFabLearnInsert {dt ring index : Nat} (h : r.keepsSchedule s) :
    reaches (execFabLearnInsert dt ring index s) r.keepsSchedule :=
  ⟨_, rfl, h.elapse.withDesc (fun h => h.fabLearn (fun h => h.learnInsertOp))⟩

theorem State.keepsSchedule.execFabLearnRemove {dt ring index : Nat} (h : r.keepsSchedule s) :
    reaches (execFabLearnRemove dt ring index s) r.keepsSchedule := by
  refine ⟨_, rfl, ?_⟩
  refine h.elapse.withDesc (fun h => h.fabLearn (fun h => ?_))
  split
  · exact complete h.elsewhere
  · exact h.complete

theorem State.keepsSchedule.execFabLearnLookup {dt ring index : Nat} (h : r.keepsSchedule s) :
    reaches (execFabLearnLookup dt ring index s) r.keepsSchedule := by
  refine ⟨_, rfl, ?_⟩
  refine h.elapse.withDesc (fun h => h.fabLearn (fun h => ?_))
  dsimp only
  split
  · next e => exact (h.countClamps.learnLookup.of_eq e).complete
  · next e => exact (h.countClamps.learnLookup.of_eq e).complete

theorem State.keepsSchedule.execFabLearnRead {dt ring index : Nat} (h : r.keepsSchedule s) :
    reaches (execFabLearnRead dt ring index s) r.keepsSchedule :=
  ⟨_, rfl, h.elapse.withDesc (fun h => h.fabLearn (fun h => h.countClamps.complete))⟩

theorem State.keepsSchedule.execFabLearnEvent {dt ring index : Nat} (h : r.keepsSchedule s) :
    reaches (execFabLearnEvent dt ring index s) r.keepsSchedule := by
  refine ⟨_, rfl, ?_⟩
  refine h.elapse.withDesc (fun h => ?_)
  split
  · exact h.complete
  · exact h.complete.ite h.waitAtMost.serveLearn

theorem State.keepsSchedule.fabModule {d : Desc} {f : State → Desc → Nat → Nat → State} (h : r.keepsSchedule s)
    (hf : ∀ {s : State} {d : Desc} {n2 n3 : Nat}, r.keepsSchedule s → r.keepsSchedule (f s d n2 n3)) :
    r.keepsSchedule (s.fabModule d f) := by
  unfold State.fabModule
  dsimp only
  split
  · exact h.countClamps.complete
  · exact h.countClamps.complete.ite (h.countClamps.complete.ite (h.countClamps.complete.ite (hf h.countClamps)))

theorem State.keepsSchedule.execFabModuleRead {dt ring index : Nat} {data : List Byte} {ack : Bool} (h : r.keepsSchedule s) :
    reaches (execFabModuleRead dt ring index data ack s) r.keepsSchedule :=
  ⟨_, rfl, h.elapse.withDesc (fun h => h.complete.ite (h.fabModule (fun h => h.complete.ite (complete h.writePayload))))⟩

theorem State.keepsSchedule.execFabModuleWrite {dt ring index : Nat} {payload : List Byte} {acked : Nat} (h : r.keepsSchedule s) :
    reaches (execFabModuleWrite dt ring index payload acked s) r.keepsSchedule :=
  ⟨_, rfl, h.elapse.withDesc (fun h => h.complete.ite (h.fabModule (fun h => ((h.foldl (fun h => h.emit)).complete).ite ((h.foldl (fun h
      => h.emit)).complete))))⟩

/-! #### FixRtcm -/

theorem State.keepsSchedule.keepShifts {l : List Entry} (h : r.keepsSchedule s) : r.keepsSchedule (s.keepShifts l) := h.elsewhere

theorem State.keepsSchedule.countStale {n : Nat} (h : r.keepsSchedule s) : r.keepsSchedule (s.countStale n) := h.ite (raise h.elsewhere)

theorem State.keepsSchedule.queueRadio {p tr : Nat} {frames : List (List Byte)} (h : r.keepsSchedule s) :
    r.keepsSchedule (s.queueRadio p tr frames) :=
  countStale h.elsewhere

theorem State.keepsSchedule.sendFabCorr {frames : List (List Byte)} (h : r.keepsSchedule s) : r.keepsSchedule (s.sendFabCorr frames) :=
  h.ite (h.foldl (fun h => h.nextSeq.foldl (fun h => h.enqueueFrame)))

theorem State.keepsSchedule.fixMissed {tr : Nat} (h : r.keepsSchedule s) : r.keepsSchedule (s.fixMissed tr) := ite h.elsewhere h

theorem State.keepsSchedule.fixRecord {x : MeasRec} (h : r.keepsSchedule s) : r.keepsSchedule (s.fixRecord x) :=
  ite h.elsewhere (ite (elsewhere h.elsewhere) (onlyElse (elsewhere (keepShifts h.elsewhere)) (fun k => raise (serveRtcm (sendFabCorr
      (k.ite (k.foldl (fun h => h.queueRadio))))))))

/-! #### Gnss -/

theorem State.keepsSchedule.noteClamps {d : Desc} {n : Nat} (h : r.keepsSchedule s) : r.keepsSchedule (s.noteClamps d n).1 :=
  h.countClamps

theorem State.keepsSchedule.execGnsCapture {dt ring index : Nat} (h : r.keepsSchedule s) :
    reaches (execGnsCapture dt ring index s) r.keepsSchedule := by
  refine ⟨_, rfl, ?_⟩
  refine h.elapse.withDesc (fun h => ?_)
  split
  · exact h.complete
  · exact h.countClamps.complete.ite (h.countClamps.complete.ite (h.countClamps.complete.ite (wait h.countClamps.elsewhere)))

theorem State.keepsSchedule.execGnsCaptureDone {dt ring index : Nat} {i q : List (BitVec 4)} (h : r.keepsSchedule s) :
    reaches (execGnsCaptureDone dt ring index i q s) r.keepsSchedule := by
  refine ⟨_, rfl, ?_⟩
  split
  · split
    · exact ite (complete h.elapse.writePayload) h.elapse
    · exact h.elapse
  · exact h.elapse

theorem State.keepsSchedule.execGnsNavLoad {dt ring index : Nat} {payload : List Byte} (h : r.keepsSchedule s) :
    reaches (execGnsNavLoad dt ring index payload s) r.keepsSchedule :=
  ⟨_, rfl, h.elapse.withDesc (fun h => h.complete.ite (h.complete.ite (complete h.countClamps.elsewhere)))⟩

theorem State.keepsSchedule.execGnsNavSave {dt ring index : Nat} (h : r.keepsSchedule s) :
    reaches (execGnsNavSave dt ring index s) r.keepsSchedule :=
  ⟨_, rfl, h.elapse.withDesc (fun h => h.complete.ite (h.complete.ite (h.complete.ite (ite (complete h.writePayload) (complete
      h.writePayload)))))⟩

theorem State.keepsSchedule.execGnsAcq {dt ring index : Nat} (h : r.keepsSchedule s) :
    reaches (execGnsAcq dt ring index s) r.keepsSchedule := by
  refine ⟨_, rfl, ?_⟩
  refine h.elapse.withDesc (fun h => ?_)
  split
  · exact h.complete
  · exact h.complete.ite (h.complete.ite (h.countClamps.complete.ite (ite (wait h.countClamps.elsewhere) (ite (wait
        h.countClamps.elsewhere) h.countClamps.complete))))

theorem State.keepsSchedule.nextSearch (h : r.keepsSchedule s) : r.keepsSchedule s.nextSearch := h.elsewhere

theorem State.keepsSchedule.acqEnd {d : Desc} {x : AcqReq} {best : Option (Nat × Int × Rat)} {used : Nat} (h : r.keepsSchedule s) :
    r.keepsSchedule (s.acqEnd d x best used) := by
  unfold State.acqEnd
  refine nextSearch ?_
  split
  · exact complete h.elsewhere
  · exact h.complete.ite (h.complete.ite (h.complete.ite h.startDefault.complete))

theorem State.keepsSchedule.autoStart {k code svid : Nat} {slot : Int} {cell : Nat} {offset : Int} (h : r.keepsSchedule s) :
    r.keepsSchedule (s.autoStart k code svid slot cell offset) := ite h.elsewhere (startDefault h.elsewhere)

theorem State.keepsSchedule.execGnsAcqDone {dt : Nat} {search : AcqEnd} (h : r.keepsSchedule s) :
    reaches (execGnsAcqDone dt search s) r.keepsSchedule := by
  refine ⟨_, rfl, ?_⟩
  refine h.elapse.ite ?_
  split
  · split
    · split
      · exact h.elapse.ite h.elapse.acqEnd
      · exact h.elapse
    · exact h.elapse
  · refine h.elapse.ite ?_
    split
    · exact h.elapse.autoStart
    · exact h.elapse

theorem State.keepsSchedule.chanCfg {d : Desc} {f : State → Desc → Nat → State} (h : r.keepsSchedule s)
    (hf : ∀ {s : State} {d : Desc} {n : Nat}, r.keepsSchedule s → r.keepsSchedule (f s d n)) : r.keepsSchedule (s.chanCfg d f) := by
  unfold State.chanCfg
  split
  · exact h.complete
  · dsimp only
    split
    · exact h.noteClamps.complete
    · exact hf h.noteClamps

theorem State.keepsSchedule.execGnsChanStart {dt ring index : Nat} (h : r.keepsSchedule s) :
    reaches (execGnsChanStart dt ring index s) r.keepsSchedule :=
  ⟨_, rfl, h.elapse.withDesc (fun h => h.chanCfg (fun h => h.countClamps.startChan.complete))⟩

theorem State.keepsSchedule.execGnsChanRelease {dt ring index : Nat} (h : r.keepsSchedule s) :
    reaches (execGnsChanRelease dt ring index s) r.keepsSchedule :=
  ⟨_, rfl, h.elapse.withDesc (fun h => h.chanCfg (fun h => h.modChan.complete))⟩

theorem State.keepsSchedule.execGnsChanRetune {dt ring index : Nat} (h : r.keepsSchedule s) :
    reaches (execGnsChanRetune dt ring index s) r.keepsSchedule :=
  ⟨_, rfl, h.elapse.withDesc (fun h => h.complete.ite (h.chanCfg (fun h => h.complete.ite h.countClamps.modChan.complete)))⟩

theorem State.keepsSchedule.execGnsLoopUpdate {dt chan : Nat} {input : LoopIn} (h : r.keepsSchedule s) :
    reaches (execGnsLoopUpdate dt chan input s) r.keepsSchedule :=
  ⟨_, rfl, h.elapse.loopUpdate.ite h.elapse⟩

theorem State.keepsSchedule.execGnsChanTracking {dt chan : Nat} (h : r.keepsSchedule s) :
    reaches (execGnsChanTracking dt chan s) r.keepsSchedule :=
  ⟨_, rfl, h.elapse.modChan.ite h.elapse⟩

theorem State.keepsSchedule.chanGone {chan : Nat} {config : Bool} (h : r.keepsSchedule s) : r.keepsSchedule (s.chanGone chan config) :=
  h.modChan.raise

theorem State.keepsSchedule.execGnsChanLost {dt chan : Nat} (h : r.keepsSchedule s) :
    reaches (execGnsChanLost dt chan s) r.keepsSchedule :=
  ⟨_, rfl, ite (h.elapse.chanGone.modChan.ite h.elapse.chanGone) h.elapse⟩

theorem State.keepsSchedule.setGains {fe : Nat} {gains : List Nat} (h : r.keepsSchedule s) : r.keepsSchedule (s.setGains fe gains) :=
  h.elsewhere

theorem State.keepsSchedule.execGnsNosig {dt : Nat} {antB : Bool} {gains : List Nat} (h : r.keepsSchedule s) :
    reaches (execGnsNosig dt antB gains s) r.keepsSchedule :=
  ⟨_, rfl, h.elapse.ite (ite (ite (raise h.elapse.setGains.elsewhere) h.elapse.setGains) (ite (raise h.elapse.setGains.elsewhere)
      h.elapse.setGains))⟩

theorem State.keepsSchedule.execGnsNosigClear {dt : Nat} {antB : Bool} {gains : List Nat} (h : r.keepsSchedule s) :
    reaches (execGnsNosigClear dt antB gains s) r.keepsSchedule := ⟨_, rfl, h.elapse.setGains.ite h.elapse⟩

theorem State.keepsSchedule.execGnsMeasEpoch {dt : Nat} (h : r.keepsSchedule s) : reaches (execGnsMeasEpoch dt s) r.keepsSchedule :=
  ⟨_, rfl, h.elapse.latchEpoch.ite h.elapse⟩

theorem State.keepsSchedule.writeMeas {x : MeasRec} (h : r.keepsSchedule s) : r.keepsSchedule (s.writeMeas x) :=
  ite (raise h.elsewhere) (dramWrite (elsewhere (ite (dramWrite h.elsewhere) h)))

theorem State.keepsSchedule.solveTime {a : List Entry} {x : MeasIn} (h : r.keepsSchedule s) : r.keepsSchedule (s.solveTime a x).1 := by
  unfold State.solveTime
  split
  · exact h.elsewhere
  · exact ite (raise h.elsewhere) h.elsewhere

theorem State.keepsSchedule.surveySecond {spp : Option (Int × Int × Int)} (h : r.keepsSchedule s) :
    r.keepsSchedule (s.surveySecond spp) :=
  h.ite (ite (raise (elsewhere h.elsewhere)) h.elsewhere)

theorem State.keepsSchedule.deliver {l : Latch} {x : MeasIn} (h : r.keepsSchedule s) : r.keepsSchedule (s.deliver l x) := by
  unfold State.deliver
  extract_lets both ra rb gns s1 s2 s3 s4 second
  have h4 : r.keepsSchedule s4 := by
    have h3 : r.keepsSchedule s3 := (setGains h.elsewhere).writeMeas
    exact h3.writeMeas.ite h3
  clear_value s4
  split
  next s5 sol e =>
  have h5 : r.keepsSchedule s5 := of_eq (h4.solveTime.ite_fst h4) e
  extract_lets err jumped s6 s7 s8 s9 s10
  have h6 : r.keepsSchedule s6 := h5.mirRecord
  clear_value s6
  have h7 : r.keepsSchedule s7 := by
    unfold s7
    split
    · exact h6.ite h6.sample
    · exact h6
  clear_value s7
  have h8 : r.keepsSchedule s8 := h7.surveySecond.ite h7
  have h10 : r.keepsSchedule s10 := (h8.fixMissed.ite h8.fixRecord).raise
  exact h10.raise.ite h10

theorem State.keepsSchedule.execGnsMeasReady {dt : Nat} {input : MeasIn} (h : r.keepsSchedule s) :
    reaches (execGnsMeasReady dt input s) r.keepsSchedule := by
  refine ⟨_, rfl, ?_⟩
  split
  · exact h.elapse.deliver.ite h.elapse
  · exact h.elapse

/-! #### Hop -/

theorem State.keepsSchedule.listenIn {p asn i : Nat} {l : Option Listen} {a b : Nat} (h : r.keepsSchedule s) :
    r.keepsSchedule (s.listenIn p asn i l a b) :=
  h.modHop.frontEnd.ite h.modHop

theorem State.keepsSchedule.enterSlot {p asn i : Nat} (h : r.keepsSchedule s) : r.keepsSchedule (s.enterSlot p asn i) := h.listenIn

theorem State.keepsSchedule.linkLost {m : Nat} (h : r.keepsSchedule s) : r.keepsSchedule (s.linkLost m) :=
  raise h.modMach.releaseClaims.freezeLost.abandonAsm.elsewhere

theorem State.keepsSchedule.finishSlot {p : Nat} (h : r.keepsSchedule s) : r.keepsSchedule (s.finishSlot p) := by
  unfold State.finishSlot
  split
  · exact h
  · refine h.ite ?_
    split
    · split
      · exact h.modHop.frontEnd.ite (h.modHop.frontEnd.modMach.ite (h.modHop.frontEnd.linkLost.ite h.modHop.frontEnd.modMach))
      · exact h.modHop.frontEnd.modNode.ite (onlyIf h.modHop.frontEnd.modNode (fun k => k.raise))
      · exact h.modHop.frontEnd
    · split
      · exact h.modHop.ite (h.modHop.modMach.ite (h.modHop.linkLost.ite h.modHop.modMach))
      · exact h.modHop.modNode.ite (h.modHop.modNode.raise.ite h.modHop.modNode)
      · exact h.modHop

theorem State.keepsSchedule.acceptMachine {p m : Nat} {rejoin : Bool} (h : r.keepsSchedule s) :
    r.keepsSchedule (s.acceptMachine p m rejoin) := by
  unfold State.acceptMachine
  dsimp only
  split
  · exact announceTo (queueSched (h.modMach.raise.raise.ite h.modMach.raise))
  · exact queueSched (h.modMach.raise.raise.ite h.modMach.raise)

theorem State.keepsSchedule.makeJoin {p eui : Nat} {nonce : List Byte} {flags asn tx : Nat} (h : r.keepsSchedule s) :
    r.keepsSchedule (s.makeJoin p eui nonce flags asn tx).1 := by
  unfold State.makeJoin
  split
  · exact h.raise
  · split
    · exact h.countOrphan
    · split
      · dsimp only
        split
        · exact countOrphan (countOrphan h.elsewhere)
        · exact acceptMachine h.elsewhere
      · dsimp only
        split
        · exact countOrphan (countOrphan h.elsewhere)
        · split
          · exact raise (modNode h.elsewhere)
          · exact h.elsewhere

theorem State.keepsSchedule.sendAck {p ch asn nominal mode room k : Nat} (h : r.keepsSchedule s) :
    r.keepsSchedule (s.sendAck p ch asn nominal mode room k).1 := by
  unfold State.sendAck
  split
  · exact h.precompMiss
  · split
    · split
      · dsimp only
        split
        · next e' => exact (h.sendSealed.of_eq e')
        · next e' => exact onlyIf (((h.sendSealed.of_eq e').blockSent).modNode) (fun k => k.raise)
      · dsimp only
        split
        · next e' => exact (h.sendSealed.of_eq e')
        · next e' => exact onlyIf ((h.sendSealed.of_eq e').modNode) (fun k => k.raise)

theorem State.keepsSchedule.sendAnswer {p ch asn i : Nat} {a : Answer} (h : r.keepsSchedule s) :
    r.keepsSchedule (s.sendAnswer p ch asn i a) := by
  unfold State.sendAnswer
  extract_lets nominal mode cap set
  have hset {u : State} {v : Option Answer} (hu : r.keepsSchedule u) : r.keepsSchedule (set u v) := hu.modHop
  clear_value set
  split
  · split
    · next e => exact hset (h.sendAck.of_eq e)
    · next e => exact h.sendAck.of_eq e
  · split
    next u made e =>
    have hu : r.keepsSchedule u := by
      split at e
      · cases e
        exact h
      · exact h.makeJoin.of_eq e
    clear e
    split
    · extract_lets seg n part
      clear_value n part
      split
      · next e => exact hset (hu.sendSealed.of_eq e)
      · next e =>
        have hv := hu.sendSealed.of_eq e
        refine hset ?_
        split
        · exact hv.modNode
        · exact hv
    · exact hset hu.precompMiss

theorem State.keepsSchedule.sendCorrection {p ch asn i : Nat} (h : r.keepsSchedule s) : r.keepsSchedule (s.sendCorrection p ch asn i) := by
  unfold State.sendCorrection
  extract_lets q go rest room
  clear_value go
  split
  · exact h
  · split
    · exact h.missUnder
    · split
      extract_lets body
      split
      · next e => exact h.sendSealed.of_eq e
      · next e => exact elsewhere (h.sendSealed.of_eq e).modHop

theorem State.keepsSchedule.sendDownlink {p ch asn i : Nat} (h : r.keepsSchedule s) : r.keepsSchedule (s.sendDownlink p ch asn i) := by
  unfold State.sendDownlink
  dsimp only
  split
  · exact h.dropUnfit
  · split
    · exact h.dropUnfit.missUnder.ite h.dropUnfit.precompMiss
    · split
      · next e => exact (h.dropUnfit.sendSealed.of_eq e).foldl (fun h => h.blockSent)
      · next e => exact (h.dropUnfit.sendSealed.of_eq e)

theorem State.keepsSchedule.openPoll {p asn i sf : Nat} (h : r.keepsSchedule s) : r.keepsSchedule (s.openPoll p asn i sf) := by
  unfold State.openPoll
  dsimp only
  split
  · exact h.enterSlot
  · exact h.listenIn.ite (h.modNode.enterSlot.raise.ite h.listenIn)

theorem State.keepsSchedule.openShared {p asn i : Nat} (h : r.keepsSchedule s) : r.keepsSchedule (s.openShared p asn i) := h.listenIn

theorem State.keepsSchedule.stormSlot {p asn i sf ch : Nat} (h : r.keepsSchedule s) : r.keepsSchedule (s.stormSlot p asn i sf ch) := by
  unfold State.stormSlot
  refine h.enterSlot.sendBeacon.ite (ite (sendAnchor (h.ite h.enterSlot)) (h.openShared.ite (ite ?_ (sendStop (h.ite h.enterSlot)))))
  split
  · exact h.enterSlot.sendAnswer
  · exact h.enterSlot.sendStop

theorem State.keepsSchedule.ackInSpan {p asn i k : Nat} (h : r.keepsSchedule s) : r.keepsSchedule (s.ackInSpan p asn i k) := h.sendAck

theorem State.keepsSchedule.plainSlot {p asn i sf ch : Nat} (h : r.keepsSchedule s) : r.keepsSchedule (s.plainSlot p asn i sf ch) := by
  unfold State.plainSlot
  refine h.enterSlot.sendAnchor.ite ?_
  split
  · exact h.enterSlot.sendBeacon
  · exact h.enterSlot.sendCorrection
  · exact h.enterSlot.sendDownlink
  · exact h.listenIn.ite h.enterSlot
  · exact h.listenIn.ite h.enterSlot
  · split
    · exact h.enterSlot.sendAnswer
    · exact h.openShared
  · exact h.openPoll
  · refine h.enterSlot.ite ?_
    split
    · exact h.ite h.modHop.ackInSpan
    · exact h

theorem State.keepsSchedule.heardFrame {p rssi : Nat} {good : Bool} (h : r.keepsSchedule s) :
    r.keepsSchedule (s.heardFrame p rssi good) :=
  h.modHop

theorem State.keepsSchedule.badFrame {p : Nat} (h : r.keepsSchedule s) : r.keepsSchedule (s.badFrame p) := h.heardFrame.micFail

theorem State.keepsSchedule.ownSolution {m : Nat} {b : List Byte} (h : r.keepsSchedule s) : r.keepsSchedule (s.ownSolution m b) :=
  h.ite (ite (conform h.elsewhere) h.elsewhere)

theorem State.keepsSchedule.takeFeedback {m : Nat} {b : List Byte} (h : r.keepsSchedule s) : r.keepsSchedule (s.takeFeedback m b) :=
  h.ite h.elsewhere

theorem State.keepsSchedule.deliverBlock {p m asn frag type : Nat} {b : List Byte} (h : r.keepsSchedule s) :
    r.keepsSchedule (s.deliverBlock p m asn frag type b) := by
  unfold State.deliverBlock
  split
  · exact h.ownSolution
  · exact h.takeFeedback
  · exact h.takeFragment
  · exact h.trackRequest
  · exact h.hostMessage
  · exact h

theorem State.keepsSchedule.takeUplink {p m rssi : Nat} {c : CurSlot} {f : List Byte} (h : r.keepsSchedule s) :
    r.keepsSchedule (s.takeUplink p m rssi c f) := by
  unfold State.takeUplink
  split
  · exact h.badFrame
  · split
    · exact h.badFrame
    · exact (h.heardFrame.modMach.foldl (fun h => h.deliverBlock)).raise

theorem State.keepsSchedule.takeJoin {p rssi : Nat} {c : CurSlot} {f : List Byte} (h : r.keepsSchedule s) :
    r.keepsSchedule (s.takeJoin p rssi c f) := by
  unfold State.takeJoin
  refine h.badFrame.ite ?_
  split
  · exact h.countOrphan.badFrame
  · split
    · exact h.badFrame
    · exact h.heardFrame.modHop

theorem State.keepsSchedule.pollSeen {k sf : Nat} {shared : Bool} (h : r.keepsSchedule s) : r.keepsSchedule (s.pollSeen k sf shared) :=
  h.modNode.foldl (fun h => h.elsewhere)

theorem State.keepsSchedule.takePoll {p k rssi : Nat} {c : CurSlot} {shared : Bool} {f : List Byte} (h : r.keepsSchedule s) :
    r.keepsSchedule (s.takePoll p k rssi c shared f) := by
  unfold State.takePoll
  split
  · exact h.badFrame
  · split
    · exact h.badFrame
    · exact onlyElse (onlyIf h.heardFrame.pollSeen (fun k => k.hostMessage)) (fun k => k.modHop.ite (ite (k.ackInSpan.ite k) k.modHop))

theorem State.keepsSchedule.takePendant {p rssi : Nat} {c : CurSlot} {f : List Byte} (h : r.keepsSchedule s) :
    r.keepsSchedule (s.takePendant p rssi c f) := by
  unfold State.takePendant
  dsimp only
  split
  · exact onlyElse (raise h.heardFrame.elsewhere) (fun k => k.micFail.ite (h.heardFrame.stopRequest.ite h.heardFrame))
  · exact micFail (countOrphan (raise h.heardFrame.elsewhere))
  · exact raise h.heardFrame.elsewhere

theorem State.keepsSchedule.takeFrame {p rssi : Nat} {c : CurSlot} {f : List Byte} (h : r.keepsSchedule s) :
    r.keepsSchedule (s.takeFrame p rssi c f) := by
  unfold State.takeFrame
  refine h.badFrame.ite (h.takePendant.ite ?_)
  split
  · exact h.takeUplink.ite h.badFrame
  · exact h.takePoll.ite h.badFrame
  · exact h.badFrame.ite h.takeJoin
  · split
    · exact h.takePoll.ite h.badFrame
    · exact h.badFrame
  · exact h.badFrame

theorem State.keepsSchedule.radioReceive {p time rssi : Nat} {f : List Byte} (h : r.keepsSchedule s) :
    r.keepsSchedule (s.radioReceive p time rssi f) := by
  unfold State.radioReceive
  split
  · exact h
  · exact h.takeFrame.ite h.modHop

theorem State.keepsSchedule.deliverGot {p : Nat} (h : r.keepsSchedule s) : r.keepsSchedule (s.deliverGot p) := by
  unfold State.deliverGot
  split
  · exact h
  · split
    · exact h.takeFrame.ite h
    · exact h

theorem State.keepsSchedule.endSlot {p : Nat} (h : r.keepsSchedule s) : r.keepsSchedule (s.endSlot p) := h.deliverGot.finishSlot

theorem State.keepsSchedule.slotStart {p : Nat} (h : r.keepsSchedule s) : r.keepsSchedule (s.slotStart p) :=
  h.ite (h.endSlot.ite (holdForms (holdStops (h.endSlot.modHop.dutyReview.stormSlot.ite h.endSlot.modHop.dutyReview.plainSlot))))

theorem State.keepsSchedule.execSlotStart {dt port : Nat} (h : r.keepsSchedule s) : reaches (execSlotStart dt port s) r.keepsSchedule :=
  ⟨_, rfl, h.elapse.slotStart⟩

theorem State.keepsSchedule.execSlotEnd {dt port : Nat} (h : r.keepsSchedule s) : reaches (execSlotEnd dt port s) r.keepsSchedule :=
  ⟨_, rfl, h.elapse.endSlot.ite h.elapse⟩

theorem State.keepsSchedule.applyTable {p : Nat} (h : r.keepsSchedule s) : r.keepsSchedule (s.applyTable p) := by
  unfold State.applyTable
  split
  · exact h.modHop.raise
  · exact h

theorem State.keepsSchedule.portBoundary {p : Nat} (h : r.keepsSchedule s) : r.keepsSchedule (s.portBoundary p) :=
  onlyIf (onlyIf h.endSlot.applyTable.modHop (fun k => k.dropUnfit)) (fun k => k.elsewhere)

theorem State.keepsSchedule.expireCommands (h : r.keepsSchedule s) : r.keepsSchedule s.expireCommands :=
  foldl h.elsewhere (fun h => h.sectionDrop)

theorem State.keepsSchedule.supervise {n : Nat} (h : r.keepsSchedule s) : r.keepsSchedule (s.supervise n) :=
  h.ite (ite h.elsewhere (h.ite (ite (stopRequest h.elsewhere) h.elsewhere)))

theorem State.keepsSchedule.boundary (h : r.keepsSchedule s) : r.keepsSchedule s.boundary :=
  h.ite (ite h.elsewhere (ite (ite h.elsewhere (foldl h.elsewhere (fun h => h.applyTable))) (onlyIf (expireCommands (foldl h.elsewhere
      (fun h => h.portBoundary))) (fun k => k.foldl (fun h => h.supervise)))))

theorem State.keepsSchedule.execSuperframeBoundary {dt : Nat} (h : r.keepsSchedule s) :
    reaches (execSuperframeBoundary dt s) r.keepsSchedule :=
  ⟨_, rfl, h.elapse.boundary⟩

theorem State.keepsSchedule.execUplinkReceived {dt port time rssi : Nat} {frame : List Byte} (h : r.keepsSchedule s) :
    reaches (execUplinkReceived dt port time rssi frame s) r.keepsSchedule := ⟨_, rfl, h.elapse.ite h.elapse.radioReceive⟩

theorem State.keepsSchedule.execJoinReqReceived {dt port time rssi : Nat} {frame : List Byte} (h : r.keepsSchedule s) :
    reaches (execJoinReqReceived dt port time rssi frame s) r.keepsSchedule := ⟨_, rfl, h.elapse.radioReceive.ite h.elapse⟩

theorem State.keepsSchedule.execNodePollReceived {dt port time rssi : Nat} {frame : List Byte} (h : r.keepsSchedule s) :
    reaches (execNodePollReceived dt port time rssi frame s) r.keepsSchedule := ⟨_, rfl, h.elapse.radioReceive.ite h.elapse⟩

theorem State.keepsSchedule.execPendantStopReceived {dt port time rssi : Nat} {frame : List Byte} (h : r.keepsSchedule s) :
    reaches (execPendantStopReceived dt port time rssi frame s) r.keepsSchedule := ⟨_, rfl, h.elapse.radioReceive.ite h.elapse⟩

theorem State.keepsSchedule.discardDl {k : Nat} (h : r.keepsSchedule s) : r.keepsSchedule (s.discardDl k) := by
  unfold State.discardDl
  refine h.ite (raise (h.foldl (fun h => ?_)))
  dsimp only
  split
  · exact complete h.elsewhere
  · exact h.elsewhere

theorem State.keepsSchedule.execHopNodeDlDiscard {dt node : Nat} (h : r.keepsSchedule s) :
    reaches (execHopNodeDlDiscard dt node s) r.keepsSchedule :=
  ⟨_, rfl, h.elapse.discardDl.ite h.elapse⟩

theorem State.keepsSchedule.hopSend {d : Desc} {payload : List Byte} (h : r.keepsSchedule s) : r.keepsSchedule (s.hopSend d payload) := by
  unfold State.hopSend
  split
  · exact h.complete
  · dsimp only
    refine h.countClamps.complete.ite ?_
    split
    · exact h.countClamps.complete
    · refine h.countClamps.complete.ite ?_
      split
      · next e => exact (h.countClamps.queueMessage e).modDesc.wait
      · exact h.countClamps.complete

theorem State.keepsSchedule.execHopSend {dt ring index : Nat} {payload : List Byte} (h : r.keepsSchedule s) :
    reaches (execHopSend dt ring index payload s) r.keepsSchedule := ⟨_, rfl, h.elapse.withDesc (fun h => h.hopSend)⟩

theorem State.keepsSchedule.execHopRecv {dt ring index : Nat} (h : r.keepsSchedule s) :
    reaches (execHopRecv dt ring index s) r.keepsSchedule := by
  refine ⟨_, rfl, ?_⟩
  refine h.elapse.withDesc (fun h => ?_)
  split
  · exact h.complete
  · exact h.waitAtMost

/-! #### Mirage -/

theorem State.keepsSchedule.execMirEscalate {dt : Nat} (h : r.keepsSchedule s) : reaches (execMirEscalate dt s) r.keepsSchedule :=
  ⟨_, rfl, ite (riseTo h.elapse.elsewhere) h.elapse⟩

theorem State.keepsSchedule.execMirLevelFall {dt : Nat} (h : r.keepsSchedule s) : reaches (execMirLevelFall dt s) r.keepsSchedule :=
  ⟨_, rfl, ite (raise h.elapse.elsewhere) h.elapse⟩

theorem State.keepsSchedule.execMirConditionClear {dt check key : Nat} (h : r.keepsSchedule s) :
    reaches (execMirConditionClear dt check key s) r.keepsSchedule := by
  refine ⟨_, rfl, ?_⟩
  refine h.elapse.ite ?_
  split
  · exact ite (mirSettle h.elapse.elsewhere) h.elapse
  · exact h.elapse

theorem State.keepsSchedule.clearMirage (h : r.keepsSchedule s) : r.keepsSchedule s.clearMirage := ite (raise h.elsewhere) h.elsewhere

theorem State.keepsSchedule.restartBase (h : r.keepsSchedule s) : r.keepsSchedule s.restartBase := h.elsewhere

theorem State.keepsSchedule.execMirClear {dt : Nat} {value : Word} (h : r.keepsSchedule s) :
    reaches (execMirClear dt value s) r.keepsSchedule :=
  ⟨_, rfl, ite (onlyIf h.elapse.clearMirage (fun k => k.restartBase)) h.elapse⟩

theorem State.keepsSchedule.execMirBaseReset {dt : Nat} {value : Word} (h : r.keepsSchedule s) :
    reaches (execMirBaseReset dt value s) r.keepsSchedule :=
  ⟨_, rfl, h.elapse.clearMirage.restartBase.ite h.elapse⟩

theorem State.keepsSchedule.execMirPeakScan {dt chan : Nat} {powers : List Nat} (h : r.keepsSchedule s) :
    reaches (execMirPeakScan dt chan powers s) r.keepsSchedule :=
  ⟨_, rfl, ite (mirSettle (evalCond h.elapse.elsewhere (fun h => h))) h.elapse⟩

/-! #### Timebase -/

theorem State.keepsSchedule.execTbHostTime {dt : Nat} {value : Word} (h : r.keepsSchedule s) :
    reaches (execTbHostTime dt value s) r.keepsSchedule :=
  ⟨_, rfl, h.elapse.ite h.elapse.setReg.sample⟩

theorem State.keepsSchedule.execPpsInEdge {dt : Nat} {edge : PinEdge} (h : r.keepsSchedule s) :
    reaches (execPpsInEdge dt edge s) r.keepsSchedule :=
  ⟨_, rfl, h.elapse.ite h.elapse.pushStamp.sample⟩

theorem State.keepsSchedule.execTbSourceQualify {dt src : Nat} (h : r.keepsSchedule s) :
    reaches (execTbSourceQualify dt src s) r.keepsSchedule :=
  ⟨_, rfl, h.elapse.setSrc.reselect.ite h.elapse⟩

theorem State.keepsSchedule.dropAnnounce {p : Nat} (h : r.keepsSchedule s) : r.keepsSchedule (s.dropAnnounce p) :=
  h.modPtp.forgetNeighbour.runBmca.ite h

theorem State.keepsSchedule.execTbSourceLost {dt src : Nat} (h : r.keepsSchedule s) :
    reaches (execTbSourceLost dt src s) r.keepsSchedule := by
  refine ⟨_, rfl, ?_⟩
  split
  · split
    · exact h.elapse.dropAnnounce
    · exact h.elapse
  · split
    · exact h.elapse.loseSource.ite h.elapse
    · exact h.elapse

theorem State.keepsSchedule.ppsEdge {k : Nat} (h : r.keepsSchedule s) : r.keepsSchedule (s.ppsEdge k) := ppsDrive (pushStamp h.elsewhere)

theorem State.keepsSchedule.ppsSettle {wasOn : Bool} (h : r.keepsSchedule s) : r.keepsSchedule (s.ppsSettle wasOn) :=
  h.ppsEnd.ite (h.ppsDrive.ite h.ppsDrive.elsewhere)

theorem State.keepsSchedule.syncCalendar (h : r.keepsSchedule s) : r.keepsSchedule s.syncCalendar := ite h.elsewhere h

theorem State.keepsSchedule.execPpsOutEdge {dt : Nat} (h : r.keepsSchedule s) : reaches (execPpsOutEdge dt s) r.keepsSchedule :=
  ⟨_, rfl, h.elapse.ite (syncCalendar (h.elapse.ppsEdge.ite h.elapse))⟩

theorem State.keepsSchedule.execPpsOutPulseEnd {dt : Nat} (h : r.keepsSchedule s) : reaches (execPpsOutPulseEnd dt s) r.keepsSchedule := by
  refine ⟨_, rfl, ?_⟩
  split
  · exact h.elapse.ppsEnd.ite h.elapse
  · exact h.elapse

theorem State.keepsSchedule.ppsAfterStep (h : r.keepsSchedule s) : r.keepsSchedule s.ppsAfterStep :=
  h.ite (ite (raise h.elsewhere) h.elsewhere)

theorem State.keepsSchedule.silence {now p : Nat} (h : r.keepsSchedule s) : r.keepsSchedule (s.silence now p) :=
  h.ite (elsewhere (modHop (h.frontEnd.ite h)))

theorem State.keepsSchedule.unitsStep (h : r.keepsSchedule s) : r.keepsSchedule s.unitsStep :=
  onlyIf (elsewhere (foldl h.releaseClaims.elsewhere (fun h => h.abandonAsm))) (fun k => k.carStep)

theorem State.keepsSchedule.applyStep {p : StepPending} (h : r.keepsSchedule s) : r.keepsSchedule (s.applyStep p) :=
  raise (unitsStep (ppsAfterStep (elsewhere (elsewhere (gnsStep (onlyIf (foldl (h.ppsEdge.ite h) (fun h => h.silence)) (fun k =>
      k.latchEpoch)))))))

theorem State.keepsSchedule.execTbStepApply {dt : Nat} (h : r.keepsSchedule s) : reaches (execTbStepApply dt s) r.keepsSchedule := by
  refine ⟨_, rfl, ?_⟩
  split
  · exact h.elapse.ite h.elapse.applyStep
  · exact h.elapse

theorem State.keepsSchedule.execTbErrEstUpdate {dt : Nat} (h : r.keepsSchedule s) : reaches (execTbErrEstUpdate dt s) r.keepsSchedule :=
  ⟨_, rfl, h.elapse.ite h.elapse.mark.updateErr⟩

theorem State.keepsSchedule.execTbStampPop {dt : Nat} (h : r.keepsSchedule s) : reaches (execTbStampPop dt s) r.keepsSchedule :=
  ⟨_, rfl, h.elapse.ite h.elapse.popStamp⟩

theorem State.keepsSchedule.execTbAlarmArm {dt n : Nat} {value : Word} (h : r.keepsSchedule s) :
    reaches (execTbAlarmArm dt n value s) r.keepsSchedule :=
  ⟨_, rfl, h.elapse.ite (onlyIf h.elapse.setReg.elsewhere (fun k => k.fireAlarm))⟩

theorem State.keepsSchedule.execTbAlarmFire {dt n : Nat} (h : r.keepsSchedule s) : reaches (execTbAlarmFire dt n s) r.keepsSchedule :=
  ⟨_, rfl, h.elapse.fireAlarm.ite h.elapse⟩

theorem State.keepsSchedule.execPtpMessageReceived {dt port : Nat} {frame : List Byte} {phase : Nat} (h : r.keepsSchedule s) :
    reaches (execPtpMessageReceived dt port frame phase s) r.keepsSchedule :=
  ⟨_, rfl, h.elapse.receiveIf.ptpReceive.ite h.elapse.receiveIf⟩

theorem State.keepsSchedule.execPtpMessageSend {dt port kind : Nat} (h : r.keepsSchedule s) :
    reaches (execPtpMessageSend dt port kind s) r.keepsSchedule :=
  ⟨_, rfl, h.elapse.ptpSend.ite h.elapse⟩

theorem State.keepsSchedule.execPtpAnnounceTimeout {dt port : Nat} (h : r.keepsSchedule s) :
    reaches (execPtpAnnounceTimeout dt port s) r.keepsSchedule :=
  ⟨_, rfl, h.elapse.dropAnnounce⟩

/-! #### CommitOps -/

theorem State.keepsSchedule.releaseFld {new : Conf} (h : r.keepsSchedule s) : r.keepsSchedule (s.releaseFld new) :=
  elsewhere (onlyElse h.releaseClaims.dropLines (fun k => k.leaveImages))

theorem State.keepsSchedule.applyTb {was : State} (h : r.keepsSchedule s) : r.keepsSchedule (s.applyTb was) :=
  ppsSettle (reselect (runBmca (h.foldl (fun h => h.ite h.forgetNeighbour))))

theorem State.keepsSchedule.endAcq (h : r.keepsSchedule s) : r.keepsSchedule s.endAcq :=
  nextSearch (foldl h.elsewhere (fun h => h.complete))

theorem State.keepsSchedule.applyBase {was : State} (h : r.keepsSchedule s) : r.keepsSchedule (s.applyBase was) := by
  unfold State.applyBase
  split
  · exact ite (raise h.elsewhere) h.elsewhere
  · exact h.ite h.elsewhere
  · exact h.elsewhere

theorem State.keepsSchedule.applyGns {was : State} (h : r.keepsSchedule s) : r.keepsSchedule (s.applyGns was) :=
  onlyIf (onlyIf (((h.foldl (fun h => h.chanGone)).endAcq).applyBase) (fun k => k.restartBase)) (fun k => k.mark.elsewhere)

theorem State.keepsSchedule.applyMir {was : State} (h : r.keepsSchedule s) : r.keepsSchedule (s.applyMir was) :=
  mirSettleTo (h.dropDisabled.ite h.dropDisabled.elsewhere)

theorem State.keepsSchedule.applyFix {was : State} (h : r.keepsSchedule s) : r.keepsSchedule (s.applyFix was) :=
  elsewhere (h.foldl (fun h => h.ite h.abandonAsm))

theorem State.keepsSchedule.armSec (h : r.keepsSchedule s) : r.keepsSchedule s.armSec := ite h.elsewhere h.elsewhere

theorem State.keepsSchedule.applySec {was : State} (h : r.keepsSchedule s) : r.keepsSchedule (s.applySec was) :=
  armSec (h.ite h.elsewhere)

theorem State.keepsSchedule.applyPort {was : State} {slots : Tbl (List Byte)} {p : Nat} (h : r.keepsSchedule s) :
    r.keepsSchedule (s.applyPort was slots p) := by
  unfold State.applyPort
  split
  · exact modHop (h.ite h.modHop)
  · exact modHop (h.ite h.modHop)

theorem State.keepsSchedule.applyHop {was : State} {slots : Tbl (List Byte)} {nodes : List Byte} (h : r.keepsSchedule s) :
    r.keepsSchedule (s.applyHop was slots nodes) :=
  onlyElse ((h.endAnnounce.foldl (fun h => h.applyPort.dropHeld)).elsewhere) (fun k => k.elsewhere)

theorem State.keepsSchedule.applyFab {was : State} (h : r.keepsSchedule s) : r.keepsSchedule (s.applyFab was) :=
  onlyIf (h.foldl (fun h => h.ite h.linkFall)) (fun k => k.startClaim)

theorem State.keepsSchedule.applyMem {was : State} (h : r.keepsSchedule s) : r.keepsSchedule (s.applyMem was) := ite (mark h.elsewhere) h

theorem State.keepsSchedule.applyNvm (h : r.keepsSchedule s) : r.keepsSchedule s.applyNvm := h.elsewhere

theorem State.keepsSchedule.renewPins {named : BitVec 20} (h : r.keepsSchedule s) : r.keepsSchedule (s.renewPins named) :=
  ite h.elsewhere h

theorem State.keepsSchedule.loadPinned (h : r.keepsSchedule s) : r.keepsSchedule s.loadPinned := by
  unfold State.loadPinned
  refine h.foldl (fun h => ?_)
  split
  · exact h.cachePut
  · exact h

theorem State.keepsSchedule.run (h : r.keepsSchedule s) (hs : s.pwr.state = .waitHost) :
    r.keepsSchedule { s with pwr := { s.pwr with state := .run } } := by
  have hs : s.plan.state = .waitHost := hs
  have aw : s.plan.awake ↔ s.plan.held = false := ⟨fun a => a.1, fun a => ⟨a, by rw [hs]; decide, by rw [hs]; decide⟩⟩
  have order (o : s.plan.orderly) : Plan.orderly ({ s with pwr := { s.pwr with state := .run } } : State).plan :=
    ⟨o.threads, o.ready, o.cores, o.lists, o.on⟩
  refine h.trans ⟨rfl, ⟨fun a => aw.2 a.1, fun a => ⟨aw.1 a, nofun, nofun⟩⟩, order,
    fun hq => ⟨order hq.order, fun hh => absurd hs (hq.held hh).1, fun hn => ?_⟩⟩
  exact hq.asleep fun a => hn ⟨aw.1 a, nofun, nofun⟩

theorem State.keepsSchedule.enterRun (h : r.keepsSchedule s) : r.keepsSchedule s.enterRun := by
  unfold State.enterRun
  split
  · next hc =>
    simp only [Bool.and_eq_true, decide_eq_true_eq] at hc
    obtain ⟨⟨⟨hs, -⟩, -⟩, -⟩ := hc
    have hu := (h.run hs).stormAll
    exact (hu.startClaim.ite hu).armSec
  · exact h

theorem State.keepsSchedule.activate {c : Cand} (h : r.keepsSchedule s) : r.keepsSchedule (s.activate c) := h.elsewhere

theorem State.keepsSchedule.takeEffect {c : Cand} (h : r.keepsSchedule s) : r.keepsSchedule (s.takeEffect c) := by
  unfold State.takeEffect
  extract_lets on s0 s1 s2 s3 s4 s5 s6 s7 s8 s9 s10 fab s11
  have h0 : r.keepsSchedule s0 := h.releaseFld.ite h
  have h1 : r.keepsSchedule s1 := h0.activate
  have h2 : r.keepsSchedule s2 := h1.applyTb.ite h1
  have h3 : r.keepsSchedule s3 := h2.applyGns.ite h2
  have h4 : r.keepsSchedule s4 := h3.applyMir.ite h3
  have h5 : r.keepsSchedule s5 := h4.applyFix.ite h4
  have h6 : r.keepsSchedule s6 := h5.applySec.ite h5
  have h7 : r.keepsSchedule s7 := h6.applyHop.ite h6
  have h8 : r.keepsSchedule s8 := h7.applyFab.ite h7
  have h9 : r.keepsSchedule s9 := h8.applyMem.ite h8
  have h10 : r.keepsSchedule s10 := h9.applyNvm.ite h9
  have h11 : r.keepsSchedule s11 := ite h10 h10.elsewhere
  exact h11.renewPins.enterRun.loadPinned.settleOuts.holdFrames

/-! #### HostInterface -/

theorem State.keepsSchedule.advanceSq {ring : Nat} (h : r.keepsSchedule s) : r.keepsSchedule (s.advanceSq ring) := h.modRing.shadow

theorem State.keepsSchedule.addTaken {d : Desc} (h : r.keepsSchedule s) : r.keepsSchedule (s.addTaken d) := by
  unfold State.addTaken
  split
  · exact h.elsewhere
  · exact ite (flushVerdict h.elsewhere) (complete h.elsewhere)

theorem State.keepsSchedule.takeDesc {ring : Nat} {bytes : List Byte} (h : r.keepsSchedule s) : r.keepsSchedule (s.takeDesc ring bytes) := by
  unfold State.takeDesc
  dsimp only
  split
  · exact h.advanceSq.addTaken
  · exact h.advanceSq.addTaken.ite (h.advanceSq.addTaken.ite (h.advanceSq.insertLaunch.addTaken.ite h.advanceSq.addTaken.raise))

theorem State.keepsSchedule.execDescriptorTake {dt ring : Nat} {bytes : List Byte} (h : r.keepsSchedule s) :
    reaches (execDescriptorTake dt ring bytes s) r.keepsSchedule := ⟨_, rfl, h.elapse.draw.takeDesc.ite h.elapse⟩

theorem State.keepsSchedule.doorbell {n tail head resume : Nat} (h : r.keepsSchedule s) :
    r.keepsSchedule (s.doorbell n tail head resume) :=
  onlyIf (h.modRing.raise.ite h.modRing) (fun k => k.setRing.flushVerdict)

theorem State.keepsSchedule.execDoorbellRead {dt : Nat} {block : List Byte} (h : r.keepsSchedule s) :
    reaches (execDoorbellRead dt block s) r.keepsSchedule :=
  ⟨_, rfl, h.elapse.ite (h.elapse.mark.draw.foldl (fun h => h.ite h.doorbell))⟩

theorem State.keepsSchedule.writeRingCtrl {n : Nat} {v : Word} {keepSize : Bool} (h : r.keepsSchedule s) :
    r.keepsSchedule (s.writeRingCtrl n v keepSize) := by
  unfold State.writeRingCtrl
  split
  · exact h.writeDirect
  · exact h

theorem State.keepsSchedule.execRingEnable {dt ring : Nat} {value : Word} (h : r.keepsSchedule s) :
    reaches (execRingEnable dt ring value s) r.keepsSchedule :=
  ⟨_, rfl, h.elapse.ite (setRing (modRing (ite h.elapse.setReg.writeRingCtrl h.elapse.writeRingCtrl)))⟩

theorem State.keepsSchedule.dropLaunch {serial : Nat} (h : r.keepsSchedule s) : r.keepsSchedule (s.dropLaunch serial) := h.elsewhere

theorem State.keepsSchedule.stopRing {ring : Nat} (h : r.keepsSchedule s) : r.keepsSchedule (s.stopRing ring) :=
  h.setRing.foldl (fun h => h.dropLaunch.complete1)

theorem State.keepsSchedule.execRingDisable {dt ring : Nat} {value : Word} (h : r.keepsSchedule s) :
    reaches (execRingDisable dt ring value s) r.keepsSchedule :=
  ⟨_, rfl, h.elapse.ite (onlyIf h.elapse.writeRingCtrl (fun k => k.stopRing))⟩

theorem State.keepsSchedule.execRingDrained {dt ring : Nat} (h : r.keepsSchedule s) :
    reaches (execRingDrained dt ring s) r.keepsSchedule :=
  ⟨_, rfl, h.elapse.setRing.ite h.elapse⟩

theorem State.keepsSchedule.haltRing {ring index : Nat} (h : r.keepsSchedule s) : r.keepsSchedule (s.haltRing ring index) :=
  h.modRing.shadow.signalErr.raise

theorem State.keepsSchedule.payloadError {d : Desc} {detail : Nat} {reading : Bool} (h : r.keepsSchedule s) :
    r.keepsSchedule (s.payloadError d detail reading) :=
  h.complete.ite (h.modDesc.flushVerdict.ite (h.modDesc.ite h))

theorem State.keepsSchedule.dmaError {phase kind ring index : Nat} (h : r.keepsSchedule s) :
    r.keepsSchedule (s.dmaError phase kind ring index) := by
  unfold State.dmaError
  split
  · exact ite (addTaken (advanceSq (raise h.elsewhere))) (raise h.elsewhere)
  · dsimp only
    split
    · exact payloadError (raise h.elsewhere)
    · exact raise h.elsewhere
  · dsimp only
    split
    · exact payloadError (raise h.elsewhere)
    · exact raise h.elsewhere
  · exact onlyIf (raise (elsewhere (raise h.elsewhere))) (fun k => k.haltRing)
  · exact raise (mark (elsewhere (raise h.elsewhere)))
  · exact raise h.elsewhere

theorem State.keepsSchedule.execPcieDmaError {dt phase kind ring index : Nat} (h : r.keepsSchedule s) :
    reaches (execPcieDmaError dt phase kind ring index s) r.keepsSchedule :=
  ⟨_, rfl, h.elapse.ite (h.elapse.dmaError.ite h.elapse.draw.dmaError)⟩

theorem State.keepsSchedule.resetHst (h : r.keepsSchedule s) : r.keepsSchedule s.resetHst := (h.foldl (fun h => h.dropDesc)).elsewhere

theorem State.keepsSchedule.execHstFlr {dt : Nat} (h : r.keepsSchedule s) : reaches (execHstFlr dt s) r.keepsSchedule :=
  ⟨_, rfl, h.elapse.resetHst.raise⟩

theorem State.keepsSchedule.execHstLinkDown {dt : Nat} (h : r.keepsSchedule s) : reaches (execHstLinkDown dt s) r.keepsSchedule :=
  ⟨_, rfl, raise h.elapse.resetHst.elsewhere⟩

theorem State.keepsSchedule.execPcieLinkUp {now : Timed HostSet} {speed width : Nat} (h : r.keepsSchedule s) :
    reaches (execPcieLinkUp now speed width s) r.keepsSchedule := ⟨_, rfl, draw h.elapse.elsewhere⟩

theorem State.keepsSchedule.execHstIrqModTimeout {dt ring : Nat} (h : r.keepsSchedule s) :
    reaches (execHstIrqModTimeout dt ring s) r.keepsSchedule :=
  ⟨_, rfl, h.elapse.ite h.elapse.modRing.signal⟩

theorem State.keepsSchedule.execHstNop {dt ring index : Nat} (h : r.keepsSchedule s) :
    reaches (execHstNop dt ring index s) r.keepsSchedule :=
  ⟨_, rfl, h.elapse.withDesc (fun h => h.complete)⟩

theorem State.keepsSchedule.launchCancel {d : Desc} (h : r.keepsSchedule s) : r.keepsSchedule (s.launchCancel d) := by
  unfold State.launchCancel
  refine h.complete.ite ?_
  split
  · split
    · refine complete ?_
      split
      · exact ite (endAnnounce h.elsewhere) h.elsewhere
      · exact h.elsewhere
    · exact h.complete
  · split
    · exact h.dropLaunch.complete.complete
    · exact h.complete

theorem State.keepsSchedule.execHstLaunchCancel {dt ring index : Nat} (h : r.keepsSchedule s) :
    reaches (execHstLaunchCancel dt ring index s) r.keepsSchedule :=
  ⟨_, rfl, h.elapse.withDesc (fun h => h.launchCancel)⟩

theorem State.keepsSchedule.startFired {serial : Nat} {late : Bool} (h : r.keepsSchedule s) :
    r.keepsSchedule (s.startFired serial late) :=
  h.elsewhere

theorem State.keepsSchedule.fireEntry (h : r.keepsSchedule s) : r.keepsSchedule s.fireEntry := by
  unfold State.fireEntry
  split
  · exact h
  · refine h.ite ?_
    split
    · exact h.dropLaunch.startFired
    · exact h

theorem State.keepsSchedule.execLaunchEntryFire {dt : Nat} (h : r.keepsSchedule s) : reaches (execLaunchEntryFire dt s) r.keepsSchedule :=
  ⟨_, rfl, h.elapse.fireEntry⟩

/-! #### Commit -/

theorem State.keepsSchedule.stageEntries {l : List (Nat × Nat)} (h : r.keepsSchedule s) : r.keepsSchedule (s.stageEntries l) := by
  unfold State.stageEntries
  refine h.foldl (fun h => ?_)
  split
  · exact h.writeStaged
  · exact h

theorem State.keepsSchedule.settleStore (h : r.keepsSchedule s) : r.keepsSchedule s.settleStore := h.elsewhere

theorem State.keepsSchedule.storeBlock {mask : BitVec 20} {bytes : List Byte} {env : CommitIn} (h : r.keepsSchedule s) :
    r.keepsSchedule (s.storeBlock mask bytes env) := by
  unfold State.storeBlock
  refine h.ite ?_
  dsimp only
  split
  · next e => exact elsewhere (of_eq (nvWrite (elsewhere (foldl h.settleStore.elsewhere (fun h => h.raise)))) e)
  · next e => exact (of_eq (nvWrite (elsewhere (foldl h.settleStore.elsewhere (fun h => h.raise)))) e)

theorem State.keepsSchedule.dmaTable {host : List (Nat × List Byte)} {addr n : Nat} (h : r.keepsSchedule s) :
    r.keepsSchedule (s.dmaTable host addr n).1 := by
  unfold State.dmaTable
  split
  · exact h
  · exact raise h.elsewhere

theorem State.keepsSchedule.readTables {conf : Conf} {named : BitVec 20} {host : List (Nat × List Byte)} (h : r.keepsSchedule s) :
    r.keepsSchedule (s.readTables conf named host).1 := by
  unfold State.readTables
  refine ite_fst (ite_fst (foldl_pair h (fun h => ?_)) (dmaTable (foldl_pair h (fun h => ?_)))) h
  · dsimp only
    split
    · next e => exact (h.dmaTable.of_eq e)
    · next e => exact (h.dmaTable.of_eq e)
  · dsimp only
    split
    · next e => exact (h.dmaTable.of_eq e)
    · next e => exact (h.dmaTable.of_eq e)

theorem State.keepsSchedule.candidate' {snap : Conf} {named : BitVec 20} {host : List (Nat × List Byte)} {again : Bool}
    (h : r.keepsSchedule s) : r.keepsSchedule (s.candidate' snap named host again).1 := h.readTables

theorem State.keepsSchedule.commitNow {c : Cand} {persist : Bool} {block : List Byte} {env : CommitIn} (h : r.keepsSchedule s) :
    r.keepsSchedule (s.commitNow c persist block env) := h.takeEffect.storeBlock.ite h.takeEffect

theorem State.keepsSchedule.beginCheck {env : CommitIn} (h : r.keepsSchedule s) : r.keepsSchedule (s.beginCheck env) := h.elsewhere

theorem State.keepsSchedule.keepUndo {was : State} {named : BitVec 20} (h : r.keepsSchedule s) : r.keepsSchedule (s.keepUndo was named) :=
  h.elsewhere

theorem State.keepsSchedule.endCheck (h : r.keepsSchedule s) : r.keepsSchedule s.endCheck := h.elsewhere

theorem State.keepsSchedule.abandonCommit {cause : Nat} (h : r.keepsSchedule s) : r.keepsSchedule (s.abandonCommit cause) :=
  h.noteRefusal.endCheck.fatal

theorem State.keepsSchedule.commitRegister {v : Word} {env : CommitIn} (h : r.keepsSchedule s) :
    r.keepsSchedule (s.commitRegister v env) := by
  unfold State.commitRegister
  refine h.ite (h.noteRefusal.ite (h.noteRefusal.ite (h.noteRefusal.ite ?_)))
  split
  · next e =>
      split
      · exact (h.beginCheck.candidate'.of_eq e).abandonCommit
      · exact ((h.beginCheck.candidate'.of_eq e).noteRefusal).keepUndo
      · exact ((h.beginCheck.candidate'.of_eq e).commitNow).keepUndo

theorem State.keepsSchedule.execCfgCommit {dt : Nat} {value : Word} {env : CommitIn} (h : r.keepsSchedule s) :
    reaches (execCfgCommit dt value env s) r.keepsSchedule := ⟨_, rfl, h.elapse.commitRegister⟩

theorem State.keepsSchedule.refuseCommit {d : Desc} {reason rule : Nat} (h : r.keepsSchedule s) :
    r.keepsSchedule (s.refuseCommit d reason rule) :=
  h.noteRefusal.complete

theorem State.keepsSchedule.announceAll {c : Cand} {launch : Nat} (h : r.keepsSchedule s) : r.keepsSchedule (s.announceAll c launch) :=
  h.ite (h.foldl (fun h => h.modHop.foldl (fun h => h.announceTo)))

theorem State.keepsSchedule.runCommit {d : Desc} {b : Block} {block : List Byte} {before : Conf} {env : CommitIn}
    (h : r.keepsSchedule s) : r.keepsSchedule (s.runCommit d b block before env) := by
  unfold State.runCommit
  dsimp only
  split
  · exact abandonCommit h.endCheck.candidate'.elsewhere
  · exact refuseCommit h.endCheck.candidate'.elsewhere
  · exact ite (h.endCheck.candidate'.insertLaunch.announceAll.complete.ite (raise (refuseCommit h.endCheck.candidate'.elsewhere)))
        h.endCheck.candidate'.commitNow.complete

theorem State.keepsSchedule.hostCommit {d : Desc} {payload : List Byte} {env : CommitIn} (h : r.keepsSchedule s) :
    r.keepsSchedule (s.hostCommit d payload env) := by
  unfold State.hostCommit
  refine ite (h.refuseCommit.ite h.runCommit) (h.refuseCommit.ite ?_)
  split
  · exact h.refuseCommit
  · exact h.stageEntries.runCommit

theorem State.keepsSchedule.execHstCommit {dt ring index : Nat} {payload : List Byte} {host : List (Nat × List Byte)} {run : CommitRun}
    (h : r.keepsSchedule s) : reaches (execHstCommit dt ring index payload host run s) r.keepsSchedule :=
  ⟨_, rfl, h.elapse.withDesc (fun h => h.hostCommit)⟩

theorem State.keepsSchedule.launchCommit {env : CommitIn} (h : r.keepsSchedule s) : r.keepsSchedule (s.launchCommit env) := by
  unfold State.launchCommit
  split
  · exact h
  · split
    · exact h
    · split
      · dsimp only
        split
        · exact abandonCommit (candidate' (endCheck h.elsewhere))
        · exact raise (noteRefusal (endAnnounce (candidate' (endCheck h.elsewhere))))
        · exact raise (commitNow (candidate' (endCheck h.elsewhere)))
      · dsimp only
        split
        · exact abandonCommit (candidate' (endCheck h.elsewhere))
        · exact raise (noteRefusal (candidate' (endCheck h.elsewhere)))
        · exact raise (commitNow (candidate' (endCheck h.elsewhere)))

theorem State.keepsSchedule.execLaunchCommitApply {dt : Nat} {host : List (Nat × List Byte)} {run : CommitRun} (h : r.keepsSchedule s) :
    reaches (execLaunchCommitApply dt host run s) r.keepsSchedule := ⟨_, rfl, h.elapse.ite h.elapse.launchCommit⟩

/-! #### FieldStore -/

theorem State.keepsSchedule.withFld {ring index op : Nat} {variant : Desc → Bool} {dram : Bool} {f : State → Desc → State}
    (h : r.keepsSchedule s) (hf : ∀ {s : State} {d : Desc}, r.keepsSchedule s → r.keepsSchedule (f s d)) :
    r.keepsSchedule (s.withFld ring index op variant dram f) := by
  unfold State.withFld
  refine h.withDesc (fun h => ?_)
  split
  · exact h.complete
  · exact h.ite (h.complete.ite (hf h))

theorem State.keepsSchedule.tileField {d : Desc} {f : State → Desc → Nat → State} (h : r.keepsSchedule s)
    (hf : ∀ {s : State} {d : Desc} {n2 : Nat}, r.keepsSchedule s → r.keepsSchedule (f s d n2)) : r.keepsSchedule (s.tileField d f) :=
  (hf h.countClamps).ite h.countClamps.complete

theorem State.keepsSchedule.execFldTileLoad {dt ring index : Nat} {payload : List Byte} (h : r.keepsSchedule s) :
    reaches (execFldTileLoad dt ring index payload s) r.keepsSchedule := by
  refine ⟨_, rfl, h.elapse.withFld fun h => h.tileField fun h => ?_⟩
  dsimp only
  exact h.loadTiles.complete

theorem State.keepsSchedule.execFldTileSave {dt ring index : Nat} (h : r.keepsSchedule s) :
    reaches (execFldTileSave dt ring index s) r.keepsSchedule := by
  refine ⟨_, rfl, ?_⟩
  refine h.elapse.withFld (fun h => h.complete.ite (h.tileField (fun h => ?_)))
  dsimp only
  split
  · exact complete h.countClamps.saveTiles.writePayload
  · exact complete h.countClamps.saveTiles.writePayload

theorem State.keepsSchedule.fldTable {d : Desc} {f : State → Desc → Nat → Nat → Nat → State} (h : r.keepsSchedule s)
    (hf : ∀ {s : State} {d : Desc} {n2 n3 n4 : Nat}, r.keepsSchedule s → r.keepsSchedule (f s d n2 n3 n4)) :
    r.keepsSchedule (s.fldTable d f) := h.countClamps.complete.ite (h.countClamps.complete.ite (hf h.countClamps))

theorem State.keepsSchedule.execFldTableWriteStaging {dt ring index : Nat} {payload : List Byte} (h : r.keepsSchedule s) :
    reaches (execFldTableWriteStaging dt ring index payload s) r.keepsSchedule :=
  ⟨_, rfl, h.elapse.withFld (fun h => h.fldTable (fun h => complete (countClamps h.elsewhere)))⟩

theorem State.keepsSchedule.execFldTableReadStaging {dt ring index : Nat} (h : r.keepsSchedule s) :
    reaches (execFldTableReadStaging dt ring index s) r.keepsSchedule :=
  ⟨_, rfl, h.elapse.withFld (fun h => h.complete.ite (h.fldTable (fun h => complete h.writePayload)))⟩

theorem State.keepsSchedule.execFldTableReadActive {dt ring index : Nat} (h : r.keepsSchedule s) :
    reaches (execFldTableReadActive dt ring index s) r.keepsSchedule :=
  ⟨_, rfl, h.elapse.withFld (fun h => h.fldTable (fun h => complete h.writePayload))⟩

theorem State.keepsSchedule.execFldSyncApply {dt ring index : Nat} {payload : List Byte} (h : r.keepsSchedule s) :
    reaches (execFldSyncApply dt ring index payload s) r.keepsSchedule := by
  refine ⟨_, rfl, ?_⟩
  refine h.elapse.withFld (fun h => h.complete.ite ?_)
  split
  · exact h.complete
  · exact h.countClamps.applyDelta.complete

theorem State.keepsSchedule.execFldSyncSend {dt : Nat} (h : r.keepsSchedule s) : reaches (execFldSyncSend dt s) r.keepsSchedule :=
  ⟨_, rfl, h.elapse.ite h.elapse.sendDeltas⟩

theorem State.keepsSchedule.execFldCopyDone {dt : Nat} (h : r.keepsSchedule s) : reaches (execFldCopyDone dt s) r.keepsSchedule :=
  ⟨_, rfl, ite (raise h.elapse.elsewhere) h.elapse⟩

/-! #### Fix -/

theorem State.keepsSchedule.execFixRtcmStale {dt port : Nat} (h : r.keepsSchedule s) :
    reaches (execFixRtcmStale dt port s) r.keepsSchedule :=
  ⟨_, rfl, h.elapse.ite (countStale h.elapse.elsewhere)⟩

theorem State.keepsSchedule.execFixRtcmGet {dt ring index : Nat} (h : r.keepsSchedule s) :
    reaches (execFixRtcmGet dt ring index s) r.keepsSchedule := by
  refine ⟨_, rfl, ?_⟩
  refine h.elapse.withDesc (fun h => ?_)
  split
  · exact h.complete
  · exact h.complete.ite (h.complete.ite h.wait)

theorem State.keepsSchedule.execFixStrings {dt ring index : Nat} {payload : List Byte} (h : r.keepsSchedule s) :
    reaches (execFixStrings dt ring index payload s) r.keepsSchedule := by
  refine ⟨_, rfl, ?_⟩
  refine h.elapse.withDesc (fun h => ?_)
  split
  · exact h.complete
  · refine h.complete.ite ?_
    split
    · exact h.complete
    · exact complete (countClamps h.elsewhere)

theorem State.keepsSchedule.resetRover {m : Nat} (h : r.keepsSchedule s) : r.keepsSchedule (s.resetRover m) := h.ite h.elsewhere

theorem State.keepsSchedule.execFixRoverReset {dt ring index : Nat} (h : r.keepsSchedule s) :
    reaches (execFixRoverReset dt ring index s) r.keepsSchedule := by
  refine ⟨_, rfl, ?_⟩
  refine h.elapse.withDesc (fun h => h.complete.ite ?_)
  split
  · exact h.complete
  · exact complete ((h.foldl (fun h => h.resetRover)).ite h.resetRover)

theorem State.keepsSchedule.execFixEpochDeadline {dt machine : Nat} (h : r.keepsSchedule s) :
    reaches (execFixEpochDeadline dt machine s) r.keepsSchedule := by
  refine ⟨_, rfl, ?_⟩
  split
  · exact h.elapse.abandonEpoch.ite h.elapse
  · exact h.elapse

theorem State.keepsSchedule.execFixSolveStart {dt : Nat} (h : r.keepsSchedule s) : reaches (execFixSolveStart dt s) r.keepsSchedule := by
  refine ⟨_, rfl, ?_⟩
  refine h.elapse.ite ?_
  split
  · exact h.elapse.elsewhere
  · exact h.elapse

theorem State.keepsSchedule.writeSol {b : List Byte} (h : r.keepsSchedule s) : r.keepsSchedule (s.writeSol b) := by
  unfold State.writeSol
  dsimp only
  split
  · exact raise h.elsewhere
  · exact dramWrite h.elsewhere

theorem State.keepsSchedule.conformCentral {x : SolRec} (h : r.keepsSchedule s) : r.keepsSchedule (s.conformCentral x) := by
  unfold State.conformCentral
  refine h.ite (h.conform.ite ?_)
  split
  · exact h.conform
  · exact h

theorem State.keepsSchedule.deliverSol {x : SolRec} {done : Nat} (h : r.keepsSchedule s) : r.keepsSchedule (s.deliverSol x done) :=
  onlyIf (raise (writeSol (checkRover (conformCentral h.elsewhere)))) (fun k => raise k.elsewhere)

theorem State.keepsSchedule.execFixSolReady {dt lane : Nat} {input : SolveIn} (h : r.keepsSchedule s) :
    reaches (execFixSolReady dt lane input s) r.keepsSchedule := by
  refine ⟨_, rfl, ?_⟩
  split
  · exact h.elapse
  · exact h.elapse.ite (onlyIf (deliverSol h.elapse.elsewhere) (fun k => k.raise))

/-! #### Memory -/

theorem State.keepsSchedule.failWaiting {u : Nat} (h : r.keepsSchedule s) : r.keepsSchedule (s.failWaiting u) :=
  h.foldl (fun h => h.complete)

theorem State.keepsSchedule.forceLevel (h : r.keepsSchedule s) : r.keepsSchedule s.forceLevel :=
  ite (raise h.elsewhere) (ite (raise h.elsewhere) h.elsewhere)

theorem State.keepsSchedule.unitFault {u : Nat} (h : r.keepsSchedule s) : r.keepsSchedule (s.unitFault u) :=
  h.fatal.ite (h.fatal.ite (ite (h.ite (fatal (raise h.elsewhere))) (ite (h.ite (raise (failWaiting h.elsewhere))) (ite (h.ite
      (forceLevel (raise h.elsewhere))) (ite (h.ite (raise (failWaiting h.elsewhere))) (ite (failWaiting h.elsewhere) (ite (h.ite (raise
      h.elsewhere)) (ite (h.ite (raise (failWaiting h.elsewhere))) (ite (h.ite (raise (signalErr h.elsewhere))) (ite (h.ite (raise
      (loseSource (elsewhere (failWaiting h.elsewhere))))) (ite (h.ite (raise h.inDis)) (ite (h.ite (raise (abortJobs h.elsewhere))) (ite
      h.elsewhere (ite (h.ite (raise h.elsewhere)) h))))))))))))))

theorem State.keepsSchedule.eccCorrected (h : r.keepsSchedule s) : r.keepsSchedule s.eccCorrected :=
  ite h.elsewhere (raise (elsewhere h.elsewhere))

theorem State.keepsSchedule.eccFailed {addr : Nat} (h : r.keepsSchedule s) : r.keepsSchedule (s.eccFailed addr) :=
  ite (unitFault (elsewhere (raise h.elsewhere))) (ite (elsewhere (raise h.elsewhere)) (elsewhere (raise h.elsewhere)))

theorem State.keepsSchedule.eccHit {x : Nat × Bool} (h : r.keepsSchedule s) : r.keepsSchedule (s.eccHit x) :=
  h.eccFailed.ite h.eccCorrected

theorem State.keepsSchedule.breakResv {storer : Option Nat} {a : Nat} (h : r.keepsSchedule s) : r.keepsSchedule (s.breakResv storer a) :=
  h.inDis

theorem State.keepsSchedule.dualRound {x : DualRound} (h : r.keepsSchedule s) : r.keepsSchedule (s.dualRound x) :=
  ite (eccFailed h.elsewhere) (onlyIf (onlyIf (onlyIf (elsewhere h.elsewhere) (fun k => k.breakResv)) (fun k => k.emit)) (fun k =>
      k.emit))

theorem State.keepsSchedule.execMemScrub {dt : Nat} {work : MemWork} (h : r.keepsSchedule s) :
    reaches (execMemScrub dt work s) r.keepsSchedule :=
  ⟨_, rfl, onlyElse (h.elapse.ite (h.elapse.foldl (fun h => h.dualRound))) (fun k => onlyIf ((k.mark.foldl (fun h => h.eccHit)).ite k)
      (fun k' => k'.mark.foldl (fun h => h.eccHit)))⟩

theorem State.keepsSchedule.execMemDramReady {dt : Nat} {ok : Bool} (h : r.keepsSchedule s) :
    reaches (execMemDramReady dt ok s) r.keepsSchedule :=
  ⟨_, rfl, h.elapse.ite (raise (foldl h.elapse.elsewhere (fun h => h.dramWrite)))⟩

theorem State.keepsSchedule.execDisWatchdog {dt k : Nat} (h : r.keepsSchedule s) : reaches (execDisWatchdog dt k s) r.keepsSchedule :=
  ⟨_, rfl, ite (onlyIf (raise h.elapse.inDis) (fun k => k.stopRequest)) h.elapse⟩

/-! #### Recorder -/

theorem State.keepsSchedule.recordNext (h : r.keepsSchedule s) : r.keepsSchedule s.recordNext := by
  unfold State.recordNext
  dsimp only
  split
  · exact h.settleFlush
  · exact ite (startFlush (bufferRecord h.settleFlush.elsewhere)) (onlyIf (bufferRecord h.settleFlush.elsewhere) (fun k => k.elsewhere))

theorem State.keepsSchedule.execCrnRecordWrite {dt : Nat} (h : r.keepsSchedule s) : reaches (execCrnRecordWrite dt s) r.keepsSchedule :=
  ⟨_, rfl, h.elapse.ite h.elapse.recordNext⟩

theorem State.keepsSchedule.crnDesc {d : Desc} {f : State → State} (h : r.keepsSchedule s)
    (hf : ∀ {s : State}, r.keepsSchedule s → r.keepsSchedule (f s)) : r.keepsSchedule (s.crnDesc d f) := h.complete.ite (hf h)

theorem State.keepsSchedule.execCrnFlush {dt ring index : Nat} (h : r.keepsSchedule s) :
    reaches (execCrnFlush dt ring index s) r.keepsSchedule :=
  ⟨_, rfl, h.elapse.withDesc (fun h => h.crnDesc (fun h => h.wait.startFlush))⟩

theorem State.keepsSchedule.autoFlush (h : r.keepsSchedule s) : r.keepsSchedule s.autoFlush :=
  ite (startFlush (h.mark.ite h)) (h.mark.ite h)

theorem State.keepsSchedule.execCrnFlushAuto {dt : Nat} (h : r.keepsSchedule s) : reaches (execCrnFlushAuto dt s) r.keepsSchedule :=
  ⟨_, rfl, h.elapse.ite h.elapse.autoFlush⟩

theorem State.keepsSchedule.endFlush {bad : List Nat} (h : r.keepsSchedule s) : r.keepsSchedule (s.endFlush bad) :=
  foldl (raise h.settleFlush.flushAll.elsewhere) (fun h => h.complete)

theorem State.keepsSchedule.execCrnFlushDone {now : Timed (List Nat)} (h : r.keepsSchedule s) :
    reaches (execCrnFlushDone now s) r.keepsSchedule :=
  ⟨_, rfl, h.elapse.ite h.elapse.endFlush⟩

theorem State.keepsSchedule.crnRead {d : Desc} {store : Tbl Record} (h : r.keepsSchedule s) : r.keepsSchedule (s.crnRead d store) :=
  complete h.writePayload

theorem State.keepsSchedule.execCrnRead {dt ring index : Nat} (h : r.keepsSchedule s) :
    reaches (execCrnRead dt ring index s) r.keepsSchedule :=
  ⟨_, rfl, h.elapse.withDesc (fun h => h.crnDesc (fun h => h.complete.ite (h.complete.ite h.settleFlush.crnRead)))⟩

theorem State.keepsSchedule.classXfer {d : Desc} {f : State → Desc → Nat → Nat → State} (h : r.keepsSchedule s)
    (hf : ∀ {s : State} {d : Desc} {n2 n3 : Nat}, r.keepsSchedule s → r.keepsSchedule (f s d n2 n3)) :
    r.keepsSchedule (s.classXfer d f) := h.crnDesc (fun h => h.tableXfer (fun h => hf h))

theorem State.keepsSchedule.execCrnClassWriteStaging {dt ring index : Nat} {payload : List Byte} (h : r.keepsSchedule s) :
    reaches (execCrnClassWriteStaging dt ring index payload s) r.keepsSchedule :=
  ⟨_, rfl, h.elapse.withDesc (fun h => h.classXfer (fun h => complete h.countClamps.elsewhere))⟩

theorem State.keepsSchedule.execCrnClassReadStaging {dt ring index : Nat} (h : r.keepsSchedule s) :
    reaches (execCrnClassReadStaging dt ring index s) r.keepsSchedule :=
  ⟨_, rfl, h.elapse.withDesc (fun h => h.complete.ite (h.classXfer (fun h => complete h.writePayload)))⟩

theorem State.keepsSchedule.execCrnClassReadActive {dt ring index : Nat} (h : r.keepsSchedule s) :
    reaches (execCrnClassReadActive dt ring index s) r.keepsSchedule :=
  ⟨_, rfl, h.elapse.withDesc (fun h => h.classXfer (fun h => complete h.writePayload))⟩

theorem State.keepsSchedule.execCrnErase {dt ring index : Nat} (h : r.keepsSchedule s) :
    reaches (execCrnErase dt ring index s) r.keepsSchedule :=
  ⟨_, rfl, h.elapse.withDesc (fun h => h.crnDesc (fun h => h.complete.ite (complete h.settleFlush.elsewhere)))⟩

/-! #### RegWrite -/

theorem State.keepsSchedule.clearBits {off v : Nat} (h : r.keepsSchedule s) : r.keepsSchedule (s.clearBits off v) := by
  unfold State.clearBits
  split
  · exact ite h.elsewhere h
  · exact ite h.elsewhere h
  · exact h.elsewhere
  · exact ite h.elsewhere h
  · exact ite h.elsewhere h
  · exact ite h.elsewhere h
  · exact ite h.elsewhere h
  · exact h.elsewhere
  · exact ite h.elsewhere h
  · exact ite h.inDis h
  · exact ite h.inPwr h
  · split
    · exact h.modRing.ite h
    · exact h

theorem State.keepsSchedule.writeMsix {i v : Nat} (h : r.keepsSchedule s) : r.keepsSchedule (s.writeMsix i v) :=
  ite (signal (elsewhere h.elsewhere)) h.elsewhere

theorem State.keepsSchedule.writeTamper {x : RegDef} {v : Nat} (h : r.keepsSchedule s) : r.keepsSchedule (s.writeTamper x v) :=
  h.ite (countClamps h.elsewhere)

theorem State.keepsSchedule.writeFields {x : RegDef} {off v : Nat} (h : r.keepsSchedule s) : r.keepsSchedule (s.writeFields x off v) :=
  onlyIf (ite h.writeStaged h) (fun k => k.writeDirect)

theorem State.keepsSchedule.latchBases {off : Nat} (h : r.keepsSchedule s) : r.keepsSchedule (s.latchBases off) := by
  unfold State.latchBases
  refine h.latchPair.ite (h.latchPair.ite ?_)
  split
  · exact h.latchPair
  · exact h.latchPair
  · exact h

theorem State.keepsSchedule.afterWrite {was : State} {off : Nat} (h : r.keepsSchedule s) : r.keepsSchedule (s.afterWrite was off) := by
  unfold State.afterWrite
  refine h.ppsSettle.ite (h.mirSettle.ite ?_)
  split
  · exact ite h.inDis h
  · exact h

theorem State.keepsSchedule.writeReg {off v : Nat} (h : r.keepsSchedule s) : r.keepsSchedule (s.writeReg off v) := by
  unfold State.writeReg
  refine h.ite ?_
  split
  · exact h.writeMsix
  · split
    · exact h.clearBits
    · exact ite h.writeTamper (ite (ite h.elsewhere h) (afterWrite (clearBits (latchBases h.writeFields))))

theorem State.keepsSchedule.execRegisterWrite {dt offset size value : Nat} (h : r.keepsSchedule s) :
    reaches (execRegisterWrite dt offset size value s) r.keepsSchedule := ⟨_, rfl, h.elapse.ite h.elapse.writeReg⟩

/-! #### Section -/

theorem State.keepsSchedule.putSec {i lo width v : Nat} (h : r.keepsSchedule s) : r.keepsSchedule (s.putSec i lo width v) := h.elsewhere

theorem State.keepsSchedule.decideSec {i : Nat} {on : Bool} {rateIdx : Nat} (h : r.keepsSchedule s) :
    r.keepsSchedule (s.decideSec i on rateIdx) :=
  h.putSec.putSec.putSec

theorem State.keepsSchedule.modSec {m : Nat} {f : SecMach → SecMach} (h : r.keepsSchedule s) : r.keepsSchedule (s.modSec m f) :=
  h.elsewhere

theorem State.keepsSchedule.report {m i : Nat} {x : SecMach} {applied : Bool} {apply' delivered : Nat} (h : r.keepsSchedule s) :
    r.keepsSchedule (s.report m i x applied apply' delivered).1 := by
  unfold State.report
  refine ite_fst (foldl h.putSec.elsewhere (fun h => h.confirmClaim.ite h.dropClaim)) (ite_fst h.putSec.elsewhere ?_)
  split
  · exact h.putSec.elsewhere
  · exact elsewhere h.putSec.elsewhere

theorem State.keepsSchedule.applyFeedback {f : Feedback} (h : r.keepsSchedule s) : r.keepsSchedule (s.applyFeedback f) := by
  unfold State.applyFeedback
  refine h.ite ?_
  dsimp only
  split
  · exact raise (elsewhere (foldl_pair h (fun h => h.ite_fst h.report)))
  · exact foldl_pair h (fun h => h.ite_fst h.report)

theorem State.keepsSchedule.markStale {m : Nat} (h : r.keepsSchedule s) : r.keepsSchedule (s.markStale m) := h.foldl (fun h => h.putSec)

theorem State.keepsSchedule.expireClaims {k : Nat} (h : r.keepsSchedule s) : r.keepsSchedule (s.expireClaims k) :=
  foldl ((h.foldl (fun h => h.dropClaim)).elsewhere) (fun h => h.raise)

theorem State.keepsSchedule.epochOne {tf k : Nat} (h : r.keepsSchedule s) : r.keepsSchedule (s.epochOne tf k) :=
  expireClaims (foldl (foldl h.elsewhere (fun h => h.applyFeedback)) (fun h => h.markStale))

theorem State.keepsSchedule.coverPoint {m f : Nat} {p : Rat × Rat} (h : r.keepsSchedule s) : r.keepsSchedule (s.coverPoint m f p).1 := by
  unfold State.coverPoint
  split
  · exact h
  · split
    · next e => exact (h.coverage.of_eq e)
    · next e => exact (h.coverage.of_eq e)

theorem State.keepsSchedule.exclPoint {f : Nat} {p : Rat × Rat} (h : r.keepsSchedule s) : r.keepsSchedule (s.exclPoint f p).1 := by
  unfold State.exclPoint
  split
  · exact h
  · exact h.ite_fst h.exclusion

theorem State.keepsSchedule.prescPoints {f layer : Nat} {pts : List (Rat × Rat)} (h : r.keepsSchedule s) :
    r.keepsSchedule (s.prescPoints f layer pts).1 := by
  unfold State.prescPoints
  refine h.ite_fst (foldl_pair h (fun h => ?_))
  split
  · exact h
  · exact h.prescription

theorem State.keepsSchedule.sampleSec {m k A : Nat} {x : Motion} {impl : Option Implement} (h : r.keepsSchedule s) :
    r.keepsSchedule (s.sampleSec m x impl k A).1 := by
  unfold State.sampleSec
  refine foldl_pair (foldl_pair (foldl_pair h fun h => h.coverPoint) fun h => h.exclPoint) fun h => ?_
  split
  · exact h.prescPoints
  · exact h

theorem State.keepsSchedule.turnSec {m reason : Nat} {x : Option Motion} {impl : Option Implement} {k A : Nat} (h : r.keepsSchedule s) :
    r.keepsSchedule (s.turnSec m reason x impl k A).1 := by
  unfold State.turnSec
  split
  · exact h.decideSec.ite_fst h.sampleSec.decideSec
  · exact h.decideSec

theorem State.keepsSchedule.claimSec {m k A : Nat} {v : SecEval} (h : r.keepsSchedule s) : r.keepsSchedule (s.claimSec m k A v).1 := by
  unfold State.claimSec
  refine foldl_pair h (fun h => ?_)
  split
  · next e => exact (h.coverage.of_eq e).ite_fst (ite_fst ((h.coverage.of_eq e).elsewhere) (setCov ((h.coverage.of_eq e).elsewhere)))
  · next e => exact (h.coverage.of_eq e)

theorem State.keepsSchedule.machineRates {m : Nat} {evals : List (Nat × SecEval)} (h : r.keepsSchedule s) :
    r.keepsSchedule (s.machineRates m evals).1 :=
  foldl_pair h (fun h => h.modSec)

theorem State.keepsSchedule.sendBlocks {m reason k A : Nat} {evals : List (Nat × SecEval)} (h : r.keepsSchedule s) :
    r.keepsSchedule (s.sendBlocks m reason k A evals) := modSec (foldl (h.machineRates.ite_fst h) (fun h => h.queueDl))

theorem State.keepsSchedule.turn {m tf A : Nat} (h : r.keepsSchedule s) : r.keepsSchedule (s.turn m tf A).1 := by
  unfold State.turn
  exact foldl_pair (modSec (foldl_pair (onlyIf (h.modSec.raise.ite h.modSec) (fun k => k.raise)) (fun h => h.turnSec))) (fun h =>
      h.claimSec)

theorem State.keepsSchedule.epochTwo {tf k A : Nat} (h : r.keepsSchedule s) : r.keepsSchedule (s.epochTwo tf k A) := by
  unfold State.epochTwo
  extract_lets u
  have hu : r.keepsSchedule u := h.releaseClaims
  clear_value u
  split
  next v turns full e =>
  extract_lets w
  have hw : r.keepsSchedule w := by
    have hv : r.keepsSchedule v := by
      rw [show v = _ from (congrArg Prod.fst e).symm]
      exact foldl_pair hu fun h => h.turn
    exact hv.raise.ite hv
  exact hw.ite (foldl hw fun h => h.sendBlocks)

theorem State.keepsSchedule.epoch {tf us : Nat} (h : r.keepsSchedule s) : r.keepsSchedule (s.epoch tf us) :=
  raise h.epochOne.epochTwo.elsewhere

theorem State.keepsSchedule.rearmEpoch {p : Periodic} (h : r.keepsSchedule s) : r.keepsSchedule (s.rearmEpoch p) := h.elsewhere

theorem State.keepsSchedule.execSecEpoch {dt us : Nat} (h : r.keepsSchedule s) : reaches (execSecEpoch dt us s) r.keepsSchedule := by
  unfold Machine.execSecEpoch
  split
  next us u e =>
  have hu : r.keepsSchedule u := h.elapse.turnLength.of_pair e
  refine ⟨_, rfl, ?_⟩
  split
  · exact hu
  · exact hu.ite (hu.rearmEpoch.ite (ite (raise hu.rearmEpoch.elsewhere) hu.rearmEpoch.epoch))

/-! #### Stop -/

theorem State.keepsSchedule.setPin {pinB stop : Bool} (h : r.keepsSchedule s) : r.keepsSchedule (s.setPin pinB stop) := h.elsewhere

theorem State.keepsSchedule.execStopInEdge {dt : Nat} {pinB stop : Bool} (h : r.keepsSchedule s) :
    reaches (execStopInEdge dt pinB stop s) r.keepsSchedule :=
  ⟨_, rfl, h.elapse.ite (h.elapse.setPin.stopRequest.ite h.elapse.setPin)⟩

theorem State.keepsSchedule.execStpPinFault {dt : Nat} (h : r.keepsSchedule s) : reaches (execStpPinFault dt s) r.keepsSchedule := by
  refine ⟨_, rfl, ?_⟩
  split
  · exact h.elapse.ite (raise h.elapse.elsewhere)
  · exact h.elapse

theorem State.keepsSchedule.setPulse {outB : Bool} {p : Option Nat} {k : Nat} (h : r.keepsSchedule s) :
    r.keepsSchedule (s.setPulse outB p k) :=
  h.elsewhere

theorem State.keepsSchedule.execStpSelftestPulse {dt : Nat} {outB : Bool} (h : r.keepsSchedule s) :
    reaches (execStpSelftestPulse dt outB s) r.keepsSchedule :=
  ⟨_, rfl, h.elapse.ite h.elapse.setPulse.settleOuts⟩

theorem State.keepsSchedule.execStpSelftestPulseEnd {dt : Nat} {outB readBack : Bool} (h : r.keepsSchedule s) :
    reaches (execStpSelftestPulseEnd dt outB readBack s) r.keepsSchedule := by
  refine ⟨_, rfl, ?_⟩
  split
  · exact h.elapse.ite (onlyElse (setPulse (settleOuts (setPulse (ite h.elapse.elsewhere h.elapse)))) (fun k => k.stickPad.fatal))
  · exact h.elapse

theorem State.keepsSchedule.execStpOutMismatch {dt : Nat} {outB : Bool} (h : r.keepsSchedule s) :
    reaches (execStpOutMismatch dt outB s) r.keepsSchedule :=
  ⟨_, rfl, h.elapse.stickPad.fatal⟩

theorem State.keepsSchedule.stpStop {d : Desc} (h : r.keepsSchedule s) : r.keepsSchedule (s.stpStop d) :=
  h.complete.ite h.stopRequest.complete

theorem State.keepsSchedule.execStpStop {dt ring index : Nat} (h : r.keepsSchedule s) :
    reaches (execStpStop dt ring index s) r.keepsSchedule :=
  ⟨_, rfl, h.elapse.withDesc (fun h => h.stpStop)⟩

theorem State.keepsSchedule.refuseRelease {d : Desc} {status : Nat} (h : r.keepsSchedule s) :
    r.keepsSchedule (s.refuseRelease d status) :=
  h.raise.complete

theorem State.keepsSchedule.stpArm {d : Desc} (h : r.keepsSchedule s) : r.keepsSchedule (s.stpArm d) := by
  unfold State.stpArm
  dsimp only
  split
  · exact h.refuseRelease
  · exact complete (raise h.elsewhere)

theorem State.keepsSchedule.execStpArm {dt ring index : Nat} (h : r.keepsSchedule s) :
    reaches (execStpArm dt ring index s) r.keepsSchedule :=
  ⟨_, rfl, h.elapse.withDesc (fun h => h.stpArm)⟩

theorem State.keepsSchedule.release (h : r.keepsSchedule s) : r.keepsSchedule s.release := holdFrames (raise (settleOuts h.elsewhere))

theorem State.keepsSchedule.stpConfirm {d : Desc} (h : r.keepsSchedule s) : r.keepsSchedule (s.stpConfirm d) := by
  unfold State.stpConfirm
  split
  · exact refuseRelease h.elsewhere
  · exact h.release.complete

theorem State.keepsSchedule.execStpConfirm {dt ring index : Nat} (h : r.keepsSchedule s) :
    reaches (execStpConfirm dt ring index s) r.keepsSchedule :=
  ⟨_, rfl, h.elapse.withDesc (fun h => h.stpConfirm)⟩

theorem State.keepsSchedule.execStpArmExpired {dt : Nat} (h : r.keepsSchedule s) : reaches (execStpArmExpired dt s) r.keepsSchedule := by
  refine ⟨_, rfl, ?_⟩
  split
  · exact h.elapse.ite h.elapse.elsewhere
  · exact h.elapse

theorem State.keepsSchedule.reEnable {m : Nat} (h : r.keepsSchedule s) : r.keepsSchedule (s.reEnable m) :=
  thawEnable h.queueBlock.elsewhere

theorem State.keepsSchedule.stpReEnable {d : Desc} (h : r.keepsSchedule s) : r.keepsSchedule (s.stpReEnable d) :=
  h.complete.ite (h.complete.ite (h.complete.ite (h.complete.ite (((h.foldl (fun h => h.reEnable)).raise).complete))))

theorem State.keepsSchedule.execStpReEnable {dt ring index : Nat} (h : r.keepsSchedule s) :
    reaches (execStpReEnable dt ring index s) r.keepsSchedule :=
  ⟨_, rfl, h.elapse.withDesc (fun h => h.stpReEnable)⟩

/-! #### Cores -/

theorem State.keepsSchedule.closedDram {core a : Nat} (h : r.keepsSchedule s) : r.keepsSchedule (s.closedDram core a) := h.eccFailed.ite h

theorem State.keepsSchedule.access {core k : Nat} {x : Access} {a n : Nat} (h : r.keepsSchedule s) :
    r.keepsSchedule (s.access core k x a n).1 := by
  unfold State.access
  refine h.ite_fst (h.ite_fst ?_)
  split
  · refine h.ite_fst ?_
    split
    · exact h.eccFailed
    · exact h
  · exact h.closedDram

theorem State.keepsSchedule.busRead {off size : Nat} (h : r.keepsSchedule s) : r.keepsSchedule (s.busRead off size).2 := by
  unfold State.busRead
  split
  · exact h
  · split
    · exact h.popStamp
    · split
      · exact h.elsewhere
      · split
        · exact h
        · exact h

theorem State.keepsSchedule.readTarget {core n : Nat} {g : CoreTarget} {fetch : Bool} (h : r.keepsSchedule s) :
    r.keepsSchedule (s.readTarget core g n fetch).1 := by
  unfold State.readTarget
  split
  · exact h
  · exact h
  · exact h.busRead
  · exact ite_fst (draw h.inDis) (draw h.inDis)

theorem State.keepsSchedule.dramByteStore {a : Nat} {b : Byte} (h : r.keepsSchedule s) : r.keepsSchedule (s.dramByteStore a b) := by
  unfold State.dramByteStore
  split
  · exact h.dramPut
  · split
    · exact h.dramPut
    · exact h.elsewhere

theorem State.keepsSchedule.done {k len rd : Nat} {v : Word} (h : r.keepsSchedule s) : r.keepsSchedule (s.done k len rd v) :=
  h.modThread_stays ⟨rfl, rfl, rfl, rfl⟩

theorem State.keepsSchedule.jump {k len rd : Nat} {target : Word} (h : r.keepsSchedule s) : r.keepsSchedule (s.jump k len rd target) :=
  h.modThread_stays ⟨rfl, rfl, rfl, rfl⟩

theorem State.keepsSchedule.coreLoad {core k len size rd a : Nat} {isSigned : Bool} (h : r.keepsSchedule s) :
    r.keepsSchedule (s.coreLoad core k len size rd a isSigned) := by
  unfold State.coreLoad
  split
  · next e => exact (h.access.of_eq e).trap
  · next e => exact ((h.access.of_eq e).readTarget).done

theorem State.keepsSchedule.coreLr {core k len rd a : Nat} (h : r.keepsSchedule s) : r.keepsSchedule (s.coreLr core k len rd a) := by
  unfold State.coreLr
  split
  · next e => exact (h.access.of_eq e).trap
  · next e => exact done (((h.access.of_eq e).readTarget).inDis)

theorem State.keepsSchedule.stdWrite {core k num : Nat} {v : Word} (h : r.keepsSchedule s) : r.keepsSchedule (s.stdWrite core k num v) := by
  unfold State.stdWrite
  refine ite h.inDis (ite (h.ite h.inDis) ?_)
  split
  · exact h.modThread_stays ⟨rfl, rfl, rfl, rfl⟩
  · exact h.inDis
  · exact h.modThread_stays ⟨rfl, rfl, rfl, rfl⟩
  · exact h.modThread_stays ⟨rfl, rfl, rfl, rfl⟩
  · exact h.modThread_stays ⟨rfl, rfl, rfl, rfl⟩
  · exact h.modThread_stays ⟨rfl, rfl, rfl, rfl⟩
  · exact h

theorem State.keepsSchedule.coreMret {core k : Nat} (h : r.keepsSchedule s) : r.keepsSchedule (s.coreMret core k) :=
  h.trap.ite (h.modThread_stays ⟨rfl, rfl, rfl, rfl⟩)

theorem State.keepsSchedule.fetchHalf {core k a : Nat} (h : r.keepsSchedule s) : r.keepsSchedule (s.fetchHalf core k a).1 := by
  unfold State.fetchHalf
  split
  · next e => exact (h.access.of_eq e)
  · next e => exact (h.access.of_eq e).readTarget

end

end Sys2Proof.Machine

namespace Sys2Proof.Machine

/-! ### Resets, the ROM and firmware start (R24, R434, R493)

These bring the device to a plan of its own, so that they are spoken of by what they reach. -/

/-- A command's effect on a descriptor, or none. -/
theorem State.withDesc_settled {s : State} {ring index op : Nat} {variant : Desc → Bool} {f : State → Desc → State}
    (h : s.plan.settled) (hf : ∀ d, (f s d).plan.settled) : (s.withDesc ring index op variant f).plan.settled := by
  unfold State.withDesc
  split
  · split
    · exact hf _
    · exact h
  · exact h

/-- With the firmware halted an event moves no thread. -/
def State.restsAs (s t : State) : Prop := t.pwr = s.pwr ∧ t.dis.ready = s.dis.ready ∧ t.dis.cores = s.dis.cores

theorem State.restsAs_refl (s : State) : s.restsAs s := ⟨rfl, rfl, rfl⟩

theorem State.restsAs.trans {r s t : State} (h : r.restsAs s) (k : s.restsAs t) : r.restsAs t := by
  obtain ⟨h1, h2, h3⟩ := h
  obtain ⟨k1, k2, k3⟩ := k
  exact ⟨k1.trans h1, k2.trans h2, k3.trans h3⟩

theorem State.recordEvent_restsAs (s : State) (src : Nat) (sev : Option Nat) (arg : List Byte) :
    s.restsAs (s.recordEvent src sev arg) := by
  unfold State.recordEvent
  split
  · exact s.restsAs_refl
  · dsimp only
    split
    · exact s.restsAs_refl
    · exact ⟨rfl, rfl, rfl⟩
    · exact ⟨rfl, rfl, rfl⟩

section
variable {r s : State} (h1 : r.pwr.state ≠ .waitHost) (h2 : r.pwr.state ≠ .run)
include h1 h2

theorem State.restsAs.raiseOnce (h : r.restsAs s) (e : Ev) (i : Nat) (a : List Byte) : r.restsAs (s.raiseOnce e i a).1 := by
  refine (h.trans ?_).trans (State.recordEvent_restsAs ..)
  rw [State.routePosts_of_halted (by rwa [h.1]) (by rwa [h.1])]
  exact s.restsAs_refl

theorem State.restsAs.lostPosts (h : r.restsAs s) (l : List Nat) : r.restsAs (s.lostPosts l) := by
  induction l generalizing s with
  | nil => exact h
  | cons t l ih => exact ih (h.raiseOnce h1 h2 ..)

theorem State.restsAs.noteTrace (h : r.restsAs s) (n : Nat) : r.restsAs (s.noteTrace n) := by
  induction n generalizing s with
  | zero => exact h
  | succ n ih =>
    unfold State.noteTrace
    split
    · have h : r.restsAs { s with dis := { s.dis with traceEv := s.dis.traceEv - 1 } } := h
      exact ih ((h.raiseOnce h1 h2 ..).lostPosts h1 h2 _)
    · split
      · have h : r.restsAs { s with mem := { s.mem with failed := s.mem.failed - 1 } } := h
        exact ih ((h.raiseOnce h1 h2 ..).lostPosts h1 h2 _)
      · exact h

theorem State.restsAs.raise (h : r.restsAs s) (e : Ev) (i : Nat) (a : List Byte) : r.restsAs (s.raise e i a) := by
  unfold State.raise
  split
  · exact h
  · exact ((h.raiseOnce h1 h2 ..).lostPosts h1 h2 _).noteTrace h1 h2 _

end

/-- A device that leaves its reset has no thread in a list or on a core, in its ROM or in `RECOVERY`. -/
theorem State.leaveReset_settled {s : State} (h : s.plan.settled) (hi : s.plan.held = true) (low : Bool) :
    (s.leaveReset low).plan.settled := by
  have hn : ¬ s.plan.awake := fun a => absurd (hi.symm.trans a.1) (by decide)
  obtain ⟨hr, hc⟩ := h.asleep hn
  obtain ⟨n1, n2⟩ := h.halted hn
  unfold State.leaveReset
  extract_lets pwr stp u v w x
  have hu : u.plan.settled :=
    ⟨⟨h.order.threads, h.order.ready, h.order.cores, h.order.lists, h.order.on⟩, nofun, fun _ => ⟨hr, hc⟩⟩
  have hv : u.restsAs v := by
    unfold v State.seed
    split <;> exact ⟨rfl, rfl, rfl⟩
  have hw : u.restsAs w := State.restsAs.raise (r := u) n1 n2 hv ..
  have hx : u.restsAs x := by
    unfold x
    split
    · exact hw
    · exact State.restsAs.raise (r := u) n1 n2 hw ..
  have kx : x.plan.settled := by
    have kw : u.keepsSchedule w := u.keepsSchedule_refl.seed.raise
    exact (kw.ite kw.raise).settled hu
  split
  · exact ⟨⟨kx.order.threads, kx.order.ready, kx.order.cores, kx.order.lists, kx.order.on⟩, fun _ => ⟨nofun, nofun⟩,
      fun _ => ⟨hx.2.1.trans hr, hx.2.2.trans hc⟩⟩
  · exact kx

theorem State.restartAndLeave_settled (s : State) (cause : Nat) : ((s.restart cause).leaveReset false).plan.settled :=
  State.leaveReset_settled (s.restart_settled cause) (s.restart_held cause) false

/-! ### Commands that do not keep the schedule but leave it settled -/

theorem execPorstNFall_settled (s : State) (dt : Nat) : reaches (execPorstNFall dt s) (·.plan.settled) :=
  ⟨_, rfl, State.restart_settled ..⟩

section
variable {s : State} (h : s.plan.settled)
include h

theorem execPowerOnReset_settled (dt : Nat) (good : BitVec 10) (vbat : Bool) :
    reaches (execPowerOnReset dt good vbat s) (·.plan.settled) := by
  refine ⟨_, rfl, ?_⟩
  split
  · have k := (s.keepsSchedule_refl.elapse (dt := dt))
    exact Plan.leads.settled (State.keepsSchedule.ite k.inPwr (State.keepsSchedule.elsewhere k.inPwr)) h
  · exact State.restart_settled ..

theorem execResetRelease_settled (dt : Nat) (low : Bool) : reaches (execResetRelease dt low s) (·.plan.settled) := by
  refine ⟨_, rfl, ?_⟩
  have hs := s.keepsSchedule_refl.elapse (dt := dt) |>.settled h
  split
  · next hc =>
    simp only [Bool.and_eq_true, decide_eq_true_eq] at hc
    obtain ⟨⟨hi, -⟩, -⟩ := hc
    exact State.leaveReset_settled hs hi low
  · exact hs

theorem execPwrDeviceReset_settled (dt : Nat) (v : Word) : reaches (execPwrDeviceReset dt v s) (·.plan.settled) := by
  refine ⟨_, rfl, ?_⟩
  split
  · exact s.keepsSchedule_refl.elapse.settled h
  · exact State.restartAndLeave_settled ..

theorem execRomSlotSelect_settled (now : Timed NvRun) : reaches (execRomSlotSelect now s) (·.plan.settled) := by
  have k := s.keepsSchedule_refl.elapse (dt := now.dt)
  refine ⟨_, rfl, ?_⟩
  split
  · exact k.settled h
  · next hc =>
    simp only [Bool.or_eq_true, decide_eq_true_eq, not_or, not_not] at hc
    obtain ⟨⟨⟨-, hb⟩, -⟩, -⟩ := hc
    have hn : ¬ (s.elapse now.dt).plan.awake := fun a => a.2.1 hb
    split
    · exact State.bootActive_settled (k.settled h) hn _
    · split
      · exact State.rollback_settled (k.settled h) hn _
      · have boots {u : State} (hu : (s.elapse now.dt).keepsSchedule u) : (u.rollback (runNext now.env)).plan.settled :=
          State.rollback_settled (hu.settled (k.settled h)) (mt hu.awake.1 hn) _
        have k := (s.elapse now.dt).keepsSchedule_refl
        have hs := (s.keepsSchedule_refl.elapse (dt := now.dt)).settled h
        split
        · next e => exact (k.commitPtr.of_eq e).settled hs
        · next e =>
          have ku := k.commitPtr.of_eq e
          dsimp only
          split
          · exact ku.raise.loadImage.settled hs
          · exact boots ku.noteFail

theorem execFirmwareStart_settled (now : Timed NvRun) (levels : BitVec 4) :
    reaches (execFirmwareStart now levels s) (·.plan.settled) := by
  have k := s.keepsSchedule_refl.elapse (dt := now.dt)
  refine ⟨_, rfl, ?_⟩
  split
  · exact k.settled h
  · next hc =>
    simp only [Bool.or_eq_true, decide_eq_true_eq, not_or, not_not] at hc
    obtain ⟨⟨⟨hi, hb⟩, -⟩, -⟩ := hc
    have hi : (s.elapse now.dt).plan.held = false := by simpa using hi
    have hn : ¬ (s.elapse now.dt).plan.awake := fun a => a.2.1 hb
    have hs := k.settled h
    have starts {u : State} (hu : (s.elapse now.dt).keepsSchedule u) : u.startCores.plan.settled :=
      State.startCores_settled (hu.settled hs) (hu.held.trans hi) (mt hu.awake.1 hn)
    have k := (s.elapse now.dt).keepsSchedule_refl
    dsimp only
    split
    · exact starts k.elsewhere.startKeys
    · split
      · next e => exact (State.keepsSchedule.of_eq (State.keepsSchedule.finishMigration k.elsewhere.startKeys) e).settled hs
      · next e => exact starts (State.keepsSchedule.of_eq (State.keepsSchedule.finishMigration k.elsewhere.startKeys) e)

theorem execRecoveryDataReceived_settled (now : Timed NvRun) (frame : List Byte) :
    reaches (execRecoveryDataReceived now frame s) (·.plan.settled) := by
  have k := s.keepsSchedule_refl.elapse (dt := now.dt)
  refine ⟨_, rfl, ?_⟩
  split
  · exact k.settled h
  · extract_lets u v
    have hu : s.keepsSchedule u := k.modPort
    split
    · exact hu.modPort.settled h
    · split
      · exact hu.settled h
      · split
        · exact hu.settled h
        · have hv : s.keepsSchedule v := hu.recoveryBytes
          split
          · exact hv.settled h
          · split
            · exact hv.settled h
            · split
              · exact State.restartAndLeave_settled ..
              · next e => exact (hv.finishUpdate.of_eq e).settled h
              · next e => exact (State.keepsSchedule.elsewhere (hv.finishUpdate.of_eq e)).settled h

theorem execBootUpdateFinish_settled (dt ring index : Nat) (run : NvRun) :
    reaches (execBootUpdateFinish dt ring index run s) (·.plan.settled) := by
  have hs := (s.keepsSchedule_refl.elapse (dt := dt)).settled h
  have k := (s.elapse dt).keepsSchedule_refl
  refine ⟨_, rfl, State.withDesc_settled hs fun d => ?_⟩
  unfold State.unlessHeld
  split
  · exact k.complete.settled hs
  · dsimp only
    split
    · exact State.restartAndLeave_settled ..
    · exact k.finishUpdate.completeNv.settled hs

end
/-! ### Every command -/

/-- What keeps the schedule leaves it settled. -/
theorem reaches_settled {s : State} {x : Result} (h : s.plan.settled) (k : reaches x s.keepsSchedule) : reaches x (·.plan.settled) := by
  obtain ⟨t, e, k⟩ := k
  exact ⟨t, e, k.settled h⟩

theorem exec_settled {s : State} (h : s.plan.settled) (c : Instr) : reaches (exec c s) (·.plan.settled) := by
  have k := s.keepsSchedule_refl
  cases c with
  | powerOnReset => exact execPowerOnReset_settled h ..
  | porstNFall => exact execPorstNFall_settled ..
  | resetRelease => exact execResetRelease_settled h ..
  | pwrDeviceReset => exact execPwrDeviceReset_settled h ..
  | romSlotSelect => exact execRomSlotSelect_settled h ..
  | firmwareStart => exact execFirmwareStart_settled h ..
  | registerWrite => exact reaches_settled h k.execRegisterWrite
  | cfgCommit => exact reaches_settled h k.execCfgCommit
  | hstCommit => exact reaches_settled h k.execHstCommit
  | launchCommitApply => exact reaches_settled h k.execLaunchCommitApply
  | launchEntryFire => exact reaches_settled h k.execLaunchEntryFire
  | hstLaunchCancel => exact reaches_settled h k.execHstLaunchCancel
  | hstNop => exact reaches_settled h k.execHstNop
  | superframeBoundary => exact reaches_settled h k.execSuperframeBoundary
  | slotStart => exact reaches_settled h k.execSlotStart
  | slotEnd => exact reaches_settled h k.execSlotEnd
  | secEpoch => exact reaches_settled h k.execSecEpoch
  | stageMonSample => exact reaches_settled h k.execStageMonSample
  | stageSlowFatal => exact reaches_settled h k.execStageSlowFatal
  | dieLinkFail => exact reaches_settled h k.execDieLinkFail
  | securityCoreFault => exact reaches_settled h k.execSecurityCoreFault
  | pwrTempSample => exact reaches_settled h k.execPwrTempSample
  | pfailFall => exact reaches_settled h k.execPfailFall
  | pfailClear => exact reaches_settled h k.execPfailClear
  | tbHostTime => exact reaches_settled h k.execTbHostTime
  | ppsInEdge => exact reaches_settled h k.execPpsInEdge
  | tbSourceQualify => exact reaches_settled h k.execTbSourceQualify
  | tbSourceLost => exact reaches_settled h k.execTbSourceLost
  | tbStepApply => exact reaches_settled h k.execTbStepApply
  | ppsOutEdge => exact reaches_settled h k.execPpsOutEdge
  | tbErrEstUpdate => exact reaches_settled h k.execTbErrEstUpdate
  | tbStampPop => exact reaches_settled h k.execTbStampPop
  | tbAlarmArm => exact reaches_settled h k.execTbAlarmArm
  | tbAlarmFire => exact reaches_settled h k.execTbAlarmFire
  | ptpMessageReceived => exact reaches_settled h k.execPtpMessageReceived
  | ptpMessageSend => exact reaches_settled h k.execPtpMessageSend
  | ptpAnnounceTimeout => exact reaches_settled h k.execPtpAnnounceTimeout
  | fldTileLoad => exact reaches_settled h k.execFldTileLoad
  | fldTileSave => exact reaches_settled h k.execFldTileSave
  | fldTableWriteStaging => exact reaches_settled h k.execFldTableWriteStaging
  | fldTableReadStaging => exact reaches_settled h k.execFldTableReadStaging
  | fldTableReadActive => exact reaches_settled h k.execFldTableReadActive
  | fldSyncApply => exact reaches_settled h k.execFldSyncApply
  | fldSyncSend => exact reaches_settled h k.execFldSyncSend
  | mapDeltaReceived => exact reaches_settled h k.execMapDeltaReceived
  | fldCopyDone => exact reaches_settled h k.execFldCopyDone
  | gnsCapture => exact reaches_settled h k.execGnsCapture
  | gnsNavLoad => exact reaches_settled h k.execGnsNavLoad
  | gnsNavSave => exact reaches_settled h k.execGnsNavSave
  | gnsAcq => exact reaches_settled h k.execGnsAcq
  | gnsAcqDone => exact reaches_settled h k.execGnsAcqDone
  | gnsChanStart => exact reaches_settled h k.execGnsChanStart
  | gnsChanRelease => exact reaches_settled h k.execGnsChanRelease
  | gnsChanRetune => exact reaches_settled h k.execGnsChanRetune
  | gnsLoopUpdate => exact reaches_settled h k.execGnsLoopUpdate
  | gnsChanTracking => exact reaches_settled h k.execGnsChanTracking
  | gnsChanLost => exact reaches_settled h k.execGnsChanLost
  | gnsNosig => exact reaches_settled h k.execGnsNosig
  | gnsMeasEpoch => exact reaches_settled h k.execGnsMeasEpoch
  | gnsMeasReady => exact reaches_settled h k.execGnsMeasReady
  | mirEscalate => exact reaches_settled h k.execMirEscalate
  | mirLevelFall => exact reaches_settled h k.execMirLevelFall
  | mirConditionClear => exact reaches_settled h k.execMirConditionClear
  | mirClear => exact reaches_settled h k.execMirClear
  | mirBaseReset => exact reaches_settled h k.execMirBaseReset
  | mirPeakScan => exact reaches_settled h k.execMirPeakScan
  | fixRtcmStale => exact reaches_settled h k.execFixRtcmStale
  | fixRtcmGet => exact reaches_settled h k.execFixRtcmGet
  | fabCorrectionReceived => exact reaches_settled h k.execFabCorrectionReceived
  | fixRoverReset => exact reaches_settled h k.execFixRoverReset
  | fixStrings => exact reaches_settled h k.execFixStrings
  | uplinkReceived => exact reaches_settled h k.execUplinkReceived
  | fixEpochDeadline => exact reaches_settled h k.execFixEpochDeadline
  | fixSolveStart => exact reaches_settled h k.execFixSolveStart
  | fixSolReady => exact reaches_settled h k.execFixSolReady
  | joinReqReceived => exact reaches_settled h k.execJoinReqReceived
  | nodePollReceived => exact reaches_settled h k.execNodePollReceived
  | pendantStopReceived => exact reaches_settled h k.execPendantStopReceived
  | hopNodeDlDiscard => exact reaches_settled h k.execHopNodeDlDiscard
  | hopSend => exact reaches_settled h k.execHopSend
  | hopRecv => exact reaches_settled h k.execHopRecv
  | carRequestDecide => exact reaches_settled h k.execCarRequestDecide
  | carHostTimeout => exact reaches_settled h k.execCarHostTimeout
  | carExpiry => exact reaches_settled h k.execCarExpiry
  | carTrackLoad => exact reaches_settled h k.execCarTrackLoad
  | carTrackRead => exact reaches_settled h k.execCarTrackRead
  | carTaskSet => exact reaches_settled h k.execCarTaskSet
  | carReserve => exact reaches_settled h k.execCarReserve
  | carReqGet => exact reaches_settled h k.execCarReqGet
  | carRelease => exact reaches_settled h k.execCarRelease
  | carResume => exact reaches_settled h k.execCarResume
  | stopInEdge => exact reaches_settled h k.execStopInEdge
  | stpPinFault => exact reaches_settled h k.execStpPinFault
  | fabricStopReceived => exact reaches_settled h k.execFabricStopReceived
  | fabStopRepeat => exact reaches_settled h k.execFabStopRepeat
  | stpSelftestPulse => exact reaches_settled h k.execStpSelftestPulse
  | stpOutMismatch => exact reaches_settled h k.execStpOutMismatch
  | stpStop => exact reaches_settled h k.execStpStop
  | stpArm => exact reaches_settled h k.execStpArm
  | stpConfirm => exact reaches_settled h k.execStpConfirm
  | stpArmExpired => exact reaches_settled h k.execStpArmExpired
  | stpReEnable => exact reaches_settled h k.execStpReEnable
  | doorbellRead => exact reaches_settled h k.execDoorbellRead
  | descriptorTake => exact reaches_settled h k.execDescriptorTake
  | ringEnable => exact reaches_settled h k.execRingEnable
  | ringDisable => exact reaches_settled h k.execRingDisable
  | ringDrained => exact reaches_settled h k.execRingDrained
  | pcieDmaError => exact reaches_settled h k.execPcieDmaError
  | hstFlr => exact reaches_settled h k.execHstFlr
  | hstLinkDown => exact reaches_settled h k.execHstLinkDown
  | hstIrqModTimeout => exact reaches_settled h k.execHstIrqModTimeout
  | fabHelloSend => exact reaches_settled h k.execFabHelloSend
  | helloReceived => exact reaches_settled h k.execHelloReceived
  | fabLinkTimeout => exact reaches_settled h k.execFabLinkTimeout
  | fabPcsLoss => exact reaches_settled h k.execFabPcsLoss
  | fabModuleChange => exact reaches_settled h k.execFabModuleChange
  | fabClaimRepeat => exact reaches_settled h k.execFabClaimRepeat
  | fabClaimWaitExpired => exact reaches_settled h k.execFabClaimWaitExpired
  | claimReceived => exact reaches_settled h k.execClaimReceived
  | lsaReceived => exact reaches_settled h k.execLsaReceived
  | fabLsaSend => exact reaches_settled h k.execFabLsaSend
  | fabLsaExpire => exact reaches_settled h k.execFabLsaExpire
  | fabSpfRun => exact reaches_settled h k.execFabSpfRun
  | fabFrameReceived => exact reaches_settled h k.execFabFrameReceived
  | machineMsgReceived => exact reaches_settled h k.execMachineMsgReceived
  | fabHostFrameReceived => exact reaches_settled h k.execFabHostFrameReceived
  | fabLearnFilterRetire => exact reaches_settled h k.execFabLearnFilterRetire
  | fabAgeSweep => exact reaches_settled h k.execFabAgeSweep
  | fabSend => exact reaches_settled h k.execFabSend
  | fabRecv => exact reaches_settled h k.execFabRecv
  | fabLearnInsert => exact reaches_settled h k.execFabLearnInsert
  | fabLearnRemove => exact reaches_settled h k.execFabLearnRemove
  | fabLearnLookup => exact reaches_settled h k.execFabLearnLookup
  | fabLearnRead => exact reaches_settled h k.execFabLearnRead
  | fabLearnEvent => exact reaches_settled h k.execFabLearnEvent
  | fabModuleRead => exact reaches_settled h k.execFabModuleRead
  | fabModuleWrite => exact reaches_settled h k.execFabModuleWrite
  | dctlStart => exact reaches_settled h k.execDctlStart
  | dctlSuspend => exact reaches_settled h k.execDctlSuspend
  | dctlResume => exact reaches_settled h k.execDctlResume
  | dctlKill => exact reaches_settled h k.execDctlKill
  | dcfgWrite => exact reaches_settled h k.execDcfgWrite
  | dcinv => exact reaches_settled h k.execDcinv
  | dwany => exact reaches_settled h k.execDwany
  | dwall => exact reaches_settled h k.execDwall
  | dpost => exact reaches_settled h k.execDpost
  | dyield => exact reaches_settled h k.execDyield
  | dkick => exact reaches_settled h k.execDkick
  | dclr => exact reaches_settled h k.execDclr
  | disWatchdog => exact reaches_settled h k.execDisWatchdog
  | disRouteWriteStaging => exact reaches_settled h k.execDisRouteWriteStaging
  | disRouteReadStaging => exact reaches_settled h k.execDisRouteReadStaging
  | disRouteReadActive => exact reaches_settled h k.execDisRouteReadActive
  | memScrub => exact reaches_settled h k.execMemScrub
  | memDramReady => exact reaches_settled h k.execMemDramReady
  | keyCreateDerive => exact reaches_settled h k.execKeyCreateDerive
  | keyCreateGenerate => exact reaches_settled h k.execKeyCreateGenerate
  | keyCreateImport => exact reaches_settled h k.execKeyCreateImport
  | keyDestroy => exact reaches_settled h k.execKeyDestroy
  | keyInvalidate => exact reaches_settled h k.execKeyInvalidate
  | keyInfo => exact reaches_settled h k.execKeyInfo
  | keyCryptGcmEncrypt => exact reaches_settled h k.execKeyCryptGcmEncrypt
  | keyCryptGcmDecrypt => exact reaches_settled h k.execKeyCryptGcmDecrypt
  | keyCryptCcmEncrypt => exact reaches_settled h k.execKeyCryptCcmEncrypt
  | keyCryptCcmDecrypt => exact reaches_settled h k.execKeyCryptCcmDecrypt
  | keyCryptCmacGenerate => exact reaches_settled h k.execKeyCryptCmacGenerate
  | keyCryptCmacVerify => exact reaches_settled h k.execKeyCryptCmacVerify
  | keyCryptHmacGenerate => exact reaches_settled h k.execKeyCryptHmacGenerate
  | keyCryptHmacVerify => exact reaches_settled h k.execKeyCryptHmacVerify
  | keyJobStart => exact reaches_settled h k.execKeyJobStart
  | keyJobDone => exact reaches_settled h k.execKeyJobDone
  | keyWrapOut => exact reaches_settled h k.execKeyWrapOut
  | keyAttest => exact reaches_settled h k.execKeyAttest
  | keyEpochRoll => exact reaches_settled h k.execKeyEpochRoll
  | keyRemask => exact reaches_settled h k.execKeyRemask
  | tamperEvent => exact reaches_settled h k.execTamperEvent
  | bootUpdateBegin => exact reaches_settled h k.execBootUpdateBegin
  | bootUpdateWrite => exact reaches_settled h k.execBootUpdateWrite
  | bootUpdateFinish => exact execBootUpdateFinish_settled h ..
  | bootConfirm => exact reaches_settled h k.execBootConfirm
  | bootExtend => exact reaches_settled h k.execBootExtend
  | bootPeerServe => exact reaches_settled h k.execBootPeerServe
  | bootLogRead => exact reaches_settled h k.execBootLogRead
  | nvmCfgGet => exact reaches_settled h k.execNvmCfgGet
  | nvmUserWrite => exact reaches_settled h k.execNvmUserWrite
  | nvmUserRead => exact reaches_settled h k.execNvmUserRead
  | recoveryRequestSend => exact reaches_settled h k.execRecoveryRequestSend
  | recoveryDataReceived => exact execRecoveryDataReceived_settled h ..
  | bootPeerRequest => exact reaches_settled h k.execBootPeerRequest
  | crnRecordWrite => exact reaches_settled h k.execCrnRecordWrite
  | crnFlush => exact reaches_settled h k.execCrnFlush
  | crnFlushAuto => exact reaches_settled h k.execCrnFlushAuto
  | crnFlushDone => exact reaches_settled h k.execCrnFlushDone
  | crnRead => exact reaches_settled h k.execCrnRead
  | crnClassWriteStaging => exact reaches_settled h k.execCrnClassWriteStaging
  | crnClassReadStaging => exact reaches_settled h k.execCrnClassReadStaging
  | crnClassReadActive => exact reaches_settled h k.execCrnClassReadActive
  | crnErase => exact reaches_settled h k.execCrnErase
  | fabEgressDequeue => exact reaches_settled h k.execFabEgressDequeue
  | fabBlockLock => exact reaches_settled h k.execFabBlockLock
  | pcieLinkUp => exact reaches_settled h k.execPcieLinkUp
  | gnsNosigClear => exact reaches_settled h k.execGnsNosigClear
  | ppsOutPulseEnd => exact reaches_settled h k.execPpsOutPulseEnd
  | stpSelftestPulseEnd => exact reaches_settled h k.execStpSelftestPulseEnd
  | gnsCaptureDone => exact reaches_settled h k.execGnsCaptureDone
  | backupSupplySwitch => exact reaches_settled h k.execBackupSupplySwitch

/-! ### The cores (R427, R430, R448) -/

section
variable {s : State} (h : s.plan.settled)
include h

/-- A store to the register view may be any command's. -/
theorem State.viewStore_settled (off n v : Nat) : (s.viewStore off n v).plan.settled := by
  unfold State.viewStore
  split
  · exact h
  · obtain ⟨t, e, ht⟩ := exec_settled (s.keepsSchedule_refl.draw.settled h) (s.viewCommand off v)
    rw [e]
    exact ht

theorem State.writeTarget_settled (core a : Nat) (g : CoreTarget) (b : List Byte) : (s.writeTarget core a g b).plan.settled := by
  have k := s.keepsSchedule_refl
  unfold State.writeTarget
  split
  · exact (State.keepsSchedule.breakResv k.elsewhere).settled h
  · exact (State.keepsSchedule.breakResv k.elsewhere).settled h
  · exact State.viewStore_settled h ..
  · exact (State.keepsSchedule.inDis (k.foldl fun h => h.dramByteStore)).settled h

theorem State.coreStore_settled (core t len size a : Nat) (v : Word) : (s.coreStore core t len size a v).plan.settled := by
  have k := s.keepsSchedule_refl
  unfold State.coreStore
  split
  · next e => exact (k.access.of_eq e).trap.settled h
  · next e => exact State.writeTarget_settled ((k.access.of_eq e).done.settled h) ..

theorem State.coreSc_settled (core t len rd a : Nat) (v : Word) : (s.coreSc core t len rd a v).plan.settled := by
  have k := s.keepsSchedule_refl
  unfold State.coreSc
  split
  · next e => exact (k.access.of_eq e).trap.settled h
  · next e =>
    have hu := k.access.of_eq e
    dsimp only
    split
    · exact State.writeTarget_settled
        (Plan.leads.settled (State.keepsSchedule.done (State.keepsSchedule.draw (State.keepsSchedule.inDis hu))) h) ..
    · exact Plan.leads.settled (State.keepsSchedule.done (State.keepsSchedule.draw (State.keepsSchedule.inDis hu))) h

theorem State.coreAmo_settled (core t len rd a : Nat) (op : Amo) (v : Word) : (s.coreAmo core t len rd a op v).plan.settled := by
  have k := s.keepsSchedule_refl
  unfold State.coreAmo
  split
  · next e => exact (k.access.of_eq e).trap.settled h
  · next e => exact State.writeTarget_settled ((k.access.of_eq e).readTarget.done.settled h) ..

end

section
variable {r s : State}

theorem State.keepsSchedule.dctlWrite {sel v : Nat} (h : r.keepsSchedule s) (ha : r.plan.awake) : r.keepsSchedule (s.dctlWrite sel v) := by
  unfold State.dctlWrite
  split
  · exact h.startThread ha
  · exact h.suspendThread ha
  · exact h.resumeThread ha
  · exact h.killThread ha
  · exact h

theorem State.keepsSchedule.customWrite {core k num : Nat} {v : Word} (h : r.keepsSchedule s) (ha : r.plan.awake)
    (hr : s.running core = some k) : r.keepsSchedule (s.customWrite core k num v) := by
  unfold State.customWrite
  dsimp only
  split
  · exact h.select
  · exact h.dcfgWrite ha
  · exact h.modThread_stays ⟨rfl, rfl, rfl, rfl⟩
  · exact h.modThread_stays ⟨rfl, rfl, rfl, rfl⟩
  · exact h.modThread_stays ⟨rfl, rfl, rfl, rfl⟩
  · exact h.dctlWrite ha
  · exact h.dcacheInv
  · exact h.softPost ha
  · exact h.yieldThread ha hr
  · exact h.kick
  · exact h.clearFlags
  · exact h

theorem State.keepsSchedule.coreCsr {core k rd num : Nat} {mode : CsrMode} {src : Nat ⊕ Nat} (h : r.keepsSchedule s)
    (ha : r.plan.awake) (hr : s.running core = some k) : r.keepsSchedule (s.coreCsr core k rd num mode src) := by
  unfold State.coreCsr
  dsimp only
  split
  · exact h.trap
  · exact h.trap.ite (h.draw.done.ite ((h.draw.waitOn ha hr).ite ((h.draw.done.customWrite ha hr).ite h.draw.done.stdWrite)))

end

/-- An instruction of the thread on a core leaves the plan settled. -/
theorem State.runRv_settled {s : State} {core k : Nat} (h : s.plan.settled) (ha : s.plan.awake) (hr : s.running core = some k)
    (len : Nat) (c : Rv) : (s.runRv core k len c).plan.settled := by
  have r := s.keepsSchedule_refl
  unfold State.runRv
  cases c with
  | lui => exact r.done.settled h
  | auipc => exact r.done.settled h
  | jal => exact r.jump.settled h
  | jalr => exact r.jump.settled h
  | branch => exact Plan.leads.settled (r.jump.ite r.done) h
  | load => exact r.coreLoad.settled h
  | store => exact State.coreStore_settled h ..
  | opImm => exact r.done.settled h
  | op => exact r.done.settled h
  | fence => exact r.done.settled h
  | fenceI => exact (State.keepsSchedule.done r.inDis).settled h
  | ecall => exact r.trap.settled h
  | ebreak => exact r.trap.settled h
  | mret => exact r.coreMret.settled h
  | wfi => exact r.done.settled h
  | csr => exact (r.coreCsr ha hr).settled h
  | lr => exact r.coreLr.settled h
  | sc => exact State.coreSc_settled h ..
  | amo => exact State.coreAmo_settled h ..

/-- An access that is let through changes nothing. -/
theorem State.access_ok {s u : State} {core k a n : Nat} {x : Access} {g : CoreTarget} (e : s.access core k x a n = (u, .ok g)) :
    u = s := by
  unfold State.access at e
  split at e
  · cases e
  · split at e
    · cases e
    · split at e
      · split at e
        · cases e
        · split at e
          · cases e
          · cases e
            rfl
      · cases e

/-- A read changes no thread. -/
theorem State.readTarget_plan (s : State) (core : Nat) (g : CoreTarget) (n : Nat) (fetch : Bool) :
    (s.readTarget core g n fetch).1.plan = s.plan := by
  unfold State.readTarget
  split
  · rfl
  · rfl
  · dsimp only
    unfold State.busRead State.popStamp
    repeat' split
    all_goals rfl
  · dsimp only
    split
    · rfl
    · rfl

theorem State.fetchHalf_ok {s u : State} {core k a lo : Nat} (e : s.fetchHalf core k a = (u, .ok lo)) : u.plan = s.plan := by
  unfold State.fetchHalf at e
  split at e
  · cases e
  · next e' =>
    cases State.access_ok e'
    cases e
    exact State.readTarget_plan ..

theorem State.runThread_settled {s : State} {core k : Nat} (h : s.plan.settled) (ha : s.plan.awake) (hr : s.running core = some k) :
    (s.runThread core k).plan.settled := by
  have r := s.keepsSchedule_refl
  have runs {u : State} (hu : u.plan = s.plan) (len : Nat) (c : Rv) : (u.runRv core k len c).plan.settled :=
    State.runRv_settled (by rwa [hu]) (by rwa [hu]) ((congrArg (fun q : Plan => q.running core) hu).trans hr) len c
  unfold State.runThread
  dsimp only
  split
  · next e => exact (r.fetchHalf.of_eq e).trap.settled h
  · next e =>
    have hu := State.fetchHalf_ok e
    have ku := r.fetchHalf.of_eq e
    split
    · split
      · exact ku.trap.settled h
      · exact runs hu ..
    · split
      · next e' => exact (ku.fetchHalf.of_eq e').trap.settled h
      · next e' =>
        split
        · exact (ku.fetchHalf.of_eq e').trap.settled h
        · exact runs ((State.fetchHalf_ok e').trans hu) ..

theorem State.onCore_settled {s : State} {core : Nat} {f : State → Nat → State} (h : s.plan.settled)
    (hf : ∀ k, s.plan.awake → s.running core = some k → (f s k).plan.settled) : (s.onCore core f).plan.settled := by
  unfold State.onCore
  split
  · exact h
  · next hc =>
    split
    · next hr => exact (State.keepsSchedule_refl _).noteTraceDrop.settled (hf _ (State.awake_of_coresRun (by simpa using hc)) hr)
    · exact h

theorem State.runCores_settled {s : State} (h : s.plan.settled) : s.runCores.plan.settled := by
  unfold State.runCores
  generalize List.range 12 = l
  induction l generalizing s with
  | nil => exact h
  | cons c l ih => exact ih (State.onCore_settled h fun k ha hr => State.runThread_settled h ha hr)

/-! ### The obligation -/

theorem State.settled_iff (s : State) : s.plan.settled ↔
    (tsorted s.dis.threads ∧ tsorted s.dis.ready ∧ tsorted s.dis.cores) ∧ s.scheduled := by
  have ha : ¬ s.plan.awake ↔ s.pwr.inReset = true ∨ s.pwr.state = .boot ∨ s.pwr.state = .recovery := by
    simp only [Plan.awake, not_and_or, not_not, Bool.not_eq_false]
  constructor
  · intro h
    exact ⟨⟨h.order.threads, h.order.ready, h.order.cores⟩, h.order.lists, fun c k => h.order.on c k (by simp), h.held,
      fun hn => h.asleep (ha.2 hn)⟩
  · rintro ⟨⟨h1, h2, h3⟩, hl, ho, hh, hn⟩
    exact ⟨⟨h1, h2, h3, hl, fun c k _ => ho c k⟩, hh, fun a => hn (ha.1 a)⟩

/-- A step leaves the plan settled. -/
theorem step_settled {s t : State} (h : s.plan.settled) (e : step s = .next t) : t.plan.settled := by
  unfold step at e
  split at e
  · rw [← Host.Outcome.next.inj e]
    exact State.runCores_settled h
  · next c rest _ =>
    obtain ⟨u, eu, hu⟩ := exec_settled (s := { s with pending := rest }) h c
    have ht : u = t := by
      rw [eu] at e
      exact Host.Outcome.next.inj e
    rwa [← ht]

/-- Settles O58: a step is one instruction of each running thread, or a command. Each operation that they are made of keeps the
schedule, and the commands that reset the device or start its firmware leave it settled. -/
theorem threadsStayScheduled : Obligations.ThreadsStayScheduled := by
  unfold Obligations.ThreadsStayScheduled
  intro s t ht hs e
  obtain ⟨-, ⟨h1, -, h2, h3, -⟩, -⟩ := ht
  exact (t.settled_iff.1 (step_settled (s.settled_iff.2 ⟨⟨h1, h2, h3⟩, hs⟩) e)).2

end Sys2Proof.Machine

namespace Sys2Proof.Machine

/-! ## The stop latch under a commit (R59)

No operation of a commit reaches the class, the source or the count of the latch: taking effect raises the Mirage Monitor's ladder to
level 4 at most (R185, log entry 34), and an answer leaves the Stop Controller alone. -/

/-- What an answer may change leaves the Stop Controller. -/
theorem State.hostQuiet.stp {s t : State} (h : State.hostQuiet s t) : t.stp = s.stp := by
  obtain ⟨_, _, _, _, _, _, rfl, -⟩ := State.hostQuiet_iff.1 h
  rfl

@[simp] theorem State.complete_stp (s : State) (d : Desc) (status : Nat) (result : List Byte) (detail : Nat) :
    (s.complete d status result detail).stp = s.stp :=
  (State.complete_hostQuiet s d status result detail).stp

@[simp] theorem State.noteRefusal_stp (s : State) (reason rule : Nat) : (s.noteRefusal reason rule).stp = s.stp := rfl

@[simp] theorem State.endCheck_stp (s : State) : s.endCheck.stp = s.stp := rfl

@[simp] theorem State.refuseCommit_stp (s : State) (d : Desc) (reason rule : Nat) : (s.refuseCommit d reason rule).stp = s.stp := by
  simp [State.refuseCommit]

/-- Below level 5 a rise of the ladder makes no request. -/
theorem State.riseTo_stp {n : Nat} (h : n < 5) (s : State) : (s.riseTo n).stp = s.stp := by
  unfold State.riseTo
  dsimp only
  rw [if_neg (by simp; omega)]
  simp

theorem State.mirSettleTo_stp {cap : Nat} (h : cap < 5) (s : State) : (s.mirSettleTo cap).stp = s.stp := by
  unfold State.mirSettleTo
  extract_lets b climb mir t n
  split
  · rfl
  · split
    · exact State.riseTo_stp (Nat.lt_of_le_of_lt (Nat.min_le_left ..) h) t
    · rfl

@[simp] theorem State.applyMir_core (s was : State) : (s.applyMir was).stp.core = s.stp.core := by
  simp [State.applyMir, State.mirSettleTo_stp]

theorem State.foldl_core {α : Type} {f : State → α → State} (h : ∀ s x, (f s x).stp.core = s.stp.core) (l : List α) (s : State) :
    (l.foldl f s).stp.core = s.stp.core := by
  induction l generalizing s with
  | nil => rfl
  | cons x l ih => exact (ih (f s x)).trans (h s x)

theorem State.withDesc_core {f : State → Desc → State} (hf : ∀ s d, (f s d).stp.core = s.stp.core) (s : State)
    (ring index op : Nat) (variant : Desc → Bool) : (s.withDesc ring index op variant f).stp.core = s.stp.core := by
  unfold State.withDesc
  split
  · split
    · exact hf ..
    · rfl
  · rfl

@[simp] theorem State.endAcq_core (s : State) : s.endAcq.stp.core = s.stp.core := by
  simp [State.endAcq, State.foldl_core]

@[simp] theorem State.applyGns_core (s was : State) : (s.applyGns was).stp.core = s.stp.core := by
  simp [State.applyGns]

@[simp] theorem State.enterRun_core (s : State) : s.enterRun.stp.core = s.stp.core := by
  simp [State.enterRun]

theorem State.takeEffect_core (s : State) (c : Cand) : (s.takeEffect c).stp.core = s.stp.core := by
  simp [State.takeEffect, State.activate, State.renewPins]

@[simp] theorem State.commitNow_core (s : State) (c : Cand) (persist : Bool) (block : List Byte) (env : CommitIn) :
    (s.commitNow c persist block env).stp.core = s.stp.core := by
  simp [State.commitNow, State.takeEffect_core]

section
variable {env : CommitIn} (hf : fatalCause env = none)
include hf

theorem State.commitRegister_core (s : State) (v : Word) : (s.commitRegister v env).stp.core = s.stp.core := by
  unfold State.commitRegister
  dsimp only
  rw [hf]
  split
  · rfl
  split
  · rfl
  split
  · rfl
  split
  · rfl
  split
  · next h => cases h
  · simp [State.keepUndo, State.beginCheck]
  · simp [State.keepUndo, State.beginCheck]

theorem State.runCommit_core (s : State) (d : Desc) (b : Block) (block : List Byte) (before : Conf) :
    (s.runCommit d b block before env).stp.core = s.stp.core := by
  unfold State.runCommit
  dsimp only
  rw [hf]
  split
  · next h => cases h
  · simp
  · split
    · split <;> simp [State.insertLaunch]
    · simp

theorem State.hostCommit_core (s : State) (d : Desc) (payload : List Byte) : (s.hostCommit d payload env).stp.core = s.stp.core := by
  unfold State.hostCommit
  dsimp only
  split
  · split
    · simp
    · exact State.runCommit_core hf ..
  split
  · simp
  split
  · simp
  · next b _ =>
    obtain ⟨_, hg, -⟩ := State.stageEntries_eq b.entries s
    rw [State.runCommit_core hf, hg]

theorem State.launchCommit_core (s : State) : (s.launchCommit env).stp.core = s.stp.core := by
  unfold State.launchCommit
  dsimp only
  rw [hf]
  split
  · rfl
  split
  · rfl
  split
  · next h => cases h
  · simp
  · simp

end

/-- Settles O60: what a commit does leaves the latch's core, and a register commit's outcome is that of its check, latch or none. -/
theorem commitsLeaveTheStopLatch : Obligations.CommitsLeaveTheStopLatch := by
  unfold Obligations.CommitsLeaveTheStopLatch
  constructor
  · intro s dt ring index v payload env c hf hc
    have shown : ∀ t : State, t.stp.core = s.stp.core →
        t.stp.latched = s.stp.latched ∧ t.stp.stop = s.stp.stop ∧ t.stp.source = s.stp.source ∧ t.stp.count = s.stp.count :=
      fun t h => ⟨(congrArg Stp.latched h :), (congrArg Stp.stop h :), (congrArg Stp.source h :), (congrArg Stp.count h :)⟩
    obtain rfl | rfl | rfl := hc
    · exact ⟨_, rfl, shown _ (State.commitRegister_core hf ..)⟩
    · exact ⟨_, rfl, shown _ (State.withDesc_core (fun t d => State.hostCommit_core (env := env) hf t d payload) (s.elapse dt) ..)⟩
    · refine ⟨_, rfl, shown _ ?_⟩
      split
      · rfl
      · exact State.launchCommit_core hf _
  · intro s dt v env hf hb hl h1 h2 h3 h4 hm hr mask snap x
    obtain ⟨-, -, href, htak⟩ := State.commitRegister_settles (s := s.elapse dt) (env := env) h1 h2 h3 h4 hb rfl hm hr
    refine ⟨_, rfl, ?_⟩
    split
    · next h =>
      obtain ⟨ha, hu, -, hres, -⟩ := htak hf h
      exact ⟨ha, hu, hres⟩
    · next h =>
      obtain ⟨ha, hu, -, hres⟩ := href hf _ h
      exact ⟨ha, hu, hres⟩

end Sys2Proof.Machine

namespace Sys2Proof.Machine

/-! ## What a stop request and its sources leave

A write of a register and a solution can raise the Mirage Monitor's ladder to level 5, and so request a stop (R185, R186). On its way
the request reaches neither the immediate registers nor what the central solver has of its lanes, filters and solutions. Each
operation has one lemma that says so, which is a `simp` rule. -/

/-- The immediate registers, the central solver's lanes, filters and count, and the machines' solutions of `t` are those of `s`. -/
@[reducible, simp] def State.sameBench (s t : State) : Prop :=
  t.direct = s.direct ∧ t.fix.lanes = s.fix.lanes ∧ t.fix.filters = s.fix.filters ∧ t.fix.solved = s.fix.solved ∧
  t.sec.machs = s.sec.machs

theorem State.sameBench.trans {s t u : State} (h : s.sameBench t) (k : t.sameBench u) : s.sameBench u := by
  simp_all

/-- The state that a match takes out of an answer, where the answer's state is known. -/
theorem State.sameBench.of_eq {α : Type} {s t : State} {r : State × α} {a : α} (h : s.sameBench r.1) (e : r = (t, a)) :
    s.sameBench t := by
  subst e
  exact h

@[simp] theorem State.direct_ite {c : Prop} {_ : Decidable c} (s t : State) :
    (if c then s else t).direct = if c then s.direct else t.direct := apply_ite ..

@[simp] theorem State.lanes_ite {c : Prop} {_ : Decidable c} (s t : State) :
    (if c then s else t).fix.lanes = if c then s.fix.lanes else t.fix.lanes := apply_ite (fun s : State => s.fix.lanes) ..

@[simp] theorem State.filters_ite {c : Prop} {_ : Decidable c} (s t : State) :
    (if c then s else t).fix.filters = if c then s.fix.filters else t.fix.filters := apply_ite (fun s : State => s.fix.filters) ..

@[simp] theorem State.solved_ite {c : Prop} {_ : Decidable c} (s t : State) :
    (if c then s else t).fix.solved = if c then s.fix.solved else t.fix.solved := apply_ite (fun s : State => s.fix.solved) ..

@[simp] theorem State.machs_ite {c : Prop} {_ : Decidable c} (s t : State) :
    (if c then s else t).sec.machs = if c then s.sec.machs else t.sec.machs := apply_ite (fun s : State => s.sec.machs) ..

@[simp] theorem State.foldl_bench {α : Type} {f : State → α → State} (h : ∀ s x, State.sameBench s (f s x)) (l : List α)
    (s : State) : s.sameBench (l.foldl f s) := by
  induction l generalizing s with
  | nil => exact ⟨rfl, rfl, rfl, rfl, rfl⟩
  | cons x l ih => exact (h s x).trans (ih (f s x))

@[simp] theorem State.foldl_fst_bench {α β : Type} {f : State × β → α → State × β}
    (h : ∀ a x, State.sameBench a.1 (f a x).1) (l : List α) (a : State × β) : a.1.sameBench (l.foldl f a).1 := by
  induction l generalizing a with
  | nil => exact ⟨rfl, rfl, rfl, rfl, rfl⟩
  | cons x l ih => exact (h a x).trans (ih (f a x))

/-- What events may change leaves them. -/
theorem State.quiet.bench {s t : State} (h : State.quiet s t) : s.sameBench t := by
  obtain ⟨d, c, m, rfl, -⟩ := State.quiet_iff.1 h
  exact ⟨rfl, rfl, rfl, rfl, rfl⟩

@[simp] theorem State.noteTraceDrop_bench (s : State) : s.sameBench s.noteTraceDrop := (State.noteTraceDrop_quiet s).bench

@[simp] theorem State.dramErrors_bench (s : State) (l : List Nat) : s.sameBench (s.dramErrors l) := by
  unfold State.dramErrors
  split <;> simp

@[simp] theorem State.dramPut_bench (s : State) (a : Nat) (b : List Byte) : s.sameBench (s.dramPut a b) := by
  simp [State.dramPut]

@[simp] theorem State.dramStore_bench (s : State) (a : Nat) (b : List Byte) : s.sameBench (s.dramStore a b) := by
  simp [State.dramStore]

@[simp] theorem State.orphanUse_bench (s : State) (i : Nat) : s.sameBench (s.orphanUse i) := by simp [State.orphanUse]

@[simp] theorem State.enqueueFrame_bench (s : State) (p : Nat) (f : List Byte) : s.sameBench (s.enqueueFrame p f).1 := by
  simp [State.enqueueFrame]

@[simp] theorem State.floodQueued_bench (s : State) (but : Option Nat) (f : List Byte) :
    s.sameBench (s.floodQueued but f).1 := by
  simp [State.floodQueued]

@[simp] theorem State.nextSeq_bench (s : State) (cls : Nat) : s.sameBench (s.nextSeq cls).1 := ⟨rfl, rfl, rfl, rfl, rfl⟩

@[simp] theorem State.originateQueued_bench (s : State) (src cls type hops flags : Nat) (body : List Byte) :
    s.sameBench (s.originateQueued src cls type hops flags body).1 := by
  simp [State.originateQueued]

@[simp] theorem State.originateFlood_bench (s : State) (src cls type hops flags : Nat) (body : List Byte) :
    s.sameBench (s.originateFlood src cls type hops flags body) := by
  simp [State.originateFlood]

@[simp] theorem State.dramWrite_bench (s : State) (a : Nat) (b : List Byte) : s.sameBench (s.dramWrite a b) := by
  simp [State.dramWrite]

@[simp] theorem State.dramSeen_bench (s : State) (a n : Nat) : s.sameBench (s.dramSeen a n) := by simp [State.dramSeen]

@[simp] theorem State.writeBack_bench (s : State) (l : CacheLine) : s.sameBench (s.writeBack l) := by simp [State.writeBack]

@[simp] theorem State.putLine_bench (s : State) (l : CacheLine) : s.sameBench (s.putLine l) := by simp [State.putLine]

@[simp] theorem State.getLine_bench (s : State) (l : CacheLine) (sample : Bool) : s.sameBench (s.getLine l sample).1 := by
  unfold State.getLine
  split <;> simp

@[simp] theorem State.setCov_bench (s : State) (c : Cell) (code : Nat) (change : Bool) :
    s.sameBench (s.setCov c code change) := by
  unfold State.setCov
  split
  · simp
  · dsimp only
    split
    · simp
    · split <;> next h => simp [(State.getLine_bench ..).of_eq h]

@[simp] theorem State.dropClaim_bench (s : State) (k : Nat) (c : Claim) : s.sameBench (s.dropClaim k c) := by
  simp [State.dropClaim]

@[simp] theorem State.releaseClaims_bench (s : State) (p : Nat → Claim → Bool) : s.sameBench (s.releaseClaims p) := by
  simp [State.releaseClaims]

@[simp] theorem State.ppsDrive_bench (s : State) (active : Bool) (time : Nat) : s.sameBench (s.ppsDrive active time) := by
  simp [State.ppsDrive]

@[simp] theorem State.ppsEnd_bench (s : State) : s.sameBench s.ppsEnd := by simp [State.ppsEnd]

@[simp] theorem State.countOrphan_bench (s : State) (i : Nat) : s.sameBench (s.countOrphan i) := by simp [State.countOrphan]

@[simp] theorem State.withhold_bench (s : State) (p ch air asn : Nat) : s.sameBench (s.withhold p ch air asn) := by
  simp [State.withhold]

@[simp] theorem State.frontEnd_bench (s : State) (p time : Nat) (f : Sel) : s.sameBench (s.frontEnd p time f) := by
  simp [State.frontEnd]

@[simp] theorem State.onAir_bench (s : State) (p ch start mode : Nat) (frame : List Byte) :
    s.sameBench (s.onAir p ch start mode frame) := by
  simp [State.onAir]

@[simp] theorem State.precompMiss_bench (s : State) : s.sameBench s.precompMiss := by simp [State.precompMiss]

@[simp] theorem State.missUnder_bench (s : State) (i : Nat) : s.sameBench (s.missUnder i) := by simp [State.missUnder]

@[simp] theorem State.beaconAir_bench (s : State) (p ch : Nat) (f : BeaconForm) (nominal start : Nat) :
    s.sameBench (s.beaconAir p ch f nominal start) := by
  simp [State.beaconAir]

@[simp] theorem State.restamp_bench (s : State) (p asn start : Nat) : s.sameBench (s.restamp p asn start) := ⟨rfl, rfl, rfl, rfl, rfl⟩

@[simp] theorem State.holdStops_bench (s : State) (p asn : Nat) : s.sameBench (s.holdStops p asn) := by simp [State.holdStops]

@[simp] theorem State.holdAll_bench (s : State) : s.sameBench s.holdAll := by simp [State.holdAll]

@[simp] theorem State.sendStop_bench (s : State) (p ch asn nominal : Nat) : s.sameBench (s.sendStop p ch asn nominal) := by
  unfold State.sendStop
  split <;> simp

@[simp] theorem State.modCar_bench (s : State) (m : Nat) (f : CarMach → CarMach) : s.sameBench (s.modCar m f) := by
  simp [State.modCar]

@[simp] theorem State.freezeRes_bench (s : State) (m : Nat) : s.sameBench (s.freezeRes m) := by simp [State.freezeRes]

@[simp] theorem State.freezeAll_bench (s : State) : s.sameBench s.freezeAll := by simp [State.freezeAll]

@[simp] theorem State.settleOuts_bench (s : State) : s.sameBench s.settleOuts := ⟨rfl, rfl, rfl, rfl, rfl⟩

@[simp] theorem State.holdBodies_bench (s : State) : s.sameBench s.holdBodies := by simp [State.holdBodies]

@[simp] theorem State.sendFabStop_bench (s : State) (stop : Bool) (count : BitVec 16) (scope window : Nat) :
    s.sameBench (s.sendFabStop stop count scope window) := by
  unfold State.sendFabStop
  split <;> simp

@[simp] theorem State.floodStop_bench (s : State) (scope : Nat) : s.sameBench (s.floodStop scope) := by simp [State.floodStop]

@[simp] theorem State.unflood_bench (s : State) : s.sameBench s.unflood := ⟨rfl, rfl, rfl, rfl, rfl⟩

@[simp] theorem State.abandonSlot_bench (s : State) (p : Nat) (stays : Option Nat) : s.sameBench (s.abandonSlot p stays) := by
  simp [State.abandonSlot]

@[simp] theorem State.latchPort_bench (s : State) (p : Nat) : s.sameBench (s.latchPort p) := by
  unfold State.latchPort
  repeat' split
  all_goals simp

@[simp] theorem State.beginStorm_bench (s : State) : s.sameBench s.beginStorm := by simp [State.beginStorm]

@[simp] theorem State.restartStorm_bench (s : State) : s.sameBench s.restartStorm := by simp [State.restartStorm]

@[simp] theorem State.holdFrames_bench (s : State) : s.sameBench s.holdFrames := by simp [State.holdFrames]

@[simp] theorem State.latchEffects_bench (s : State) (hostCode : Option Nat) (flood : Bool) :
    s.sameBench (s.latchEffects hostCode flood) := by
  simp [State.latchEffects]

@[simp] theorem State.joinEvent_bench (s : State) (src : Nat) (stop : Bool) (hostCode : Option Nat) (flood was : Bool)
    (wasCode : Option Nat) : s.sameBench (s.joinEvent src stop hostCode flood was wasCode) := by
  simp [State.joinEvent]

@[simp] theorem State.undoRelease_bench (s : State) : s.sameBench s.undoRelease := by
  unfold State.undoRelease
  split <;> simp

@[simp] theorem State.stopRequest_bench (s : State) (src : Nat) (stop : Bool) (hostCode : Option Nat) (flood : Bool) :
    s.sameBench (s.stopRequest src stop hostCode flood) := by
  unfold State.stopRequest
  dsimp only
  repeat' split
  all_goals simp

@[simp] theorem State.riseTo_bench (s : State) (n : Nat) : s.sameBench (s.riseTo n) := by simp [State.riseTo]

@[simp] theorem State.mirSettleTo_bench (s : State) (cap : Nat) : s.sameBench (s.mirSettleTo cap) := by
  simp [State.mirSettleTo]

@[simp] theorem State.ppsSettle_bench (s : State) (wasOn : Bool) : s.sameBench (s.ppsSettle wasOn) := by
  simp [State.ppsSettle]

@[simp] theorem State.mirSettle_bench (s : State) : s.sameBench s.mirSettle := State.mirSettleTo_bench s 5

/-! ### A solution's consumers (R215, R285) -/

@[simp] theorem State.queueBlock_bench (s : State) (m btype : Nat) (body : List Byte) : s.sameBench (s.queueBlock m btype body) :=
  ⟨rfl, rfl, rfl, rfl, rfl⟩

@[simp] theorem State.carTell_bench (s : State) (m code why segs : Nat) : s.sameBench (s.carTell m code why segs) :=
  State.queueBlock_bench ..

@[simp] theorem State.carHoldMachine_bench (s : State) (m why : Nat) : s.sameBench (s.carHoldMachine m why) := by
  simp [State.carHoldMachine]

@[simp] theorem State.carAct_bench (s : State) (m act why : Nat) (e : Ev) : s.sameBench (s.carAct m act why e) := by
  simp [State.carAct]

@[simp] theorem State.conform_bench (s : State) (m : Nat) (east north hs hc : Rat) (tObs : Nat) :
    s.sameBench (s.conform m east north hs hc tObs) := by
  simp [State.conform]

@[simp] theorem State.conformCentral_bench (s : State) (r : SolRec) : s.sameBench (s.conformCentral r) := by
  unfold State.conformCentral
  repeat' split
  all_goals simp

@[simp] theorem State.evalCond_bench {ev : State → State} (hev : ∀ s, State.sameBench s (ev s)) (s : State) (check key : Nat)
    (holds : Bool) (systems signals : List Nat) (level : Nat) :
    s.sameBench (s.evalCond check key holds systems signals level ev) := by
  unfold State.evalCond
  dsimp only
  repeat' split
  all_goals simp [hev]

@[simp] theorem State.checkRover_bench (s : State) (m tObs status : Nat) (east north : Int) :
    s.sameBench (s.checkRover m tObs status east north) := by
  unfold State.checkRover
  repeat' split
  all_goals simp

@[simp] theorem State.writeSol_bench (s : State) (b : List Byte) : s.sameBench (s.writeSol b) := by
  unfold State.writeSol
  dsimp only
  split <;> simp

end Sys2Proof.Machine

namespace Sys2Proof.Machine

/-! ## The Fix Engine (R200, R206 to R221) -/

/-! ### Answers -/

/-- A descriptor command has its effect on the descriptor that is offered. -/
theorem reaches_of_offers {s : State} {dt ring index op : Nat} {d : Desc} (h : s.offers ring index op d) {variant : Desc → Bool}
    (hv : variant d = true) {f : State → Desc → State} {P : State → Prop} (hP : P (f (s.elapse dt) d)) :
    reaches (.next ((s.elapse dt).withDesc ring index op variant f)) P :=
  ⟨_, congrArg Host.Outcome.next (State.withDesc_of_offers (State.offers_elapse dt h) hv f), hP⟩

@[simp] theorem State.complete_fix (s : State) (d : Desc) (status : Nat) (result : List Byte) (detail : Nat) :
    (s.complete d status result detail).fix = s.fix := by
  obtain ⟨_, _, _, _, _, _, h, -⟩ := State.hostQuiet_iff.1 (State.complete_hostQuiet s d status result detail)
  rw [h]
  rfl

/-- A descriptor that a command offered is answered from a state in which the Host Interface and the power state are as they were. -/
theorem State.offers_answered_from {s u : State} {ring index op : Nat} {d : Desc} (h : s.offers ring index op d) (hh : u.hst = s.hst)
    (hp : u.pwr = s.pwr) (clamped : Bool) (status : Nat) (result : List Byte) (detail : Nat := 0) :
    u.answered (u.complete (d.clampIf clamped) status result detail) [] (d.clampIf clamped) status result detail := by
  obtain ⟨h1, h2, h3⟩ := State.answersOn_of_same (State.offers_answersOn h) ⟨congrArg Hst.rings hh, congrArg Hst.fault hh⟩ hp
  exact State.complete_answered (d := d.clampIf clamped) h.2.1 h.2.2 h1 h2 h3 status result detail

/-- Where the command has left the immediate registers and the clock too, it replies. -/
theorem State.offers_replies {s u : State} {ring index op : Nat} {d : Desc} {clamped : Bool} {status : Nat} {result : List Byte}
    (h : s.offers ring index op d) (hu : u.hst = s.hst ∧ u.direct = s.direct ∧ u.clk = s.clk ∧ u.pwr = s.pwr) :
    s.replies (u.complete (d.clampIf clamped) status result) (d.clampIf clamped) status result :=
  ⟨u, hu.1, hu.2.1, hu.2.2.1, State.offers_answered_from h hu.1 hu.2.2.2 clamped status result⟩

/-- The same for a descriptor without a clamp. -/
theorem State.offers_replies_plain {s u : State} {ring index op : Nat} {d : Desc} {status : Nat} {result : List Byte}
    (h : s.offers ring index op d) (hu : u.hst = s.hst ∧ u.direct = s.direct ∧ u.clk = s.clk ∧ u.pwr = s.pwr) :
    s.replies (u.complete d status result) d status result := by
  simpa using State.offers_replies (clamped := false) (status := status) (result := result) h hu

/-- A command that only answers. -/
theorem State.offers_replies_only {s : State} {ring index op : Nat} {d : Desc} {status : Nat} {result : List Byte}
    (h : s.offers ring index op d) : s.replies (s.complete d status result) d status result ∧ s.answerOnly (s.complete d status result) :=
  ⟨State.offers_replies_plain h ⟨rfl, rfl, rfl, rfl⟩, State.complete_answerOnly ..⟩

theorem State.countClamps_leaves (s : State) (n : Nat) (o : Option Nat) :
    (s.countClamps n o).hst = s.hst ∧ (s.countClamps n o).direct = s.direct ∧ (s.countClamps n o).clk = s.clk ∧
      (s.countClamps n o).pwr = s.pwr := by
  rw [State.countClamps_eq]
  exact ⟨rfl, rfl, rfl, rfl⟩

@[simp] theorem State.countClamps_fix (s : State) (n : Nat) (o : Option Nat) : (s.countClamps n o).fix = s.fix := by
  rw [State.countClamps_eq]

/-! ### Corrections (R200) -/

/-- The stale frames that leave a queue are counted. -/
theorem State.countStale_stale (s : State) (n : Nat) : (s.countStale n).fix = { s.fix with stale := s.fix.stale + BitVec.ofNat 32 n } := by
  unfold State.countStale
  split
  · next h => simp [h]
  · simp

theorem State.countStale_eventsOnly (s : State) (n : Nat) :
    State.eventsOnly { s with fix := (s.countStale n).fix } (s.countStale n) := by
  rw [State.countStale_stale]
  unfold State.countStale
  split
  · next h => simpa [h] using State.eventsOnly_refl s
  · exact (State.raise_quiet ..).1

/-! ### Rovers (R220) -/

/-- A filter that begins anew from its next solve, where that is asked for. -/
def RoverFilter.renewed (f : RoverFilter) (on : Bool) : RoverFilter := if on then { f with fresh := true } else f

theorem State.resetRover_eq (s : State) (m : Nat) :
    s.resetRover m = { s with fix := { s.fix with filters := (s.resetRover m).fix.filters } } := by
  unfold State.resetRover
  split <;> rfl

theorem State.resetRover_sorted {s : State} (h : tsorted s.fix.filters) (m : Nat) : tsorted (s.resetRover m).fix.filters := by
  unfold State.resetRover
  split
  · exact h
  · dsimp only
    exact tsorted_tmod h ..

theorem State.resetRover_filter {s : State} (h : tsorted s.fix.filters) (m k : Nat) :
    tget (s.resetRover m).fix.filters RoverFilter.reset k =
      (tget s.fix.filters RoverFilter.reset k).renewed (s.roverOn k && decide (k = m)) := by
  unfold State.resetRover
  by_cases hk : k = m
  · subst hk
    cases hm : s.roverOn k with
    | false => simp [RoverFilter.renewed]
    | true => simpa [RoverFilter.renewed] using tget_tmod_self h ..
  · split
    · simp [hk, RoverFilter.renewed]
    · simpa [hk, RoverFilter.renewed] using tget_tmod_ne _ _ _ hk

/-- Resetting the machines of a list changes the filters alone: those of its machines that are solved centrally. -/
theorem State.resetRovers_filters (l : List Nat) {s : State} (h : tsorted s.fix.filters) :
    let t := l.foldl State.resetRover s
    t = { s with fix := { s.fix with filters := t.fix.filters } } ∧
    ∀ k, tget t.fix.filters RoverFilter.reset k =
      (tget s.fix.filters RoverFilter.reset k).renewed (s.roverOn k && l.contains k) := by
  induction l generalizing s with
  | nil => exact ⟨rfl, fun k => by simp [RoverFilter.renewed]⟩
  | cons m l ih =>
    obtain ⟨he, hf⟩ := ih (State.resetRover_sorted h m)
    have hm := State.resetRover_eq s m
    have hon : ∀ k, (s.resetRover m).roverOn k = s.roverOn k := fun k => by
      rw [hm]
      rfl
    refine ⟨?_, fun k => ?_⟩
    · rw [List.foldl_cons, he, hm]
    · rw [List.foldl_cons, hf, State.resetRover_filter h, hon]
      cases s.roverOn k <;> by_cases hk : k = m <;> simp [RoverFilter.renewed, hk]

/-- A machine that is solved centrally is one of the 256 that a part can have. -/
theorem State.roverOn_lt {s : State} {m : Nat} (h : s.roverOn m = true) : m < 256 := by
  have hm : m < s.machines := by
    unfold State.roverOn at h
    simp only [Bool.and_eq_true, decide_eq_true_eq] at h
    exact h.1.2
  refine Nat.lt_of_lt_of_le hm ?_
  unfold State.machines
  cases s.id.part <;> decide

/-- The machines that FIX_ROVER_RESET names: all with bit 0 of its flags, else the one of its operand (R220). -/
def Desc.rovers (d : Desc) : List Nat := if bit (d.operand 1 1) 0 then List.range 256 else [d.operand 0 1]

theorem State.resetRovers_named (s : State) (d : Desc) :
    (if bit (d.operand 1 1) 0 then (List.range 256).foldl State.resetRover s else s.resetRover (d.operand 0 1)) =
      d.rovers.foldl State.resetRover s := by
  unfold Desc.rovers
  split <;> rfl

theorem State.roverOn_named (s : State) (d : Desc) (m : Nat) :
    (s.roverOn m && d.rovers.contains m) = (s.roverOn m && (bit (d.operand 1 1) 0 || decide (m = d.operand 0 1))) := by
  unfold Desc.rovers
  cases hm : s.roverOn m with
  | false => rfl
  | true =>
    have := State.roverOn_lt hm
    cases bit (d.operand 1 1) 0 <;> simp [this]

/-! ### Epochs (R206, R213) -/

theorem State.abandonEpoch_fix (s : State) (m n reason : Nat) : (s.abandonEpoch m n reason).fix = { s.fix with
    asm := terase s.fix.asm m, ended := tput s.fix.ended m n, abandoned := s.fix.abandoned + 1 } := by
  simp [State.abandonEpoch]

theorem State.abandonEpoch_eventsOnly (s : State) (m n reason : Nat) :
    State.eventsOnly { s with fix := (s.abandonEpoch m n reason).fix } (s.abandonEpoch m n reason) := by
  rw [State.abandonEpoch_fix]
  exact (State.raise_quiet ..).1

/-- An epoch whose deadline has passed waits for a commit due by then, and is abandoned else. -/
theorem exec_fixEpochDeadline_of_due {s : State} {dt m : Nat} {a : Assembly} (hr : s.fixRuns = true) (ha : tfind s.fix.asm m = some a)
    (hd : a.tObs + s.act F.FIX_SOLVER_ASM_LIMIT * 10000000 ≤ (s.elapse dt).now) :
    exec (.fixEpochDeadline dt m) s = .next (if (s.elapse dt).commitWaits (a.tObs + s.act F.FIX_SOLVER_ASM_LIMIT * 10000000) = true then
      s.elapse dt else (s.elapse dt).abandonEpoch m a.n Ab.deadline) := by
  have hr' : (s.elapse dt).fixRuns = true := hr
  have hl : (s.elapse dt).act F.FIX_SOLVER_ASM_LIMIT = s.act F.FIX_SOLVER_ASM_LIMIT := rfl
  change execFixEpochDeadline dt m s = _
  unfold execFixEpochDeadline
  simp only [State.elapse_fix, ha, hr', hl, hd]
  cases (s.elapse dt).commitWaits (a.tObs + s.act F.FIX_SOLVER_ASM_LIMIT * 10000000) <;> rfl

/-- The configuration under which a machine's epoch is solved (R212, R218). -/
def State.solveCfg (s : State) (m : Nat) : SolveCfg :=
  ⟨meField (s.machine m), s.roverPeriod m, s.act F.FIX_ROVER_PAR m = 1, s.act F.FIX_SOLVER_ELEV_MASK, s.act F.FIX_SOLVER_RATIO_MIN,
    s.act F.FIX_SOLVER_MAX_GAP, s.act F.FIX_SOLVER_PAR_MIN, s.reg F.FIX_WEIGHT_BASELINE_MAX, s.act F.FIX_ROVER_ACCEL m,
    s.reg F.FIX_WEIGHT_PHASE_A, s.reg F.FIX_WEIGHT_PHASE_B, s.reg F.FIX_WEIGHT_CODE_RATIO, signed 16 (s.act F.FIX_BASE_PCO_UP),
    s.baseKnown, s.basePos, s.fieldOrigin (meField (s.machine m))⟩

/-- A complete epoch waits for a commit due now, and takes the first free lane else. -/
theorem exec_fixSolveStart_of_free {s : State} {dt l : Nat} {q : Solve} {rest : List Solve} (hr : s.fixRuns = true)
    (hq : s.fix.queue = q :: rest) (hl : l < 64) (hf : tfind s.fix.lanes l = none) (hb : ∀ k, k < l → tfind s.fix.lanes k ≠ none) :
    exec (.fixSolveStart dt) s = .next (if (s.elapse dt).commitFirst (s.clk.counter + dt) = true then s.elapse dt else
      { s.elapse dt with fix := { s.fix with
        queue := rest
        lanes := tput s.fix.lanes l { q with
          cfg := s.solveCfg q.machine, fresh := (tget s.fix.filters RoverFilter.reset q.machine).fresh }
        filters := tmod s.fix.filters RoverFilter.reset q.machine fun f => { f with fresh := false } } }) := by
  have hr' : (s.elapse dt).fixRuns = true := hr
  have hfree : (List.range 64).find? (fun k => (tfind s.fix.lanes k).isNone) = some l := by
    rw [List.find?_range_eq_some]
    exact ⟨by simp [hf], by simpa using hl, fun k hk => by simpa [Option.isSome_iff_ne_none] using hb k hk⟩
  change execFixSolveStart dt s = _
  unfold execFixSolveStart
  simp only [State.elapse_fix, State.elapse_counter, hr', hq, hfree]
  cases (s.elapse dt).commitFirst (s.clk.counter + dt) <;> rfl

/-! ### Solutions (R213 to R215) -/

@[simp] theorem State.deliverSol_lanes (s : State) (r : SolRec) (done : Nat) : (s.deliverSol r done).fix.lanes = s.fix.lanes := by
  simp [State.deliverSol]

@[simp] theorem State.deliverSol_filters (s : State) (r : SolRec) (done : Nat) : (s.deliverSol r done).fix.filters = s.fix.filters := by
  simp [State.deliverSol]

@[simp] theorem State.deliverSol_solved (s : State) (r : SolRec) (done : Nat) : (s.deliverSol r done).fix.solved = s.fix.solved + 1 := by
  simp [State.deliverSol]

/-- The solution that the Section Engine is handed. -/
def SolRec.central (r : SolRec) (now : Nat) : CenSol :=
  ⟨r.tObs, r.status, r.degraded, r.pos.1, r.pos.2.1, r.pos.2.2, r.vel.1, r.vel.2.1, r.vel.2.2,
    sdOf (r.cov.getD 0 0), sdOf (r.cov.getD 1 0), sdOf (r.cov.getD 2 0), now⟩

@[simp] theorem State.deliverSol_machs (s : State) (r : SolRec) (done : Nat) : (s.deliverSol r done).sec.machs =
    tmod s.sec.machs SecMach.reset r.machine fun m => { m with cen := (r.central s.now :: m.cen).take 256 } := by
  simp [State.deliverSol, SolRec.central]

/-- What a solution's end leaves of the Fix Engine and hands to the Section Engine. -/
theorem execFixSolReady_settles {s : State} {dt l : Nat} {q : Solve} (x : SolveIn) (hr : s.fixRuns = true)
    (hl : tfind s.fix.lanes l = some q) :
    let r := (s.elapse dt).solve q x
    reaches (exec (.fixSolReady dt l x) s) fun t =>
      t.fix.lanes = terase s.fix.lanes l ∧ t.fix.solved = s.fix.solved + 1 ∧
      t.fix.filters = tset s.fix.filters RoverFilter.reset q.machine r.2 ∧
      t.sec.machs = tmod s.sec.machs SecMach.reset q.machine fun m => { m with cen := (r.1.central (s.elapse dt).now :: m.cen).take 256 } := by
  intro r
  have hr' : (s.elapse dt).fixRuns = true := hr
  refine ⟨_, rfl, ?_⟩
  simp only [State.elapse_fix, hl, hr', Bool.not_true, Bool.false_eq_true, if_false]
  simp
  exact ⟨rfl, rfl⟩

/-! ### The statement -/

/-- Settles O47: each command by what its own operation leaves. -/
theorem fixCommandsAct : Obligations.FixCommandsAct := by
  unfold Obligations.FixCommandsAct
  refine ⟨?_, ?_, ?_, ?_, ?_, ?_, ?_⟩
  · intro s dt p ht hr hf q keep
    obtain ⟨-, -, -, -, ⟨hq, -⟩, -⟩ := ht
    refine reaches_of_not_guard (by simp [hr, hf]) ?_
    refine ⟨?_, fun k hk => ?_, ?_, ?_⟩
    · rw [State.countStale_stale]
      exact tget_tset_self hq ..
    · rw [State.countStale_stale]
      exact tget_tset_ne _ _ _ hk
    · rw [State.countStale_stale]
      rfl
    · have he := State.countStale_eventsOnly { s.elapse dt with
        fix := { s.fix with radio := tset s.fix.radio RadioQueue.reset p { q with frames := keep } } } (q.frames.length - keep.length)
      rw [State.countStale_stale] at he ⊢
      exact he
  · intro s dt ring index d ho hs hd n
    have hs' : (s.elapse dt).fixStop = none := hs
    refine reaches_of_offers ho rfl ?_
    simp only [hs', if_neg (Nat.not_lt.2 hd)]
    split
    · next h => exact ⟨fun hn => absurd h (Nat.not_le.2 hn), fun _ => State.offers_replies_only (State.offers_elapse dt ho)⟩
    · next h => exact ⟨fun _ => State.wait_waits (State.offers_at ho).1, fun hn => absurd hn h⟩
  · intro s dt ring index n payload d l ho hs hl hp
    have hs' : (s.elapse dt).fixStop = none := hs
    refine reaches_of_offers ho rfl ?_
    simp only [hs', if_neg hl, hp]
    rw [State.complete_fix, State.countClamps_fix]
    exact ⟨rfl, State.offers_replies (State.offers_elapse dt ho) (State.countClamps_leaves ..)⟩
  · intro s dt ring index d ht ho hp hs
    have hs' : (s.elapse dt).fixStop = none := hs
    obtain ⟨-, -, -, -, ⟨-, hf, -⟩, -⟩ := ht
    obtain ⟨he, hfil⟩ := State.resetRovers_filters d.rovers (s := s.elapse dt) hf
    refine reaches_of_offers ho rfl ?_
    simp only [State.elapse_id, hp, hs', State.resetRovers_named, ne_eq, not_true_eq_false, if_false]
    rw [he, State.complete_fix]
    refine ⟨fun m => ?_, rfl, State.offers_replies_plain (State.offers_elapse dt ho) ⟨rfl, rfl, rfl, rfl⟩⟩
    have hm := hfil m
    rw [State.roverOn_named] at hm
    exact hm
  · intro s dt m a ht hr ha due hd
    obtain ⟨-, -, -, -, ⟨-, -, hasm, -⟩, -⟩ := ht
    rw [exec_fixEpochDeadline_of_due hr ha hd]
    refine ⟨fun hw => congrArg Host.Outcome.next (if_pos hw), fun hw => ⟨_, congrArg Host.Outcome.next (if_neg (by simpa using hw)), ?_⟩⟩
    have he := State.abandonEpoch_eventsOnly (s.elapse dt) m a.n Ab.deadline
    dsimp only
    rw [State.abandonEpoch_fix] at he ⊢
    exact ⟨tfind_terase_self hasm m, fun k hk => tfind_terase_ne _ hk, tfind_tput_self .., rfl, he⟩
  · intro s dt l q rest ht hr hq hl hf hb
    obtain ⟨-, -, -, -, ⟨-, hfil, -⟩, -⟩ := ht
    rw [exec_fixSolveStart_of_free hr hq hl hf hb]
    refine ⟨fun hw => congrArg Host.Outcome.next (if_pos hw), fun hw => ⟨_, congrArg Host.Outcome.next (if_neg (by simpa using hw)), ?_⟩⟩
    refine ⟨rfl, ⟨s.solveCfg q.machine, tfind_tput_self .., rfl, rfl, rfl, rfl, rfl, rfl, rfl, rfl⟩, fun k hk => tfind_tput_ne _ _ hk,
      ?_, rfl⟩
    dsimp only
    rw [tget_tmod_self hfil]
  · intro s dt l q x ht hr hl r
    obtain ⟨-, -, -, -, ⟨-, hfil, -, hlan⟩, ⟨-, hm⟩, -⟩ := ht
    obtain ⟨t, he, h1, h2, h3, h4⟩ := execFixSolReady_settles x hr hl
    refine ⟨t, he, ?_, h2, ?_, rfl, ?_⟩
    · rw [h1]
      exact tfind_terase_self hlan l
    · rw [h3]
      exact tget_tset_self hfil ..
    · rw [h4, tget_tmod_self hm]
      exact ⟨_, _, rfl, rfl, rfl, rfl, rfl⟩

end Sys2Proof.Machine

namespace Sys2Proof.Machine

/-! ## Register writes (R33, R34, R40 to R48, R380, R547) -/

/-! ### Tables and words -/

theorem tfind_tset_ne {α : Type} [DecidableEq α] (t : Tbl α) (d : α) {i j : Nat} (v : α) (h : j ≠ i) :
    tfind (tset t d i v) j = tfind t j := by
  unfold tset
  split
  · exact tfind_terase_ne t h
  · exact tfind_tput_ne t v h

theorem wordOf_succ (n : Nat) (f : Nat → Bool) : wordOf (n + 1) f = wordOf n f + b2n (f n) * 2 ^ n := by
  simp [wordOf, pack, List.range_succ]

theorem wordOf_lt (n : Nat) (f : Nat → Bool) : wordOf n f < 2 ^ n := by
  induction n with
  | zero => simp [wordOf, pack]
  | succ n ih =>
    have : b2n (f n) ≤ 1 := by unfold b2n; split <;> omega
    have := Nat.mul_le_mul_right (2 ^ n) this
    rw [wordOf_succ, Nat.pow_succ]
    omega

/-- Bit `i` of a word of bits. -/
theorem testBit_wordOf {n i : Nat} (h : i < n) (f : Nat → Bool) : (wordOf n f).testBit i = f i := by
  induction n with
  | zero => omega
  | succ n ih =>
    rw [wordOf_succ, Nat.add_comm, Nat.mul_comm, Nat.testBit_two_pow_mul_add _ (wordOf_lt n f)]
    split
    · next hi => exact ih hi
    · have : i = n := by omega
      subst this
      cases f i <;> simp [b2n]

/-- Where a register of an array lies. -/
theorem arrayIdx_eq_some {off base stride count n : Nat} (hs : stride ≠ 0) :
    arrayIdx off base stride count = some n ↔ off = base + stride * n ∧ n < count := by
  unfold arrayIdx
  rw [if_neg hs]
  constructor
  · intro h
    split at h
    · cases h
    split at h
    · next hlt hm =>
      cases h
      have := Nat.div_add_mod (off - base) stride
      exact ⟨by omega, hm.2⟩
    · cases h
  · rintro ⟨rfl, h⟩
    rw [if_neg (by omega), Nat.add_sub_cancel_left, Nat.mul_mod_right, Nat.mul_div_cancel_left _ (Nat.pos_of_ne_zero hs), if_pos ⟨rfl, h⟩]

/-! ### The stored fields (R40, R41, R48) -/

/-- A table of register words in which the fields of one access of a register are written. -/
def RegDef.writeIn (r : RegDef) (a : Acc) (mask off v : Nat) (t : Tbl Word) : Tbl Word :=
  let d := BitVec.ofNat 32 (r.resetWord a)
  tset t d off (BitVec.ofNat 32 (r.store a mask (tget t d off).toNat v).1)

theorem RegDef.writeIn_self {t : Tbl Word} (h : tsorted t) (r : RegDef) (a : Acc) (mask off v : Nat) :
    tget (r.writeIn a mask off v t) (BitVec.ofNat 32 (r.resetWord a)) off =
      BitVec.ofNat 32 (r.store a mask (tget t (BitVec.ofNat 32 (r.resetWord a)) off).toNat v).1 :=
  tget_tset_self h ..

theorem RegDef.writeIn_ne (r : RegDef) (a : Acc) (mask v : Nat) (t : Tbl Word) {off k : Nat} (h : k ≠ off) :
    tfind (r.writeIn a mask off v t) k = tfind t k := tfind_tset_ne t _ _ h

/-- Counting clamps leaves the active configuration and its units. -/
theorem State.countClamps_sameActive (s : State) (n : Nat) (o : Option Nat) : Cfg.sameActive s.cfg (s.countClamps n o).cfg := by
  unfold State.countClamps
  split <;> exact ⟨rfl, rfl, rfl⟩

section
variable (s : State) (r : RegDef) (off v : Nat)

theorem State.writeFields_sameActive : Cfg.sameActive s.cfg (s.writeFields r off v).cfg := by
  have hs : Cfg.sameActive s.cfg (s.writeStaged r off v).cfg := State.countClamps_sameActive { s with cfg := _ } ..
  have hd : ∀ t : State, Cfg.sameActive t.cfg (t.writeDirect r off v).cfg := fun t =>
    State.countClamps_sameActive { t with direct := _ } ..
  unfold State.writeFields
  dsimp only
  split <;> split
  · exact ⟨(hd _).1.trans hs.1, (hd _).2.1.trans hs.2.1, (hd _).2.2.trans hs.2.2⟩
  · exact hd s
  · exact hs
  · exact ⟨rfl, rfl, rfl⟩

theorem State.writeFields_staged : (s.writeFields r off v).cfg.staged =
    if r.fields.any (fun f => f.acc = .rws) && s.reg F.CFG_CTRL_VIEW = 0 then
      { s.cfg.staged with regs := r.writeIn .rws (s.id.part.fitMask off) off v s.cfg.staged.regs } else s.cfg.staged := by
  have hd : ∀ t : State, (t.writeDirect r off v).cfg.staged = t.cfg.staged := fun t => by simp [State.writeDirect]
  unfold State.writeFields
  dsimp only
  split <;> split <;> simp [hd, State.writeStaged, RegDef.writeIn]

theorem State.writeFields_direct : (s.writeFields r off v).direct =
    if r.fields.any (fun f => f.acc = .rw) then r.writeIn .rw (s.id.part.fitMask off) off v s.direct else s.direct := by
  have hs : (s.writeStaged r off v).direct = s.direct ∧ (s.writeStaged r off v).id = s.id :=
    ⟨(State.countClamps_leaves ..).2.1, (State.writeStaged_queueId ..).2⟩
  have hd : ∀ t : State, (t.writeDirect r off v).direct = r.writeIn .rw (t.id.part.fitMask off) off v t.direct := fun t =>
    (State.countClamps_leaves ..).2.1
  unfold State.writeFields
  dsimp only
  split <;> split <;> simp [hd, hs]

theorem State.writeFields_hst : (s.writeFields r off v).hst = s.hst := by
  have hs : (s.writeStaged r off v).hst = s.hst := (State.countClamps_leaves ..).1
  have hd : ∀ t : State, (t.writeDirect r off v).hst = t.hst := fun t => (State.countClamps_leaves ..).1
  unfold State.writeFields
  dsimp only
  split <;> split <;> simp [hd, hs]

end

/-! ### The registers whose bits are cleared by writing 1 -/

/-- The registers of which `State.clearBits` clears bits. -/
def clearedRegs : List Nat :=
  [0x1014, 0x20D0, 0x3024, 0x401C, 0x6040, 0x7010, 0x7060, 0xD018, 0xE018, 0xF020, 0x15004] ++
    (List.range 64).map fun n => 0xD114 + 32 * n

/-- They hold no stored field, and no command of its own, no lock and no part of the MSI-X table lies there. -/
theorem clearedRegs_plain : ∀ off ∈ clearedRegs, regAt off = none ∧ ownCommand off = false ∧ arrayIdx off 0xDA00 4 256 = none ∧
    arrayIdx off 0xF100 4 16 = none ∧ ¬ (0xD004 ≤ off ∧ off ≤ 0xD014) ∧
    ¬ (0xD100 ≤ off ∧ off < 0xD900 ∧ (off - 0xD100) % 32 < 16) ∧ off % 4 = 0 ∧ off < 2 ^ 20 := by decide +kernel

/-- Elsewhere a write clears nothing. -/
theorem State.clearBits_of_not_mem {off : Nat} (h : off ∉ clearedRegs) (s : State) (v : Nat) : s.clearBits off v = s := by
  unfold State.clearBits
  dsimp only
  split
  case h_12 =>
    split
    · next n hn =>
      obtain ⟨rfl, hlt⟩ := (arrayIdx_eq_some (by omega)).1 hn
      exact absurd (List.mem_append_right _ (List.mem_map.2 ⟨n, List.mem_range.2 hlt, rfl⟩)) h
    · rfl
  all_goals exact absurd (by decide +kernel) h

/-- A write to one of them does that alone. -/
theorem State.writeReg_of_cleared {off : Nat} (h : off ∈ clearedRegs) {s : State} (hf : s.id.part.fitMask off ≠ 0) (v : Nat) :
    s.writeReg off v = s.clearBits off v := by
  obtain ⟨hr, ho, hm, hw, h1, h2, -⟩ := clearedRegs_plain off h
  have hl : s.ringLocked off = false := by
    unfold State.ringLocked
    rw [if_neg h1, if_neg h2]
  have hk : s.wdogLocked off = false := by
    unfold State.wdogLocked
    rw [hw]
  unfold State.writeReg
  rw [if_neg (by simp [ho, hl, hk, hf]), hm, hr]

/-! ### What follows the stored fields (R34, R87, R185, R442) -/

theorem State.latchBases_leaves (s : State) (off : Nat) : (s.latchBases off).cfg = s.cfg ∧ (s.latchBases off).direct = s.direct := by
  unfold State.latchBases
  repeat' split
  all_goals exact ⟨rfl, rfl⟩

theorem State.afterWrite_leaves (s was : State) (off : Nat) :
    (s.afterWrite was off).cfg = s.cfg ∧ (s.afterWrite was off).direct = s.direct := by
  unfold State.afterWrite State.mirSettle
  split
  · simp
  split
  · simp
  split
  · split <;> exact ⟨rfl, rfl⟩
  · exact ⟨rfl, rfl⟩

/-- A write to a page without such effects. -/
theorem State.afterWrite_of_plain {off : Nat} (h1 : ¬ (off = 0x2040 ∨ off = 0x2044)) (h2 : off / 4096 ≠ 5)
    (h3 : arrayIdx off 0xF100 4 16 = none) (s was : State) : s.afterWrite was off = s := by
  unfold State.afterWrite
  rw [if_neg h1, if_neg h2, h3]

/-- A write to a register that stores fields: the fields, the base that it puts in force, and what follows at once. -/
theorem State.writeReg_of_stored {s : State} {off : Nat} {r : RegDef} (ho : ownCommand off = false) (hl : s.ringLocked off = false)
    (hw : s.wdogLocked off = false) (hf : s.id.part.fitMask off ≠ 0) (hm : arrayIdx off 0xDA00 4 256 = none) (ht : off ≠ 0x3020)
    (hrate : off ≠ 0x201C) (hr : regAt off = some r) (v : Nat) :
    s.writeReg off v = ((s.writeFields r off v).latchBases off).afterWrite s off := by
  have hc : off ∉ clearedRegs := fun h => by simp [(clearedRegs_plain off h).1] at hr
  unfold State.writeReg
  rw [if_neg (by simp [ho, hl, hw, hf]), hm, hr]
  dsimp only
  rw [if_neg ht, if_neg hrate, State.clearBits_of_not_mem hc]

/-- A 32-bit aligned write of BAR0. -/
theorem exec_registerWrite {s : State} {off v : Nat} (hw : s.writable = true) (ha : off % 4 = 0) (hlt : off < 2 ^ 20) (hv : v < 2 ^ 32)
    (dt : Nat) : exec (.registerWrite dt off 4 v) s = .next ((s.elapse dt).writeReg off v) := by
  have hw' : (s.elapse dt).writable = true := hw
  refine (next_of_not_guard _ _ ?_).trans ?_
  · simpa [hw', ha] using hlt
  · rw [Nat.mod_eq_of_lt hv]

theorem exec_registerWrite_cleared {s : State} {off v : Nat} (h : off ∈ clearedRegs) (hw : s.writable = true) (hv : v < 2 ^ 32)
    (hf : s.id.part.fitMask off ≠ 0) (dt : Nat) :
    exec (.registerWrite dt off 4 v) s = .next ((s.elapse dt).clearBits off v) := by
  obtain ⟨-, -, -, -, -, -, h4, hlt⟩ := clearedRegs_plain off h
  rw [exec_registerWrite hw h4 hlt hv, State.writeReg_of_cleared h (s := s.elapse dt) hf]

/-! ### The base of a submission ring (R34, R378, R380) -/

/-- The registers of a submission ring's base: one immediate field of the whole word, on every part. -/
theorem sqBase_fields : ∀ n < 64, (regAt (0xD100 + 32 * n)).map RegDef.fields = some [⟨0, 32, .rw, 0, .lowZero 6⟩] ∧
    (regAt (0xD104 + 32 * n)).map RegDef.fields = some [⟨0, 32, .rw, 0, .any⟩] := by decide +kernel

theorem sqBase_fitted (p : Part) : ∀ n < 64, p.fitMask (0xD100 + 32 * n) = 0xFFFFFFFF ∧ p.fitMask (0xD104 + 32 * n) = 0xFFFFFFFF := by
  cases p <;> decide +kernel

theorem sqBase_plain : ∀ n < 64, ∀ off ∈ [0xD100 + 32 * n, 0xD104 + 32 * n], ownCommand off = false ∧ arrayIdx off 0xDA00 4 256 = none ∧
    arrayIdx off 0xF100 4 16 = none := by decide +kernel

/-- A write of one of them, on a disabled ring, stores the field and puts in force what `State.latchBases` says. -/
theorem State.writeReg_sqBase {s : State} {n off : Nat} (hn : n < 64) (hd : (s.ring n).state = .disabled)
    (ho : off = 0xD100 + 32 * n ∨ off = 0xD104 + 32 * n) (v : Nat) :
    ∃ r, regAt off = some r ∧ s.writeReg off v = (s.writeFields r off v).latchBases off := by
  obtain ⟨h1, h2, h3⟩ := sqBase_plain n hn off (by simpa using ho)
  have hl : s.ringLocked off = false := by
    unfold State.ringLocked
    rw [if_neg (by omega), if_pos (by omega), show (off - 0xD100) / 32 = n by omega]
    simp [hd]
  have hw : s.wdogLocked off = false := by
    unfold State.wdogLocked
    rw [h3]
  obtain ⟨hlo, hhi⟩ := sqBase_fields n hn
  obtain ⟨flo, fhi⟩ := sqBase_fitted s.id.part n hn
  obtain ⟨r, hr⟩ : ∃ r, regAt off = some r := by
    obtain rfl | rfl := ho
    · obtain ⟨r, hr, -⟩ := Option.map_eq_some_iff.1 hlo
      exact ⟨r, hr⟩
    · obtain ⟨r, hr, -⟩ := Option.map_eq_some_iff.1 hhi
      exact ⟨r, hr⟩
  refine ⟨r, hr, ?_⟩
  rw [State.writeReg_of_stored h1 hl hw (by obtain rfl | rfl := ho <;> simp [flo, fhi]) h2 (by omega) (by omega) hr,
    State.afterWrite_of_plain (by omega) (by omega) h3]

/-- Writing _LO puts nothing in force. -/
theorem State.latchBases_sqLo {n : Nat} (hn : n < 64) (s : State) : s.latchBases (0xD100 + 32 * n) = s := by
  have h1 : arrayIdx (0xD100 + 32 * n) 0xD104 32 64 = none := Option.eq_none_iff_forall_ne_some.2 fun k hk => by
    have := (arrayIdx_eq_some (by omega)).1 hk
    omega
  have h2 : arrayIdx (0xD100 + 32 * n) 0xD10C 32 64 = none := Option.eq_none_iff_forall_ne_some.2 fun k hk => by
    have := (arrayIdx_eq_some (by omega)).1 hk
    omega
  unfold State.latchBases
  rw [if_neg (by simp [F.HST_DB_BASE_HI_ADDR]; omega), if_neg (by simp [F.HST_SHADOW_BASE_HI_ADDR]; omega)]
  simp [F.HST_RING_SQ_BASE_HI_ADDR, F.HST_RING_CQ_BASE_HI_ADDR, h1, h2]

/-- Writing _HI puts the pair in force. -/
theorem State.latchBases_sqHi {n : Nat} (hn : n < 64) (s : State) :
    s.latchBases (0xD104 + 32 * n) = s.latchPair F.HST_RING_SQ_BASE_LO_ADDR F.HST_RING_SQ_BASE_HI_ADDR n := by
  have h : arrayIdx (0xD104 + 32 * n) 0xD104 32 64 = some n := (arrayIdx_eq_some (by omega)).2 ⟨rfl, hn⟩
  unfold State.latchBases
  rw [if_neg (by simp [F.HST_DB_BASE_HI_ADDR]; omega), if_neg (by simp [F.HST_SHADOW_BASE_HI_ADDR]; omega)]
  simp [F.HST_RING_SQ_BASE_HI_ADDR, h]

/-- A register of one immediate field of the whole word stores the value. -/
theorem RegDef.store_whole {r : RegDef} (hr : r.fields = [⟨0, 32, .rw, 0, .any⟩]) {w v : Nat} (hw : w < 2 ^ 32) (hv : v < 2 ^ 32) :
    (r.store .rw 0xFFFFFFFF w v).1 = v := by
  have hm : v &&& 0xFFFFFFFF = v := by
    rw [show 0xFFFFFFFF = 2 ^ 32 - 1 from rfl, Nat.and_two_pow_sub_one_eq_mod, Nat.mod_eq_of_lt hv]
  have hv' : v % 4294967296 = v := Nat.mod_eq_of_lt hv
  simp [RegDef.store, hr, clampField, bits, putBits, hv', hm]
  omega

/-- After a write of _HI the pair reads the value above the _LO written last. -/
theorem State.sqHi_written {s : State} (hs : tsorted s.direct) {n v : Nat} {r : RegDef} (hn : n < 64) (hv : v < 2 ^ 32)
    (hr : regAt (0xD104 + 32 * n) = some r) :
    (s.writeFields r (0xD104 + 32 * n) v).reg64 F.HST_RING_SQ_BASE_LO_ADDR F.HST_RING_SQ_BASE_HI_ADDR n =
      s.reg F.HST_RING_SQ_BASE_LO_ADDR n + 2 ^ 32 * v := by
  have hf : r.fields = [⟨0, 32, .rw, 0, .any⟩] := by simpa [hr] using (sqBase_fields n hn).2
  have hd := State.writeFields_direct s r (0xD104 + 32 * n) v
  rw [hf, (sqBase_fitted s.id.part n hn).2, if_pos (by decide)] at hd
  have hlo : (s.writeFields r (0xD104 + 32 * n) v).reg F.HST_RING_SQ_BASE_LO_ADDR n = s.reg F.HST_RING_SQ_BASE_LO_ADDR n := by
    unfold State.reg
    rw [hd]
    unfold tget
    rw [RegDef.writeIn_ne _ _ _ _ _ (by simp [F.HST_RING_SQ_BASE_LO_ADDR])]
  have hreset : r.resetWord .rw = 0 := by simp [RegDef.resetWord, hf]
  have hw := RegDef.writeIn_self hs r .rw 0xFFFFFFFF (0xD104 + 32 * n) v
  rw [hreset, RegDef.store_whole hf (BitVec.isLt _) hv] at hw
  have hhi : (s.writeFields r (0xD104 + 32 * n) v).reg F.HST_RING_SQ_BASE_HI_ADDR n = v := by
    unfold State.reg
    rw [hd]
    simp only [F.HST_RING_SQ_BASE_HI_ADDR]
    rw [hw]
    simpa [bits] using hv
  rw [State.reg64, hlo, hhi]

/-! ### The statement -/

/-- The bits of CAL_TAMPER_STATUS that a write leaves: those it does not clear, and those of active inputs (R469). -/
theorem State.clearBits_tamper (s : State) (v i : Nat) (hi : i < 5) :
    (s.clearBits 0x3024 v).cal.tamperStatus.getLsbD i =
      (s.cal.tamperStatus.getLsbD i && if i = 4 then !bit v 4 else !bit v i || s.tamperActive i) := by
  change (BitVec.ofNat 5 (wordOf 5 _)).getLsbD i = _
  rw [BitVec.getLsbD_ofNat, testBit_wordOf hi]
  simp [hi]

/-- The registers of the Host Interface and of the tamper inputs whose bits are cleared stand on every part. -/
theorem clearedRegs_fitted (p : Part) : ∀ off ∈ 0xD018 :: 0x3024 :: (List.range 64).map (fun n => 0xD114 + 32 * n), p.fitMask off ≠ 0 := by
  cases p <;> decide +kernel

/-- A ring's BAD_INDEX is cleared by bit 3. -/
theorem State.clearBits_ring {n : Nat} (hn : n < 64) (s : State) (v : Nat) : s.clearBits (0xD114 + 32 * n) v =
    if bit v 3 then s.modRing n fun r => { r with badIndex := false } else s := by
  unfold State.clearBits
  dsimp only
  split
  case h_12 => rw [(arrayIdx_eq_some (by omega)).2 ⟨rfl, hn⟩]
  all_goals omega

/-- Settles O41: a write is the stored fields, a base that it puts in force, and what follows at once; of these the first alone
reaches staging and the immediate registers. A register whose bits are cleared stores no field. -/
theorem registersAreWrittenAndStaged : Obligations.RegistersAreWrittenAndStaged := by
  unfold Obligations.RegistersAreWrittenAndStaged
  refine ⟨?_, ?_, ?_, ?_, ?_⟩
  · intro s dt off v r ht hw ha hlt hv ho hl hk hf hm h1 h2 hr
    obtain ⟨-, -, -, -, -, -, -, ⟨hst, -⟩, -, hdir, -⟩ := ht
    refine ⟨_, exec_registerWrite hw ha hlt hv dt, ?_⟩
    dsimp only
    rw [State.writeReg_of_stored (s := s.elapse dt) ho hl hk hf hm h1 h2 hr, (State.afterWrite_leaves ..).1, (State.afterWrite_leaves ..).2,
      (State.latchBases_leaves ..).1, (State.latchBases_leaves ..).2, State.writeFields_direct, State.writeFields_staged]
    obtain ⟨hact, hun, hgen⟩ := State.writeFields_sameActive (s.elapse dt) r off v
    refine ⟨hact, hun, hgen, fun hs hview => ?_, fun hs => ?_, fun hs => ?_, fun hs => ?_⟩
    · have hview' : (s.elapse dt).reg F.CFG_CTRL_VIEW = 0 := hview
      rw [if_pos (by simp [hs, hview'])]
      exact ⟨RegDef.writeIn_self hst .., fun k hk => RegDef.writeIn_ne _ _ _ _ _ hk, rfl⟩
    · refine if_neg fun h => ?_
      obtain ⟨h1, h2⟩ := Bool.and_eq_true_iff.1 h
      exact hs.elim (fun hs => by simp [hs] at h1) fun hview => hview (of_decide_eq_true h2)
    · exact if_neg (by simp [hs])
    · rw [if_pos hs]
      exact ⟨RegDef.writeIn_self hdir .., fun k hk => RegDef.writeIn_ne _ _ _ _ _ hk⟩
  · intro s dt n v ht hw hn hv hd
    obtain ⟨-, -, -, -, -, -, -, -, -, hdir, -, hbase, -⟩ := ht
    constructor
    · refine ⟨_, exec_registerWrite hw (by omega) (by omega) hv dt, ?_⟩
      obtain ⟨r, hr, he⟩ := State.writeReg_sqBase (s := s.elapse dt) hn hd (.inr rfl) v
      rw [he, State.latchBases_sqHi hn]
      have hb : tsorted ((s.elapse dt).writeFields r (0xD104 + 32 * n) v).hst.bases := by
        rw [State.writeFields_hst]
        exact hbase
      exact (tget_tset_self hb ..).trans (State.sqHi_written (s := s.elapse dt) hdir hn hv hr)
    · refine ⟨_, exec_registerWrite hw (by omega) (by omega) hv dt, ?_⟩
      obtain ⟨r, -, he⟩ := State.writeReg_sqBase (s := s.elapse dt) hn hd (.inl rfl) v
      rw [he, State.latchBases_sqLo hn, State.writeFields_hst]
      rfl
  · intro s dt off size v h
    exact congrArg Host.Outcome.next (if_pos (by obtain h | h := h <;> simp [h]))
  · intro s u dt off v hw hv hf e h
    obtain ⟨rfl, rfl⟩ | ⟨rfl, rfl⟩ | ⟨rfl, rfl⟩ | ⟨rfl, rfl⟩ | ⟨rfl, rfl⟩ | ⟨rfl, rfl⟩ | ⟨rfl, rfl⟩ | ⟨rfl, rfl⟩ | ⟨rfl, rfl⟩ := h
    all_goals exact exec_registerWrite_cleared (by decide) hw hv hf dt
  · intro s dt v n ht hw hv
    obtain ⟨-, -, -, -, -, -, -, -, -, -, hrings, -⟩ := ht
    refine ⟨?_, fun hn => ?_, ?_⟩
    · exact exec_registerWrite_cleared (by decide) hw hv (clearedRegs_fitted _ _ (by simp)) dt
    · have hmem : 0xD114 + 32 * n ∈ (List.range 64).map fun n => 0xD114 + 32 * n := List.mem_map.2 ⟨n, List.mem_range.2 hn, rfl⟩
      refine ⟨_, exec_registerWrite_cleared (List.mem_append_right _ hmem) hw hv
        (clearedRegs_fitted _ _ (List.mem_cons_of_mem _ (List.mem_cons_of_mem _ hmem))) dt, ?_⟩
      rw [State.clearBits_ring hn]
      split
      · exact ⟨State.ring_modRing_self hrings .., fun k hk => State.ring_modRing_ne _ _ hk, rfl⟩
      · exact ⟨rfl, fun _ _ => rfl, rfl⟩
    · refine ⟨_, exec_registerWrite_cleared (by decide) hw hv (clearedRegs_fitted _ _ (by simp)) dt, ?_, ?_, rfl⟩
      · intro i hi
        rw [State.clearBits_tamper _ _ _ (by omega), if_neg (by omega)]
        rfl
      · rw [State.clearBits_tamper _ _ _ (by omega)]
        rfl

end Sys2Proof.Machine

namespace Sys2Proof.Machine

/-! ## Key records (R456 to R478) -/

/-! ### Shares and the key cache (R463, R464) -/

theorem bvBytes_length {w : Nat} (v : BitVec w) : (bvBytes v).length = w / 8 := by
  simp [bvBytes, beBytes, leBytes_length]

/-- Masking twice with the same bytes gives the bytes back. -/
theorem xorBytes_xorBytes_self {r m : List Byte} (h : r.length = m.length) : xorBytes r (xorBytes m r) = m := by
  induction r generalizing m with
  | nil =>
    obtain rfl : m = [] := List.length_eq_zero_iff.1 h.symm
    rfl
  | cons x r ih =>
    cases m with
    | nil => simp at h
    | cons y m =>
      have := ih (m := m) (by simpa using h)
      simp only [xorBytes, List.zipWith_cons_cons] at this ⊢
      rw [this, BitVec.xor_comm y x, ← BitVec.xor_assoc]
      simp

/-- Shares hold the material that was split. -/
theorem State.split_value (s : State) (m : List Byte) : (s.split m).value = m :=
  xorBytes_xorBytes_self ((bvBytes_length _).trans (Nat.mul_div_cancel_left _ (by decide)))

/-- What is cached of a record is its material. -/
theorem State.material_of_cached {s : State} {i : Nat} {m : List Byte} (h : s.material i = some m) {k : Shares}
    (hk : tfind s.key.cache i = some k) : k.value = m := by
  unfold State.material State.materialAux at h
  rw [hk] at h
  cases hv : s.validRec i <;> simp_all

/-- A record used is the first of the cache, with its material. -/
theorem State.cachePut_head {s : State} {i : Nat} {m : List Byte} (h : s.material i = some m) :
    ∃ sh rest, (s.cachePut i m).key.cache = (i, sh) :: rest ∧ sh.value = m := by
  unfold State.cachePut
  dsimp only
  split
  · next k hk => exact ⟨k, _, rfl, State.material_of_cached h hk⟩
  · exact ⟨_, _, rfl, State.split_value s m⟩

/-- The use of records changes the cache, and draws the masks of their shares. -/
def State.recached (s t : State) : Prop := t = { s with key := { s.key with cache := t.key.cache }, free := t.free }

theorem State.recached_refl (s : State) : s.recached s := rfl

theorem State.recached.trans {s t u : State} (h : s.recached t) (k : t.recached u) : s.recached u := by
  rw [State.recached] at h k
  rw [State.recached, k, h]

theorem State.draw_recached (s : State) : s.recached s.draw := rfl

theorem State.cachePut_recached (s : State) (i : Nat) (m : List Byte) : s.recached (s.cachePut i m) := by
  unfold State.cachePut
  dsimp only
  split <;> rfl

theorem State.cacheUse_recached (s : State) (n : Nat) : s.recached (s.cacheUse n) := by
  unfold State.cacheUse
  split
  · exact State.recached_refl s
  split
  · exact State.cachePut_recached ..
  · exact State.recached_refl s

/-- The use of a named record. -/
theorem State.cacheUse_of_material {s : State} {n : Nat} {m : List Byte} (hn : n < 1024) (h : s.material n = some m) :
    s.cacheUse n = s.cachePut n m := by
  unfold State.cacheUse
  rw [if_neg (Nat.not_le.2 hn), h]

/-! ### Time leaves what the Key Store knows of its records -/

@[simp] theorem State.elapse_materialAux (s : State) (dt n i : Nat) : (s.elapse dt).materialAux n i = s.materialAux n i := by
  induction n generalizing i with
  | zero => rfl
  | succ n ih =>
    unfold State.materialAux
    simp only [ih]
    rfl

@[simp] theorem State.elapse_material (s : State) (dt i : Nat) : (s.elapse dt).material i = s.material i :=
  State.elapse_materialAux ..

@[simp] theorem State.elapse_orphanAux (s : State) (dt n i : Nat) : (s.elapse dt).orphanAux n i = s.orphanAux n i := by
  induction n generalizing i with
  | zero => rfl
  | succ n ih =>
    unfold State.orphanAux
    simp only [ih, State.elapse_material]
    rfl

@[simp] theorem State.elapse_orphan (s : State) (dt i : Nat) : (s.elapse dt).orphan i = s.orphan i :=
  State.elapse_orphanAux ..

theorem State.elapse_parentOf (s : State) (dt p : Nat) (derive : Bool) : (s.elapse dt).parentOf p derive = s.parentOf p derive := by
  unfold State.parentOf
  simp only [State.elapse_material, State.elapse_orphan]
  rfl

theorem State.elapse_transportKey (s : State) (dt n : Nat) : (s.elapse dt).transportKey n = s.transportKey n := by
  unfold State.transportKey
  simp only [State.elapse_material, State.elapse_orphan]
  rfl

theorem State.elapse_cachePut (s : State) (dt i : Nat) (m : List Byte) : (s.elapse dt).cachePut i m = (s.cachePut i m).elapse dt := by
  unfold State.cachePut
  cases h : tfind s.key.cache i <;> simp only [State.elapse_key, h] <;> rfl

theorem State.elapse_cacheUse (s : State) (dt n : Nat) : (s.elapse dt).cacheUse n = (s.cacheUse n).elapse dt := by
  unfold State.cacheUse
  rw [State.elapse_material]
  split
  · rfl
  cases s.material n with
  | none => rfl
  | some m => exact State.elapse_cachePut ..

/-! ### Slots (R459, R460) -/

/-- The copy that an update writes: the old one changed, with its SEQ one higher, and its CRC. -/
theorem KeySlot.next_eq (k : KeySlot) (i : Nat) (f : KeyCopy → KeyCopy) :
    let old := k.committed.getD (KeyCopy.blank i)
    let r := { f old with seq := old.seq + 1, index := i }
    k.next i f = { r with crc := r.sum } := by
  unfold KeySlot.next
  cases k.committed <;> rfl

/-- A word is not its complement. -/
theorem word_not_ne_self (w : Word) : ~~~w ≠ w := by
  intro h
  have := congrArg (fun v => v.getLsbD 0) h
  simp at this

/-- The committed copy of a slot whose commit word is one: the copy of its number in the first place, else in the second. -/
theorem KeySlot.committed_eq (k : KeySlot) : k.committed =
    if k.commit = commitWord (k.commit.setWidth 32) then
      (k.a.filter fun c => c.seq = k.commit.setWidth 32 && c.crc = c.sum).or
        (k.b.filter fun c => c.seq = k.commit.setWidth 32 && c.crc = c.sum)
    else none := by
  obtain ⟨a, b, w⟩ := k
  split
  · next h =>
    dsimp only at h ⊢
    have hc := KeySlot.committed_of_word a b (w.setWidth 32)
    rwa [← h] at hc
  · next h => simp_all [KeySlot.committed]

/-- What is found first among two places, and stands in the first, is found there. -/
theorem Option.filter_or_keep {α : Type} (p : α → Bool) {a b c : Option α} (ha : a.isSome = true)
    (h : a = (a.filter p).or (b.filter p)) : (a.filter p).or c = a := by
  obtain ⟨x, rfl⟩ := Option.isSome_iff_exists.1 ha
  have hx : p x = true := by
    rcases Option.or_eq_some_iff.1 h.symm with h | ⟨-, h⟩
    · exact (Option.filter_eq_some_iff.1 h).2
    · exact (Option.filter_eq_some_iff.1 h).2
  simp [Option.filter, hx]

/-- What is not found in the first place is found as well when that place is written with what is not looked for. -/
theorem Option.or_filter_skip {α : Type} (p : α → Bool) {a b : Option α} {c : α} (hc : p c = false)
    (h : ¬ (((a.filter p).or (b.filter p)).isSome = true ∧ a = (a.filter p).or (b.filter p))) :
    ((some c).filter p).or (b.filter p) = (a.filter p).or (b.filter p) := by
  cases ha : a.filter p with
  | none => simp [Option.filter, hc]
  | some x => exact absurd (by rw [ha]; exact ⟨rfl, (Option.filter_eq_some_iff.1 ha).1⟩) h

/-- A copy whose CRC fails takes the place of the copy that is not committed: the committed one stands. -/
theorem KeySlot.committed_put_torn (k : KeySlot) {c : KeyCopy} (hc : c.crc ≠ c.sum) : (k.put c).committed = k.committed := by
  have hp : (decide (c.seq = k.commit.setWidth 32) && decide (c.crc = c.sum)) = false := by simp [hc]
  have hk := KeySlot.committed_eq k
  unfold KeySlot.put
  by_cases hw : k.commit = commitWord (k.commit.setWidth 32)
  · rw [if_pos hw] at hk
    split
    · next h =>
      simp only [Bool.and_eq_true, decide_eq_true_eq] at h
      obtain ⟨hsome, ha⟩ := h
      rw [KeySlot.committed_eq, if_pos hw, ← ha]
      exact Option.filter_or_keep (b := k.b) _ (ha ▸ hsome) (ha.trans hk)
    · next h =>
      simp only [Bool.and_eq_true, decide_eq_true_eq] at h
      rw [hk] at h ⊢
      rw [KeySlot.committed_eq, if_pos hw]
      exact Option.or_filter_skip _ hp h
  · rw [if_neg hw] at hk
    rw [hk, if_neg (by simp), KeySlot.committed_eq, if_neg hw]

/-- An update that is cut off leaves the committed copy (R460). -/
theorem KeySlot.committed_tear (k : KeySlot) (i : Nat) (f : KeyCopy → KeyCopy) : (k.tear i f).committed = k.committed :=
  KeySlot.committed_put_torn k (word_not_ne_self (k.next i f).sum)

/-- A slot with a copy written is not one that was never written. -/
theorem KeySlot.put_ne_empty (k : KeySlot) (c : KeyCopy) : k.put c ≠ KeySlot.empty := by
  unfold KeySlot.put KeySlot.empty
  split <;> simp

/-- An update that is cut off leaves every record (R460). -/
theorem State.keyRec_tearSlot (s : State) (i j : Nat) (f : KeyCopy → KeyCopy) : (s.tearSlot i f).keyRec j = s.keyRec j := by
  by_cases hj : j = i
  · subst hj
    have := tget_tset_self_of_ne s.key.slots (KeySlot.put_ne_empty _ _ : (tget s.key.slots KeySlot.empty j).tear j f ≠ _) j
    exact (congrArg KeySlot.committed this).trans (KeySlot.committed_tear ..)
  · exact congrArg KeySlot.committed (tget_tmod_ne s.key.slots KeySlot.empty (fun k => k.tear i f) hj)

/-- An update of a value in two copies shows the new value (R460). -/
theorem AB.value_write {α : Type} (x : AB α) (v d : α) : (x.write v).value d = v := by
  unfold AB.write
  dsimp only
  split
  · next h =>
    unfold AB.onA at h
    obtain ⟨y, hy⟩ := Option.isSome_iff_exists.1 (Bool.and_eq_true_iff.1 h).1
    have ha : x.a.map (·.1) = some y.1 := by simpa [hy] using h
    obtain ⟨z, hz, hzy⟩ := Option.map_eq_some_iff.1 ha
    have hn : y.1 ≠ y.1 + 1 := by simp
    simp only [hy, Option.map_some, Option.getD_some]
    simp [AB.value, AB.committed, commitWord_low, Option.filter, hz, hzy]
  · simp [AB.value, AB.committed, commitWord_low, Option.filter]

end Sys2Proof.Machine

namespace Sys2Proof.Machine

/-! ### Answers leave the records and what is held of them -/

/-- What an answer leaves of the Key Store and the Fabric. -/
theorem State.complete_key (s : State) (d : Desc) (status : Nat) (result : List Byte) (detail : Nat) :
    Key.kept s.key (s.complete d status result detail).key := by
  obtain ⟨_, _, _, _, _, _, h, -⟩ := State.hostQuiet_iff.1 (State.complete_hostQuiet s d status result detail)
  rw [h]
  rfl

@[simp] theorem State.complete_fab (s : State) (d : Desc) (status : Nat) (result : List Byte) (detail : Nat) :
    (s.complete d status result detail).fab = s.fab := by
  obtain ⟨_, _, _, _, _, _, h, -⟩ := State.hostQuiet_iff.1 (State.complete_hostQuiet s d status result detail)
  rw [h]
  rfl

@[simp] theorem State.complete_cache (s : State) (d : Desc) (status : Nat) (result : List Byte) (detail : Nat) :
    (s.complete d status result detail).key.cache = s.key.cache := by
  rw [State.complete_key s d status result detail]

@[simp] theorem State.complete_link (s : State) (d : Desc) (status : Nat) (result : List Byte) (detail : Nat) :
    (s.complete d status result detail).key.link = s.key.link := by
  rw [State.complete_key s d status result detail]

@[simp] theorem State.complete_retired (s : State) (d : Desc) (status : Nat) (result : List Byte) (detail : Nat) :
    (s.complete d status result detail).key.retired = s.key.retired := by
  rw [State.complete_key s d status result detail]

@[simp] theorem State.complete_keyRec (s : State) (d : Desc) (status : Nat) (result : List Byte) (detail i : Nat) :
    (s.complete d status result detail).keyRec i = s.keyRec i := by
  unfold State.keyRec
  rw [State.complete_key s d status result detail]

/-! ### Updates of the key-store region (R460, R474) -/

/-- None starts while PFAIL_N stops NV writes. -/
theorem State.keyWrite_held {s : State} (h : s.nvHeld = true) (d : Desc) (block : Nat) (run : NvRun) (torn done : State → State) :
    s.keyWrite d block run torn done = s.complete d St.pfail := by
  unfold State.keyWrite
  rw [if_pos h]

/-- The block takes the write, which counts. -/
def State.keyCounted (s : State) (block : Nat) : State :=
  let home := s.nvHome (s.nvBlock Region.key block)
  s.countWrite home (tget s.nvm.wear 0 home + 1)

/-- One that goes well. -/
theorem State.keyWrite_plain {s : State} (h : s.nvHeld = false) {block : Nat} (hr : s.nvRoom Region.key block 1) (d : Desc)
    (torn done : State → State) : s.keyWrite d block .plain torn done = done (s.keyCounted block) := by
  unfold State.keyWrite
  rw [if_neg (by simp [h]), State.nvWrite_of_room hr]
  rfl

/-- One that PFAIL_N cuts off before its commit word. -/
theorem State.keyWrite_cut {s : State} (h : s.nvHeld = false) {block : Nat} (hr : s.nvRoom Region.key block 1) (d : Desc)
    (mapped : Bool) (torn done : State → State) : s.keyWrite d block ⟨0, false, some ⟨false, mapped⟩⟩ torn done =
      ((torn (s.keyCounted block)).raise Ev.keyPfailAbandon 0 []).complete d St.pfail := by
  have hr' : tget s.nvm.wear 0 (s.nvHome (s.nvBlock Region.key block)) + 1 < nvEndurance := hr
  unfold State.keyWrite
  rw [if_neg (by simp [h])]
  simp only [State.nvWrite, runNow, if_true, hr', decide_true, Bool.not_false, Bool.and_self, runEnded]
  rfl

/-- The record that an update stores: the old one changed, with its SEQ one higher, and its CRC. -/
theorem State.keyRec_updateSlot (s : State) (i : Nat) (f : KeyCopy → KeyCopy) :
    let old := (s.keyRec i).getD (KeyCopy.blank i)
    let r := { f old with seq := old.seq + 1, index := i }
    (s.updateSlot i f).keyRec i = some { r with crc := r.sum } := by
  dsimp only
  rw [State.keyRec_updateSlot_self, KeySlot.next_eq]
  rfl

/-- A descriptor's operand within its range is not clamped. -/
theorem Desc.clamped'_of_mem {d : Desc} {o n lo hi : Nat} (h1 : lo ≤ d.operand o n) (h2 : d.operand o n ≤ hi) :
    d.clamped' o n lo hi = (d.operand o n, d, 0) := by
  have : clampNat lo hi (d.operand o n) = d.operand o n := by
    unfold clampNat
    rw [if_neg (by omega), if_neg (by omega)]
  simp [Desc.clamped', this, Desc.clampIf, b2n]

end Sys2Proof.Machine

namespace Sys2Proof.Machine

/-! ### KEY_CREATE (R477) -/

/-- The record that KEY_CREATE makes of a slot's copy, before its body: what the operands say, under a parent. -/
def Desc.newRecord (d : Desc) (method pdepth : Nat) (gen : Word) (c : KeyCopy) : KeyCopy :=
  { c with
    type := d.operand 5 1, usage := d.operand 6 1, exportable := bit (d.operand 7 1) 0, attest := bit (d.operand 7 1) 1
    derived := method = 0, parent := d.operand 2 2, depth := pdepth + 1, parentGen := gen, label := [], context := [], wrapped := [] }

/-- LABEL and CONTEXT of a derivation lie one after the other in the payload. -/
def Desc.labelOf (d : Desc) (payload : List Byte) : List Byte := (padTo d.len payload).take (d.operand 10 1)
def Desc.contextOf (d : Desc) (payload : List Byte) : List Byte := ((padTo d.len payload).drop (d.operand 10 1)).take (d.operand 11 1)

/-- The payload's length is the one that METHOD needs. -/
def Desc.createFits (d : Desc) (method : Nat) : Prop :=
  d.len = if method = 0 then d.operand 10 1 + d.operand 11 1 else if method = 1 then 0 else typeSize (d.operand 5 1) + 8

/-- The checks of R477 on the operands and the parent pass. -/
structure State.createPasses (s : State) (d : Desc) (method pdepth : Nat) (pm : List Byte) (p384 : Bool) (gen : Word) : Prop where
  method_eq : d.operand 4 1 = method
  runs : s.updateStop = none
  slot : d.operand 0 2 < 1024
  type_lt : d.operand 5 1 < 4
  usage_lt : d.operand 6 1 < 4
  fits : typeUsageOk (d.operand 5 1) (d.operand 6 1) (bit (d.operand 7 1) 1) = true
  unused : s.validRec (d.operand 0 2) = none
  parent : s.parentOf (d.operand 2 2) (decide (method = 0)) = .inl (pm, p384, gen, pdepth)
  depth_lt : pdepth < 4
  len : d.createFits method

theorem State.createPasses.elapse {s : State} {d : Desc} {method pdepth : Nat} {pm : List Byte} {p384 : Bool} {gen : Word}
    (h : s.createPasses d method pdepth pm p384 gen) (dt : Nat) : (s.elapse dt).createPasses d method pdepth pm p384 gen :=
  { h with parent := (State.elapse_parentOf ..).trans h.parent }

/-- The record of a derivation, which holds its recipe. -/
def Desc.recipe (d : Desc) (pdepth : Nat) (gen : Word) (payload : List Byte) (c : KeyCopy) : KeyCopy :=
  { d.newRecord 0 pdepth gen c with label := d.labelOf payload, context := d.contextOf payload }

/-- The record of material, which holds its wrapping. -/
def Desc.wrapping (d : Desc) (method pdepth : Nat) (gen : Word) (pm mat : List Byte) (c : KeyCopy) : KeyCopy :=
  { d.newRecord method pdepth gen c with wrapped := kwWrap pm mat }

/-- KEY_CREATE leaves the GEN of its slot. -/
theorem Desc.recipe_gen (d : Desc) (pdepth : Nat) (gen : Word) (payload : List Byte) (c : KeyCopy) :
    (d.recipe pdepth gen payload c).gen = c.gen := rfl

theorem Desc.wrapping_gen (d : Desc) (method pdepth : Nat) (gen : Word) (pm mat : List Byte) (c : KeyCopy) :
    (d.wrapping method pdepth gen pm mat c).gen = c.gen := rfl

/-- What KEY_CREATE stores once its checks have passed, by METHOD: a recipe, fresh material, or what the wrapping holds. -/
def State.createRecord (s : State) (d : Desc) (method pdepth : Nat) (pm : List Byte) (p384 : Bool) (gen : Word) (payload : List Byte)
    (run : NvRun) : State :=
  let i := d.operand 0 2
  let size := typeSize (d.operand 5 1)
  if method = 0 then
    s.storeRecord d run i (d.recipe pdepth gen payload) (kdf pm p384 (d.labelOf payload) (d.contextOf payload) size)
  else if method = 1 then
    s.draw.storeRecord d run i (d.wrapping method pdepth gen pm (s.randomBytes size)) (s.randomBytes size)
  else
    match if d.operand 8 2 = 0xFFFF then .inl pm else s.transportKey (d.operand 8 2) with
    | .inr st => (if st = St.orphaned then s.orphanUse (d.operand 8 2) else s).complete d st
    | .inl tk =>
      let s := if d.operand 8 2 = 0xFFFF then s else s.cacheUse (d.operand 8 2)
      match (Config.kwUnwrap tk (padTo d.len payload)).filter fun m => m.length = size with
      | none => ({ s with key := { s.key with authFail := s.key.authFail + 1 } }).complete d St.authFail
      | some mat => s.storeRecord d run i (d.wrapping method pdepth gen pm mat) mat

/-- Where the checks pass, the parent is used and the record is stored. -/
theorem State.keyCreate_of_passes {s : State} {d : Desc} {method pdepth : Nat} {pm : List Byte} {p384 : Bool} {gen : Word}
    (h : s.createPasses d method pdepth pm p384 gen)
    (hl : method = 0 → 1 ≤ d.operand 10 1 ∧ d.operand 10 1 ≤ 16 ∧ d.operand 11 1 ≤ 32) (payload : List Byte) (run : NvRun) :
    s.keyCreate d method payload run =
      (s.cacheUse (d.operand 2 2)).createRecord d method pdepth pm p384 gen payload run := by
  obtain ⟨hmethod, hruns, hslot, htype, husage, hfits, hunused, hparent, hdepth, hlen⟩ := h
  have ht : ¬ (4 ≤ d.operand 5 1 ∨ 4 ≤ d.operand 6 1) := not_or.2 ⟨Nat.not_le.2 htype, Nat.not_le.2 husage⟩
  have hd : ¬ 4 < pdepth + 1 := Nat.not_lt.2 hdepth
  have hslot := Desc.clamped'_of_mem (d := d) (o := 0) (n := 2) (Nat.zero_le _) (Nat.le_of_lt_succ hslot)
  have hc : b2n (decide (method ≠ d.operand 4 1)) = 0 := by simp [hmethod, b2n]
  unfold Desc.createFits at hlen
  unfold State.keyCreate State.createRecord
  by_cases hm : method = 0
  · obtain ⟨h1, h2, h3⟩ := hl hm
    rw [if_pos hm] at hlen
    have he : (decide (d.len = 0) && decide (d.operand 10 1 + d.operand 11 1 ≠ 0)) = false := by simp [hlen]
    simp only [hruns, hslot, ht, if_false, if_pos hm, Desc.clamped'_of_mem h1 h2, Desc.clamped'_of_mem (Nat.zero_le _) h3, hc, ne_eq,
      not_true_eq_false, decide_false, Desc.clampIf_false, Nat.add_zero, State.countClamps_zero, hunused, Option.isSome_none,
      Bool.false_eq_true, hparent, hd, hfits, Bool.not_true]
    rw [if_neg (by simpa using he), if_neg (by simpa using hlen)]
    subst hm
    rfl
  · rw [if_neg hm] at hlen
    have he : (decide (d.len = 0) && decide ((if method = 1 then 0 else typeSize (d.operand 5 1) + 8) ≠ 0)) = false := by simp [hlen]
    simp only [hruns, hslot, ht, if_false, if_neg hm, hc, ne_eq, not_true_eq_false, decide_false, Desc.clampIf_false, Nat.add_zero,
      State.countClamps_zero, hunused, Option.isSome_none, Bool.false_eq_true, hparent, hd, hfits, Bool.not_true]
    rw [if_neg (by simpa using he), if_neg (by simpa using hlen)]
    rfl

/-- The record that KEY_CREATE stores in a slot, of what lay there. -/
def KeyCopy.stored (old : KeyCopy) (i : Nat) (f : KeyCopy → KeyCopy) (mat : List Byte) : KeyCopy :=
  let r := { f { old with valid := true, kcv := kcvOf mat } with seq := old.seq + 1, index := i }
  { r with crc := r.sum }

/-- A record stored after the use of others: no other slot changes, and the descriptor completes with its GEN and KCV. -/
structure State.storedAs (s v u t : State) (d : Desc) (i : Nat) (f : KeyCopy → KeyCopy) (mat : List Byte) : Prop where
  rec_eq : u.keyRec i = some (((s.keyRec i).getD (KeyCopy.blank i)).stored i f mat)
  others : ∀ k, k ≠ i → u.keyRec k = s.keyRec k
  cache_eq : u.key.cache = v.key.cache
  frame : u = { s with
    key := { s.key with slots := u.key.slots, cache := u.key.cache }, nvm := { s.nvm with wear := u.nvm.wear }, free := u.free }
  answer : u.answered t [] d St.ok (leBytes 4 ((s.keyRec i).getD (KeyCopy.blank i)).gen.toNat ++ kcvOf mat)
  only : u.answerOnly t

section
variable (s : State) (d : Desc) (pdepth : Nat) (pm : List Byte) (p384 : Bool) (gen : Word) (payload : List Byte) (run : NvRun)

theorem State.createRecord_derive : s.createRecord d 0 pdepth pm p384 gen payload run =
    s.storeRecord d run (d.operand 0 2) (d.recipe pdepth gen payload)
      (kdf pm p384 (d.labelOf payload) (d.contextOf payload) (typeSize (d.operand 5 1))) := rfl

theorem State.createRecord_generate : s.createRecord d 1 pdepth pm p384 gen payload run =
    s.draw.storeRecord d run (d.operand 0 2) (d.wrapping 1 pdepth gen pm (s.randomBytes (typeSize (d.operand 5 1))))
      (s.randomBytes (typeSize (d.operand 5 1))) := rfl

end

/-- An import uses the record that unwraps it, unless that is its parent. -/
def State.importUse (s : State) (d : Desc) : State := if d.operand 8 2 = 0xFFFF then s else s.cacheUse (d.operand 8 2)

theorem State.importUse_recached (s : State) (d : Desc) : s.recached (s.importUse d) := by
  unfold State.importUse
  split
  · exact State.recached_refl s
  · exact State.cacheUse_recached ..

section
variable {s : State} {d : Desc} {pm tk : List Byte}
  (htk : (if d.operand 8 2 = 0xFFFF then .inl pm else s.transportKey (d.operand 8 2)) = (.inl tk : List Byte ⊕ Nat))
  (pdepth : Nat) (p384 : Bool) (gen : Word) {payload : List Byte} (run : NvRun)
include htk

/-- An import whose wrapping opens to material of its type's size is stored. -/
theorem State.createRecord_opened {mat : List Byte}
    (hm : ((Config.kwUnwrap tk (padTo d.len payload)).filter fun m => m.length = typeSize (d.operand 5 1)) = some mat) :
    s.createRecord d 2 pdepth pm p384 gen payload run = (s.importUse d).storeRecord d run (d.operand 0 2)
      (d.wrapping 2 pdepth gen pm mat) mat := by
  unfold State.createRecord
  simp only [htk, hm, OfNat.ofNat_ne_zero, OfNat.ofNat_ne_one, if_false]
  rfl

/-- One whose wrapping does not counts an AUTH_FAIL. -/
theorem State.createRecord_unopened
    (hm : ((Config.kwUnwrap tk (padTo d.len payload)).filter fun m => m.length = typeSize (d.operand 5 1)) = none) :
    s.createRecord d 2 pdepth pm p384 gen payload run =
      State.complete { s.importUse d with key := { (s.importUse d).key with authFail := (s.importUse d).key.authFail + 1 } } d
        St.authFail := by
  unfold State.createRecord
  simp only [htk, hm, OfNat.ofNat_ne_zero, OfNat.ofNat_ne_one, if_false]
  rfl

end

/-- The room of a block is what the wear of its cells says. -/
theorem State.nvRoom_of_nvm {s v : State} {region block n : Nat} (h : v.nvm = s.nvm) (hr : s.nvRoom region block n) :
    v.nvRoom region block n := by
  simpa only [State.nvRoom, State.nvHome, State.nvBlock, State.regionBase, h] using hr

/-- The state with a new record in a slot, whose block has counted the write. -/
def State.withRecord (s : State) (i : Nat) (f : KeyCopy → KeyCopy) (mat : List Byte) : State :=
  (s.keyCounted (i / 128)).updateSlot i fun c => f { c with valid := true, kcv := kcvOf mat }

theorem State.withRecord_self (s : State) (i : Nat) (f : KeyCopy → KeyCopy) (mat : List Byte) :
    (s.withRecord i f mat).keyRec i = some (((s.keyRec i).getD (KeyCopy.blank i)).stored i f mat) :=
  State.keyRec_updateSlot ..

/-- The write of a record that goes well completes with GEN and KCV (R477). -/
theorem State.storeRecord_plain {s : State} (hn : s.nvHeld = false) {i : Nat} (hr : s.nvRoom Region.key (i / 128) 1)
    {f : KeyCopy → KeyCopy} (hf : ∀ c, (f c).gen = c.gen) (d : Desc) (mat : List Byte) : s.storeRecord d .plain i f mat =
      (s.withRecord i f mat).complete d St.ok (leBytes 4 ((s.keyRec i).getD (KeyCopy.blank i)).gen.toNat ++ kcvOf mat) := by
  refine (State.keyWrite_plain hn hr ..).trans ?_
  change (s.withRecord i f mat).complete _ _ (leBytes 4 ((((s.withRecord i f mat).keyRec i).map KeyCopy.gen).getD 0).toNat ++ _) = _
  rw [State.withRecord_self]
  simp [KeyCopy.stored, hf]

theorem State.storeRecord_storedAs {s v : State} {ring index op : Nat} {d : Desc} (ho : s.offers ring index op d)
    (hv : s.recached v) (hn : s.nvHeld = false) {i : Nat} (hr : s.nvRoom Region.key (i / 128) 1) {f : KeyCopy → KeyCopy}
    (hf : ∀ c, (f c).gen = c.gen) (mat : List Byte) : ∃ u, s.storedAs v u (v.storeRecord d .plain i f mat) d i f mat := by
  obtain ⟨hst, hpwr, hnvm, hslots⟩ : v.hst = s.hst ∧ v.pwr = s.pwr ∧ v.nvm = s.nvm ∧ v.key.slots = s.key.slots := by
    rw [hv]
    exact ⟨rfl, rfl, rfl, rfl⟩
  have hrec : ∀ k, v.keyRec k = s.keyRec k := fun k => by
    unfold State.keyRec
    rw [hslots]
  refine ⟨v.withRecord i f mat, ?_⟩
  rw [State.storeRecord_plain ((congrArg Pwr.nvStopped hpwr).trans hn) (State.nvRoom_of_nvm hnvm hr) hf, hrec i]
  exact {
    rec_eq := by rw [State.withRecord_self, hrec]
    others := fun k hk => (State.keyRec_updateSlot_ne _ _ hk).trans (hrec k)
    cache_eq := rfl
    frame := by
      rw [hv]
      rfl
    answer := by simpa [hrec] using State.offers_answered_from ho (u := v.withRecord i f mat) hst hpwr false St.ok _
    only := State.complete_answerOnly .. }

/-- The parent of a record, named in the key store, has the material that it gives to the record. -/
theorem State.material_of_parentOf {s : State} {p : Nat} {derive p384 : Bool} {pm : List Byte} {gen : Word} {depth : Nat}
    (h : s.parentOf p derive = .inl (pm, p384, gen, depth)) (hp : p < 1024) : s.material p = some pm := by
  have hroot : isRoot p = false := by
    unfold isRoot rootExactName rootLineageName
    simp
    omega
  unfold State.parentOf at h
  rw [if_neg (by simp [hroot])] at h
  cases hv : s.validRec p with
  | none => simp [hv] at h
  | some c =>
    simp only [hv] at h
    by_cases ho : s.orphan p = true
    · simp [ho] at h
    by_cases hu : c.usage ≠ if derive then Usage.deriveOnly else Usage.wrapOnly
    · rw [if_neg ho, if_pos hu] at h
      simp at h
    rw [if_neg ho, if_neg hu] at h
    cases hm : s.material p with
    | none => simp [hm] at h
    | some m => simp_all

/-- A record that is used enters the key cache as its first entry (R463). -/
theorem State.cacheUse_head {s : State} {p : Nat} {m : List Byte} (hp : p < 1024) (h : s.material p = some m) :
    ∃ sh rest, (s.cacheUse p).key.cache = (p, sh) :: rest ∧ sh.value = m := by
  rw [State.cacheUse_of_material hp h]
  exact State.cachePut_head h

end Sys2Proof.Machine

namespace Sys2Proof.Machine

section
variable {s : State} {dt ring index pdepth : Nat} {payload : List Byte} {d : Desc} {pm : List Byte} {p384 : Bool} {gen : Word}
  (ho : s.offers ring index opKeyCreate d) (hn : s.nvHeld = false) (hr : s.nvRoom Region.key (d.operand 0 2 / 128) 1)
include ho hn hr

/-- A derivation stores its recipe (R477). -/
theorem reaches_keyCreateDerive (hm : createMethod d = 0) (hp : s.createPasses d 0 pdepth pm p384 gen)
    (hb : 1 ≤ d.operand 10 1 ∧ d.operand 10 1 ≤ 16 ∧ d.operand 11 1 ≤ 32) :
    reaches (exec (.keyCreateDerive dt ring index payload .plain) s) fun t =>
      ∃ u, (s.elapse dt).storedAs ((s.elapse dt).cacheUse (d.operand 2 2)) u t d (d.operand 0 2)
        (d.recipe pdepth gen payload) (kdf pm p384 (d.labelOf payload) (d.contextOf payload) (typeSize (d.operand 5 1))) := by
  refine reaches_of_offers ho (by simp [hm]) ?_
  rw [State.keyCreate_of_passes (hp.elapse dt) fun _ => hb, State.createRecord_derive]
  exact State.storeRecord_storedAs (State.offers_elapse dt ho) (State.cacheUse_recached ..) hn hr
    (d.recipe_gen pdepth gen payload) _

/-- A generated record wraps fresh material. -/
theorem reaches_keyCreateGenerate (hm : createMethod d = 1) (hp : s.createPasses d 1 pdepth pm p384 gen) :
    reaches (exec (.keyCreateGenerate dt ring index .plain) s) fun t =>
      let v := (s.elapse dt).cacheUse (d.operand 2 2)
      let mat := v.randomBytes (typeSize (d.operand 5 1))
      ∃ u, (s.elapse dt).storedAs v.draw u t d (d.operand 0 2) (d.wrapping 1 pdepth gen pm mat) mat := by
  refine reaches_of_offers ho (by simp [hm]) ?_
  rw [State.keyCreate_of_passes (hp.elapse dt) (by simp), State.createRecord_generate]
  exact State.storeRecord_storedAs (State.offers_elapse dt ho) ((State.cacheUse_recached ..).trans (State.draw_recached _)) hn hr
    (d.wrapping_gen 1 pdepth gen pm _) _

section
variable (hm : createMethod d = 2) (hp : s.createPasses d 2 pdepth pm p384 gen) {tk : List Byte}
  (htk : if d.operand 8 2 = 0xFFFF then tk = pm else (s.cacheUse (d.operand 2 2)).transportKey (d.operand 8 2) = .inl tk)
include hm hp htk

omit ho hn hr hm hp in
/-- The material that an import is wrapped under, which is the parent's for 0xFFFF, is the same after a time. -/
theorem State.elapse_importKey (dt : Nat) :
    (if d.operand 8 2 = 0xFFFF then .inl pm else ((s.elapse dt).cacheUse (d.operand 2 2)).transportKey (d.operand 8 2)) =
      (.inl tk : List Byte ⊕ Nat) := by
  rw [State.elapse_cacheUse, State.elapse_transportKey]
  split at htk
  · simp_all
  · rwa [if_neg ‹_›]

/-- An import whose wrapping opens stores the material. -/
theorem reaches_keyCreateImport_opened {mat : List Byte}
    (hmat : ((Config.kwUnwrap tk (padTo d.len payload)).filter fun m => m.length = typeSize (d.operand 5 1)) = some mat) :
    reaches (exec (.keyCreateImport dt ring index payload .plain) s) fun t =>
      ∃ v u, (s.elapse dt).storedAs v u t d (d.operand 0 2) (d.wrapping 2 pdepth gen pm mat) mat := by
  refine reaches_of_offers ho (by simp [hm]) ?_
  rw [State.keyCreate_of_passes (hp.elapse dt) (by simp), State.createRecord_opened (State.elapse_importKey htk dt) _ _ _ _ hmat]
  exact ⟨_, State.storeRecord_storedAs (State.offers_elapse dt ho)
    ((State.cacheUse_recached ..).trans (State.importUse_recached _ d)) hn hr (d.wrapping_gen 2 pdepth gen pm mat) mat⟩

omit hn hr in
/-- One whose wrapping does not open counts an AUTH_FAIL and stores nothing. -/
theorem reaches_keyCreateImport_unopened
    (hmat : ((Config.kwUnwrap tk (padTo d.len payload)).filter fun m => m.length = typeSize (d.operand 5 1)) = none) :
    reaches (exec (.keyCreateImport dt ring index payload .plain) s) fun t =>
      Key.kept { s.key with authFail := s.key.authFail + 1, cache := t.key.cache } t.key ∧
        (s.elapse dt).replies t d St.authFail [] := by
  refine reaches_of_offers ho (by simp [hm]) ?_
  rw [State.keyCreate_of_passes (hp.elapse dt) (by simp), State.createRecord_unopened (State.elapse_importKey htk dt) _ _ _ _ hmat]
  have hused := (State.cacheUse_recached (s.elapse dt) (d.operand 2 2)).trans (State.importUse_recached _ d)
  generalize ((s.elapse dt).cacheUse (d.operand 2 2)).importUse d = v at hused
  refine ⟨?_, State.offers_replies_plain (State.offers_elapse dt ho) ?_⟩
  · rw [State.complete_key, hused]
    rfl
  · rw [hused]
    exact ⟨rfl, rfl, rfl, rfl⟩

end

end

end Sys2Proof.Machine

namespace Sys2Proof.Machine

/-! ### KEY_DESTROY, KEY_INVALIDATE (R461, R468, R475) -/

/-- A record's ancestry is read from the PARENT fields. -/
theorem State.descendsAux_congr {s t : State} (h : ∀ j, (t.keyRec j).map KeyCopy.parent = (s.keyRec j).map KeyCopy.parent)
    (anc n i : Nat) : t.descendsAux anc n i = s.descendsAux anc n i := by
  induction n generalizing i with
  | zero => rfl
  | succ n ih =>
    have hi := h i
    unfold State.descendsAux
    cases hs : s.keyRec i <;> cases ht : t.keyRec i <;> simp_all

theorem State.descends_congr {s t : State} (h : ∀ j, (t.keyRec j).map KeyCopy.parent = (s.keyRec j).map KeyCopy.parent)
    (i anc : Nat) : t.descends i anc = s.descends i anc := State.descendsAux_congr h ..

@[simp] theorem State.elapse_descends (s : State) (dt i anc : Nat) : (s.elapse dt).descends i anc = s.descends i anc :=
  State.descends_congr (fun _ => rfl) ..

@[simp] theorem State.elapse_inService (s : State) (dt i : Nat) : (s.elapse dt).inService i = s.inService i := by
  unfold State.inService
  simp only [State.elapse_descends]
  rfl

/-- A record that is retired: GEN one higher, and VALID cleared by a destroy. -/
def KeyCopy.retire (destroy : Bool) (c : KeyCopy) : KeyCopy := { c with gen := c.gen + 1, valid := c.valid && !destroy }

/-- The link bank goes with the join root (R465). -/
def State.dropLink (s : State) (i : Nat) : State :=
  if s.unitOn U.hop && s.descends (s.act F.HOP_KEYS_JOIN_ROOT) i then { s with key := { s.key with link := [] } } else s

/-- The state with a record retired, whose block has counted the write, before what depended on it is purged. -/
def State.withRetired (s : State) (i : Nat) (destroy : Bool) : State := (s.keyCounted (i / 128)).updateSlot i (KeyCopy.retire destroy)

/-- A name below 1024 is of a record. -/
theorem isRecordName_of_lt {i : Nat} (h : i < 1024) : (isRoot i || decide (i = provisionName)) = false := by
  unfold isRoot rootExactName rootLineageName provisionName
  simp
  omega

/-- A VALID record that may be retired is updated. -/
theorem State.keyRetire_of_free {s : State} {d : Desc} (hstop : s.updateStop = none) (hi : d.operand 0 2 < 1024) {k : KeyCopy}
    (hk : s.validRec (d.operand 0 2) = some k) (hf : s.inService (d.operand 0 2) = false ∨ bit (d.operand 2 1) 0 = true)
    (destroy : Bool) (run : NvRun) : s.keyRetire d destroy run = s.recordUpdate d (d.operand 0 2) run (KeyCopy.retire destroy)
      fun s => ((s.purge (d.operand 0 2)).dropLink (d.operand 0 2)).complete d St.ok := by
  have hf' : (s.inService (d.operand 0 2) && !bit (d.operand 2 1) 0) = false := by rcases hf with h | h <;> simp [h]
  unfold State.keyRetire
  simp only [hstop, isRecordName_of_lt hi, hk, hf', Bool.false_eq_true, if_false]
  rfl

/-- One in service is not, without bit 0 of FLAGS (R475). -/
theorem State.keyRetire_of_inService {s : State} {d : Desc} (hstop : s.updateStop = none) (hi : d.operand 0 2 < 1024) {k : KeyCopy}
    (hk : s.validRec (d.operand 0 2) = some k) (h1 : s.inService (d.operand 0 2) = true) (h2 : bit (d.operand 2 1) 0 = false)
    (destroy : Bool) (run : NvRun) : s.keyRetire d destroy run = s.complete d St.inService := by
  unfold State.keyRetire
  simp only [hstop, isRecordName_of_lt hi, hk, h1, h2, Bool.false_eq_true, if_false, Bool.not_false, Bool.and_self, if_true]

section
variable {s : State} {i : Nat} {k : KeyCopy} (hk : s.validRec i = some k) (destroy : Bool)
include hk

theorem State.withRetired_self : (s.withRetired i destroy).keyRec i =
    some (let r := { k with seq := k.seq + 1, index := i, gen := k.gen + 1, valid := !destroy }
      { r with crc := r.sum }) := by
  obtain ⟨hr, hv⟩ := Option.filter_eq_some_iff.1 hk
  refine (State.keyRec_updateSlot (s.keyCounted (i / 128)) i (KeyCopy.retire destroy)).trans ?_
  rw [show (s.keyCounted (i / 128)).keyRec i = some k from hr]
  simp [KeyCopy.retire, hv]

/-- Retiring a record leaves the ancestry. -/
theorem State.withRetired_descends (x a : Nat) : (s.withRetired i destroy).descends x a = s.descends x a := by
  refine State.descends_congr (fun j => ?_) x a
  by_cases hj : j = i
  · subst hj
    rw [State.withRetired_self hk, (Option.filter_eq_some_iff.1 hk).1]
    rfl
  · rw [State.withRetired, State.keyRec_updateSlot_ne _ _ hj]
    rfl

end

/-- Where the link bank goes, nothing else of the state does. -/
theorem State.dropLink_eq (s : State) (i : Nat) : s.dropLink i = { s with key := { s.key with link := (s.dropLink i).key.link } } := by
  unfold State.dropLink
  split <;> rfl

theorem State.dropLink_link {s : State} {i : Nat} (h1 : s.unitOn U.hop = true) (h2 : s.descends (s.act F.HOP_KEYS_JOIN_ROOT) i = true) :
    (s.dropLink i).key.link = [] := by
  unfold State.dropLink
  rw [if_pos (by simp [h1, h2])]

/-- What depended on a retired record goes: the link bank with the join root, and what was cached or held under it. -/
def State.withoutRetired (s : State) (i : Nat) (destroy : Bool) : State := ((s.withRetired i destroy).purge i).dropLink i

theorem State.withoutRetired_eq (s : State) (i : Nat) (destroy : Bool) :
    let p := (s.withRetired i destroy).purge i
    s.withoutRetired i destroy = { p with key := { p.key with link := (s.withoutRetired i destroy).key.link } } :=
  State.dropLink_eq ..

section
variable {s : State} {d : Desc} (hstop : s.updateStop = none) (hi : d.operand 0 2 < 1024) {k : KeyCopy}
  (hk : s.validRec (d.operand 0 2) = some k) (hf : s.inService (d.operand 0 2) = false ∨ bit (d.operand 2 1) 0 = true) (destroy : Bool)
include hstop hi hk hf

theorem State.keyRetire_plain (hn : s.nvHeld = false) (hr : s.nvRoom Region.key (d.operand 0 2 / 128) 1) :
    s.keyRetire d destroy .plain = (s.withoutRetired (d.operand 0 2) destroy).complete d St.ok :=
  (State.keyRetire_of_free hstop hi hk hf ..).trans (State.keyWrite_plain hn hr ..)

/-- Where PFAIL_N keeps the update from starting or cuts it off, the descriptor completes PFAIL, and the records and the cache stand
(R460, R474). -/
theorem State.keyRetire_pfail {mapped : Bool} {run : NvRun}
    (h : s.nvHeld = true ∨ (s.nvRoom Region.key (d.operand 0 2 / 128) 1 ∧ run = ⟨0, false, some ⟨false, mapped⟩⟩)) :
    ∃ u : State, s.keyRetire d destroy run = u.complete d St.pfail ∧ (∀ j, u.keyRec j = s.keyRec j) ∧ u.key.cache = s.key.cache ∧
      u.hst = s.hst ∧ u.direct = s.direct ∧ u.clk = s.clk ∧ u.pwr = s.pwr := by
  have he := State.keyRetire_of_free hstop hi hk hf destroy run
  cases hn : s.nvHeld with
  | true => exact ⟨s, he.trans (State.keyWrite_held hn ..), fun _ => rfl, rfl, rfl, rfl, rfl, rfl⟩
  | false =>
    obtain ⟨hr, rfl⟩ := h.resolve_left (by simp [hn])
    refine ⟨_, he.trans (State.keyWrite_cut hn hr ..), fun j => ?_, ?_⟩
    · unfold State.keyRec
      rw [State.raise_key]
      exact State.keyRec_tearSlot ..
    · simp only [State.raise_key, State.raise_hst, State.raise_direct, State.raise_clk, State.raise_pwr]
      exact ⟨rfl, rfl, rfl, rfl, rfl⟩

end

section
variable {s : State} {i : Nat} {k : KeyCopy} (hk : s.validRec i = some k) (destroy : Bool)
include hk

/-- No descendant of a retired record stays cached (R468). -/
theorem State.withoutRetired_cache : ∀ e ∈ (s.withoutRetired i destroy).key.cache, s.descends e.1 i = false := by
  intro e he
  rw [State.withoutRetired_eq] at he
  have := (List.mem_filter.1 he).2
  rw [State.withRetired_descends hk] at this
  simpa using this

theorem State.withoutRetired_link (h1 : s.unitOn U.hop = true) (h2 : s.descends (s.act F.HOP_KEYS_JOIN_ROOT) i = true) :
    (s.withoutRetired i destroy).key.link = [] := by
  refine State.dropLink_link h1 ?_
  refine Eq.trans ?_ ((State.withRetired_descends hk destroy ..).trans h2)
  exact State.descends_congr (fun _ => rfl) ..

theorem State.withoutRetired_held (h1 : s.pinned.contains (s.act F.STP_KEYS_FAB_TX) = true)
    (h2 : s.descends (s.act F.STP_KEYS_FAB_TX) i = true) : (s.withoutRetired i destroy).fab.held = [] := by
  rw [State.withoutRetired_eq]
  exact if_pos (Bool.and_eq_true_iff.2 ⟨h1, (State.withRetired_descends hk destroy ..).trans h2⟩)
end

/-- A pinned record that is retired serves no frame until a commit names it again (log entry 84). -/
theorem State.withoutRetired_retired {s : State} {i : Nat} (destroy : Bool) (h : s.pinned.contains i = true) :
    (s.withoutRetired i destroy).key.retired.contains i = true := by
  rw [State.withoutRetired_eq]
  change (if (s.withRetired i destroy).pinned.contains i then _ else _ : List Nat).contains i = true
  rw [if_pos (show (s.withRetired i destroy).pinned.contains i = true from h)]
  simp

/-- The records after one is retired. -/
theorem State.withoutRetired_keyRec (s : State) (i : Nat) (destroy : Bool) (j : Nat) :
    (s.withoutRetired i destroy).keyRec j = (s.withRetired i destroy).keyRec j := by
  rw [State.withoutRetired_eq]
  rfl

theorem State.withoutRetired_leaves (s : State) (i : Nat) (destroy : Bool) :
    (s.withoutRetired i destroy).hst = s.hst ∧ (s.withoutRetired i destroy).direct = s.direct ∧
      (s.withoutRetired i destroy).clk = s.clk ∧ (s.withoutRetired i destroy).pwr = s.pwr := by
  rw [State.withoutRetired_eq]
  exact ⟨rfl, rfl, rfl, rfl⟩

/-- Both commands retire the record of their descriptor. -/
theorem reaches_retire {s : State} {dt ring index : Nat} {d : Desc} {c : Instr} {destroy : Bool} {run : NvRun}
    (h : (c = .keyDestroy dt ring index run ∧ destroy = true ∧ s.offers ring index opKeyDestroy d) ∨
      (c = .keyInvalidate dt ring index run ∧ destroy = false ∧ s.offers ring index opKeyInvalidate d)) :
    (∃ op, s.offers ring index op d) ∧
      ∀ P : State → Prop, P ((s.elapse dt).keyRetire d destroy run) → reaches (exec c s) P := by
  rcases h with ⟨rfl, rfl, ho⟩ | ⟨rfl, rfl, ho⟩
  · exact ⟨⟨_, ho⟩, fun P hP => reaches_of_offers ho rfl hP⟩
  · exact ⟨⟨_, ho⟩, fun P hP => reaches_of_offers ho rfl hP⟩

end Sys2Proof.Machine

namespace Sys2Proof.Machine

/-! ### KEY_INFO, KEY_WRAP_OUT, KEY_ATTEST (R472, R478) -/

/-- A payload is written, and the descriptor completes. -/
theorem State.offers_delivered {s u : State} {ring index op : Nat} {d : Desc} (h : s.offers ring index op d) (hh : u.hst = s.hst)
    (hp : u.pwr = s.pwr) (o : Nat) {b : List Byte} (hb : b ≠ []) (status : Nat) :
    u.answered ((u.writePayload d o b).complete d status) [.hostWrite (d.addr + o) b] d status [] ∧
      u.answerOnly ((u.writePayload d o b).complete d status) := by
  rw [State.writePayload_of_ne u o hb h.2.2]
  obtain ⟨⟨rest, ho⟩, hd⟩ : (u.emit (.hostWrite (d.addr + o) b)).answered _ [] d status [] := by
    simpa using State.offers_answered_from (u := u.emit (.hostWrite (d.addr + o) b)) h hh hp false status []
  refine ⟨⟨⟨rest, ?_⟩, hd⟩, ?_⟩
  · rw [ho, List.append_nil]
    rfl
  · exact (State.hostQuiet_trans (State.emit_hostQuiet ..) (State.complete_hostQuiet ..)).1

/-- KEY_INFO's result on a Key Store without a fault. -/
theorem State.keyInfo_eq {s : State} (h : s.key.fault = false) (d : Desc) :
    let k := (s.keyRec (d.operand 0 2)).getD (KeyCopy.blank (d.operand 0 2))
    s.keyInfo d = s.complete d St.ok (if k.valid then
      leBytes 1 (if s.orphan (d.operand 0 2) then 2 else 1) ++ leBytes 1 k.type ++ leBytes 1 k.usage ++ leBytes 1 k.flags ++
        leBytes 1 k.depth ++ [0] ++ leBytes 2 k.parent ++ leBytes 4 k.gen.toNat ++ k.kcv.take 4
      else leBytes 8 0 ++ leBytes 4 k.gen.toNat) := by
  unfold State.keyInfo
  rw [if_neg (by simp [h])]
  dsimp only
  generalize (s.keyRec (d.operand 0 2)).getD (KeyCopy.blank (d.operand 0 2)) = k
  cases hv : k.valid <;> simp

theorem kwWrap_ne_nil (key mat : List Byte) : kwWrap key mat ≠ [] := by simp [kwWrap]

/-- KEY_WRAP_OUT of a record that may be exported, into room for its wrapping. -/
theorem State.keyWrapOut_of_serves {s : State} {d : Desc} {k : KeyCopy} {m tk : List Byte} (hstop : s.keyStop = none)
    (hs : s.serves (d.operand 0 2) k) (he : k.exportable = true) (hm : s.material (d.operand 0 2) = some m)
    (hw : d.operand 2 2 ≠ provisionName) (ht : s.transportKey (d.operand 2 2) = .inl tk) (hl : m.length + 8 ≤ d.len) :
    s.keyWrapOut d =
      (((s.cachePut (d.operand 0 2) m).cacheUse (d.operand 2 2)).writePayload d 0 (kwWrap tk m)).complete d St.ok := by
  obtain ⟨hi, hv, ho⟩ := hs
  unfold State.keyWrapOut
  simp only [hstop, isRecordName_of_lt hi, hv, ho, he, ht, hm, Bool.false_eq_true, if_false, Bool.not_true, hw]
  rw [if_neg (by omega), if_neg (by omega)]

/-- The state with the attestation counter one higher, in its block of NV. -/
def State.attested (s : State) : State :=
  { s.keyCounted 8 with key := { s.key with attests := s.key.attests.write (s.key.attest + 1) } }

theorem State.attested_attest (s : State) : s.attested.key.attest = s.key.attest + 1 := AB.value_write ..

/-- KEY_ATTEST of a record that may attest. -/
theorem State.keyAttest_of_serves {s : State} {d : Desc} {k : KeyCopy} {m : List Byte} (hstop : s.updateStop = none)
    (hs : s.serves (d.operand 0 2) k) (hu : k.usage = Usage.deriveOnly) (ha : k.attest = true) (hl : d.len = 136)
    (hm : s.material (d.operand 0 2) = some m) (hn : s.nvHeld = false) (hr : s.nvRoom Region.key 8 1) (payload : List Byte) :
    let ctr := beBytes 4 (s.key.attest + 1).toNat
    let dev := leBytes 16 s.id.deviceId.toNat
    s.keyAttest d payload .plain = ((s.attested.cachePut (d.operand 0 2) m).writePayload d 32 (s.key.md ++ dev ++ ctr ++
      kdf m (k.type = 3) Label.mgAttest ((padTo 136 payload).take 32 ++ s.key.md ++ dev ++ ctr) 32 ++ leBytes 4 0)).complete d St.ok := by
  obtain ⟨hi, hv, ho⟩ := hs
  dsimp only
  rw [← State.attested_attest]
  unfold State.keyAttest
  simp only [hstop, isRecordName_of_lt hi, hv, ho, hm, Bool.false_eq_true, if_false, hu, ha, hl, ne_eq, not_true_eq_false,
    decide_false, Bool.not_true, Bool.or_false, State.keyWrite_plain hn hr]
  rw [if_neg (by decide)]
  rfl

/-- The count of an attestation does not matter to the use of its record. -/
theorem State.attested_cachePut (s : State) (i : Nat) (m : List Byte) :
    (s.attested.cachePut i m).key.cache = (s.cachePut i m).key.cache := by
  unfold State.cachePut
  rw [show s.attested.key.cache = s.key.cache from rfl]
  cases tfind s.key.cache i <;> rfl

/-- Settles O50. KEY_CREATE reaches the store of its record once the checks of R477 pass (`keyCreate_of_passes`), and an update of a slot
changes that slot alone (`storeRecord_storedAs`); a retired record keeps its PARENT, so that what descends from it is the same before and
after (`withRetired_descends`), and a copy that is cut off fails its CRC (`keyRec_tearSlot`). -/
theorem recordsAreMadeRetiredAndShown : Obligations.RecordsAreMadeRetiredAndShown := by
  unfold Obligations.RecordsAreMadeRetiredAndShown
  refine ⟨?_, ?_, ?_, ?_, ?_⟩
  · rintro s dt ring index payload d c method i pdepth pm p384 gen tk ho hcm hm hstop hn rfl hi htype husage hfits hunused hparent
      hdepth hr
    have hpasses (hl : d.createFits method) : s.createPasses d method pdepth pm p384 gen :=
      ⟨hm, hstop, hi, htype, husage, hfits, hunused, hparent, hdepth, hl⟩
    have hhead (hp : d.operand 2 2 < 1024) := State.cacheUse_head (s := s.elapse dt) hp
      ((State.elapse_material ..).trans (State.material_of_parentOf hparent hp))
    refine ⟨?_, ?_, ?_⟩
    · rintro ⟨rfl, rfl, h1, h2, h3, hl⟩
      obtain ⟨t, ht, u, hu⟩ := reaches_keyCreateDerive (dt := dt) ho hn hr hcm (hpasses hl) ⟨h1, h2, h3⟩
      exact ⟨t, ht, u, hu.rec_eq, hu.others, fun _ hp => hu.cache_eq ▸ hhead hp, hu.frame, hu.answer, hu.only⟩
    · rintro ⟨rfl, rfl, hl⟩
      obtain ⟨t, ht, u, hu⟩ := reaches_keyCreateGenerate (dt := dt) ho hn hr hcm (hpasses hl)
      exact ⟨t, ht, _, u, hu.rec_eq, hu.others, fun _ hp => hu.cache_eq ▸ hhead hp, hu.frame, hu.answer, hu.only⟩
    · rintro ⟨rfl, rfl, hl, htk⟩
      cases hmat : (Config.kwUnwrap tk (padTo d.len payload)).filter fun m => m.length = typeSize (d.operand 5 1) with
      | some mat =>
        obtain ⟨t, ht, v, u, hu⟩ := reaches_keyCreateImport_opened (dt := dt) ho hn hr hcm (hpasses hl) htk hmat
        exact ⟨t, ht, u, hu.rec_eq, hu.others, fun h => absurd rfl h, hu.frame, hu.answer, hu.only⟩
      | none => exact reaches_keyCreateImport_unopened ho hcm (hpasses hl) htk hmat
  · rintro s dt ring index i d k c destroy mapped run hc rfl hi hstop hk
    obtain ⟨⟨op, ho⟩, hreach⟩ := reaches_retire hc
    have ho' := State.offers_elapse dt ho
    have hserve : ∀ {p : Prop}, s.inService (d.operand 0 2) = false ∨ p → (s.elapse dt).inService (d.operand 0 2) = false ∨ p :=
      fun h => (State.elapse_inService s dt _).symm ▸ h
    refine ⟨fun hf hroom hheld hrun => hreach _ ?_, fun hf hp => hreach _ ?_, fun h1 h2 => hreach _ ?_⟩
    · subst hrun
      rw [State.keyRetire_plain (s := s.elapse dt) hstop hi hk (hserve hf) destroy hheld hroom]
      refine ⟨?_, fun h1 h2 => ?_, ?_, fun h => ?_, fun h1 h2 => ?_, fun j hj => ?_, ?_⟩
      · rw [State.complete_keyRec, State.withoutRetired_keyRec]
        exact State.withRetired_self (s := s.elapse dt) hk destroy
      · rw [State.complete_link]
        exact State.withoutRetired_link (s := s.elapse dt) hk destroy h1 ((State.elapse_descends ..).trans h2)
      · rw [State.complete_cache]
        simpa using State.withoutRetired_cache (s := s.elapse dt) hk destroy
      · unfold State.unusable
        rw [State.complete_retired, State.withoutRetired_retired (s := s.elapse dt) destroy h, Bool.or_true]
      · rw [State.complete_fab]
        exact State.withoutRetired_held (s := s.elapse dt) hk destroy h1 ((State.elapse_descends ..).trans h2)
      · rw [State.complete_keyRec, State.withoutRetired_keyRec]
        exact State.keyRec_updateSlot_ne _ _ hj
      · exact State.offers_replies_plain ho' (State.withoutRetired_leaves ..)
    · obtain ⟨u, he, hrec, hcache, hu⟩ := State.keyRetire_pfail (s := s.elapse dt) hstop hi hk (hserve hf) destroy hp
      rw [he]
      exact ⟨fun j => (State.complete_keyRec ..).trans (hrec j), (State.complete_cache ..).trans hcache,
        State.offers_replies_plain ho' hu⟩
    · rw [State.keyRetire_of_inService (s := s.elapse dt) hstop hi hk ((State.elapse_inService ..).trans h1) h2]
      exact ⟨State.complete_key .., State.offers_answered ho' .., State.complete_answerOnly ..⟩
  · rintro s dt ring index i d ho hf rfl
    refine reaches_of_offers ho rfl ?_
    rw [State.keyInfo_eq (s := s.elapse dt) hf, State.elapse_orphan]
    exact ⟨State.offers_answered (State.offers_elapse dt ho) .., State.complete_answerOnly ..⟩
  · rintro s dt ring index i w d k m tk ho hstop rfl hs he hm rfl hw ht hl
    refine reaches_of_offers ho rfl ?_
    obtain ⟨hi, hv, horphan⟩ := hs
    rw [State.keyWrapOut_of_serves (s := s.elapse dt) hstop ⟨hi, hv, (State.elapse_orphan ..).trans horphan⟩ he
      ((State.elapse_material ..).trans hm) hw ((State.elapse_transportKey ..).trans ht) hl,
      State.elapse_cachePut, State.elapse_cacheUse]
    have hu := (State.cachePut_recached s (d.operand 0 2) m).trans (State.cacheUse_recached _ (d.operand 2 2))
    dsimp only
    generalize (s.cachePut (d.operand 0 2) m).cacheUse (d.operand 2 2) = v at hu ⊢
    obtain ⟨hans, hq⟩ := State.offers_delivered (u := v.elapse dt) ho (by rw [hu]; rfl) (by rw [hu]; rfl) 0 (kwWrap_ne_nil tk m) St.ok
    rw [Nat.add_zero] at hans
    exact ⟨v.elapse dt, congrArg (State.elapse · dt) hu, hans, hq⟩
  · rintro s dt ring index i payload d k m ho hstop hn rfl hs hu ha hl hm hr
    refine reaches_of_offers ho rfl ?_
    obtain ⟨hi, hv, horphan⟩ := hs
    rw [State.keyAttest_of_serves (s := s.elapse dt) hstop ⟨hi, hv, (State.elapse_orphan ..).trans horphan⟩ hu ha hl
      ((State.elapse_material ..).trans hm) hn hr]
    have hu := State.cachePut_recached (s.elapse dt).attested (d.operand 0 2) m
    refine ⟨_, ?_, ?_, ?_, State.offers_delivered (u := (s.elapse dt).attested.cachePut (d.operand 0 2) m) ho (by rw [hu]; rfl)
      (by rw [hu]; rfl) 32 (List.append_ne_nil_of_right_ne_nil _ (by simp [leBytes])) St.ok⟩
    · rw [hu]
      exact State.attested_attest (s.elapse dt)
    · rw [State.attested_cachePut]
      exact State.cachePut_head ((State.elapse_material ..).trans hm)
    · rw [hu]
      rfl

end Sys2Proof.Machine

namespace Sys2Proof.Machine

/-! ## The Timebase (R67 to R105)

What the Timebase's operations leave of the other units: each changes the Timebase and the rate, and raises events. -/

/-- Only the Timebase, the rate and what events change differ between `s` and `t`. -/
def State.timebaseOnly (s t : State) : Prop :=
  State.eventsOnly { s with tb := t.tb, clk := { s.clk with rate := t.clk.rate } } t

theorem State.timebaseOnly_refl (s : State) : s.timebaseOnly s := State.eventsOnly_refl s

theorem State.timebaseOnly_trans {a b c : State} (h : a.timebaseOnly b) (k : b.timebaseOnly c) : a.timebaseOnly c := by
  obtain ⟨h1, h2⟩ := h
  obtain ⟨k1, k2⟩ := k
  have hcfg : b.cfg = a.cfg := by rw [h1]
  refine ⟨by rw [k1, h1], fun h0 => ?_⟩
  obtain ⟨p1, l1⟩ := h2 h0
  obtain ⟨p2, l2⟩ := k2 (by rw [State.act, hcfg]; exact h0)
  exact ⟨by rw [p2, p1], l2.trans l1⟩

/-- Another Timebase and another rate. -/
theorem State.timebaseOnly_with (s : State) (tb : Tb) (rate : Word) :
    s.timebaseOnly { s with tb := tb, clk := { s.clk with rate := rate } } := State.eventsOnly_refl _

theorem State.timebaseOnly_tb (s : State) (tb : Tb) : s.timebaseOnly { s with tb := tb } := s.timebaseOnly_with tb s.clk.rate

theorem State.timebaseOnly_of_events {s t : State} (h : State.eventsOnly s t) : s.timebaseOnly t := by
  have ht : t.tb = s.tb := by rw [h.1]
  have hr : t.clk = s.clk := by rw [h.1]
  unfold State.timebaseOnly
  rwa [ht, hr]

theorem State.raise_timebaseOnly (s : State) (e : Ev) (i : Nat) (a : List Byte) : s.timebaseOnly (s.raise e i a) :=
  State.timebaseOnly_of_events (State.raise_eventsOnly s e i a)

theorem State.timebaseOnly_ite {c : Prop} {_ : Decidable c} {s t u : State} (h : s.timebaseOnly t) (k : s.timebaseOnly u) :
    s.timebaseOnly (if c then t else u) := by
  split
  · exact h
  · exact k

/-- Neither does the counter. -/
theorem State.timebaseOnly.counter {s t : State} (h : s.timebaseOnly t) : t.clk.counter = s.clk.counter := by
  rw [h.1]

theorem State.timebaseOnly.cfg {s t : State} (h : s.timebaseOnly t) : t.cfg = s.cfg := by rw [h.1]

theorem State.timebaseOnly.direct {s t : State} (h : s.timebaseOnly t) : t.direct = s.direct := by rw [h.1]

theorem State.timebaseOnly.id {s t : State} (h : s.timebaseOnly t) : t.id = s.id := by rw [h.1]

end Sys2Proof.Machine

namespace Sys2Proof.Machine

/-! ### Sources, stamps and the servo (R69 to R96) -/

/-- The sources' histories, the stamps and what the PTP engine holds are those of before. -/
@[reducible, simp] def State.sameRecords (s t : State) : Prop :=
  t.tb.srcs = s.tb.srcs ∧ t.tb.stamps = s.tb.stamps ∧ t.tb.ptp = s.tb.ptp ∧ t.tb.slavePort = s.tb.slavePort

theorem State.sameRecords.trans {s t u : State} (h : s.sameRecords t) (k : t.sameRecords u) : s.sameRecords u := by
  simp_all

theorem State.sameRecords_ite {c : Prop} {_ : Decidable c} {s t u : State} (h : s.sameRecords t) (k : s.sameRecords u) :
    s.sameRecords (if c then t else u) := by
  split
  · exact h
  · exact k

theorem State.timebaseOnly.setSrc {r s : State} (h : r.timebaseOnly s) (i : Nat) (v : SrcState) : r.timebaseOnly (s.setSrc i v) :=
  State.timebaseOnly_trans h (State.timebaseOnly_tb s _)

/-- A stamp joins the queue while it has room (R96). -/
theorem State.pushStamp_stamps {s : State} (h : s.tb.stamps.length < 64) (source id t16 : Nat) :
    (s.pushStamp source id t16).tb = { s.tb with stamps := s.tb.stamps ++ [⟨source, id % 65536, t16⟩] } := by
  unfold State.pushStamp
  rw [if_pos h]
  dsimp only
  split
  · simp
  · rfl

theorem State.pushStamp_eventsOnly (s : State) (source id t16 : Nat) :
    State.eventsOnly { s with tb := (s.pushStamp source id t16).tb } (s.pushStamp source id t16) := by
  unfold State.pushStamp
  split
  · dsimp only
    split
    · simpa using State.raise_eventsOnly _ _ _ _
    · exact State.eventsOnly_refl _
  · simpa using State.raise_eventsOnly _ _ _ _

theorem State.pushStamp_timebaseOnly (s : State) (source id t16 : Nat) : s.timebaseOnly (s.pushStamp source id t16) :=
  State.timebaseOnly_trans (State.timebaseOnly_tb s _) (State.timebaseOnly_of_events (State.pushStamp_eventsOnly ..))

theorem State.setQuality_timebaseOnly (s : State) (q : Quality) : s.timebaseOnly (s.setQuality q) := by
  unfold State.setQuality
  refine State.timebaseOnly_ite (State.timebaseOnly_refl s) ?_
  cases q <;> exact State.timebaseOnly_trans (State.timebaseOnly_tb s _) (State.raise_timebaseOnly ..)

/-- A change of quality changes the quality, and the run of samples towards LOCKED on entry to RELOCKING. -/
theorem State.setQuality_tb (s : State) (q : Quality) : (s.setQuality q).tb =
    { s.tb with quality := q, lockRun := if q = .relocking ∧ s.tb.quality ≠ q then 0 else s.tb.lockRun } := by
  unfold State.setQuality
  split
  · next h => simp [← h]
  · next h => cases q <;> simp_all

theorem State.setQuality_clk (s : State) (q : Quality) : (s.setQuality q).clk = s.clk := by
  unfold State.setQuality
  split
  · rfl
  · cases q <;> simp

theorem State.enterHoldover_timebaseOnly (s : State) : s.timebaseOnly s.enterHoldover :=
  State.timebaseOnly_trans (State.timebaseOnly_with s _ _) (State.setQuality_timebaseOnly ..)

theorem State.enterHoldover_tb (s : State) : s.enterHoldover.tb =
    { s.tb with quality := .holdover, err0 := s.tb.errEst, holdAt := s.clk.counter } := by
  simp [State.enterHoldover, State.setQuality_tb]

theorem State.enterHoldover_rate (s : State) : s.enterHoldover.clk.rate = rateWord s.tb.freq := by
  simp [State.enterHoldover, State.setQuality_clk]

/-- What TB_STATUS.SOURCE shows of the highest-ranked source that is enabled and qualified (R69). -/
def State.topSource (s : State) : Nat := (s.bestSource.map (· + 1)).getD 0

theorem State.topSource_of_none {s : State} (h : s.bestSource = none) : s.topSource = 0 := by simp [State.topSource, h]

/-- The top source is of the active configuration, the part and the histories. -/
theorem State.topSource_congr {s t : State} (hc : t.cfg = s.cfg) (hi : t.id = s.id) (hs : t.tb.srcs = s.tb.srcs) :
    t.topSource = s.topSource := by
  simp only [State.topSource, State.bestSource, State.srcEnabled, State.unitOn, State.act, State.src, hc, hi, hs]

/-- Another source is selected, before the quality follows. -/
def State.selectTop (s : State) : State :=
  ({ s with tb := { s.tb with source := s.topSource, fresh := true } }).raise Ev.tbSourceChange 0 []

theorem State.selectTop_tb (s : State) : s.selectTop.tb = { s.tb with source := s.topSource, fresh := true } := State.raise_tb ..

theorem State.selectTop_timebaseOnly (s : State) : s.timebaseOnly s.selectTop :=
  State.timebaseOnly_trans (State.timebaseOnly_tb s _) (State.raise_timebaseOnly ..)

/-- The quality follows a change of source: holdover without one, and RELOCKING from FREE or holdover (R71, R79, R80). -/
theorem State.reselect_eq (s : State) : s.reselect =
    if s.topSource = s.tb.source then s
    else if s.topSource = 0 then
      (if s.tb.quality = .locked ∨ s.tb.quality = .relocking then s.selectTop.enterHoldover else s.selectTop)
    else if s.tb.quality = .free ∨ s.tb.quality = .holdover then s.selectTop.setQuality .relocking else s.selectTop := by
  unfold State.reselect State.selectTop State.topSource
  cases s.bestSource <;> simp

theorem State.reselect_timebaseOnly (s : State) : s.timebaseOnly s.reselect := by
  have hs := s.selectTop_timebaseOnly
  rw [State.reselect_eq]
  exact State.timebaseOnly_ite (State.timebaseOnly_refl s) (State.timebaseOnly_ite
    (State.timebaseOnly_ite (State.timebaseOnly_trans hs (State.enterHoldover_timebaseOnly _)) hs)
    (State.timebaseOnly_ite (State.timebaseOnly_trans hs (State.setQuality_timebaseOnly ..)) hs))

/-- The parts of the Timebase that a selection leaves, and the source that it shows. -/
theorem State.reselect_tb (s : State) : s.reselect.tb = { s.tb with
    source := s.topSource, fresh := s.reselect.tb.fresh, quality := s.reselect.tb.quality, lockRun := s.reselect.tb.lockRun
    err0 := s.reselect.tb.err0, holdAt := s.reselect.tb.holdAt } := by
  rw [State.reselect_eq]
  split
  · next h => rw [h]
  · repeat' split
    all_goals simp [State.enterHoldover_tb, State.setQuality_tb, State.selectTop_tb]

theorem State.reselect_sameRecords (s : State) : s.sameRecords s.reselect := by
  rw [State.sameRecords, State.reselect_tb]
  exact ⟨rfl, rfl, rfl, rfl⟩

/-- TB_STATUS.SOURCE shows the highest-ranked source that is enabled and qualified (R69). -/
theorem State.reselect_source (s : State) : s.reselect.tb.source = s.reselect.topSource := by
  have h := s.reselect_timebaseOnly
  rw [State.topSource_congr h.cfg h.id s.reselect_sameRecords.1, State.reselect_tb]

/-- With no source left, a locked or relocking clock is in holdover at the servo's frequency (R80). -/
theorem State.reselect_holdover {s : State} (hs : s.tb.source ≠ 0) (hb : s.topSource = 0)
    (hq : s.tb.quality = .locked ∨ s.tb.quality = .relocking) :
    s.reselect.tb.quality = .holdover ∧ s.reselect.clk.rate = rateWord s.tb.freq := by
  rw [State.reselect_eq, if_neg (by rw [hb]; exact hs.symm), if_pos hb, if_pos hq, State.enterHoldover_tb, State.enterHoldover_rate,
    State.selectTop_tb]
  exact ⟨rfl, rfl⟩

theorem State.loseSource_timebaseOnly (s : State) (i : Nat) : s.timebaseOnly (s.loseSource i) :=
  State.timebaseOnly_trans (State.timebaseOnly_tb s _) (State.reselect_timebaseOnly _)

end Sys2Proof.Machine

namespace Sys2Proof.Machine

/-- Only the Timebase and the rate differ, and what events change, and in the Timebase neither histories nor stamps nor PTP. -/
def State.servoOnly (s t : State) : Prop := s.timebaseOnly t ∧ s.sameRecords t

theorem State.servoOnly.trans {r s t : State} (h : r.servoOnly s) (k : s.servoOnly t) : r.servoOnly t :=
  ⟨State.timebaseOnly_trans h.1 k.1, h.2.trans k.2⟩

theorem State.servoOnly.ite {c : Prop} {_ : Decidable c} {s t u : State} (h : s.servoOnly t) (k : s.servoOnly u) :
    s.servoOnly (if c then t else u) := by
  split
  · exact h
  · exact k

theorem State.servoOnly_with (s : State) {tb : Tb} (rate : Word) (h : tb.srcs = s.tb.srcs) (h' : tb.stamps = s.tb.stamps)
    (hp : tb.ptp = s.tb.ptp) (hl : tb.slavePort = s.tb.slavePort) :
    s.servoOnly { s with tb := tb, clk := { s.clk with rate := rate } } :=
  ⟨s.timebaseOnly_with tb rate, h, h', hp, hl⟩

theorem State.servoOnly_refl (s : State) : s.servoOnly s := s.servoOnly_with (tb := s.tb) s.clk.rate rfl rfl rfl rfl

theorem State.servoOnly.setQuality {r s : State} (h : r.servoOnly s) (q : Quality) : r.servoOnly (s.setQuality q) := by
  refine h.trans ⟨s.setQuality_timebaseOnly q, ?_⟩
  rw [State.sameRecords, State.setQuality_tb]
  exact ⟨rfl, rfl, rfl, rfl⟩

theorem State.servoOnly.decideStep {r s : State} (h : r.servoOnly s) (e : Int) (unc : Nat) : r.servoOnly (s.decideStep e unc) :=
  h.trans (s.servoOnly_with s.clk.rate rfl rfl rfl rfl)

theorem State.servoOnly.servo {r s : State} (h : r.servoOnly s) (e : Int) (dt : Rat) : r.servoOnly (s.servo e dt) := by
  unfold State.servo
  exact h.ite ((h.trans (s.servoOnly_with (tb := s.tb) _ rfl rfl rfl rfl)).ite (h.trans (s.servoOnly_with _ rfl rfl rfl rfl)))

theorem State.servoOnly.setQualityIf {r s : State} {c : Prop} {_ : Decidable c} {q : Quality} (h : r.servoOnly s) :
    r.servoOnly (if c then s.setQuality q else s) := (h.setQuality q).ite h

/-- A sample of the selected source reaches the servo, a step and the quality. -/
theorem State.useSample_servoOnly (s : State) (e : Int) (unc : Nat) : s.servoOnly (s.useSample e unc) := by
  have taken := s.servoOnly_with (tb := { s.tb with
    offset := satOffset e, errOff := satOffset e, fresh := false, lastSample := some s.clk.counter
    lockRun := if e.natAbs ≤ s.reg F.TB_THRESH_LOCK_THRESH then min 8 (s.tb.lockRun + 1) else 0 }) s.clk.rate rfl rfl rfl rfl
  unfold State.useSample
  refine State.servoOnly.setQualityIf (.ite ?_ (.ite (.decideStep ?_ ..) (.servo ?_ ..)))
  all_goals exact taken.setQualityIf

theorem State.sample_timebaseOnly (s : State) (i : Nat) (e : Int) (unc : Nat) : s.timebaseOnly (s.sample i e unc) := by
  unfold State.sample
  exact State.timebaseOnly_ite (State.timebaseOnly_trans (State.timebaseOnly_tb s _) (State.useSample_servoOnly ..).1)
    (State.timebaseOnly_tb s _)

theorem State.sample_eq (s : State) (i : Nat) (e : Int) (unc : Nat) :
    s.sample i e unc = if s.tb.source = i + 1 then (s.setSrc i { s.src i with
      lastAt := some s.clk.counter, since := some ((s.src i).since.getD s.clk.counter), unc := unc }).useSample e unc
    else s.setSrc i { s.src i with
      lastAt := some s.clk.counter, since := some ((s.src i).since.getD s.clk.counter), unc := unc } := rfl

theorem State.src_setSrc_of_ne (s : State) (i : Nat) {v : SrcState} (h : v ≠ SrcState.reset) : (s.setSrc i v).src i = v :=
  tget_tset_self_of_ne _ h i

/-- A sample's source shows it, and it leaves the stamps. -/
theorem State.sample_src (s : State) (i : Nat) (e : Int) (unc : Nat) :
    (s.sample i e unc).src i = { s.src i with
      lastAt := some s.clk.counter, since := some ((s.src i).since.getD s.clk.counter), unc := unc } ∧
    (s.sample i e unc).tb.stamps = s.tb.stamps := by
  rw [State.sample_eq]
  have hs (v : SrcState) (h : v.lastAt = some s.clk.counter) : (s.setSrc i v).src i = v :=
    s.src_setSrc_of_ne i fun hv => by simp [hv, SrcState.reset] at h
  split
  · obtain ⟨hsrc, hst, -, -⟩ := ((s.setSrc i { s.src i with
      lastAt := some s.clk.counter, since := some ((s.src i).since.getD s.clk.counter), unc := unc }).useSample_servoOnly e unc).2
    refine ⟨?_, hst⟩
    rw [State.src, hsrc]
    exact hs _ rfl
  · exact ⟨hs _ rfl, rfl⟩

/-! ### Immediate registers -/

/-- A register whose one field fills its word reads back what was written. -/
theorem State.reg_setReg_word {s : State} (hd : tsorted s.direct) {f : Sel} (hl : f.lo = 0) (hw : f.width = 32) (i : Nat) (v : Word) :
    (s.setReg f i v.toNat).reg f i = v.toNat := by
  have hv := v.isLt
  simp only [State.reg, State.setReg, tget_tset_self hd, hl, hw, putBits, bits]
  have hx := (tget s.direct (BitVec.ofNat 32 f.reset) (f.base + f.stride * i)).isLt
  simp only [BitVec.toNat_ofNat, pow_zero, Nat.div_one, Nat.mod_eq_of_lt hx, Nat.mod_eq_of_lt hv, mul_one, Nat.sub_self, Nat.zero_add]

theorem State.reg_setReg_ne (s : State) {f g : Sel} {i j : Nat} (v : Nat) (h : g.base + g.stride * j ≠ f.base + f.stride * i) :
    (s.setReg f i v).reg g j = s.reg g j := by
  simp only [State.reg, State.setReg]
  unfold tget
  rw [tfind_tset_ne _ _ _ h]

theorem State.reg_congr {s t : State} (h : t.direct = s.direct) (f : Sel) (i : Nat) : t.reg f i = s.reg f i := by
  rw [State.reg, State.reg, h]

/-- A frame from a state whose registers were written names them anew. -/
theorem State.timebaseOnly.withDirect {s t : State} {d : Tbl Word} (h : State.timebaseOnly { s with direct := d } t) :
    State.eventsOnly { s with tb := t.tb, direct := t.direct, clk := { s.clk with rate := t.clk.rate } } t := by
  rw [h.direct]
  exact h

theorem execTbHostTime_samples {s : State} (dt : Nat) (v : Word) (ht : tsorted s.direct) (hw : s.writable = true) :
    reaches (execTbHostTime dt v s) fun t =>
      (t.src 3).lastAt = some (s.clk.counter + dt) ∧ (t.src 3).unc = s.reg F.TB_HOST_UNC_UNC * 1000 ∧
      t.reg F.TB_HOST_TIME_HI_TIME = v.toNat ∧
      (∀ k, k ≠ F.TB_HOST_TIME_HI_TIME.base → tfind t.direct k = tfind s.direct k) ∧
      State.eventsOnly { s.elapse dt with
        tb := t.tb, direct := t.direct, clk := { (s.elapse dt).clk with rate := t.clk.rate } } t := by
  refine reaches_of_not_guard (by simp [show (s.elapse dt).writable = true from hw]) ?_
  dsimp only
  have hf := ((s.elapse dt).setReg F.TB_HOST_TIME_HI_TIME 0 v.toNat).sample_timebaseOnly 3
  have hsrc := fun e unc => (((s.elapse dt).setReg F.TB_HOST_TIME_HI_TIME 0 v.toNat).sample_src 3 e unc).1
  refine ⟨by rw [hsrc]; rfl, ?_, ?_, fun k hk => ?_, (hf _ _).withDirect⟩
  · rw [hsrc]
    exact congrArg (· * 1000) ((s.elapse dt).reg_setReg_ne _ (by decide))
  · rw [State.reg_congr (hf _ _).direct]
    exact State.reg_setReg_word ht rfl rfl 0 v
  · rw [(hf _ _).direct]
    exact tfind_tset_ne _ _ _ hk

theorem execPpsInEdge_samples {s : State} (dt phase : Nat) {falling : Bool} (hc : s.clockRuns = true)
    (hl : s.tb.stamps.length < 64) (he : falling = true ↔ s.reg F.TB_PPS_IN_EDGE = 1) :
    reaches (execPpsInEdge dt ⟨phase, falling⟩ s) fun t =>
      (t.src 2).lastAt = some (s.clk.counter + dt) ∧ (t.src 2).unc = s.reg F.TB_PPS_IN_UNC ∧
      (∃ id, t.tb.stamps = s.tb.stamps ++ [⟨0x31, id, (s.elapse dt).stamp16 phase⟩]) ∧
      State.eventsOnly { s.elapse dt with tb := t.tb, clk := { (s.elapse dt).clk with rate := t.clk.rate } } t := by
  have hc' : (s.elapse dt).clockRuns = true := hc
  have he' : falling = true ↔ (s.elapse dt).reg F.TB_PPS_IN_EDGE = 1 := he
  refine reaches_of_not_guard (by simp [hc', he']) ?_
  have hl' : (s.elapse dt).tb.stamps.length < 64 := hl
  dsimp only
  generalize (roundRat _ % 65536).toNat = n
  have hp := (s.elapse dt).pushStamp_timebaseOnly 0x31 n ((s.elapse dt).stamp16 phase)
  have hsrc := ((s.elapse dt).pushStamp 0x31 n ((s.elapse dt).stamp16 phase)).sample_src 2
  refine ⟨?_, ?_, ⟨n % 65536, ?_⟩, State.timebaseOnly_trans hp (State.sample_timebaseOnly ..)⟩
  · rw [(hsrc _ _).1, hp.counter]
    rfl
  · rw [(hsrc _ _).1]
    exact State.reg_congr hp.direct ..
  · rw [(hsrc _ _).2, State.pushStamp_stamps hl']
    rfl

/-- Settles O2: a sample is its source's new history (`sample_src`), and the servo that it may reach keeps to the Timebase and the rate. -/
theorem sourceSamplesAreTaken : Obligations.SourceSamplesAreTaken := by
  unfold Obligations.SourceSamplesAreTaken
  refine ⟨fun s dt v ht hw => ?_, fun s dt phase falling he => ?_, fun s dt phase falling _ hc hl he =>
    execPpsInEdge_samples dt phase hc hl he⟩
  · obtain ⟨-, -, -, -, -, -, -, -, -, hd, -⟩ := ht
    exact execTbHostTime_samples dt v hd hw
  · exact next_of_guard _ _ (by simp [he, show (s.elapse dt).reg F.TB_PPS_IN_EDGE = s.reg F.TB_PPS_IN_EDGE from rfl])

end Sys2Proof.Machine

namespace Sys2Proof.Machine

/-! ### The best master and the loss of a source (R70, R80, R89 to R91) -/

/-- What is found in a table whose values were changed under their numbers. -/
theorem tfind_map_values {α : Type} (t : Tbl α) (g : Nat → α → α) (i : Nat) :
    tfind (t.map fun e => (e.1, g e.1 e.2)) i = (tfind t i).map (g i) := by
  induction t with
  | nil => rfl
  | cons e r ih =>
    rw [List.map_cons, tfind_cons, tfind_cons, ih]
    split
    · next h => simp [h]
    · rfl

theorem tsorted_map_values {α : Type} {t : Tbl α} (h : tsorted t) (g : Nat → α → α) :
    tsorted (t.map fun e => (e.1, g e.1 e.2)) := List.Pairwise.map _ (fun _ _ k => k) h

/-- A PTP port as the best master clock algorithm leaves it: its data set is that of its best foreign master (R89). -/
def PtpPort.electing (q : PtpPort) (f : Option PtpForeign) : PtpPort :=
  { q with announce := f.map fun g => g.data, announceAt := (f.map fun g => g.lastAt).getD q.announceAt }

theorem State.bestForeign_of_nil {s : State} {p : Nat} (h : (s.ptpPort p).foreign = []) : s.bestForeign p = none := by
  simp [State.bestForeign, h]

/-- The ports after the data sets are taken anew. -/
def State.elected (s : State) : State :=
  { s with tb := { s.tb with ptp := s.tb.ptp.map fun e => (e.1, e.2.electing (s.bestForeign e.1)) } }

theorem State.elected_ptpPort (s : State) (p : Nat) : s.elected.ptpPort p = (s.ptpPort p).electing (s.bestForeign p) := by
  have h := tfind_map_values s.tb.ptp (fun i q => q.electing (s.bestForeign i)) p
  show (tfind _ p).getD _ = _
  rw [show tfind s.elected.tb.ptp p = _ from h]
  cases hf : tfind s.tb.ptp p with
  | some q => simp [State.ptpPort, tget, hf]
  | none =>
    have hp : s.ptpPort p = PtpPort.reset := by simp [State.ptpPort, tget, hf]
    rw [hp, State.bestForeign_of_nil (by rw [hp]; rfl)]
    rfl

/-- The best foreign master of a port is of the masters that it has heard. -/
theorem State.bestForeign_congr {s t : State} {p : Nat} (hc : t.cfg = s.cfg) (hi : t.id = s.id)
    (hf : (t.ptpPort p).foreign = (s.ptpPort p).foreign) : t.bestForeign p = s.bestForeign p := by
  have hq : t.ptpQualifies = s.ptpQualifies := by
    funext f
    unfold State.ptpQualifies State.act
    rw [hc, hi]
  simp only [State.bestForeign, hf, hq, hi]

/-- The port that the state decision makes SLAVE. -/
def State.chosenSlave (s : State) : Option Nat :=
  (List.range s.id.part.fabs).find? fun p => s.ptpOn p && s.ptpDecide p = .slave

/-- The state with the ports' data sets and the SLAVE port taken anew. -/
def State.decided (s : State) : State := { s.elected with tb := { s.elected.tb with slavePort := s.elected.chosenSlave } }

theorem State.runBmca_eq (s : State) : s.runBmca =
    if s.tb.slavePort.isSome = true ∧ s.decided.tb.slavePort = none then s.decided.loseSource 1 else s.decided := by
  unfold State.runBmca
  simp only [Bool.and_eq_true, Option.isNone_iff_eq_none]
  rfl

theorem State.runBmca_timebaseOnly (s : State) : s.timebaseOnly s.runBmca := by
  rw [State.runBmca_eq]
  have h : s.timebaseOnly s.decided := State.timebaseOnly_tb s _
  exact State.timebaseOnly_ite (State.timebaseOnly_trans h (State.loseSource_timebaseOnly ..)) h

theorem State.loseSource_sameRecords (s : State) (i : Nat) : (s.setSrc i SrcState.reset).sameRecords (s.loseSource i) :=
  State.reselect_sameRecords _

/-- From `s` to `t` source `i` was forgotten and the next one selected; without one a clock that had it holds over (R70, R71, R80). -/
def State.loses (s : State) (i : Nat) (t : State) : Prop :=
  t.src i = SrcState.reset ∧ t.tb.source = t.topSource ∧
  (s.tb.source = i + 1 → t.topSource = 0 → s.tb.quality = .locked ∨ s.tb.quality = .relocking →
    t.tb.quality = .holdover ∧ t.clk.rate = rateWord s.tb.freq)

theorem State.loseSource_loses {s : State} (h : tsorted s.tb.srcs) (i : Nat) : s.loses i (s.loseSource i) := by
  obtain ⟨hsrc, -⟩ := s.loseSource_sameRecords i
  have hf := (s.setSrc i SrcState.reset).reselect_timebaseOnly
  refine ⟨?_, State.reselect_source _, fun hs hb hq => State.reselect_holdover (s := s.setSrc i SrcState.reset) ?_ ?_ hq⟩
  · rw [State.src, hsrc]
    exact tget_tset_self h SrcState.reset i SrcState.reset
  · rw [show (s.setSrc i SrcState.reset).tb.source = i + 1 from hs]
    omega
  · rwa [State.loseSource, State.topSource_congr hf.cfg hf.id hsrc] at hb

/-- What the best master clock algorithm makes of the ports (R89). -/
theorem State.runBmca_ports (s : State) (p : Nat) :
    s.runBmca.ptpPort p = (s.ptpPort p).electing (s.runBmca.bestForeign p) := by
  have hp : s.runBmca.ptpPort p = s.elected.ptpPort p := by
    rw [State.runBmca_eq]
    split
    · rw [State.ptpPort, (State.loseSource_sameRecords ..).2.2.1]
      rfl
    · rfl
  have hf := s.runBmca_timebaseOnly
  rw [hp, State.elected_ptpPort, State.bestForeign_congr hf.cfg hf.id]
  rw [hp, State.elected_ptpPort]
  rfl

/-- Fabric PTP is lost where no port is left to be SLAVE, and otherwise goes on (R70). -/
def State.followsSlave (s t : State) : Prop :=
  (s.tb.slavePort.isSome = true → t.tb.slavePort = none → s.loses 1 t) ∧
  (t.tb.slavePort.isSome = true → t.tb.source = s.tb.source ∧ t.src 1 = s.src 1)

theorem State.runBmca_followsSlave {s : State} (h : tsorted s.tb.srcs) : s.followsSlave s.runBmca := by
  rw [State.runBmca_eq]
  split
  · next hl =>
    refine ⟨fun _ _ => State.loseSource_loses (s := s.decided) h 1, fun hs => ?_⟩
    rw [(State.loseSource_sameRecords ..).2.2.2, show (s.decided.setSrc 1 SrcState.reset).tb.slavePort = none from hl.2] at hs
    cases hs
  · next hl => exact ⟨fun hs hn => absurd ⟨hs, hn⟩ hl, fun _ => ⟨rfl, rfl⟩⟩

theorem State.ptpPort_modPtp_self {s : State} (h : tsorted s.tb.ptp) (p : Nat) (f : PtpPort → PtpPort) :
    (s.modPtp p f).ptpPort p = f (s.ptpPort p) := tget_tmod_self h ..

theorem State.modPtp_sorted {s : State} (h : tsorted s.tb.ptp) (p : Nat) (f : PtpPort → PtpPort) : tsorted (s.modPtp p f).tb.ptp :=
  tsorted_tmod h ..

/-- The state without the masters of a port that have been silent for the timeout, and without its neighbour (R70, R91). -/
def State.silenced (s : State) (p : Nat) : State :=
  (s.modPtp p fun q => { q with
    announce := none, foreign := q.foreign.filter fun f => s.clk.counter < f.lastAt + s.srcTimeout 1 }).forgetNeighbour p

theorem State.dropAnnounce_of_late {s : State} {p : Nat} (h : s.announceLate p = true) : s.dropAnnounce p = (s.silenced p).runBmca :=
  if_pos h

theorem State.silenced_eq (s : State) (p : Nat) : s.silenced p = { s with tb := { s.tb with ptp := (s.silenced p).tb.ptp } } := rfl

theorem State.silenced_ptpPort {s : State} (h : tsorted s.tb.ptp) (p : Nat) : (s.silenced p).ptpPort p = { s.ptpPort p with
    announce := none, foreign := (s.ptpPort p).foreign.filter fun f => s.clk.counter < f.lastAt + s.srcTimeout 1
    nbrOffset := 0, heard := false, skew := false } := by
  rw [State.silenced, State.forgetNeighbour, State.ptpPort_modPtp_self (State.modPtp_sorted h ..), State.ptpPort_modPtp_self h]

/-- The masters of a port that fell silent are forgotten, and what the others show is the port's (R70, R90, R91). -/
theorem State.dropAnnounce_forgets {s : State} {p : Nat} (h : tsorted s.tb.ptp) (hl : s.announceLate p = true) :
    ((s.dropAnnounce p).ptpPort p).foreign =
        (s.ptpPort p).foreign.filter (fun f => decide (s.clk.counter < f.lastAt + s.srcTimeout 1)) ∧
    ((s.dropAnnounce p).ptpPort p).announce = ((s.dropAnnounce p).bestForeign p).map (fun f => f.data) ∧
    ((s.dropAnnounce p).ptpPort p).nbrOffset = 0 ∧ ((s.dropAnnounce p).ptpPort p).skew = false := by
  rw [State.dropAnnounce_of_late hl, State.runBmca_ports, State.silenced_ptpPort h]
  exact ⟨rfl, rfl, rfl, rfl⟩

theorem State.dropAnnounce_followsSlave {s : State} {p : Nat} (h : tsorted s.tb.srcs) (hl : s.announceLate p = true) :
    s.followsSlave (s.dropAnnounce p) := by
  have hf : (s.silenced p).followsSlave (s.silenced p).runBmca := State.runBmca_followsSlave (by rw [State.silenced_eq]; exact h)
  rw [State.dropAnnounce_of_late hl]
  generalize (s.silenced p).runBmca = t at hf ⊢
  rw [State.silenced_eq] at hf
  exact hf

theorem State.dropAnnounce_timebaseOnly (s : State) (p : Nat) : s.timebaseOnly (s.dropAnnounce p) := by
  have hs : s.timebaseOnly (s.silenced p) := by
    rw [State.silenced_eq]
    exact State.timebaseOnly_tb s _
  exact State.timebaseOnly_ite (State.timebaseOnly_trans hs (State.runBmca_timebaseOnly _)) (State.timebaseOnly_refl s)

/-- What `State.topSource` shows, as the statements write it. -/
theorem State.topSource_eq (s : State) : s.topSource = match s.bestSource with | some i => i + 1 | none => 0 := by
  unfold State.topSource
  cases s.bestSource <;> rfl

/-- A source that may qualify is qualified, and the highest-ranked one is selected (R70, R71). -/
theorem State.qualify_qualifies (s : State) (i : Nat) :
    let t := (s.setSrc i { s.src i with qualified := true }).reselect
    (t.src i).qualified = true ∧ t.tb.source = t.topSource ∧ s.timebaseOnly t := by
  refine ⟨?_, State.reselect_source _, State.timebaseOnly_trans (State.timebaseOnly_tb s _) (State.reselect_timebaseOnly _)⟩
  rw [State.src, (State.reselect_sameRecords _).1]
  exact congrArg SrcState.qualified (s.src_setSrc_of_ne i fun h => by simpa [SrcState.reset] using congrArg SrcState.qualified h)

/-- A loss and its frame, as the statements write it. -/
theorem State.loses.shown {s t : State} {i : Nat} (h : s.loses i t) :
    t.src i = SrcState.reset ∧ t.tb.source = (match t.bestSource with | some i => i + 1 | none => 0) ∧
    (s.tb.source = i + 1 → t.bestSource = none → s.tb.quality = .locked ∨ s.tb.quality = .relocking →
      t.tb.quality = .holdover ∧ t.clk.rate = rateWord s.tb.freq) :=
  ⟨h.1, h.2.1.trans t.topSource_eq, fun hs hb => h.2.2 hs (State.topSource_of_none hb)⟩

/-- Settles O3: a selection follows `State.topSource` (`reselect_source`), a loss is `State.loses`, and the masters of a silent port are
dropped before the best master clock algorithm runs (`dropAnnounce_forgets`). -/
theorem sourceChangesFollowRank : Obligations.SourceChangesFollowRank := by
  unfold Obligations.SourceChangesFollowRank
  refine ⟨fun s dt src _ hm => ?_, fun s dt src a _ h1 ht ha hd => ?_, fun s dt port c ht hl hc => ?_⟩
  · obtain ⟨hq, hs, hf⟩ := (s.elapse dt).qualify_qualifies src
    exact ⟨_, next_of_guard _ _ hm, hq, hs.trans (State.topSource_eq _), hf⟩
  · obtain ⟨-, -, -, -, -, -, -, -, -, -, -, -, hsrc, -⟩ := ht
    obtain ⟨hr, hs, hh⟩ := (State.loseSource_loses (s := s.elapse dt) hsrc src).shown
    refine ⟨_, ?_, hr, hs, hh, State.loseSource_timebaseOnly ..⟩
    have ha' : ((s.elapse dt).src src).lastAt = some a := ha
    have hd' : a + (s.elapse dt).srcTimeout src ≤ (s.elapse dt).clk.counter := hd
    simp only [exec, execTbSourceLost, if_neg h1, ha', if_pos hd']
  · obtain ⟨-, -, -, -, -, -, -, -, -, -, -, -, hsrc, -, hptp, -⟩ := ht
    obtain ⟨hf, ha, hn, hk⟩ := State.dropAnnounce_forgets (s := s.elapse dt) hptp hl
    obtain ⟨hlose, hstay⟩ := State.dropAnnounce_followsSlave (s := s.elapse dt) hsrc hl
    refine ⟨(s.elapse dt).dropAnnounce port, ?_, hf, ha, hn, hk, fun h h' => (hlose h h').shown, hstay,
      State.dropAnnounce_timebaseOnly ..⟩
    obtain rfl | ⟨rfl, hp⟩ := hc
    · rfl
    · have hp' : (s.elapse dt).tb.slavePort = some port := hp
      simp only [exec, execTbSourceLost, if_true, hp']

end Sys2Proof.Machine

namespace Sys2Proof.Machine

/-! ### PPS_OUT and the error bound (R79, R81, R87, R94, R103) -/

/-- What events leave stands so beside another Timebase. -/
theorem State.eventsOnly.withTb {s t : State} (h : State.eventsOnly s t) (tb : Tb) :
    State.eventsOnly { s with tb := tb } { t with tb := tb } := by
  obtain ⟨h1, h2⟩ := h
  generalize t.dis = d, t.crn = c, t.mem.dram = m1, t.mem.bad = m2, t.mem.waiting = m3, t.mem.failed = m4, t.mem.eccUncorr = m5,
    t.mem.eccAddr = m6 at h1
  subst h1
  exact ⟨rfl, h2⟩

/-- And beside another journal. -/
theorem State.eventsOnly.withOut {s t : State} (h : State.eventsOnly s t) (out : List Out) :
    State.eventsOnly { s with out := out } { t with out := out } := by
  obtain ⟨h1, h2⟩ := h
  generalize t.dis = d, t.crn = c, t.mem.dram = m1, t.mem.bad = m2, t.mem.waiting = m3, t.mem.failed = m4, t.mem.eccUncorr = m5,
    t.mem.eccAddr = m6 at h1
  subst h1
  exact ⟨rfl, h2⟩

/-- And beside another Calendar. -/
theorem State.eventsOnly.withCal {s t : State} (h : State.eventsOnly s t) (cal : Cal) :
    State.eventsOnly { s with cal := cal } { t with cal := cal } := by
  obtain ⟨h1, h2⟩ := h
  generalize t.dis = d, t.crn = c, t.mem.dram = m1, t.mem.bad = m2, t.mem.waiting = m3, t.mem.failed = m4, t.mem.eccUncorr = m5,
    t.mem.eccAddr = m6 at h1
  subst h1
  exact ⟨rfl, h2⟩

/-- The outputs of a drive of PPS_OUT to a level: one where the level changes. -/
def State.ppsShown (s : State) (level : Bool) (time : Nat) : List Out := if level = s.tb.ppsPin then [] else [.pps level time]

/-- The level of the ball while PPS_OUT is active or not (R87). -/
def State.ppsLevel (s : State) (active : Bool) : Bool := decide ((active = true) ≠ (s.reg F.TB_PPS_OUT_POL = 1))

theorem State.ppsLevel_true (s : State) : s.ppsLevel true = decide (s.reg F.TB_PPS_OUT_POL ≠ 1) := by simp [State.ppsLevel]

theorem State.ppsLevel_false (s : State) : s.ppsLevel false = decide (s.reg F.TB_PPS_OUT_POL = 1) := by simp [State.ppsLevel]

theorem State.ppsDrive_eq (s : State) (active : Bool) (time : Nat) : s.ppsDrive active time =
    { s with tb := { s.tb with ppsHigh := active, ppsPin := s.ppsLevel active }, out := s.out ++ s.ppsShown (s.ppsLevel active) time } := by
  unfold State.ppsDrive State.ppsShown State.ppsLevel
  dsimp only
  by_cases h : ((active = true) ≠ (s.reg F.TB_PPS_OUT_POL = 1)) = (s.tb.ppsPin = true)
  · rw [if_pos h, if_pos (by simp [h]), List.append_nil]
  · rw [if_neg h, if_neg fun e => h (by rw [← e, decide_eq_true_eq])]
    rfl

/-- The Calendar takes the time only while the clock is locked, at a second at which it has not (R103). -/
theorem State.syncCalendar_eq (s : State) : s.syncCalendar = { s with cal := s.syncCalendar.cal } := by
  unfold State.syncCalendar
  dsimp only
  split <;> rfl

theorem State.syncCalendar_lastSync {s : State} (h : s.tb.quality = .locked) :
    s.syncCalendar.cal.lastSync = s.now / 1000000000 := by
  unfold State.syncCalendar
  by_cases hl : s.cal.lastSync = s.now / 1000000000 <;> simp [h, hl]

/-- A stamp changes the queue and what counts its losses. -/
theorem State.pushStamp_tb (s : State) (source id t16 : Nat) : (s.pushStamp source id t16).tb = { s.tb with
    stamps := (s.pushStamp source id t16).tb.stamps, stampDrops := (s.pushStamp source id t16).tb.stampDrops
    stampOvf := (s.pushStamp source id t16).tb.stampOvf } := by
  unfold State.pushStamp
  split
  · dsimp only
    split <;> simp
  · simp

/-- The edge of a second: a stamp joins the queue, and the output goes active (R87, R94). -/
theorem State.ppsEdge_shows (s : State) (k : Nat) :
    let t := s.ppsEdge k
    t.tb.ppsHigh = true ∧ t.tb.ppsNext = k + 1 ∧ t.tb.ppsPin = decide (s.reg F.TB_PPS_OUT_POL ≠ 1) ∧
    t.tb.quality = s.tb.quality ∧ t.now = s.now ∧ t.out = s.out ++ s.ppsShown t.tb.ppsPin (s.ppsStamp k + 163840) ∧
    State.eventsOnly { s with tb := t.tb, out := t.out } t := by
  have hf := State.pushStamp_eventsOnly { s with tb := { s.tb with ppsNext := k + 1, ppsAt := some s.clk.counter } } 0x30 (k % 65536)
    (s.ppsStamp k)
  have htb := State.pushStamp_tb { s with tb := { s.tb with ppsNext := k + 1, ppsAt := some s.clk.counter } } 0x30 (k % 65536)
    (s.ppsStamp k)
  unfold State.ppsEdge
  dsimp only
  generalize State.pushStamp _ _ _ _ = u at hf htb ⊢
  have hclk : u.clk = s.clk := by rw [hf.1]
  have hout : u.out = s.out := by rw [hf.1]
  have hshown (l : Bool) (n : Nat) : u.ppsShown l n = s.ppsShown l n := by
    unfold State.ppsShown
    rw [htb]
  have hreg : u.reg F.TB_PPS_OUT_POL = s.reg F.TB_PPS_OUT_POL := State.reg_congr (by rw [hf.1]) ..
  rw [State.ppsDrive_eq]
  refine ⟨rfl, by rw [htb], by rw [← hreg]; exact u.ppsLevel_true, by rw [htb], by simp [State.now, hclk], by rw [← hout, ← hshown],
    (hf.withTb { u.tb with ppsHigh := true, ppsPin := u.ppsLevel true }).withOut _⟩

/-- At a whole second PPS_OUT goes active, and while the clock is locked the Calendar takes the time (R87, R103). -/
theorem execPpsOutEdge_shows {s : State} (dt : Nat) (hc : s.clockRuns = true) (hon : s.ppsOn = true)
    (hn : s.tb.ppsNext ≤ (s.elapse dt).ppsSecond) :
    reaches (execPpsOutEdge dt s) fun t =>
      t.tb.ppsHigh = true ∧ t.tb.ppsNext = (s.elapse dt).ppsSecond + 1 ∧
      t.tb.ppsPin = decide (s.reg F.TB_PPS_OUT_POL ≠ 1) ∧
      t.out = s.out ++ s.ppsShown t.tb.ppsPin ((s.elapse dt).ppsStamp (s.elapse dt).ppsSecond + 163840) ∧
      (s.tb.quality = .locked → t.cal.lastSync = (s.elapse dt).now / 1000000000) ∧
      State.eventsOnly { s.elapse dt with tb := t.tb, cal := t.cal, out := t.out } t := by
  have hc' : (s.elapse dt).clockRuns = true := hc
  have hon' : (s.elapse dt).ppsOn = true := hon
  obtain ⟨hh, hnext, hpin, hq, hnow, hout, hf⟩ := (s.elapse dt).ppsEdge_shows (s.elapse dt).ppsSecond
  refine reaches_of_not_guard (by simp [hc']) ?_
  dsimp only
  rw [if_pos (by simp [hon', hn]), State.syncCalendar_eq]
  exact ⟨hh, hnext, hpin, hout, fun h => (State.syncCalendar_lastSync (hq.trans h)).trans (by rw [hnow]), hf.withCal _⟩

/-- When WIDTH has passed the output returns to its inactive level (R87). -/
theorem execPpsOutPulseEnd_ends {s : State} {dt a : Nat} (ha : s.tb.ppsAt = some a)
    (hd : a + s.reg F.TB_PPS_OUT_WIDTH * tickMs ≤ s.clk.counter + dt) :
    execPpsOutPulseEnd dt s = .next (s.elapse dt).ppsEnd := by
  have ha' : (s.elapse dt).tb.ppsAt = some a := ha
  have hd' : a + (s.elapse dt).reg F.TB_PPS_OUT_WIDTH * tickMs ≤ (s.elapse dt).clk.counter := hd
  simp only [execPpsOutPulseEnd, ha', if_pos hd']

/-- While the clock follows a source, the error bound is the source's uncertainty and the last offset (R81). -/
theorem State.errBound_following {s : State} (h : s.tb.quality = .locked ∨ s.tb.quality = .relocking) :
    s.errBound = min 0xFFFFFFFF ((s.src (s.tb.source - 1)).unc + s.tb.errOff.natAbs) := by
  unfold State.errBound
  obtain h | h := h <;> simp only [h]

theorem State.updateErr_following {s : State} (h : s.tb.quality = .locked ∨ s.tb.quality = .relocking) :
    s.updateErr = { s with tb := { s.tb with errEst := min 0xFFFFFFFF ((s.src (s.tb.source - 1)).unc + s.tb.errOff.natAbs) } } := by
  unfold State.updateErr
  rw [State.errBound_following h]
  obtain h | h := h <;> simp [h]

theorem State.noteClass_tb (s : State) : s.noteClass = { s with tb := { s.tb with lastClass := s.noteClass.tb.lastClass } } := by
  unfold State.noteClass
  split <;> rfl

/-- In holdover the bound grows, and past FREE_THRESH the quality falls to FREE (R79, R81). -/
theorem State.updateErr_holdover {s : State} (h : s.tb.quality = .holdover) :
    s.updateErr.tb.errEst = s.errBound ∧
    (s.reg F.TB_THRESH_FREE_THRESH * 1000 < s.errBound → s.updateErr.tb.quality = .free) ∧
    (¬ s.reg F.TB_THRESH_FREE_THRESH * 1000 < s.errBound → s.updateErr.tb.quality = .holdover) ∧
    State.eventsOnly { s with tb := s.updateErr.tb } s.updateErr := by
  have hu : s.updateErr = if s.reg F.TB_THRESH_FREE_THRESH * 1000 < s.errBound then
      (({ s with tb := { s.tb with errEst := s.errBound, fromHold := true } }).setQuality .free).noteClass
    else { s with tb := { s.tb with errEst := s.errBound } } := by
    unfold State.updateErr
    simp [h, State.reg]
  rw [hu]
  split
  · next hb =>
    have hq := State.setQuality_tb { s with tb := { s.tb with errEst := s.errBound, fromHold := true } } .free
    have he := State.setQuality_timebaseOnly { s with tb := { s.tb with errEst := s.errBound, fromHold := true } } .free
    rw [State.timebaseOnly, State.setQuality_clk] at he
    rw [State.noteClass_tb, hq]
    exact ⟨rfl, fun _ => rfl, fun k => absurd hb k, he.withTb _⟩
  · next hb => exact ⟨rfl, fun k => absurd k hb, fun _ => h, State.eventsOnly_refl _⟩

/-- Settles O5: the edge and the end are drives of the output (`ppsDrive_eq`), and the error bound has a lemma for each quality. -/
theorem ppsOutAndTheErrorBound : Obligations.PpsOutAndTheErrorBound := by
  unfold Obligations.PpsOutAndTheErrorBound
  refine ⟨fun s dt hc hon hn => execPpsOutEdge_shows dt hc hon hn, fun s dt a ha hd => ⟨_, execPpsOutPulseEnd_ends ha hd, ?_⟩,
    fun s dt hr hd => ⟨fun hq => ?_, fun hq => ?_⟩⟩
  · rw [State.ppsEnd, State.ppsDrive_eq]
    exact ⟨rfl, (s.elapse dt).ppsLevel_false, rfl, rfl⟩
  · exact (next_of_not_guard _ _ (by simp [hr, hd])).trans (congrArg _ (State.updateErr_following hq))
  · exact reaches_of_not_guard (by simp [hr, hd]) (State.updateErr_holdover (s := (s.elapse dt).mark T.errEst) hq)

end Sys2Proof.Machine

namespace Sys2Proof.Machine

/-! ### What the tile cache and the claims leave of the control units (R110 to R118, R317 to R322) -/

/-- The Timebase, the clock, the configuration, the Hop Sequencer, the stop latch and the Section Engine of `t` are those of `s`. -/
@[reducible, simp] def State.sameControl (s t : State) : Prop :=
  t.tb = s.tb ∧ t.clk = s.clk ∧ t.cfg = s.cfg ∧ t.hop = s.hop ∧ t.stp = s.stp ∧ t.sec = s.sec

theorem State.sameControl.trans {s t u : State} (h : s.sameControl t) (k : t.sameControl u) : s.sameControl u := by
  simp_all

/-- The state that a match takes out of an answer, where the answer's state is known. -/
theorem State.sameControl.of_eq {α : Type} {s t : State} {r : State × α} {a : α} (h : s.sameControl r.1) (e : r = (t, a)) :
    s.sameControl t := by
  subst e
  exact h

@[simp] theorem State.tb_ite {c : Prop} {_ : Decidable c} (s t : State) :
    (if c then s else t).tb = if c then s.tb else t.tb := apply_ite ..

@[simp] theorem State.stp_ite {c : Prop} {_ : Decidable c} (s t : State) :
    (if c then s else t).stp = if c then s.stp else t.stp := apply_ite ..

@[simp] theorem State.sec_ite {c : Prop} {_ : Decidable c} (s t : State) :
    (if c then s else t).sec = if c then s.sec else t.sec := apply_ite ..

@[simp] theorem State.foldl_control {α : Type} {f : State → α → State} (h : ∀ s x, State.sameControl s (f s x)) (l : List α)
    (s : State) : s.sameControl (l.foldl f s) := by
  induction l generalizing s with
  | nil => exact ⟨rfl, rfl, rfl, rfl, rfl, rfl⟩
  | cons x l ih => exact (h s x).trans (ih (f s x))

/-- The same for a fold that gathers something beside the state. -/
@[simp] theorem State.foldl_fst_control {α β : Type} {f : State × β → α → State × β}
    (h : ∀ a x, State.sameControl a.1 (f a x).1) (l : List α) (a : State × β) : a.1.sameControl (l.foldl f a).1 := by
  induction l generalizing a with
  | nil => exact ⟨rfl, rfl, rfl, rfl, rfl, rfl⟩
  | cons x l ih => exact (h a x).trans (ih (f a x))

/-- What events may change leaves the control units. -/
theorem State.quiet.control {s t : State} (h : State.quiet s t) : s.sameControl t := by
  obtain ⟨d, c, m, rfl, -⟩ := State.quiet_iff.1 h
  exact ⟨rfl, rfl, rfl, rfl, rfl, rfl⟩

@[simp] theorem State.noteTraceDrop_control (s : State) : s.sameControl s.noteTraceDrop := (State.noteTraceDrop_quiet s).control

@[simp] theorem State.dramErrors_control (s : State) (l : List Nat) : s.sameControl (s.dramErrors l) := by
  unfold State.dramErrors
  split <;> simp

@[simp] theorem State.dramPut_control (s : State) (a : Nat) (b : List Byte) : s.sameControl (s.dramPut a b) := by
  simp [State.dramPut]

@[simp] theorem State.dramStore_control (s : State) (a : Nat) (b : List Byte) : s.sameControl (s.dramStore a b) := by
  simp [State.dramStore]

@[simp] theorem State.dramSeen_control (s : State) (a n : Nat) : s.sameControl (s.dramSeen a n) := by simp [State.dramSeen]

@[simp] theorem State.dramWrite_control (s : State) (a : Nat) (b : List Byte) : s.sameControl (s.dramWrite a b) := by
  simp [State.dramWrite]

@[simp] theorem State.writeBack_control (s : State) (l : CacheLine) : s.sameControl (s.writeBack l) := by simp [State.writeBack]

@[simp] theorem State.putLine_control (s : State) (l : CacheLine) : s.sameControl (s.putLine l) := by simp [State.putLine]

@[simp] theorem State.getLine_control (s : State) (l : CacheLine) (sample : Bool) : s.sameControl (s.getLine l sample).1 := by
  unfold State.getLine
  split <;> simp

@[simp] theorem State.readLayer_control (s : State) (layer : Nat) (c : Cell) (sample : Bool) :
    s.sameControl (s.readLayer layer c sample).1 := by
  unfold State.readLayer
  split
  · simp
  · dsimp only
    split
    · simp
    · split <;> next h => simp [(State.getLine_control ..).of_eq h]

@[simp] theorem State.setCov_control (s : State) (c : Cell) (code : Nat) (change : Bool) :
    s.sameControl (s.setCov c code change) := by
  unfold State.setCov
  split
  · simp
  · dsimp only
    split
    · simp
    · split <;> next h => simp [(State.getLine_control ..).of_eq h]

@[simp] theorem State.coverage_control (s : State) (c : Cell) (sample : Bool) : s.sameControl (s.coverage c sample).1 := by
  unfold State.coverage
  split <;> next h => simp [(State.readLayer_control ..).of_eq h]

@[simp] theorem State.exclusion_control (s : State) (c : Cell) : s.sameControl (s.exclusion c).1 := by
  unfold State.exclusion
  split <;> next h => simp [(State.readLayer_control ..).of_eq h]

@[simp] theorem State.prescription_control (s : State) (layer : Nat) (c : Cell) : s.sameControl (s.prescription layer c).1 := by
  unfold State.prescription
  split <;> next h => simp [(State.readLayer_control ..).of_eq h]

@[simp] theorem State.noteDelta_control (s : State) (c : Cell) : s.sameControl (s.noteDelta c) := by simp [State.noteDelta]

end Sys2Proof.Machine

namespace Sys2Proof.Machine

/-! ### A time step (R85, R86) -/

/-- The Timebase, the clock and the configuration of `t` are those of `s`. -/
@[reducible, simp] def State.sameTime (s t : State) : Prop := t.tb = s.tb ∧ t.clk = s.clk ∧ t.cfg = s.cfg

theorem State.sameTime.trans {s t u : State} (h : s.sameTime t) (k : t.sameTime u) : s.sameTime u := by
  simp_all

@[simp] theorem State.foldl_time {α : Type} {f : State → α → State} (h : ∀ s x, State.sameTime s (f s x)) (l : List α)
    (s : State) : s.sameTime (l.foldl f s) := by
  induction l generalizing s with
  | nil => exact ⟨rfl, rfl, rfl⟩
  | cons x l ih => exact (h s x).trans (ih (f s x))

@[simp] theorem State.dropClaim_time (s : State) (k : Nat) (c : Claim) : s.sameTime (s.dropClaim k c) := by simp [State.dropClaim]

@[simp] theorem State.releaseClaims_time (s : State) (p : Nat → Claim → Bool) : s.sameTime (s.releaseClaims p) := by
  simp [State.releaseClaims]

@[simp] theorem State.abandonAsm_time (s : State) (m reason : Nat) : s.sameTime (s.abandonAsm m reason) := by
  unfold State.abandonAsm
  split <;> simp [State.abandonEpoch]

@[simp] theorem State.carStep_time (s : State) : s.sameTime s.carStep := by
  simp [State.carStep, State.setRes, State.modCar, State.carTell, State.queueBlock, State.queueDl]

@[simp] theorem State.silence_time (s : State) (now p : Nat) : s.sameTime (s.silence now p) := by
  simp [State.silence, State.frontEnd]

@[simp] theorem State.latchEpoch_time (s : State) : s.sameTime s.latchEpoch := by simp [State.latchEpoch]

@[simp] theorem State.gnsStep_time (s : State) (e : Int) : s.sameTime (s.gnsStep e) := by simp [State.gnsStep]

@[simp] theorem State.unitsStep_time (s : State) : s.sameTime s.unitsStep := by simp [State.unitsStep]

/-- What a step keeps of the Timebase: the servo's frequency, the step and the error bound; with it the clock and the configuration. -/
@[reducible, simp] def State.sameServo (s t : State) : Prop :=
  t.tb.freq = s.tb.freq ∧ t.tb.step = s.tb.step ∧ t.tb.errEst = s.tb.errEst ∧ t.clk = s.clk ∧ t.cfg = s.cfg

theorem State.pushStamp_servo (s : State) (source id t16 : Nat) : s.sameServo (s.pushStamp source id t16) := by
  have h := (s.pushStamp_eventsOnly source id t16).1
  exact ⟨by rw [State.pushStamp_tb], by rw [State.pushStamp_tb], by rw [State.pushStamp_tb], by rw [h], by rw [h]⟩

@[simp] theorem State.ppsEdge_servo (s : State) (k : Nat) : s.sameServo (s.ppsEdge k) := by
  unfold State.ppsEdge
  rw [State.ppsDrive_eq]
  exact State.pushStamp_servo ..

@[simp] theorem State.ppsAfterStep_servo (s : State) : s.sameServo s.ppsAfterStep := by
  unfold State.ppsAfterStep
  dsimp only
  repeat' split
  all_goals simp

/-- Settles O4: before its offset is added nothing reaches the clock or the servo, and after it nothing reaches what it has set. -/
theorem stepMovesTheClock : Obligations.StepMovesTheClock := by
  unfold Obligations.StepMovesTheClock
  intro s dt p hp hat
  refine ⟨(s.elapse dt).applyStep p, ?_, ?_⟩
  · have hp' : (s.elapse dt).tb.step = some p := hp
    simp only [exec, execTbStepApply, hp', if_neg hat.not_gt]
  · unfold State.applyStep
    simp [apply_ite Tb.freq]

end Sys2Proof.Machine

namespace Sys2Proof.Machine

/-! ### PTP messages and their frames (R89 to R93, R393, R395) -/

theorem byteAt_mkFrame_class (dst src cls type hops flags seq : Nat) (body : List Byte) (h : cls < 256) :
    frClass (mkFrame dst src cls type hops flags seq body) = cls := by
  simp [frClass, mkFrame, leBytes, byteAt]
  omega

/-- A PTP message of the device in its frame (R393). -/
def State.timeFrame (s : State) (n : Nat) (m : List Byte) : List Byte := mkFrame fabBroadcast s.claimedAddr FC.time 0 1 2 n m

theorem State.timeFrame_class (s : State) (n : Nat) (m : List Byte) : frClass (s.timeFrame n m) = FC.time :=
  byteAt_mkFrame_class _ _ _ _ _ _ _ _ (by decide)

/-- A frame reads back from the end of the queue that it joined (R395). -/
theorem State.egress_enqueueFrame_self {s : State} (hs : tsorted s.fab.ports) {p : Nat} {f : List Byte}
    (h : (s.egress p (frClass f)).length < queueDepth (frClass f)) :
    (s.enqueueFrame p f).1.egress p (frClass f) = s.egress p (frClass f) ++ [f] := by
  rw [State.enqueueFrame_of_room h, State.egress, State.fabPort_modPort_self hs]
  exact tget_tset_self_of_ne _ (by simp) _

theorem State.enqueueFrame_fab (s : State) (p : Nat) (f : List Byte) :
    (s.enqueueFrame p f).1 = { s with fab := (s.enqueueFrame p f).1.fab } := by
  unfold State.enqueueFrame
  dsimp only
  split <;> rfl

theorem State.sendPtp_fab (s : State) (p : Nat) (m : List Byte) : s.sendPtp p m = { s with fab := (s.sendPtp p m).fab } :=
  State.enqueueFrame_fab ..

theorem State.sendPtp_egress {s : State} (hs : tsorted s.fab.ports) {p : Nat}
    (h : (s.egress p FC.time).length < queueDepth FC.time) (m : List Byte) :
    ∃ n, (s.sendPtp p m).egress p FC.time = s.egress p FC.time ++ [s.timeFrame n m] := by
  refine ⟨(s.nextSeq FC.time).2, ?_⟩
  have hj := State.egress_enqueueFrame_self (s := (s.nextSeq FC.time).1) (p := p) (f := s.timeFrame (s.nextSeq FC.time).2 m) hs
  rw [State.timeFrame_class] at hj
  exact hj h

/-! ### Reception -/

/-- A port as a frame that it takes in leaves it. -/
def State.counted (s : State) (p : Nat) : State := s.modPort p fun r => { r with rxFrames := r.rxFrames + 1 }

theorem State.linkUp_counted {s : State} (hs : tsorted s.fab.ports) (p : Nat) : (s.counted p).linkUp p = s.linkUp p := by
  rw [State.linkUp, State.counted, State.fabPort_modPort_self hs]
  rfl

theorem State.timeTaken_class {s : State} {p : Nat} {f : List Byte} (h : s.timeTaken p f = true) : frClass f = FC.time := by
  simp only [State.timeTaken, Bool.and_eq_true, decide_eq_true_eq] at h
  tauto

/-- A frame of class `TIME` that is taken in only counts here: its message is the engine's (R393, R394). -/
theorem State.receiveFrame_of_timeTaken {s : State} (hs : tsorted s.fab.ports) {p : Nat} {f : List Byte} (h : s.timeTaken p f = true) :
    s.receiveFrame p f = s.counted p := by
  simp only [State.timeTaken, Bool.and_eq_true, decide_eq_true_eq, Bool.not_eq_true'] at h
  obtain ⟨⟨⟨⟨⟨⟨hc, hl⟩, hok⟩, hon⟩, hrun⟩, hup⟩, hloop⟩ := h
  have hrun' : (s.counted p).pwr.state = .run := hrun
  have hup' := (State.linkUp_counted hs p).trans hup
  have hdel : (s.counted p).deliverFrame p f = s.counted p := by
    simp [State.deliverFrame, hc, FC.time]
  have hh : (s.counted p).handleFrame p f = s.counted p := by
    simp [State.handleFrame, hc, hrun', hup', hl, hdel, FC.time, FC.control, FC.relay]
  have hloop' : ((s.counted p).claimedAddr ≠ 0 && frSrc f = (s.counted p).claimedAddr) = false := hloop
  unfold State.receiveFrame
  simp only [hon, hok, Bool.not_true, Bool.false_eq_true, if_false]
  rw [← State.counted, hloop', hh]
  simp

/-- A frame of class `TIME` taken in on a live port is counted and its message is the engine's. -/
theorem execPtpMessageReceived_of_live {s : State} (hs : tsorted s.fab.ports) {dt p ph : Nat} {f : List Byte}
    (hl : s.ptpLive p = true) (hf : s.timeTaken p f = true) :
    exec (.ptpMessageReceived dt p f ph) s = .next (((s.elapse dt).counted p).ptpReceive p (frBody f) ph) := by
  have hl' : (s.elapse dt).ptpLive p = true := hl
  have hf' : (s.elapse dt).timeTaken p f = true := hf
  have hr : (s.elapse dt).receiveIf p f (frClass f = FC.time) = (s.elapse dt).counted p := by
    simp only [State.receiveIf, State.timeTaken_class hf, decide_true, if_true]
    exact State.receiveFrame_of_timeTaken (s := s.elapse dt) hs hf'
  simp only [exec, execPtpMessageReceived, hl', hf', hr, Bool.and_self, if_true]

/-! ### What a message does (R89, R91) -/

/-- A message that is not of the device's domain and version is ignored (R89). -/
theorem State.ptpReceive_of_other {s : State} {m : List Byte} (p ph : Nat)
    (h : byteAt m 1 % 16 ≠ 2 ∨ byteAt m 4 ≠ s.act F.TB_PTP_CTRL_DOMAIN) : s.ptpReceive p m ph = s := by
  unfold State.ptpReceive
  rcases h with h | h <;> simp [h]

/-- A whole message of the device's domain and version (R89). -/
def State.ptpHeard (s : State) (m : List Byte) : Prop :=
  byteAt m 1 % 16 = 2 ∧ byteAt m 4 = s.act F.TB_PTP_CTRL_DOMAIN ∧ ptpSize (ptpType m) ≤ m.length

theorem State.ptpReceive_of_heard {s : State} {m : List Byte} (h : s.ptpHeard m) (p ph : Nat) : s.ptpReceive p m ph =
    if ptpType m = Pm.announce then s.takeAnnounce p m
    else if ptpType m = Pm.sync then s.modPtp p fun q => { q with sync := some (ptpSeq m, s.rxTime ph - ptpCorr m) }
    else if ptpType m = Pm.followUp then s.takeFollowUp p m
    else if ptpType m = Pm.pdelayReq then s.sendPtp p (s.pdelayAnswer p m ph)
    else if ptpType m = Pm.pdelayResp || ptpType m = Pm.pdelayRespFollowUp then s.takePdelay p m ph
    else s := by
  obtain ⟨hv, hd, hl⟩ := h
  unfold State.ptpReceive
  simp [hv, hd, Nat.not_lt.2 hl]

/-- An Announce joins the masters of its port, whose best one the port then shows (R89). -/
theorem State.takeAnnounce_ptpPort {s : State} (hs : tsorted s.tb.ptp) (p : Nat) (m : List Byte) :
    ((s.takeAnnounce p m).ptpPort p).foreign = hearMaster (s.ptpPort p).foreign (announced m) s.clk.counter ∧
    ((s.takeAnnounce p m).ptpPort p).announce = ((s.takeAnnounce p m).bestForeign p).map fun x => x.data := by
  unfold State.takeAnnounce
  rw [State.runBmca_ports, State.ptpPort_modPtp_self hs]
  exact ⟨rfl, rfl⟩

/-- A port's neighbour is off by `off` (R91). -/
def PtpPort.offsetBy (q : PtpPort) (off : Int) : PtpPort :=
  { q with
    nbrOffset := satOffset off, heard := true
    skew := if 5000 < off.natAbs then true else if off.natAbs < 4000 then false else q.skew }

theorem State.setNbrOffset_eq (s : State) (p : Nat) (off : Int) : s.setNbrOffset p off =
    if !(s.ptpPort p).skew && ((s.modPtp p fun q => q.offsetBy off).ptpPort p).skew then
      (s.modPtp p fun q => q.offsetBy off).raise Ev.fabricSkew p (leBytes 1 p)
    else s.modPtp p fun q => q.offsetBy off := rfl

theorem State.setNbrOffset_tb (s : State) (p : Nat) (off : Int) :
    (s.setNbrOffset p off).tb = (s.modPtp p fun q => q.offsetBy off).tb := by
  rw [State.setNbrOffset_eq]
  split
  · exact State.raise_tb ..
  · rfl

theorem State.setNbrOffset_eventsOnly (s : State) (p : Nat) (off : Int) :
    State.eventsOnly (s.modPtp p fun q => q.offsetBy off) (s.setNbrOffset p off) := by
  rw [State.setNbrOffset_eq]
  split
  · exact State.raise_eventsOnly _ _ _ _
  · exact State.eventsOnly_refl _

theorem State.setNbrOffset_ptpPort {s : State} (hs : tsorted s.tb.ptp) (p : Nat) (off : Int) :
    (s.setNbrOffset p off).ptpPort p = (s.ptpPort p).offsetBy off := by
  rw [State.ptpPort, State.setNbrOffset_tb]
  exact State.ptpPort_modPtp_self hs ..

theorem State.sample_ptpPort (s : State) (i : Nat) (e : Int) (unc p : Nat) : (s.sample i e unc).ptpPort p = s.ptpPort p := by
  rw [State.sample_eq]
  split
  · rw [State.ptpPort, (State.useSample_servoOnly ..).2.2.2.1]
    rfl
  · rfl

/-- A Follow_Up that matches the Sync before it gives the neighbour's offset (R91). -/
theorem State.takeFollowUp_ptpPort {s : State} (hs : tsorted s.tb.ptp) {p : Nat} {m : List Byte} {t2 : Rat}
    (h : (s.ptpPort p).sync = some (ptpSeq m, t2)) :
    (s.takeFollowUp p m).ptpPort p =
      (s.ptpPort p).offsetBy (roundRat (ptpTime m 34 + ptpCorr m + (s.ptpPort p).delay - t2)) := by
  rw [← State.setNbrOffset_ptpPort hs]
  unfold State.takeFollowUp
  rw [h]
  simp only [ne_eq, not_true_eq_false, if_false]
  split
  · rw [State.sample_ptpPort]
  · rfl

/-- A Pdelay_Resp that matches and names this port is kept (R91). -/
theorem State.takePdelay_of_resp {s : State} {p : Nat} {m : List Byte} {t1 : Rat} {x : Option (Rat × Rat)} (ph : Nat)
    (ht : ptpType m = Pm.pdelayResp) (h : (s.ptpPort p).pd = some (ptpSeq m, t1, x)) (hi : slice m 44 10 = s.ptpIdentity p) :
    s.takePdelay p m ph = s.modPtp p fun q => { q with pd := some (ptpSeq m, t1, some (s.rxTime ph, ptpTime m 34 - ptpCorr m)) } := by
  unfold State.takePdelay
  rw [h]
  simp [hi, ht]

/-- The Follow_Up of the answer gives the path delay and the offset of the neighbour that answered (R91). -/
theorem State.takePdelay_of_followUp {s : State} {p : Nat} {m : List Byte} {t1 t4 t2 : Rat} (ph : Nat)
    (ht : ptpType m = Pm.pdelayRespFollowUp) (h : (s.ptpPort p).pd = some (ptpSeq m, t1, some (t4, t2)))
    (hi : slice m 44 10 = s.ptpIdentity p) :
    s.takePdelay p m ph = (s.modPtp p fun q => { q with
      delay := ((t4 - t1) - (ptpTime m 34 + ptpCorr m - t2)) / 2, pd := none }).setNbrOffset p
        (roundRat (((t2 - t1) + (ptpTime m 34 + ptpCorr m - t4)) / 2)) := by
  unfold State.takePdelay
  rw [h]
  simp [hi, ht, Pm.pdelayResp, Pm.pdelayRespFollowUp]

end Sys2Proof.Machine

namespace Sys2Proof.Machine

theorem State.counted_egress {s : State} (hs : tsorted s.fab.ports) (p c : Nat) : (s.counted p).egress p c = s.egress p c := by
  rw [State.egress, State.counted, State.fabPort_modPort_self hs]
  rfl

theorem State.counted_sorted {s : State} (hs : tsorted s.fab.ports) (p : Nat) : tsorted (s.counted p).fab.ports :=
  tsorted_tmod (d := FabPort.reset) hs p fun r => { r with rxFrames := r.rxFrames + 1 }

section
variable {s : State} {dt p ph : Nat} {f : List Byte}

/-- What a whole message of the domain does on a live port is what the engine makes of it, behind the frame's count. -/
theorem execPtpMessageReceived_of_heard (hs : tsorted s.fab.ports) (hl : s.ptpLive p = true) (hf : s.timeTaken p f = true)
    (hh : s.ptpHeard (frBody f)) : exec (.ptpMessageReceived dt p f ph) s = .next
      (if ptpType (frBody f) = Pm.announce then ((s.elapse dt).counted p).takeAnnounce p (frBody f)
      else if ptpType (frBody f) = Pm.sync then ((s.elapse dt).counted p).modPtp p fun q =>
        { q with sync := some (ptpSeq (frBody f), (s.elapse dt).rxTime ph - ptpCorr (frBody f)) }
      else if ptpType (frBody f) = Pm.followUp then ((s.elapse dt).counted p).takeFollowUp p (frBody f)
      else if ptpType (frBody f) = Pm.pdelayReq then
        ((s.elapse dt).counted p).sendPtp p ((s.elapse dt).pdelayAnswer p (frBody f) ph)
      else if ptpType (frBody f) = Pm.pdelayResp || ptpType (frBody f) = Pm.pdelayRespFollowUp then
        ((s.elapse dt).counted p).takePdelay p (frBody f) ph
      else (s.elapse dt).counted p) := by
  rw [execPtpMessageReceived_of_live hs hl hf, State.ptpReceive_of_heard (s := (s.elapse dt).counted p) hh]
  rfl


/-- The messages that a live port receives take effect (R89, R91, R93). -/
theorem execPtpMessageReceived_takes (hs : tsorted s.fab.ports) (hp : tsorted s.tb.ptp) (hl : s.ptpLive p = true)
    (hf : s.timeTaken p f = true) (hh : s.ptpHeard (frBody f)) :
    let m := frBody f
    let u := (s.elapse dt).counted p
    (ptpType m = Pm.announce →
      reaches (exec (.ptpMessageReceived dt p f ph) s) fun t =>
        (t.ptpPort p).foreign = hearMaster (s.ptpPort p).foreign (announced m) (s.clk.counter + dt) ∧
        (t.ptpPort p).announce = (t.bestForeign p).map (fun x => x.data)) ∧
    (ptpType m = Pm.sync → reaches (exec (.ptpMessageReceived dt p f ph) s) fun t =>
      (t.ptpPort p).sync = some (ptpSeq m, (s.elapse dt).rxTime ph - ptpCorr m) ∧
      t = { u with tb := { s.tb with ptp := t.tb.ptp } }) ∧
    (∀ t2, ptpType m = Pm.followUp → (s.ptpPort p).sync = some (ptpSeq m, t2) →
      reaches (exec (.ptpMessageReceived dt p f ph) s) fun t =>
        t.ptpPort p = (s.ptpPort p).offsetBy (roundRat (ptpTime m 34 + ptpCorr m + (s.ptpPort p).delay - t2))) ∧
    (ptpType m = Pm.pdelayReq → (s.egress p FC.time).length < queueDepth FC.time →
      reaches (exec (.ptpMessageReceived dt p f ph) s) fun t =>
        (∃ n, t.egress p FC.time = s.egress p FC.time ++ [s.timeFrame n ((s.elapse dt).pdelayAnswer p m ph)]) ∧
        t = { u with fab := t.fab }) ∧
    (∀ t1 x, ptpType m = Pm.pdelayResp → (s.ptpPort p).pd = some (ptpSeq m, t1, x) → slice m 44 10 = s.ptpIdentity p →
      reaches (exec (.ptpMessageReceived dt p f ph) s) fun t =>
        (t.ptpPort p).pd = some (ptpSeq m, t1, some ((s.elapse dt).rxTime ph, ptpTime m 34 - ptpCorr m)) ∧
        t = { u with tb := { s.tb with ptp := t.tb.ptp } }) ∧
    (∀ t1 t4 t2, ptpType m = Pm.pdelayRespFollowUp → (s.ptpPort p).pd = some (ptpSeq m, t1, some (t4, t2)) →
      slice m 44 10 = s.ptpIdentity p →
      reaches (exec (.ptpMessageReceived dt p f ph) s) fun t =>
        t.ptpPort p = { s.ptpPort p with
          delay := ((t4 - t1) - (ptpTime m 34 + ptpCorr m - t2)) / 2, pd := none
          }.offsetBy (roundRat (((t2 - t1) + (ptpTime m 34 + ptpCorr m - t4)) / 2)) ∧
        State.eventsOnly { u with tb := { s.tb with ptp := t.tb.ptp } } t) := by
  intro m u
  have hu : tsorted u.tb.ptp := hp
  have hx := execPtpMessageReceived_of_heard (dt := dt) (ph := ph) hs hl hf hh
  refine ⟨fun ht => ?_, fun ht => ?_, fun t2 ht hq => ?_, fun ht hr => ?_, fun t1 x ht hq hi => ?_, fun t1 t4 t2 ht hq hi => ?_⟩
  · rw [if_pos ht] at hx
    exact ⟨_, hx, State.takeAnnounce_ptpPort hu p m⟩
  · rw [if_neg (by rw [ht]; decide), if_pos ht] at hx
    exact ⟨_, hx, by rw [State.ptpPort_modPtp_self hu], rfl⟩
  · rw [if_neg (by rw [ht]; decide), if_neg (by rw [ht]; decide), if_pos ht] at hx
    exact ⟨_, hx, State.takeFollowUp_ptpPort (s := u) hu hq⟩
  · rw [if_neg (by rw [ht]; decide), if_neg (by rw [ht]; decide), if_neg (by rw [ht]; decide), if_pos ht] at hx
    have he : u.egress p FC.time = s.egress p FC.time := State.counted_egress (s := s.elapse dt) hs p _
    have hq := State.sendPtp_egress (s := u) (State.counted_sorted (s := s.elapse dt) hs p) (he ▸ hr)
      ((s.elapse dt).pdelayAnswer p m ph)
    rw [he] at hq
    exact ⟨_, hx, hq, State.sendPtp_fab ..⟩
  · rw [if_neg (by rw [ht]; decide), if_neg (by rw [ht]; decide), if_neg (by rw [ht]; decide), if_neg (by rw [ht]; decide),
      if_pos (by rw [ht]; decide), State.takePdelay_of_resp (s := u) ph ht hq hi] at hx
    exact ⟨_, hx, by rw [State.ptpPort_modPtp_self hu]; rfl, rfl⟩
  · rw [if_neg (by rw [ht]; decide), if_neg (by rw [ht]; decide), if_neg (by rw [ht]; decide), if_neg (by rw [ht]; decide),
      if_pos (by rw [ht]; decide), State.takePdelay_of_followUp (s := u) ph ht hq hi] at hx
    refine ⟨_, hx, ?_, ?_⟩
    · rw [State.setNbrOffset_ptpPort (State.modPtp_sorted hu ..), State.ptpPort_modPtp_self hu]
      rfl
    · have he := State.setNbrOffset_eventsOnly (u.modPtp p fun q => { q with
        delay := ((t4 - t1) - (ptpTime m 34 + ptpCorr m - t2)) / 2, pd := none }) p
        (roundRat (((t2 - t1) + (ptpTime m 34 + ptpCorr m - t4)) / 2))
      rw [State.setNbrOffset_tb]
      exact he

end

end Sys2Proof.Machine

namespace Sys2Proof.Machine

/-! ### Messages sent (R89, R393) -/

section
variable {s : State} {p : Nat} {f : PtpPort → PtpPort}

theorem State.ptpPort_modPtp_announce (hs : tsorted s.tb.ptp) (hf : ∀ q, (f q).announce = q.announce) (k : Nat) :
    ((s.modPtp p f).ptpPort k).announce = (s.ptpPort k).announce := by
  by_cases hk : k = p
  · rw [hk, State.ptpPort_modPtp_self hs, hf]
  · rw [State.ptpPort, State.ptpPort, State.modPtp, tget_tmod_ne _ _ _ hk]

/-- What is announced stands while `f` leaves the ports' data sets (R89). -/
theorem State.announceBody_modPtp (hs : tsorted s.tb.ptp) (hf : ∀ q, (f q).announce = q.announce) :
    (s.modPtp p f).announceBody = s.announceBody := by
  have hk := State.ptpPort_modPtp_announce (p := p) hs hf
  have hc : (s.modPtp p f).clockClass = s.clockClass := by
    have hk' (k : Nat) : (tget (s.modPtp p f).tb.ptp PtpPort.reset k).announce = (tget s.tb.ptp PtpPort.reset k).announce := hk k
    unfold State.clockClass
    simp only [hk']
    rfl
  have ho : (s.modPtp p f).ownData = s.ownData := by
    unfold State.ownData State.ownClass
    rw [hc]
    rfl
  have hd : (s.modPtp p f).announceData = s.announceData := by
    unfold State.announceData
    simp only [hk, hc, ho]
    rfl
  unfold State.announceBody
  rw [hd]
  rfl

end

theorem State.noteClass_ptpPort (s : State) (p : Nat) : s.noteClass.ptpPort p = s.ptpPort p := by rw [State.noteClass_tb]; rfl

theorem State.noteClass_egress (s : State) (p c : Nat) : s.noteClass.egress p c = s.egress p c := by rw [State.noteClass_tb]; rfl

theorem State.sendPtp_ptpPort (s : State) (p : Nat) (m : List Byte) (k : Nat) : (s.sendPtp p m).ptpPort k = s.ptpPort k := by
  rw [State.sendPtp_fab]; rfl

/-- A message of the engine's joins the queue of its port, which notes that it was sent (R89). -/
theorem State.sendPtp_modPtp {s : State} (hs : tsorted s.fab.ports) (hp : tsorted s.tb.ptp) {p : Nat}
    (h : (s.egress p FC.time).length < queueDepth FC.time) (f : PtpPort → PtpPort) (m : List Byte) :
    (∃ n, ((s.modPtp p f).sendPtp p m).egress p FC.time = s.egress p FC.time ++ [s.timeFrame n m]) ∧
    ((s.modPtp p f).sendPtp p m).ptpPort p = f (s.ptpPort p) :=
  ⟨State.sendPtp_egress (s := s.modPtp p f) hs h m, by rw [State.sendPtp_ptpPort, State.ptpPort_modPtp_self hp]⟩

section
variable {s : State} {p : Nat} (hs : tsorted s.fab.ports) (hp : tsorted s.tb.ptp)
  (hr : (s.egress p FC.time).length < queueDepth FC.time)
include hs hp hr

/-- A Sync that is due (R89). -/
theorem State.ptpSend_sync (hpas : s.ptpPassive p = false)
    (hd : (s.ptpPort p).lastSync + logInterval 4 (s.act F.TB_PTP_CTRL_SYNC_LOG) ≤ s.clk.counter) :
    (∃ n, (s.ptpSend p 0).egress p FC.time = s.egress p FC.time ++ [s.timeFrame n (s.ptpMessage p Pm.sync ptpTwoStep 0
      (((s.ptpPort p).seqSync + 1) % 65536) (logByte (s.act F.TB_PTP_CTRL_SYNC_LOG)) (ptpStamp 0))]) ∧
    ((s.ptpSend p 0).ptpPort p).lastSync = s.clk.counter := by
  have hx : s.ptpSend p 0 = (s.modPtp p fun q => { q with
      seqSync := ((s.ptpPort p).seqSync + 1) % 65536, lastSync := s.clk.counter }).sendPtp p
        (s.ptpMessage p Pm.sync ptpTwoStep 0 (((s.ptpPort p).seqSync + 1) % 65536)
          (logByte (s.act F.TB_PTP_CTRL_SYNC_LOG)) (ptpStamp 0)) := by
    simp only [State.ptpSend, hpas, Nat.not_lt.2 hd, Bool.false_or, decide_false, Bool.false_eq_true, if_false]
    rfl
  rw [hx]
  obtain ⟨he, hq⟩ := State.sendPtp_modPtp hs hp hr _ _
  exact ⟨he, by rw [hq]⟩

/-- An Announce that is due (R89). -/
theorem State.ptpSend_announce (hpas : s.ptpPassive p = false)
    (hd : (s.ptpPort p).lastAnn + tickS * 2 ^ s.act F.TB_PTP_CTRL_ANNOUNCE_LOG ≤ s.clk.counter) :
    (∃ n, (s.ptpSend p 1).egress p FC.time = s.egress p FC.time ++ [s.timeFrame n (s.ptpMessage p Pm.announce ptpScale 0
      (((s.ptpPort p).seqAnn + 1) % 65536) (s.act F.TB_PTP_CTRL_ANNOUNCE_LOG) s.announceBody)]) ∧
    ((s.ptpSend p 1).ptpPort p).lastAnn = s.clk.counter := by
  have hx : s.ptpSend p 1 = ((s.modPtp p fun q => { q with
      seqAnn := ((s.ptpPort p).seqAnn + 1) % 65536, lastAnn := s.clk.counter }).sendPtp p
        (s.ptpMessage p Pm.announce ptpScale 0 (((s.ptpPort p).seqAnn + 1) % 65536)
          (s.act F.TB_PTP_CTRL_ANNOUNCE_LOG) s.announceBody)).noteClass := by
    simp only [State.ptpSend, hpas, Nat.not_lt.2 hd, Bool.false_or, decide_false, Bool.false_eq_true, if_false]
    rw [State.announceBody_modPtp hp (by intro q; rfl)]
    rfl
  rw [hx, State.noteClass_egress, State.noteClass_ptpPort]
  obtain ⟨he, hq⟩ := State.sendPtp_modPtp hs hp hr _ _
  exact ⟨he, by rw [hq]⟩

/-- A Pdelay_Req that is due (R89). -/
theorem State.ptpSend_pdelayReq
    (hd : (s.ptpPort p).lastPd + logInterval 4 (s.reg F.TB_PTP_CTRL2_PDELAY_LOG) ≤ s.clk.counter) :
    (∃ n, (s.ptpSend p 2).egress p FC.time = s.egress p FC.time ++ [s.timeFrame n (s.ptpMessage p Pm.pdelayReq 0 0
      (((s.ptpPort p).seqPd + 1) % 65536) (logByte (s.reg F.TB_PTP_CTRL2_PDELAY_LOG)) (ptpStamp 0 ++ ptpStamp 0))]) ∧
    ((s.ptpSend p 2).ptpPort p).lastPd = s.clk.counter := by
  have hx : s.ptpSend p 2 = (s.modPtp p fun q => { q with
      seqPd := ((s.ptpPort p).seqPd + 1) % 65536, lastPd := s.clk.counter }).sendPtp p
        (s.ptpMessage p Pm.pdelayReq 0 0 (((s.ptpPort p).seqPd + 1) % 65536)
          (logByte (s.reg F.TB_PTP_CTRL2_PDELAY_LOG)) (ptpStamp 0 ++ ptpStamp 0)) := by
    simp only [State.ptpSend, Nat.not_lt.2 hd, if_false]
    rfl
  rw [hx]
  obtain ⟨he, hq⟩ := State.sendPtp_modPtp hs hp hr _ _
  exact ⟨he, by rw [hq]⟩

end

theorem execPtpMessageSend_of_live {s : State} {p : Nat} (dt kind : Nat) (hl : s.ptpLive p = true) :
    exec (.ptpMessageSend dt p kind) s = .next ((s.elapse dt).ptpSend p kind) := by
  have hl' : (s.elapse dt).ptpLive p = true := hl
  simp only [exec, execPtpMessageSend, hl', if_true]

/-! ### Frames of class TIME on the line (R92 to R96, R391, R395) -/

/-- A port whose line is free starts the TIME frame that heads its queues. -/
theorem State.dequeueFrame_time {s : State} {p : Nat} {f : List Byte} {r : List (List Byte)}
    (hfree : (s.fabPort p).lineFree ≤ s.clk.counter) (hon : s.portOn p = true) (hstop : s.egress p FC.stop = [])
    (hq : s.egress p FC.time = f :: r) :
    s.dequeueFrame p = ((s.modPort p fun x => { x with
      queues := tset x.queues [] FC.time (tget x.queues [] FC.time).tail, txFrames := x.txFrames + 1
      lineFree := s.clk.counter + (frLength f + 44 + 4) / 5 }).emit (.fabric p f)).timeSent p f := by
  have hstop' : tget (s.fabPort p).queues [] 0 = [] := hstop
  have hq' : tget (s.fabPort p).queues [] 1 = f :: r := hq
  have hfirst : firstFrame (s.fabPort p).queues = some (FC.time, f) := by
    simp [firstFrame, List.range_succ, hstop', hq', FC.time]
  unfold State.dequeueFrame
  simp only [Nat.not_lt.2 hfree, hon, decide_false, Bool.not_true, Bool.or_self, Bool.false_eq_true, if_false, hfirst, if_true]

/-- A frame's stamp joins the queue (R94, R96). -/
def State.frameStamped (s : State) (p : Nat) (f : List Byte) : State := s.pushStamp (0x20 + p) (ptpSeq (frBody f)) (s.stamp16 0)

/-- The second message of a stamped frame, while the address is claimed (R89, R93, R400). -/
def State.secondStep (s : State) (p type : Nat) (f : List Byte) (log : Nat) (more : List Byte) : State :=
  if s.fab.addrState ≠ .claimed then s.frameStamped p f
  else (s.frameStamped p f).sendPtp p
    (s.ptpMessage p type 0 (fracNs s.txTime) (ptpSeq (frBody f)) log (ptpStamp (wholeNs s.txTime) ++ more))

theorem State.timeSent_eq (s : State) (p : Nat) (f : List Byte) : s.timeSent p f =
    if ptpType (frBody f) = Pm.sync then s.secondStep p Pm.followUp f (logByte (s.act F.TB_PTP_CTRL_SYNC_LOG)) []
    else if ptpType (frBody f) = Pm.pdelayResp then
      s.secondStep p Pm.pdelayRespFollowUp f 0x7F (slice (frBody f) 44 10)
    else if ptpType (frBody f) = Pm.pdelayReq then
      (s.frameStamped p f).modPtp p fun q => { q with pd := some (ptpSeq (frBody f), s.txTime, none) }
    else s := rfl

theorem State.frameStamped_fab (s : State) (p : Nat) (f : List Byte) : (s.frameStamped p f).fab = s.fab := by
  rw [State.frameStamped, (State.pushStamp_eventsOnly ..).1]

theorem State.frameStamped_out (s : State) (p : Nat) (f : List Byte) : (s.frameStamped p f).out = s.out := by
  rw [State.frameStamped, (State.pushStamp_eventsOnly ..).1]

theorem State.frameStamped_tb {s : State} (h : s.tb.stamps.length < 64) (p : Nat) (f : List Byte) : (s.frameStamped p f).tb =
    { s.tb with stamps := s.tb.stamps ++ [⟨0x20 + p, ptpSeq (frBody f) % 65536, s.stamp16 0⟩] } :=
  State.pushStamp_stamps h ..

section
variable {s : State} {p : Nat} {f : List Byte}

theorem State.secondStep_out (type log : Nat) (more : List Byte) : (s.secondStep p type f log more).out = s.out := by
  unfold State.secondStep
  split
  · exact s.frameStamped_out p f
  · rw [State.sendPtp_fab]
    exact s.frameStamped_out p f

theorem State.secondStep_tb (type log : Nat) (more : List Byte) :
    (s.secondStep p type f log more).tb = (s.frameStamped p f).tb := by
  unfold State.secondStep
  split
  · rfl
  · rw [State.sendPtp_fab]

/-- The second message joins the queue of its port (R89, R395). -/
theorem State.secondStep_egress (hs : tsorted s.fab.ports) (hc : s.fab.addrState = .claimed)
    (hr : (s.egress p FC.time).length < queueDepth FC.time) (type log : Nat) (more : List Byte) :
    ∃ n, (s.secondStep p type f log more).egress p FC.time = s.egress p FC.time ++ [s.timeFrame n
      (s.ptpMessage p type 0 (fracNs s.txTime) (ptpSeq (frBody f)) log (ptpStamp (wholeNs s.txTime) ++ more))] := by
  have hf := s.frameStamped_fab p f
  have he (c : Nat) : (s.frameStamped p f).egress p c = s.egress p c := by rw [State.egress, State.fabPort, hf]; rfl
  have ht (n : Nat) (m : List Byte) : (s.frameStamped p f).timeFrame n m = s.timeFrame n m := by
    rw [State.timeFrame, State.claimedAddr, hf]
    rfl
  unfold State.secondStep
  rw [if_neg (not_not.2 hc), ← he]
  simp only [← ht]
  exact State.sendPtp_egress (by rwa [hf]) (by rwa [he]) _

/-- A frame that goes while no address is claimed leaves the queues (R400). -/
theorem State.timeSent_fab (hc : s.fab.addrState ≠ .claimed) : (s.timeSent p f).fab = s.fab := by
  have hf := s.frameStamped_fab p f
  rw [State.timeSent_eq]
  simp only [State.secondStep, if_pos hc]
  repeat' split
  · exact hf
  · exact hf
  · exact hf
  · rfl

theorem State.timeSent_out : (s.timeSent p f).out = s.out := by
  rw [State.timeSent_eq]
  repeat' split
  · exact State.secondStep_out ..
  · exact State.secondStep_out ..
  · exact s.frameStamped_out p f
  · rfl

/-- An event message is stamped as it goes (R93, R94). -/
theorem State.timeSent_stamps (h : s.tb.stamps.length < 64)
    (ht : ptpType (frBody f) = Pm.sync ∨ ptpType (frBody f) = Pm.pdelayReq ∨ ptpType (frBody f) = Pm.pdelayResp) :
    (s.timeSent p f).tb.stamps = s.tb.stamps ++ [⟨0x20 + p, ptpSeq (frBody f) % 65536, s.stamp16 0⟩] := by
  have hst := congrArg Tb.stamps (State.frameStamped_tb h p f)
  rw [State.timeSent_eq]
  split_ifs
  · rw [State.secondStep_tb, hst]
  · rw [State.secondStep_tb, hst]
  · exact hst
  · tauto

/-- A Pdelay_Req begins its measurement at the time at which it goes (R91). -/
theorem State.timeSent_pd (hp : tsorted s.tb.ptp) (h : s.tb.stamps.length < 64) (ht : ptpType (frBody f) = Pm.pdelayReq) :
    ((s.timeSent p f).ptpPort p).pd = some (ptpSeq (frBody f), s.txTime, none) := by
  rw [State.timeSent_eq, if_neg (by rw [ht]; decide), if_neg (by rw [ht]; decide), if_pos ht,
    State.ptpPort_modPtp_self (by rw [State.frameStamped_tb h]; exact hp)]

end

end Sys2Proof.Machine

namespace Sys2Proof.Machine

theorem State.queues_sorted {s : State} (h : s.fab.tidy) (p : Nat) : tsorted (s.fabPort p).queues := by
  unfold State.fabPort tget
  cases hf : tfind s.fab.ports p with
  | none => exact List.Pairwise.nil
  | some r => exact h.2.1 _ (mem_of_tfind hf)

/-- The port after its TIME frame has gone on the line. -/
def FabPort.started (r : FabPort) (now : Nat) (f : List Byte) : FabPort :=
  { r with
    queues := tset r.queues [] FC.time (tget r.queues [] FC.time).tail, txFrames := r.txFrames + 1
    lineFree := now + (frLength f + 44 + 4) / 5 }

section
variable {s : State} {dt p : Nat} {f : List Byte} {r : List (List Byte)}

/-- The head of the queue has gone (R395). -/
theorem State.egress_started (h : s.fab.tidy) (hq : s.egress p FC.time = f :: r) (now : Nat) (o : Out) :
    ((s.modPort p fun x => x.started now f).emit o).egress p FC.time = r := by
  show (tget ((s.modPort p fun x => x.started now f).fabPort p).queues [] FC.time) = r
  rw [State.fabPort_modPort_self h.1]
  exact (tget_tset_self (State.queues_sorted h p) ..).trans (congrArg List.tail hq)

/-- What becomes of a TIME frame on the line: its stamp, its second message and the measurement that it begins. -/
theorem execFabEgressDequeue_time (ht : s.tidy) (hfree : (s.fabPort p).lineFree ≤ s.clk.counter + dt)
    (hon : s.portOn p = true) (hstop : s.egress p FC.stop = []) (hq : s.egress p FC.time = f :: r) (hr : r.length < 15)
    (hst : s.tb.stamps.length < 64) :
    reaches (exec (.fabEgressDequeue dt p) s) fun t =>
      (s.fab.addrState = .claimed → ptpType (frBody f) = Pm.sync → ∃ n, t.egress p FC.time = r ++ [s.timeFrame n
        (s.ptpMessage p Pm.followUp 0 (fracNs (s.elapse dt).txTime) (ptpSeq (frBody f))
          (logByte (s.act F.TB_PTP_CTRL_SYNC_LOG)) (ptpStamp (wholeNs (s.elapse dt).txTime) ++ []))]) ∧
      (s.fab.addrState ≠ .claimed → t.egress p FC.time = r) ∧
      (s.fab.addrState = .claimed → ptpType (frBody f) = Pm.pdelayResp → ∃ n, t.egress p FC.time = r ++ [s.timeFrame n
        (s.ptpMessage p Pm.pdelayRespFollowUp 0 (fracNs (s.elapse dt).txTime) (ptpSeq (frBody f)) 0x7F
          (ptpStamp (wholeNs (s.elapse dt).txTime) ++ slice (frBody f) 44 10))]) ∧
      (ptpType (frBody f) = Pm.pdelayReq → (t.ptpPort p).pd = some (ptpSeq (frBody f), (s.elapse dt).txTime, none)) ∧
      t.out = s.out ++ [.fabric p f] ∧
      (ptpType (frBody f) = Pm.sync ∨ ptpType (frBody f) = Pm.pdelayReq ∨ ptpType (frBody f) = Pm.pdelayResp →
        t.tb.stamps = s.tb.stamps ++ [⟨0x20 + p, ptpSeq (frBody f) % 65536, (s.elapse dt).stamp16 0⟩]) := by
  have hs : tsorted s.fab.ports := ht.1.1
  set u := (s.elapse dt).modPort p fun x => x.started (s.clk.counter + dt) f
  have hus : tsorted (u.emit (.fabric p f)).fab.ports :=
    tsorted_tmod (d := FabPort.reset) hs p fun x => x.started (s.clk.counter + dt) f
  have hue : (u.emit (.fabric p f)).egress p FC.time = r :=
    State.egress_started (s := s.elapse dt) ht.1 hq _ _
  obtain ⟨-, -, -, -, -, -, -, -, -, -, -, -, -, -, hp, -⟩ := ht
  have hroom : ((u.emit (.fabric p f)).egress p FC.time).length < queueDepth FC.time := by
    rw [hue]
    exact Nat.lt_succ_of_lt hr
  have hx : exec (.fabEgressDequeue dt p) s = .next ((u.emit (.fabric p f)).timeSent p f) :=
    congrArg _ (State.dequeueFrame_time (s := s.elapse dt) hfree hon hstop hq)
  refine ⟨_, hx, fun hc hm => ?_, fun hc => ?_, fun hc hm => ?_, fun hm => ?_, ?_, fun hm => ?_⟩
  · have h := State.secondStep_egress (f := f) hus hc hroom Pm.followUp (logByte (s.act F.TB_PTP_CTRL_SYNC_LOG)) []
    rw [hue] at h
    rw [State.timeSent_eq, if_pos hm]
    exact h
  · rw [State.egress, State.fabPort, State.timeSent_fab (s := u.emit (.fabric p f)) hc]
    exact hue
  · have h := State.secondStep_egress (f := f) hus hc hroom Pm.pdelayRespFollowUp 0x7F (slice (frBody f) 44 10)
    rw [hue] at h
    rw [State.timeSent_eq, if_neg (by rw [hm]; decide), if_pos hm]
    exact h
  · exact State.timeSent_pd (s := u.emit (.fabric p f)) hp hst hm
  · exact State.timeSent_out
  · exact State.timeSent_stamps (s := u.emit (.fabric p f)) hst hm

end

/-- Settles O7: a frame taken in is counted and its message handed to the engine, and a frame sent is stamped and followed. -/
theorem ptpMessagesTakeEffect : Obligations.PtpMessagesTakeEffect := by
  unfold Obligations.PtpMessagesTakeEffect
  refine ⟨fun s dt p ph f ht _ _ hl hf => ⟨fun ho => ?_, fun hv hd hsz => ?_⟩, fun s dt p ht _ hl hr => ?_,
    fun s dt p f r ht hfree hon hstop hq hr hst => ?_⟩
  · rw [execPtpMessageReceived_of_live ht.1.1 hl hf, State.ptpReceive_of_other (s := (s.elapse dt).counted p) p ph ho]
    rfl
  · have hs : tsorted s.fab.ports := ht.1.1
    obtain ⟨-, -, -, -, -, -, -, -, -, -, -, -, -, -, hp, -⟩ := ht
    obtain ⟨hann, hsync, hfol, hreq, hresp, hrf⟩ :=
      execPtpMessageReceived_takes (dt := dt) (ph := ph) hs hp hl hf ⟨hv, hd, hsz⟩
    refine ⟨hann, hsync, fun t2 ha hb => ?_, hreq, hresp, fun t1 t4 t2 ha hb hc => ?_⟩
    · obtain ⟨t, hx, hq⟩ := hfol t2 ha hb
      exact ⟨t, hx, by rw [hq]; rfl, by rw [hq]; rfl⟩
    · obtain ⟨t, hx, hq, he⟩ := hrf t1 t4 t2 ha hb hc
      exact ⟨t, hx, by rw [hq]; rfl, by rw [hq]; rfl, by rw [hq]; rfl, by rw [hq]; rfl, he⟩
  · have hs : tsorted (s.elapse dt).fab.ports := ht.1.1
    obtain ⟨-, -, -, -, -, -, -, -, -, -, -, -, -, -, hp, -⟩ := ht
    have hp' : tsorted (s.elapse dt).tb.ptp := hp
    have hr' : ((s.elapse dt).egress p FC.time).length < queueDepth FC.time := hr
    exact ⟨fun ha hd => ⟨_, execPtpMessageSend_of_live dt 0 hl, State.ptpSend_sync hs hp' hr' ha hd⟩,
      fun ha hd => ⟨_, execPtpMessageSend_of_live dt 1 hl, State.ptpSend_announce hs hp' hr' ha hd⟩,
      fun hd => ⟨_, execPtpMessageSend_of_live dt 2 hl, State.ptpSend_pdelayReq hs hp' hr' hd⟩⟩
  · have hx := execFabEgressDequeue_time ht hfree hon hstop hq hr hst
    simp only [List.append_nil] at hx
    exact hx

end Sys2Proof.Machine

namespace Sys2Proof.Machine

/-! ### A section epoch (R301 to R327) -/

/-- From `s` to `t` only steps of an epoch for application instant `A` were taken: the Timebase, the clock, the configuration and
the stop latch stand, and with the latch set the downlink queue; of the Section Engine the machines and its counters of claims
and feedback may differ, and a claim that was not there before is for `A`. -/
structure State.inEpoch (A : Nat) (s t : State) : Prop where
  tb : t.tb = s.tb
  clk : t.clk = s.clk
  cfg : t.cfg = s.cfg
  stp : t.stp = s.stp
  queue : s.stp.latched = true → t.hop.queue = s.hop.queue
  sec : t.sec = { s.sec with
    machs := t.sec.machs, claims := t.sec.claims, reported := t.sec.reported, claimFull := t.sec.claimFull
    expired := t.sec.expired, fbLate := t.sec.fbLate, fbMismatch := t.sec.fbMismatch }
  sorted : tsorted s.sec.claims → tsorted t.sec.claims
  claims : ∀ e ∈ t.sec.claims, e ∈ s.sec.claims ∨ e.2.apply' = A

namespace State.inEpoch

variable {r s t : State} {A : Nat}

theorem refl (s : State) : s.inEpoch A s := ⟨rfl, rfl, rfl, rfl, fun _ => rfl, rfl, fun hs => hs, fun _ => .inl⟩

theorem trans (h : r.inEpoch A s) (k : s.inEpoch A t) : r.inEpoch A t where
  tb := k.tb.trans h.tb
  clk := k.clk.trans h.clk
  cfg := k.cfg.trans h.cfg
  stp := k.stp.trans h.stp
  queue hl := (k.queue (by rwa [h.stp])).trans (h.queue hl)
  sec := by rw [k.sec, h.sec]
  sorted := k.sorted ∘ h.sorted
  claims e he := (k.claims e he).elim (h.claims e) .inr

/-- A step that reaches none of the control units. -/
theorem control (h : r.inEpoch A s) (k : s.sameControl t) : r.inEpoch A t := by
  obtain ⟨htb, hclk, hcfg, hhop, hstp, hsec⟩ := k
  exact h.trans ⟨htb, hclk, hcfg, hstp, fun _ => by rw [hhop], by rw [hsec], by rw [hsec]; exact fun hs => hs,
    by rw [hsec]; exact fun _ => .inl⟩

/-- A step that changes the engine's machines and counters. -/
theorem withSec (h : r.inEpoch A s) (machs : Tbl SecMach) (reported : Tbl Nat) (claimFull expired fbLate fbMismatch : Word) :
    r.inEpoch A { s with sec := { s.sec with
      machs := machs, reported := reported, claimFull := claimFull, expired := expired, fbLate := fbLate
      fbMismatch := fbMismatch } } :=
  h.trans ⟨rfl, rfl, rfl, rfl, fun _ => rfl, rfl, fun hs => hs, fun _ => .inl⟩

theorem erase (h : r.inEpoch A s) (k : Nat) : r.inEpoch A { s with sec := { s.sec with claims := terase s.sec.claims k } } :=
  h.trans ⟨rfl, rfl, rfl, rfl, fun _ => rfl, rfl, fun hs => tsorted_terase hs k, fun _ he => .inl (mem_terase he)⟩

theorem claim (h : r.inEpoch A s) (k : Nat) {c : Claim} (hc : c.apply' = A) :
    r.inEpoch A { s with sec := { s.sec with claims := tput s.sec.claims k c } } :=
  h.trans ⟨rfl, rfl, rfl, rfl, fun _ => rfl, rfl, fun hs => tsorted_tput hs k c, fun _ he =>
    (mem_tput he).elim (fun e => .inr (by rw [e]; exact hc)) .inl⟩

/-! #### Branches and runs -/

theorem ite {c : Prop} {_ : Decidable c} (h : r.inEpoch A s) (k : r.inEpoch A t) : r.inEpoch A (if c then s else t) := by
  split
  · exact h
  · exact k

theorem ite_fst {α : Type} {c : Prop} {_ : Decidable c} {x y : State × α} (h : r.inEpoch A x.1) (k : r.inEpoch A y.1) :
    r.inEpoch A (if c then x else y).1 := by
  split
  · exact h
  · exact k

theorem of_eq {α : Type} {x : State × α} {a : α} (h : r.inEpoch A x.1) (e : x = (t, a)) : r.inEpoch A t := by
  rw [e] at h
  exact h

theorem foldl {α : Type} {f : State → α → State} {l : List α} (h : r.inEpoch A s)
    (hf : ∀ {t : State} {a : α}, r.inEpoch A t → r.inEpoch A (f t a)) : r.inEpoch A (l.foldl f s) := by
  induction l generalizing s with
  | nil => exact h
  | cons a l ih => exact ih (hf h)

theorem foldl_fst {α β : Type} {f : State × β → α → State × β} {x : State × β} {l : List α} (h : r.inEpoch A x.1)
    (hf : ∀ {x : State × β} {a : α}, r.inEpoch A x.1 → r.inEpoch A (f x a).1) : r.inEpoch A (l.foldl f x).1 := by
  induction l generalizing x with
  | nil => exact h
  | cons a l ih => exact ih (hf h)

theorem foldl_pair {α β : Type} {f : State × β → α → State × β} {b : β} {l : List α} (h : r.inEpoch A s)
    (hf : ∀ {x : State × β} {a : α}, r.inEpoch A x.1 → r.inEpoch A (f x a).1) : r.inEpoch A (l.foldl f (s, b)).1 :=
  foldl_fst (x := (s, b)) h hf

/-! #### Operations -/

theorem raise {e : Ev} {i : Nat} {a : List Byte} (h : r.inEpoch A s) : r.inEpoch A (s.raise e i a) :=
  h.control (State.raise_quiet ..).control

theorem raiseIf {c : Prop} {_ : Decidable c} {e : Ev} {i : Nat} {a : List Byte} (h : r.inEpoch A s) :
    r.inEpoch A (if c then s.raise e i a else s) := h.raise.ite h

theorem putSec {i lo width v : Nat} (h : r.inEpoch A s) : r.inEpoch A (s.putSec i lo width v) :=
  h.control ⟨rfl, rfl, rfl, rfl, rfl, rfl⟩

theorem decideSec {i : Nat} {on : Bool} {rateIdx : Nat} (h : r.inEpoch A s) : r.inEpoch A (s.decideSec i on rateIdx) :=
  h.putSec.putSec.putSec

theorem modSec {m : Nat} {f : SecMach → SecMach} (h : r.inEpoch A s) : r.inEpoch A (s.modSec m f) := h.withSec ..

theorem dropClaim {k : Nat} {c : Claim} (h : r.inEpoch A s) : r.inEpoch A (s.dropClaim k c) :=
  (h.erase k).control (State.setCov_control ..)

theorem releaseClaims {p : Nat → Claim → Bool} (h : r.inEpoch A s) : r.inEpoch A (s.releaseClaims p) :=
  h.ite (h.foldl dropClaim)

theorem confirmClaim {k : Nat} {c : Claim} (h : r.inEpoch A s) : r.inEpoch A (s.confirmClaim k c) :=
  ((h.erase k).control (State.setCov_control ..)).control (State.noteDelta_control ..)

theorem report {m i : Nat} {x : SecMach} {applied : Bool} {apply' delivered : Nat} (h : r.inEpoch A s) :
    r.inEpoch A (s.report m i x applied apply' delivered).1 := by
  unfold State.report
  refine ite_fst (foldl (h.putSec.withSec ..) fun h => h.confirmClaim.ite h.dropClaim) (ite_fst (h.putSec.withSec ..) ?_)
  split
  · exact h.putSec.withSec ..
  · exact (h.putSec.withSec ..).withSec ..

theorem applyFeedback {f : Feedback} (h : r.inEpoch A s) : r.inEpoch A (s.applyFeedback f) := by
  unfold State.applyFeedback
  refine h.ite ?_
  dsimp only
  split
  · refine raise (withSec ?_ _ _ _ _ _ _)
    exact foldl_pair h fun h => h.ite_fst h.report
  · exact foldl_pair h fun h => h.ite_fst h.report

theorem markStale {m : Nat} (h : r.inEpoch A s) : r.inEpoch A (s.markStale m) := h.foldl putSec

theorem expireClaims {k : Nat} (h : r.inEpoch A s) : r.inEpoch A (s.expireClaims k) :=
  foldl ((h.foldl dropClaim).withSec ..) raise

theorem coverPoint {m f : Nat} {p : Rat × Rat} (h : r.inEpoch A s) : r.inEpoch A (s.coverPoint m f p).1 := by
  unfold State.coverPoint
  split
  · exact h
  · split
    · next e => exact (h.control (State.coverage_control ..)).of_eq e
    · next e => exact (h.control (State.coverage_control ..)).of_eq e

theorem exclPoint {f : Nat} {p : Rat × Rat} (h : r.inEpoch A s) : r.inEpoch A (s.exclPoint f p).1 := by
  unfold State.exclPoint
  split
  · exact h
  · exact h.ite_fst (h.control (State.exclusion_control ..))

theorem prescPoints {f layer : Nat} {pts : List (Rat × Rat)} (h : r.inEpoch A s) : r.inEpoch A (s.prescPoints f layer pts).1 := by
  unfold State.prescPoints
  refine h.ite_fst (foldl_pair h fun h => ?_)
  split
  · exact h
  · exact h.control (State.prescription_control ..)

theorem sampleSec {m k A' : Nat} {x : Motion} {impl : Option Implement} (h : r.inEpoch A s) :
    r.inEpoch A (s.sampleSec m x impl k A').1 := by
  unfold State.sampleSec
  refine foldl_pair (foldl_pair (foldl_pair h coverPoint) exclPoint) fun h => ?_
  split
  · exact h.prescPoints
  · exact h

theorem turnSec {m reason : Nat} {x : Option Motion} {impl : Option Implement} {k A' : Nat} (h : r.inEpoch A s) :
    r.inEpoch A (s.turnSec m reason x impl k A').1 := by
  unfold State.turnSec
  split
  · exact h.decideSec.ite_fst h.sampleSec.decideSec
  · exact h.decideSec

/-- The claims of a commanded section are for the epoch's instant (R317). -/
theorem claimSec {m k : Nat} {v : SecEval} (h : r.inEpoch A s) : r.inEpoch A (s.claimSec m k A v).1 := by
  unfold State.claimSec
  refine foldl_pair h fun h => ?_
  split
  · next e =>
    have hc := (h.control (State.coverage_control ..)).of_eq e
    exact hc.ite_fst (ite_fst (hc.withSec ..) ((hc.claim _ rfl).control (State.setCov_control ..)))
  · next e => exact (h.control (State.coverage_control ..)).of_eq e

theorem turn {m tf : Nat} (h : r.inEpoch A s) : r.inEpoch A (s.turn m tf A).1 := by
  unfold State.turn
  exact foldl_pair (modSec (foldl_pair (h.modSec.raiseIf.raiseIf) turnSec)) claimSec

theorem machineRates {m : Nat} {evals : List (Nat × SecEval)} (h : r.inEpoch A s) : r.inEpoch A (s.machineRates m evals).1 :=
  foldl_pair h modSec

/-- Blocks are queued only while the latch is clear. -/
theorem sendBlocks {m reason k : Nat} {evals : List (Nat × SecEval)} (hl : r.stp.latched = false) (h : r.inEpoch A s) :
    r.inEpoch A (s.sendBlocks m reason k A evals) :=
  modSec (foldl (h.machineRates.ite_fst h) fun h =>
    ⟨h.tb, h.clk, h.cfg, h.stp, fun k => absurd (hl.symm.trans k) Bool.false_ne_true, h.sec, h.sorted, h.claims⟩)

theorem epochTwo {tf k : Nat} (h : r.inEpoch A s) : r.inEpoch A (s.epochTwo tf k A) := by
  unfold State.epochTwo
  extract_lets u
  have hu : r.inEpoch A u := h.releaseClaims
  clear_value u
  split
  next v turns full e =>
  extract_lets w
  have hv : r.inEpoch A v := by
    refine of_eq ?_ e
    exact foldl_pair hu turn
  have hw : r.inEpoch A w := hv.raiseIf
  clear_value w
  split
  · exact hw
  · next hl => exact foldl hw (sendBlocks (by rw [← hw.stp]; simpa using hl))

end State.inEpoch

/-! #### Expiry (R321) -/

theorem ne_of_mem_terase {α : Type} {t : Tbl α} (h : tsorted t) {i : Nat} {e : Nat × α} (he : e ∈ terase t i) : e.1 ≠ i := by
  intro hi
  have hf := tfind_of_mem (tsorted_terase h i) (i := e.1) (v := e.2) he
  rw [hi, tfind_terase_self h] at hf
  cases hf

/-- Of a table whose entries are taken out by the numbers of a list, those with other numbers are left. -/
theorem mem_foldl_terase {α : Type} {t : Tbl α} (h : tsorted t) {l : List (Nat × α)} {e : Nat × α}
    (he : e ∈ l.foldl (fun t x => terase t x.1) t) : e ∈ t ∧ e ∉ l := by
  induction l generalizing t with
  | nil => exact ⟨he, by simp⟩
  | cons x l ih =>
    obtain ⟨hm, hl⟩ := ih (tsorted_terase h x.1) he
    refine ⟨mem_terase hm, fun hx => ?_⟩
    rcases List.mem_cons.1 hx with rfl | hx
    · exact ne_of_mem_terase h hm rfl
    · exact hl hx

theorem State.foldl_dropClaim_claims (l : List (Nat × Claim)) (s : State) :
    (l.foldl (fun s e => s.dropClaim e.1 e.2) s).sec.claims = l.foldl (fun t x => terase t x.1) s.sec.claims := by
  induction l generalizing s with
  | nil => rfl
  | cons e l ih =>
    rw [List.foldl_cons, List.foldl_cons, ih]
    congr 1
    simp [State.dropClaim]

/-- After the expiry no claim of superframe k − 2 or before stays (R321). -/
theorem State.expireClaims_claims {s : State} (h : tsorted s.sec.claims) (k : Nat) {e : Nat × Claim}
    (he : e ∈ (s.expireClaims k).sec.claims) : k < e.2.apply' / sfNs + 2 := by
  have hc : e ∈ (s.sec.claims.filter fun e => e.2.apply' / sfNs + 2 ≤ k).foldl (fun t x => terase t x.1) s.sec.claims := by
    rw [← State.foldl_dropClaim_claims]
    simpa [State.expireClaims] using he
  obtain ⟨hm, hl⟩ := mem_foldl_terase h hc
  by_contra hk
  exact hl (List.mem_filter.2 ⟨hm, by simpa using hk⟩)

/-! #### The epoch as a whole (R301, R303) -/

/-- The state with the feedback that is due taken. -/
def State.fedBack (s : State) (tf : Nat) : State :=
  (s.sec.feedback.filter fun f => f.at' ≤ tf).foldl State.applyFeedback
    { s with sec := { s.sec with feedback := s.sec.feedback.filter fun f => tf < f.at' } }

theorem State.epochOne_eq (s : State) (tf k : Nat) :
    s.epochOne tf k = ((s.fedBack tf).sectioned.foldl State.markStale (s.fedBack tf)).expireClaims k := rfl

/-- The feedback that is due leaves the queue (R319). -/
theorem State.epochOne_inEpoch (s : State) (A tf k : Nat) :
    State.inEpoch A { s with sec := { s.sec with feedback := s.sec.feedback.filter fun f => tf < f.at' } } (s.epochOne tf k) :=
  have h : State.inEpoch A _ (s.fedBack tf) := State.inEpoch.foldl (State.inEpoch.refl _) State.inEpoch.applyFeedback
  (h.foldl State.inEpoch.markStale).expireClaims

/-- The claims of superframe k − 2 and before leave the store (R321). -/
theorem State.epochOne_claims {s : State} (h : tsorted s.sec.claims) (tf k : Nat) {e : Nat × Claim}
    (he : e ∈ (s.epochOne tf k).sec.claims) : k < e.2.apply' / sfNs + 2 := by
  have hf : State.inEpoch 0 _ (s.fedBack tf) := State.inEpoch.foldl (State.inEpoch.refl _) State.inEpoch.applyFeedback
  have hw := hf.foldl (f := State.markStale) (l := (s.fedBack tf).sectioned) State.inEpoch.markStale
  exact State.expireClaims_claims (hw.sorted h) k he

/-- The state after the three steps of an epoch. -/
def State.epochRun (s : State) (tf : Nat) : State :=
  (s.epochOne tf (tf / sfNs)).epochTwo tf (tf / sfNs)
    ((tf / sfNs + (s.epochOne tf (tf / sfNs)).act F.SEC_CTRL_APPLY_DELAY) * sfNs)

theorem State.epoch_eq (s : State) (tf us : Nat) : s.epoch tf us =
    ({ s.epochRun tf with sec := { (s.epochRun tf).sec with
      epochs := (s.epochRun tf).sec.epochs + 1, maxUs := max (s.epochRun tf).sec.maxUs us
      runUntil := (s.epochRun tf).clk.counter + tickUs * us } } : State).raise Ev.secEpochDone 0 [] := by
  simp only [State.epoch, State.epochRun]

theorem State.epochRun_inEpoch (s : State) (tf : Nat) : ∃ A,
    State.inEpoch A { s with sec := { s.sec with feedback := s.sec.feedback.filter fun f => tf < f.at' } } (s.epochRun tf) :=
  ⟨_, (s.epochOne_inEpoch _ tf _).epochTwo⟩

theorem State.epochRun_claims {s : State} (h : tsorted s.sec.claims) (tf : Nat) {e : Nat × Claim}
    (he : e ∈ (s.epochRun tf).sec.claims) : tf / sfNs < e.2.apply' / sfNs + 2 := by
  rcases (State.inEpoch.refl (s.epochOne tf (tf / sfNs))).epochTwo.claims e he with he | he
  · exact State.epochOne_claims h tf _ he
  · rw [he, Nat.mul_div_cancel _ (by decide)]
    omega

/-- What an epoch does that finds the previous step 2 over. -/
theorem State.epoch_spec {s : State} (h : tsorted s.sec.claims) (tf us : Nat) :
    (s.epoch tf us).tb = s.tb ∧ (s.epoch tf us).sec.epochs = s.sec.epochs + 1 ∧
    (s.epoch tf us).sec.maxUs = max s.sec.maxUs us ∧ (s.epoch tf us).sec.runUntil = s.clk.counter + tickUs * us ∧
    (s.epoch tf us).sec.skip = s.sec.skip ∧ (∀ f ∈ (s.epoch tf us).sec.feedback, tf < f.at') ∧
    (∀ e ∈ (s.epoch tf us).sec.claims, tf / sfNs < e.2.apply' / sfNs + 2) ∧
    (s.stp.latched = true → (s.epoch tf us).hop.queue = s.hop.queue) := by
  obtain ⟨A, hv⟩ := s.epochRun_inEpoch tf
  rw [State.epoch_eq]
  simp only [State.raise_tb, State.raise_sec, State.raise_hop, hv.clk]
  refine ⟨hv.tb, ?_, ?_, trivial, ?_, ?_, fun e => State.epochRun_claims h tf, hv.queue⟩
  · rw [hv.sec]
  · rw [hv.sec]
  · rw [hv.sec]
  · rw [hv.sec]
    exact fun f hf => of_decide_eq_true (List.mem_filter.1 hf).2

theorem State.turnLength_spec (s : State) (us limit : Nat) : ∃ v, v ≤ limit ∧ (us ≤ limit → v = us) ∧
    ∃ free, (us ≤ limit → free = s.free) ∧ s.turnLength us limit = (v, { s with free := free }) := by
  unfold State.turnLength
  split
  · next h => exact ⟨us, h, fun _ => rfl, s.free, fun _ => rfl, rfl⟩
  · next h => exact ⟨_, Nat.le_of_lt_succ (Nat.mod_lt _ limit.succ_pos), (absurd · h), s.free + 1, (absurd · h), rfl⟩

/-- The entry of the engine stands at T + P of the next superframe (R97, R300). -/
theorem State.rearmEpoch_mem {s : State} {p : Periodic} (hp : p ∈ s.tb.periodic) (hu : p.unit = U.sec) :
    ∃ q ∈ (s.rearmEpoch p).tb.periodic, q.unit = U.sec ∧
      q.time = (p.time / sfNs + 1) * sfNs + s.act F.SEC_CTRL_PHASE * 125000 :=
  ⟨_, List.mem_map.2 ⟨p, hp, if_pos rfl⟩, hu, rfl⟩

/-- An entry that is due fires: under FAULT it only re-arms, with the previous step 2 running it skips, else the epoch runs (R303, R330). -/
theorem execSecEpoch_fires {s : State} {dt us : Nat} {p : Periodic} (hrun : s.pwr.state = .run) (hfr : s.clk.frozen = false)
    (hcp : s.fld.copying = false) (hdr : s.unitOn U.fld = false ∨ s.dramHeld = false)
    (hp : s.tb.periodic.find? (fun q => q.unit = U.sec && q.time ≤ (s.elapse dt).now) = some p)
    (hw : (s.elapse dt).commitWaits p.time = false) :
    ∃ v free, v ≤ 12000 ∧ (us ≤ 12000 → v = us) ∧ (us ≤ 12000 → free = s.free) ∧
      let u := { s.elapse dt with free := free }.rearmEpoch p
      exec (.secEpoch dt us) s = .next (if u.sec.fault then u
        else if u.clk.counter < u.sec.runUntil then
          ({ u with sec := { u.sec with skip := u.sec.skip + 1 } } : State).raise Ev.secEpochSkipped 0 []
        else u.epoch p.time v) := by
  obtain ⟨v, hv, hvu, free, hf, hx⟩ := (s.elapse dt).turnLength_spec us 12000
  refine ⟨v, free, hv, hvu, hf, ?_⟩
  have hp' : (s.elapse dt).tb.periodic.find? (fun q => q.unit = U.sec && q.time ≤ (s.elapse dt).now) = some p := hp
  have hg : ({ s.elapse dt with free := free }.commitWaits p.time || { s.elapse dt with free := free }.fld.copying ||
      ({ s.elapse dt with free := free }.unitOn U.fld && { s.elapse dt with free := free }.dramHeld) ||
      decide ({ s.elapse dt with free := free }.pwr.state ≠ .run) || { s.elapse dt with free := free }.clk.frozen) = false := by
    have hw' : { s.elapse dt with free := free }.commitWaits p.time = false := hw
    have hd' : ({ s.elapse dt with free := free }.unitOn U.fld && { s.elapse dt with free := free }.dramHeld) = false :=
      Bool.and_eq_false_iff.2 hdr
    rw [hw', hd']
    simp [hrun, hfr, hcp]
  simp only [exec, execSecEpoch, hx]
  split
  · next hn => exact absurd (hp'.symm.trans hn) (by simp)
  · next q hq =>
    obtain rfl : p = q := Option.some.inj (hp'.symm.trans hq)
    rw [hg]
    rfl

/-- Settles O43: what the entry does is one of three (`execSecEpoch_fires`), and the epoch itself keeps to `State.inEpoch`. -/
theorem sectionEpochsRun : Obligations.SectionEpochsRun := by
  unfold Obligations.SectionEpochsRun
  intro s dt us p ht hrun hfr hcp hdr hp hw
  obtain ⟨-, -, -, -, -, ⟨hclaims, -⟩, -⟩ := ht
  obtain ⟨v, free, hv, hvu, hf, hx⟩ := execSecEpoch_fires (us := us) hrun hfr hcp hdr hp hw
  have hdue := List.find?_some hp
  simp only [Bool.and_eq_true, decide_eq_true_eq] at hdue
  obtain ⟨hunit, -⟩ := hdue
  have hper := State.rearmEpoch_mem (s := { s.elapse dt with free := free }) (List.mem_of_find?_eq_some hp)
    hunit
  have hu : { s.elapse dt with free := free }.rearmEpoch p = { s.elapse dt with
    tb := { s.tb with periodic := ({ s.elapse dt with free := free }.rearmEpoch p).tb.periodic }, free := free } := rfl
  generalize { s.elapse dt with free := free }.rearmEpoch p = u at hx hper hu
  have hsec : u.sec = s.sec := by rw [hu]; rfl
  have hclk : u.clk.counter = s.clk.counter + dt := by rw [hu]; rfl
  have hfree (h : us ≤ 12000) : u.free = s.free := by rw [hu]; exact hf h
  refine ⟨_, hx, ?_⟩
  rw [hsec, hclk]
  split_ifs with hfault hskip
  · exact ⟨hper, fun hn => absurd (hn.symm.trans hfault) (by decide), fun hn => absurd (hn.symm.trans hfault) (by decide),
      fun _ => ⟨by rw [hu], hfree⟩⟩
  · have he := State.raise_eventsOnly { u with sec := { s.sec with skip := s.sec.skip + 1 } } Ev.secEpochSkipped 0 []
    simp only [State.raise_tb, State.raise_sec, State.raise_free]
    refine ⟨hper, fun _ hn => absurd hskip hn.not_gt, fun _ _ => ⟨trivial, ?_, hfree⟩, fun hn => absurd hn hfault⟩
    convert he using 1
    rw [hu]
  · obtain ⟨htb, hep, hmax, hrunu, hsk, hfb, hcl, hq⟩ := State.epoch_spec (s := u) (by rwa [hsec]) p.time v
    rw [hsec] at hep hmax hsk
    rw [hclk] at hrunu
    refine ⟨by rwa [htb], fun _ _ => ⟨hep, ⟨v, hv, hvu, hmax, hrunu⟩, hsk, hfb, hcl, fun hl => ?_⟩,
      fun _ hn => absurd hn hskip, fun hn => absurd hn hfault⟩
    rw [hq (by rw [hu]; exact hl), hu]
    rfl

end Sys2Proof.Machine

namespace Sys2Proof.Machine

/-! ## The stamp that TB_STAMP_W0 to W3 show (R95)

A read of TB_STAMP_W0 alone takes a stamp out, and a reset of the device forgets it. Every other operation of the model leaves it: each
has one lemma that says so, in the order of the model; the lemmas are `simp` rules, so that an operation that only chains others needs
its name alone, and one that branches needs its branches. -/

/-- TB_STAMP_W0 to W3 show in `t` what they show in `s`. -/
@[reducible, simp] def State.sameStamp (s t : State) : Prop := t.tb.stampOut = s.tb.stampOut

theorem State.sameStamp.trans {s t u : State} (h : s.sameStamp t) (k : t.sameStamp u) : s.sameStamp u := Eq.trans k h

/-- The state that a match takes out of an answer, where the answer's state is known. -/
theorem State.sameStamp.of_eq {α : Type} {s t : State} {r : State × α} {a : α} (h : s.sameStamp r.1) (e : r = (t, a)) :
    s.sameStamp t := by
  subst e
  exact h

theorem State.sameStamp.ite {c : Prop} {_ : Decidable c} {s t u : State} (h : s.sameStamp t) (k : s.sameStamp u) :
    s.sameStamp (if c then t else u) := by
  split
  · exact h
  · exact k

@[simp] theorem Tb.stampOut_ite {c : Prop} {_ : Decidable c} (s t : Tb) :
    (if c then s else t).stampOut = if c then s.stampOut else t.stampOut := apply_ite ..

@[simp] theorem State.foldl_stampOut {α : Type} {f : State → α → State} (h : ∀ s x, (f s x).tb.stampOut = s.tb.stampOut) (l : List α)
    (s : State) : s.sameStamp (l.foldl f s) := by
  induction l generalizing s with
  | nil => rfl
  | cons x l ih => exact Eq.trans (ih (f s x)) (h s x)

/-- The same for a fold that gathers something beside the state. -/
@[simp] theorem State.foldl_fst_stampOut {α β : Type} {f : State × β → α → State × β}
    (h : ∀ a x, (f a x).1.tb.stampOut = a.1.tb.stampOut) (l : List α) (a : State × β) : a.1.sameStamp (l.foldl f a).1 := by
  induction l generalizing a with
  | nil => rfl
  | cons x l ih => exact Eq.trans (ih (f a x)) (h a x)

/-- What an event may change leaves it. -/
theorem State.quiet.stampOut {s t : State} (h : State.quiet s t) : s.sameStamp t := by
  obtain ⟨d, c, m, rfl, -⟩ := State.quiet_iff.1 h
  rfl

/-- What an answer may change leaves it. -/
theorem State.hostQuiet.stampOut {s t : State} (h : State.hostQuiet s t) : s.sameStamp t := by
  obtain ⟨g, h, o, d, c, m, rfl, -⟩ := State.hostQuiet_iff.1 h
  rfl

/-! ### Time, registers and free values -/

@[simp] theorem State.setSrc_stampOut (s : State) (i : Nat) (v : SrcState) : s.sameStamp (s.setSrc i v) := rfl

@[simp] theorem State.turnLength_stampOut (s : State) (us limit : Nat) : s.sameStamp (s.turnLength us limit).2 := by
  unfold State.turnLength
  split <;> simp

@[simp] theorem State.latchPair_stampOut (s : State) (lo hi : Sel) (i : Nat) : s.sameStamp (s.latchPair lo hi i) := rfl

@[simp] theorem State.modPtp_stampOut (s : State) (p : Nat) (f : PtpPort → PtpPort) : s.sameStamp (s.modPtp p f) := by
  simp [State.modPtp]

@[simp] theorem State.forgetNeighbour_stampOut (s : State) (p : Nat) : s.sameStamp (s.forgetNeighbour p) := by
  simp [State.forgetNeighbour]

@[simp] theorem State.countClamps_stampOut (s : State) (n : Nat) (off : Option Nat) : s.sameStamp (s.countClamps n off) := by
  simp [State.countClamps]

@[simp] theorem State.writeStaged_stampOut (s : State) (r : RegDef) (off v : Nat) : s.sameStamp (s.writeStaged r off v) := by
  simp [State.writeStaged]

@[simp] theorem State.writeDirect_stampOut (s : State) (r : RegDef) (off v : Nat) : s.sameStamp (s.writeDirect r off v) := by
  simp [State.writeDirect]

/-! ### Placement of threads on cores (R430 to R436) -/

@[simp] theorem State.traceChange_stampOut (s : State) (core : Nat) (why : TraceReason) (outT inT : Option Nat) :
    s.sameStamp (s.traceChange core why outT inT) :=
  (State.traceChange_quiet s core why outT inT).stampOut

@[simp] theorem State.dispatchOn_stampOut (s : State) (core t : Nat) : s.sameStamp (s.dispatchOn core t) :=
  (State.dispatchOn_quiet s core t).stampOut

@[simp] theorem State.refill_stampOut (s : State) (core : Nat) (why : TraceReason) (left : Nat) :
    s.sameStamp (s.refill core why left) :=
  (State.refill_quiet s core why left).stampOut

@[simp] theorem State.toHead_stampOut (t : Nat) (s : State) : s.sameStamp (State.toHead t s) :=
  (State.toHead_quiet s t).stampOut

@[simp] theorem State.placeAux_stampOut {waits : State → State} (hw : ∀ s, State.sameStamp s (waits s)) (fuel : Nat) (s : State)
    (t : Nat) : s.sameStamp (State.placeAux fuel s t waits) := by
  induction fuel generalizing s t waits with
  | zero => simp [State.placeAux, hw]
  | succ fuel ih =>
    unfold State.placeAux
    split
    · simp
    · split
      · simp [hw]
      · split
        · simp [hw]
        · simp [ih (State.toHead_stampOut _)]

@[simp] theorem State.placeBy_stampOut {waits : State → State} (hw : ∀ s, State.sameStamp s (waits s)) (s : State) (t : Nat) :
    s.sameStamp (s.placeBy t waits) := by
  unfold State.placeBy
  dsimp only
  split <;> simp [hw]

@[simp] theorem State.place_stampOut (s : State) (t : Nat) : s.sameStamp (s.place t) := (State.place_quiet s t).stampOut

/-! ### Events (R437 to R443, R507) -/

@[simp] theorem State.post_stampOut (s : State) (posts : List (Nat × Nat)) (src : Nat) : s.sameStamp (s.post posts src).1 :=
  (State.post_quiet s posts src).stampOut

/-! ### Interrupts, shadow entries and completions (R360 to R381) -/

@[simp] theorem State.signal_stampOut (s : State) (v : Nat) : s.sameStamp (s.signal v) := (State.signal_hostQuiet s v).stampOut
@[simp] theorem State.signalErr_stampOut (s : State) : s.sameStamp s.signalErr := by simp [State.signalErr]
@[simp] theorem State.shadow_stampOut (s : State) (n : Nat) : s.sameStamp (s.shadow n) := (State.shadow_hostQuiet s n).stampOut

@[simp] theorem State.setRing_stampOut (s : State) (n : Nat) (st : RingState) : s.sameStamp (s.setRing n st) :=
  (State.setRing_hostQuiet s n st).stampOut

@[simp] theorem State.complete1_stampOut (s : State) (d : Desc) (status detail : Nat) (result : List Byte) :
    s.sameStamp (s.complete1 d status detail result) :=
  (State.complete1_hostQuiet s d status detail result).stampOut

@[simp] theorem State.flushVerdict_stampOut (s : State) (ring : Nat) : s.sameStamp (s.flushVerdict ring) :=
  (State.flushVerdict_hostQuiet s ring).stampOut

@[simp] theorem State.complete_stampOut (s : State) (d : Desc) (status : Nat) (result : List Byte) (detail : Nat) :
    s.sameStamp (s.complete d status result detail) :=
  (State.complete_hostQuiet s d status result detail).stampOut

@[simp] theorem State.wait_stampOut (s : State) (d : Desc) : s.sameStamp (s.wait d) := by simp [State.wait]

@[simp] theorem State.withDesc_stampOut {f : State → Desc → State} (hf : ∀ s d, State.sameStamp s (f s d)) (s : State)
    (ring index op : Nat) (variant : Desc → Bool) : s.sameStamp (s.withDesc ring index op variant f) := by
  unfold State.withDesc
  split <;> simp [hf]

@[simp] theorem State.writePayload_stampOut (s : State) (d : Desc) (o : Nat) (b : List Byte) :
    s.sameStamp (s.writePayload d o b) := by
  simp [State.writePayload]

/-! ### Key material, cache and link keys (R457 to R465) -/

@[simp] theorem State.tearSlot_stampOut (s : State) (i : Nat) (f : KeyCopy → KeyCopy) : s.sameStamp (s.tearSlot i f) :=
  rfl

@[simp] theorem State.cachePut_stampOut (s : State) (i : Nat) (mat : List Byte) : s.sameStamp (s.cachePut i mat) := by
  unfold State.cachePut
  split <;> simp

@[simp] theorem State.cacheUse_stampOut (s : State) (name : Nat) : s.sameStamp (s.cacheUse name) := by
  unfold State.cacheUse
  repeat' split
  all_goals simp

@[simp] theorem State.orphanUse_stampOut (s : State) (i : Nat) : s.sameStamp (s.orphanUse i) := by simp [State.orphanUse]
@[simp] theorem State.purge_stampOut (s : State) (i : Nat) : s.sameStamp (s.purge i) := rfl
@[simp] theorem State.destroyKeys_stampOut (s : State) : s.sameStamp s.destroyKeys := rfl

@[simp] theorem State.abortJobs_stampOut (s : State) (status : Nat) : s.sameStamp (s.abortJobs status) :=
  State.foldl_stampOut (fun s j => by split <;> simp) ..

@[simp] theorem State.deriveRoots_stampOut (s : State) : s.sameStamp s.deriveRoots := by
  unfold State.deriveRoots
  split <;> simp

@[simp] theorem State.newEpoch_stampOut (s : State) : s.sameStamp s.newEpoch := by simp [State.newEpoch]

/-! ### The NV die and the recorder's slots (R483 to R487, R509) -/

theorem State.takeSpare_stampOut {s t : State} {region n : Nat} (h : s.takeSpare region = some (t, n)) : s.sameStamp t := by
  unfold State.takeSpare at h
  dsimp only at h
  split_ifs at h <;> cases h <;> exact rfl

@[simp] theorem State.makeReadOnly_stampOut (s : State) (region : Nat) : s.sameStamp (s.makeReadOnly region) := by
  simp [State.makeReadOnly]

@[simp] theorem State.wornOut_stampOut (s : State) (region b : Nat) : s.sameStamp (s.wornOut region b) := by simp [State.wornOut]
@[simp] theorem State.countWrite_stampOut (s : State) (home n : Nat) : s.sameStamp (s.countWrite home n) := rfl

@[simp] theorem State.writeRemap_stampOut (s : State) (b spare : Nat) : s.sameStamp (s.writeRemap b spare).1 := by
  unfold State.writeRemap
  dsimp only
  split
  · simp
  · split
    · next h => simp [State.takeSpare_stampOut h]
    · simp

@[simp] theorem State.nvWrite_stampOut (s : State) (region block : Nat) (run : NvRun) :
    s.sameStamp (s.nvWrite region block run).1 := by
  unfold State.nvWrite
  dsimp only
  split
  · simp
  · split
    · simp
    · next ht =>
      split
      · simp
      · split
        · simp
        · next h => simp [(State.writeRemap_stampOut ..).of_eq h, State.takeSpare_stampOut ht]

@[simp] theorem State.critDrop_stampOut (s : State) : s.sameStamp s.critDrop := by simp [State.critDrop]
@[simp] theorem State.dropRecord_stampOut (s : State) (sev : Nat) : s.sameStamp (s.dropRecord sev) := by simp [State.dropRecord]

@[simp] theorem State.bufferRecord_stampOut (s : State) (r : Record) : s.sameStamp (s.bufferRecord r) := by
  unfold State.bufferRecord
  split <;> simp

@[simp] theorem State.putRecord_stampOut (s : State) (i : Nat) (r : Record) : s.sameStamp (s.putRecord i r) := rfl
@[simp] theorem State.dropBlock_stampOut (s : State) (block : Nat) : s.sameStamp (s.dropBlock block) := rfl

@[simp] theorem State.logRecord_stampOut (bad : List Nat) (fuel : Nat) (s : State) (r : Record) :
    s.sameStamp (State.logRecord bad fuel s r) := by
  induction fuel generalizing s r with
  | zero => simp [State.logRecord]
  | succ fuel ih =>
    unfold State.logRecord
    split
    · simp
    · split
      · next h => simp [(State.nvWrite_stampOut ..).of_eq h]
      · next h => simp [(State.nvWrite_stampOut ..).of_eq h, ih]

@[simp] theorem State.flushOne_stampOut (s : State) (bad : List Nat) : s.sameStamp (s.flushOne bad) := by
  unfold State.flushOne
  split <;> simp

@[simp] theorem State.flushMany_stampOut (bad : List Nat) (n : Nat) (s : State) : s.sameStamp (State.flushMany bad n s) := by
  induction n generalizing s with
  | zero => simp [State.flushMany]
  | succ n ih => simp [State.flushMany, ih]

@[simp] theorem State.settleFlush_stampOut (s : State) : s.sameStamp s.settleFlush := by simp [State.settleFlush]
@[simp] theorem State.flushAll_stampOut (s : State) (bad : List Nat) : s.sameStamp (s.flushAll bad) := by simp [State.flushAll]

@[simp] theorem State.startFlush_stampOut (s : State) : s.sameStamp s.startFlush := by simp [State.startFlush]

/-! ### Key Store commands (R466 to R482) -/

@[simp] theorem State.abandonUpdate_stampOut (s : State) (d : Desc) (power : Bool) : s.sameStamp (s.abandonUpdate d power) := by
  simp [State.abandonUpdate]

@[simp] theorem State.keyWrite_stampOut {torn done : State → State} (ht : ∀ s, State.sameStamp s (torn s))
    (hd : ∀ s, State.sameStamp s (done s)) (s : State) (d : Desc) (block : Nat) (run : NvRun) :
    s.sameStamp (s.keyWrite d block run torn done) := by
  unfold State.keyWrite
  split
  · simp
  · split <;> next h => simp [(State.nvWrite_stampOut ..).of_eq h, ht, hd]

@[simp] theorem State.recordUpdate_stampOut {done : State → State} (hdone : ∀ s, State.sameStamp s (done s)) (s : State)
    (d : Desc) (i : Nat) (run : NvRun) (f : KeyCopy → KeyCopy) : s.sameStamp (s.recordUpdate d i run f done) := by
  simp [State.recordUpdate, hdone]

@[simp] theorem State.storeRecord_stampOut (s : State) (d : Desc) (run : NvRun) (i : Nat) (f : KeyCopy → KeyCopy) (mat : List Byte) :
    s.sameStamp (s.storeRecord d run i f mat) := by
  simp [State.storeRecord]

@[simp] theorem State.keyCreate_stampOut (s : State) (d : Desc) (method : Nat) (payload : List Byte) (run : NvRun) :
    s.sameStamp (s.keyCreate d method payload run) := by
  unfold State.keyCreate
  split
  · simp
  · split
    extract_lets type usage flags attest
    refine .ite (by simp) ?_
    split
    split
    extract_lets n4 d t parent pl u need label ctx mat v key
    have ht : s.sameStamp t := State.countClamps_stampOut ..
    have hu : s.sameStamp u := ht.trans (State.cacheUse_stampOut ..)
    have hv : s.sameStamp v := .ite hu (hu.trans (State.cacheUse_stampOut ..))
    refine .ite (by simp [ht]) ?_
    split
    · simp [ht]
    · dsimp only
      repeat' split
      all_goals simp [hu, hv]

@[simp] theorem State.keyRetire_stampOut (s : State) (d : Desc) (destroy : Bool) (run : NvRun) :
    s.sameStamp (s.keyRetire d destroy run) := by
  unfold State.keyRetire
  dsimp only
  repeat' split
  all_goals simp

@[simp] theorem State.keyInfo_stampOut (s : State) (d : Desc) : s.sameStamp (s.keyInfo d) := by simp [State.keyInfo]

@[simp] theorem State.keyWrapOut_stampOut (s : State) (d : Desc) : s.sameStamp (s.keyWrapOut d) := by
  unfold State.keyWrapOut
  dsimp only
  repeat' split
  all_goals simp

@[simp] theorem State.keyCrypt_stampOut (s : State) (d : Desc) (op : Nat) (payload : List Byte) :
    s.sameStamp (s.keyCrypt d op payload) := by
  unfold State.keyCrypt
  dsimp only
  repeat' split
  all_goals simp

@[simp] theorem State.orphanJob_stampOut (s : State) (j : Job) : s.sameStamp (s.orphanJob j) := by
  unfold State.orphanJob
  split <;> simp

@[simp] theorem State.startJob_stampOut (s : State) : s.sameStamp s.startJob := by
  unfold State.startJob
  dsimp only
  repeat' split
  all_goals simp

@[simp] theorem State.finishJob_stampOut (s : State) (e : Nat) : s.sameStamp (s.finishJob e) := by
  unfold State.finishJob
  dsimp only
  repeat' split
  all_goals simp

@[simp] theorem State.keyAttest_stampOut (s : State) (d : Desc) (payload : List Byte) (run : NvRun) :
    s.sameStamp (s.keyAttest d payload run) := by
  unfold State.keyAttest
  dsimp only
  repeat' split
  all_goals simp

@[simp] theorem State.epochRoll_stampOut (s : State) (d : Desc) : s.sameStamp (s.epochRoll d) := by
  unfold State.epochRoll
  split <;> simp

@[simp] theorem State.remaskAll_stampOut (s : State) : s.sameStamp s.remaskAll := rfl

@[simp] theorem State.remaskEpoch_stampOut (s : State) : s.sameStamp s.remaskEpoch := by
  unfold State.remaskEpoch
  split <;> simp

@[simp] theorem State.tamperDestroy_stampOut (s : State) : s.sameStamp s.tamperDestroy := by simp [State.tamperDestroy]

theorem execTamperEvent_stampOut (now : Timed Nat) (input : Nat) (levels : BitVec 4) (s : State) :
    reaches (execTamperEvent now input levels s) s.sameStamp := by
  refine ⟨_, rfl, ?_⟩
  dsimp only
  repeat' split
  all_goals simp

/-! ### Frames, links, addresses and the learning table (R392 to R420) -/

@[simp] theorem State.enqueueFrame_stampOut (s : State) (p : Nat) (f : List Byte) : s.sameStamp (s.enqueueFrame p f).1 := by
  simp [State.enqueueFrame]

@[simp] theorem State.floodQueued_stampOut (s : State) (but : Option Nat) (f : List Byte) :
    s.sameStamp (s.floodQueued but f).1 := by
  simp [State.floodQueued]

@[simp] theorem State.floodFrame_stampOut (s : State) (but : Option Nat) (f : List Byte) : s.sameStamp (s.floodFrame but f) := by
  simp [State.floodFrame]

@[simp] theorem State.nextSeq_stampOut (s : State) (cls : Nat) : s.sameStamp (s.nextSeq cls).1 := rfl

@[simp] theorem State.originateQueued_stampOut (s : State) (src cls type hops flags : Nat) (body : List Byte) :
    s.sameStamp (s.originateQueued src cls type hops flags body).1 := by
  simp [State.originateQueued]

@[simp] theorem State.originateFlood_stampOut (s : State) (src cls type hops flags : Nat) (body : List Byte) :
    s.sameStamp (s.originateFlood src cls type hops flags body) := by
  simp [State.originateFlood]

@[simp] theorem State.dupAdd_stampOut (s : State) (k : List Nat) : s.sameStamp (s.dupAdd k) := rfl

@[simp] theorem State.relayFlood_stampOut (s : State) (p : Nat) (f : List Byte) : s.sameStamp (s.relayFlood p f) := by
  simp [State.relayFlood]

@[simp] theorem State.linkFall_stampOut (s : State) (p : Nat) (why : LinkCause) : s.sameStamp (s.linkFall p why) := by
  simp [State.linkFall]

@[simp] theorem State.linkRise_stampOut (s : State) (p : Nat) : s.sameStamp (s.linkRise p) := by simp [State.linkRise]
@[simp] theorem State.sendHello_stampOut (s : State) (p : Nat) : s.sameStamp (s.sendHello p) := by simp [State.sendHello]
@[simp] theorem State.helloAll_stampOut (s : State) : s.sameStamp s.helloAll := by simp [State.helloAll]

@[simp] theorem State.sendClaim_stampOut (s : State) (defend : Bool) : s.sameStamp (s.sendClaim defend) := by
  simp [State.sendClaim]

@[simp] theorem State.enterConflict_stampOut (s : State) : s.sameStamp s.enterConflict := by simp [State.enterConflict]

@[simp] theorem State.claimFrom_stampOut (s : State) (fuel a : Nat) : s.sameStamp (s.claimFrom fuel a) := by
  induction fuel generalizing a with
  | zero => simp [State.claimFrom]
  | succ fuel ih =>
    unfold State.claimFrom
    dsimp only
    split
    · exact ih _
    · simp

@[simp] theorem State.startClaim_stampOut (s : State) : s.sameStamp s.startClaim := by simp [State.startClaim]

@[simp] theorem State.meetAddr_stampOut (s : State) (eui addr : Nat) : s.sameStamp (s.meetAddr eui addr) := by
  unfold State.meetAddr
  split <;> simp

@[simp] theorem State.takeClaim_stampOut (s : State) (p : Nat) (f : List Byte) : s.sameStamp (s.takeClaim p f) := by
  simp [State.takeClaim]

@[simp] theorem State.takeHello_stampOut (s : State) (p : Nat) (f : List Byte) : s.sameStamp (s.takeHello p f) := by
  simp [State.takeHello]

@[simp] theorem State.lsdbChanged_stampOut (s : State) : s.sameStamp s.lsdbChanged := rfl
@[simp] theorem State.putLsa_stampOut (s : State) (src : Nat) (e : Lsa) : s.sameStamp (s.putLsa src e) := by simp [State.putLsa]

@[simp] theorem State.takeLsa_stampOut (s : State) (p : Nat) (f : List Byte) : s.sameStamp (s.takeLsa p f) := by
  simp [State.takeLsa]

@[simp] theorem State.sendLsa_stampOut (s : State) : s.sameStamp s.sendLsa := by simp [State.sendLsa]
@[simp] theorem State.runSpf_stampOut (s : State) : s.sameStamp s.runSpf := by simp [State.runSpf]

@[simp] theorem State.modLearn_stampOut (s : State) (i : Nat) (f : LearnEntry → LearnEntry) : s.sameStamp (s.modLearn i f) := by
  unfold State.modLearn
  split <;> simp

@[simp] theorem State.learnLookup_stampOut (s : State) (k : Nat) : s.sameStamp (s.learnLookup k).1 := by
  unfold State.learnLookup
  split <;> simp

@[simp] theorem State.serveLearn_stampOut (s : State) : s.sameStamp s.serveLearn := by
  unfold State.serveLearn
  split <;> simp

@[simp] theorem State.pushLearn_stampOut (s : State) (rec' : List Byte) (conflict : Bool) :
    s.sameStamp (s.pushLearn rec' conflict) := by
  simp [State.pushLearn]

@[simp] theorem State.newSighting_stampOut (s : State) (g : Sighting) (kind : Nat) : s.sameStamp (s.newSighting g kind) := by
  simp [State.newSighting]

@[simp] theorem State.retireSightings_stampOut (s : State) : s.sameStamp s.retireSightings := rfl

@[simp] theorem State.sight_stampOut (s : State) (p : Nat) (f : List Byte) : s.sameStamp (s.sight p f) := by
  unfold State.sight
  dsimp only
  repeat' split
  all_goals simp

@[simp] theorem State.ageEntry_stampOut (s : State) (i : Nat) (e : LearnEntry) : s.sameStamp (s.ageEntry i e) := by
  simp [State.ageEntry]

@[simp] theorem State.hostFrame_stampOut (s : State) (src cls type port srcEui : Nat) (data : List Byte) :
    s.sameStamp (s.hostFrame src cls type port srcEui data) := by
  unfold State.hostFrame
  dsimp only
  repeat' split
  all_goals simp

/-! ### Images in flash (R488 to R499) -/

@[simp] theorem State.eraseSlot_stampOut (s : State) (b : Bool) : s.sameStamp (s.eraseSlot b) := rfl
@[simp] theorem State.extendReg_stampOut (s : State) (i : Nat) (d : BitVec 384) : s.sameStamp (s.extendReg i d) := rfl

@[simp] theorem State.bootWrite_stampOut (s : State) (block : Nat) (run : NvRun) : s.sameStamp (s.bootWrite block run).1 := by
  simp [State.bootWrite]

@[simp] theorem State.extend_stampOut (s : State) (i type : Nat) (d : BitVec 384) (run : NvRun) :
    s.sameStamp (s.extend i type d run).1 := by
  unfold State.extend
  split <;> next h => simp [(State.bootWrite_stampOut ..).of_eq h]

@[simp] theorem State.measured_stampOut (s : State) (i type : Nat) (d : BitVec 384) : s.sameStamp (s.measured i type d) := by
  simp [State.measured]

@[simp] theorem State.measure_stampOut (s : State) (h plain : List Byte) : s.sameStamp (s.measure h plain) := by
  simp [State.measure]

@[simp] theorem State.loadImage_stampOut (s : State) (b : Bool) : s.sameStamp (s.loadImage b) := by simp [State.loadImage]

@[simp] theorem State.servePeer_stampOut (s : State) (p eui part next : Nat) : s.sameStamp (s.servePeer p eui part next) := by
  unfold State.servePeer
  dsimp only
  repeat' split
  all_goals simp

/-! ### Cells, tiles, claims and map deltas (R106 to R137) -/

@[simp] theorem State.leaveImages_stampOut (s : State) : s.sameStamp s.leaveImages := by
  unfold State.leaveImages
  split <;> simp

@[simp] theorem State.getLine_stampOut (s : State) (l : CacheLine) (sample : Bool) : s.sameStamp (s.getLine l sample).1 := by
  unfold State.getLine
  split <;> simp

@[simp] theorem State.dropLines_stampOut (s : State) (p : CacheLine → Bool) : s.sameStamp (s.dropLines p) := by
  simp [State.dropLines]

@[simp] theorem State.readLayer_stampOut (s : State) (layer : Nat) (c : Cell) (sample : Bool) :
    s.sameStamp (s.readLayer layer c sample).1 := by
  unfold State.readLayer
  split
  · simp
  · dsimp only
    split
    · simp
    · split <;> next h => simp [(State.getLine_stampOut ..).of_eq h]

@[simp] theorem State.coverage_stampOut (s : State) (c : Cell) (sample : Bool) : s.sameStamp (s.coverage c sample).1 := by
  unfold State.coverage
  split <;> next h => simp [(State.readLayer_stampOut ..).of_eq h]

@[simp] theorem State.confirmClaim_stampOut (s : State) (k : Nat) (c : Claim) : s.sameStamp (s.confirmClaim k c) := by
  simp [State.confirmClaim]

@[simp] theorem State.bumpCell_stampOut (s : State) (c : Cell) : s.sameStamp (s.bumpCell c) := by
  unfold State.bumpCell
  split
  · simp
  · split <;> next h => simp [(State.coverage_stampOut ..).of_eq h]

@[simp] theorem State.applyDelta_stampOut (s : State) (f : Nat) (b : List Byte) : s.sameStamp (s.applyDelta f b) := by
  simp [State.applyDelta]

@[simp] theorem State.takeDelta_stampOut (s : State) (src : Nat) (b : List Byte) : s.sameStamp (s.takeDelta src b) := by
  unfold State.takeDelta
  dsimp only
  repeat' split
  all_goals simp

@[simp] theorem State.sendUnicast_stampOut (s : State) (dst cls type hops : Nat) (body : List Byte) :
    s.sameStamp (s.sendUnicast dst cls type hops body).1 := by
  unfold State.sendUnicast
  dsimp only
  repeat' split
  all_goals simp

@[simp] theorem State.sendDelta_stampOut (s : State) (f : Nat) (cells : List Cell) : s.sameStamp (s.sendDelta f cells) := by
  simp [State.sendDelta]

@[simp] theorem State.sendDeltas_stampOut (s : State) : s.sameStamp s.sendDeltas := by simp [State.sendDeltas]

@[simp] theorem State.loadTiles_stampOut (s : State) (f fuel : Nat) (p : List Byte) (n : Nat) :
    s.sameStamp (s.loadTiles f fuel p n).1 := by
  induction fuel generalizing s p n with
  | zero => simp [State.loadTiles]
  | succ fuel ih =>
    unfold State.loadTiles
    dsimp only
    repeat' split
    all_goals simp [ih]

@[simp] theorem State.saveTiles_stampOut (s : State) (f layer room : Nat) (dirtyOnly : Bool) (tiles : List (Nat × Nat))
    (out : List Byte) (n : Nat) : s.sameStamp (s.saveTiles f layer room dirtyOnly tiles out n).1 := by
  induction tiles generalizing s out n with
  | nil => simp [State.saveTiles]
  | cons t rest ih =>
    unfold State.saveTiles
    dsimp only
    repeat' split
    all_goals simp [ih]

/-! ### Sources, servo, stamps and alarms (R67 to R105) -/

@[simp] theorem State.pushStamp_stampOut (s : State) (source id t16 : Nat) : s.sameStamp (s.pushStamp source id t16) := by
  simp [State.pushStamp]

@[simp] theorem State.ppsDrive_stampOut (s : State) (active : Bool) (time : Nat) : s.sameStamp (s.ppsDrive active time) := by
  simp [State.ppsDrive]

@[simp] theorem State.ppsEnd_stampOut (s : State) : s.sameStamp s.ppsEnd := by simp [State.ppsEnd]

@[simp] theorem State.setQuality_stampOut (s : State) (q : Quality) : s.sameStamp (s.setQuality q) := by
  unfold State.setQuality
  repeat' split
  all_goals simp

@[simp] theorem State.enterHoldover_stampOut (s : State) : s.sameStamp s.enterHoldover := by simp [State.enterHoldover]
@[simp] theorem State.reselect_stampOut (s : State) : s.sameStamp s.reselect := by simp [State.reselect]
@[simp] theorem State.loseSource_stampOut (s : State) (i : Nat) : s.sameStamp (s.loseSource i) := by simp [State.loseSource]
@[simp] theorem State.servo_stampOut (s : State) (e : Int) (dt : Rat) : s.sameStamp (s.servo e dt) := by simp [State.servo]
@[simp] theorem State.decideStep_stampOut (s : State) (e : Int) (unc : Nat) : s.sameStamp (s.decideStep e unc) := rfl

@[simp] theorem State.useSample_stampOut (s : State) (e : Int) (unc : Nat) : s.sameStamp (s.useSample e unc) := by
  simp [State.useSample]

@[simp] theorem State.sample_stampOut (s : State) (i : Nat) (e : Int) (unc : Nat) : s.sameStamp (s.sample i e unc) := by
  simp [State.sample]

@[simp] theorem State.noteClass_stampOut (s : State) : s.sameStamp s.noteClass := by
  unfold State.noteClass
  split <;> simp

@[simp] theorem State.updateErr_stampOut (s : State) : s.sameStamp s.updateErr := by simp [State.updateErr]
@[simp] theorem State.fireAlarm_stampOut (s : State) (n : Nat) : s.sameStamp (s.fireAlarm n) := by simp [State.fireAlarm]

@[simp] theorem State.insertLaunch_stampOut (s : State) (time : Nat) (k : LaunchKind) : s.sameStamp (s.insertLaunch time k) :=
  rfl

/-! ### Slots, the downlink queue and transmission (R225 to R249, R345) -/

@[simp] theorem State.modMach_stampOut (s : State) (m : Nat) (f : MachLink → MachLink) : s.sameStamp (s.modMach m f) := by
  simp [State.modMach]

@[simp] theorem State.modNode_stampOut (s : State) (k : Nat) (f : NodeLink → NodeLink) : s.sameStamp (s.modNode k f) := by
  simp [State.modNode]

@[simp] theorem State.queueDl_stampOut (s : State) (b : DlBlock) : s.sameStamp (s.queueDl b) := rfl

@[simp] theorem State.queueBlock_stampOut (s : State) (m btype : Nat) (body : List Byte) :
    s.sameStamp (s.queueBlock m btype body) := by
  simp [State.queueBlock]

@[simp] theorem State.sectionDrop_stampOut (s : State) (p : Nat) : s.sameStamp (s.sectionDrop p) := by simp [State.sectionDrop]

@[simp] theorem State.dropUnfit_stampOut (s : State) (p fuel : Nat) : s.sameStamp (s.dropUnfit p fuel) := by
  induction fuel generalizing s with
  | zero => simp [State.dropUnfit]
  | succ fuel ih =>
    unfold State.dropUnfit
    dsimp only
    split
    · simp
    · split
      · split <;> simp [ih]
      · simp [ih]

@[simp] theorem State.blockSent_stampOut (s : State) (b : DlBlock) : s.sameStamp (s.blockSent b) := by
  unfold State.blockSent
  dsimp only
  repeat' split
  all_goals simp

@[simp] theorem State.queueSched_stampOut (s : State) (p m lasn : Nat) (narrow : Bool) (mode : Nat) (t : List Byte) (pend : Bool) :
    s.sameStamp (s.queueSched p m lasn narrow mode t pend) := by
  simp [State.queueSched]

@[simp] theorem State.countOrphan_stampOut (s : State) (i : Nat) : s.sameStamp (s.countOrphan i) := by simp [State.countOrphan]

@[simp] theorem State.announceTo_stampOut (s : State) (p m : Nat) (a : Announce) (group stop keyGen : Nat) :
    s.sameStamp (s.announceTo p m a group stop keyGen) := by
  unfold State.announceTo
  dsimp only
  repeat' split
  all_goals simp

@[simp] theorem State.endAnnounce_stampOut (s : State) : s.sameStamp s.endAnnounce := by
  apply State.foldl_stampOut
  exact fun _ _ => rfl
@[simp] theorem State.micFail_stampOut (s : State) (p : Nat) : s.sameStamp (s.micFail p) := by simp [State.micFail]

@[simp] theorem State.dutyReview_stampOut (s : State) (p asn at' : Nat) : s.sameStamp (s.dutyReview p asn at') := by
  simp [State.dutyReview]

@[simp] theorem State.withhold_stampOut (s : State) (p ch air asn : Nat) : s.sameStamp (s.withhold p ch air asn) := by
  simp [State.withhold]

@[simp] theorem State.frontEnd_stampOut (s : State) (p time : Nat) (f : Sel) : s.sameStamp (s.frontEnd p time f) := by
  simp [State.frontEnd]

@[simp] theorem State.onAir_stampOut (s : State) (p ch start mode : Nat) (frame : List Byte) :
    s.sameStamp (s.onAir p ch start mode frame) := by
  simp [State.onAir]

@[simp] theorem State.precompMiss_stampOut (s : State) : s.sameStamp s.precompMiss := by simp [State.precompMiss]
@[simp] theorem State.missUnder_stampOut (s : State) (i : Nat) : s.sameStamp (s.missUnder i) := by simp [State.missUnder]

@[simp] theorem State.beaconAir_stampOut (s : State) (p ch : Nat) (f : BeaconForm) (nominal start : Nat) :
    s.sameStamp (s.beaconAir p ch f nominal start) := by
  simp [State.beaconAir]

@[simp] theorem State.sendBeacon_stampOut (s : State) (p ch asn nominal : Nat) :
    s.sameStamp (s.sendBeacon p ch asn nominal) := by
  unfold State.sendBeacon
  split <;> simp

@[simp] theorem State.restamp_stampOut (s : State) (p asn start : Nat) : s.sameStamp (s.restamp p asn start) := rfl

@[simp] theorem State.sendAnchor_stampOut (s : State) (p asn nominal : Nat) : s.sameStamp (s.sendAnchor p asn nominal) := by
  unfold State.sendAnchor
  split <;> simp

@[simp] theorem State.holdStops_stampOut (s : State) (p asn : Nat) : s.sameStamp (s.holdStops p asn) := by simp [State.holdStops]
@[simp] theorem State.holdForms_stampOut (s : State) (p asn : Nat) : s.sameStamp (s.holdForms p asn) := by simp [State.holdForms]
@[simp] theorem State.holdAll_stampOut (s : State) : s.sameStamp s.holdAll := by simp [State.holdAll]
@[simp] theorem State.dropHeld_stampOut (s : State) (p : Nat) : s.sameStamp (s.dropHeld p) := by simp [State.dropHeld]

@[simp] theorem State.sendStop_stampOut (s : State) (p ch asn nominal : Nat) : s.sameStamp (s.sendStop p ch asn nominal) := by
  unfold State.sendStop
  split <;> simp

@[simp] theorem State.sendSealed_stampOut (s : State) (p ch asn nominal mode type enc addr : Nat) (key body : List Byte) :
    s.sameStamp (s.sendSealed p ch asn nominal mode type enc addr key body).1 := by
  simp [State.sendSealed]

@[simp] theorem State.hostMessage_stampOut (s : State) (p addr asn : Nat) (data : List Byte) :
    s.sameStamp (s.hostMessage p addr asn data) := by
  unfold State.hostMessage
  split <;> simp

theorem State.queueMessage_stampOut {s t : State} {addr p : Nat} {data : List Byte} {desc : Option Nat}
    (h : s.queueMessage addr p data desc = some t) : s.sameStamp t := by
  unfold State.queueMessage at h
  split at h <;> cases h
  simp

/-! ### Tracks, requests and decisions of the Caravan Engine (R268 to R287) -/

@[simp] theorem State.trackSeen_stampOut (s : State) (k : Nat) : s.sameStamp (s.trackSeen k) := by simp [State.trackSeen]

@[simp] theorem State.modCar_stampOut (s : State) (m : Nat) (f : CarMach → CarMach) : s.sameStamp (s.modCar m f) := by
  simp [State.modCar]

@[simp] theorem State.setTrack_stampOut (s : State) (k state : Nat) (m : Nat) : s.sameStamp (s.setTrack k state m) := by
  simp [State.setTrack]

@[simp] theorem State.setRes_stampOut (s : State) (o : Nat) (l : List Seg) : s.sameStamp (s.setRes o l) := by simp [State.setRes]

@[simp] theorem State.carTell_stampOut (s : State) (m code why segs : Nat) : s.sameStamp (s.carTell m code why segs) := by
  simp [State.carTell]

@[simp] theorem State.carTest_stampOut (s : State) (o : Nat) (segs : List Seg) (track : Option Nat) (rev : Bool) :
    s.sameStamp (s.carTest o segs track rev).1 := by
  unfold State.carTest
  dsimp only
  repeat' split
  all_goals simp

@[simp] theorem State.carAlong_stampOut (s : State) (r : Req) (k : Nat) (rev : Bool) : s.sameStamp (s.carAlong r k rev).1 := by
  simp [State.carAlong]

@[simp] theorem State.doneCurrent_stampOut (s : State) (r : Req) : s.sameStamp (s.doneCurrent r) := by
  unfold State.doneCurrent
  split <;> simp

@[simp] theorem State.carDecide_stampOut (s : State) (r : Req) : s.sameStamp (s.carDecide r).1 := by
  unfold State.carDecide
  dsimp only
  repeat' split
  all_goals simp

@[simp] theorem State.giveAnswer_stampOut (s : State) (r : Req) (a : Answered) : s.sameStamp (s.giveAnswer r a) := by
  unfold State.giveAnswer
  dsimp only
  repeat' split
  all_goals simp

@[simp] theorem State.trackRequest_stampOut (s : State) (m : Nat) (b : List Byte) : s.sameStamp (s.trackRequest m b) := by
  simp [State.trackRequest]

@[simp] theorem State.expireOwner_stampOut (s : State) (o : Nat) (l : List Seg) : s.sameStamp (s.expireOwner o l) := by
  unfold State.expireOwner
  split <;> simp

@[simp] theorem State.expireAll_stampOut (s : State) : s.sameStamp s.expireAll := by simp [State.expireAll]
@[simp] theorem State.freezeRes_stampOut (s : State) (m : Nat) : s.sameStamp (s.freezeRes m) := by simp [State.freezeRes]
@[simp] theorem State.freezeAll_stampOut (s : State) : s.sameStamp s.freezeAll := by simp [State.freezeAll]
@[simp] theorem State.freezeLost_stampOut (s : State) (m : Nat) : s.sameStamp (s.freezeLost m) := by simp [State.freezeLost]

@[simp] theorem State.thaw_stampOut (s : State) (m : Nat) : s.sameStamp (s.thaw m) := by
  unfold State.thaw
  dsimp only
  repeat' split
  all_goals simp

@[simp] theorem State.thawEnable_stampOut (s : State) (m : Nat) : s.sameStamp (s.thawEnable m) := by simp [State.thawEnable]

@[simp] theorem State.carHoldMachine_stampOut (s : State) (m why : Nat) : s.sameStamp (s.carHoldMachine m why) := by
  simp [State.carHoldMachine]

@[simp] theorem State.carAct_stampOut (s : State) (m act why : Nat) (e : Ev) : s.sameStamp (s.carAct m act why e) := by
  simp [State.carAct]

@[simp] theorem State.conform_stampOut (s : State) (m : Nat) (east north hs hc : Rat) (tObs : Nat) :
    s.sameStamp (s.conform m east north hs hc tObs) := by
  simp [State.conform]

/-! ### The stop latch and SAFE_HOLD (R25, R28 to R30, R332 to R358) -/

@[simp] theorem State.settleOuts_stampOut (s : State) : s.sameStamp s.settleOuts := rfl
@[simp] theorem State.stickPad_stampOut (s : State) (outB stopped : Bool) : s.sameStamp (s.stickPad outB stopped) := rfl
@[simp] theorem State.holdBodies_stampOut (s : State) : s.sameStamp s.holdBodies := by simp [State.holdBodies]

@[simp] theorem State.sendFabStop_stampOut (s : State) (stop : Bool) (count : BitVec 16) (scope window : Nat) :
    s.sameStamp (s.sendFabStop stop count scope window) := by
  unfold State.sendFabStop
  split <;> simp

@[simp] theorem State.floodStop_stampOut (s : State) (scope : Nat) : s.sameStamp (s.floodStop scope) := by simp [State.floodStop]
@[simp] theorem State.unflood_stampOut (s : State) : s.sameStamp s.unflood := rfl

@[simp] theorem State.abandonSlot_stampOut (s : State) (p : Nat) (stays : Option Nat) : s.sameStamp (s.abandonSlot p stays) := by
  simp [State.abandonSlot]

@[simp] theorem State.latchPort_stampOut (s : State) (p : Nat) : s.sameStamp (s.latchPort p) := by
  unfold State.latchPort
  repeat' split
  all_goals simp

@[simp] theorem State.beginStorm_stampOut (s : State) : s.sameStamp s.beginStorm := by simp [State.beginStorm]
@[simp] theorem State.restartStorm_stampOut (s : State) : s.sameStamp s.restartStorm := by simp [State.restartStorm]
@[simp] theorem State.holdFrames_stampOut (s : State) : s.sameStamp s.holdFrames := by simp [State.holdFrames]

@[simp] theorem State.latchEffects_stampOut (s : State) (hostCode : Option Nat) (flood : Bool) :
    s.sameStamp (s.latchEffects hostCode flood) := by
  simp [State.latchEffects]

@[simp] theorem State.joinEvent_stampOut (s : State) (src : Nat) (stop : Bool) (hostCode : Option Nat) (flood was : Bool)
    (wasCode : Option Nat) : s.sameStamp (s.joinEvent src stop hostCode flood was wasCode) := by
  simp [State.joinEvent]

@[simp] theorem State.undoRelease_stampOut (s : State) : s.sameStamp s.undoRelease := by
  unfold State.undoRelease
  split <;> simp

@[simp] theorem State.stopRequest_stampOut (s : State) (src : Nat) (stop : Bool) (hostCode : Option Nat) (flood : Bool) :
    s.sameStamp (s.stopRequest src stop hostCode flood) := by
  unfold State.stopRequest
  dsimp only
  repeat' split
  all_goals simp

@[simp] theorem State.lastFlood_stampOut (s : State) : s.sameStamp s.lastFlood := by
  unfold State.lastFlood
  split
  · simp
  · exact .trans (by simp) (State.foldl_stampOut (fun s p => by split <;> simp) ..)

@[simp] theorem State.haltForHold_stampOut (s : State) : s.sameStamp s.haltForHold := by simp [State.haltForHold]
@[simp] theorem State.stopClock_stampOut (s : State) : s.sameStamp s.stopClock := by simp [State.stopClock]
@[simp] theorem State.silenceRadios_stampOut (s : State) : s.sameStamp s.silenceRadios := rfl

@[simp] theorem State.noteRefusal_stampOut (s : State) (reason rule : Nat) : s.sameStamp (s.noteRefusal reason rule) :=
  rfl

@[simp] theorem Undo.restore_stampOut (u : Undo) (s : State) : s.sameStamp (Undo.restore u s) := rfl

@[simp] theorem State.abandonCheck_stampOut (s : State) : s.sameStamp s.abandonCheck := by
  unfold State.abandonCheck
  split <;> simp

@[simp] theorem State.addCause_stampOut (s : State) (cause : Nat) : s.sameStamp (s.addCause cause) := by simp [State.addCause]

@[simp] theorem State.fatal_stampOut (s : State) (cause : Nat) : s.sameStamp (s.fatal cause) := by
  unfold State.fatal
  split <;> simp

/-! ### Resets, power and temperature (R24 to R30, R518 to R525) -/

@[simp] theorem State.moveBoundary_stampOut (s : State) : s.sameStamp s.moveBoundary := by simp [State.moveBoundary]

@[simp] theorem State.seed_stampOut (s : State) : s.sameStamp s.seed := by simp [State.seed]

@[simp] theorem State.leaveReset_stampOut (s : State) (recoveryLow : Bool) : s.sameStamp (s.leaveReset recoveryLow) := by
  simp [State.leaveReset]

theorem execPfailFall_stampOut (now : Timed Nat) (s : State) : reaches (execPfailFall now s) s.sameStamp := by
  refine ⟨_, rfl, ?_⟩
  dsimp only
  repeat' split
  all_goals simp

theorem execPfailClear_stampOut (dt : Nat) (s : State) : reaches (execPfailClear dt s) s.sameStamp := by
  refine ⟨_, rfl, ?_⟩
  dsimp only
  repeat' split
  all_goals simp

theorem execStageSlowFatal_stampOut (dt : Nat) (s : State) : reaches (execStageSlowFatal dt s) s.sameStamp := by
  refine ⟨_, rfl, ?_⟩
  split <;> simp

theorem execDieLinkFail_stampOut (dt : Nat) (s : State) : reaches (execDieLinkFail dt s) s.sameStamp := by
  refine ⟨_, rfl, ?_⟩
  split <;> simp

theorem execSecurityCoreFault_stampOut (dt : Nat) (s : State) : reaches (execSecurityCoreFault dt s) s.sameStamp := by
  refine ⟨_, rfl, ?_⟩
  split <;> simp

/-! ### Boot, update, recovery and migration (R493 to R500) -/

@[simp] theorem State.commitPtr_stampOut (s : State) (p : BootPtr) (run : NvRun) : s.sameStamp (s.commitPtr p run).1 := by
  unfold State.commitPtr
  split <;> next h => simp [(State.bootWrite_stampOut ..).of_eq h]

@[simp] theorem State.noteFail_stampOut (s : State) (n : Nat) : s.sameStamp (s.noteFail n) := rfl

@[simp] theorem State.bootActive_stampOut (s : State) (run : NvRun) : s.sameStamp (s.bootActive run) := by
  unfold State.bootActive
  dsimp only
  split
  · simp
  · split
    · split <;> next h => simp [(State.commitPtr_stampOut ..).of_eq h]
    · simp

@[simp] theorem State.rollback_stampOut (s : State) (run : NvRun) : s.sameStamp (s.rollback run) := by
  unfold State.rollback
  split <;> next h => simp [(State.commitPtr_stampOut ..).of_eq h]

theorem execRomSlotSelect_stampOut (now : Timed NvRun) (s : State) : reaches (execRomSlotSelect now s) s.sameStamp := by
  refine ⟨_, rfl, ?_⟩
  dsimp only
  split
  · simp
  · split
    · simp
    · split
      · simp
      · split
        · next h => simp [(State.commitPtr_stampOut ..).of_eq h]
        · next h => split <;> simp [(State.commitPtr_stampOut ..).of_eq h]

@[simp] theorem migrateSlot_stampOut (acc : State × NvRun × NvEnd) (e : Nat × Migration) :
    acc.1.sameStamp (migrateSlot acc e).1 := by
  unfold migrateSlot
  split
  · split
    · simp
    · split <;> next h => simp [(State.nvWrite_stampOut ..).of_eq h]
  · simp

@[simp] theorem State.applyMigration_stampOut (s : State) (run : NvRun) : s.sameStamp (s.applyMigration run).1 := by
  simp [State.applyMigration]

@[simp] theorem State.endMigration_stampOut (s : State) (run : NvRun) : s.sameStamp (s.endMigration run).1 := by
  unfold State.endMigration
  split <;> next h => simp [(State.commitPtr_stampOut ..).of_eq h]

@[simp] theorem State.finishMigration_stampOut (s : State) (run : NvRun) : s.sameStamp (s.finishMigration run).1 := by
  unfold State.finishMigration
  split
  · next h => simp [(State.applyMigration_stampOut ..).of_eq h]
  · simp

@[simp] theorem State.migrateNow_stampOut (s : State) (run : NvRun) : s.sameStamp (s.migrateNow run).1 := by
  unfold State.migrateNow
  split
  · simp
  · split <;> next h => simp [(State.commitPtr_stampOut ..).of_eq h]

@[simp] theorem State.startKeys_stampOut (s : State) : s.sameStamp s.startKeys := by simp [State.startKeys]
@[simp] theorem State.startCores_stampOut (s : State) : s.sameStamp s.startCores := by simp [State.startCores]

theorem execFirmwareStart_stampOut (now : Timed NvRun) (levels : BitVec 4) (s : State) :
    reaches (execFirmwareStart now levels s) s.sameStamp := by
  refine ⟨_, rfl, ?_⟩
  dsimp only
  split
  · simp
  · split
    · simp
    · split <;> next h => simp [(State.finishMigration_stampOut ..).of_eq h]

@[simp] theorem State.beginUpdate_stampOut (s : State) (h : List Byte) : s.sameStamp (s.beginUpdate h).1 := by
  unfold State.beginUpdate
  dsimp only
  repeat' split
  all_goals simp

@[simp] theorem State.writeUpdate_stampOut (s : State) (u : Update) (b : List Byte) : s.sameStamp (s.writeUpdate u b) := by
  simp [State.writeUpdate]

@[simp] theorem State.writeTable_stampOut (s : State) (u : Update) (run : NvRun) : s.sameStamp (s.writeTable u run).1 := by
  unfold State.writeTable
  dsimp only
  repeat' split
  any_goals simp
  all_goals next h => simp [(State.bootWrite_stampOut ..).of_eq h]

@[simp] theorem State.finishUpdate_stampOut (s : State) (run : NvRun) : s.sameStamp (s.finishUpdate run).1 := by
  unfold State.finishUpdate
  split
  · simp
  · split
    · simp
    · split
      · simp
      · split
        · simp
        · split
          · simp
          · split
            · next hw =>
              split <;> next h => simp [(State.commitPtr_stampOut ..).of_eq h, (State.writeTable_stampOut ..).of_eq hw]
            · next hw => simp [(State.writeTable_stampOut ..).of_eq hw]

@[simp] theorem State.unlessHeld_stampOut {f : State → State} (hf : ∀ s, State.sameStamp s (f s)) (s : State) (d : Desc) :
    s.sameStamp (s.unlessHeld d f) := by
  simp [State.unlessHeld, hf]

@[simp] theorem State.completeNv_stampOut (s : State) (d : Desc) (st : Option Nat) : s.sameStamp (s.completeNv d st) := by
  unfold State.completeNv
  split <;> simp

theorem execBootUpdateBegin_stampOut (dt ring index : Nat) (payload : List Byte) (s : State) :
    reaches (execBootUpdateBegin dt ring index payload s) s.sameStamp := by
  refine ⟨_, rfl, State.withDesc_stampOut (fun s d => State.unlessHeld_stampOut (fun s => ?_) s d) ..⟩
  repeat' split
  any_goals simp
  all_goals next h => simp [(State.beginUpdate_stampOut ..).of_eq h]

theorem execBootUpdateWrite_stampOut (dt ring index : Nat) (payload : List Byte) (s : State) :
    reaches (execBootUpdateWrite dt ring index payload s) s.sameStamp := by
  refine ⟨_, rfl, State.withDesc_stampOut (fun s d => State.unlessHeld_stampOut (fun s => ?_) s d) ..⟩
  repeat' split
  all_goals simp

@[simp] theorem State.confirmPtr_stampOut (s : State) (run : NvRun) : s.sameStamp (s.confirmPtr run).1 := by
  simp [State.confirmPtr]

theorem execBootConfirm_stampOut (dt ring index : Nat) (run : NvRun) (s : State) :
    reaches (execBootConfirm dt ring index run s) s.sameStamp := by
  refine ⟨_, rfl, State.withDesc_stampOut (fun s d => State.unlessHeld_stampOut (fun s => ?_) s d) ..⟩
  split
  · simp
  · split
    · simp
    · split
      · next hm =>
        dsimp only
        split <;> next h => simp [(State.confirmPtr_stampOut ..).of_eq h, (State.migrateNow_stampOut ..).of_eq hm]
      · next hm => simp [(State.migrateNow_stampOut ..).of_eq hm]

theorem execBootPeerServe_stampOut (dt ring index : Nat) (s : State) :
    reaches (execBootPeerServe dt ring index s) s.sameStamp := by
  refine ⟨_, rfl, State.withDesc_stampOut (fun s d => State.unlessHeld_stampOut (fun s => ?_) s d) ..⟩
  dsimp only
  split <;> simp

@[simp] theorem State.recoveryBytes_stampOut (s : State) (b : List Byte) : s.sameStamp (s.recoveryBytes b) := by
  unfold State.recoveryBytes
  dsimp only
  repeat' split
  all_goals simp

theorem execNvmCfgGet_stampOut (dt ring index : Nat) (s : State) : reaches (execNvmCfgGet dt ring index s) s.sameStamp := by
  refine ⟨_, rfl, State.withDesc_stampOut (fun s d => ?_) ..⟩
  repeat' split
  all_goals simp

@[simp] theorem State.userXfer_stampOut {f : State → Desc → Nat → State} (hf : ∀ s d n, State.sameStamp s (f s d n)) (s : State)
    (d : Desc) : s.sameStamp (s.userXfer d f) := by
  simp [State.userXfer, hf]

@[simp] theorem State.putUser_stampOut (s : State) (a : Nat) (b : List Byte) : s.sameStamp (s.putUser a b) := rfl

@[simp] theorem userBlock_stampOut (o : Nat) (b : List Byte) (acc : State × NvRun × NvEnd) (blk : Nat) :
    acc.1.sameStamp (userBlock o b acc blk).1 := by
  unfold userBlock
  dsimp only
  split
  · simp
  · split
    · simp
    · split <;> next h => simp [(State.nvWrite_stampOut ..).of_eq h]

theorem execNvmUserWrite_stampOut (dt ring index : Nat) (payload : List Byte) (run : NvRun) (s : State) :
    reaches (execNvmUserWrite dt ring index payload run s) s.sameStamp := by
  refine ⟨_, rfl, State.withDesc_stampOut (fun s d => State.userXfer_stampOut (fun s d o => ?_) s d) ..⟩
  simp

/-! ### Thread control, waits and posts (R429 to R444) -/

@[simp] theorem State.onCore_stampOut {f : State → Nat → State} (hf : ∀ s n, State.sameStamp s (f s n)) (s : State) (core : Nat) :
    s.sameStamp (s.onCore core f) := by
  unfold State.onCore
  repeat' split
  all_goals simp [hf]

@[simp] theorem State.retire_stampOut (s : State) (t : Nat) : s.sameStamp (s.retire t) := by simp [State.retire]

@[simp] theorem State.retireRd_stampOut (s : State) (t rd : Nat) (v : Word) : s.sameStamp (s.retireRd t rd v) := by
  simp [State.retireRd]

@[simp] theorem State.trap_stampOut (s : State) (core t : Nat) (cause : Word) : s.sameStamp (s.trap core t cause) := by
  simp [State.trap]

@[simp] theorem State.trapIllegal_stampOut (s : State) (core t : Nat) : s.sameStamp (s.trapIllegal core t) := by
  simp [State.trapIllegal]

@[simp] theorem State.machineCsr_stampOut {f : State → State} (hf : ∀ s, State.sameStamp s (f s)) (s : State) (core : Nat) :
    s.sameStamp (s.machineCsr core f) := by
  simp [State.machineCsr, hf]

@[simp] theorem State.select_stampOut (s : State) (core thread : Nat) : s.sameStamp (s.select core thread) := rfl

@[simp] theorem State.onSelected_stampOut {f : State → State} (hf : ∀ s, State.sameStamp s (f s)) (s : State) (core thread : Nat) :
    s.sameStamp (s.onSelected core thread f) := by
  simp [State.onSelected, hf]

@[simp] theorem State.unready_stampOut (s : State) (t : Nat) : s.sameStamp (s.unready t) := by simp [State.unready]
@[simp] theorem State.startThread_stampOut (s : State) (t : Nat) : s.sameStamp (s.startThread t) := by simp [State.startThread]

@[simp] theorem State.suspendThread_stampOut (s : State) (t : Nat) : s.sameStamp (s.suspendThread t) := by
  unfold State.suspendThread
  dsimp only
  repeat' split
  all_goals simp

@[simp] theorem State.resumeThread_stampOut (s : State) (t : Nat) : s.sameStamp (s.resumeThread t) := by
  simp [State.resumeThread]

@[simp] theorem State.killThread_stampOut (s : State) (t : Nat) : s.sameStamp (s.killThread t) := by
  unfold State.killThread
  dsimp only
  repeat' split
  all_goals simp

@[simp] theorem State.yieldTo_stampOut (s : State) (core t : Nat) : s.sameStamp (s.yieldTo core t) := by
  unfold State.yieldTo
  split <;> simp

@[simp] theorem State.dcfgWrite_stampOut (s : State) (t : Nat) (v : Word) : s.sameStamp (s.dcfgWrite t v) := by
  unfold State.dcfgWrite
  dsimp only
  repeat' split
  all_goals simp

@[simp] theorem State.dcacheInv_stampOut (s : State) (core : Nat) : s.sameStamp (s.dcacheInv core) := rfl

@[simp] theorem State.waitOn_stampOut (s : State) (core t rd : Nat) (mask : Word) (all : Bool) :
    s.sameStamp (s.waitOn core t rd mask all) := by
  simp [State.waitOn]

@[simp] theorem State.softPost_stampOut (s : State) (t : Nat) (value : Word) : s.sameStamp (s.softPost t value) := by
  simp [State.softPost]

@[simp] theorem State.yieldThread_stampOut (s : State) (core t : Nat) : s.sameStamp (s.yieldThread core t) := by
  unfold State.yieldThread
  repeat' split
  all_goals simp

@[simp] theorem State.kick_stampOut (s : State) (t k : Nat) : s.sameStamp (s.kick t k) := by simp [State.kick]

@[simp] theorem State.clearFlags_stampOut (s : State) (t : Nat) (mask : Word) : s.sameStamp (s.clearFlags t mask) := by
  simp [State.clearFlags]

@[simp] theorem State.tableXfer_stampOut {f : State → Desc → Nat → Nat → State} (hf : ∀ s d n k, State.sameStamp s (f s d n k))
    (s : State) (d : Desc) (size w first count : Nat) : s.sameStamp (s.tableXfer d size w first count f) := by
  simp [State.tableXfer, hf]

@[simp] theorem State.routeXfer_stampOut {f : State → Desc → Nat → Nat → State} (hf : ∀ s d n k, State.sameStamp s (f s d n k))
    (s : State) (d : Desc) : s.sameStamp (s.routeXfer d f) := by
  simp [State.routeXfer, hf]

/-! ### Caravan Engine commands (R282 to R296) -/

@[simp] theorem State.serveReq_stampOut (s : State) : s.sameStamp s.serveReq := by
  unfold State.serveReq
  split <;> simp

@[simp] theorem State.toHostQueue_stampOut (s : State) (r : Req) : s.sameStamp (s.toHostQueue r) := by simp [State.toHostQueue]

theorem execCarRequestDecide_stampOut (dt us : Nat) (s : State) : reaches (execCarRequestDecide dt us s) s.sameStamp := by
  unfold execCarRequestDecide
  dsimp only
  refine ⟨_, rfl, ?_⟩
  split
  · simp
  · split
    · simp
    · split <;> next h => simp [(State.carDecide_stampOut ..).of_eq h]

theorem execCarHostTimeout_stampOut (dt : Nat) (s : State) : reaches (execCarHostTimeout dt s) s.sameStamp := by
  refine ⟨_, rfl, ?_⟩
  repeat' split
  all_goals simp

@[simp] theorem State.withCar_stampOut {f : State → Desc → State} (hf : ∀ s d, State.sameStamp s (f s d)) (s : State)
    (ring index op : Nat) (variant : Desc → Bool) (dram : Bool) : s.sameStamp (s.withCar ring index op variant dram f) := by
  refine State.withDesc_stampOut (fun s d => ?_) ..
  split <;> simp [hf]

@[simp] theorem State.loadTracks_stampOut (s : State) (k : Nat) (l : List (List Byte)) : s.sameStamp (s.loadTracks k l).1 := by
  induction l generalizing s k with
  | nil => simp [State.loadTracks]
  | cons b r ih =>
    unfold State.loadTracks
    dsimp only
    split <;> simp [ih]

theorem execCarTrackRead_stampOut (dt ring index : Nat) (s : State) :
    reaches (execCarTrackRead dt ring index s) s.sameStamp := by
  refine ⟨_, rfl, State.withDesc_stampOut (fun s d => ?_) ..⟩
  split
  · simp
  · exact State.withCar_stampOut (fun s d => State.tableXfer_stampOut (fun s d f c => by simp) s d ..) ..

@[simp] theorem State.carReserve_stampOut (s : State) (d : Desc) (payload : List Byte) :
    s.sameStamp (s.carReserve d payload) := by
  simp [State.carReserve]

@[simp] theorem State.carReqGet_stampOut (s : State) (d : Desc) : s.sameStamp (s.carReqGet d) := by simp [State.carReqGet]
@[simp] theorem State.carRelease_stampOut (s : State) (d : Desc) : s.sameStamp (s.carRelease d) := by simp [State.carRelease]
@[simp] theorem State.carResume_stampOut (s : State) (d : Desc) : s.sameStamp (s.carResume d) := by simp [State.carResume]

/-! ### Rover observations (R203 to R206) -/

@[simp] theorem State.abandonEpoch_stampOut (s : State) (m n reason : Nat) : s.sameStamp (s.abandonEpoch m n reason) := by
  simp [State.abandonEpoch]

@[simp] theorem State.completeEpoch_stampOut (s : State) (m : Nat) (a : Assembly) : s.sameStamp (s.completeEpoch m a) := by
  unfold State.completeEpoch
  repeat' split
  all_goals simp

@[simp] theorem State.holdFragment_stampOut (s : State) (m : Nat) (a : Assembly) (i : Nat) (data : List Byte) :
    s.sameStamp (s.holdFragment m a i data) := by
  simp [State.holdFragment]

@[simp] theorem State.takeFragment_stampOut (s : State) (m : Nat) (b : List Byte) : s.sameStamp (s.takeFragment m b) := by
  unfold State.takeFragment
  repeat' split
  all_goals simp

/-! ### GNSS channels and epochs (R154 to R167) -/

@[simp] theorem State.modChan_stampOut (s : State) (c : Nat) (f : Chan → Chan) : s.sameStamp (s.modChan c f) := by
  simp [State.modChan]

@[simp] theorem State.startChan_stampOut (s : State) (c code svid : Nat) (slot : Int) (cfg : LoopCfg) (phase doppler : Rat) :
    s.sameStamp (s.startChan c code svid slot cfg phase doppler) := by
  simp [State.startChan]

@[simp] theorem State.startDefault_stampOut (s : State) (c code svid : Nat) (slot : Int) (phase doppler : Rat) :
    s.sameStamp (s.startDefault c code svid slot phase doppler) := by
  simp [State.startDefault]

@[simp] theorem State.learnLeap_stampOut (s : State) (l : Nat) : s.sameStamp (s.learnLeap l) := by simp [State.learnLeap]

@[simp] theorem State.loopUpdate_stampOut (s : State) (k : Nat) (x : LoopIn) : s.sameStamp (s.loopUpdate k x) := by
  unfold State.loopUpdate
  repeat' split
  all_goals simp

/-! ### The Mirage Monitor's checks and levels (R168 to R192) -/

@[simp] theorem State.riseTo_stampOut (s : State) (n : Nat) : s.sameStamp (s.riseTo n) := by simp [State.riseTo]

@[simp] theorem State.mirSettleTo_stampOut (s : State) (cap : Nat) : s.sameStamp (s.mirSettleTo cap) := by
  simp [State.mirSettleTo]

@[simp] theorem State.mirSettle_stampOut (s : State) : s.sameStamp s.mirSettle := by simp [State.mirSettle]

@[simp] theorem State.evalCond_stampOut {ev : State → State} (hev : ∀ s, State.sameStamp s (ev s)) (s : State) (check key : Nat)
    (holds : Bool) (systems signals : List Nat) (level : Nat) :
    s.sameStamp (s.evalCond check key holds systems signals level ev) := by
  unfold State.evalCond
  dsimp only
  repeat' split
  all_goals simp [hev]

@[simp] theorem State.dropDisabled_stampOut (s : State) : s.sameStamp s.dropDisabled := rfl

@[simp] theorem State.checkUniform_stampOut (s : State) (a : List Entry) (x : MeasIn) (fe : Nat) :
    s.sameStamp (s.checkUniform a x fe) := by
  simp [State.checkUniform]

@[simp] theorem State.checkAgc_stampOut (s : State) (a : List Entry) (fe : Nat) : s.sameStamp (s.checkAgc a fe) := by
  simp [State.checkAgc]

@[simp] theorem State.learnAgc_stampOut (s : State) (l : List Entry) (fe : Nat) : s.sameStamp (s.learnAgc l fe) := by
  simp [State.learnAgc]

@[simp] theorem State.checkCarrier_stampOut (s : State) (tr : Nat) (e : Entry) : s.sameStamp (s.checkCarrier tr e) := by
  unfold State.checkCarrier
  dsimp only
  repeat' split
  all_goals simp

@[simp] theorem State.checkTwoAnt_stampOut (s : State) (a b : List Entry) : s.sameStamp (s.checkTwoAnt a b) := by
  simp [State.checkTwoAnt]

@[simp] theorem State.checkClock_stampOut (s : State) (e : Option Rat) : s.sameStamp (s.checkClock e) := by
  simp [State.checkClock]

@[simp] theorem State.checkIsys_stampOut (s : State) (bcast : List (Nat × Int)) : s.sameStamp (s.checkIsys bcast) := by
  simp [State.checkIsys]

@[simp] theorem State.keepSecond_stampOut (s : State) (a : List Entry) (x : MeasIn) (spot : Option (Int × Int × Int)) :
    s.sameStamp (s.keepSecond a x spot) :=
  rfl

@[simp] theorem State.checkBase_stampOut (s : State) (a : List Entry) (x : MeasIn) (spot : Option (Int × Int × Int)) :
    s.sameStamp (s.checkBase a x spot) := by
  simp [State.checkBase]

@[simp] theorem State.checkFde_stampOut (s : State) (a : List Entry) (x : MeasIn) : s.sameStamp (s.checkFde a x) := by
  simp [State.checkFde]

@[simp] theorem State.mirRecord_stampOut (s : State) (tr : Nat) (a b : List Entry) (both second : Bool) (solved : Bool)
    (e : Option Rat) (x : MeasIn) : s.sameStamp (s.mirRecord tr a b both second solved e x) := by
  simp [State.mirRecord]

@[simp] theorem State.checkRover_stampOut (s : State) (m tObs status : Nat) (east north : Int) :
    s.sameStamp (s.checkRover m tObs status east north) := by
  unfold State.checkRover
  repeat' split
  all_goals simp

/-! ### PTP (R89 to R91) -/

@[simp] theorem State.runBmca_stampOut (s : State) : s.sameStamp s.runBmca := by simp [State.runBmca]

@[simp] theorem State.setNbrOffset_stampOut (s : State) (p : Nat) (off : Int) : s.sameStamp (s.setNbrOffset p off) := by
  simp [State.setNbrOffset]

@[simp] theorem State.sendPtp_stampOut (s : State) (p : Nat) (m : List Byte) : s.sameStamp (s.sendPtp p m) := by
  simp [State.sendPtp]

@[simp] theorem State.timeSent_stampOut (s : State) (p : Nat) (f : List Byte) : s.sameStamp (s.timeSent p f) := by
  simp [State.timeSent]

@[simp] theorem State.dequeueFrame_stampOut (s : State) (p : Nat) : s.sameStamp (s.dequeueFrame p) := by
  unfold State.dequeueFrame
  dsimp only
  repeat' split
  all_goals simp

@[simp] theorem State.takeAnnounce_stampOut (s : State) (p : Nat) (m : List Byte) : s.sameStamp (s.takeAnnounce p m) := by
  simp [State.takeAnnounce]

@[simp] theorem State.takeFollowUp_stampOut (s : State) (p : Nat) (m : List Byte) : s.sameStamp (s.takeFollowUp p m) := by
  unfold State.takeFollowUp
  split <;> simp

@[simp] theorem State.takePdelay_stampOut (s : State) (p : Nat) (m : List Byte) (phase : Nat) :
    s.sameStamp (s.takePdelay p m phase) := by
  unfold State.takePdelay
  repeat' split
  all_goals simp

@[simp] theorem State.ptpReceive_stampOut (s : State) (p : Nat) (m : List Byte) (phase : Nat) :
    s.sameStamp (s.ptpReceive p m phase) := by
  simp [State.ptpReceive]

@[simp] theorem State.ptpSend_stampOut (s : State) (p kind : Nat) : s.sameStamp (s.ptpSend p kind) := by
  unfold State.ptpSend
  split <;> simp

/-! ### Fabric Interface commands (R389 to R426) -/

@[simp] theorem State.serveRtcm_stampOut (s : State) (source epoch peer : Nat) (frames : List (List Byte)) :
    s.sameStamp (s.serveRtcm source epoch peer frames) := by
  unfold State.serveRtcm
  split <;> simp

@[simp] theorem State.takeCorrection_stampOut (s : State) (f : List Byte) : s.sameStamp (s.takeCorrection f) := by
  simp [State.takeCorrection]

@[simp] theorem State.takeMachineMsg_stampOut (s : State) (p : Nat) (f : List Byte) : s.sameStamp (s.takeMachineMsg p f) := by
  unfold State.takeMachineMsg
  dsimp only
  split
  · simp
  · split
    · split
      · simp
      · next m _ _ =>
        cases h : s.queueMessage m (s.machLink m).port ((frBody f).drop 20) none with
        | none => simp
        | some t => simp [State.queueMessage_stampOut h]
    · simp

@[simp] theorem State.takeStop_stampOut (s : State) (p : Nat) (f : List Byte) (relay : Bool) :
    s.sameStamp (s.takeStop p f relay) := by
  simp [State.takeStop]

@[simp] theorem State.takeRecovery_stampOut (s : State) (p : Nat) (f : List Byte) : s.sameStamp (s.takeRecovery p f) := by
  simp [State.takeRecovery]

@[simp] theorem State.deliverFrame_stampOut (s : State) (p : Nat) (f : List Byte) : s.sameStamp (s.deliverFrame p f) := by
  unfold State.deliverFrame
  split <;> simp

@[simp] theorem State.takeFlood_stampOut (s : State) (p : Nat) (f : List Byte) : s.sameStamp (s.takeFlood p f) := by
  unfold State.takeFlood
  split <;> simp

@[simp] theorem State.forwardFrame_stampOut (s : State) (p : Nat) (f : List Byte) : s.sameStamp (s.forwardFrame p f) := by
  unfold State.forwardFrame
  repeat' split
  all_goals simp

@[simp] theorem State.handleFrame_stampOut (s : State) (p : Nat) (f : List Byte) : s.sameStamp (s.handleFrame p f) := by
  simp [State.handleFrame]

@[simp] theorem State.meetLoop_stampOut (s : State) (f : List Byte) : s.sameStamp (s.meetLoop f) := by
  unfold State.meetLoop
  repeat' split
  all_goals simp

@[simp] theorem State.receiveFrame_stampOut (s : State) (p : Nat) (f : List Byte) : s.sameStamp (s.receiveFrame p f) := by
  simp [State.receiveFrame]

@[simp] theorem State.receiveIf_stampOut (s : State) (p : Nat) (f : List Byte) (is : Bool) :
    s.sameStamp (s.receiveIf p f is) := by
  simp [State.receiveIf]

theorem execFabLinkTimeout_stampOut (dt port : Nat) (s : State) : reaches (execFabLinkTimeout dt port s) s.sameStamp := by
  refine ⟨_, rfl, ?_⟩
  repeat' split
  all_goals simp

theorem execFabPcsLoss_stampOut (dt port : Nat) (hiBer : Bool) (s : State) :
    reaches (execFabPcsLoss dt port hiBer s) s.sameStamp := by
  refine ⟨_, rfl, ?_⟩
  split <;> simp

theorem execFabBlockLock_stampOut (dt port : Nat) (s : State) : reaches (execFabBlockLock dt port s) s.sameStamp := by
  refine ⟨_, rfl, ?_⟩
  split <;> simp

theorem execFabModuleChange_stampOut (dt port : Nat) (present los : Bool) (s : State) :
    reaches (execFabModuleChange dt port present los s) s.sameStamp := by
  refine ⟨_, rfl, ?_⟩
  split <;> simp

theorem execFabLsaExpire_stampOut (dt : Nat) (s : State) : reaches (execFabLsaExpire dt s) s.sameStamp := by
  refine ⟨_, rfl, ?_⟩
  split <;> simp

theorem execFabSpfRun_stampOut (dt : Nat) (s : State) : reaches (execFabSpfRun dt s) s.sameStamp := by
  refine ⟨_, rfl, ?_⟩
  split <;> simp

@[simp] theorem State.serveRepeat_stampOut (s : State) (r : StopRepeat) : s.sameStamp (s.serveRepeat r).1 := by
  unfold State.serveRepeat
  split <;> simp

@[simp] theorem State.deliverOwn_stampOut (s : State) (cls type : Nat) (body : List Byte) (hops : Nat) :
    s.sameStamp (s.deliverOwn cls type body hops) := by
  simp [State.deliverOwn]

@[simp] theorem State.fabSend_stampOut (s : State) (d : Desc) (payload : List Byte) : s.sameStamp (s.fabSend d payload) := by
  unfold State.fabSend
  extract_lets c cls relay hops n t d hops' most data type m srcEui dest
  have ht : s.sameStamp t := State.countClamps_stampOut ..
  split
  · simp [ht]
  · split
    · simp [ht]
    · split
      · simp [ht]
      · split
        · simp [ht]
        · split
          next u home h =>
          have hu : s.sameStamp u := .of_eq (by split <;> simp [ht]) h
          split
          · simp [hu]
          · extract_lets mseq body noteMseq
            have hn (s : State) : s.sameStamp (noteMseq s) := by simp [noteMseq]
            split
            · simp [hn, hu]
            · split
              · simp [hu]
              · split
                · simp [hu]
                · split
                  next hv =>
                  split <;> next hw =>
                    simp [hn, (State.enqueueFrame_stampOut ..).of_eq hw, (State.nextSeq_stampOut ..).of_eq hv, hu]

@[simp] theorem State.waitAtMost_stampOut (s : State) (d : Desc) (most : Nat) (p : Desc → Bool) :
    s.sameStamp (s.waitAtMost d most p) := by
  simp [State.waitAtMost]

theorem execFabRecv_stampOut (dt ring index : Nat) (s : State) : reaches (execFabRecv dt ring index s) s.sameStamp :=
  ⟨_, rfl, State.withDesc_stampOut (fun s d => by split <;> simp) ..⟩

@[simp] theorem State.fabLearn_stampOut {f : State → Desc → State} (hf : ∀ s d, State.sameStamp s (f s d)) (s : State) (d : Desc) :
    s.sameStamp (s.fabLearn d f) := by
  unfold State.fabLearn
  split <;> simp [hf]

@[simp] theorem State.learnInsertOp_stampOut (s : State) (d : Desc) : s.sameStamp (s.learnInsertOp d) := by
  unfold State.learnInsertOp
  dsimp only
  repeat' split
  all_goals simp

theorem execFabLearnRemove_stampOut (dt ring index : Nat) (s : State) :
    reaches (execFabLearnRemove dt ring index s) s.sameStamp :=
  ⟨_, rfl, State.withDesc_stampOut (fun s d => State.fabLearn_stampOut (fun s d => by split <;> simp) s d) ..⟩

theorem execFabLearnLookup_stampOut (dt ring index : Nat) (s : State) :
    reaches (execFabLearnLookup dt ring index s) s.sameStamp := by
  refine ⟨_, rfl, State.withDesc_stampOut (fun s d => State.fabLearn_stampOut (fun s d => ?_) s d) ..⟩
  dsimp only
  split <;> next h => simp [(State.learnLookup_stampOut ..).of_eq h]

theorem execFabLearnEvent_stampOut (dt ring index : Nat) (s : State) :
    reaches (execFabLearnEvent dt ring index s) s.sameStamp :=
  ⟨_, rfl, State.withDesc_stampOut (fun s d => by split <;> simp) ..⟩

@[simp] theorem State.fabModule_stampOut {f : State → Desc → Nat → Nat → State} (hf : ∀ s d n k, State.sameStamp s (f s d n k))
    (s : State) (d : Desc) : s.sameStamp (s.fabModule d f) := by
  unfold State.fabModule
  dsimp only
  repeat' split
  all_goals simp [hf]

theorem execFabModuleWrite_stampOut (dt ring index : Nat) (payload : List Byte) (acked : Nat) (s : State) :
    reaches (execFabModuleWrite dt ring index payload acked s) s.sameStamp := by
  refine ⟨_, rfl, State.withDesc_stampOut (fun s d => ?_) ..⟩
  split <;> simp

/-! ### RTCM messages and their queues (R195 to R201) -/

@[simp] theorem State.keepShifts_stampOut (s : State) (l : List Entry) : s.sameStamp (s.keepShifts l) := rfl
@[simp] theorem State.countStale_stampOut (s : State) (n : Nat) : s.sameStamp (s.countStale n) := by simp [State.countStale]

@[simp] theorem State.queueRadio_stampOut (s : State) (p tr : Nat) (frames : List (List Byte)) :
    s.sameStamp (s.queueRadio p tr frames) := by
  simp [State.queueRadio]

@[simp] theorem State.sendFabCorr_stampOut (s : State) (frames : List (List Byte)) : s.sameStamp (s.sendFabCorr frames) := by
  simp [State.sendFabCorr]

@[simp] theorem State.fixMissed_stampOut (s : State) (tr : Nat) : s.sameStamp (s.fixMissed tr) := by simp [State.fixMissed]
@[simp] theorem State.fixRecord_stampOut (s : State) (r : MeasRec) : s.sameStamp (s.fixRecord r) := by simp [State.fixRecord]

/-! ### GNSS Receiver commands (R141 to R167) -/

@[simp] theorem State.noteClamps_stampOut (s : State) (d : Desc) (n : Nat) : s.sameStamp (s.noteClamps d n).1 := by
  simp [State.noteClamps]

theorem execGnsCapture_stampOut (dt ring index : Nat) (s : State) :
    reaches (execGnsCapture dt ring index s) s.sameStamp :=
  ⟨_, rfl, State.withDesc_stampOut (fun s d => by split <;> simp) ..⟩

theorem execGnsCaptureDone_stampOut (dt ring index : Nat) (i q : List (BitVec 4)) (s : State) :
    reaches (execGnsCaptureDone dt ring index i q s) s.sameStamp := by
  refine ⟨_, rfl, ?_⟩
  repeat' split
  all_goals simp

theorem execGnsAcq_stampOut (dt ring index : Nat) (s : State) : reaches (execGnsAcq dt ring index s) s.sameStamp :=
  ⟨_, rfl, State.withDesc_stampOut (fun s d => by split <;> simp) ..⟩

@[simp] theorem State.nextSearch_stampOut (s : State) : s.sameStamp s.nextSearch := rfl

@[simp] theorem State.acqEnd_stampOut (s : State) (d : Desc) (r : AcqReq) (best : Option (Nat × Int × Rat)) (used : Nat) :
    s.sameStamp (s.acqEnd d r best used) := by
  unfold State.acqEnd
  split <;> simp

@[simp] theorem State.autoStart_stampOut (s : State) (k code svid : Nat) (slot : Int) (cell : Nat) (offset : Int) :
    s.sameStamp (s.autoStart k code svid slot cell offset) := by
  simp [State.autoStart]

theorem execGnsAcqDone_stampOut (dt : Nat) (search : AcqEnd) (s : State) :
    reaches (execGnsAcqDone dt search s) s.sameStamp := by
  refine ⟨_, rfl, ?_⟩
  dsimp only
  split
  · simp
  · cases search with
    | host ring index dwells =>
      dsimp only
      split
      · split
        · split <;> simp
        · simp
      · simp
    | auto antenna code svid slot cell offset =>
      dsimp only
      split
      · simp
      · split <;> simp

@[simp] theorem State.chanCfg_stampOut {f : State → Desc → Nat → State} (hf : ∀ s d n, State.sameStamp s (f s d n)) (s : State)
    (d : Desc) : s.sameStamp (s.chanCfg d f) := by
  unfold State.chanCfg
  split <;> simp [hf]

@[simp] theorem State.chanGone_stampOut (s : State) (chan : Nat) (config : Bool) : s.sameStamp (s.chanGone chan config) := by
  simp [State.chanGone]

@[simp] theorem State.setGains_stampOut (s : State) (fe : Nat) (gains : List Nat) : s.sameStamp (s.setGains fe gains) :=
  rfl

@[simp] theorem State.writeMeas_stampOut (s : State) (r : MeasRec) : s.sameStamp (s.writeMeas r) := by simp [State.writeMeas]

@[simp] theorem State.solveTime_stampOut (s : State) (a : List Entry) (x : MeasIn) : s.sameStamp (s.solveTime a x).1 := by
  unfold State.solveTime
  split <;> simp

@[simp] theorem State.surveySecond_stampOut (s : State) (spp : Option (Int × Int × Int)) : s.sameStamp (s.surveySecond spp) := by
  simp [State.surveySecond]

@[simp] theorem State.deliver_stampOut (s : State) (l : Latch) (x : MeasIn) : s.sameStamp (s.deliver l x) := by
  unfold State.deliver
  extract_lets both ra rb gns s1 s2 s3 s4 second
  have h4 : s.sameStamp s4 := by simp [s4, s3, s2, s1]
  split
  next u sol h =>
  have hu : s.sameStamp u := .of_eq (by split <;> simp [h4]) h
  extract_lets e jumped u1 u2 u3 u4 u5
  have h2 : s.sameStamp u2 := by
    simp only [u2]
    split <;> simp [u1, hu]
  simp [u5, u4, u3, h2]

theorem execGnsMeasReady_stampOut (dt : Nat) (input : MeasIn) (s : State) :
    reaches (execGnsMeasReady dt input s) s.sameStamp := by
  refine ⟨_, rfl, ?_⟩
  split <;> simp

/-! ### Hop Sequencer commands (R224 to R267) -/

@[simp] theorem State.listenIn_stampOut (s : State) (p asn i : Nat) (l : Option Listen) (a b : Nat) :
    s.sameStamp (s.listenIn p asn i l a b) := by
  simp [State.listenIn]

@[simp] theorem State.enterSlot_stampOut (s : State) (p asn i : Nat) : s.sameStamp (s.enterSlot p asn i) := by
  simp [State.enterSlot]

@[simp] theorem State.linkLost_stampOut (s : State) (m : Nat) : s.sameStamp (s.linkLost m) := by simp [State.linkLost]

@[simp] theorem State.finishSlot_stampOut (s : State) (p : Nat) : s.sameStamp (s.finishSlot p) := by
  unfold State.finishSlot
  repeat' split
  all_goals simp

@[simp] theorem State.acceptMachine_stampOut (s : State) (p m : Nat) (rejoin : Bool) :
    s.sameStamp (s.acceptMachine p m rejoin) := by
  unfold State.acceptMachine
  dsimp only
  repeat' split
  all_goals simp

@[simp] theorem State.makeJoin_stampOut (s : State) (p eui : Nat) (nonce : List Byte) (flags asn tx : Nat) :
    s.sameStamp (s.makeJoin p eui nonce flags asn tx).1 := by
  unfold State.makeJoin
  dsimp only
  repeat' split
  all_goals simp

@[simp] theorem State.sendAck_stampOut (s : State) (p ch asn nominal mode room k : Nat) :
    s.sameStamp (s.sendAck p ch asn nominal mode room k).1 := by
  unfold State.sendAck
  split
  · simp
  · dsimp only
    split
    · next h => simp [(State.sendSealed_stampOut ..).of_eq h]
    · next h => split <;> simp [(State.sendSealed_stampOut ..).of_eq h]

@[simp] theorem State.sendAnswer_stampOut (s : State) (p ch asn i : Nat) (a : Answer) :
    s.sameStamp (s.sendAnswer p ch asn i a) := by
  unfold State.sendAnswer
  extract_lets nominal mode cap set
  have hset (s : State) (v : Option Answer) : s.sameStamp (set s v) := by simp [set]
  split
  · split <;> next h => simp [hset, (State.sendAck_stampOut ..).of_eq h]
  · split
    next _ u made hp =>
    have hu : s.sameStamp u := .of_eq (by split <;> simp) hp
    split
    · extract_lets seg n part
      split
      · next h => simp [hset, (State.sendSealed_stampOut ..).of_eq h, hu]
      · next h =>
        extract_lets v
        have hv : s.sameStamp v := by
          simp only [v]
          split <;> simp [(State.sendSealed_stampOut ..).of_eq h, hu]
        simp [hset, hv]
    · simp [hset, hu]

@[simp] theorem State.sendCorrection_stampOut (s : State) (p ch asn i : Nat) : s.sameStamp (s.sendCorrection p ch asn i) := by
  unfold State.sendCorrection
  dsimp only
  split
  · simp
  · split
    · simp
    · split <;> next h => simp [(State.sendSealed_stampOut ..).of_eq h]

@[simp] theorem State.sendDownlink_stampOut (s : State) (p ch asn i : Nat) : s.sameStamp (s.sendDownlink p ch asn i) := by
  unfold State.sendDownlink
  dsimp only
  split
  · simp
  · split
    · simp
    · split <;> next h => simp [(State.sendSealed_stampOut ..).of_eq h]

@[simp] theorem State.openPoll_stampOut (s : State) (p asn i sf : Nat) : s.sameStamp (s.openPoll p asn i sf) := by
  unfold State.openPoll
  dsimp only
  repeat' split
  all_goals simp

@[simp] theorem State.openShared_stampOut (s : State) (p asn i : Nat) : s.sameStamp (s.openShared p asn i) := by
  simp [State.openShared]

@[simp] theorem State.stormSlot_stampOut (s : State) (p asn i sf ch : Nat) : s.sameStamp (s.stormSlot p asn i sf ch) := by
  unfold State.stormSlot
  repeat' split
  all_goals simp

@[simp] theorem State.ackInSpan_stampOut (s : State) (p asn i k : Nat) : s.sameStamp (s.ackInSpan p asn i k) := by
  simp [State.ackInSpan]

@[simp] theorem State.plainSlot_stampOut (s : State) (p asn i sf ch : Nat) : s.sameStamp (s.plainSlot p asn i sf ch) := by
  unfold State.plainSlot
  dsimp only
  repeat' split
  all_goals simp

@[simp] theorem State.heardFrame_stampOut (s : State) (p rssi : Nat) (good : Bool) : s.sameStamp (s.heardFrame p rssi good) := by
  simp [State.heardFrame]

@[simp] theorem State.badFrame_stampOut (s : State) (p : Nat) : s.sameStamp (s.badFrame p) := by simp [State.badFrame]

@[simp] theorem State.ownSolution_stampOut (s : State) (m : Nat) (b : List Byte) : s.sameStamp (s.ownSolution m b) := by
  simp [State.ownSolution]

@[simp] theorem State.takeFeedback_stampOut (s : State) (m : Nat) (b : List Byte) : s.sameStamp (s.takeFeedback m b) := by
  simp [State.takeFeedback]

@[simp] theorem State.deliverBlock_stampOut (s : State) (p m asn frag type : Nat) (b : List Byte) :
    s.sameStamp (s.deliverBlock p m asn frag type b) := by
  unfold State.deliverBlock
  split <;> simp

@[simp] theorem State.takeUplink_stampOut (s : State) (p m rssi : Nat) (c : CurSlot) (f : List Byte) :
    s.sameStamp (s.takeUplink p m rssi c f) := by
  unfold State.takeUplink
  repeat' split
  all_goals simp

@[simp] theorem State.takeJoin_stampOut (s : State) (p rssi : Nat) (c : CurSlot) (f : List Byte) :
    s.sameStamp (s.takeJoin p rssi c f) := by
  unfold State.takeJoin
  dsimp only
  repeat' split
  all_goals simp

@[simp] theorem State.pollSeen_stampOut (s : State) (k sf : Nat) (shared : Bool) : s.sameStamp (s.pollSeen k sf shared) := by
  simp [State.pollSeen]

@[simp] theorem State.takePoll_stampOut (s : State) (p k rssi : Nat) (c : CurSlot) (shared : Bool) (f : List Byte) :
    s.sameStamp (s.takePoll p k rssi c shared f) := by
  unfold State.takePoll
  repeat' split
  all_goals simp

@[simp] theorem State.takePendant_stampOut (s : State) (p rssi : Nat) (c : CurSlot) (f : List Byte) :
    s.sameStamp (s.takePendant p rssi c f) := by
  unfold State.takePendant
  dsimp only
  repeat' split
  all_goals simp

@[simp] theorem State.takeFrame_stampOut (s : State) (p rssi : Nat) (c : CurSlot) (f : List Byte) :
    s.sameStamp (s.takeFrame p rssi c f) := by
  unfold State.takeFrame
  repeat' split
  all_goals simp

@[simp] theorem State.radioReceive_stampOut (s : State) (p time rssi : Nat) (f : List Byte) :
    s.sameStamp (s.radioReceive p time rssi f) := by
  unfold State.radioReceive
  split <;> simp

@[simp] theorem State.deliverGot_stampOut (s : State) (p : Nat) : s.sameStamp (s.deliverGot p) := by
  unfold State.deliverGot
  repeat' split
  all_goals simp

@[simp] theorem State.endSlot_stampOut (s : State) (p : Nat) : s.sameStamp (s.endSlot p) := by simp [State.endSlot]
@[simp] theorem State.slotStart_stampOut (s : State) (p : Nat) : s.sameStamp (s.slotStart p) := by simp [State.slotStart]

@[simp] theorem State.applyTable_stampOut (s : State) (p : Nat) : s.sameStamp (s.applyTable p) := by
  unfold State.applyTable
  split <;> simp

@[simp] theorem State.portBoundary_stampOut (s : State) (p : Nat) : s.sameStamp (s.portBoundary p) := by
  simp [State.portBoundary]

@[simp] theorem State.expireCommands_stampOut (s : State) : s.sameStamp s.expireCommands := by simp [State.expireCommands]
@[simp] theorem State.supervise_stampOut (s : State) (n : Nat) : s.sameStamp (s.supervise n) := by simp [State.supervise]
@[simp] theorem State.boundary_stampOut (s : State) : s.sameStamp s.boundary := by simp [State.boundary]

@[simp] theorem State.discardDl_stampOut (s : State) (k : Nat) : s.sameStamp (s.discardDl k) := by
  unfold State.discardDl
  extract_lets mine n t
  have ht : s.sameStamp t := State.foldl_stampOut (fun s b => by dsimp only; split <;> simp) ..
  simp [ht]

@[simp] theorem State.hopSend_stampOut (s : State) (d : Desc) (payload : List Byte) : s.sameStamp (s.hopSend d payload) := by
  unfold State.hopSend
  dsimp only
  repeat' split
  any_goals simp
  all_goals next h => simp [State.queueMessage_stampOut h]

theorem execHopRecv_stampOut (dt ring index : Nat) (s : State) : reaches (execHopRecv dt ring index s) s.sameStamp :=
  ⟨_, rfl, State.withDesc_stampOut (fun s d => by split <;> simp) ..⟩

/-! ### Mirage Monitor commands (R168 to R192) -/

theorem execMirConditionClear_stampOut (dt check key : Nat) (s : State) :
    reaches (execMirConditionClear dt check key s) s.sameStamp := by
  refine ⟨_, rfl, ?_⟩
  repeat' split
  all_goals simp

@[simp] theorem State.clearMirage_stampOut (s : State) : s.sameStamp s.clearMirage := by simp [State.clearMirage]
@[simp] theorem State.restartBase_stampOut (s : State) : s.sameStamp s.restartBase := rfl

/-! ### Timebase commands (R67 to R105) -/

@[simp] theorem State.dropAnnounce_stampOut (s : State) (p : Nat) : s.sameStamp (s.dropAnnounce p) := by
  simp [State.dropAnnounce]

theorem execTbSourceLost_stampOut (dt src : Nat) (s : State) : reaches (execTbSourceLost dt src s) s.sameStamp := by
  refine ⟨_, rfl, ?_⟩
  repeat' split
  all_goals simp

@[simp] theorem State.ppsEdge_stampOut (s : State) (k : Nat) : s.sameStamp (s.ppsEdge k) := by simp [State.ppsEdge]

@[simp] theorem State.ppsSettle_stampOut (s : State) (wasOn : Bool) : s.sameStamp (s.ppsSettle wasOn) := by
  simp [State.ppsSettle]

@[simp] theorem State.syncCalendar_stampOut (s : State) : s.sameStamp s.syncCalendar := by simp [State.syncCalendar]

theorem execPpsOutPulseEnd_stampOut (dt : Nat) (s : State) : reaches (execPpsOutPulseEnd dt s) s.sameStamp := by
  refine ⟨_, rfl, ?_⟩
  repeat' split
  all_goals simp

@[simp] theorem State.ppsAfterStep_stampOut (s : State) : s.sameStamp s.ppsAfterStep := by simp [State.ppsAfterStep]
@[simp] theorem State.applyStep_stampOut (s : State) (p : StepPending) : s.sameStamp (s.applyStep p) := by simp [State.applyStep]

theorem execTbStepApply_stampOut (dt : Nat) (s : State) : reaches (execTbStepApply dt s) s.sameStamp := by
  refine ⟨_, rfl, ?_⟩
  split <;> simp

/-! ### What a commit replaces (R45 to R66) -/

@[simp] theorem State.releaseFld_stampOut (s : State) (new : Conf) : s.sameStamp (s.releaseFld new) := by simp [State.releaseFld]
@[simp] theorem State.applyTb_stampOut (s : State) (was : State) : s.sameStamp (s.applyTb was) := by simp [State.applyTb]
@[simp] theorem State.endAcq_stampOut (s : State) : s.sameStamp s.endAcq := by simp [State.endAcq]

@[simp] theorem State.applyBase_stampOut (s : State) (was : State) : s.sameStamp (s.applyBase was) := by
  unfold State.applyBase
  split <;> simp

@[simp] theorem State.applyGns_stampOut (s : State) (was : State) : s.sameStamp (s.applyGns was) := by simp [State.applyGns]
@[simp] theorem State.applyMir_stampOut (s : State) (was : State) : s.sameStamp (s.applyMir was) := by simp [State.applyMir]
@[simp] theorem State.applyFix_stampOut (s : State) (was : State) : s.sameStamp (s.applyFix was) := by simp [State.applyFix]
@[simp] theorem State.armSec_stampOut (s : State) : s.sameStamp s.armSec := by simp [State.armSec]
@[simp] theorem State.applySec_stampOut (s : State) (was : State) : s.sameStamp (s.applySec was) := by simp [State.applySec]

@[simp] theorem State.applyPort_stampOut (s : State) (was : State) (slots : Tbl (List Byte)) (p : Nat) :
    s.sameStamp (s.applyPort was slots p) := by
  unfold State.applyPort
  split <;> simp

@[simp] theorem State.applyHop_stampOut (s : State) (was : State) (slots : Tbl (List Byte)) (nodes : List Byte) :
    s.sameStamp (s.applyHop was slots nodes) := by
  simp [State.applyHop]

@[simp] theorem State.applyFab_stampOut (s : State) (was : State) : s.sameStamp (s.applyFab was) := by simp [State.applyFab]
@[simp] theorem State.applyMem_stampOut (s : State) (was : State) : s.sameStamp (s.applyMem was) := by simp [State.applyMem]
@[simp] theorem State.applyNvm_stampOut (s : State) : s.sameStamp s.applyNvm := rfl

@[simp] theorem State.renewPins_stampOut (s : State) (named : BitVec 20) : s.sameStamp (s.renewPins named) := by
  simp [State.renewPins]

@[simp] theorem State.loadPinned_stampOut (s : State) : s.sameStamp s.loadPinned :=
  State.foldl_stampOut (fun s i => by split <;> simp) ..

@[simp] theorem State.enterRun_stampOut (s : State) : s.sameStamp s.enterRun := by simp [State.enterRun]

@[simp] theorem State.takeEffect_stampOut (was : State) (c : Cand) : was.sameStamp (was.takeEffect c) := by
  simp [State.takeEffect]

/-! ### Host Interface commands (R360 to R388) -/

@[simp] theorem State.advanceSq_stampOut (s : State) (ring : Nat) : s.sameStamp (s.advanceSq ring) := by simp [State.advanceSq]

@[simp] theorem State.addTaken_stampOut (s : State) (d : Desc) : s.sameStamp (s.addTaken d) := by
  unfold State.addTaken
  split <;> simp

@[simp] theorem State.takeDesc_stampOut (s : State) (ring : Nat) (bytes : List Byte) : s.sameStamp (s.takeDesc ring bytes) := by
  unfold State.takeDesc
  dsimp only
  repeat' split
  all_goals simp

@[simp] theorem State.doorbell_stampOut (s : State) (n tail head resume : Nat) :
    s.sameStamp (s.doorbell n tail head resume) := by
  simp [State.doorbell]

@[simp] theorem State.writeRingCtrl_stampOut (s : State) (n : Nat) (v : Word) (keepSize : Bool) :
    s.sameStamp (s.writeRingCtrl n v keepSize) := by
  unfold State.writeRingCtrl
  split <;> simp

theorem execRingEnable_stampOut (dt ring : Nat) (value : Word) (s : State) :
    reaches (execRingEnable dt ring value s) s.sameStamp := by
  refine ⟨_, rfl, ?_⟩
  repeat' split
  all_goals simp

@[simp] theorem State.dropLaunch_stampOut (s : State) (serial : Nat) : s.sameStamp (s.dropLaunch serial) := rfl
@[simp] theorem State.stopRing_stampOut (s : State) (ring : Nat) : s.sameStamp (s.stopRing ring) := by simp [State.stopRing]

@[simp] theorem State.haltRing_stampOut (s : State) (ring index : Nat) : s.sameStamp (s.haltRing ring index) := by
  simp [State.haltRing]

@[simp] theorem State.payloadError_stampOut (s : State) (d : Desc) (detail : Nat) (reading : Bool) :
    s.sameStamp (s.payloadError d detail reading) := by
  simp [State.payloadError]

@[simp] theorem State.dmaError_stampOut (s : State) (phase kind ring index : Nat) :
    s.sameStamp (s.dmaError phase kind ring index) := by
  unfold State.dmaError
  dsimp only
  repeat' split
  all_goals simp

@[simp] theorem State.resetHst_stampOut (s : State) : s.sameStamp s.resetHst := by
  apply State.foldl_stampOut
  exact fun _ _ => rfl

@[simp] theorem State.launchCancel_stampOut (s : State) (d : Desc) : s.sameStamp (s.launchCancel d) := by
  unfold State.launchCancel
  dsimp only
  repeat' split
  all_goals simp

@[simp] theorem State.startFired_stampOut (s : State) (serial : Nat) (late : Bool) : s.sameStamp (s.startFired serial late) :=
  rfl

@[simp] theorem State.fireEntry_stampOut (s : State) : s.sameStamp s.fireEntry := by
  unfold State.fireEntry
  repeat' split
  all_goals simp

/-! ### Commits (R45 to R66, R385) -/

@[simp] theorem State.stageEntries_stampOut (s : State) (l : List (Nat × Nat)) : s.sameStamp (s.stageEntries l) :=
  State.foldl_stampOut (fun s e => by split <;> simp) ..

@[simp] theorem State.settleStore_stampOut (s : State) : s.sameStamp s.settleStore := rfl

@[simp] theorem State.storeBlock_stampOut (s : State) (mask : BitVec 20) (bytes : List Byte) (env : CommitIn) :
    s.sameStamp (s.storeBlock mask bytes env) := by
  unfold State.storeBlock
  split
  · simp
  · dsimp only
    split <;> next h => simp [(State.nvWrite_stampOut ..).of_eq h]

@[simp] theorem State.dmaTable_stampOut (s : State) (host : List (Nat × List Byte)) (addr n : Nat) :
    s.sameStamp (s.dmaTable host addr n).1 := by
  unfold State.dmaTable
  split <;> simp

@[simp] theorem State.readTables_stampOut (s : State) (conf : Conf) (named : BitVec 20) (host : List (Nat × List Byte)) :
    s.sameStamp (s.readTables conf named host).1 := by
  unfold State.readTables
  extract_lets ports
  split
  · split
    next t l h =>
    have ht : s.sameStamp t := (State.foldl_fst_stampOut
      (fun a p => by dsimp only; split <;> next h => simp [(State.dmaTable_stampOut ..).of_eq h]) _ _).of_eq h
    simp [ht]
  · simp

@[simp] theorem State.candidate'_stampOut (s : State) (snap : Conf) (named : BitVec 20) (host : List (Nat × List Byte))
    (again : Bool) : s.sameStamp (s.candidate' snap named host again).1 := by
  simp [State.candidate']

@[simp] theorem State.commitNow_stampOut (s : State) (c : Cand) (persist : Bool) (block : List Byte) (env : CommitIn) :
    s.sameStamp (s.commitNow c persist block env) := by
  simp [State.commitNow]

@[simp] theorem State.beginCheck_stampOut (s : State) (env : CommitIn) : s.sameStamp (s.beginCheck env) := rfl
@[simp] theorem State.keepUndo_stampOut (s was : State) (named : BitVec 20) : s.sameStamp (s.keepUndo was named) := rfl
@[simp] theorem State.endCheck_stampOut (s : State) : s.sameStamp s.endCheck := rfl

@[simp] theorem State.abandonCommit_stampOut (s : State) (cause : Nat) : s.sameStamp (s.abandonCommit cause) := by
  simp [State.abandonCommit]

@[simp] theorem State.commitRegister_stampOut (s : State) (v : Word) (env : CommitIn) :
    s.sameStamp (s.commitRegister v env) := by
  unfold State.commitRegister
  dsimp only
  repeat' split
  all_goals simp

@[simp] theorem State.refuseCommit_stampOut (s : State) (d : Desc) (reason rule : Nat) :
    s.sameStamp (s.refuseCommit d reason rule) := by
  simp [State.refuseCommit]

@[simp] theorem State.announceAll_stampOut (s : State) (c : Cand) (launch : Nat) : s.sameStamp (s.announceAll c launch) := by
  simp [State.announceAll]

@[simp] theorem State.runCommit_stampOut (s : State) (d : Desc) (b : Block) (block : List Byte) (before : Conf) (env : CommitIn) :
    s.sameStamp (s.runCommit d b block before env) := by
  unfold State.runCommit
  dsimp only
  repeat' split
  all_goals simp

@[simp] theorem State.hostCommit_stampOut (s : State) (d : Desc) (payload : List Byte) (env : CommitIn) :
    s.sameStamp (s.hostCommit d payload env) := by
  unfold State.hostCommit
  repeat' split
  all_goals simp

@[simp] theorem State.launchCommit_stampOut (s : State) (env : CommitIn) : s.sameStamp (s.launchCommit env) := by
  unfold State.launchCommit
  dsimp only
  repeat' split
  all_goals simp

/-! ### Field Store commands (R119 to R137) -/

@[simp] theorem State.withFld_stampOut {f : State → Desc → State} (hf : ∀ s d, State.sameStamp s (f s d)) (s : State)
    (ring index op : Nat) (variant : Desc → Bool) (dram : Bool) : s.sameStamp (s.withFld ring index op variant dram f) := by
  refine State.withDesc_stampOut (fun s d => ?_) ..
  split <;> simp [hf]

@[simp] theorem State.tileField_stampOut {f : State → Desc → Nat → State} (hf : ∀ s d n, State.sameStamp s (f s d n)) (s : State)
    (d : Desc) : s.sameStamp (s.tileField d f) := by
  simp [State.tileField, hf]

theorem execFldTileSave_stampOut (dt ring index : Nat) (s : State) :
    reaches (execFldTileSave dt ring index s) s.sameStamp := by
  refine ⟨_, rfl, State.withFld_stampOut (fun s d => ?_) ..⟩
  split
  · simp
  · refine State.tileField_stampOut (fun s d f => ?_) s d
    dsimp only
    split <;> simp

@[simp] theorem State.fldTable_stampOut {f : State → Desc → Nat → Nat → Nat → State}
    (hf : ∀ s d n k m, State.sameStamp s (f s d n k m)) (s : State) (d : Desc) : s.sameStamp (s.fldTable d f) := by
  simp [State.fldTable, hf]

theorem execFldSyncApply_stampOut (dt ring index : Nat) (payload : List Byte) (s : State) :
    reaches (execFldSyncApply dt ring index payload s) s.sameStamp := by
  refine ⟨_, rfl, State.withFld_stampOut (fun s d => ?_) ..⟩
  dsimp only
  split
  · simp
  · split <;> simp

theorem execFldCopyDone_stampOut (dt : Nat) (s : State) : reaches (execFldCopyDone dt s) s.sameStamp := by
  refine ⟨_, rfl, ?_⟩
  split <;> simp

/-! ### Fix Engine commands (R193 to R223) -/

theorem execFixRtcmGet_stampOut (dt ring index : Nat) (s : State) :
    reaches (execFixRtcmGet dt ring index s) s.sameStamp :=
  ⟨_, rfl, State.withDesc_stampOut (fun s d => by split <;> simp) ..⟩

theorem execFixStrings_stampOut (dt ring index : Nat) (payload : List Byte) (s : State) :
    reaches (execFixStrings dt ring index payload s) s.sameStamp := by
  refine ⟨_, rfl, State.withDesc_stampOut (fun s d => ?_) ..⟩
  split
  · simp
  · split
    · simp
    · split <;> simp

@[simp] theorem State.resetRover_stampOut (s : State) (m : Nat) : s.sameStamp (s.resetRover m) := by simp [State.resetRover]

theorem execFixRoverReset_stampOut (dt ring index : Nat) (s : State) :
    reaches (execFixRoverReset dt ring index s) s.sameStamp := by
  refine ⟨_, rfl, State.withDesc_stampOut (fun s d => ?_) ..⟩
  split
  · simp
  · split <;> simp

theorem execFixEpochDeadline_stampOut (dt machine : Nat) (s : State) :
    reaches (execFixEpochDeadline dt machine s) s.sameStamp := by
  refine ⟨_, rfl, ?_⟩
  split <;> simp

theorem execFixSolveStart_stampOut (dt : Nat) (s : State) : reaches (execFixSolveStart dt s) s.sameStamp := by
  refine ⟨_, rfl, ?_⟩
  repeat' split
  all_goals simp

@[simp] theorem State.writeSol_stampOut (s : State) (b : List Byte) : s.sameStamp (s.writeSol b) := by
  unfold State.writeSol
  dsimp only
  repeat' split
  all_goals simp

@[simp] theorem State.conformCentral_stampOut (s : State) (r : SolRec) : s.sameStamp (s.conformCentral r) := by
  unfold State.conformCentral
  repeat' split
  all_goals simp

@[simp] theorem State.deliverSol_stampOut (s : State) (r : SolRec) (done : Nat) : s.sameStamp (s.deliverSol r done) := by
  simp [State.deliverSol]

theorem execFixSolReady_stampOut (dt lane : Nat) (input : SolveIn) (s : State) :
    reaches (execFixSolReady dt lane input s) s.sameStamp := by
  refine ⟨_, rfl, ?_⟩
  split <;> simp

/-! ### The Memory System (R445 to R452) -/

@[simp] theorem State.failWaiting_stampOut (s : State) (u : Nat) : s.sameStamp (s.failWaiting u) := by simp [State.failWaiting]
@[simp] theorem State.forceLevel_stampOut (s : State) : s.sameStamp s.forceLevel := by simp [State.forceLevel]
@[simp] theorem State.unitFault_stampOut (s : State) (u : Nat) : s.sameStamp (s.unitFault u) := by simp [State.unitFault]
@[simp] theorem State.eccCorrected_stampOut (s : State) : s.sameStamp s.eccCorrected := by simp [State.eccCorrected]
@[simp] theorem State.eccFailed_stampOut (s : State) (addr : Nat) : s.sameStamp (s.eccFailed addr) := by simp [State.eccFailed]
@[simp] theorem State.eccHit_stampOut (s : State) (h : Nat × Bool) : s.sameStamp (s.eccHit h) := by simp [State.eccHit]

@[simp] theorem State.breakResv_stampOut (s : State) (storer : Option Nat) (a : Nat) : s.sameStamp (s.breakResv storer a) :=
  rfl

@[simp] theorem State.dualRound_stampOut (s : State) (r : DualRound) : s.sameStamp (s.dualRound r) := by simp [State.dualRound]

theorem execMemScrub_stampOut (dt : Nat) (work : MemWork) (s : State) : reaches (execMemScrub dt work s) s.sameStamp := by
  refine ⟨_, rfl, ?_⟩
  repeat' split
  all_goals simp

theorem execDisWatchdog_stampOut (dt k : Nat) (s : State) : reaches (execDisWatchdog dt k s) s.sameStamp := by
  refine ⟨_, rfl, ?_⟩
  dsimp only
  repeat' split
  all_goals simp

/-! ### The recorder (R502 to R514) -/

@[simp] theorem State.recordNext_stampOut (s : State) : s.sameStamp s.recordNext := by
  unfold State.recordNext
  dsimp only
  repeat' split
  all_goals simp

@[simp] theorem State.crnDesc_stampOut {f : State → State} (hf : ∀ s, State.sameStamp s (f s)) (s : State) (d : Desc) :
    s.sameStamp (s.crnDesc d f) := by
  simp [State.crnDesc, hf]

@[simp] theorem State.autoFlush_stampOut (s : State) : s.sameStamp s.autoFlush := by simp [State.autoFlush]
@[simp] theorem State.endFlush_stampOut (s : State) (bad : List Nat) : s.sameStamp (s.endFlush bad) := by simp [State.endFlush]

@[simp] theorem State.crnRead_stampOut (s : State) (d : Desc) (store : Tbl Record) : s.sameStamp (s.crnRead d store) := by
  simp [State.crnRead]

@[simp] theorem State.classXfer_stampOut {f : State → Desc → Nat → Nat → State} (hf : ∀ s d n k, State.sameStamp s (f s d n k))
    (s : State) (d : Desc) : s.sameStamp (s.classXfer d f) := by
  simp [State.classXfer, hf]

/-! ### Register writes (R40 to R44) -/

@[simp] theorem State.clearBits_stampOut (s : State) (off v : Nat) : s.sameStamp (s.clearBits off v) := by
  unfold State.clearBits
  repeat' split
  all_goals simp

@[simp] theorem State.writeMsix_stampOut (s : State) (i v : Nat) : s.sameStamp (s.writeMsix i v) := by simp [State.writeMsix]

@[simp] theorem State.writeTamper_stampOut (s : State) (r : RegDef) (v : Nat) : s.sameStamp (s.writeTamper r v) := by
  simp [State.writeTamper]

@[simp] theorem State.writeFields_stampOut (s : State) (r : RegDef) (off v : Nat) : s.sameStamp (s.writeFields r off v) := by
  simp [State.writeFields]

@[simp] theorem State.latchBases_stampOut (s : State) (off : Nat) : s.sameStamp (s.latchBases off) := by
  unfold State.latchBases
  repeat' split
  all_goals simp

@[simp] theorem State.afterWrite_stampOut (s : State) (was : State) (off : Nat) : s.sameStamp (s.afterWrite was off) := by
  unfold State.afterWrite
  repeat' split
  all_goals simp

@[simp] theorem State.writeReg_stampOut (s : State) (off v : Nat) : s.sameStamp (s.writeReg off v) := by
  unfold State.writeReg
  repeat' split
  all_goals simp

/-! ### The section epoch (R299 to R331) -/

@[simp] theorem State.epoch_stampOut (s : State) (tf us : Nat) : s.sameStamp (s.epoch tf us) := by
  obtain ⟨A, h⟩ := s.epochRun_inEpoch tf
  simp [State.epoch_eq, h.tb]

@[simp] theorem State.rearmEpoch_stampOut (s : State) (p : Periodic) : s.sameStamp (s.rearmEpoch p) := rfl

theorem execSecEpoch_stampOut (dt us : Nat) (s : State) : reaches (execSecEpoch dt us s) s.sameStamp := by
  unfold execSecEpoch
  dsimp only
  refine ⟨_, rfl, ?_⟩
  repeat' split
  all_goals simp

/-! ### Stop commands (R332 to R358) -/

@[simp] theorem State.setPin_stampOut (s : State) (pinB stop : Bool) : s.sameStamp (s.setPin pinB stop) := rfl

theorem execStpPinFault_stampOut (dt : Nat) (s : State) : reaches (execStpPinFault dt s) s.sameStamp := by
  refine ⟨_, rfl, ?_⟩
  split <;> simp

@[simp] theorem State.setPulse_stampOut (s : State) (outB : Bool) (p : Option Nat) (t : Nat) :
    s.sameStamp (s.setPulse outB p t) :=
  rfl

theorem execStpSelftestPulseEnd_stampOut (dt : Nat) (outB readBack : Bool) (s : State) :
    reaches (execStpSelftestPulseEnd dt outB readBack s) s.sameStamp := by
  refine ⟨_, rfl, ?_⟩
  split <;> simp

@[simp] theorem State.stpStop_stampOut (s : State) (d : Desc) : s.sameStamp (s.stpStop d) := by simp [State.stpStop]

@[simp] theorem State.refuseRelease_stampOut (s : State) (d : Desc) (status : Nat) : s.sameStamp (s.refuseRelease d status) := by
  simp [State.refuseRelease]

@[simp] theorem State.stpArm_stampOut (s : State) (d : Desc) : s.sameStamp (s.stpArm d) := by
  unfold State.stpArm
  dsimp only
  repeat' split
  all_goals simp

@[simp] theorem State.release_stampOut (s : State) : s.sameStamp s.release := by simp [State.release]

@[simp] theorem State.stpConfirm_stampOut (s : State) (d : Desc) : s.sameStamp (s.stpConfirm d) := by
  unfold State.stpConfirm
  split <;> simp

theorem execStpArmExpired_stampOut (dt : Nat) (s : State) : reaches (execStpArmExpired dt s) s.sameStamp := by
  refine ⟨_, rfl, ?_⟩
  repeat' split
  all_goals simp

@[simp] theorem State.reEnable_stampOut (s : State) (m : Nat) : s.sameStamp (s.reEnable m) := by simp [State.reEnable]
@[simp] theorem State.stpReEnable_stampOut (s : State) (d : Desc) : s.sameStamp (s.stpReEnable d) := by simp [State.stpReEnable]

/-! ### A reset (R24 to R26) -/

/-- A reset of the device, which forgets the stamp shown, left `t`. -/
def State.stampForgotten (t : State) : Prop := t.tb.stampOut = none ∧ t.pwr.state ≠ .run ∧ t.hst = { Hst.reset with pci := t.hst.pci }

/-- From `s` to `t` the stamp shown stands, or a reset forgot it. -/
def State.keepsStamp (s t : State) : Prop := s.sameStamp t ∨ t.stampForgotten

theorem State.sameStamp.keeps {s t u : State} (h : s.sameStamp t) (k : t.keepsStamp u) : s.keepsStamp u := k.imp_left h.trans

theorem State.restart_stampOut (s : State) (cause : Nat) : (s.restart cause).tb.stampOut = none := by
  unfold State.restart
  rw [State.moveBoundary_stampOut]
  rfl

/-- What a reset leaves of `s` shows no stamp. -/
theorem State.resetTo.forgets {s t : State} {cause : Nat} (h : s.resetTo cause t) (ho : t.tb.stampOut = none) : t.stampForgotten :=
  ⟨ho, by rw [h.state]; decide, by rw [h.hst]⟩

theorem State.restart_forgets (s : State) (cause : Nat) : (s.restart cause).stampForgotten :=
  (s.restart_resetTo cause).forgets (s.restart_stampOut cause)

theorem State.restart_leave_forgets (s : State) (cause : Nat) : ((s.restart cause).leaveReset false).stampForgotten :=
  (s.restart_resetTo cause).leaveReset.forgets (Eq.trans (State.leaveReset_stampOut ..) (s.restart_stampOut cause))

theorem State.withDesc_keepsStamp {f : State → Desc → State} (hf : ∀ s d, State.keepsStamp s (f s d)) (s : State)
    (ring index op : Nat) (variant : Desc → Bool) : s.keepsStamp (s.withDesc ring index op variant f) := by
  unfold State.withDesc
  split
  · split
    · exact hf ..
    · exact .inl rfl
  · exact .inl rfl

theorem execPowerOnReset_keepsStamp (dt : Nat) (good : BitVec 10) (vbat : Bool) (s : State) :
    reaches (execPowerOnReset dt good vbat s) s.keepsStamp := by
  refine ⟨_, rfl, ?_⟩
  dsimp only
  split
  · exact .inl (by simp)
  · exact .inr (State.restart_forgets ..)

theorem execPwrDeviceReset_keepsStamp (dt : Nat) (value : Word) (s : State) :
    reaches (execPwrDeviceReset dt value s) s.keepsStamp := by
  refine ⟨_, rfl, ?_⟩
  split
  · exact .inl rfl
  · exact .inr (State.restart_leave_forgets ..)

/-- An update that ends in `RECOVERY` resets the device (R27, R498). -/
theorem execBootUpdateFinish_keepsStamp (dt ring index : Nat) (run : NvRun) (s : State) :
    reaches (execBootUpdateFinish dt ring index run s) s.keepsStamp := by
  refine ⟨_, rfl, State.sameStamp.keeps (t := s.elapse dt) rfl (State.withDesc_keepsStamp (fun s d => ?_) ..)⟩
  unfold State.unlessHeld
  split
  · exact .inl (by simp)
  · dsimp only
    split
    · exact .inr (State.restart_leave_forgets ..)
    · exact .inl (by simp)

theorem execRecoveryDataReceived_keepsStamp (now : Timed NvRun) (frame : List Byte) (s : State) :
    reaches (execRecoveryDataReceived now frame s) s.keepsStamp := by
  refine ⟨_, rfl, ?_⟩
  dsimp only
  split
  · exact .inl rfl
  split
  · exact .inl (by simp)
  split
  · exact .inl (by simp)
  split
  · exact .inl (by simp)
  split
  · exact .inl (by simp)
  split
  · exact .inl (by simp)
  split
  · exact .inr (State.restart_leave_forgets ..)
  · next h => exact .inl (by simp [(State.finishUpdate_stampOut ..).of_eq h])
  · next h => exact .inl (by simp [(State.finishUpdate_stampOut ..).of_eq h])

/-! ### Every command -/

/-- The commands that may change the stamp shown: its read, and those with which the device resets. -/
def changesStamp : Instr → Bool
  | .tbStampPop .. | .powerOnReset .. | .porstNFall .. | .pwrDeviceReset .. | .bootUpdateFinish .. | .recoveryDataReceived .. => true
  | _ => false

/-- Every other command leaves the stamp shown. A command without a lemma of its own is a chain of operations. -/
theorem exec_stampOut (c : Instr) (s : State) (hc : changesStamp c = false) : reaches (exec c s) s.sameStamp := by
  cases c with
  | powerOnReset => cases hc
  | porstNFall => cases hc
  | pwrDeviceReset => cases hc
  | bootUpdateFinish => cases hc
  | tamperEvent => exact execTamperEvent_stampOut ..
  | pfailFall => exact execPfailFall_stampOut ..
  | pfailClear => exact execPfailClear_stampOut ..
  | stageSlowFatal => exact execStageSlowFatal_stampOut ..
  | dieLinkFail => exact execDieLinkFail_stampOut ..
  | securityCoreFault => exact execSecurityCoreFault_stampOut ..
  | romSlotSelect => exact execRomSlotSelect_stampOut ..
  | firmwareStart => exact execFirmwareStart_stampOut ..
  | bootUpdateBegin => exact execBootUpdateBegin_stampOut ..
  | bootUpdateWrite => exact execBootUpdateWrite_stampOut ..
  | bootConfirm => exact execBootConfirm_stampOut ..
  | bootPeerServe => exact execBootPeerServe_stampOut ..
  | recoveryDataReceived => cases hc
  | nvmCfgGet => exact execNvmCfgGet_stampOut ..
  | nvmUserWrite => exact execNvmUserWrite_stampOut ..
  | carRequestDecide => exact execCarRequestDecide_stampOut ..
  | carHostTimeout => exact execCarHostTimeout_stampOut ..
  | carTrackRead => exact execCarTrackRead_stampOut ..
  | fabLinkTimeout => exact execFabLinkTimeout_stampOut ..
  | fabPcsLoss => exact execFabPcsLoss_stampOut ..
  | fabBlockLock => exact execFabBlockLock_stampOut ..
  | fabModuleChange => exact execFabModuleChange_stampOut ..
  | fabLsaExpire => exact execFabLsaExpire_stampOut ..
  | fabSpfRun => exact execFabSpfRun_stampOut ..
  | fabRecv => exact execFabRecv_stampOut ..
  | fabLearnRemove => exact execFabLearnRemove_stampOut ..
  | fabLearnLookup => exact execFabLearnLookup_stampOut ..
  | fabLearnEvent => exact execFabLearnEvent_stampOut ..
  | fabModuleWrite => exact execFabModuleWrite_stampOut ..
  | gnsCapture => exact execGnsCapture_stampOut ..
  | gnsCaptureDone => exact execGnsCaptureDone_stampOut ..
  | gnsAcq => exact execGnsAcq_stampOut ..
  | gnsAcqDone => exact execGnsAcqDone_stampOut ..
  | gnsMeasReady => exact execGnsMeasReady_stampOut ..
  | hopRecv => exact execHopRecv_stampOut ..
  | mirConditionClear => exact execMirConditionClear_stampOut ..
  | tbSourceLost => exact execTbSourceLost_stampOut ..
  | ppsOutPulseEnd => exact execPpsOutPulseEnd_stampOut ..
  | tbStepApply => exact execTbStepApply_stampOut ..
  | tbStampPop => cases hc
  | ringEnable => exact execRingEnable_stampOut ..
  | fldTileSave => exact execFldTileSave_stampOut ..
  | fldSyncApply => exact execFldSyncApply_stampOut ..
  | fldCopyDone => exact execFldCopyDone_stampOut ..
  | fixRtcmGet => exact execFixRtcmGet_stampOut ..
  | fixStrings => exact execFixStrings_stampOut ..
  | fixRoverReset => exact execFixRoverReset_stampOut ..
  | fixEpochDeadline => exact execFixEpochDeadline_stampOut ..
  | fixSolveStart => exact execFixSolveStart_stampOut ..
  | fixSolReady => exact execFixSolReady_stampOut ..
  | memScrub => exact execMemScrub_stampOut ..
  | disWatchdog => exact execDisWatchdog_stampOut ..
  | secEpoch => exact execSecEpoch_stampOut ..
  | stpPinFault => exact execStpPinFault_stampOut ..
  | stpSelftestPulseEnd => exact execStpSelftestPulseEnd_stampOut ..
  | stpArmExpired => exact execStpArmExpired_stampOut ..
  | _ => exact ⟨_, rfl, by simp⟩

/-- A command that does not read the head of the queue keeps the stamp shown, or resets the device. -/
theorem exec_keepsStamp (c : Instr) (s : State) (hc : ∀ dt, c ≠ .tbStampPop dt) : reaches (exec c s) s.keepsStamp := by
  by_cases h : changesStamp c = false
  · obtain ⟨t, hx, ht⟩ := exec_stampOut c s h
    exact ⟨t, hx, .inl ht⟩
  · cases c with
    | tbStampPop dt => exact absurd rfl (hc dt)
    | powerOnReset => exact execPowerOnReset_keepsStamp ..
    | porstNFall => exact ⟨_, rfl, .inr (State.restart_forgets ..)⟩
    | pwrDeviceReset => exact execPwrDeviceReset_keepsStamp ..
    | bootUpdateFinish => exact execBootUpdateFinish_keepsStamp ..
    | recoveryDataReceived => exact execRecoveryDataReceived_keepsStamp ..
    | _ => exact absurd rfl h

/-! ### The read of the head (R95) -/

theorem execTbStampPop_of_running {s : State} (h : s.pwr.inReset = false) (dt : Nat) :
    exec (.tbStampPop dt) s = .next (s.elapse dt).popStamp :=
  next_of_not_guard _ _ (by simpa using h)

theorem State.popStamp_of_cons {s : State} {h : Stamp} {r : List Stamp} (hs : s.tb.stamps = h :: r) :
    s.popStamp = { s with tb := { s.tb with stamps := r, stampOut := some h } } := by simp [State.popStamp, hs]

theorem State.popStamp_of_nil {s : State} (hs : s.tb.stamps = []) : s.popStamp = { s with tb := { s.tb with stampOut := none } } := by
  simp [State.popStamp, hs]

/-- What W0 to W3 read while a stamp is shown. -/
theorem State.readTb_of_stampOut {s : State} {h : Stamp} (hs : s.tb.stampOut = some h) :
    s.readTb 0x20C0 = pack [(0, h.id), (16, h.source), (31, 1)] ∧ s.readTb 0x20C4 = h.ns % 1000000000 ∧
    s.readTb 0x20C8 = bits (h.ns / 1000000000) 0 32 ∧
    s.readTb 0x20CC = pack [(0, bits (h.ns / 1000000000) 32 16), (16, h.t16 % 65536)] := by
  simp [State.readTb, hs]

theorem State.readTb_of_no_stamp {s : State} (hs : s.tb.stampOut = none) : s.readTb 0x20C0 = 0 := by simp [State.readTb, hs]

/-- Settles O1: the read is `State.popStamp`, and no operation of another command reaches the stamp shown but a reset. -/
theorem stampPopTakesTheHead : Obligations.StampPopTakesTheHead := by
  unfold Obligations.StampPopTakesTheHead
  refine ⟨fun s dt hr => ⟨fun h r hs => ⟨_, execTbStampPop_of_running hr dt, ?_⟩, fun hs => ⟨_, execTbStampPop_of_running hr dt, ?_⟩⟩,
    fun c s t hx => ?_⟩
  · rw [State.popStamp_of_cons (s := s.elapse dt) hs]
    exact ⟨rfl, State.readTb_of_stampOut rfl⟩
  · rw [State.popStamp_of_nil (s := s.elapse dt) hs]
    exact ⟨rfl, State.readTb_of_no_stamp rfl⟩
  · by_cases hc : ∃ dt, c = .tbStampPop dt
    · exact .inr (.inl hc)
    · obtain ⟨u, hu, hk⟩ := exec_keepsStamp c s fun dt hp => hc ⟨dt, hp⟩
      obtain rfl : u = t := Host.Outcome.next.inj (hu.symm.trans hx)
      exact hk.imp_right .inr

end Sys2Proof.Machine
